-- ==== Sys2Proof/Word.lean ====
section
/-!
DEFINITION. The words of the PV2464-LC (00_scope.md R8, R9) and their plainest arithmetic.
-/

namespace Sys2Proof

/-- One byte. -/
abbrev Byte := BitVec 8
/-- A string of bytes, lowest address first. -/
abbrev Bytes := List (BitVec 8)
/-- A 32-bit word: a per-thread register (07 R188), a mailbox word (15 R458). -/
abbrev U32 := BitVec 32
/-- A 64-bit word: a scalar register (07 R188). -/
abbrev U64 := BitVec 64
/-- A 128-bit digest (11 R338, 13 R408). -/
abbrev U128 := BitVec 128
/-- A vector register or operand-cache row of 8,192 bits (06 R153, R155). -/
abbrev Row := BitVec 8192

/-- `n` cut to `w` bits, as a number. -/
def cut (w n : Nat) : Nat := n % 2 ^ w

/-- Bits `[hi:lo]` of a number (R8: a range includes both ends). -/
def bitsOf (n hi lo : Nat) : Nat := n / 2 ^ lo % 2 ^ (hi + 1 - lo)

/-- Bit `i` of a number. -/
def bitOf (n i : Nat) : Bool := n.testBit i

/-- The signed reading of the low `w` bits of a number (two's complement). -/
def signedOf (w n : Nat) : Int :=
  let u := n % 2 ^ w
  if u < 2 ^ (w - 1) then (u : Int) else (u : Int) - (2 ^ w : Nat)

/-- A signed number as `w` bits (two's complement). -/
def unsignedOf (w : Nat) (i : Int) : Nat := (i % ((2 ^ w : Nat) : Int)).toNat

end Sys2Proof
end

