-- ==== Sys2Proof/Syntax.lean ====
section
/-!
DEFINITION. The commands the module takes, with their operands: the rows of spec/opcode_table.json.
-/

namespace Sys2Proof

/-- Where a kernel instruction runs: a core index (01 R27) and a thread group of its kernel (07 R185). The group
issues on the path that 07 R191 schedules. -/
structure At where
  core : Nat
  group : Nat
deriving DecidableEq, Repr

/-- The fields of an ordinary arithmetic instruction (07 R207, R208). -/
structure ArithOp where
  dst : BitVec 8
  a : BitVec 8
  b : BitVec 8
  c : BitVec 8
  immf : Bool
  cc : BitVec 3
  imm : BitVec 16
deriving DecidableEq, Repr

/-- The fields of a thread load or store (07 R207, R212). -/
structure MemOp where
  dst : BitVec 8
  a : BitVec 8
  b : BitVec 8
  space : BitVec 2
  size : BitVec 3
  vol : Bool
  sext : Bool
  off : BitVec 16
deriving DecidableEq, Repr

/-- The fields of an atomic (07 R207, R212, R213). -/
structure AtomOp where
  dst : BitVec 8
  a : BitVec 8
  b : BitVec 8
  space : BitVec 2
  size : BitVec 3
  ret : Bool
  xfmt : BitVec 4
  off : BitVec 16
deriving DecidableEq, Repr


/-- The commands of the module: one for each step of spec/opcode_table.json. -/
inductive Instr where
  /-- R210: Arithmetic no-operation instruction. -/
  | nop (t : At) (o : ArithOp)
  /-- R210: Copies register a to d. -/
  | mov (t : At) (o : ArithOp)
  /-- R210: Loads the sign-extended 32-bit immediate into d. -/
  | movi (t : At) (dst : BitVec 8) (imm : BitVec 32)
  /-- R210: Loads the immediate into bits 63:32 of a scalar register. -/
  | movhi (t : At) (dst : BitVec 8) (imm : BitVec 32)
  /-- R190: Reads a special register into d. -/
  | movsp (t : At) (o : ArithOp)
  /-- R210: Integer add. -/
  | iadd (t : At) (o : ArithOp)
  /-- R210: Integer subtract. -/
  | isub (t : At) (o : ArithOp)
  /-- R210: Low half of an integer product. -/
  | imul (t : At) (o : ArithOp)
  /-- R210: High half of an unsigned product. -/
  | imulhu (t : At) (o : ArithOp)
  /-- R210: Low half of a times b plus c. -/
  | imad (t : At) (o : ArithOp)
  /-- R210: Signed integer minimum. -/
  | imin (t : At) (o : ArithOp)
  /-- R210: Signed integer maximum. -/
  | imax (t : At) (o : ArithOp)
  /-- R210: Bitwise AND. -/
  | andb (t : At) (o : ArithOp)
  /-- R210: Bitwise OR. -/
  | orb (t : At) (o : ArithOp)
  /-- R210: Bitwise XOR. -/
  | xorb (t : At) (o : ArithOp)
  /-- R210: Shift left by b. -/
  | shl (t : At) (o : ArithOp)
  /-- R210: Logical shift right by b. -/
  | shr (t : At) (o : ArithOp)
  /-- R210: Arithmetic shift right by b. -/
  | sar (t : At) (o : ArithOp)
  /-- R210: Counts the set bits of a. -/
  | popc (t : At) (o : ArithOp)
  /-- R210: Counts the leading zeros of a. -/
  | clz (t : At) (o : ArithOp)
  /-- R210: Integer comparison under CC giving 1 or 0. -/
  | iset (t : At) (o : ArithOp)
  /-- R210: Selects a or b by c. -/
  | sel (t : At) (o : ArithOp)
  /-- R210: FP32 add rounded once. -/
  | fadd (t : At) (o : ArithOp)
  /-- R210: FP32 subtract. -/
  | fsub (t : At) (o : ArithOp)
  /-- R210: FP32 multiply. -/
  | fmul (t : At) (o : ArithOp)
  /-- R210: FP32 fused multiply-add with one rounding. -/
  | ffma (t : At) (o : ArithOp)
  /-- R210: FP32 minimum. -/
  | fmin (t : At) (o : ArithOp)
  /-- R210: FP32 maximum. -/
  | fmax (t : At) (o : ArithOp)
  /-- R210: FP32 comparison under CC giving 1 or 0. -/
  | fset (t : At) (o : ArithOp)
  /-- R210: Converts a signed integer to FP32. -/
  | i2f (t : At) (o : ArithOp)
  /-- R210: Converts FP32 to a saturated signed 32-bit integer. -/
  | f2i (t : At) (o : ArithOp)
  /-- R210: ANY, ALL or BALLOT over the active lanes into a scalar. -/
  | vote (t : At) (o : ArithOp)
  /-- R210: Copies one lane's per-thread register into a scalar. -/
  | v2s (t : At) (o : ArithOp)
  /-- R210: Reads a per-thread register from another lane. -/
  | shfl (t : At) (o : ArithOp)
  /-- R132: Hands a matrix descriptor to the array queue, where it is read and validated. -/
  | miss (t : At) (a : BitVec 8) (tk : BitVec 3)
  /-- R82: A queued matrix instruction takes a bank and starts its slices once a bank is free. -/
  | matrixStart (core : Nat) (id : Nat)
  /-- R103: The operand streamer completes a ring segment from a remote source. -/
  | ringSegmentFilled (core : Nat) (id : Nat)
  /-- R96: The gather wait elapses and the fill closes and runs. -/
  | gatherWaitExpiry (core : Nat) (fill : Nat)
  /-- R80: The last slice is added, cells are checked, rounded and drained, and completion is signalled. -/
  | matrixComplete (core : Nat) (id : Nat) (residues : Nat)
  /-- R164: Vector fused multiply-add. -/
  | vfma (t : At) (a : BitVec 8) (b : BitVec 8) (tk : BitVec 3)
  /-- R164: Vector float add. -/
  | vadd (t : At) (a : BitVec 8) (b : BitVec 8) (tk : BitVec 3)
  /-- R164: Vector float subtract. -/
  | vsub (t : At) (a : BitVec 8) (b : BitVec 8) (tk : BitVec 3)
  /-- R164: Vector float multiply. -/
  | vmul (t : At) (a : BitVec 8) (b : BitVec 8) (tk : BitVec 3)
  /-- R164: Vector float minimum. -/
  | vmin (t : At) (a : BitVec 8) (b : BitVec 8) (tk : BitVec 3)
  /-- R164: Vector float maximum. -/
  | vmax (t : At) (a : BitVec 8) (b : BitVec 8) (tk : BitVec 3)
  /-- R164: Vector float comparison producing masks. -/
  | vcmp (t : At) (a : BitVec 8) (b : BitVec 8) (tk : BitVec 3)
  /-- R163: Vector select by the elements of c. -/
  | vsel (t : At) (a : BitVec 8) (b : BitVec 8) (tk : BitVec 3)
  /-- R163: Broadcasts the immediate into every 32-bit element. -/
  | vbcast (t : At) (a : BitVec 8) (b : BitVec 8) (tk : BitVec 3)
  /-- R163: Vector integer add. -/
  | viadd (t : At) (a : BitVec 8) (b : BitVec 8) (tk : BitVec 3)
  /-- R163: Vector integer subtract. -/
  | visub (t : At) (a : BitVec 8) (b : BitVec 8) (tk : BitVec 3)
  /-- R163: Vector integer multiply, low 32 bits. -/
  | vimul (t : At) (a : BitVec 8) (b : BitVec 8) (tk : BitVec 3)
  /-- R163: Vector bitwise AND. -/
  | vand (t : At) (a : BitVec 8) (b : BitVec 8) (tk : BitVec 3)
  /-- R163: Vector bitwise OR. -/
  | vor (t : At) (a : BitVec 8) (b : BitVec 8) (tk : BitVec 3)
  /-- R163: Vector bitwise XOR. -/
  | vxor (t : At) (a : BitVec 8) (b : BitVec 8) (tk : BitVec 3)
  /-- R163: Vector shift left. -/
  | vshl (t : At) (a : BitVec 8) (b : BitVec 8) (tk : BitVec 3)
  /-- R163: Vector logical shift right. -/
  | vshr (t : At) (a : BitVec 8) (b : BitVec 8) (tk : BitVec 3)
  /-- R163: Vector arithmetic shift right. -/
  | vsar (t : At) (a : BitVec 8) (b : BitVec 8) (tk : BitVec 3)
  /-- R163: Vector integer minimum. -/
  | vimin (t : At) (a : BitVec 8) (b : BitVec 8) (tk : BitVec 3)
  /-- R163: Vector integer maximum. -/
  | vimax (t : At) (a : BitVec 8) (b : BitVec 8) (tk : BitVec 3)
  /-- R165: Adds G16 elements exactly into LA128 cell rows. -/
  | vgacc (t : At) (a : BitVec 8) (b : BitVec 8) (tk : BitVec 3)
  /-- R167: Correctly rounded 2^a. -/
  | vexp2 (t : At) (a : BitVec 8) (b : BitVec 8) (tk : BitVec 3)
  /-- R167: Correctly rounded log2(a). -/
  | vlog2 (t : At) (a : BitVec 8) (b : BitVec 8) (tk : BitVec 3)
  /-- R167: Correctly rounded reciprocal. -/
  | vrcp (t : At) (a : BitVec 8) (b : BitVec 8) (tk : BitVec 3)
  /-- R167: Correctly rounded reciprocal square root. -/
  | vrsqrt (t : At) (a : BitVec 8) (b : BitVec 8) (tk : BitVec 3)
  /-- R167: Correctly rounded square root. -/
  | vsqrt (t : At) (a : BitVec 8) (b : BitVec 8) (tk : BitVec 3)
  /-- R168: Permutes elements of A by indices in B. -/
  | vperm (t : At) (a : BitVec 8) (b : BitVec 8) (tk : BitVec 3)
  /-- R168: Permutes elements of A followed by C by indices in B. -/
  | vperm2 (t : At) (a : BitVec 8) (b : BitVec 8) (tk : BitVec 3)
  /-- R169: Applies a fixed shuffle pattern. -/
  | vshuf (t : At) (a : BitVec 8) (b : BitVec 8) (tk : BitVec 3)
  /-- R170: Packs halves of A and B into D. -/
  | vpack (t : At) (a : BitVec 8) (b : BitVec 8) (tk : BitVec 3)
  /-- R170: Widens one half of A. -/
  | vunpack (t : At) (a : BitVec 8) (b : BitVec 8) (tk : BitVec 3)
  /-- R171: Converts elements between formats with round_out. -/
  | vcvt (t : At) (a : BitVec 8) (b : BitVec 8) (tk : BitVec 3)
  /-- R172: Requantises to MX in natural or regrouping form. -/
  | vmxq (t : At) (a : BitVec 8) (b : BitVec 8) (tk : BitVec 3)
  /-- R173: Computes an exact row statistic. -/
  | vrstat (t : At) (a : BitVec 8) (b : BitVec 8) (tk : BitVec 3)
  /-- R175: Add-with-remainder update of BF16 weights. -/
  | vaddr (t : At) (a : BitVec 8) (b : BitVec 8) (tk : BitVec 3)
  /-- R289: Publishes an amax register to the scale keeper and clears it. -/
  | vamaxput (t : At) (a : BitVec 8) (b : BitVec 8) (tk : BitVec 3)
  /-- R179: Histograms magnitude keys into a register. -/
  | vkhist (t : At) (a : BitVec 8) (b : BitVec 8) (tk : BitVec 3)
  /-- R180: Selects index-value pairs above a threshold with a tie quota. -/
  | vksel (t : At) (a : BitVec 8) (b : BitVec 8) (tk : BitVec 3)
  /-- R181: Copies rows from memory into registers or cache rows. -/
  | vldr (t : At) (a : BitVec 8) (b : BitVec 8) (tk : BitVec 3)
  /-- R181: Copies rows to memory. -/
  | vstr (t : At) (a : BitVec 8) (b : BitVec 8) (tk : BitVec 3)
  /-- R146: Sums tie slots exactly and rounds once. -/
  | vtiesum (t : At) (a : BitVec 8) (b : BitVec 8) (tk : BitVec 3)
  /-- R160: A queued vector operation starts once its registers and rows are free. -/
  | vectorOpStart (core : Nat) (id : Nat)
  /-- R162: A vector operation writes its last result and signals completion. -/
  | vectorOpComplete (core : Nat) (id : Nat) (residues : Nat)
  /-- R201: Per-lane load from LM or berth memory with address checks. -/
  | ld (t : At) (o : MemOp) (l1bad : List Nat)
  /-- R201: Per-lane store to LM or berth memory. -/
  | st (t : At) (o : MemOp)
  /-- R212: Scalar load of 1 to 64 bytes. -/
  | lds (t : At) (o : MemOp) (l1bad : List Nat)
  /-- R212: Scalar store of 1 to 64 bytes. -/
  | sts (t : At) (o : MemOp)
  /-- R213: Atomic integer add. -/
  | atomAdd (t : At) (o : AtomOp)
  /-- R213: Atomic signed minimum. -/
  | atomSmin (t : At) (o : AtomOp)
  /-- R213: Atomic signed maximum. -/
  | atomSmax (t : At) (o : AtomOp)
  /-- R213: Atomic unsigned minimum. -/
  | atomUmin (t : At) (o : AtomOp)
  /-- R213: Atomic unsigned maximum. -/
  | atomUmax (t : At) (o : AtomOp)
  /-- R213: Atomic AND. -/
  | atomAnd (t : At) (o : AtomOp)
  /-- R213: Atomic OR. -/
  | atomOr (t : At) (o : AtomOp)
  /-- R213: Atomic XOR. -/
  | atomXor (t : At) (o : AtomOp)
  /-- R213: Atomic exchange. -/
  | atomExch (t : At) (o : AtomOp)
  /-- R213: Atomic compare-and-swap. -/
  | atomCas (t : At) (o : AtomOp)
  /-- R213: Atomic FP32 add. -/
  | atomFadd (t : At) (o : AtomOp)
  /-- R213: Exact-float add into an LA128 cell. -/
  | atomXadd (t : At) (o : AtomOp)
  /-- R187: Load data returns to the register and fills the L1 if non-volatile. -/
  | loadDataReturn (core : Nat) (id : Nat) (victim : Nat)
  /-- R212: An atomic with RET returns the old value to its registers. -/
  | atomicReturn (core : Nat) (id : Nat)
  /-- R214: Starts a fence of the given scope. -/
  | fence (t : At) (scope : BitVec 2)
  /-- R235: The fence's awaited accesses are done, the L1 is invalidated where due and the path resumes. -/
  | fenceComplete (t : At)
  /-- R194: Adds lane arrivals to a barrier and releases it when complete. -/
  | bar (t : At) (a : BitVec 8) (bid : BitVec 4) (arriveOnly : Bool) (cnti : Bool) (imm : BitVec 16)
  /-- R216: Unconditional jump. -/
  | bra (t : At) (tgt : BitVec 16)
  /-- R216: Scalar conditional jump. -/
  | brs (t : At) (a : BitVec 8) (cond : Bool) (tgt : BitVec 16)
  /-- R191: Divergent per-lane branch pushing paths. -/
  | brc (t : At) (a : BitVec 8) (cond : Bool) (tgt : BitVec 16) (join : BitVec 16)
  /-- R216: Jump to a code offset in a scalar register. -/
  | jmps (t : At) (a : BitVec 8)
  /-- R198: Waits until a completion counter is at or below a threshold. -/
  | waitc (t : At) (tk : BitVec 3) (thr : BitVec 16)
  /-- R192: Removes the path's lanes from the stack. -/
  | exitPath (t : At)
  /-- R216: Aborts the kernel with USER_TRAP. -/
  | trap (t : At) (imm : BitVec 16)
  /-- R196: Every 256 core cycles the monitor examines barriers. -/
  | forwardProgressCheck (core : Nat)
  /-- R219: Each core copies data and arguments, optionally clears LM and starts groups. -/
  | kernelStart (core : Nat)
  /-- R200: All lanes have exited and all work is accepted, ending the kernel on a core. -/
  | kernelEnd (core : Nat)
  /-- R224: A store or atomic arriving at its home takes its place in coherence order. -/
  | homeAccept (core : Nat) (id : Nat)
  /-- R262: A channel controller reads and decodes a line. -/
  | channelRead (line : Nat) (reader : Nat) (syms : List Nat) (twin : List Nat)
  /-- R263: A channel controller writes a line, clearing or keeping poison. -/
  | channelWrite (line : Nat) (data : BitVec 512) (mask : BitVec 64) (marked : Bool)
  /-- R267: A memory-side add is performed in a WCB entry once the line is present. -/
  | memsideAdd (addr : Nat) (cls : Nat) (op : Nat) (fmt : Nat) (scale : Nat) (data : Nat) (berth : Option Nat)
  /-- R266: A partial WCB entry drains 2 µs after its last store. -/
  | wcbPartialDrain (n : Nat) (l : Nat) (line : Nat) (syms : List Nat) (twin : List Nat)
  /-- R266: Full and accumulating entries drain in runs of 32 lines. -/
  | wcbWriteRun (n : Nat) (l : Nat)
  /-- R255: A per-bank refresh is issued every tREFIpb. -/
  | refresh (n : Nat) (l : Nat)
  /-- R264: The scrub reads and rewrites lines over the scrub period. -/
  | patrolScrub (line : Nat) (syms : List Nat) (twin : List Nat)
  /-- R272: A queued channel takes a free spare of its group and starts copying. -/
  | spareCopyStart (n : Nat) (l : Nat)
  /-- R273: The copy ends and reads switch to the spare. -/
  | spareCopyDone (n : Nat) (l : Nat) (ok : Bool)
  /-- R274: Data returns to the retrained original and the spare is freed. -/
  | copyBackDone (n : Nat) (l : Nat)
  /-- R275: Interval, temperature change or low margin triggers a retrain. -/
  | retrainDue (n : Nat) (l : Nat)
  /-- R275: A retrain ends and is judged against its acceptance. -/
  | retrainDone (n : Nat) (l : Nat) (pass : Bool)
  /-- R277: Relocation of a channel's lines ends. -/
  | channelRelocationDone (n : Nat) (l : Nat)
  /-- R279: Reading a channel status register clears its RC counts. -/
  | channelStatusRead (n : Nat) (l : Nat)
  /-- R37: Retirement of a step-end command runs keeper work, timetable firing and a lockage. -/
  | stepBoundary (b : Nat)
  /-- R305: Writing 0 to the hold entry releases the berth and runs its boundary actions. -/
  | holdRelease (b : Nat)
  /-- R321: A kernel posts a bucket to its die's post queue. -/
  | postRegisterWrite (die : Nat) (value : BitVec 64)
  /-- R323: The engine takes an eligible post, validates it and sends its contributions. -/
  | exchPostTake (die : Nat)
  /-- R329: An owner checks and adds a contribution packet. -/
  | exchPacketArrival (die : Nat) (idx : Nat)
  /-- R334: A member accepts and writes a result packet. -/
  | exchResultArrival (die : Nat) (idx : Nat)
  /-- R339: The round deadline passes with the shard or result incomplete. -/
  | exchDeadline (die : Nat) (bucket : Nat)
  /-- R346: A data flit is checked, accepted in sequence or discarded with a replay request. -/
  | dataFlitReceive (port : Nat) (flit : Bytes) (uncorrectable : Bool)
  /-- R346: An ACK flit frees replay buffer entries. -/
  | ackFlit (port : Nat) (flit : Bytes)
  /-- R346: A CREDIT flit updates flow-control credits. -/
  | creditFlit (port : Nat) (flit : Bytes)
  /-- R346: A REPLAY flit makes the sender resend from a sequence. -/
  | replayFlit (port : Nat) (flit : Bytes)
  /-- R346: A lane-change request or agree flit schedules a lane switch. -/
  | laneCtl (port : Nat) (flit : Bytes)
  /-- R346: Periodic resend of ACK, CREDIT, REPLAY and LANE_CTL flits. -/
  | linkControlTimer (port : Nat)
  /-- R346: At the agreed codeword both ends change lanes. -/
  | laneSwitch (port : Nat) (codeword : Nat)
  /-- R347: Loss of lock or error thresholds retire a lane. -/
  | laneRetire (port : Nat) (lane : Nat) (codeword : Nat)
  /-- R357: A port trains and starts discovery. -/
  | portLinkUp (port : Nat) (bad : List Nat)
  /-- R357: A HELLO discovery frame is received. -/
  | hello (idx : Nat)
  /-- R358: A certificate chain fragment is received. -/
  | cert (idx : Nat)
  /-- R357: A CHALLENGE is received and answered with a PROOF. -/
  | discoveryChallenge (idx : Nat)
  /-- R359: A PROOF is verified and the port joins its gang or stays disabled. -/
  | proof (idx : Nat)
  /-- R357: After 5 ms of silence HELLO and CERT are resent. -/
  | discoveryResendTimer (port : Nat)
  /-- R360: A disabled port repeats discovery every 10 s. -/
  | discoveryRetryTimer (port : Nat)
  /-- R355: A written cut plan is validated and held or refused. -/
  | cutPlanWrite (slot : Nat) (plan : Bytes)
  /-- R356: Writing 1 starts activation of a held plan. -/
  | cutPlanActivate (slot : Nat)
  /-- R356: Writing 2 withdraws a plan. -/
  | cutPlanWithdraw (slot : Nat)
  /-- R356: The discovery wait ends, routes are built and the plan activates or is refused. -/
  | discoveryWaitExpiry (slot : Nat)
  /-- R362: Routes are rebuilt within 1 ms of a change to the non-empty gangs. -/
  | routeBuild
  /-- R370: A frame not for this node is forwarded by its route or dropped. -/
  | frameTransit (idx : Nat) (die : Option Nat)
  /-- R375: A remote read is window-checked and performed. -/
  | readRequest (idx : Nat) (ahead : Bool)
  /-- R375: A remote write is window-checked, ordered by SEQ and performed once. -/
  | writeRequest (idx : Nat) (ahead : Bool)
  /-- R375: A remote atomic is window-checked and performed once. -/
  | atomicRequest (idx : Nat) (ahead : Bool)
  /-- R375: A read response returns data or a denial to the source. -/
  | readResponse (idx : Nat)
  /-- R375: A write or atomic response acknowledges or denies at the source. -/
  | writeAtomicResponse (idx : Nat)
  /-- R379: A request without response is resent after 200 µs and then every 1 ms. -/
  | remoteRetransmit (unit : Nat) (node : Nat) (seq : Nat)
  /-- R379: The remote timeout passes and the kernel aborts with REMOTE_UNREACHABLE. -/
  | remoteTimeout (unit : Nat) (node : Nat) (seq : Nat)
  /-- R374: A window table write is checked and applied or refused. -/
  | windowEntryWrite (w : Nat) (entry : BitVec 128)
  /-- R382: A fabric die fails and restarts itself. -/
  | fdFailure (k : Nat)
  /-- R382: The fabric die restart completes and it rebuilds its routes. -/
  | fdRestart (k : Nat) (ok : Bool)
  /-- R393: A stream frame is checked and landed or dropped. -/
  | streamFrameArrival (port : Nat) (src : Bytes) (srcPort : Nat) (dstPort : Nat) (udpOk : Bool) (payload : Bytes)
  /-- R395: An empty slot persists for GAP_WAIT and a RESEND is sent. -/
  | gapWaitExpiry (b : Nat) (st : Nat) (seq : Nat)
  /-- R397: An ACK period of 100 µs ends and another ACK may be sent. -/
  | ackPeriodEnd (b : Nat) (st : Nat)
  /-- R397: STOP, GO or REWIND repeats fall due every 50 µs. -/
  | sluiceRepeatTimer (b : Nat) (st : Nat)
  /-- R389: Writing ENABLE validates and restarts the stream with a new epoch. -/
  | streamEnable (b : Nat) (st : Nat) (v : Nat)
  /-- R389: Writing 0 to ENABLE flushes the basin. -/
  | streamDisable (b : Nat) (st : Nat)
  /-- R401: A take command validates its record and starts delivering records. -/
  | takeCmd (b : Nat) (q : Nat)
  /-- R401: A waiting take resumes when the next record is complete. -/
  | takeContinue (b : Nat)
  /-- R416: A take has waited longer than the take wait for one record. -/
  | takeWait (b : Nat)
  /-- R407: Writing the rewind entry sets the tally and restarts streams. -/
  | berthRewind (b : Nat) (tally : Nat)
  /-- R406: A skip window is written and applies to waiting takes at once. -/
  | skipWindowWrite (b : Nat) (w : Nat) (first : Nat) (last : Nat)
  /-- R414: A host-fed barge of frames is landed into a stream. -/
  | feed (b : Nat) (q : Nat)
  /-- R385: An echo request on a basin or towpath port is answered. -/
  | icmpv6EchoRequest (towpath : Bool) (port : Nat) (src : Bytes) (dst : Bytes) (payload : Bytes)
  /-- R385: Neighbor Discovery for the port's address is answered. -/
  | neighborSolicitation (towpath : Bool) (port : Nat) (src : Bytes) (target : Bytes)
  /-- R423: Writing 1 to CMD validates and creates a berth. -/
  | berthCreate (b : Nat)
  /-- R423: Die clearing ends and the berth becomes active. -/
  | berthCreateDone (b : Nat)
  /-- R425: Writing 2 to CMD validates a resize and clears added and released dies. -/
  | berthResize (b : Nat)
  /-- R426: The resize ends and positions are recounted. -/
  | berthResizeDone (b : Nat)
  /-- R428: Writing 3 to CMD resets the berth. -/
  | berthResetRequest (b : Nat)
  /-- R428: A reset ends and the berth reset event is raised. -/
  | berthResetDone (b : Nat)
  /-- R430: Writing 4 to CMD starts a dusk and abandons every context. -/
  | berthDusk (b : Nat)
  /-- R430: Running launches are stopped when DUSK_GRACE ends. -/
  | duskGraceExpiry (b : Nat)
  /-- R430: Dies are cleared, entries reset and the berth becomes absent. -/
  | duskDone (b : Nat)
  /-- R427: Writing 5 to CMD checks the translation and lowers the grant. -/
  | shrinkAcknowledge (b : Nat)
  /-- R431: Defines a shared segment and its carve-outs. -/
  | segDefine (k : Nat)
  /-- R432: Seals a loaded segment. -/
  | segSeal (k : Nat)
  /-- R433: Deletes an unjoined segment. -/
  | segDelete (k : Nat)
  /-- R435: Copies the survivor of a degraded segment to a new shadow. -/
  | segReshadow (k : Nat)
  /-- R435: The reshadow copy ends and the segment is sealed again. -/
  | reshadowDone (k : Nat) (bad : List Nat)
  /-- R433: Writing SEGMENTS joins or leaves segments. -/
  | segmentJoinWrite (b : Nat) (bits : BitVec 64)
  /-- R528: A unit is fenced at every fabric die's access table. -/
  | dieFence (kind : Nat) (die : Nat) (cause : Nat) (detail : Nat)
  /-- R448: A low-word QDB write records the queue for the function. -/
  | qdbQueueWrite (f : Nat) (queue : Nat)
  /-- R463: A TAIL write starts admission of commands. -/
  | qdbDoorbell (f : Nat) (queue : Option Nat) (tail : Nat)
  /-- R473: Passes barges to the module. -/
  | bargeGive (f : Nat) (bits : BitVec 64)
  /-- R448: Reading QDB_BAD, NTC_LOST or CPL_LOST clears it. -/
  | functionCounterRead (f : Nat) (reg : Nat) (head : Option Nat)
  /-- R460: Writing NWORDS submits a request or collides. -/
  | mailboxSubmit (m : Nat) (port : Nat) (words : List Nat) (nwords : Nat) (tag : Nat)
  /-- R459: A kernel write to 0x88 answers the request. -/
  | mailboxAnswer (b : Nat) (m : Nat) (code : Nat) (outWords : Nat)
  /-- R459: A kernel sets doorbell bits. -/
  | dblSet (b : Nat) (m : Nat) (bits : BitVec 32)
  /-- R458: Host W1C write clears doorbell bits. -/
  | dblClear (m : Nat) (bits : BitVec 32)
  /-- R461: Writing the doorbell mask may fire MSI-X. -/
  | dblMaskWrite (m : Nat) (mask : BitVec 32)
  /-- R458: W1C write clears COLLIDE. -/
  | collideClear (m : Nat)
  /-- R458: Host read of COLLISIONS clears it. -/
  | collisionsRead (m : Nat)
  /-- R455: Creates a context. -/
  | ctxCreate (m : Nat)
  /-- R475: Abandons a context and tears it down. -/
  | ctxAbandon (m : Nat)
  /-- R455: Creates a queue. -/
  | queueCreate (m : Nat)
  /-- R477: Destroys a queue after its last command retires. -/
  | queueDestroy (m : Nat)
  /-- R477: Stops a queue, optionally stopping its kernel. -/
  | queueStop (m : Nat)
  /-- R477: Resumes a queue. -/
  | queueStart (m : Nat)
  /-- R455: Creates a memory object over mapped pages. -/
  | objCreate (m : Nat)
  /-- R455: Adds a host reference to an object. -/
  | objImport (m : Nat)
  /-- R452: Drops a context's host reference. -/
  | objRelease (m : Nat)
  /-- R455: Creates an event. -/
  | evtCreate (m : Nat)
  /-- R455: Adds a host reference to an event. -/
  | evtImport (m : Nat)
  /-- R455: Drops a host reference to an event. -/
  | evtRelease (m : Nat)
  /-- R455: Returns an event's value and status. -/
  | evtQuery (m : Nat)
  /-- R454: Signals an event by maximum. -/
  | evtSignal (m : Nat)
  /-- R455: Sets up the barge window. -/
  | bargeSetup (m : Nat)
  /-- R455: Sets up the notice ring. -/
  | noticeSetup (m : Nat)
  /-- R455: Releases a held berth. -/
  | resumeBerth (m : Nat)
  /-- R455: Requests a berth reset through the mailbox. -/
  | resetBerth (m : Nat)
  /-- R455: Maps pages into a berth's translation. -/
  | mapPages (m : Nat)
  /-- R455: Unmaps pages whole or not at all. -/
  | unmapPages (m : Nat)
  /-- R455: Assigns or withdraws an operator mailbox. -/
  | mbAssign (m : Nat)
  /-- R455: Copies host data into a loading segment. -/
  | segLoad (m : Nat)
  /-- R470: A queue with a released command gets a resident slot, evicting if needed. -/
  | slotGrant (b : Nat) (q : Nat)
  /-- R465: A command that does nothing but order and signal. -/
  | mark (b : Nat) (q : Nat)
  /-- R471: A launch is granted its cores and its image validated. -/
  | launch (b : Nat) (q : Nat)
  /-- R471: A launch waiting 1 ms becomes reserving. -/
  | launchReserveTimer (b : Nat) (q : Nat)
  /-- R471: A launch exceeds LIMIT_MS and is stopped. -/
  | kernelLimit (launch : Nat)
  /-- R472: Copies bytes between locations. -/
  | copyMem (b : Nat) (q : Nat)
  /-- R472: Fills memory with a pattern. -/
  | fillMem (b : Nat) (q : Nat)
  /-- R465: Memory-side adds from a source into a destination. -/
  | madd (b : Nat) (q : Nat)
  /-- R465: Waits for a bucket's DONE to reach a round. -/
  | xwait (b : Nat) (q : Nat)
  /-- R467: A command retires, signals its event, returns barges and writes its completion. -/
  | commandRetire (b : Nat) (q : Nat)
  /-- R475: Running launches of an abandoned context are stopped. -/
  | abandonGraceExpiry (ctx : Nat)
  /-- R476: A VF function-level reset abandons its berth's contexts. -/
  | vfFlr (f : Nat)
  /-- R476: A PF function-level reset clears PF state only. -/
  | pfFlr
  /-- R478: A host port leaves link-up. -/
  | hostLinkDown (port : Nat)
  /-- R478: Both ports are down for 10 ms and the host is lost. -/
  | hostLoss
  /-- R478: A host link returns. -/
  | hostLinkUp (port : Nat) (width : Nat) (rate : Nat)
  /-- R494: Opens a Thinil session with a role. -/
  | openSession (port : Nat) (conn : Nat) (msg : Bytes)
  /-- R493: Closes a session. -/
  | closeSession (port : Nat) (conn : Nat) (msg : Bytes)
  /-- R493: Keep-alive message. -/
  | ping (port : Nat) (conn : Nat) (msg : Bytes)
  /-- R493: Reads dictionary entries. -/
  | readEntry (port : Nat) (conn : Nat) (msg : Bytes)
  /-- R499: Writes dictionary entries with per-item checks. -/
  | writeEntry (port : Nat) (conn : Nat) (msg : Bytes)
  /-- R495: Reads a segment of a large value. -/
  | readSeg (port : Nat) (conn : Nat) (msg : Bytes)
  /-- R495: Stages a segment and applies the value on the final one. -/
  | writeSeg (port : Nat) (conn : Nat) (msg : Bytes)
  /-- R497: At each 100 µs tick messages are processed in order and the mirror updated. -/
  | dictionaryTick (changed : Bool)
  /-- R494: A session silent for 60 s is closed. -/
  | sessionIdleTimeout (session : Nat)
  /-- R495: A staged value without a segment for 10 s is discarded. -/
  | stageTimeout (session : Nat)
  /-- R485: A keeper enters or leaves service state. -/
  | serviceStateWrite (session : Nat) (v : Nat)
  /-- R503: Writes a calibration value and recomputes its digest. -/
  | calibrationWrite (session : Nat) (ix : Nat) (sub : Nat) (value : Bytes)
  /-- R490: A DTLS handshake is performed on a towpath port. -/
  | towpathHandshake (port : Nat) (conn : Nat) (leaf : Bytes) (chain : Bytes) (proof : Bool)
  /-- R511: The secure element stops answering. -/
  | secureElement
  /-- R506: MCTP control assigns the endpoint ID. -/
  | setEndpointId (port : Nat) (op : Nat) (eid : Nat)
  /-- R506: MCTP control returns the endpoint ID. -/
  | getEndpointId (port : Nat)
  /-- R506: MCTP control returns version support. -/
  | getMctpVersionSupport (port : Nat) (typ : Nat)
  /-- R506: MCTP control returns message types. -/
  | getMessageTypeSupport (port : Nat)
  /-- R506: SPDM version request. -/
  | getVersion (port : Nat)
  /-- R506: SPDM capabilities request. -/
  | getCapabilities (port : Nat) (version : Nat)
  /-- R506: SPDM algorithm negotiation. -/
  | negotiateAlgorithms (port : Nat) (asym : Nat) (hash : Nat)
  /-- R506: SPDM certificate digests request. -/
  | getDigests (port : Nat)
  /-- R506: SPDM certificate request for slot 0. -/
  | getCertificate (port : Nat) (slot : Nat) (off : Nat) (len : Nat)
  /-- R506: SPDM challenge answered with a signed CHALLENGE_AUTH. -/
  | challenge (port : Nat) (slot : Nat) (nonce : Bytes)
  /-- R507: SPDM signed measurement request. -/
  | getMeasurements (port : Nat) (op : Nat) (sign : Bool) (nonce : Bytes)
  /-- R490: A PTP Sync, Follow_Up, Announce or Delay_Resp is received. -/
  | ptpMessage (port : Nat) (typ : Nat) (domain : Nat) (ns : Nat) (locked : Bool)
  /-- R515: Application of input power runs a full cold start with tests. -/
  | dawn
  /-- R512: Writing 2 to 0x7001 starts a dawn. -/
  | dawnRequest
  /-- R517: Writing 1 to 0x7001 starts a warm restart. -/
  | firstLight
  /-- R527: Monitors are sampled and warning or substitution levels acted on. -/
  | wearSample (kind : Nat) (die : Nat) (unit : Nat) (sub : Nat) (measure : Nat) (level : Nat)
  /-- R525: When no launch holds a failed core, a spare takes its place. -/
  | coreSubstitution (core : Nat) (bad : List Nat)
  /-- R529: A keeper write starts retesting a unit. -/
  | readmissionRequest (kind : Nat) (die : Nat) (unit : Nat) (sub : Nat)
  /-- R529: The readmission test ends with pass or fail. -/
  | readmitDone (pass : Bool)
  /-- R530: A keeper declares a unit failed. -/
  | declareFailed (kind : Nat) (die : Nat) (unit : Nat) (sub : Nat)
  /-- R531: Five missed heartbeats or a self-test failure make the standby take over. -/
  | heartbeatMiss
  /-- R532: The former lockkeeper restarts and becomes standby or is fenced. -/
  | lkRestart (die : Nat) (pass : Bool)
  /-- R534: An image written to 0xA010 is checked and staged. -/
  | imageStaging (image : Bytes)
  /-- R535: Writing 1 to 0xA011 broadcasts the staged core image. -/
  | fwBroadcast
  /-- R535: A broadcast round ends, gaps are reported and resent. -/
  | fwRoundEnd (gaps : List (Nat × List Nat))
  /-- R538: Writing 2 installs a staged lockkeeper image. -/
  | fwInstallLockkeeper
  /-- R538: Writing 3 aborts a broadcast. -/
  | fwAbort
  /-- R537: At the hand-over point a berth's units switch image. -/
  | fwHandover (b : Nat)
  /-- R546: After quiesce the lockage validates, captures and copies the persistent set. -/
  | lockageCopy (b : Nat)
  /-- R548: Slot digests are complete and status advances or the slot goes void. -/
  | snapshotDigestDone (b : Nat) (slot : Nat)
  /-- R550: A replica digest is written and compared. -/
  | replicaDigestWrite (b : Nat) (slot : Nat) (step : Nat) (digest : BitVec 128)
  /-- R542: A write to the snapshot area settings empties every slot or is refused. -/
  | snapshotAreaWrite (b : Nat) (sub : Nat) (v : Nat)
  /-- R555: Writing 1 to X:06 restores a slot. -/
  | snapshotRestore (b : Nat)
  /-- R557: Writing 2 performs pending combine atomics and resumes fetching. -/
  | snapshotResume (b : Nat)
  /-- R551: Writing 3 drains a slot to storage. -/
  | snapshotDrain (b : Nat)
  /-- R552: Writing 4 aborts a drain. -/
  | drainAbort (b : Nat)
  /-- R553: Writing 5 fills a slot from storage. -/
  | snapshotFill (b : Nat)
  /-- R558: Writing 6 empties a slot. -/
  | slotEmpty (b : Nat)
  /-- R552: A drain acknowledge frame advances a die's offset. -/
  | drainAcknowledge (port : Nat) (frame : Bytes)
  /-- R552: No progress for 1 ms makes a die resend. -/
  | drainResendTimer (b : Nat) (slot : Nat) (pos : Nat)
  /-- R552: No progress for 1 s raises an event. -/
  | drainStalled (b : Nat) (slot : Nat)
  /-- R553: A fill data frame is checked and acknowledged. -/
  | fillDataFrame (port : Nat) (frame : Bytes)
  /-- R553: Each die sends an offset-0 acknowledge every 1 ms until data arrives. -/
  | fillAckTimer (b : Nat) (slot : Nat) (pos : Nat)
  /-- R565: Writing MODE moves a port into or out of instrument use. -/
  | instrModeWrite (port : Nat) (v : Nat)
  /-- R562: RUN 1 clears counters and starts checking. -/
  | instrRunStart (port : Nat)
  /-- R562: RUN 2 stops checking. -/
  | instrRunStop (port : Nat)
  /-- R564: Starts a margin scan. -/
  | instrScan (port : Nat)
  /-- R564: The margin scan ends. -/
  | instrScanDone (port : Nat)
  /-- R563: A run reaches TARGET_BITS. -/
  | instrTargetReached (port : Nat)
  /-- R563: A checker loses lock and relocks. -/
  | instrLockLost (port : Nat) (lane : Nat)
  /-- R571: The input voltage moves into another band. -/
  | inputVoltageChange (mv : Int) (us : Nat)
  /-- R576: Every 100 µs the controller sets the reduction level. -/
  | powerControllerTick (power : Nat) (current : Nat)
  /-- R577: Current above 300 A for 20 µs sets the level to 48. -/
  | fastCurrentLimit
  /-- R572: A regulator phase or bus converter leaves service. -/
  | phaseLost (rail : Nat) (phase : Nat)
  /-- R579: Regulators power the module off on a protective cause. -/
  | protectiveOff (cause : Nat)
  /-- R580: Sensors are refreshed and failed sensors dropped. -/
  | sensorRefresh (values : List (Nat × Int)) (bad : List (Nat × Nat))
  /-- R585: Low flow or high inlet persists for 1 s. -/
  | coolantAlarmTimer (inlet : Bool)
  /-- R514: A dawn or first light reaches its end, functions become ready, the towpath answers and DAWN_DONE or FIRST_LIGHT_DONE is raised. -/
  | startEnd (ms : Nat) (failed : List (Nat × Nat × Nat × Nat))
  /-- R546: Every die's lockage copy ends, STOP_US is set, the sequencer fetches and LOCKAGE_DONE is raised. -/
  | lockageRelease (b : Nat) (stopUs : Nat)
  /-- R555: The restore copy, zero list and rewind end, X:08 goes from 2 to 3 and RESTORE_DONE is raised. -/
  | restoreEnd (b : Nat)
  /-- R532: A standby lockkeeper that was catching up becomes mirroring, and during a lockkeeper image install it then takes over. -/
  | standbyCatchUpDone
  /-- R541: The standby lockkeeper fails while the active one runs, and LK_STANDBY_LOST is raised. -/
  | standbyFailure
  /-- R511: PTP messages from the master stop, PTP leaves the locked state, time stamps become zero and PTP_UNLOCKED is raised. -/
  | ptpMasterLost
  /-- R537: A berth's firmware hand-over delayed by its commands for more than 10 s raises FW_HELD_OLD and goes on waiting. -/
  | handoverDelayExpiry (b : Nat)
  /-- R417: A basin port goes down or comes back, and streams, sluice messages and snapshot drains move to the remaining ports. -/
  | basinPortLinkChange (port : Nat) (up : Bool)
  /-- R485: A towpath port goes down or comes back, and sessions on it lose their transport, which ends a service state set by such a session. -/
  | towpathPortLinkChange (port : Nat) (up : Bool)
  /-- R514: A PCIe configuration request arrives at a host port and is answered, with Request Retry Status while a start runs. -/
  | configurationRequest (port : Nat) (f : Nat) (reg : Nat)
  /-- R582: The host drives PERST# low on H0 or H1 at connector J2. -/
  | hostPerstAsserted (port : Nat)
  /-- R379: The destination's record of the performed request numbers and saved responses of one source unit lapses, twice the remote timeout after the source's last frame. -/
  | remoteHistoryExpiry (node : Nat) (unit : Nat)
deriving DecidableEq, Repr

end Sys2Proof
end

