-- ==== Sys2Proof/Decode.lean ====
section
/-!
DEFINITION. The commands that a word of the opcode table spells. No row of the table gives bits: commands come as
constructors. The words of kernel instructions, whose encoding the manual gives, are read in Machine/Pvk.lean.
-/

namespace Sys2Proof

/-- The command that a table word spells: none, since no row gives bits. -/
def decodeTableWord (_nbits _w : Nat) : Option Instr := none

end Sys2Proof
end

