-- ==== Sys2Proof/Config.lean ====
section
/-!
DEFINITION. Values the manual leaves open: constants without body, so that no proof can know them. `free` values are
numbered by the counter that State holds.
-/

namespace Sys2Proof

/-- The `n`-th free bit string: a value the manual leaves open after a step that goes on. -/
opaque Config.freeBits (w : Nat) (n : Nat) : BitVec w

/-- The `n`-th free choice between two outcomes that the manual allows. -/
opaque Config.freeBool (n : Nat) : Bool

/-- The `n`-th free count, for example of rows that had started when a kernel was aborted (06 R184). -/
opaque Config.freeNat (n : Nat) : Nat

/-- A byte of another module's memory that an engine of this module reads: the `n`-th time such bytes are read, at address
`a` of the berth (log entry 11). -/
opaque Config.remoteByte (n a : Nat) : BitVec 8

/-- Where the kernel mailbox page lies in the control space of a head die: the manual gives no offset (15 R457). -/
opaque Config.mailboxOffset : Nat

/-- Where the post register lies in a compute die's control space: the manual gives no offset (11 R321). -/
opaque Config.postOffset : Nat

/-- The berth virtual address of the kernel mailbox page: the manual gives no value (15 R457). -/
opaque Config.mailboxVa : Nat

/-- The berth virtual address of the post register of a berth's first die: the manual gives no value (11 R321). -/
opaque Config.postVa : Nat

/-- The hash that picks the port of a gang for a flow: the manual names its inputs only (12 R352). -/
opaque Config.flowHash (srcNode srcUnit dstNode lineAddr : Nat) : Nat

/-! Identity and cryptography (16 R489, R501-R507): certificates are the module's own, and what a signature or a
certificate check gives is not computed here. -/

/-- The `SEQ` of the `EVENT` message that carries a notice: session and notice sequence (16 R493). -/
opaque Config.eventSeq (session nseq : Nat) : Nat

/-- The device certificate in DER. -/
opaque Config.deviceCert : List (BitVec 8)

/-- The intermediate and root certificates in DER. -/
opaque Config.issuerCerts : List (BitVec 8)

/-- The identity and capability constants of the dictionary (0x1000-0x1301): their bytes by entry key. -/
opaque Config.identity (key : Nat) : List (BitVec 8)

/-- The calibration set as written at manufacture, by entry key. -/
opaque Config.calibration (key : Nat) : List (BitVec 8)

/-- The device key's signature over a message; ECDSA draws fresh randomness for each, the `n`-th here. -/
opaque Config.sign (n : Nat) (msg : List (BitVec 8)) : List (BitVec 8)

/-- Whether a signature over a message verifies with the public key of a certificate. -/
opaque Config.verify (cert msg sig : List (BitVec 8)) : Bool

/-- Whether a chain of certificates leads to Sholliba's device root. -/
opaque Config.deviceChain (chain : List (BitVec 8)) : Bool

/-- Whether a client's chain of certificates verifies to a trust anchor. -/
opaque Config.clientChain (chain anchor : List (BitVec 8)) : Bool

/-- The DER value of the identity extension (16 R505). -/
opaque Config.identityExtension : List (BitVec 8)

/-- The digest of a firmware image by target (1 lockkeeper, 2 core) and version, as measured (16 R507). -/
opaque Config.imageDigest (target version : Nat) : List (BitVec 8)

/-- The versions that the MCTP endpoint answers for a message type, and the SPDM responder's timing exponent (0) and message
sizes (1, 2): the manual gives no values (16 R506). -/
opaque Config.mctpVersions (type : Nat) : List (BitVec 8)
opaque Config.spdmValue (field : Nat) : Nat

/-- Whether a signing certificate chains to Sholliba's firmware root. -/
opaque Config.firmwareSigner (cert : List (BitVec 8)) : Bool

end Sys2Proof
end

