-- ==== Sys2Proof/Machine/Bits.lean ====
section
/-!
DEFINITION. Byte orders (00_scope.md R9), cyclic redundancy checks and SHA-384 over byte strings.
-/

namespace Sys2Proof.Machine

/-- `n` bytes of a number, little-endian (R9). -/
def leBytes (n v : Nat) : Bytes := (List.range n).map fun i => BitVec.ofNat 8 (v / 2 ^ (8 * i))

/-- A little-endian number (R9). -/
def leNat : Bytes → Nat
  | [] => 0
  | b :: r => b.toNat + 256 * leNat r

/-- `n` bytes of a number, big-endian (R9). -/
def beBytes (n v : Nat) : Bytes := (leBytes n v).reverse

/-- A big-endian number (R9). -/
def beNat (b : Bytes) : Nat := leNat b.reverse

/-- The little-endian field of `n` bytes at offset `o`; bytes past the end read 0. -/
def leAt (b : Bytes) (o n : Nat) : Nat := leNat ((b.drop o).take n)

/-- The big-endian field of `n` bytes at offset `o`. -/
def beAt (b : Bytes) (o n : Nat) : Nat := beNat ((b.drop o).take n)

/-- Puts a little-endian field of `n` bytes at offset `o`. -/
def putLe (b : Bytes) (o n v : Nat) : Bytes := b.take o ++ leBytes n v ++ b.drop (o + n)

/-- A byte string cut or filled with zero bytes to length `n`. -/
def padTo (n : Nat) (b : Bytes) : Bytes := b.take n ++ List.replicate (n - b.length) 0

/-- `n` zero bytes. -/
def zeros (n : Nat) : Bytes := List.replicate n 0

/-- One bit of a reflected CRC (least significant bit first). -/
def crcBitR (w poly : Nat) (c : BitVec w) : BitVec w :=
  if c.getLsbD 0 then (c >>> 1) ^^^ BitVec.ofNat w poly else c >>> 1

/-- One byte of a reflected CRC. -/
def crcByteR (w poly : Nat) (c : BitVec w) (b : Byte) : BitVec w :=
  let c := c ^^^ BitVec.ofNat w b.toNat
  crcBitR w poly (crcBitR w poly (crcBitR w poly (crcBitR w poly
    (crcBitR w poly (crcBitR w poly (crcBitR w poly (crcBitR w poly c)))))))

/-- One bit of a CRC taken most significant bit first. -/
def crcBitM (w poly : Nat) (c : BitVec w) : BitVec w :=
  if c.getMsbD 0 then (c <<< 1) ^^^ BitVec.ofNat w poly else c <<< 1

/-- One byte of a CRC taken most significant bit first. -/
def crcByteM (w poly : Nat) (c : BitVec w) (b : Byte) : BitVec w :=
  let c := c ^^^ (BitVec.ofNat w b.toNat <<< (w - 8))
  crcBitM w poly (crcBitM w poly (crcBitM w poly (crcBitM w poly
    (crcBitM w poly (crcBitM w poly (crcBitM w poly (crcBitM w poly c)))))))

/-- CRC-32C (Castagnoli polynomial 0x1EDC6F41, reflected, all-ones start and final inversion). -/
def crc32c (b : Bytes) : Nat :=
  (~~~ (b.foldl (crcByteR 32 0x82F63B78) (BitVec.allOnes 32))).toNat

/-- CRC-32 of IEEE 802.3 (polynomial 0x04C11DB7, reflected, all-ones start and final inversion). -/
def crc32 (b : Bytes) : Nat :=
  (~~~ (b.foldl (crcByteR 32 0xEDB88320) (BitVec.allOnes 32))).toNat

/-- The round constants of SHA-384. -/
def shaK : List (BitVec 64) :=
  [0x428a2f98d728ae22, 0x7137449123ef65cd, 0xb5c0fbcfec4d3b2f, 0xe9b5dba58189dbbc,
   0x3956c25bf348b538, 0x59f111f1b605d019, 0x923f82a4af194f9b, 0xab1c5ed5da6d8118,
   0xd807aa98a3030242, 0x12835b0145706fbe, 0x243185be4ee4b28c, 0x550c7dc3d5ffb4e2,
   0x72be5d74f27b896f, 0x80deb1fe3b1696b1, 0x9bdc06a725c71235, 0xc19bf174cf692694,
   0xe49b69c19ef14ad2, 0xefbe4786384f25e3, 0x0fc19dc68b8cd5b5, 0x240ca1cc77ac9c65] ++
  [0x2de92c6f592b0275, 0x4a7484aa6ea6e483, 0x5cb0a9dcbd41fbd4, 0x76f988da831153b5,
   0x983e5152ee66dfab, 0xa831c66d2db43210, 0xb00327c898fb213f, 0xbf597fc7beef0ee4,
   0xc6e00bf33da88fc2, 0xd5a79147930aa725, 0x06ca6351e003826f, 0x142929670a0e6e70,
   0x27b70a8546d22ffc, 0x2e1b21385c26c926, 0x4d2c6dfc5ac42aed, 0x53380d139d95b3df,
   0x650a73548baf63de, 0x766a0abb3c77b2a8, 0x81c2c92e47edaee6, 0x92722c851482353b] ++
  [0xa2bfe8a14cf10364, 0xa81a664bbc423001, 0xc24b8b70d0f89791, 0xc76c51a30654be30,
   0xd192e819d6ef5218, 0xd69906245565a910, 0xf40e35855771202a, 0x106aa07032bbd1b8,
   0x19a4c116b8d2d0c8, 0x1e376c085141ab53, 0x2748774cdf8eeb99, 0x34b0bcb5e19b48a8,
   0x391c0cb3c5c95a63, 0x4ed8aa4ae3418acb, 0x5b9cca4f7763e373, 0x682e6ff3d6b2b8a3,
   0x748f82ee5defb2fc, 0x78a5636f43172f60, 0x84c87814a1f0ab72, 0x8cc702081a6439ec] ++
  [0x90befffa23631e28, 0xa4506cebde82bde9, 0xbef9a3f7b2c67915, 0xc67178f2e372532b,
   0xca273eceea26619c, 0xd186b8c721c0c207, 0xeada7dd6cde0eb1e, 0xf57d4f7fee6ed178,
   0x06f067aa72176fba, 0x0a637dc5a2c898a6, 0x113f9804bef90dae, 0x1b710b35131c471b,
   0x28db77f523047d84, 0x32caab7b40c72493, 0x3c9ebe0a15c9bebc, 0x431d67c49c100d4c,
   0x4cc5d4becb3e42b6, 0x597f299cfc657e2a, 0x5fcb6fab3ad6faec, 0x6c44198c4a475817]

/-- The initial hash words of SHA-384. -/
def shaInit : List (BitVec 64) :=
  [0xcbbb9d5dc1059ed8, 0x629a292a367cd507, 0x9159015a3070dd17, 0x152fecd8f70e5939,
   0x67332667ffc00b31, 0x8eb44a8768581511, 0xdb0c2e0d64f98fa7, 0x47b5481dbefa4fa4]

/-- Word `i` of a list of hash words. -/
def shaW (l : List (BitVec 64)) (i : Nat) : BitVec 64 := l.getD i 0

/-- The 80 words of a block's schedule: `n` more words onto `w`, newest first. -/
def shaSchedule : Nat → List (BitVec 64) → List (BitVec 64)
  | 0, w => w
  | n + 1, w =>
    let x15 := shaW w 14
    let x2 := shaW w 1
    let s0 := x15.rotateRight 1 ^^^ x15.rotateRight 8 ^^^ (x15 >>> 7)
    let s1 := x2.rotateRight 19 ^^^ x2.rotateRight 61 ^^^ (x2 >>> 6)
    shaSchedule n ((shaW w 15 + s0 + shaW w 6 + s1) :: w)

/-- One round of SHA-384 on the eight working words. -/
def shaRound (v : List (BitVec 64)) (kw : BitVec 64 × BitVec 64) : List (BitVec 64) :=
  let a := shaW v 0
  let e := shaW v 4
  let s1 := e.rotateRight 14 ^^^ e.rotateRight 18 ^^^ e.rotateRight 41
  let ch := (e &&& shaW v 5) ^^^ (~~~e &&& shaW v 6)
  let t1 := shaW v 7 + s1 + ch + kw.1 + kw.2
  let s0 := a.rotateRight 28 ^^^ a.rotateRight 34 ^^^ a.rotateRight 39
  let mj := (a &&& shaW v 1) ^^^ (a &&& shaW v 2) ^^^ (shaW v 1 &&& shaW v 2)
  [t1 + (s0 + mj), a, shaW v 1, shaW v 2, shaW v 3 + t1, e, shaW v 5, shaW v 6]

/-- One block of 128 bytes. -/
def shaBlock (h : List (BitVec 64)) (blk : Bytes) : List (BitVec 64) :=
  let w16 := (List.range 16).map fun i => BitVec.ofNat 64 (beAt blk (8 * i) 8)
  let w := (shaSchedule 64 w16.reverse).reverse
  List.zipWith (· + ·) h ((shaK.zip w).foldl shaRound h)

/-- The blocks of a padded message; `n` bounds their number. -/
def shaBlocks : Nat → List (BitVec 64) → Bytes → List (BitVec 64)
  | 0, h, _ => h
  | n + 1, h, b => shaBlocks n (shaBlock h (b.take 128)) (b.drop 128)

/-- SHA-384 of a byte string (FIPS 180-4), as 48 bytes. -/
def sha384 (b : Bytes) : Bytes :=
  let n := b.length
  let blocks := (n + 17 + 127) / 128
  let m := b ++ [0x80] ++ zeros (blocks * 128 - n - 17) ++ beBytes 16 (8 * n)
  ((shaBlocks blocks shaInit m).take 6).flatMap fun w => beBytes 8 w.toNat

end Sys2Proof.Machine
end

