-- ==== Sys2Proof/Machine/Num.lean ====
section
/-!
DEFINITION. Number formats, exact values and the single rounding (02_number_formats_and_exact_accumulation.md).
An exact value is `m * 2^e` with `m` an integer: no product, sum or conversion loses a bit before `roundOut`.
-/

namespace Sys2Proof.Machine

/-- The format codes of R39. -/
inductive Fmt where
  | e4m3 | e5m2 | mxE4m3 | mxE5m2 | mxE2m3 | mxE3m2 | mxE2m1 | int8 | fp16 | bf16 | g16 | fp32 | la128
deriving DecidableEq, Repr

/-- The format a 4-bit code names; the codes 0xD to 0xF are reserved (R39). -/
def fmtOfCode (c : Nat) : Option Fmt :=
  match c with
  | 0 => some .e4m3 | 1 => some .e5m2 | 2 => some .mxE4m3 | 3 => some .mxE5m2
  | 4 => some .mxE2m3 | 5 => some .mxE3m2 | 6 => some .mxE2m1 | 7 => some .int8
  | 8 => some .fp16 | 9 => some .bf16 | 10 => some .g16 | 11 => some .fp32 | 12 => some .la128
  | _ => none

/-- Whether a format is an MX block format (R39). -/
def fmtIsMx : Fmt → Bool
  | .mxE4m3 | .mxE5m2 | .mxE2m3 | .mxE3m2 | .mxE2m1 => true
  | _ => false

/-- Element bits of a format (R39). -/
def fmtBits : Fmt → Nat
  | .e4m3 | .e5m2 | .mxE4m3 | .mxE5m2 | .int8 => 8
  | .mxE2m3 | .mxE3m2 => 6
  | .mxE2m1 => 4
  | .fp16 | .bf16 | .g16 => 16
  | .fp32 => 32
  | .la128 => 128

/-- Exponent bits of a floating-point layout (R40). -/
def fmtEbits : Fmt → Nat
  | .e4m3 | .mxE4m3 => 4
  | .e5m2 | .mxE5m2 | .fp16 => 5
  | .mxE2m3 | .mxE2m1 => 2
  | .mxE3m2 => 3
  | .bf16 | .fp32 => 8
  | .g16 => 6
  | _ => 0

/-- Fraction bits of a floating-point layout (R40). -/
def fmtMbits : Fmt → Nat
  | .e4m3 | .mxE4m3 | .mxE2m3 => 3
  | .e5m2 | .mxE5m2 | .mxE3m2 => 2
  | .mxE2m1 => 1
  | .fp16 => 10
  | .bf16 => 7
  | .g16 => 9
  | .fp32 => 23
  | _ => 0

/-- Exponent bias (R40). -/
def fmtBias : Fmt → Int
  | .e4m3 | .mxE4m3 => 7
  | .e5m2 | .mxE5m2 | .fp16 => 15
  | .mxE2m3 | .mxE2m1 => 1
  | .mxE3m2 => 3
  | .bf16 | .fp32 => 127
  | .g16 => 31
  | _ => 0

/-- The largest finite magnitude of a sign as `n * 2^q` (R40). -/
def fmtMaxFin (f : Fmt) (neg : Bool) : Nat × Int :=
  match f with
  | .e4m3 | .mxE4m3 => (14, 5)
  | .e5m2 | .mxE5m2 => (7, 13)
  | .mxE2m3 => (15, -1)
  | .mxE3m2 => (7, 2)
  | .mxE2m1 => (3, 1)
  | .fp16 => (2047, 5)
  | .bf16 => (255, 120)
  | .g16 => (if neg then 1022 else 1023, 23)
  | .fp32 => (16777215, 104)
  | _ => (0, 0)

/-- The encoding of the largest finite magnitude of a sign (R40, R64). -/
def fmtMaxBits (f : Fmt) (neg : Bool) : Nat :=
  match f with
  | .e4m3 | .mxE4m3 => if neg then 0xFE else 0x7E
  | .e5m2 | .mxE5m2 => if neg then 0xFB else 0x7B
  | .mxE2m3 | .mxE3m2 => if neg then 0x3F else 0x1F
  | .mxE2m1 => if neg then 0xF else 0x7
  | .fp16 => if neg then 0xFBFF else 0x7BFF
  | .bf16 => if neg then 0xFF7F else 0x7F7F
  | .g16 => if neg then 0xFFFE else 0x7FFF
  | .fp32 => if neg then 0xFF7FFFFF else 0x7F7FFFFF
  | .int8 => if neg then 0x80 else 0x7F
  | .la128 => 0

/-- The encoding of an infinity where the format has one (R40). -/
def fmtInfBits (f : Fmt) (neg : Bool) : Option Nat :=
  match f with
  | .e5m2 | .mxE5m2 => some (if neg then 0xFC else 0x7C)
  | .fp16 => some (if neg then 0xFC00 else 0x7C00)
  | .bf16 => some (if neg then 0xFF80 else 0x7F80)
  | .fp32 => some (if neg then 0xFF800000 else 0x7F800000)
  | _ => none

/-- What an element stands for. A `fin` value is `m * 2^e` with `m` not zero. -/
inductive Val where
  | nan
  | inf (neg : Bool)
  | zero (neg : Bool)
  | fin (m : Int) (e : Int)
deriving DecidableEq, Repr

/-- The NaN marker of an LA128 cell in memory (R53). -/
def laMarker : Nat := 2 ^ 127

/-- The value of an element's bits (R40, R41, R43, R53); MX elements without their block scale. -/
def decodeElem (f : Fmt) (b : Nat) : Val :=
  match f with
  | .int8 =>
    let i := signedOf 8 b
    if i = 0 then .zero false else .fin i 0
  | .la128 =>
    if b % 2 ^ 128 = laMarker then .nan
    else
      let i := signedOf 128 b
      if i = 0 then .zero false else .fin i (-64)
  | _ =>
    let mb := fmtMbits f
    let eb := fmtEbits f
    let frac := b % 2 ^ mb
    let ex := b / 2 ^ mb % 2 ^ eb
    let neg := bitOf b (mb + eb)
    let sgn : Int := if neg then -1 else 1
    let special : Option Val :=
      match f with
      | .e4m3 | .mxE4m3 => if ex = 15 ∧ frac = 7 then some .nan else none
      | .g16 => if b % 2 ^ 16 = 0xFFFF then some .nan else none
      | .e5m2 | .mxE5m2 | .fp16 | .bf16 | .fp32 =>
        if ex = 2 ^ eb - 1 then (if frac = 0 then some (.inf neg) else some .nan) else none
      | _ => none
    match special with
    | some v => v
    | none =>
      if ex = 0 then
        if frac = 0 then .zero neg else .fin (sgn * frac) (1 - fmtBias f - mb)
      else .fin (sgn * (frac + 2 ^ mb : Nat)) ((ex : Int) - fmtBias f - mb)

/-- `m * 2^d` rounded to an integer (`round_shift` of R63); `rz` is round toward zero. -/
def roundShift (m : Nat) (d : Int) (rz : Bool) : Nat :=
  if 0 ≤ d then m * 2 ^ d.toNat
  else
    let k := (-d).toNat
    let r := m / 2 ^ k
    let rem := m % 2 ^ k
    let half := 2 ^ (k - 1)
    if rz = false ∧ (half < rem ∨ (rem = half ∧ r % 2 = 1)) then r + 1 else r

/-- Whether `a * 2^p` is above `b * 2^q`. -/
def dyGt (a : Nat) (p : Int) (b : Nat) (q : Int) : Bool :=
  if q ≤ p then b < a * 2 ^ (p - q).toNat else b * 2 ^ (q - p).toNat < a

/-- The flags and the sum of a cell as `roundOut` takes it (R51, R63): the value is `v * 2^w`. -/
structure RoundIn where
  v : Int
  nan : Bool := false
  pinf : Bool := false
  ninf : Bool := false
  ovf : Bool := false
deriving DecidableEq, Repr

/-- The NaN of a format: all-ones, or 0x80 for INT8 (R43); `none` stands for an MX block scale of 0xFF or the
LA128 marker. -/
def fmtNan (f : Fmt) : Option Nat :=
  match f with
  | .int8 => some 0x80
  | .la128 | .mxE2m3 | .mxE3m2 | .mxE2m1 => none
  | _ => some (2 ^ fmtBits f - 1)

/-- An infinite result (R64): the infinity, or the format's NaN where it has none. -/
def infResult (f : Fmt) (neg : Bool) : Option Nat :=
  match fmtInfBits f neg with
  | some b => some b
  | none => fmtNan f

/-- A finite overflow (R64). -/
def overflowResult (f : Fmt) (neg sat : Bool) : Option Nat :=
  match f with
  | .g16 | .mxE2m3 | .mxE3m2 | .mxE2m1 | .int8 => some (fmtMaxBits f neg)
  | _ => if sat then some (fmtMaxBits f neg) else infResult f neg

/-- The sign bit of a format set or clear over a magnitude. -/
def withSign (f : Fmt) (neg : Bool) (mag : Nat) : Nat :=
  if neg then mag + 2 ^ (fmtMbits f + fmtEbits f) else mag

/-- `encode_int8` of R63: saturates to -128 or 127. -/
def encodeInt8 (neg : Bool) (n : Nat) : Nat :=
  if neg then (256 - min n 128) % 256 else min n 127

/-- A finite value `(-1)^neg * m * 2^e` with `m` not zero, rounded into a format (R63, R64). -/
def roundFin (neg : Bool) (m : Nat) (e : Int) (f : Fmt) (rz sat : Bool) : Option Nat :=
  match f with
  | .int8 => some (encodeInt8 neg (roundShift m e rz))
  | _ =>
    let mb := fmtMbits f
    let t : Int := (Nat.log2 m : Int) + e
    let q0 : Int := max t (1 - fmtBias f) - mb
    let n0 := roundShift m (e - q0) rz
    let n := if n0 = 2 ^ (mb + 1) then 2 ^ mb else n0
    let q := if n0 = 2 ^ (mb + 1) then q0 + 1 else q0
    let mx := fmtMaxFin f neg
    if dyGt n q mx.1 mx.2 then overflowResult f neg sat
    else if n < 2 ^ mb then some (withSign f neg n)
    else some (withSign f neg ((q + mb + fmtBias f).toNat * 2 ^ mb + (n - 2 ^ mb)))

/-- `round_out` of R63 for every output format but LA128. `bound` is the range of R60 in units of `2^w`
(`none` for a conversion, which has no range). -/
def roundOut (c : RoundIn) (w : Int) (s : Int) (f : Fmt) (rz sat : Bool) (bound : Option Nat) : Option Nat :=
  if c.nan || c.ovf || (c.pinf && c.ninf) then fmtNan f
  else if c.pinf then infResult f false
  else if c.ninf then infResult f true
  else if (match bound with | some b => decide (b ≤ c.v.natAbs) | none => false) then fmtNan f
  else if c.v = 0 then some 0
  else roundFin (decide (c.v < 0)) c.v.natAbs (w + s) f rz sat

/-- A zero of a format with its sign (R44): INT8 has one zero. -/
def encodeZero (f : Fmt) (neg : Bool) : Nat :=
  match f with
  | .int8 | .la128 => 0
  | _ => withSign f neg 0

/-- A conversion of a value scaled by `2^s` (R68): a zero keeps its sign, everything else is `roundOut`. -/
def convertVal (v : Val) (s : Int) (f : Fmt) (rz sat : Bool) : Option Nat :=
  match v with
  | .nan => fmtNan f
  | .inf neg => infResult f neg
  | .zero neg => some (encodeZero f neg)
  | .fin m e => roundFin (decide (m < 0)) m.natAbs (e + s) f rz sat

/-- A finite value as an integer in units of `2^w`, cut toward zero (R58). -/
def truncAt (m : Int) (e w : Int) : Int :=
  if w ≤ e then m * (2 ^ (e - w).toNat : Nat) else Int.tdiv m ((2 ^ (w - e).toNat : Nat) : Int)

/-- The exact product of two values; infinity times zero is NaN (R66). -/
def mulVal (a b : Val) : Val :=
  match a, b with
  | .nan, _ => .nan
  | _, .nan => .nan
  | .inf x, .inf y => .inf (xor x y)
  | .inf _, .zero _ => .nan
  | .zero _, .inf _ => .nan
  | .inf x, .fin m _ => .inf (xor x (decide (m < 0)))
  | .fin m _, .inf y => .inf (xor (decide (m < 0)) y)
  | .zero x, .zero y => .zero (xor x y)
  | .zero x, .fin m _ => .zero (xor x (decide (m < 0)))
  | .fin m _, .zero y => .zero (xor (decide (m < 0)) y)
  | .fin m e, .fin n g => .fin (m * n) (e + g)

/-- A value times `2^s`. -/
def scaleVal (v : Val) (s : Int) : Val :=
  match v with
  | .fin m e => .fin m (e + s)
  | v => v

/-- The value with its sign reversed. -/
def negVal (v : Val) : Val :=
  match v with
  | .nan => .nan
  | .inf n => .inf (!n)
  | .zero n => .zero (!n)
  | .fin m e => .fin (-m) e

/-- The exact sum of two values. Opposite infinities give NaN; an exact result of zero is +0, and a sum of two
zeros is +0 (R44). -/
def addVal (a b : Val) : Val :=
  match a, b with
  | .nan, _ => .nan
  | _, .nan => .nan
  | .inf x, .inf y => if x = y then .inf x else .nan
  | .inf x, _ => .inf x
  | _, .inf y => .inf y
  | .zero _, .zero _ => .zero false
  | .zero _, v => v
  | v, .zero _ => v
  | .fin m e, .fin n g =>
    let q := min e g
    let r := m * (2 ^ (e - q).toNat : Nat) + n * (2 ^ (g - q).toNat : Nat)
    if r = 0 then .zero false else .fin r q

/-- Whether a value is not finite. -/
def valNonFinite (v : Val) : Bool :=
  match v with
  | .nan => true
  | .inf _ => true
  | _ => false

/-- The order of two finite values or infinities: `some true` if `a < b`; `none` if either is NaN. The zeros are equal. -/
def valLt (a b : Val) : Option Bool :=
  let key : Val → Option (Int × Int × Int) := fun v =>
    match v with
    | .nan => none
    | .inf neg => some (if neg then -1 else 1, 0, 0)
    | .zero _ => some (0, 0, 0)
    | .fin m e => some (0, m, e)
  match key a, key b with
  | some (i, m, e), some (j, n, g) =>
    if i ≠ j then some (decide (i < j))
    else
      let q := min e g
      some (decide (m * (2 ^ (e - q).toNat : Nat) < n * (2 ^ (g - q).toNat : Nat)))
  | _, _ => none

/-- Whether two values are equal numbers; NaN equals nothing. -/
def valEq (a b : Val) : Bool :=
  match valLt a b, valLt b a with
  | some false, some false => true
  | _, _ => false

/-- The magnitude of a value. -/
def absVal (v : Val) : Val :=
  match v with
  | .nan => .nan
  | .inf _ => .inf false
  | .zero _ => .zero false
  | .fin m e => .fin (m.natAbs : Int) e

/-- An E8M0 block scale as an exponent; 0xFF is NaN (R45). -/
def e8m0 (b : Nat) : Option Int := if b % 256 = 255 then none else some ((b % 256 : Nat) - 127)

/-- An MX element with its block scale (R46, R47). -/
def mxVal (f : Fmt) (b scale : Nat) : Val :=
  match e8m0 scale with
  | none => .nan
  | some s => scaleVal (decodeElem f b) s

/-- Bytes of one MX block of 32 elements (R46). -/
def mxBlockBytes (f : Fmt) : Nat := fmtBits f * 4

/-- Element `i` of a packed string of elements (R46: the 6-bit and 4-bit packings are little-endian bit strings). -/
def packedElem (f : Fmt) (b : Bytes) (i : Nat) : Nat :=
  let w := fmtBits f
  let lo := i * w
  leAt b (lo / 8) ((lo % 8 + w + 7) / 8) / 2 ^ (lo % 8) % 2 ^ w

/-- Elements packed into bytes, the first at the low bits (R46). -/
def packElems (f : Fmt) (es : List Nat) : Bytes :=
  let w := fmtBits f
  leBytes ((es.length * w + 7) / 8)
    ((es.zipIdx).foldl (fun a p => a + p.1 % 2 ^ w * 2 ^ (p.2 * w)) 0)

/-- The class of a pair of operand formats (R55). -/
def pairExact (a b : Fmt) : Bool :=
  let ex : Fmt → Bool := fun f => match f with
    | .e4m3 | .e5m2 | .int8 | .fp16 => true
    | _ => false
  ex a && ex b

/-- An accumulator cell's contents with guard and flags (R51). -/
structure AccCell where
  /-- `GUARD` and `VALUE`: the sum in 152 bits. -/
  sum : BitVec 152 := 0
  nan : Bool := false
  pinf : Bool := false
  ninf : Bool := false
  ovf : Bool := false
deriving DecidableEq, Repr

/-- The sum of a cell as an integer. -/
def cellInt (c : AccCell) : Int := c.sum.toInt

/-- Whether a cell overflows at rounding (R60): the exact class is judged at 2^63, the windowed class at 2^127 units. -/
def cellOut (c : AccCell) : Bool := c.ovf || decide ((2 ^ 127 : Nat) ≤ (cellInt c).natAbs)

/-- One product added to a cell (R57, R58, R66): `w` is the weight of the cell's lowest bit. -/
def cellAddVal (c : AccCell) (w : Int) (p : Val) : AccCell :=
  match p with
  | .nan => { c with nan := true }
  | .inf false => { c with pinf := true }
  | .inf true => { c with ninf := true }
  | .zero _ => c
  | .fin m e =>
    let t := truncAt m e w
    if 2 ^ 127 ≤ t.natAbs then { c with ovf := true }
    else { c with sum := c.sum + BitVec.ofInt 152 t }

/-- A cell loaded from the 16 bytes of an LA128 cell in memory (R53). -/
def cellOfMem (b : Nat) : AccCell :=
  if b % 2 ^ 128 = laMarker then { nan := true } else { sum := BitVec.ofInt 152 (signedOf 128 b) }

/-- A cell as the 16 bytes written to memory (R53). -/
def cellToMem (c : AccCell) : Nat :=
  if c.nan || c.pinf || c.ninf || c.ovf || decide (2 ^ 127 ≤ (cellInt c).natAbs) then laMarker
  else unsignedOf 128 (cellInt c)

/-- A cell rounded into a format with scale `s` (R60, R61, R63). -/
def cellRound (c : AccCell) (w s : Int) (f : Fmt) (rz sat : Bool) : Option Nat :=
  match f with
  | .la128 => some (cellToMem c)
  | _ => roundOut { v := cellInt c, nan := c.nan, pinf := c.pinf, ninf := c.ninf, ovf := c.ovf } w s f rz sat
      (some (2 ^ 127))

/-- A memory-side exact-float add of one value to a cell in memory, scaled by `2^k` (R54, 09 R268): an addend that is not
finite or that does not convert exactly stores the NaN marker, as does a sum that leaves the range. -/
def laAdd (cell : Nat) (v : Val) (k : Int) : Nat :=
  if cell % 2 ^ 128 = laMarker then laMarker
  else
    match v with
    | .nan => laMarker
    | .inf _ => laMarker
    | .zero _ => cell % 2 ^ 128
    | .fin m e =>
      let t := truncAt m (e + k) (-64)
      let exact := decide (-64 ≤ e + k) || decide (m % ((2 ^ (-64 - (e + k)).toNat : Nat) : Int) = 0)
      let r := signedOf 128 cell + t
      if exact = false ∨ 2 ^ 127 ≤ t.natAbs ∨ 2 ^ 127 ≤ r.natAbs then laMarker else unsignedOf 128 r

/-- The floor of the square root of `n`, bit by bit from bit `k` down. -/
def isqrtFrom (n : Nat) : Nat → Nat → Nat
  | 0, r => r
  | k + 1, r =>
    let c := r + 2 ^ k
    if c * c ≤ n then isqrtFrom n k c else isqrtFrom n k r

/-- The floor of the square root. -/
def isqrt (n : Nat) : Nat := isqrtFrom n (Nat.log2 n / 2 + 1) 0

end Sys2Proof.Machine
end

