-- ==== Sys2Proof/Machine/Tbl.lean ====
section
/-!
DEFINITION. Sparse tables by number: what every indexed part of the state (cores, berths, ports, registers) is kept in.
-/

namespace Sys2Proof.Machine

/-- A sparse table: an index that is not listed holds the table's reset value. -/
abbrev Tbl (α : Type) := List (Nat × α)

/-- What index `k` holds; `d` where nothing is listed. -/
def tget {α : Type} (t : Tbl α) (d : α) (k : Nat) : α :=
  match t with
  | [] => d
  | (j, v) :: r => if j = k then v else tget r d k

/-- Index `k` if the table lists it. -/
def tfind {α : Type} (t : Tbl α) (k : Nat) : Option α :=
  match t with
  | [] => none
  | (j, v) :: r => if j = k then some v else tfind r k

/-- Puts `v` at index `k`, keeping rising order. -/
def tset {α : Type} (t : Tbl α) (k : Nat) (v : α) : Tbl α :=
  match t with
  | [] => [(k, v)]
  | (j, w) :: r =>
    if j = k then (k, v) :: r
    else if k < j then (k, v) :: (j, w) :: r
    else (j, w) :: tset r k v

/-- Changes what index `k` holds. -/
def tmod {α : Type} (t : Tbl α) (d : α) (k : Nat) (f : α → α) : Tbl α :=
  tset t k (f (tget t d k))

/-- Takes index `k` out of the table. -/
def tdel {α : Type} (t : Tbl α) (k : Nat) : Tbl α := t.filter fun p => p.1 != k

/-- The first `n` numbers `f 0, f 1, …` for which `f` is true. -/
def firstBelow (n : Nat) (f : Nat → Bool) : Option Nat := (List.range n).find? f

/-- `s` after `f` for each number below `n`, lowest first. -/
def forN {σ : Type} (n : Nat) (s : σ) (f : Nat → σ → σ) : σ :=
  (List.range n).foldl (fun t i => f i t) s

/-- `s` after `f` for each element, first to last. -/
def forL {σ α : Type} (l : List α) (s : σ) (f : α → σ → σ) : σ :=
  l.foldl (fun t i => f i t) s

/-- Replaces the first element that `p` picks. -/
def lmodFirst {α : Type} (l : List α) (p : α → Bool) (f : α → α) : List α :=
  match l with
  | [] => []
  | a :: r => if p a then f a :: r else a :: lmodFirst r p f

end Sys2Proof.Machine
end

