-- ==== Sys2Proof/Machine/CoreState.lean ====
section
/-!
DEFINITION. What a core holds: thread groups, local memory, L1, the vector engine and the matrix array
(03, 04, 06, 07 and 08 of the manual).
-/

namespace Sys2Proof.Machine

/-- Bytes by address in canonical form, and the numbers of the 64-byte pieces that carry the poison mark
(02 R67, 06 R156, 09 R261). An address that is not listed reads 0. -/
structure Store where
  cells : List Host.Cell := []
  poison : List Nat := []
deriving DecidableEq, Repr

/-- One mapped range of a berth's translation (15 R455 `MAP`): `pages` pages of 2^`shift` bytes from virtual
address `va` to physical or fabric global address `pa`. -/
structure MapEnt where
  va : Nat
  pa : Nat
  shift : Nat
  pages : Nat
  read : Bool := true
  write : Bool := true
deriving DecidableEq, Repr

/-- An entry of a group's reconvergence stack (07 R191): a path or a join. -/
structure PathEnt where
  join : Bool := false
  pc : Nat
  rpc : Option Nat := none
  mask : BitVec 32
  /-- The path waits at a fence (07 R214): its scope, and the number below which accesses must be performed. -/
  fence : Option (Nat × Nat) := none
deriving DecidableEq, Repr

/-- The chain a group holds open, as validation sees it (03 R83, R85, 04 R132): what a continuation must repeat. -/
structure ChainSt where
  id : Nat
  /-- LM address of the head's descriptor. -/
  desc : Nat
  m : Nat
  n : Nat
  rowMaskEn : Bool
  rowMask : Nat
  blkMaskEn : Bool
  exact : Bool
  win : Int
  scaleAB : Int
  kSum : Nat
  skipped : Bool
deriving DecidableEq, Repr

/-- One thread group (07 R185-R197). Register `v[i]` of lane `l` is entry `32*i + l` of `v`. The topmost stack
entry comes first. -/
structure GroupSt where
  v : Tbl (BitVec 32) := []
  sreg : Tbl (BitVec 64) := []
  stack : List PathEnt := []
  tk : Tbl Nat := []
  chain : Option ChainSt := none
deriving DecidableEq, Repr

/-- One barrier of a core (07 R194, R195): arrivals and count of the generation, and the lanes that wait. -/
structure BarrierSt where
  arrivals : Nat := 0
  count : Nat := 0
  waiting : List (Nat × BitVec 32) := []
deriving DecidableEq, Repr

/-- The kernel that a core runs (07 R185, R190, R200). `launch` is the number of the launch in the state. -/
structure KernSt where
  berth : Nat
  launch : Nat
  kseq : Nat := 0
  nGroups : Nat
  codeBytes : Nat
  entry : Nat := 0
  argLm : Nat := 0
  rank : Nat := 0
  nCores : Nat := 1
  tally : Nat := 0
  /-- The launch's image and argument block in the berth's memory. -/
  image : Nat := 0
  argVa : Nat := 0
  /-- The groups have started (07 R219). -/
  started : Bool := false
  groups : Tbl GroupSt := []
  barriers : Tbl BarrierSt := []
  /-- The forward-progress monitor found a stranded barrier at its last examination (07 R196). -/
  stranded : Bool := false
deriving DecidableEq, Repr

/-- What an issued access is (07 R202, R212, R213, 08 R225). -/
inductive AccKind where
  | load
  | store
  | atomic
deriving DecidableEq, Repr

/-- One lane's piece of an access; lane 32 stands for a scalar instruction. `reg` is the register specifier that
receives a result; `d0` is the data of a store or the first operand of an atomic, `d1` the second. -/
structure AccPart where
  lane : Nat
  addr : Nat
  size : Nat
  /-- The address as the thread gave it. -/
  va : Nat := 0
  reg : Nat := 0
  d0 : Nat := 0
  d1 : Nat := 0
deriving DecidableEq, Repr

/-- An access of a core that has issued and is not yet performed, or whose result has not yet returned: all of one
64-byte line (08 R226, R227). `addr` in the parts is a module-local physical address, or an offset in the target
module if `node` is another module. -/
structure Access where
  id : Nat
  group : Nat
  launch : Nat
  kind : AccKind
  /-- Code offset and active lanes of the instruction, for a fault record. -/
  pc : Nat := 0
  lanes : BitVec 32 := 0
  node : Option Nat := none
  line : Nat
  vol : Bool := false
  sext : Bool := false
  /-- Local memory, whose accesses are performed at issue (08 R236): only the result's return is open. -/
  lm : Bool := false
  aop : Nat := 0
  xfmt : Nat := 0
  ret : Bool := false
  parts : List AccPart
  /-- The access has been performed and these values, one for each part, wait to be returned. -/
  done : Option (List Nat) := none
deriving DecidableEq, Repr

/-- A line held by the L1 data cache (08 R231). -/
structure L1Line where
  line : Nat
  data : BitVec 512
deriving DecidableEq, Repr

/-- An instruction in the array queue (03 R88, 04 R117, R136): the descriptor, records and translation as they
stood at queue entry. `fill` is the gather fill it belongs to, `chain` the chain, `started` its bank once it runs. -/
structure AqEnt where
  id : Nat
  group : Nat
  launch : Nat
  tk : Nat
  pc : Nat := 0
  lanes : BitVec 32 := 0
  descAddr : Nat
  words : List Nat
  maskRec : Nat := 0
  conv : Bytes := []
  maps : List MapEnt := []
  chain : Nat := 0
  fill : Option Nat := none
  bank : Option Nat := none
  segments : Nat := 0
deriving DecidableEq, Repr

/-- A gather fill (03 R95): the words of its first request and the rows it holds. -/
structure FillSt where
  id : Nat
  words : List Nat
  rows : Nat
  isOpen : Bool := true
deriving DecidableEq, Repr

/-- One of the two banks of accumulator cells (03 R77, R82): who holds it, and cell `(i, j)` at `64*i + j`. -/
structure BankSt where
  owner : Option Nat := none
  cells : Tbl AccCell := []
deriving DecidableEq, Repr

/-- An operation in the vector queue (06 R160): its word and the translation at queue entry. -/
structure VqEnt where
  id : Nat
  group : Nat
  launch : Nat
  tk : Nat
  pc : Nat := 0
  lanes : BitVec 32 := 0
  w0 : BitVec 64
  w1 : BitVec 64
  maps : List MapEnt := []
  /-- The tie-sum record as read at queue entry (05 R147). -/
  record : Bytes := []
  started : Bool := false
deriving DecidableEq, Repr

/-- An amax register (06 R176): an FP32 magnitude and a non-finite flag. -/
structure AmaxReg where
  mag : BitVec 32 := 0
  nonFinite : Bool := false
deriving DecidableEq, Repr

/-- One core (01 R27): local memory, L1, vector engine, matrix array, the kernel that runs on it, and the accesses
on their way. -/
structure CoreSt where
  lm : Store := {}
  l1 : List L1Line := []
  vr : Tbl Row := []
  cache : Tbl Row := []
  vrMark : Tbl (BitVec 16) := []
  cacheMark : Tbl (BitVec 16) := []
  amax : Tbl AmaxReg := []
  vq : List VqEnt := []
  aq : List AqEnt := []
  fills : List FillSt := []
  banks : Tbl BankSt := []
  lastBank : Nat := 1
  kern : Option KernSt := none
  acc : List Access := []
  nextId : Nat := 1
  /-- First residue failures, vector and matrix, and L1 lines that failed their check (03 R114, 06 R183, 08 R249). -/
  residues : Nat := 0
  l1Fails : Nat := 0
deriving DecidableEq, Repr

end Sys2Proof.Machine
end

