-- ==== Sys2Proof/Machine/MemState.lean ====
section
/-!
DEFINITION. What the channel controllers of a stack hold (09_stacked_memory.md). The bytes themselves are in the
module's memory; here are spares, repairs, counters and the write-combining buffers.
-/

namespace Sys2Proof.Machine

/-- The state of a write-combining entry (09 R265). -/
inductive WcbState where
  | partly
  | full
  | accumulating
deriving DecidableEq, Repr

/-- An entry of a write-combining buffer (09 R265): the line, and which of its bytes the array has not received. -/
structure WcbEnt where
  line : Nat
  mask : BitVec 64 := 0
  st : WcbState := .partly
deriving DecidableEq, Repr

/-- What a channel is doing (`STATE` of 09 R279). -/
inductive ChanMode where
  | normal
  | copying
  | onSpare
  | copyingBack
  | stalled
  | relocated
deriving DecidableEq, Repr

/-- A logical channel (09 R250, R260, R272-R279). `phys` is the physical channel in use. -/
structure ChanSt where
  phys : Nat
  mode : ChanMode := .normal
  /-- Pins declared dead (R260). -/
  dead : List Nat := []
  /-- Symbols corrected in each of the last 64 corrected reads, newest first (R260). -/
  recent : List (List Nat) := []
  corr : Nat := 0
  uncorr : Nat := 0
  wcb : List WcbEnt := []
  /-- The spare that a copy goes to, or that stands in for the original. -/
  spare : Option Nat := none
  /-- The physical channel that a substitution took out and that is retrained and tested (R274). -/
  original : Option Nat := none
  /-- Queued for substitution (R272), and the cause and detail where a rule beside R260 takes the channel out of service;
  queued for a retrain (R276). -/
  needSpare : Bool := false
  why : Option (Nat × Nat) := none
  needRetrain : Bool := false
  /-- The original has passed, and its copy back waits for the group's other copy (R272, R274). -/
  passed : Bool := false
  /-- Retrains in a stall that did not pass (17 R527). -/
  retrainFails : Nat := 0
  /-- The channel must leave service and no spare is free (R277): it waits for its relocation. -/
  leaving : Bool := false
deriving DecidableEq, Repr

/-- A stack (09 R255, R277, R278). `limit` is the usable window in bytes, `pending` the limit of a pending shrink. -/
structure StackSt where
  limit : Nat := 2 ^ 36
  pending : Option Nat := none
  relocated : Nat := 0
  outOfService : Bool := false
  /-- Refresh doubled, the stack being above 85 degrees (R255). -/
  hot : Bool := false
deriving DecidableEq, Repr

end Sys2Proof.Machine
end

