-- ==== Sys2Proof/Machine/HostState.lean ====
section
/-!
DEFINITION. What the host interface holds (15_host_objects_queues_and_mailboxes.md): functions, mailboxes, contexts,
queues, objects, events and launches.
-/

namespace Sys2Proof.Machine

/-- The registers and set-up of one function, physical (0) or virtual (1 to 24) (15 R448, R455). -/
structure FnSt where
  enabled : Bool := false
  queue : Nat := 0
  qdbBad : Nat := 0
  bargeOwn : BitVec 64 := 0
  ntcTail : Nat := 0
  ntcHead : Nat := 0
  ntcLost : Nat := 0
  cplLost : Nat := 0
  /-- Barge window: host address, log2 of the barge size, number of barges (R473). -/
  barge : Option (Nat × Nat × Nat) := none
  /-- Notice ring: host address, log2 of the entries (R474). -/
  ring : Option (Nat × Nat) := none
  nseq : Nat := 0
  /-- The port on which the latest control request arrived (R447). -/
  port : Nat := 0
  /-- A function-level reset has still to clear ring and window, once no command touches a barge (R476). -/
  flr : Bool := false
deriving DecidableEq, Repr

/-- One mailbox (15 R458). -/
structure MboxSt where
  inp : Tbl (BitVec 32) := []
  outp : Tbl (BitVec 32) := []
  nwords : Nat := 0
  tag : Nat := 0
  busy : Bool := false
  collide : Bool := false
  outWords : Nat := 0
  collisions : Nat := 0
  code : Nat := 0
  ackTag : Nat := 0
  dbl : BitVec 32 := 0
  dblMask : BitVec 32 := 0xFFFFFFFF
  /-- The berth an operator mailbox 98-127 is assigned to (R455). -/
  assigned : Option Nat := none
deriving DecidableEq, Repr

/-- A context (15 R449, R475). -/
structure CtxSt where
  berth : Nat
  abandoned : Bool := false
deriving DecidableEq, Repr

/-- The command a queue runs (15 R467): its number, and what runs for it. -/
structure RunSt where
  index : Nat
  /-- The command's eight words as they stood in the staging ring at its start. -/
  words : List Nat
  /-- The number of the launch that serves it. -/
  launch : Option Nat := none
  /-- The barges it touched (R473). -/
  barges : BitVec 64 := 0
  /-- It has ended with this status; `count` and `aux` are the completion record's. -/
  done : Option Nat := none
  count : Nat := 0
  aux : Nat := 0
  /-- How far a feed has read its barge (13 R414). -/
  off : Nat := 0
  fault : Bytes := []
deriving DecidableEq, Repr

/-- The references of an admitted command (15 R452, R466): objects and events named, and the code it was refused with. -/
structure AdmitSt where
  objs : List Nat := []
  evts : List Nat := []
  refused : Option Nat := none
deriving DecidableEq, Repr

/-- A queue of a berth (15 R449, R462-R470, R477). -/
structure QueueSt where
  ctx : Nat
  pos : Nat
  step : Bool := false
  log2 : Nat
  hostRing : Nat
  cplRing : Nat
  staging : Nat
  admitted : Nat := 0
  retired : Nat := 0
  admits : Tbl AdmitSt := []
  stopped : Bool := false
  destroying : Bool := false
  resident : Bool := false
  run : Option RunSt := none
  /-- A launch of this queue has waited 1 ms and is reserving (R471). -/
  reserving : Bool := false
deriving DecidableEq, Repr

/-- A memory object (15 R449, R452): generation, range, contexts that hold it, device count. -/
structure ObjSt where
  gen : Nat := 1
  live : Bool := false
  va : Nat := 0
  bytes : Nat := 0
  holders : List Nat := []
  dref : Nat := 0
deriving DecidableEq, Repr

/-- An event (15 R449, R454). `status` is 0 OK, 1 FAILED, 2 ABANDONED. -/
structure EvtSt where
  gen : Nat := 1
  live : Bool := false
  value : BitVec 64 := 0
  status : Nat := 0
  notify : Bool := false
  creator : Nat := 0
  holders : List Nat := []
  dref : Nat := 0
deriving DecidableEq, Repr

/-- A launch that runs (07 R220, 15 R471): its cores in order, those that have not ended, the first fault record. -/
structure LaunchSt where
  berth : Nat
  queue : Nat
  kseq : Nat
  cores : List Nat
  running : List Nat
  image : Nat := 0
  limitMs : Nat := 0
  stopped : Bool := false
  fault : Bytes := []
  /-- The status the launch ends with. -/
  status : Nat := 0
deriving DecidableEq, Repr

/-- The negotiation of an SPDM session on a host port (16 R506). -/
structure SpdmSt where
  version : Bool := false
  caps : Bool := false
  algs : Bool := false
deriving DecidableEq, Repr

/-- A host port (15 R443, R478, 20 R582). -/
structure PortSt where
  up : Bool := true
  width : Nat := 4
  rate : Nat := 64
  perst : Bool := false
  eid : Nat := 0
  spdm : SpdmSt := {}
deriving DecidableEq, Repr

end Sys2Proof.Machine
end

