-- ==== Sys2Proof/Machine/ModuleState.lean ====
section
/-!
DEFINITION. What the basin controllers, the snapshot machinery, the lockkeepers, the dictionary, the start sequence, the
link instrument and the power stage hold (13, 16, 17, 18, 19, 20).
-/

namespace Sys2Proof.Machine

/-- A record at a stream, complete and checked (13 R394): its number, first sequence, fragments and length. -/
structure RecSt where
  record : Nat
  first : Nat
  frags : Nat
  len : Nat
deriving DecidableEq, Repr

/-- A stream of a berth (13 R387-R398). `st` is its `STATE`; its configuration is in the dictionary. -/
structure StreamSt where
  enable : Nat := 0
  st : Nat := 0
  epoch : Nat := 0
  nextSeq : Nat := 0
  /-- F, the lowest sequence whose slot has not been freed (R392). -/
  low : Nat := 0
  /-- One more than the highest landed sequence, 0 if none. -/
  high : Nat := 0
  /-- The headers of landed frames by sequence. -/
  landed : Tbl Bytes := []
  /-- The first sequence whose record has not been checked, and the number of the last record checked. -/
  chk : Nat := 0
  prev : Option Nat := none
  ready : List RecSt := []
  /-- CRC failures of the record that starts at `chk`; the record that faulted the stream, with
  its frames. -/
  crcFails : Nat := 0
  bad : Option (Nat × Nat) := none
  dropCrc : Nat := 0
  dropOther : Nat := 0
  breach : Nat := 0
  resends : Nat := 0
  /-- The port that received the latest frame (R386). -/
  port : Option Nat := none
  /-- An ACK period runs, and a frame has landed in it (R397). -/
  ackOpen : Bool := false
  ackDue : Bool := false
  /-- A STOP has been sent and no GO since; a breach has been reported since the STOP (R397, R398). -/
  stopped : Bool := false
  breachSaid : Bool := false
  /-- Repeats of GO and REWIND still to be sent. -/
  goLeft : Nat := 0
  rewindLeft : Nat := 0
  msgSeq : Nat := 0
  /-- RESENDs sent for a sequence, and for a host-fed stream the waits passed (R395, R414). -/
  gaps : Tbl Nat := []
deriving DecidableEq, Repr

/-- A basin port (13 R385, R417). -/
structure BasinSt where
  up : Bool := true
  unmatched : Nat := 0
deriving DecidableEq, Repr

/-- A take that runs (13 R400-R403). -/
structure TakeSt where
  queue : Nat
  dst : Nat
  dstBytes : Nat
  list : Nat
  count : Nat
  taken : Nat := 0
  skipped : Nat := 0
  off : Nat := 0
  before : Nat
  /-- It waits for a record; the wait has been reported (R416). -/
  waited : Bool := false
deriving DecidableEq, Repr

/-- A piece of a snapshot (18 R543): range, offset in it, length, where it lies. -/
structure PieceSt where
  range : Nat
  offset : Nat
  len : Nat
  pa : Nat
deriving DecidableEq, Repr

/-- A snapshot slot (18 R549). -/
structure SlotSt where
  st : Nat := 0
  drained : Bool := false
  inflight : Bool := false
  draining : Bool := false
  stopUs : Nat := 0
  tally : Nat := 0
  stepSeq : Nat := 0
  dMax : Nat := 0
  dTotal : Nat := 0
  listHash : Nat := 0
  tensor : Nat := 0
  state : Nat := 0
  ingest : Nat := 0
  xch : Nat := 0
  fw : Nat := 0
  /-- The replica's `STEP_SEQ` and digest, waiting for this slot's digest (R550). -/
  replica : Option (Nat × Nat) := none
  /-- Bytes acknowledged by storage or received from it, by die position (R552, R553). -/
  acked : Tbl Nat := []
  filled : Tbl Nat := []
  /-- Bytes of each run that a fill expects, by die position, as its first frame says. -/
  total : Tbl Nat := []
  /-- The software ranges that the tensor digest covers. -/
  compare : List Nat := []
deriving DecidableEq, Repr

/-- The snapshots of a berth (18). `phase` is X:08; `lockage` is the slot of a lockage that waits or runs, and `copied` tells
that its copy has been made. -/
structure SnapSt where
  phase : Nat := 0
  slots : Tbl SlotSt := []
  lockage : Option Nat := none
  copied : Bool := false
  /-- The slot a restore takes its bytes from. -/
  restoring : Option Nat := none
  /-- A restore was interrupted: the berth fetches nothing until one has been completed (R560). -/
  unrestored : Bool := false
deriving DecidableEq, Repr

/-- A message on its way to the dictionary (16 R490, R493): transport (0, 1 a towpath port, 97 the mailbox), connection. -/
structure ThnMsg where
  port : Nat
  conn : Nat
  msg : Bytes
deriving DecidableEq, Repr

/-- A session (16 R489, R494-R496). -/
structure SessSt where
  port : Nat
  conn : Nat
  role : Nat
  berth : Nat := 0
  subscribe : Bool := false
  /-- The last 64 answers with their `SEQ`, oldest first. -/
  kept : List (Nat × Bytes) := []
  /-- A value being staged: entry, total, pieces by offset. -/
  staged : Option (Nat × Nat × List (Nat × Bytes)) := none
deriving DecidableEq, Repr

/-- A DTLS connection of the towpath (16 R489, R490): its port, the client's leaf certificate in DER and the rest of its
chain. -/
structure ConnSt where
  port : Nat
  leaf : Bytes := []
  chain : Bytes := []
deriving DecidableEq, Repr

/-- The object dictionary (16). A setting that is not listed has its entry's default. -/
structure DictSt where
  sets : Tbl Nat := []
  blobs : Tbl Bytes := []
  sessions : Tbl SessSt := []
  sessNext : Nat := 1
  conns : Tbl ConnSt := []
  inbox : List ThnMsg := []
  /-- Ticks that have passed, and the tick of the mirror's last change with its `GEN` (R497, R509). -/
  tick : Nat := 0
  mirrorTick : Nat := 0
  gen : Nat := 0
  changed : Bool := false
  calWrites : Nat := 0
  /-- Towpath ports that are down. -/
  tpDown : List Nat := []
deriving DecidableEq, Repr

/-- The lockkeepers (01 R22, 16 R485, R511, 17 R531, R532). `active` is the die of the active one; `standby` is
0 absent, 1 mirroring, 2 catching up. -/
structure LkSt where
  active : Option Nat := some 27
  standby : Nat := 1
  fenced : List Nat := []
  /-- Lockkeepers whose access-table entries a takeover has cleared without a fence (17 R531). -/
  cut : List Nat := []
  /-- A lockkeeper image is being installed: the takeover that it calls for is still to come (17 R538). -/
  installing : Bool := false
  seFailed : Bool := false
  /-- The session that holds service state. -/
  service : Option Nat := none
  ptp : Nat := 0
  ptpNs : Nat := 0
  version : Nat := 0x0100
deriving DecidableEq, Repr

/-- An entry of the defect list (17 R521). -/
structure DefectEnt where
  kind : Nat
  die : Nat
  unit : Nat := 0
  sub : Nat := 0
  cause : Nat
  st : Nat
  spare : Nat := 0xFFFF
  dawnNo : Nat := 0
  ptpNs : Nat := 0
  detail : Nat := 0
deriving DecidableEq, Repr

/-- Defects, spares and fences (17 R520-R530). -/
structure DefectSt where
  list : List DefectEnt := []
  factory : Nat := 0
  /-- Entries of a full list, in running state only (R523); entries that wait for a lockkeeper (R541). -/
  running : List DefectEnt := []
  waiting : List DefectEnt := []
  /-- Compute dies, and fabric dies, fenced at every fabric die (R528). -/
  fenced : List Nat := []
  fencedFds : List Nat := []
  /-- Physical core of a core index where it is not the first one (01 R27, R525); 0xFF absent (R526). -/
  coreMap : Tbl Nat := []
  /-- Free spare cores of a die: PC16 and PC17 where nothing is listed. -/
  coreFree : Tbl (List Nat) := []
  /-- Cores that have failed and await a spare: core, cause and detail (R525). -/
  subst : List (Nat × Nat × Nat) := []
  /-- Attachments in service by die: 3 where nothing is listed. -/
  attach : Tbl Nat := []
  edgesOut : List Nat := []
  /-- Warning levels already reported: measure and unit (R527). -/
  warned : List (Nat × Nat) := []
  sramRows : List (Nat × Nat × Nat) := []
  readmit : Nat := 0
  readmitUnit : Option DefectEnt := none
deriving DecidableEq, Repr

/-- Firmware (17 R533-R538). Versions that are not listed are `base`, which free dies run. -/
structure FwSt where
  base : Nat := 0x0100
  berth : Tbl Nat := []
  staged : Option Bytes := none
  st : Nat := 0
  rounds : Nat := 0
  /-- The chunks a receiver still lacks in the broadcast that runs; receiver 32*die + core, or 32*die + 18 for the die
  controller. -/
  gaps : Tbl (List Nat) := []
  flagged : Tbl Nat := []
  /-- The image that a receiver holds verified. -/
  held : Tbl Nat := []
  target : Nat := 0x0100
deriving DecidableEq, Repr

/-- A start (17 R512-R517). `running` is 0 none, 1 dawn, 2 first light. -/
structure BootSt where
  running : Nat := 0
  dawns : Nat := 1
  lastStart : Nat := 1
  durationMs : Nat := 62000
deriving DecidableEq, Repr

/-- The power stage and the sensors (20). Sensor values are by dictionary key. -/
structure PowerSt where
  on : Bool := true
  /-- A protective power-off holds until input power is removed and applied again (R579). -/
  latched : Bool := false
  /-- The cause of the last protective power-off, stored until the next dawn reports it. -/
  offCause : Option Nat := none
  level : Nat := 0
  causes : Nat := 0
  /-- Ticks since the level last fell (R576). -/
  sinceDown : Nat := 0
  /-- The voltage band: 0 normal, 1 low, 2 high (R571). -/
  band : Nat := 0
  sensors : Tbl Int := []
  failed : List (Nat × Nat) := []
  /-- Phases out of service by rail; rail 0x100 is the bus converter (R572). -/
  phasesOut : Tbl (List Nat) := []
  limited : Bool := false
  /-- Alarms that hold: event code and subject (R585). -/
  alarms : List (Nat × Nat) := []
deriving DecidableEq, Repr

/-- The counters of a lane of the link test instrument (19 R563). -/
structure LaneCnt where
  bits : Nat := 0
  errors : Nat := 0
  uncorr : Nat := 0
  lockLoss : Nat := 0
deriving DecidableEq, Repr

/-- The link test instrument of a port (19 R561-R564): `STATE`, counters and margin results by lane, lane 8 being S. Its
controls are in the dictionary. -/
structure InstSt where
  st : Nat := 0
  cnt : Tbl LaneCnt := []
  margins : Tbl Bytes := []
  /-- The loss of lock of this run has been reported (R567). -/
  lostSaid : Bool := false
deriving DecidableEq, Repr

end Sys2Proof.Machine
end

