-- ==== Sys2Proof/Machine/BerthState.lean ====
section
/-!
DEFINITION. What a berth holds: parameters, scale keeper, queues, objects and events (10, 14 and 15 of the manual).
-/

namespace Sys2Proof.Machine

/-- A scale record's step accumulator (10 R289). -/
structure AmaxAcc where
  mag : Nat := 0
  contributed : Bool := false
  nonFinite : Bool := false
  wovf : Bool := false
deriving DecidableEq, Repr

/-- The keeper of a berth (10 R283, R289, R302, R313): step accumulators, the live module counters 0-15 and counters
16-63 as read at the last boundary, and the table addresses in force. -/
structure KeeperSt where
  acc : Tbl AmaxAcc := []
  cnt : Tbl (BitVec 64) := []
  tblBase : Nat := 0
  tblE : Nat := 0
  sentBase : Nat := 0
deriving DecidableEq, Repr

/-- The life of a berth (`STATE` of entry 0x4002, 14 R441). -/
inductive BerthLife where
  | absent
  | active
  | creating
  | resizing
  | resetting
  | dusk
  | faulted
deriving DecidableEq, Repr

/-- A berth (14 R418-R430). -/
structure BerthSt where
  life : BerthLife := .absent
  /-- The dies it owns, rising (14 R418); the first is the head die (10 R283). -/
  dies : List Nat := []
  extent : Nat := 0
  job : Nat := 0
  share : Nat := 0
  tally : BitVec 64 := 0
  stepSeq : BitVec 64 := 0
  /-- The ingest digest (13 R404), the skip windows that are not empty as created (13 R406), the take that runs. -/
  ingest : Nat := 0
  skips : Tbl (Nat × Nat) := []
  take : Option TakeSt := none
  /-- Launches started since creation (15 R471). -/
  kseq : Nat := 0
  held : Bool := false
  /-- The actions of 01 R37 owed at release (10 R305). -/
  holdDue : Bool := false
  /-- A step-end command has retired and its actions have not ended (15 R468). -/
  boundary : Bool := false
  maps : List MapEnt := []
  /-- Lines whose poisoned read has been reported since the last boundary (14 R436). -/
  reported : List Nat := []
  /-- Joined segments (14 R433). -/
  segs : BitVec 64 := 0
  keeper : KeeperSt := {}
  /-- Settings of entries 0xB000-0xB010 in force; written values take effect at a boundary (11 R340). -/
  exch : Tbl Nat := []
  queues : Tbl QueueSt := []
  objs : Tbl ObjSt := []
  objNext : Nat := 0
  objFree : List Nat := []
  evts : Tbl EvtSt := []
  evtNext : Nat := 0
  evtFree : List Nat := []
  /-- A firmware hand-over is due (17 R537). -/
  handOver : Bool := false
  /-- The sequencer starts no command until the hand-over (17 R537). -/
  withhold : Bool := false
  /-- The dies that a resize which runs leaves the berth with (14 R426). -/
  newDies : List Nat := []
  /-- A reset or a dusk requested while another mode runs waits for its end (14 R439, notes q and s). -/
  wantReset : Bool := false
  wantDusk : Bool := false
deriving DecidableEq, Repr

/-- A shared segment (14 R431-R435). `st` is its `STATE`. -/
structure SegSt where
  st : Nat := 0
  bytes : Nat := 0
  primary : Nat := 0
  shadow : Nat := 0
  served : BitVec 64 := 0
  poisoned : BitVec 64 := 0
  /-- A reshadow copy runs into the range at this address. -/
  reshadow : Option Nat := none
  /-- Which copy was lost when the segment became degraded: the primary (R435). -/
  primaryLost : Bool := false
deriving DecidableEq, Repr

end Sys2Proof.Machine
end

