-- ==== Sys2Proof/Machine/FabricState.lean ====
section
/-!
DEFINITION. What the fabric dies hold (12_fabric_and_global_memory.md): link ports, cut plans, routes, windows and
remote requests.
-/

namespace Sys2Proof.Machine

/-- A plan slot (12 R353-R356): the bytes held, the state of entry 0x5101 and the answer of entry 0x5102. -/
structure PlanSt where
  bytes : Bytes := []
  st : Nat := 0
  refusal : Nat := 0
  missing : List Nat := []
  /-- Activation has been requested and waits for discovery (R356). -/
  waiting : Bool := false
deriving DecidableEq, Repr

/-- Discovery on a port (12 R357-R360). -/
structure DiscSt where
  nonce : Bytes := []
  /-- The peer's HELLO: node, port and nonce. -/
  peer : Option (Nat × Nat × Bytes) := none
  /-- Fragments of the peer's chain by number, and how many there are. -/
  frags : Tbl Bytes := []
  nFrags : Nat := 0
  challengeSent : Bool := false
  /-- Discovery failed and repeats every 10 s (R360). -/
  failed : Bool := false
deriving DecidableEq, Repr

/-- The state of a link port (`STATE` of entry 0x5200, 12 R383). -/
inductive LinkLife where
  | down
  | training
  | discovery
  | active
  | disabled
  | instrument
deriving DecidableEq, Repr

/-- A change of lanes that the ends of a link agree on (12 R346): lane leaving, lane taking its place, codeword. -/
structure LaneChange where
  leaving : Nat
  taking : Nat
  codeword : Nat
  agreed : Bool := false
deriving DecidableEq, Repr

/-- A data flit: type 1 or 2, link sequence, 60 bytes (12 R346). -/
structure FlitSt where
  ftype : Nat
  seq : Nat
  body : Bytes
  /-- The frame that this flit ends. -/
  whole : Option Bytes := none
deriving DecidableEq, Repr

/-- A link port (12 R343-R348, R367). -/
structure LinkSt where
  life : LinkLife := .down
  /-- The active data lanes, and the one that lane S stands for. -/
  lanes : List Nat := [0, 1, 2, 3, 4, 5, 6, 7]
  spare : Option Nat := none
  retired : List Nat := []
  changes : List LaneChange := []
  txSeq : Nat := 0
  unacked : List FlitSt := []
  /-- Data flits received whole and in order since link-up. -/
  rxSeq : Nat := 0
  /-- A `REPLAY` is outstanding for `rxSeq`, with its reason. -/
  replay : Option Nat := none
  /-- Flits of the frame that is being received. -/
  rxFrame : Bytes := []
  rxLeft : Nat := 0
  /-- Flits freed since link-up, and freed by the peer, for each class and pool (R367). -/
  freed : Tbl Nat := []
  peerFreed : Tbl Nat := []
  sent : Tbl Nat := []
  /-- Frames that wait for credit or for room in the replay buffer, first to last. -/
  waitq : List Bytes := []
  disc : DiscSt := {}
  seen : Bytes := []
  /-- Peer node that discovery found. -/
  peerNode : Nat := 0
  txBytes : Tbl (BitVec 64) := []
  rxBytes : Tbl (BitVec 64) := []
deriving DecidableEq, Repr

/-- A remote request of a local unit that waits for its response (12 R376-R379). -/
structure ReqSt where
  unit : Nat
  die : Nat
  node : Nat
  seq : Nat := 0
  tag : Nat := 0
  frame : Bytes := []
  /-- Core and access it serves, for a core's request; access 0 is a store of the core's matrix or vector engine, with the
  launch, group and instruction that it is for. -/
  core : Nat := 0
  access : Nat := 0
  launch : Nat := 0
  group : Nat := 0
  pc : Nat := 0
  /-- Berth and record of a scale keeper's request, bucket of an exchange packet. -/
  berth : Nat := 0
  subject : Nat := 0
deriving DecidableEq, Repr

/-- What a destination keeps of one source unit of one node (12 R378, R379). -/
structure HistSt where
  performed : List Nat := []
  saved : List (Nat × Bytes) := []
  held : List Bytes := []
deriving DecidableEq, Repr

/-- A fabric die (12 R382). -/
structure FdSt where
  up : Bool := true
  restarts : Nat := 0
deriving DecidableEq, Repr

/-- A round of a bucket at one die, from its post or its first packet to its end (11 R321-R336). -/
structure RoundSt where
  round : Nat
  /-- The post has been taken and its contributions sent. -/
  posted : Bool := false
  /-- Contribution packets accepted as owner. -/
  accepted : Nat := 0
  /-- The own shard of the round is complete. -/
  owned : Bool := false
  /-- Result packets accepted: shard and element offset. -/
  got : List (Nat × Nat) := []
  dSent : BitVec 128 := 0
  dRecv : BitVec 128 := 0
  dGout : BitVec 128 := 0
  dGin : BitVec 128 := 0
  pktSent : Nat := 0
  pktDrop : Nat := 0
  nonFinite : Nat := 0
  sat : Nat := 0
  pairs : Nat := 0
  scale : Int := 0
  tPost : Nat := 0
  /-- Events already raised for the bucket and round (R341). -/
  raised : List Nat := []
deriving DecidableEq, Repr

/-- The exchange engine of a compute die (11): posts, rounds by bucket, running digests, packets on their way to it from
other dies of the module. -/
structure ExchSt where
  posts : List (BitVec 64) := []
  rounds : Tbl RoundSt := []
  run : Tbl (BitVec 128) := []
  inbox : List Bytes := []
deriving DecidableEq, Repr

/-- The fabric (12). Window entry `w` is `windows[w]`; a route table entry is 32 bits. -/
structure FabricSt where
  plans : Tbl PlanSt := []
  routes : Tbl Nat := []
  /-- The set of non-empty gangs has changed and the routes are not yet rebuilt (R362). -/
  routesDue : Bool := false
  ports : Tbl LinkSt := []
  windows : Tbl (BitVec 128) := []
  fds : Tbl FdSt := []
  reqs : List ReqSt := []
  seqs : Tbl Nat := []
  tags : Nat := 0
  hist : Tbl HistSt := []
  /-- Frames that have arrived whole and wait to be handled: the port and the frame. -/
  inbox : List (Nat × Bytes) := []
  exch : Tbl ExchSt := []
  ghost : BitVec 64 := 0
  orphan : BitVec 64 := 0
  crcDrop : BitVec 64 := 0
  /-- Frames in transit that no exit took (R363). -/
  noExit : BitVec 64 := 0
deriving DecidableEq, Repr

end Sys2Proof.Machine
end

