-- ==== Sys2Proof/Machine/State.lean ====
section
/-!
DEFINITION. The state of the module, the reasons a step can stop, and the state after reset.
-/

namespace Sys2Proof.Machine

/-- What leaves the module at a port. -/
inductive OutKind where
  | msix
  | answer
  | event
  | frame
  | flit
  | stream
  | icmp
  | thinil
  | mctp
  | pcie
  | dtls
  | ptp
deriving DecidableEq, Repr

/-- One thing the module sent: where to, its fields, its bytes. -/
structure Out where
  kind : OutKind
  port : Nat
  args : List Nat := []
  data : Bytes := []
deriving DecidableEq, Repr

/-- The host as the module sees it (15): its memory, the functions and the ports. -/
structure HostSt where
  mem : List Host.Cell := []
  fn : Tbl FnSt := []
  ports : Tbl PortSt := []
  lost : Bool := false
deriving DecidableEq, Repr

/-- The module. -/
structure State where
  pending : List Instr := []
  free : Nat := 0
  out : List Out := []
  mem : Store := {}
  chans : Tbl ChanSt := []
  groups : Tbl (List Nat) := []
  hbm : Tbl StackSt := []
  cores : Tbl CoreSt := []
  berths : Tbl BerthSt := []
  segs : Tbl SegSt := []
  host : HostSt := {}
  mbox : Tbl MboxSt := []
  ctxs : Tbl CtxSt := []
  launches : Tbl LaunchSt := []
  launchNext : Nat := 1
  fabric : FabricSt := {}
  dict : DictSt := {}
  fw : FwSt := {}
  defects : DefectSt := {}
  streams : Tbl StreamSt := []
  basins : Tbl BasinSt := []
  snaps : Tbl SnapSt := []
  lk : LkSt := {}
  boot : BootSt := {}
  power : PowerSt := {}
  inst : Tbl InstSt := []
deriving DecidableEq, Repr

/-- Why the module stops. -/
inductive Fault where
  /-- The input voltage leaves the absolute maximum ratings, beyond which no statement of the manual holds (20 R570).
  Raised by INPUT_VOLTAGE_CHANGE. Safe: nothing is claimed of what follows. -/
  | beyondAbsoluteMaximum
deriving DecidableEq, Repr

/-- Why a command has no meaning. -/
inductive Refusal where
  /-- A command that the model does not yet give its meaning, by name. Raised by Dispatch alone. Safe. -/
  | notModelled (mnemonic : String)
deriving DecidableEq, Repr

/-- The module right after a dawn (log entry 1). -/
def State.reset : State := {}

end Sys2Proof.Machine
end

