-- ==== Sys2Proof/Machine/Mem.lean ====
section
/-!
DEFINITION. Bytes by address in one canonical form, poison marks, and the address map (01 R29, 02 R67, 09 R254, R263).
-/

namespace Sys2Proof.Machine

/-- The byte at an address; an address that is not listed holds 0 (17 R512). -/
def cellGet (c : List Host.Cell) (a : Nat) : Byte :=
  match c with
  | [] => 0
  | (k, v) :: r => if k = a then v else cellGet r a

/-- Takes an address out of the list. -/
def cellDel (c : List Host.Cell) (a : Nat) : List Host.Cell :=
  match c with
  | [] => []
  | (k, v) :: r => if k = a then r else (k, v) :: cellDel r a

/-- Lists a byte at an address, keeping rising order. -/
def cellIns (c : List Host.Cell) (a : Nat) (b : Byte) : List Host.Cell :=
  match c with
  | [] => [(a, b)]
  | (k, v) :: r =>
    if k = a then (a, b) :: r
    else if a < k then (a, b) :: (k, v) :: r
    else (k, v) :: cellIns r a b

/-- Writes one byte; the byte that an unlisted address reads as is not listed. -/
def cellPut (c : List Host.Cell) (a : Nat) (b : Byte) : List Host.Cell :=
  if b = 0 then cellDel c a else cellIns c a b

/-- Writes bytes from an address up. -/
def cellsPut (c : List Host.Cell) (a : Nat) (bs : Bytes) : List Host.Cell :=
  match bs with
  | [] => c
  | b :: r => cellsPut (cellPut c a b) (a + 1) r

/-- Reads bytes from an address up. -/
def cellsGet (c : List Host.Cell) (a n : Nat) : Bytes := (List.range n).map fun i => cellGet c (a + i)

/-- Clears every byte from `lo` to below `hi`. -/
def cellsClear (c : List Host.Cell) (lo hi : Nat) : List Host.Cell :=
  c.filter fun p => decide (p.1 < lo) || decide (hi ≤ p.1)

/-- The canonical form from a lower bound: addresses rising, no entry that reads as an unlisted address does. -/
def cellsWfFrom (lo : Nat) : List Host.Cell → Bool
  | [] => true
  | (k, v) :: r => decide (lo ≤ k) && decide (v ≠ 0) && cellsWfFrom (k + 1) r

/-- The canonical form of memory. -/
def Memory.wf (c : List Host.Cell) : Bool := cellsWfFrom 0 c

/-- Whether the 64-byte piece that holds an address carries the poison mark. -/
def Store.marked (st : Store) (a : Nat) : Bool := st.poison.contains (a / 64)

/-- One byte as an agent reads it: all-ones in a marked piece (02 R67). -/
def Store.byte (st : Store) (a : Nat) : Byte := if st.marked a then 0xFF else cellGet st.cells a

/-- Bytes as an agent reads them. -/
def Store.read (st : Store) (a n : Nat) : Bytes := (List.range n).map fun i => st.byte (a + i)

/-- Whether any byte of a range lies in a marked piece. -/
def Store.anyMarked (st : Store) (a n : Nat) : Bool :=
  st.poison.any fun p => decide (a < 64 * (p + 1)) && decide (64 * p < a + n)

/-- Marks a piece (09 R261). -/
def Store.mark (st : Store) (p : Nat) : Store :=
  { cells := cellsClear st.cells (64 * p) (64 * (p + 1)),
    poison := if st.poison.contains p then st.poison else st.poison ++ [p] }

/-- Writes bytes that all lie in one 64-byte piece: marked data marks the piece, a whole unmarked piece clears a mark,
a part of a marked piece leaves the piece marked (06 R156, 09 R263). -/
def Store.writePiece (st : Store) (a : Nat) (bs : Bytes) (marked : Bool) : Store :=
  if bs.isEmpty then st
  else if marked then st.mark (a / 64)
  else if st.marked a then
    if bs.length = 64 then
      { cells := cellsPut st.cells a bs, poison := st.poison.filter fun p => p != a / 64 }
    else st
  else { st with cells := cellsPut st.cells a bs }

/-- Cuts a write into 64-byte pieces, lowest first; `n` bounds their number. -/
def pieces (n a : Nat) (bs : Bytes) : List (Nat × Bytes) :=
  match n with
  | 0 => []
  | n + 1 =>
    if bs.isEmpty then []
    else
      let k := 64 - a % 64
      (a, bs.take k) :: pieces n (a + k) (bs.drop k)

/-- Writes bytes from an address up, piece by piece. -/
def Store.write (st : Store) (a : Nat) (bs : Bytes) (marked : Bool) : Store :=
  (pieces (bs.length / 64 + 2) a bs).foldl (fun t p => t.writePiece p.1 p.2 marked) st

/-- The pieces whose bytes a write of unmarked data would lose (09 R263). -/
def Store.discards (st : Store) (a : Nat) (bs : Bytes) : List Nat :=
  ((pieces (bs.length / 64 + 2) a bs).filter fun p => st.marked p.1 && p.2.length != 64).map fun p => p.1 / 64

/-- Clears a range of whole pieces to zero and takes its marks away (14 R423). -/
def Store.clear (st : Store) (lo hi : Nat) : Store :=
  { cells := cellsClear st.cells lo hi,
    poison := st.poison.filter fun p => decide (64 * p < lo) || decide (hi ≤ 64 * p) }

/-- A little-endian number in memory. -/
def Store.num (st : Store) (a n : Nat) : Nat := leNat (st.read a n)

/-! The address map (01 R29). -/

/-- What a module-local physical address names. -/
inductive Region where
  | stack (die : Nat) (off : Nat)
  | dsm (die : Nat) (off : Nat)
  | control (die : Nat) (off : Nat)
  | lockkeeper (off : Nat)
  | unmapped
deriving DecidableEq, Repr

/-- The region of a module-local physical address (R29). -/
def regionOf (a : Nat) : Region :=
  if a < 0x018000000000 then .stack (a / 0x1000000000) (a % 0x1000000000)
  else if 0x020000000000 ≤ a ∧ a < 0x020180000000 then
    let o := a - 0x020000000000
    if o % 0x10000000 < 0x06000000 then .dsm (o / 0x10000000) (o % 0x10000000) else .unmapped
  else if 0x030000000000 ≤ a ∧ a < 0x030020000000 then
    let o := a - 0x030000000000
    .control (o / 0x01000000) (o % 0x01000000)
  else if 0x040000000000 ≤ a ∧ a < 0x040001000000 then .lockkeeper (a - 0x040000000000)
  else .unmapped

/-- The base of a die's stack window (R29). -/
def stackBase (n : Nat) : Nat := n * 0x1000000000

/-- The base of a die's shared memory (R29). -/
def dsmBase (n : Nat) : Nat := 0x020000000000 + n * 0x10000000

/-- The die that is home to an address in stacked or shared memory. -/
def homeDie (a : Nat) : Option Nat :=
  match regionOf a with
  | .stack d _ => some d
  | .dsm d _ => some d
  | _ => none

/-- The logical channel of a window offset (09 R254). -/
def chanOf (a : Nat) : Nat :=
  (bitsOf a 17 8 ^^^ bitsOf a 27 18) ^^^ (bitsOf a 35 28 * 4 % 1024)

end Sys2Proof.Machine
end

