-- ==== Sys2Proof/Machine/Ops.lean ====
section
/-!
DEFINITION. The shared operations over the state: the parts of the module by number, events and notices, sentinel
counters, translation and the checks of an address, reads and writes of memory by the module's units.
-/

namespace Sys2Proof.Machine

/-- An outcome that goes on. -/
abbrev Result := Host.Outcome State Fault Refusal

/-! Parts of the state by number. -/

/-- A core (01 R27). -/
def State.core (s : State) (c : Nat) : CoreSt := tget s.cores {} c
/-- The state with core `c` replaced. -/
def State.setCore (s : State) (c : Nat) (k : CoreSt) : State := { s with cores := tset s.cores c k }
/-- The state with core `c` changed. -/
def State.modCore (s : State) (c : Nat) (f : CoreSt → CoreSt) : State := s.setCore c (f (s.core c))

/-- A berth. -/
def State.berth (s : State) (b : Nat) : BerthSt := tget s.berths {} b
/-- The state with berth `b` replaced. -/
def State.setBerth (s : State) (b : Nat) (k : BerthSt) : State := { s with berths := tset s.berths b k }
/-- The state with berth `b` changed. -/
def State.modBerth (s : State) (b : Nat) (f : BerthSt → BerthSt) : State := s.setBerth b (f (s.berth b))

/-- A function of the host ports. -/
def State.fn (s : State) (f : Nat) : FnSt := tget s.host.fn {} f
/-- The state with function `i` changed. -/
def State.modFn (s : State) (i : Nat) (f : FnSt → FnSt) : State :=
  { s with host := { s.host with fn := tset s.host.fn i (f (s.fn i)) } }

/-- A mailbox. -/
def State.mb (s : State) (m : Nat) : MboxSt := tget s.mbox {} m
/-- The state with mailbox `m` changed. -/
def State.modMb (s : State) (m : Nat) (f : MboxSt → MboxSt) : State := { s with mbox := tset s.mbox m (f (s.mb m)) }

/-- A logical channel with an empty defect list (09 R250). -/
def chanReset (l : Nat) : ChanSt := { phys := 72 * (l / 64) + l % 64 }
/-- Channel `l` of stack `n`. -/
def State.chan (s : State) (n l : Nat) : ChanSt := tget s.chans (chanReset l) (1024 * n + l)
/-- The state with channel `l` of stack `n` changed. -/
def State.modChan (s : State) (n l : Nat) (f : ChanSt → ChanSt) : State :=
  { s with chans := tset s.chans (1024 * n + l) (f (s.chan n l)) }

/-- A stack. -/
def State.stack (s : State) (n : Nat) : StackSt := tget s.hbm {} n
/-- The state with stack `n` changed. -/
def State.modStack (s : State) (n : Nat) (f : StackSt → StackSt) : State :=
  { s with hbm := tset s.hbm n (f (s.stack n)) }

/-- A shared segment. -/
def State.seg (s : State) (k : Nat) : SegSt := tget s.segs {} k
/-- The state with segment `k` changed. -/
def State.modSeg (s : State) (k : Nat) (f : SegSt → SegSt) : State := { s with segs := tset s.segs k (f (s.seg k)) }

/-- A link port. -/
def State.link (s : State) (p : Nat) : LinkSt := tget s.fabric.ports {} p
/-- The state with link port `p` changed. -/
def State.modLink (s : State) (p : Nat) (f : LinkSt → LinkSt) : State :=
  { s with fabric := { s.fabric with ports := tset s.fabric.ports p (f (s.link p)) } }

/-- The state with launch `l` changed, if it runs. -/
def State.modLaunch (s : State) (l : Nat) (f : LaunchSt → LaunchSt) : State :=
  match tfind s.launches l with
  | none => s
  | some a => { s with launches := tset s.launches l (f a) }

/-- The exchange engine of a die. -/
def State.exch (s : State) (d : Nat) : ExchSt := tget s.fabric.exch {} d
/-- The state with the exchange engine of a die changed. -/
def State.modExch (s : State) (d : Nat) (f : ExchSt → ExchSt) : State :=
  { s with fabric := { s.fabric with exch := tset s.fabric.exch d (f (s.exch d)) } }

/-- The state with the fabric changed. -/
def State.modFabric (s : State) (f : FabricSt → FabricSt) : State := { s with fabric := f s.fabric }

/-- The key of a dictionary entry. -/
def entryKey (index sub : Nat) : Nat := index * 256 + sub

/-- A numeric setting of the dictionary, `d` by default. -/
def State.setting (s : State) (index sub d : Nat) : Nat := tget s.dict.sets d (entryKey index sub)

/-- The state with a numeric setting written. -/
def State.putSetting (s : State) (index sub v : Nat) : State :=
  { s with dict := { s.dict with sets := tset s.dict.sets (entryKey index sub) v } }

/-- Takes the next number of a free value. -/
def State.nextFree (s : State) : State := { s with free := s.free + 1 }

/-- Sends something out of the module. -/
def State.emit (s : State) (o : Out) : State := { s with out := s.out ++ [o] }

/-- Whether the module is powered and no start runs (17 R514, 20 R574). -/
def State.up (s : State) : Bool := s.power.on && s.boot.running == 0

/-! Dies and berths. -/

/-- The berth that owns a compute die (14 R418). -/
def State.berthOfDie (s : State) (d : Nat) : Option Nat :=
  firstBelow 24 fun b => decide ((s.berth b).life ≠ .absent) && (s.berth b).dies.contains d

/-- The head die of a berth: its lowest-numbered die (10 R283). -/
def headDie (b : BerthSt) : Nat := b.dies.headD 0

/-! Doorbells, notices and events (15 R461, R474). -/

/-- Sets doorbell bits of a mailbox; the MSI-X vector fires when a bit becomes 1 while its mask is 0 (R461). -/
def State.ring (s : State) (m : Nat) (bits : BitVec 32) : State :=
  let b := s.mb m
  let s' := s.modMb m fun x => { x with dbl := x.dbl ||| bits }
  if bits &&& ~~~b.dbl &&& ~~~b.dblMask = 0 then s' else s'.emit { kind := .msix, port := m }

/-- The service mailbox of a function (R457). -/
def serviceMailbox (f : Nat) : Nat := if f = 0 then 96 else 4 * (f - 1)

/-- Whether host memory can be reached (15 R447, R478). -/
def State.hostUp (s : State) : Bool :=
  !s.host.lost && ((tget s.host.ports {} 0).up || (tget s.host.ports {} 1).up)

/-- Writes host memory. -/
def State.hostWrite (s : State) (a : Nat) (b : Bytes) : State :=
  { s with host := { s.host with mem := cellsPut s.host.mem a b } }

/-- Reads host memory. -/
def State.hostRead (s : State) (a n : Nat) : Bytes := cellsGet s.host.mem a n

/-- The 64 bytes of a notice (R474). -/
def noticeBytes (code berth nseq tally arg0 arg1 : Nat) (payload : Bytes) : Bytes :=
  leBytes 2 code ++ leBytes 1 berth ++ [0] ++ leBytes 4 nseq ++ leBytes 8 tally ++ leBytes 8 arg0 ++ leBytes 8 arg1 ++
    padTo 32 payload

/-- Writes a notice to one function's ring, or drops it (R474, R478). -/
def State.noticeTo (s : State) (f code berth tally arg0 arg1 : Nat) (payload : Bytes) : State :=
  let fn := s.fn f
  let n := noticeBytes code berth fn.nseq tally arg0 arg1 payload
  match fn.ring with
  | some (base, e) =>
    if (fn.ntcTail + 2 ^ 32 - fn.ntcHead) % 2 ^ 32 < 2 ^ e && s.hostUp then
      ((s.hostWrite (base + 64 * (fn.ntcTail % 2 ^ e)) n).modFn f fun x =>
        { x with ntcTail := (x.ntcTail + 1) % 2 ^ 32, nseq := (x.nseq + 1) % 2 ^ 32 }).ring (serviceMailbox f) 2
    else
      (s.modFn f fun x => { x with ntcLost := (x.ntcLost + 1) % 2 ^ 32, nseq := (x.nseq + 1) % 2 ^ 32 }).ring
        (serviceMailbox f) 4
  | none =>
    (s.modFn f fun x => { x with ntcLost := (x.ntcLost + 1) % 2 ^ 32, nseq := (x.nseq + 1) % 2 ^ 32 }).ring
      (serviceMailbox f) 4

/-- PTP time, 0 unless locked (16 R501). -/
def State.ptpTime (s : State) : Nat := if s.lk.ptp = 2 then s.lk.ptpNs else 0

/-- The `EVENT` messages that a notice brings to the towpath sessions that subscribe: every notice to a session that is not
a tenant's, with the sequence of the PF; its own berth's notices, with that of its function, to a tenant's (16 R493, R494).
The manual gives their `SEQ` no rule. -/
def State.eventMsgs (s : State) (code berth tally arg0 arg1 : Nat) (payload : Bytes) (tenants : Bool) : List Out :=
  s.dict.sessions.filterMap fun p =>
    let x := p.2
    if !x.subscribe || decide (2 ≤ x.port) || (x.role == 2 && !(tenants && x.berth == berth)) then none
    else
      let n := (s.fn (if x.role = 2 then berth + 1 else 0)).nseq
      some {
        kind := .thinil, port := x.port, args := [x.conn],
        data := [1, 0x20, 0, 0] ++ beBytes 4 p.1 ++ beBytes 4 (Config.eventSeq p.1 n) ++ beBytes 2 72 ++ [0, 0] ++
          noticeBytes code berth n tally arg0 arg1 payload ++ beBytes 8 s.ptpTime }

/-- Sends several things out of the module. -/
def State.emits (s : State) (l : List Out) : State := { s with out := s.out ++ l }

/-- Raises an event of the module: a notice in the PF ring, and a message to the subscribers of the dictionary. -/
def State.moduleEvent (s : State) (code arg0 arg1 : Nat) (payload : Bytes := []) : State :=
  ((s.noticeTo 0 code 0xFF 0 arg0 arg1 payload).emit
    { kind := .event, port := code, args := [0xFF, arg0, arg1], data := payload }).emits
      (s.eventMsgs code 0xFF 0 arg0 arg1 payload false)

/-- Raises an event of a berth: a notice in its VF's ring and a copy in the PF ring (R474). -/
def State.berthEvent (s : State) (b code arg0 arg1 : Nat) (payload : Bytes := []) : State :=
  let t := (s.berth b).tally.toNat
  (((s.noticeTo (b + 1) code b t arg0 arg1 payload).noticeTo 0 code b t arg0 arg1 payload).emit
    { kind := .event, port := code, args := [b, arg0, arg1], data := payload }).emits
      (s.eventMsgs code b t arg0 arg1 payload true)

/-- Raises an event of a berth that the PF alone hears of (R474). -/
def State.operatorEvent (s : State) (b code arg0 arg1 : Nat) : State :=
  let t := (s.berth b).tally.toNat
  ((s.noticeTo 0 code b t arg0 arg1 []).emit { kind := .event, port := code, args := [b, arg0, arg1] }).emits
    (s.eventMsgs code b t arg0 arg1 [] false)

/-! Sentinel counters (10 R302). -/

/-- A live module counter of a berth. -/
def State.counter (s : State) (b i : Nat) : BitVec 64 := tget (s.berth b).keeper.cnt 0 i

/-- Adds to a live module counter of a berth (R302). -/
def State.count (s : State) (b i n : Nat) : State :=
  if n = 0 then s
  else s.modBerth b fun x =>
    { x with keeper := { x.keeper with cnt := tset x.keeper.cnt i (tget x.keeper.cnt 0 i + BitVec.ofNat 64 n) } }

/-! Shared segments and poison events (14 R431-R436). -/

/-- The segment whose primary or shadow copy holds an address. -/
def State.segOf (s : State) (pa : Nat) : Option Nat :=
  firstBelow 64 fun k =>
    let g := s.seg k
    decide (g.st ≠ 0) &&
      ((decide (g.primary ≤ pa) && decide (pa < g.primary + g.bytes)) ||
        (decide (g.shadow ≤ pa) && decide (pa < g.shadow + g.bytes)) ||
        g.reshadow.elim false fun a => decide (a ≤ pa) && decide (pa < a + g.bytes))

/-- The base of an entry's window and its length (12 R373). -/
def winRange (e : BitVec 128) : Nat × Nat := (bitsOf e.toNat 63 32 * 65536, bitsOf e.toNat 95 64 * 65536)

/-- The berths that map a line: the owner of its die, every berth that joined its segment, every berth whose window
shows it (R436). -/
def State.mappers (s : State) (pa : Nat) : List Nat :=
  let wins := (s.fabric.windows.filter fun w =>
    w.2.getLsbD 0 && decide ((winRange w.2).1 ≤ pa) && decide (pa < (winRange w.2).1 + (winRange w.2).2)).map
      fun w => bitsOf w.2.toNat 8 4
  let own := match s.segOf pa with
    | some k => (List.range 24).filter fun b => (s.berth b).segs.getLsbD k && decide ((s.berth b).life ≠ .absent)
    | none => match homeDie pa with
      | some d => (s.berthOfDie d).toList
      | none => []
  (own ++ wins).eraseDups

/-- The 32-byte record of a poison event (R436). -/
def poisonRecord (s : State) (b reason reader pa : Nat) : Bytes :=
  leBytes 1 reason ++ leBytes 1 ((homeDie pa).getD 0) ++ leBytes 2 reader ++
    leBytes 2 ((s.segOf pa).getD 0xFFFF) ++ leBytes 2 0 ++ leBytes 8 (pa / 64 * 64) ++
    leBytes 8 (s.berth b).tally.toNat ++ leBytes 8 (s.berth b).stepSeq.toNat

/-- A line becomes poisoned: an event to every berth that maps it (R436, `REASON` 0). -/
def State.poisonNew (s : State) (reader pa : Nat) : State :=
  forL (s.mappers pa) s fun b t => t.berthEvent b 0x07E7 (pa / 64 * 64) 0 (poisonRecord t b 0 reader pa)

/-- A unit of a berth reads a poisoned line: counter 6 of the reading berth, and at most one event per line for each
berth that maps it between two boundaries (R436, `REASON` 1). -/
def State.poisonRead (s : State) (berth : Option Nat) (reader pa : Nat) : State :=
  let s := match berth with
    | some b => s.count b 6 1
    | none => s
  forL (s.mappers pa) s fun b t =>
    if (t.berth b).reported.contains (pa / 64) then t
    else
      (t.modBerth b fun x => { x with reported := x.reported ++ [pa / 64] }).berthEvent b 0x07E7 (pa / 64 * 64) 0
        (poisonRecord t b 1 reader pa)

/-- The marked pieces that a range of bytes touches. -/
def Store.markedIn (st : Store) (a n : Nat) : List Nat :=
  st.poison.filter fun p => decide (a < 64 * (p + 1)) && decide (64 * p < a + n)

/-- Reports every poisoned line of a range that a unit reads. -/
def State.poisonReads (s : State) (berth : Option Nat) (reader pa n : Nat) : State :=
  forL (s.mem.markedIn pa n) s fun p t => t.poisonRead berth reader (64 * p)

/-- Writes bytes at their homes (09 R263). Bytes of an unmarked part write to a poisoned line are discarded under code
0x0442, which every berth that maps the line hears of. -/
def State.memWrite (s : State) (pa : Nat) (bs : Bytes) (marked : Bool := false) : State :=
  let lost := if marked then [] else s.mem.discards pa bs
  forL lost { s with mem := s.mem.write pa bs marked } fun p t =>
    forL (t.mappers (64 * p)) t fun b u => u.berthEvent b 0x0442 (64 * p) 0

/-- Reads bytes at their homes. -/
def State.memRead (s : State) (pa n : Nat) : Bytes := s.mem.read pa n

/-! Translation and the checks of an address (07 R201, 14 R420, 12 R376). -/

/-- The entry of a translation that covers a virtual address. -/
def findMap (maps : List MapEnt) (va : Nat) : Option MapEnt :=
  maps.find? fun m => decide (m.va ≤ va) && decide (va < m.va + m.pages * 2 ^ m.shift)

/-- A virtual address translated with the permission needed. -/
def translate (maps : List MapEnt) (va : Nat) (write : Bool) : Option Nat :=
  match findMap maps va with
  | some m => if (if write then m.write else m.read) then some (m.pa + (va - m.va)) else none
  | none => none

/-- The node id of the module: `SELF_NODE` of the plans held, 0xFFFF if none is held (12 R355). -/
def State.nodeId (s : State) : Nat :=
  match s.fabric.plans.find? fun p => decide (p.2.st ≠ 0 && p.2.st ≠ 3) with
  | some p => bitsOf (leAt p.2.bytes 8 2) 11 0
  | none => 0xFFFF

/-- The active plan of a job (12 R353, R356). -/
def State.activePlan (s : State) (job : Nat) : Option Bytes :=
  (s.fabric.plans.find? fun p => decide (p.2.st = 2) && decide (leAt p.2.bytes 6 2 = job)).map fun p => p.2.bytes

/-- Whether a node belongs to a job's node set (12 R354). -/
def planHasNode (plan : Bytes) (node : Nat) : Bool :=
  node &&& (0xFFF - leAt plan 12 2 % 4096) == leAt plan 10 2 % 4096

/-- Gang record `i` of a plan (12 R354). -/
def planGang (plan : Bytes) (i : Nat) : Bytes := (plan.drop (64 + 64 * i)).take 64

/-- The gang records of a plan. -/
def planGangs (plan : Bytes) : List Bytes := (List.range (leAt plan 14 1)).map (planGang plan)

/-- The share of a job on a gang, 0 if its plan does not name the gang (12 R354). -/
def planShare (plan : Bytes) (g : Nat) : Nat :=
  match (planGangs plan).find? fun r => leAt r 0 1 == g with
  | some r => leAt r 1 1
  | none => 0

/-- The ports of a gang as the held plans give them. -/
def State.gangPorts (s : State) (g : Nat) : List Nat :=
  let recs := s.fabric.plans.flatMap fun p =>
    if p.2.st = 1 ∨ p.2.st = 2 then (planGangs p.2.bytes).filter fun r => leAt r 0 1 == g else []
  match recs with
  | r :: _ => (List.range 24).filter fun p => (leAt r 4 4).testBit p
  | [] => []

/-- The mask of a gang as the held plans give it. -/
def State.gangMask (s : State) (g : Nat) : Option Nat :=
  let recs := s.fabric.plans.flatMap fun p =>
    if p.2.st = 1 ∨ p.2.st = 2 then (planGangs p.2.bytes).filter fun r => leAt r 0 1 == g else []
  recs.head?.map fun r => leAt r 2 2 % 4096

/-- The gang of a port as the held plans give it. -/
def State.portGang (s : State) (p : Nat) : Option Nat := firstBelow 16 fun g => (s.gangPorts g).contains p

/-- The active ports of a gang. -/
def State.activePorts (s : State) (g : Nat) : List Nat :=
  (s.gangPorts g).filter fun p => decide ((s.link p).life = .active)

/-- The exits of a route entry, first to last (12 R361). -/
def routeExits (e : Nat) : List Nat :=
  ((List.range 4).map fun i => bitsOf e (5 * i + 4) (5 * i)).filterMap fun x => if 16 ≤ x then some (x % 16) else none

/-- Whether an exit at a position of a route entry fits a frame's `TTL` (12 R363): `HOPS` links by an exit that shortens
the path, one more by any other. -/
def exitFits (e pos ttl : Nat) : Bool :=
  decide (1 ≤ ttl) && decide (bitsOf e 23 20 + (if pos < bitsOf e 26 24 then 0 else 1) ≤ ttl)

/-- The exit that a frame of a job takes towards a node: its position and gang (12 R363). `from_` is the gang it
arrived by, `peer` whether the node is the peer across that gang. -/
def State.exitFor (s : State) (job node : Nat) (from_ : Option Nat) (ttl : Nat) : Option (Nat × Nat) :=
  match s.activePlan job with
  | none => none
  | some plan =>
    let exits := (routeExits (tget s.fabric.routes 0 node)).zipIdx
    let ok := fun (x : Nat × Nat) =>
      decide (planShare plan x.1 ≠ 0) && !(s.activePorts x.1).isEmpty && exitFits (tget s.fabric.routes 0 node) x.2 ttl &&
        (decide (some x.1 ≠ from_) || decide (s.gangMask x.1 = some (s.nodeId ^^^ node)))
    (exits.find? ok).map fun x => (x.2, x.1)

/-- Where an access of a berth's agent is performed: at home in this module, or at another module's node. -/
inductive Place where
  | here (pa : Nat)
  | remote (node pa : Nat)
deriving DecidableEq, Repr

/-- The offset of the kernel mailbox page in a head die's control space: an odd multiple of 64 KiB, which one is open. -/
def mailboxOff : Nat := (2 * (Config.mailboxOffset % 120) + 1) * 0x10000

/-- The offset of the post register in a die's control space: twice an odd multiple of 64 KiB, which one is open; so it
meets neither the mailbox page nor the registers at 0x0010_0000 (09 R279). -/
def postOff : Nat := (4 * (Config.postOffset % 60) + 2) * 0x10000

/-- The base of a die's control space (01 R29). -/
def controlBase (d : Nat) : Nat := 0x030000000000 + d * 0x01000000

/-- The offsets of a die's control space that face a berth: post register, mailboxes and doorbells (14 R420). -/
def berthFacing (off : Nat) : Bool :=
  (decide (mailboxOff ≤ off) && decide (off < mailboxOff + 0x4000)) || (decide (postOff ≤ off) && decide (off < postOff + 0x1000))

/-- The mappings that every berth has from its creation: its kernel mailbox page and its dies' post registers
(11 R321, 15 R457). -/
def fixedMaps (dies : List Nat) : List MapEnt :=
  { va := Config.mailboxVa, pa := controlBase (dies.headD 0) + mailboxOff, shift := 12, pages := 4 } ::
    dies.zipIdx.map fun p => { va := Config.postVa + 0x1000 * p.2, pa := controlBase p.1 + postOff, shift := 12, pages := 1 }

/-- The snapshot area of a berth: window offset and bytes of every die of it (18 R542). -/
def State.snapArea (s : State) (b : Nat) : Nat × Nat :=
  (s.setting (0x4300 + b) 3 0, s.setting (0x4300 + b) 5 0 * s.setting (0x4300 + b) 4 0)

/-- Whether an address of stacked memory lies in the sequencer area or the snapshot area of a berth (15 R451, 18 R542). -/
def State.berthCarved (s : State) (b pa : Nat) : Bool :=
  let x := s.berth b
  let off := pa % 0x1000000000
  let die := pa / 0x1000000000
  decide (x.life ≠ .absent) && x.dies.contains die &&
    ((die == headDie x && decide (off < 0x4000000)) ||
      (decide ((s.snapArea b).1 ≤ off) && decide (off < (s.snapArea b).1 + (s.snapArea b).2)))

/-- Whether an address lies in a carve-out: a defined segment's copies, or a berth's own areas (14 R431). -/
def State.carved (s : State) (pa : Nat) : Bool := (s.segOf pa).isSome || (List.range 24).any fun b => s.berthCarved b pa

/-- The grant check on a module-local physical address (14 R420). -/
def State.granted (s : State) (b pa : Nat) (write : Bool) : Bool :=
  let bs := s.berth b
  match regionOf pa with
  | .stack d _ =>
    match s.segOf pa with
    | some k => !write && bs.segs.getLsbD k && decide (2 ≤ (s.seg k).st)
    | none => bs.dies.contains d && !s.carved pa
  | .dsm d _ => bs.dies.contains d
  | .control d off => bs.dies.contains d && berthFacing off
  | _ => false

/-- The checks on a translated address, in the order of 07 R201 (steps 4 to 7): the place, or the fault code. -/
def State.checkPhys (s : State) (b gpa : Nat) (write : Bool) : Except Nat Place :=
  let node := gpa / 2 ^ 52
  if gpa / 2 ^ 48 % 16 ≠ 0 then .error 0x0500
  else if node ≠ 0 ∧ node ≠ s.nodeId then
    match s.activePlan (s.berth b).job with
    | none => .error 0x0501
    | some plan =>
      if (s.berth b).extent = 1 ∧ (leAt plan 16 4).testBit b ∧ planHasNode plan node ∧
          (s.exitFor (s.berth b).job node none 24).isSome then
        .ok (.remote node (gpa % 2 ^ 48))
      else .error 0x0501
  else
    let pa := gpa % 2 ^ 48
    match regionOf pa with
    | .unmapped => .error 0x0400
    | .lockkeeper _ => if write then .error 0x0400 else .error 0x0385
    | .stack d off =>
      if (s.stack d).limit ≤ off then .error 0x0401
      else if s.granted b pa write then .ok (.here pa) else .error 0x0385
    | _ => if s.granted b pa write then .ok (.here pa) else .error 0x0385

/-- The checks of a thread access to berth memory at a virtual address (07 R201, steps 3 to 7). -/
def State.checkVirt (s : State) (b : Nat) (maps : List MapEnt) (va : Nat) (write : Bool) : Except Nat Place :=
  match translate maps va write with
  | none => .error 0x0385
  | some gpa => s.checkPhys b gpa write

/-- The module-local address of a virtual address of a berth, where it has one. -/
def State.localAddr (s : State) (b va : Nat) (write : Bool) : Option Nat :=
  match s.checkVirt b (s.berth b).maps va write with
  | .ok (.here pa) => some pa
  | _ => none

/-- The module-local pieces of a virtual range, cut at 64-byte lines: `none` if any piece fails its checks. -/
def State.localRange (s : State) (b va n : Nat) (write : Bool) : Option (List (Nat × Nat)) :=
  ((List.range ((va % 64 + n + 63) / 64)).map fun i =>
      let lo := if i = 0 then va else (va / 64 + i) * 64
      let hi := min ((va / 64 + i + 1) * 64) (va + n)
      (lo, hi - lo)).foldr
    (fun p acc =>
      match acc, s.localAddr b p.1 write with
      | some l, some pa => some ((pa, p.2) :: l)
      | _, _ => none) (some [])

/-- Reads a virtual range of a berth in this module. -/
def State.readVirt (s : State) (b va n : Nat) : Option Bytes :=
  (s.localRange b va n false).map fun l => l.flatMap fun p => s.memRead p.1 p.2

/-- Writes a virtual range of a berth in this module; the state as it was if a page of it fails its checks. -/
def State.writeVirt (s : State) (b va : Nat) (bs : Bytes) (marked : Bool := false) : State :=
  match s.localRange b va bs.length true with
  | none => s
  | some l => (l.foldl (fun (t : State × Bytes) p => (t.1.memWrite p.1 (t.2.take p.2) marked, t.2.drop p.2)) (s, bs)).1

/-! Thread groups. -/

/-- The kernel of a core. -/
def State.kern (s : State) (c : Nat) : Option KernSt := (s.core c).kern

/-- A thread group of a core's kernel. -/
def State.group (s : State) (t : At) : Option GroupSt :=
  match s.kern t.core with
  | none => none
  | some k => if t.group < k.nGroups then some (tget k.groups {} t.group) else none

/-- The state with the kernel of a core changed. -/
def State.modKern (s : State) (c : Nat) (f : KernSt → KernSt) : State :=
  match s.kern c with
  | none => s
  | some k => s.modCore c fun x => { x with kern := some (f k) }

/-- The state with a thread group replaced. -/
def State.setGroup (s : State) (t : At) (g : GroupSt) : State :=
  s.modKern t.core fun k => { k with groups := tset k.groups t.group g }

/-- A group's completion counter (07 R197). -/
def GroupSt.counter (g : GroupSt) (i : Nat) : Nat := tget g.tk 0 i

/-- Adds 1 to a completion counter of 8 bits. -/
def GroupSt.tkInc (g : GroupSt) (i : Nat) : GroupSt := { g with tk := tset g.tk i ((g.counter i + 1) % 256) }

/-- A completion subtracts 1 (07 R197). -/
def GroupSt.tkDec (g : GroupSt) (i : Nat) : GroupSt := { g with tk := tset g.tk i ((g.counter i + 255) % 256) }

/-- Signals a completion to a group of a launch, if the launch still runs on the core. -/
def State.signal (s : State) (c launch group tk : Nat) : State :=
  match s.kern c with
  | none => s
  | some k =>
    if k.launch = launch then
      s.modKern c fun k => { k with groups := tset k.groups group ((tget k.groups {} group).tkDec tk) }
    else s

/-- The berth a core's kernel belongs to. -/
def State.coreBerth (s : State) (c : Nat) : Nat := (s.kern c).elim 0 fun k => k.berth

/-- Drops the L1 lines that a range touches (08 R233). -/
def l1Drop (l : List L1Line) (pa n : Nat) : List L1Line :=
  l.filter fun x => !(decide (pa < 64 * (x.line + 1)) && decide (64 * x.line < pa + n))

end Sys2Proof.Machine
end

