-- ==== Sys2Proof/Machine/Keeper.lean ====
section
/-!
DEFINITION. What the scale keeper of a berth does with a published amax register (10_scales_sentinels_and_remainders.md).
-/

namespace Sys2Proof.Machine

/-- The line of scale record `i` in the table in force: `none` if it lies at or above E, does not translate, or reads as
poison (10 R283, R287). -/
def State.scaleLine (s : State) (b i : Nat) : Option Bytes :=
  let k := (s.berth b).keeper
  if k.tblE ≤ i then none
  else
    match s.localAddr b (k.tblBase + 64 * i) false, s.localAddr b (k.tblBase + 64 * i) true with
    | some pa, some _ => if s.mem.marked pa then none else some (s.memRead pa 64)
    | _, _ => none

/-- The keeper accepts a contribution to a record, or discards and counts it (10 R289). -/
def State.amaxPut (s : State) (b i : Nat) (r : AmaxReg) (wovf : Bool) : State :=
  match s.scaleLine b i with
  | some line =>
    if leAt line 0 1 % 2 = 1 then
      s.modBerth b fun x =>
        { x with keeper := { x.keeper with acc := tmod x.keeper.acc {} i fun a =>
            { mag := max a.mag r.mag.toNat, contributed := true, nonFinite := a.nonFinite || r.nonFinite,
              wovf := a.wovf || wovf } } }
    else s.count b 15 1
  | none => s.count b 15 1

end Sys2Proof.Machine
end

