-- ==== Sys2Proof/Machine/Fabric.lean ====
section
/-!
DEFINITION. Frames and flits of the link protocol, sending, and the requests of this module's units
(12 R344-R346, R352, R363-R367, R376, R377).
-/

namespace Sys2Proof.Machine

/-- The CRC-16 of a flit (R346). -/
def crc16 (b : Bytes) : Nat := (b.foldl (crcByteM 16 0x8BB7) 0xFFFF).toNat

/-- The 64 bytes of a flit (R345, R346). -/
def flitBytes (ftype seq : Nat) (body : Bytes) : Bytes :=
  let b := padTo 60 body ++ leBytes 2 (seq % 4096 + ftype % 16 * 4096)
  b ++ leBytes 2 (crc16 b)

/-- The header of a frame (R365). -/
structure FrameHdr where
  kind : Nat
  cls : Nat
  ttl : Nat := 24
  job : Nat
  dst : Nat
  src : Nat
  dstDie : Nat := 0
  srcDie : Nat := 0
  unit : Nat := 0
  seq : Nat := 0
  addr : Nat := 0
  op : Nat := 0
  status : Nat := 0
  tag : Nat := 0
deriving DecidableEq, Repr

/-- The first 28 bytes of a header; `len` counts 16-byte units of payload. -/
def hdrBytes (h : FrameHdr) (len : Nat) : Bytes :=
  leBytes 1 h.kind ++ leBytes 1 h.cls ++ leBytes 1 h.ttl ++ leBytes 1 len ++ leBytes 2 h.job ++ leBytes 2 h.dst ++
    leBytes 2 h.src ++ leBytes 1 h.dstDie ++ leBytes 1 h.srcDie ++ leBytes 2 h.unit ++ leBytes 2 h.seq ++
    leBytes 8 h.addr ++ leBytes 1 h.op ++ leBytes 1 h.status ++ leBytes 2 h.tag

/-- A frame: header, CRC-32 over header and padded payload, payload (R365). -/
def mkFrame (h : FrameHdr) (payload : Bytes) : Bytes :=
  let n := (payload.length + 15) / 16
  let p := padTo (16 * n) payload
  let b := hdrBytes h n
  b ++ leBytes 4 (crc32 (b ++ zeros 4 ++ p)) ++ p

/-- The header fields of a frame. -/
def hdrOf (f : Bytes) : FrameHdr :=
  { kind := leAt f 0 1, cls := leAt f 1 1, ttl := leAt f 2 1, job := leAt f 4 2, dst := leAt f 6 2, src := leAt f 8 2,
    dstDie := leAt f 10 1, srcDie := leAt f 11 1, unit := leAt f 12 2, seq := leAt f 14 2, addr := leAt f 16 8,
    op := leAt f 24 1, status := leAt f 25 1, tag := leAt f 26 2 }

/-- The payload of a frame. -/
def payloadOf (f : Bytes) : Bytes := (f.drop 32).take (16 * leAt f 3 1)

/-- Whether a frame's CRC holds (R366). -/
def frameOk (f : Bytes) : Bool :=
  f.length == 32 + 16 * leAt f 3 1 && leAt f 28 4 == crc32 (f.take 28 ++ zeros 4 ++ payloadOf f)

/-- The class and pool pair of a frame, as credits count them (R346, R367). -/
def framePair (f : Bytes) : Nat := leAt f 1 1 % 4 * 2 + leAt f 1 1 / 4 % 2

/-- Flits that a frame fills (R345). -/
def frameFlits (f : Bytes) : Nat := (f.length + 59) / 60

/-- A frame cut into the bodies of its flits. -/
def frameBodies (f : Bytes) : List Bytes := (List.range (frameFlits f)).map fun i => padTo 60 ((f.drop (60 * i)).take 60)

/-- Credit that a port has for a pair: 256 flits and those the peer has freed, less those sent (R367). -/
def LinkSt.credit (l : LinkSt) (pair : Nat) : Nat := 256 + tget l.peerFreed 0 pair - tget l.sent 0 pair

/-- Whether a port can send a frame now: credit for all its flits, and room in the replay buffer (R346, R367). -/
def LinkSt.canSend (l : LinkSt) (f : Bytes) : Bool :=
  decide (frameFlits f ≤ l.credit (framePair f)) && decide (l.unacked.length + frameFlits f ≤ 4095)

/-- Sends one data flit of a port (R346). -/
def State.pushFlit (s : State) (p ftype : Nat) (body : Bytes) (whole : Option Bytes) : State :=
  let l := s.link p
  (s.modLink p fun x => { x with
    txSeq := (x.txSeq + 1) % 4096,
    unacked := x.unacked ++ [{ ftype := ftype, seq := x.txSeq, body := body, whole := whole }] }).emit
    { kind := .flit, port := p, args := [ftype, l.txSeq], data := flitBytes ftype l.txSeq body }

/-- Sends a frame's flits (R345). -/
def State.pushFrame (s : State) (p : Nat) (f : Bytes) : State :=
  let s := s.modLink p fun x => { x with
    sent := tmod x.sent 0 (framePair f) (· + frameFlits f),
    txBytes := tmod x.txBytes 0 (leAt f 4 2) (· + BitVec.ofNat 64 f.length) }
  forL (frameBodies f).zipIdx s fun b t =>
    t.pushFlit p (if b.2 = 0 then 1 else 2) b.1 (if b.2 + 1 = frameFlits f then some f else none)

/-- The order in which a port's waiting frames go: class 0, class 1, then the others (R369). -/
def classRank (f : Bytes) : Nat := min (leAt f 1 1 % 4) 2

/-- The first waiting frame of a rank that can be sent. -/
def LinkSt.nextWaiting (l : LinkSt) : Option Bytes :=
  [0, 1, 2].findSome? fun r => l.waitq.find? fun f => classRank f == r && l.canSend f

/-- Sends waiting frames while credit and buffer allow; `n` bounds their number. -/
def State.drainWaiting (s : State) (p : Nat) : Nat → State
  | 0 => s
  | n + 1 =>
    match (s.link p).nextWaiting with
    | none => s
    | some f => ((s.modLink p fun x => { x with waitq := x.waitq.erase f }).pushFrame p f).drainWaiting p n

/-- Hands a frame to a port: sent at once, or after the frames that wait. -/
def State.sendOnPort (s : State) (p : Nat) (f : Bytes) : State :=
  (s.modLink p fun x => { x with waitq := x.waitq ++ [f] }).drainWaiting p ((s.link p).waitq.length + 1)

/-- The port of a gang that a flow takes (R352): among the active ports that give the job a share, by a hash. -/
def State.pickPort (s : State) (g job : Nat) (h : FrameHdr) : Option Nat :=
  match s.activePlan job with
  | none => none
  | some plan =>
    let ps := if planShare plan g = 0 then [] else s.activePorts g
    if ps.isEmpty then none
    else ps[Config.flowHash h.src h.unit h.dst (h.addr / 64) % ps.length]?

/-- Sends a frame towards its destination node by its route; `from_` is the gang it arrived by. `TTL` falls by 1 on the
link; an exit at or beyond `NMIN` marks `POOL` (R363, R364). `none` if no exit qualifies. -/
def State.routeFrame (s : State) (f : Bytes) (from_ : Option Nat) : Option State :=
  let h := hdrOf f
  match s.exitFor h.job h.dst from_ h.ttl with
  | none => none
  | some (pos, g) =>
    match s.pickPort g h.job h with
    | none => none
    | some p =>
      let pool := if bitsOf (tget s.fabric.routes 0 h.dst) 26 24 ≤ pos ∨ h.cls / 4 % 2 = 1 then 4 else 0
      some (s.sendOnPort p (mkFrame { h with ttl := h.ttl - 1, cls := h.cls % 4 + pool } (payloadOf f)))

/-- The traffic class of a job's requests: of 2 and 3 the one its exchange does not use (R368). -/
def requestClass (plan : Bytes) : Nat := if leAt plan 15 1 = 2 then 3 else 2

/-- The traffic class of a job's requests on this module. -/
def State.requestTc (s : State) (job : Nat) : Nat := (s.activePlan job).elim 2 requestClass

/-- Whether a unit may send another request to a node: at most 1,024 are unacknowledged (R377). -/
def State.reqRoom (s : State) (unit node : Nat) : Bool :=
  decide ((s.fabric.reqs.filter fun r => r.unit == unit && r.node == node).length < 1024)

/-- The die that an address selects at its module (R376). -/
def dieOfAddr (pa : Nat) : Nat :=
  match regionOf pa with
  | .stack d _ => d
  | .dsm d _ => d
  | .control d _ => d
  | _ => 0

/-- Traffic of a fenced or reset source: dropped, counted and reported (17 R528, 11 R342). -/
def State.ghostDrop (s : State) : State :=
  (s.modFabric fun x => { x with ghost := x.ghost + 1 }).moduleEvent 0x058B 0 0

/-- A unit's numbered frame (R365, R376, R377): built, numbered and tagged, kept until it is answered, and sent. -/
def State.sendNumbered (s : State) (r : ReqSt) (kind tc job dstDie pa op : Nat) (payload : Bytes) : State :=
  let key := r.unit * 4096 + r.node
  let seq := tget s.fabric.seqs 0 key
  let tag := s.fabric.tags % 65536
  let f := mkFrame { kind := kind, cls := tc, job := job, dst := r.node, src := s.nodeId, dstDie := dstDie,
                     srcDie := r.die, unit := r.unit, seq := seq, addr := pa, op := op, tag := tag } payload
  let s := s.modFabric fun x => { x with
    seqs := tset x.seqs key ((seq + 1) % 65536), tags := x.tags + 1,
    reqs := x.reqs ++ [{ r with seq := seq, tag := tag, frame := f }] }
  if s.defects.fenced.contains r.die then s.ghostDrop else (s.routeFrame f none).getD s

/-- A unit's request to another module's memory (R376): `DST_DIE` is the die that the address selects. -/
def State.sendRequest (s : State) (r : ReqSt) (kind job pa op : Nat) (payload : Bytes) : State :=
  s.sendNumbered r kind (s.requestTc job) job (dieOfAddr pa) pa op payload

/-- The pieces of a range that one request each covers: aligned, of 1 to 64 bytes (07 R212); offset and size. The first
argument bounds their number. -/
def requestCuts : Nat → Nat → Nat → Nat → List (Nat × Nat)
  | 0, _, _, _ => []
  | k + 1, a, off, n =>
    match [64, 32, 16, 8, 4, 2, 1].find? fun z => decide (z ≤ n) && (a + off) % z == 0 with
    | none => []
    | some z => (off, z) :: requestCuts k a (off + z) (n - z)

/-- Stores of an engine to another module's memory (R376), as write requests of its unit. -/
def State.remoteStore (s : State) (r : ReqSt) (pa : Nat) (bs : Bytes) : State :=
  forL (requestCuts bs.length pa 0 bs.length) s fun p t =>
    t.sendRequest r 2 (t.berth r.berth).job (pa + p.1) (Nat.log2 p.2) ((bs.drop p.1).take p.2)

/-- The command engine of a berth as a source of requests (R365). -/
def State.engineReq (s : State) (b node : Nat) : ReqSt :=
  let d := headDie (s.berth b)
  { unit := 0x400 + d, die := d, node := node, berth := b }

end Sys2Proof.Machine
end

