-- ==== Sys2Proof/Machine/MatCalc.lean ====
section
/-!
DEFINITION. Matrix descriptors: fields, layouts, elements and the sums of one instruction (03_matrix_array.md,
04_matrix_descriptors_and_addressing.md).
-/

namespace Sys2Proof.Machine

/-- The fields of one operand word and what goes with it (04 R116). -/
structure MOpd where
  fmtCode : Nat
  addr : Nat
  loc : Nat
  mode : Nat
  trans : Nat
  sgrp : Nat
  srcFmt : Nat
  ld : Nat
  sclOff : Int
  scale : Int
  srcScale : Int
deriving DecidableEq, Repr

/-- A matrix descriptor's fields (04 R116). -/
structure MDesc where
  a : MOpd
  b : MOpd
  fmtOut : Nat
  m : Nat
  n : Nat
  k : Nat
  accInit : Nat
  drain : Bool
  gather : Bool
  retile : Bool
  rnd : Bool
  sat : Bool
  cvtSat : Bool
  rowMaskEn : Bool
  blkMaskEn : Bool
  tieEn : Bool
  bmaskBit : Nat
  addrOut : Nat
  locOut : Nat
  tieSlot : Nat
  ldOut : Nat
  ringSize : Nat
  scaleOut : Int
  winLsb : Int
  tieStride : Nat
  statusAddr : Nat
  initAddr : Nat
  maskAddr : Nat
  ringBase : Nat
deriving DecidableEq, Repr

/-- The fields of a descriptor's eight words (04 R116). -/
def descOf (w : List Nat) : MDesc :=
  let f := fun i hi lo => bitsOf (w.getD i 0) hi lo
  let b := fun i k => bitOf (w.getD i 0) k
  { a := { fmtCode := f 0 3 0, addr := f 1 56 0, loc := f 1 57 57, mode := f 1 59 58, trans := f 1 60 60,
           sgrp := f 1 61 61, srcFmt := f 1 63 62, ld := f 4 19 0, sclOff := signedOf 31 (f 5 30 0),
           scale := signedOf 8 (f 6 7 0), srcScale := signedOf 8 (f 6 31 24) },
    b := { fmtCode := f 0 7 4, addr := f 2 56 0, loc := f 2 57 57, mode := f 2 59 58, trans := f 2 60 60,
           sgrp := f 2 61 61, srcFmt := f 2 63 62, ld := f 4 39 20, sclOff := signedOf 31 (f 5 61 31),
           scale := signedOf 8 (f 6 15 8), srcScale := signedOf 8 (f 6 39 32) },
    fmtOut := f 0 11 8, m := f 0 18 12, n := f 0 25 19, k := f 0 42 26, accInit := f 0 44 43, drain := b 0 45,
    gather := b 0 46, retile := b 0 47, rnd := b 0 48, sat := b 0 49, cvtSat := b 0 50, rowMaskEn := b 0 51,
    blkMaskEn := b 0 52, tieEn := b 0 53, bmaskBit := f 0 59 54, addrOut := f 3 56 0, locOut := f 3 57 57,
    tieSlot := f 3 61 58, ldOut := f 4 59 40, ringSize := f 4 61 60, scaleOut := signedOf 8 (f 6 23 16),
    winLsb := signedOf 10 (f 6 49 40), tieStride := f 6 63 50, statusAddr := f 7 18 0 * 8, initAddr := f 7 36 19 * 16,
    maskAddr := f 7 54 37 * 16, ringBase := f 7 58 55 * 2 ^ 18 }

/-- The format an operand is multiplied in. -/
def opdFmt (o : MOpd) : Fmt := (fmtOfCode o.fmtCode).getD .e4m3

/-- The stored format of an operand: under convert-on-load that of its source (04 R119). -/
def opdStored (o : MOpd) : Fmt :=
  match o.srcFmt with
  | 1 => .fp32
  | 2 => .fp16
  | 3 => .bf16
  | _ => opdFmt o

/-- The row unit (04 R120). -/
def rowUnit (o : MOpd) : Nat :=
  match opdStored o with
  | .mxE4m3 | .mxE5m2 => if o.trans = 0 then 32 else 16
  | .mxE2m3 | .mxE3m2 => 48
  | _ => 16

/-- The row stride of an operand in bytes (04 R120); `rows` is M or N. -/
def rowStride (o : MOpd) (rows k : Nat) : Nat :=
  if o.mode = 1 then 16 * o.ld
  else
    let len := ((if o.trans = 0 then k else rows) * fmtBits (opdStored o) + 7) / 8
    (len + rowUnit o - 1) / rowUnit o * rowUnit o

/-- The convolution block's fields (04 R124). -/
structure ConvBlk where
  inH : Nat
  inW : Nat
  outH : Nat
  outW : Nat
  c : Nat
  kh : Nat
  kw : Nat
  strH : Nat
  strW : Nat
  dilH : Nat
  dilW : Nat
  padT : Nat
  padL : Nat
  nImg : Nat
  m0 : Nat
  k0 : Nat
  pixLd : Nat
  rowLd : Nat
  imgLd : Nat
deriving DecidableEq, Repr

/-- The convolution block in its 64 bytes (04 R124). -/
def convOf (b : Bytes) : ConvBlk :=
  { inH := leAt b 0 2, inW := leAt b 2 2, outH := leAt b 4 2, outW := leAt b 6 2, c := leAt b 8 4, kh := leAt b 12 1,
    kw := leAt b 13 1, strH := leAt b 14 1, strW := leAt b 15 1, dilH := leAt b 16 1, dilW := leAt b 17 1,
    padT := leAt b 18 1, padL := leAt b 19 1, nImg := leAt b 20 2, m0 := leAt b 24 4, k0 := leAt b 28 4,
    pixLd := leAt b 32 4, rowLd := leAt b 36 4, imgLd := leAt b 40 8 }

/-- The byte offset of element `(i, k)` of a convolution operand from `ADDR_A`, in bits; `none` in the padding (R125). -/
def convBit (c : ConvBlk) (ebits i k : Nat) : Option Nat :=
  let pos := c.m0 + i
  let img := pos / (c.outH * c.outW)
  let rem := pos % (c.outH * c.outW)
  let kk := c.k0 + k
  let tap := kk / c.c
  let y : Int := (rem / c.outW * c.strH + tap / c.kw * c.dilH : Nat) - (c.padT : Int)
  let x : Int := (rem % c.outW * c.strW + tap % c.kw * c.dilW : Nat) - (c.padL : Int)
  if y < 0 ∨ (c.inH : Int) ≤ y ∨ x < 0 ∨ (c.inW : Int) ≤ x then none
  else some (8 * (img * c.imgLd + y.toNat * c.rowLd + x.toNat * c.pixLd) + kk % c.c * ebits)

/-- The bit offset of an element from its operand's address (R119, R125): row `r` of M or N, position `k`. -/
def elemBit (o : MOpd) (conv : Bytes) (rows kLen r k : Nat) : Option Nat :=
  let w := fmtBits (opdStored o)
  if o.mode = 2 then convBit (convOf conv) w r k
  else
    let l := rowStride o rows kLen
    if o.trans = 0 then some (8 * (r * l) + k * w) else some (8 * (k * l) + r * w)

/-- The byte offset of an element's block scale from the scale origin (R123). -/
def scaleOffset (o : MOpd) (rows kLen r k bit : Nat) : Nat :=
  if o.mode = 2 ∨ o.trans = 0 then bit / 8 / mxBlockBytes (opdFmt o)
  else k / 32 * (rowStride o rows kLen * 8 / fmtBits (opdFmt o)) + r

/-- A byte that a core's engine reads: local memory, or berth memory through a translation. A byte on another module is
a free value: that module's memory is no part of the state, and a command that reads it takes a number of its own first. The flag is the poison mark. -/
def State.engineByte (s : State) (c b : Nat) (maps : List MapEnt) (loc addr : Nat) : Byte × Bool :=
  if loc = 0 then
    let st := (s.core c).lm
    (st.byte addr, st.marked addr)
  else
    match s.checkVirt b maps addr false with
    | .ok (.here pa) => (s.mem.byte pa, s.mem.marked pa)
    | _ => (Config.remoteByte s.free addr, false)

/-- The `n` bytes an engine reads from an address, and whether any of them carries the mark. -/
def State.engineRead (s : State) (c b : Nat) (maps : List MapEnt) (loc addr n : Nat) : Bytes × Bool :=
  let l := (List.range n).map fun i => s.engineByte c b maps loc (addr + i)
  (l.map Prod.fst, l.any Prod.snd)

/-- The line of berth memory that a byte an engine reads lies in, if it is poisoned. -/
def State.enginePoison (s : State) (b : Nat) (maps : List MapEnt) (loc addr : Nat) : Option Nat :=
  if loc = 0 then none
  else
    match s.checkVirt b maps addr false with
    | .ok (.here pa) => if s.mem.marked pa then some (pa / 64) else none
    | _ => none

/-- Element `(r, k)` of an operand as the array multiplies it (R47, R67, R100, R123), and whether a poison-marked
piece supplied it. -/
def State.element (s : State) (c b : Nat) (e : AqEnt) (d : MDesc) (o : MOpd) (rows r k : Nat) : Val × Bool :=
  match elemBit o e.conv rows d.k r k with
  | none => (.zero false, false)
  | some bit =>
    let w := fmtBits (opdStored o)
    let x := s.engineRead c b e.maps o.loc (o.addr + bit / 8) ((bit % 8 + w + 7) / 8)
    let bits := leNat x.1 / 2 ^ (bit % 8) % 2 ^ w
    if x.2 then (.nan, true)
    else if fmtIsMx (opdFmt o) then
      let y := s.engineByte c b e.maps o.loc
        ((o.addr : Int) + o.sclOff + (scaleOffset o rows d.k r k bit : Nat)).toNat
      if y.2 then (.nan, true) else (mxVal (opdFmt o) bits y.1.toNat, false)
    else if o.srcFmt = 0 then (decodeElem (opdFmt o) bits, false)
    else
      match convertVal (decodeElem (opdStored o) bits) (o.srcScale - o.scale) (opdFmt o) d.rnd d.cvtSat with
      | some y => (decodeElem (opdFmt o) y, false)
      | none => (.nan, false)

/-- The lines of berth memory that an operand's elements and scales touch and that are poisoned. -/
def State.opdPoison (s : State) (b : Nat) (e : AqEnt) (d : MDesc) (o : MOpd) (rows : List Nat) (nRows : Nat) : List Nat :=
  (rows.flatMap fun r => (List.range d.k).flatMap fun k =>
    match elemBit o e.conv nRows d.k r k with
    | none => []
    | some bit =>
      let sc := if fmtIsMx (opdFmt o) then
          (s.enginePoison b e.maps o.loc
            ((o.addr : Int) + o.sclOff + (scaleOffset o nRows d.k r k bit : Nat)).toNat).toList
        else []
      (s.enginePoison b e.maps o.loc (o.addr + bit / 8)).toList ++
        (s.enginePoison b e.maps o.loc (o.addr + (bit + fmtBits (opdStored o) - 1) / 8)).toList ++ sc).eraseDups

/-- The rows an instruction computes (R108). -/
def rowsOf (d : MDesc) (maskRec : Nat) : List Nat :=
  (List.range d.m).filter fun i => !d.rowMaskEn || maskRec.testBit i

/-- The K products of one output element summed into a cell at weight `2^w` (R57, R58). -/
def dotCell (init : AccCell) (w : Int) (xs ys : List Val) : AccCell :=
  (xs.zip ys).foldl (fun c p => cellAddVal c w (mulVal p.1 p.2)) init

/-- Two cells added (R90): sums as 152-bit integers, flags by OR. -/
def cellPlus (a b : AccCell) : AccCell :=
  { sum := a.sum + b.sum, nan := a.nan || b.nan, pinf := a.pinf || b.pinf, ninf := a.ninf || b.ninf,
    ovf := a.ovf || b.ovf }

/-- One element through its retry passes (R106): the cell, its window, whether it overflowed first, and the passes. -/
def retryCell (n : Nat) (w : Int) (xs ys : List Val) : AccCell × Int × Nat :=
  let c := dotCell {} w xs ys
  match n with
  | 0 => (c, w, 0)
  | n + 1 =>
    if cellOut c && decide (w + 32 ≤ 160) then
      let r := retryCell n (w + 32) xs ys
      (r.1, r.2.1, r.2.2 + 1)
    else (c, w, 0)

/-- The fold of a shape (R89), as log2. -/
def foldLog (m n : Nat) : Nat :=
  let r := (m + 3) / 4
  let c := (n + 3) / 4
  let x := if r ≤ c then r else c
  if x ≤ 1 then 4 else if x ≤ 2 then 3 else if x ≤ 4 then 2 else if x ≤ 8 then 1 else 0

/-- What one instruction's sums come to: row, column, cell, window, whether it overflowed in the first pass, passes. -/
structure CellRes where
  i : Nat
  j : Nat
  cell : AccCell
  win : Int
  first : Bool
  passes : Nat
deriving DecidableEq, Repr

/-- The class of a descriptor's pair (R55). -/
def descExact (d : MDesc) : Bool := pairExact (opdFmt d.a) (opdFmt d.b)

/-- The sums of one instruction over its computed rows, onto the cells that a continuation finds in its bank
(R83, R106); and whether any operand element was poison-marked. -/
def State.matrixSums (s : State) (c b : Nat) (e : AqEnt) (old : Tbl AccCell) : List CellRes × Bool :=
  let d := descOf e.words
  let rows := rowsOf d e.maskRec
  let ks := List.range d.k
  let bs := (List.range d.n).map fun j => ks.map fun k => s.element c b e d d.b d.n j k
  let as := rows.map fun i => (i, ks.map fun k => s.element c b e d d.a d.m i k)
  let w := if descExact d then -64 else d.winLsb
  let res := as.flatMap fun ra => bs.zipIdx.map fun cb =>
    let xs := ra.2.map Prod.fst
    let ys := cb.1.map Prod.fst
    if d.retile && !descExact d then
      let r := retryCell 16 w xs ys
      { i := ra.1, j := cb.2, cell := r.1, win := r.2.1, first := cellOut (dotCell {} w xs ys), passes := r.2.2 }
    else
      let init := if d.accInit = 2 then tget old {} (64 * ra.1 + cb.2) else {}
      let cell := dotCell init w xs ys
      { i := ra.1, j := cb.2, cell := cell, win := w, first := false, passes := 0 }
  (res, as.any (fun r => r.2.any Prod.snd) || bs.any fun r => r.any Prod.snd)

/-- The initial cell of an element from local memory (R84, R127); a marked segment gives the NaN marker (R67). -/
def State.initCell (s : State) (c : Nat) (d : MDesc) (i j : Nat) : AccCell :=
  let a := d.initAddr + (i * d.n + j) * 16
  if (s.core c).lm.anyMarked a 16 then { nan := true } else cellOfMem ((s.core c).lm.num a 16)

/-- Bytes of an output element (R127). -/
def outBytes (f : Fmt) : Nat :=
  match f with
  | .la128 => 16
  | f => fmtBits f / 8

/-- An output element's bits (R61, R63, R131): `none` never arises for an output format. -/
def outElem (d : MDesc) (r : CellRes) : Nat :=
  let f := (fmtOfCode d.fmtOut).getD .e4m3
  ((cellRound r.cell r.win (d.a.scale + d.b.scale - d.scaleOut) f d.rnd d.sat).getD 0)

/-- Whether an output element counts as non-finite (R65, R110): NaN, infinity, the marker, or INT8 0x80 for a cell
that is not a number in range. -/
def outNonFinite (d : MDesc) (r : CellRes) : Bool :=
  let f := (fmtOfCode d.fmtOut).getD .e4m3
  match f with
  | .int8 => r.cell.nan || r.cell.pinf || r.cell.ninf || cellOut r.cell
  | .la128 => decide (outElem d r = laMarker)
  | f => valNonFinite (decodeElem f (outElem d r))

/-- The output rows of an instruction as address and bytes (R127): only computed rows are written (R108). -/
def outRows (d : MDesc) (rows : List Nat) (res : List CellRes) : List (Nat × Bytes) :=
  let f := (fmtOfCode d.fmtOut).getD .e4m3
  let tie := if d.tieEn then d.tieSlot * d.tieStride * 2 ^ 20 else 0
  rows.map fun i =>
    (d.addrOut + tie + i * 16 * d.ldOut,
      (res.filter fun r => r.i == i).flatMap fun r => leBytes (outBytes f) (outElem d r))

/-- The engine of a core at an instruction, as the source of stores: to another module they are requests of the core. -/
def coreReq (c b launch group pc : Nat) : ReqSt :=
  { unit := c, die := c / 16, node := 0, core := c, berth := b, launch := launch, group := group, pc := pc }

/-- Writes bytes of a core's engine into berth memory: the lines written leave the core's L1 (08 R233). Bytes on another
module leave as write requests of the core (12 R376). -/
def State.engineStore (s : State) (r : ReqSt) (maps : List MapEnt) (addr : Nat) (bs : Bytes) (marked : Bool) : State :=
  (pieces (bs.length / 64 + 2) addr bs).foldl
    (fun t p =>
      match t.checkVirt r.berth maps p.1 true with
      | .ok (.here pa) =>
        (t.memWrite pa p.2 marked).modCore r.core fun x => { x with l1 := l1Drop x.l1 pa p.2.length }
      | .ok (.remote node pa) => t.remoteStore { r with node := node } pa p.2
      | .error _ => t) s

/-- Writes an engine's output to local memory or berth memory. -/
def State.engineWrite (s : State) (r : ReqSt) (maps : List MapEnt) (loc addr : Nat) (bs : Bytes) (marked : Bool) : State :=
  if loc = 0 then s.modCore r.core fun x => { x with lm := x.lm.write addr bs marked }
  else s.engineStore r maps addr bs marked

/-- The status record of an instruction (R110). -/
def statusRecord (d : MDesc) (res : List CellRes) (poison gathered : Bool) (fold : Nat) : Nat :=
  let nf := (res.filter (outNonFinite d)).length
  let ov := (res.filter CellRes.first).length
  let passes := res.foldl (fun a r => max a r.passes) 0
  let w := if descExact d then -64 else res.foldl (fun a r => max a r.win) d.winLsb
  nf + ov * 2 ^ 16 + (if poison then 2 ^ 29 else 0) + (if gathered then 2 ^ 30 else 0) + passes * 2 ^ 32 +
    fold * 2 ^ 36 + unsignedOf 16 w * 2 ^ 48

/-- One instruction with `DRAIN` 1 carried to its end: sums, initial cells, retries, rounding, output, status record
and the berth's sentinels (R84, R90, R106, R110, R111, 10 R302). -/
def State.matrixDrain (s : State) (c b : Nat) (e : AqEnt) (old : Tbl AccCell) (fold : Nat) : State :=
  let d := descOf e.words
  let sums := s.matrixSums c b e old
  let res := sums.1.map fun r =>
    let cell := if d.accInit = 1 then cellPlus r.cell (s.initCell c d r.i r.j) else r.cell
    { r with cell := cell, first := r.first || cellOut cell }
  let lines := ((s.opdPoison b e d d.a (rowsOf d e.maskRec) d.m) ++
    (s.opdPoison b e d d.b (List.range d.n) d.n)).eraseDups
  let s := forL lines s fun p t => t.poisonRead (some b) c (64 * p)
  let s := forL (outRows d (rowsOf d e.maskRec) res) s fun p t =>
    t.engineWrite (coreReq c b e.launch e.group e.pc) e.maps d.locOut p.1 p.2 false
  let s := if d.statusAddr = 0 then s
    else s.modCore c fun x =>
      { x with lm := x.lm.write d.statusAddr (leBytes 8 (statusRecord d res sums.2 e.fill.isSome fold)) false }
  ((s.count b 0 (res.filter (outNonFinite d)).length).count b 4 (res.filter CellRes.first).length).count b 5
    (res.foldl (fun a r => max a r.passes) 0)

end Sys2Proof.Machine
end

