-- ==== Sys2Proof/Machine/VecForm.lean ====
section
/-!
DEFINITION. The vector operation word: fields, operand geometry and validation (06_vector_engine.md R157-R182,
05_backward_pass.md R147, R148).
-/

namespace Sys2Proof.Machine

/-- An operand selector (06 R158): a register, or a row of the operand cache. -/
structure VSel where
  cache : Bool
  idx : Nat
deriving DecidableEq, Repr

/-- The operand a 9-bit selector names (R158). -/
def selOf (x : Nat) : VSel := if 256 ≤ x then { cache := true, idx := x % 256 } else { cache := false, idx := x % 32 }

/-- The fields of a vector operation word (R157). -/
structure Vow where
  opc : Nat
  fmtD : Nat
  fmtS : Nat
  d : Nat
  a : Nat
  b : Nat
  c : Nat
  rpt : Nat
  rnd : Bool
  sat : Bool
  amx : Bool
  rsv : Bool
  imm : Nat
  scaleD : Int
  scaleS : Int
  aux : Nat
  addr : Nat
  loc : Nat
  len : Nat
  stride : Nat
deriving DecidableEq, Repr

/-- The fields of a word (R157); `addr`, `loc`, `len` and `stride` are the move form's. -/
def vowOf (w0 w1 : Nat) : Vow :=
  { opc := bitsOf w0 7 0, fmtD := bitsOf w0 11 8, fmtS := bitsOf w0 15 12, d := bitsOf w0 24 16, a := bitsOf w0 33 25,
    b := bitsOf w0 42 34, c := bitsOf w0 51 43, rpt := bitsOf w0 59 52, rnd := bitOf w0 60, sat := bitOf w0 61,
    amx := bitOf w0 62, rsv := bitOf w0 63, imm := bitsOf w1 31 0, scaleD := signedOf 8 (bitsOf w1 39 32),
    scaleS := signedOf 8 (bitsOf w1 47 40), aux := bitsOf w1 63 48, addr := bitsOf w1 56 0, loc := bitsOf w1 57 57,
    len := (bitsOf w1 63 58 + 1) * 16, stride := 16 * bitsOf w0 51 34 }

/-- What an opcode uses of the word (R163): operands, and whether `AMX`, rounding, `IMM`, `SCALE_S`, `SCALE_D` and which
bits of `AUX`; whether a register destination may repeat; whether R164, R172 or R175 asks for zero scales. -/
structure VUse where
  d : Bool := false
  a : Bool := false
  b : Bool := false
  c : Bool := false
  amx : Bool := false
  rnd : Bool := false
  imm : Bool := false
  sclS : Bool := false
  sclD : Bool := false
  zeroScl : Bool := false
  regD : Bool := false
  move : Bool := false
  auxMask : Nat := 0
deriving DecidableEq, Repr

/-- The opcode table (R163); `none` for a reserved opcode. -/
def vUse (v : Vow) : Option VUse :=
  let mx := match fmtOfCode v.fmtS with
    | some f => fmtIsMx f
    | none => false
  match v.opc with
  | 0x01 => some { d := true, a := true, b := true, c := true, amx := true, rnd := true, zeroScl := true }
  | 0x02 | 0x03 | 0x04 => some { d := true, a := true, b := true, amx := true, rnd := true, zeroScl := true }
  | 0x05 | 0x06 => some { d := true, a := true, b := true, zeroScl := true }
  | 0x07 => some { d := true, a := true, b := true, zeroScl := true, auxMask := 7 }
  | 0x08 => some { d := true, a := true, b := true, c := true }
  | 0x09 => some { d := true, imm := true }
  | 0x10 | 0x11 | 0x12 | 0x13 | 0x14 | 0x15 | 0x16 | 0x17 | 0x18 | 0x19 | 0x1A => some { d := true, a := true, b := true }
  | 0x1B => some { d := true, a := true, sclS := true }
  | 0x20 | 0x21 | 0x22 | 0x23 | 0x24 => some { d := true, a := true, rnd := true }
  | 0x30 => some { d := true, a := true, b := true }
  | 0x31 => some { d := true, a := true, b := true, c := true }
  | 0x32 =>
    let two := decide (1 ≤ v.aux % 16) && decide (v.aux % 16 ≤ 4)
    some { d := true, a := true, b := two, auxMask := 0xFFF }
  | 0x33 => some { d := true, a := true, b := true, auxMask := 1 }
  | 0x34 => some { d := true, a := true, auxMask := 0xE }
  | 0x40 => some { d := true, a := true, amx := true, rnd := true, sclS := true, sclD := true, auxMask := 0xFF }
  | 0x41 => some { d := true, a := true, b := mx, c := true, amx := true, sclS := !mx, zeroScl := true, auxMask := 1 }
  | 0x48 => some { d := true, a := true, b := v.aux % 8 == 5, amx := true, rnd := true, imm := true, sclS := true,
                   sclD := true, regD := true, auxMask := 0xFFF }
  | 0x50 => some { d := true, a := true, b := true, c := true, amx := true, rnd := true, sclS := true, zeroScl := true }
  | 0x58 => some { imm := true, auxMask := 0x1F }
  | 0x60 => some { d := true, a := true, imm := true, regD := true, auxMask := 0x1F }
  | 0x61 => some { a := true, c := true, imm := true, auxMask := 1 }
  | 0x70 => some { d := true, move := true }
  | 0x71 => some { a := true, move := true }
  | 0x7F => some { imm := true }
  | _ => none

/-- Element width of the bit-moving operations (before R168): the formats whose elements are 8, 16 or 32 bits. -/
def moveWidth (code : Nat) : Option Nat :=
  match fmtOfCode code with
  | some .fp32 => some 32
  | some .fp16 | some .bf16 | some .g16 => some 16
  | some .e4m3 | some .e5m2 | some .mxE4m3 | some .mxE5m2 | some .int8 => some 8
  | _ => none

/-- The floating-point formats marked F (R163). -/
def isF (code : Nat) : Bool := code == 0xB || code == 0x8 || code == 0x9

/-- Whether the format fields are permitted for the opcode (R163, R168, R171, R172, R173, R175, R179). -/
def vFmtOk (v : Vow) : Bool :=
  let mx := fun c => match fmtOfCode c with
    | some f => fmtIsMx f
    | none => false
  let cvt := fun c => c == 0 || c == 1 || (decide (7 ≤ c) && decide (c ≤ 12))
  match v.opc with
  | 0x01 | 0x02 | 0x03 | 0x04 | 0x05 | 0x06 | 0x07 | 0x20 | 0x21 | 0x22 | 0x23 | 0x24 =>
    isF v.fmtS && v.fmtD == v.fmtS
  | 0x08 => (moveWidth v.fmtS).isSome && (v.fmtD == v.fmtS || v.fmtD == 0)
  | 0x30 | 0x31 | 0x32 => (moveWidth v.fmtS).isSome && v.fmtD == v.fmtS
  | 0x33 => match moveWidth v.fmtS, moveWidth v.fmtD with
    | some x, some y => x == 2 * y
    | _, _ => false
  | 0x34 => match moveWidth v.fmtS, moveWidth v.fmtD with
    | some x, some y => y == 2 * x
    | _, _ => false
  | 0x1B => v.fmtS == 0xA && v.fmtD == 0xC
  | 0x40 => cvt v.fmtS && cvt v.fmtD &&
      (v.fmtD != 0xC || v.fmtS == 0 || v.fmtS == 1 || v.fmtS == 7 || v.fmtS == 8 || v.fmtS == 0xA)
  | 0x41 => (isF v.fmtS || mx v.fmtS) && mx v.fmtD
  | 0x48 => isF v.fmtS && v.fmtD == 0xB
  | 0x50 => v.fmtS == 0xB && v.fmtD == 0x9
  | 0x60 | 0x61 => (isF v.fmtS || v.fmtS == 0xA) && v.fmtD == 0
  | _ => v.fmtS == 0 && v.fmtD == 0

/-- Elements in a row of a format (R153): an MX row holds whole blocks only. -/
def rowElems (f : Fmt) : Nat :=
  let n := 8192 / fmtBits f
  if fmtIsMx f then n / 32 * 32 else n

/-- Elements in a row of the format a code names. -/
def codeElems (c : Nat) : Nat := rowElems ((fmtOfCode c).getD .fp32)

/-- Rows a `VMXQ` destination run takes (R172). -/
def vmxqWd (v : Vow) : Nat := (codeElems v.fmtS + codeElems v.fmtD - 1) / codeElems v.fmtD

/-- How an operand advances for each repetition, and how many rows it spans in one (R158, R165, R168, R172, R175). -/
structure VGeom where
  adv : Nat := 1
  span : Nat := 1
deriving DecidableEq, Repr

/-- The geometry of the destination. -/
def geomD (v : Vow) : VGeom :=
  match v.opc with
  | 0x1B => { adv := 8, span := 8 }
  | 0x48 | 0x60 => { adv := 0, span := 1 }
  | 0x41 =>
    if v.aux % 2 = 1 then { adv := 0, span := 32 * vmxqWd v } else { adv := vmxqWd v, span := vmxqWd v }
  | _ => {}

/-- The geometry of A. -/
def geomA (v : Vow) : VGeom :=
  if v.opc = 0x41 ∧ v.aux % 2 = 1 then { adv := 0, span := 32 } else {}

/-- The geometry of B. -/
def geomB (v : Vow) : VGeom :=
  if v.opc = 0x41 ∧ v.aux % 2 = 1 then { adv := 0, span := 32 }
  else if (v.opc = 0x30 ∨ v.opc = 0x31) ∧ moveWidth v.fmtS = some 8 then { adv := 2, span := 2 }
  else {}

/-- The geometry of C. -/
def geomC (v : Vow) : VGeom :=
  if v.opc = 0x50 then { adv := 2, span := 2 }
  else if v.opc = 0x41 ∧ v.aux % 2 = 1 then { adv := 0, span := (codeElems v.fmtS + 1023) / 1024 }
  else {}

/-- The cache rows an operand covers: first row and number; `none` for a register. -/
def cacheRange (sel : Nat) (g : VGeom) (rpt : Nat) : Option (Nat × Nat) :=
  if 256 ≤ sel then some (sel % 256, g.adv * rpt + g.span) else none

/-- Whether two ranges share a row. -/
def rangesMeet (x y : Option (Nat × Nat)) : Bool :=
  match x, y with
  | some (a, n), some (b, m) => decide (a < b + m) && decide (b < a + n)
  | _, _ => false

/-- Whether two ranges start at the same row and advance at the same pace (R159). -/
def rangesAlign (x y : Option (Nat × Nat)) (g h : VGeom) : Bool :=
  match x, y with
  | some (a, _), some (b, _) => a == b && g.adv == h.adv
  | _, _ => false

/-- A memory move's extents: address and length of each row (R181). -/
def moveExtents (v : Vow) : List (Nat × Nat) := (List.range (v.rpt + 1)).map fun j => (v.addr + j * v.stride, v.len)

/-- Whether every page of a range translates with the permission needed, and the address passes its checks
(14 R420). -/
def State.rangeOk (s : State) (b : Nat) (maps : List MapEnt) (va n : Nat) (write : Bool) : Bool :=
  ((List.range ((va % 64 + n + 63) / 64)).map fun i => if i = 0 then va else (va / 64 + i) * 64).all fun a =>
    match s.checkVirt b maps a write with
    | .ok _ => true
    | .error _ => false

/-- The fields of a tie-sum record (05 R147). -/
structure TieRec where
  slotBase : Nat
  dst : Nat
  elems : Nat
  stride : Nat
  slots : Nat
  fmtSlot : Nat
  fmtOut : Nat
  win : Int
  slotScale : Int
  scaleOut : Int
  mode : Nat
  status : Nat
deriving DecidableEq, Repr

/-- The tie-sum record in its 32 bytes (05 R147). -/
def tieOf (r : Bytes) : TieRec :=
  { slotBase := leAt r 0 8, dst := leAt r 8 8, elems := leAt r 16 4, stride := leAt r 20 2 * 2 ^ 20, slots := leAt r 22 1,
    fmtSlot := leAt r 23 1 % 16, fmtOut := leAt r 23 1 / 16, win := signedOf 16 (leAt r 24 2),
    slotScale := signedOf 8 (leAt r 26 1), scaleOut := signedOf 8 (leAt r 27 1), mode := leAt r 28 1,
    status := leAt r 29 3 }

/-- Bytes of a slot element. -/
def tieSlotBytes (t : TieRec) : Nat := if t.fmtSlot = 0xC then 16 else 2

/-- Bytes of an output element. -/
def tieOutBytes (t : TieRec) : Nat := match fmtOfCode t.fmtOut with
  | some f => fmtBits f / 8
  | none => 1

/-- The codes a tie-sum record raises (05 R148). -/
def State.tieCodes (s : State) (c b : Nat) (maps : List MapEnt) (imm : Nat) : List Nat :=
  let lm := (s.core c).lm
  let t := tieOf (lm.read imm 32)
  let recBad := imm % 32 ≠ 0 ∨ 0x400000 < imm + 32 ∨ 4 ≤ t.mode ∨ 2 ^ 57 ≤ t.slotBase ∨ 2 ^ 57 ≤ t.dst ∨
    2 ^ 19 ≤ t.status ∨ 0x400000 < t.status * 8 + 8
  let outOk := [0, 1, 8, 9, 0xA, 0xB, 0xC].contains t.fmtOut
  let sc := if t.fmtSlot = 0xC then t.slotScale - t.scaleOut else -t.scaleOut
  let formBad := t.elems = 0 ∨ 268435456 < t.elems ∨ t.stride = 0 ∨ 16383 * 2 ^ 20 < t.stride ∨ t.slots < 2 ∨ 16 < t.slots ∨
    ¬(t.fmtSlot = 0xA ∨ t.fmtSlot = 0xC) ∨ outOk = false ∨ ¬(t.win = -64 ∨ (t.fmtSlot = 0xC ∧ -320 ≤ t.win ∧ t.win ≤ 160)) ∨
    (t.fmtSlot = 0xA ∧ (t.slotScale < -16 ∨ 8 < t.slotScale)) ∨ (t.fmtOut = 0xA ∧ (t.scaleOut < -16 ∨ 8 < t.scaleOut)) ∨
    t.slotBase % 16 ≠ 0 ∨ t.dst % tieOutBytes t ≠ 0 ∨ (t.fmtOut = 0xC ∧ sc ≠ 0)
  let span := t.elems * tieSlotBytes t
  let inPlace := t.dst = t.slotBase ∧ tieOutBytes t = tieSlotBytes t
  let meets := (List.range t.slots).any fun i =>
    let lo := t.slotBase + i * t.stride
    decide (t.dst < lo + span) && decide (lo < t.dst + t.elems * tieOutBytes t)
  let overBad := t.stride < span ∨ (¬inPlace ∧ meets = true)
  let trBad := ((List.range t.slots).all fun i => s.rangeOk b maps (t.slotBase + i * t.stride) span false) = false ∨
    s.rangeOk b maps t.dst (t.elems * tieOutBytes t) true = false
  (if recBad then [0x0260] else []) ++ (if formBad then [0x0261] else []) ++ (if overBad then [0x0262] else []) ++
    (if formBad = false ∧ trBad then [0x0263] else [])

/-- The codes a vector operation word raises at queue entry (R182): every check is run. -/
def State.vowCodes (s : State) (c b : Nat) (maps : List MapEnt) (w0 w1 : Nat) : List Nat :=
  let v := vowOf w0 w1
  match vUse v with
  | none => [0x0200]
  | some u =>
    let sels := [(u.d, v.d), (u.a, v.a), (u.b, v.b), (u.c, v.c)]
    let gs := [geomD v, geomA v, geomB v, geomC v]
    let selBad := (sels.zipIdx).any fun p =>
      if p.1.1 then decide (p.1.2 < 256) && decide (32 ≤ p.1.2)
      else decide (p.1.2 ≠ 0) && !(u.move && decide (2 ≤ p.2))
    let noOpd := !(u.d || u.a || u.b || u.c)
    let es := codeElems v.fmtS
    let reserved := v.rsv || selBad || (!u.rnd && (v.rnd || v.sat)) || (noOpd && decide (v.rpt ≠ 0)) ||
      (!u.move && ((!u.imm && decide (v.imm ≠ 0)) ||
        decide (v.aux &&& (0xFFFF - (u.auxMask ||| (if v.amx && u.amx then 0xF000 else 0))) ≠ 0) ||
        (!u.zeroScl && ((!u.sclS && decide (v.scaleS ≠ 0)) || (!u.sclD && decide (v.scaleD ≠ 0)))))) ||
      ((v.opc == 0x60 || v.opc == 0x61) && decide (v.fmtD ≠ 0)) ||
      ((v.opc == 0x58 || v.opc == 0x70 || v.opc == 0x71 || v.opc == 0x7F) && (decide (v.fmtS ≠ 0) || decide (v.fmtD ≠ 0))) ||
      (v.opc == 0x07 && decide (4 < v.aux % 8)) || (v.opc == 0x48 && decide (6 ≤ v.aux % 8)) ||
      (v.opc == 0x58 && decide (65536 ≤ v.imm)) ||
      (v.opc == 0x34 && v.aux / 4 % 4 == 3) || (v.opc == 0x41 && u.b && decide (v.scaleS ≠ 0)) ||
      (v.opc == 0x32 && (decide (8 ≤ v.aux % 16) || (v.aux % 16 == 6 && decide (es < 2 ^ (2 * (v.aux / 16 % 256))))))
    let rs := [cacheRange v.d (geomD v) v.rpt, cacheRange v.a (geomA v) v.rpt, cacheRange v.b (geomB v) v.rpt,
      cacheRange v.c (geomC v) v.rpt]
    let used := sels.map Prod.fst
    let operand := ((rs.zip used).any fun p => p.2 && (match p.1 with
          | some (lo, n) => decide (256 < lo + n)
          | none => false)) ||
      (decide (v.rpt ≠ 0) && (
        (u.d && decide (v.d < 256) && !u.regD) || (u.move && u.a && decide (v.a < 256)) ||
        (v.opc == 0x50 && decide (v.b < 256)) || (v.opc == 0x41 && decide (v.c < 256)))) ||
      (v.amx && !u.amx)
    let rg := fun i => if used.getD i false then rs.getD i none else none
    let g := fun i => gs.getD i {}
    let strict := v.opc == 0x31 || (v.opc == 0x30 && moveWidth v.fmtS == some 8) || (v.opc == 0x41 && v.aux % 2 == 1)
    let meet := fun i j => rangesMeet (rg i) (rg j) && (strict || !rangesAlign (rg i) (rg j) (g i) (g j))
    let overlap := meet 0 1 || meet 0 2 || meet 0 3 ||
      (v.opc == 0x50 && (rangesMeet (rg 2) (rg 0) || meet 2 1 || meet 2 3)) ||
      (v.opc == 0x41 && (rangesMeet (rg 3) (rg 0) || meet 3 1 || meet 3 2))
    let g16 := fun (x : Int) => decide (x < -16) || decide (8 < x)
    let scale := (u.zeroScl && ((!u.sclS && decide (v.scaleS ≠ 0)) || (!u.sclD && decide (v.scaleD ≠ 0)))) ||
      (u.sclS && v.fmtS == 0xA && g16 v.scaleS) || (u.sclD && v.fmtD == 0xA && g16 v.scaleD)
    let cc := min es (codeElems v.fmtD)
    let e := es
    let position := (v.opc == 0x40 && (decide (es ≤ v.aux % 16 * cc) || decide (codeElems v.fmtD ≤ v.aux / 16 % 16 * cc))) ||
      (v.opc == 0x48 && (
        if v.aux / 8 % 2 = 0 then decide (v.imm = 0) || decide ((v.rpt + 1) * e < v.imm)
        else decide (v.imm = 0) || decide (e % v.imm ≠ 0) || decide (2 ^ Nat.log2 v.imm ≠ v.imm) ||
          decide (256 < v.aux / 16 % 256 + (v.rpt + 1) * (e / v.imm))))
    let vmx := v.opc == 0x41 && (
      if v.aux % 2 = 1 then decide (v.rpt ≠ 0) || decide (v.a < 256) || decide (v.d < 256) || decide (v.c < 256) ||
        (u.b && decide (v.b < 256)) ||
        ((rs.zip used).any fun p => p.2 && (match p.1 with
          | some (lo, n) => decide (256 < lo + n)
          | none => false))
      else (decide (1 < vmxqWd v) && decide (v.d < 256)))
    let keyW := if v.fmtS = 0xB then 32 else 16
    let sh := v.aux % 32
    let key := (v.opc == 0x60 && (!(sh == 0 || sh == 8 || sh == 16 || sh == 24) || decide (keyW ≤ sh) ||
        (sh + 8 == keyW && decide (v.imm ≠ 0)))) ||
      (v.opc == 0x61 && (decide (256 ≤ v.c) || (v.aux % 2 == 1 && decide (v.a < 256))))
    let range := u.move && (v.addr % 16 != 0 ||
      (v.loc == 0 && (decide (2 ^ 22 ≤ v.addr) || (moveExtents v).any fun x => decide (0x400000 < x.1 + x.2))))
    let trans := u.move && v.loc == 1 && !((moveExtents v).all fun x => s.rangeOk b maps x.1 x.2 (v.opc == 0x71))
    (if reserved then [0x0200] else []) ++ (if !vFmtOk v then [0x0201] else []) ++ (if operand then [0x0202] else []) ++
      (if overlap then [0x0203] else []) ++ (if scale then [0x0204] else []) ++ (if position then [0x0205] else []) ++
      (if vmx then [0x0206] else []) ++ (if key then [0x0207] else []) ++ (if range then [0x0208] else []) ++
      (if trans then [0x0209] else []) ++ (if v.opc = 0x7F then s.tieCodes c b maps v.imm else [])

end Sys2Proof.Machine
end

