-- ==== Sys2Proof/Machine/VecFun.lean ====
section
/-!
DEFINITION. The correctly rounded functions, requantisation to MX blocks and the amax of a value
(05_backward_pass.md R140, 06_vector_engine.md R167, R176).
-/

namespace Sys2Proof.Machine

/-- A positive real as `(2 q + sticky) * 2^e`: `q` its integer part in units of `2^(e+1)`, the sticky bit set where the
real is not that integer. Rounding it to fewer bits than `q` has rounds the real. -/
structure Sticky where
  q : Nat
  exact : Bool
  e : Int
deriving DecidableEq, Repr

/-- A sticky number as an integer times a power of two. -/
def stickyNum (x : Sticky) : Nat := 2 * x.q + (if x.exact then 0 else 1)

/-- The quotient `a / b` of two positive integers with 96 bits beyond the point of `a`. -/
def stickyDiv (a b : Nat) : Sticky :=
  let k := 96 + Nat.log2 b
  { q := a * 2 ^ k / b, exact := decide (a * 2 ^ k % b = 0), e := -(k : Int) - 1 }

/-- The square root of `m * 2^e`. -/
def stickySqrt (m : Nat) (e : Int) : Sticky :=
  let m := if e % 2 = 0 then m else 2 * m
  let e := if e % 2 = 0 then e else e - 1
  let n := m * 2 ^ 192
  let r := isqrt n
  { q := r, exact := decide (r * r = n), e := e / 2 - 97 }

/-- The reciprocal square root of `m * 2^e`. -/
def stickyRsqrt (m : Nat) (e : Int) : Sticky :=
  let m := if e % 2 = 0 then m else 2 * m
  let e := if e % 2 = 0 then e else e - 1
  let k := 96 + Nat.log2 m
  let n := 2 ^ (2 * k) / m
  let r := isqrt n
  { q := r, exact := decide (r * r * m = 2 ^ (2 * k)), e := -(e / 2) - (k : Int) - 1 }

/-- The natural logarithm of 2 in units of 2^-320. -/
def ln2Fix : Nat := 0xb17217f7d1cf79abc9e3b39803f2f6af40f343267298b62d8a0d175b8baafa2be7b876206debac98

/-- `n` terms of the exponential series in units of 2^-320: `t` is the current term, `k` its number. -/
def expSeries : Nat → Nat → Nat → Nat → Nat
  | 0, _, _, _ => 0
  | n + 1, x, t, k => t + expSeries n x (t * x / 2 ^ 320 / (k + 1)) (k + 1)

/-- `2^f` in units of 2^-320 for a fraction `f` in units of 2^-320 (log entry 8). -/
def exp2Fix (f : Nat) : Nat := expSeries 96 (f * ln2Fix / 2 ^ 320) (2 ^ 320) 0

/-- `n` terms of the series of the inverse hyperbolic tangent in units of 2^-320. -/
def atanhSeries : Nat → Nat → Nat → Nat → Nat
  | 0, _, _, _ => 0
  | n + 1, z2, t, k => t / (2 * k + 1) + atanhSeries n z2 (t * z2 / 2 ^ 320) (k + 1)

/-- The binary logarithm of `y / 2^p`, a number from 1 to below 2, in units of 2^-320 (log entry 8). -/
def log2Fix (y p : Nat) : Nat :=
  let z := (y - 2 ^ p) * 2 ^ 320 / (y + 2 ^ p)
  2 * atanhSeries 110 (z * z / 2 ^ 320) z 0 * 2 ^ 320 / ln2Fix

/-- A sticky positive number with a sign, rounded into a format. -/
def roundSticky (neg : Bool) (x : Sticky) (f : Fmt) (rz sat : Bool) : Option Nat :=
  if stickyNum x = 0 then some (encodeZero f neg) else roundFin neg (stickyNum x) x.e f rz sat

/-- `2^a` for a finite `a = m * 2^e` (R167). -/
def exp2Val (m : Int) (e : Int) : Sticky :=
  let huge : Sticky := { q := 1, exact := true, e := if 0 < m then 4096 else -4096 }
  if 14 < (Nat.log2 m.natAbs : Int) + e then huge
  else
    let fix := truncAt m e (-320)
    let fl := fix / (2 ^ 320 : Nat)
    let fr := (fix % (2 ^ 320 : Nat)).toNat
    if fr = 0 then { q := 1, exact := true, e := fl - 1 }
    else { q := exp2Fix fr, exact := false, e := fl - 321 }

/-- `log2(a)` for a positive finite `a = m * 2^e`: sign and magnitude, exact for a power of two (R167). -/
def log2Val (m : Nat) (e : Int) : Bool × Sticky :=
  let p := Nat.log2 m
  let ex : Int := (p : Int) + e
  if m = 2 ^ p then (decide (ex < 0), { q := ex.natAbs, exact := true, e := -1 })
  else
    let v : Int := ex * (2 ^ 320 : Nat) + (log2Fix m p : Nat)
    if v < 0 then (true, { q := v.natAbs - 1, exact := false, e := -321 })
    else (false, { q := v.natAbs, exact := false, e := -321 })

/-- The results of the five functions, by opcode (R167). -/
def funVal (opc : Nat) (v : Val) (f : Fmt) (rz sat : Bool) : Option Nat :=
  match opc, v with
  | _, .nan => fmtNan f
  | 0x20, .inf neg => if neg then some 0 else infResult f false
  | 0x20, .zero _ => roundFin false 1 0 f rz sat
  | 0x20, .fin m e => roundSticky false (exp2Val m e) f rz sat
  | 0x21, .inf neg => if neg then fmtNan f else infResult f false
  | 0x21, .zero _ => infResult f true
  | 0x21, .fin m e =>
    if m < 0 then fmtNan f
    else
      let r := log2Val m.natAbs e
      if stickyNum r.2 = 0 then some 0 else roundSticky r.1 r.2 f rz sat
  | 0x22, .inf neg => some (encodeZero f neg)
  | 0x22, .zero neg => infResult f neg
  | 0x22, .fin m e =>
    let r := stickyDiv 1 m.natAbs
    roundSticky (decide (m < 0)) { r with e := r.e - e } f rz sat
  | 0x23, .inf neg => if neg then fmtNan f else some 0
  | 0x23, .zero neg => infResult f neg
  | 0x23, .fin m e => if m < 0 then fmtNan f else roundSticky false (stickyRsqrt m.natAbs e) f rz sat
  | _, .inf neg => if neg then fmtNan f else infResult f false
  | _, .zero neg => some (encodeZero f neg)
  | _, .fin m e => if m < 0 then fmtNan f else roundSticky false (stickySqrt m.natAbs e) f rz sat

/-- The smallest FP32 magnitude not below a positive `m * 2^e`, +∞ if there is none (R176). -/
def fp32Up (m : Nat) (e : Int) : Nat :=
  match roundFin false m e .fp32 true true with
  | none => 0x7F800000
  | some b =>
    match decodeElem .fp32 b with
    | .fin n g => if dyGt m e n.natAbs g then b + 1 else b
    | _ => b + 1

/-- A value folded into an amax register (R176): magnitude bits and non-finite flag. -/
def amaxFold (mag : Nat) (nf : Bool) (v : Val) : Nat × Bool :=
  match v with
  | .nan => (mag, true)
  | .inf _ => (max mag 0x7F800000, nf)
  | .zero _ => (mag, nf)
  | .fin m e => (max mag (fp32Up m.natAbs e), nf)

/-- The exponent of the largest finite value of an MX element format (R140). -/
def mxEmax (f : Fmt) : Int :=
  match f with
  | .mxE4m3 => 8
  | .mxE5m2 => 15
  | .mxE3m2 => 4
  | _ => 2

/-- The floor of the binary logarithm of a finite value's magnitude. -/
def floorLog (m : Int) (e : Int) : Int := (Nat.log2 m.natAbs : Int) + e

/-- `regroup_block` (R140): the block scale and the elements' bits. -/
def regroupBlock (vs : List Val) (f : Fmt) : Nat × List Nat :=
  if vs.any valNonFinite then (0xFF, vs.map fun _ => 0)
  else
    let top : Option Int := vs.foldl (fun a v => match v with
      | .fin m e => match a with
        | none => some (floorLog m e)
        | some t => some (max t (floorLog m e))
      | _ => a) none
    let x : Int := match top with
      | none => -127
      | some t => min (max (t - mxEmax f) (-127)) 127
    ((x + 127).toNat, vs.map fun v => (convertVal v (-x) f false true).getD 0)

end Sys2Proof.Machine
end

