-- ==== Sys2Proof/Machine/VecCalc.lean ====
section
/-!
DEFINITION. What each vector operation computes and writes (06_vector_engine.md R153-R184, 05_backward_pass.md R146).
An operation of `n` repetitions can be run for its first rows only, as an abort leaves it (R184).
-/

namespace Sys2Proof.Machine

/-- One element of a row: its bits, all-ones if its segment is marked, and whether it is (R156). -/
structure VEl where
  bits : Nat
  bad : Bool
deriving DecidableEq, Repr

/-- A row's contents and marks. -/
def coreRow (k : CoreSt) (x : VSel) : Row × BitVec 16 :=
  if x.cache then (tget k.cache 0 x.idx, tget k.cacheMark 0 x.idx) else (tget k.vr 0 x.idx, tget k.vrMark 0 x.idx)

/-- Puts a row's contents and marks. -/
def putRow (k : CoreSt) (x : VSel) (r : Row) (m : BitVec 16) : CoreSt :=
  if x.cache then { k with cache := tset k.cache x.idx r, cacheMark := tset k.cacheMark x.idx m }
  else { k with vr := tset k.vr x.idx r, vrMark := tset k.vrMark x.idx m }

/-- The row an operand names at a repetition (R158): cache rows advance, registers do not; the row after a register is
the next register. -/
def rowAt (sel : VSel) (g : VGeom) (j k : Nat) : VSel :=
  if sel.cache then { sel with idx := sel.idx + g.adv * j + k } else { sel with idx := (sel.idx + k) % 32 }

/-- Element `i` of width `w` of a row (R153). -/
def rowEl (r : Row × BitVec 16) (w i : Nat) : VEl :=
  let bad := r.2.getLsbD (i * w / 512) || r.2.getLsbD ((i * w + w - 1) / 512)
  { bits := if bad then 2 ^ w - 1 else r.1.toNat / 2 ^ (i * w) % 2 ^ w, bad := bad }

/-- The `n` elements of a row. -/
def rowEls (r : Row × BitVec 16) (w n : Nat) : List VEl := (List.range n).map (rowEl r w)

/-- Writes `es` into consecutive elements of width `w` from element `lo` on (R156): a marked element marks its segments;
a segment loses its mark only if the write covers all of it with unmarked data. -/
def putEls (k : CoreSt) (x : VSel) (w lo : Nat) (es : List VEl) : CoreSt :=
  let r := coreRow k x
  let n := es.length * w
  let val := es.zipIdx.foldl (fun a p => a + (if p.1.bad then 2 ^ w - 1 else p.1.bits % 2 ^ w) * 2 ^ (w * p.2)) 0
  let hole := (2 ^ n - 1) * 2 ^ (w * lo)
  let row := BitVec.ofNat 8192 ((r.1.toNat &&& (2 ^ 8192 - 1 - hole % 2 ^ 8192)) + val * 2 ^ (w * lo))
  let marks := (List.range 16).foldl (fun (m : BitVec 16) seg =>
    let covered := decide (w * lo ≤ 512 * seg) && decide (512 * (seg + 1) ≤ w * lo + n)
    let bad := es.zipIdx.any fun p => p.1.bad &&
      (decide ((lo + p.2) * w / 512 = seg) || decide (((lo + p.2) * w + w - 1) / 512 = seg))
    if bad then m ||| (1#16 <<< seg) else if covered then m &&& ~~~(1#16 <<< seg) else m) r.2
  putRow k x row marks

/-- Number of elements of width `w` in a row. -/
def perRow (w : Nat) : Nat := 8192 / w

/-- An unmarked element. -/
def elOk (b : Nat) : VEl := { bits := b, bad := false }

/-- The value of an element (R67). -/
def elVal (f : Fmt) (e : VEl) : Val := if e.bad then .nan else decodeElem f e.bits

/-- What an operation has done so far: the core, elements written non-finite, and the amax it has folded. -/
structure VAcc where
  core : CoreSt
  nf : Nat := 0
deriving DecidableEq, Repr

/-- Folds a value into amax register `r` of a core. -/
def foldAmax (k : CoreSt) (r : Nat) (v : Val) : CoreSt :=
  let a := tget k.amax {} r
  let n := amaxFold a.mag.toNat a.nonFinite v
  { k with amax := tset k.amax r { mag := BitVec.ofNat 32 n.1, nonFinite := n.2 } }

/-- Folds the values an operation writes, where `AMX` is 1 (R176). -/
def amxAll (v : Vow) (k : CoreSt) (vs : List Val) : CoreSt :=
  if v.amx then vs.foldl (fun a x => foldAmax a (v.aux / 4096) x) k else k

/-- Non-finite elements among written bits (R166). -/
def nfCount (f : Fmt) (bs : List Nat) : Nat := (bs.filter fun b => valNonFinite (decodeElem f b)).length

/-- An arithmetic result as bits (R164): an exact zero is +0 (R44). -/
def arithOut (v : Val) (f : Fmt) (rz sat : Bool) : Nat :=
  match v with
  | .zero _ => 0
  | v => (convertVal v 0 f rz sat).getD 0

/-- Whether `a` comes before `b` in the order of `VMIN` and `VMAX`: −0 below +0 (R164). -/
def orderLt (a b : Val) : Bool :=
  match a, b with
  | .zero true, .zero false => true
  | _, _ => (valLt a b).getD false

/-- The smaller or larger of two values with their bits; NaN if either is NaN (R164). -/
def pickMin (f : Fmt) (lt : Bool) (a b : VEl) : Nat :=
  let x := elVal f a
  let y := elVal f b
  if x = .nan ∨ y = .nan then (fmtNan f).getD 0
  else if lt then (if orderLt y x then b.bits else a.bits) else (if orderLt x y then b.bits else a.bits)

/-- A comparison (R163, R164): 0 EQ, 1 NE, 2 LT, 3 LE, 4 unordered. -/
def cmpVal (cc : Nat) (x y : Val) : Bool :=
  let un := decide (x = .nan) || decide (y = .nan)
  match cc with
  | 0 => !un && valEq x y
  | 1 => un || !valEq x y
  | 2 => (valLt x y).getD false
  | 3 => !un && !(valLt y x).getD false
  | _ => un

/-- A 32-bit integer or bit operation by opcode (R163). -/
def intOp (opc a b : Nat) : Nat :=
  let x := BitVec.ofNat 32 a
  let y := BitVec.ofNat 32 b
  (match opc with
  | 0x10 => x + y
  | 0x11 => x - y
  | 0x12 => x * y
  | 0x13 => x &&& y
  | 0x14 => x ||| y
  | 0x15 => x ^^^ y
  | 0x16 => x <<< (b % 32)
  | 0x17 => x >>> (b % 32)
  | 0x18 => x.sshiftRight (b % 32)
  | 0x19 => if y.slt x then y else x
  | _ => if x.slt y then y else x).toNat

/-- The three floating-point operations with their exact value. -/
def fpOp (opc : Nat) (a b c : Val) : Val :=
  match opc with
  | 0x01 => addVal (mulVal a b) c
  | 0x02 => addVal a b
  | 0x03 => addVal a (negVal b)
  | _ => mulVal a b

/-- A shuffle of `n` elements (R169). -/
def shuffle (pat p n : Nat) (a b : List VEl) : List VEl :=
  let g := fun (l : List VEl) i => l.getD i (elOk 0)
  let h := n / 2
  match pat with
  | 0 => (List.range n).map fun i => g a ((i + p) % n)
  | 1 => (List.range n).map fun i => if i % 2 = 0 then g a (i / 2) else g b (i / 2)
  | 2 => (List.range n).map fun i => if i % 2 = 0 then g a (h + i / 2) else g b (h + i / 2)
  | 3 => (List.range n).map fun i => if i < h then g a (2 * i) else g b (2 * (i - h))
  | 4 => (List.range n).map fun i => if i < h then g a (2 * i + 1) else g b (2 * (i - h) + 1)
  | 5 => (List.range n).map fun i => g a (n - 1 - i)
  | 6 => (List.range n).map fun i =>
      let r := 2 ^ p
      let base := i / (r * r) * (r * r)
      let o := i % (r * r)
      g a (base + o % r * r + o / r)
  | _ => (List.range n).map fun _ => g a (p % n)

/-- The magnitude key of an element (R178). -/
def magKey (f : Fmt) (e : VEl) : Nat :=
  let w := fmtBits f
  if e.bad ∨ decodeElem f e.bits = .nan then 2 ^ w - 1 else e.bits % 2 ^ (w - 1)

/-- The sources of a repetition: rows A, B, C. -/
def srcRow (k : CoreSt) (sel : Nat) (g : VGeom) (j i : Nat) : Row × BitVec 16 := coreRow k (rowAt (selOf sel) g j i)

/-- One repetition of an element-wise operation whose results are judged (R164-R167). -/
def floatRep (v : Vow) (a : VAcc) (j : Nat) : VAcc :=
  let f := (fmtOfCode v.fmtS).getD .fp32
  let w := fmtBits f
  let n := perRow w
  let xs := rowEls (srcRow a.core v.a (geomA v) j 0) w n
  let ys := rowEls (srcRow a.core v.b (geomB v) j 0) w n
  let zs := rowEls (srcRow a.core v.c (geomC v) j 0) w n
  let d := rowAt (selOf v.d) (geomD v) j 0
  let tri := (xs.zip ys).zip zs
  if v.opc ≤ 4 then
    let exact := tri.map fun p => fpOp v.opc (elVal f p.1.1) (elVal f p.1.2) (elVal f p.2)
    let out := exact.map fun x => arithOut x f v.rnd v.sat
    { core := amxAll v (putEls a.core d w 0 (out.map elOk)) exact, nf := a.nf + nfCount f out }
  else if v.opc ≤ 6 then
    let out := tri.map fun p => pickMin f (v.opc == 5) p.1.1 p.1.2
    { core := putEls a.core d w 0 (out.map elOk), nf := a.nf + nfCount f out }
  else if v.opc = 7 then
    let out := tri.map fun p => if cmpVal (v.aux % 8) (elVal f p.1.1) (elVal f p.1.2) then 2 ^ w - 1 else 0
    { a with core := putEls a.core d w 0 (out.map elOk) }
  else
    let out := xs.map fun x => (funVal v.opc (elVal f x) f v.rnd v.sat).getD 0
    { core := putEls a.core d w 0 (out.map elOk), nf := a.nf + nfCount f out }

/-- The elements of one row after another that `VPERM` and `VPERM2` read as indices (R168). -/
def permIndex (k : CoreSt) (v : Vow) (j n : Nat) : List VEl :=
  let r0 := rowEls (srcRow k v.b (geomB v) j 0) 16 512
  if n ≤ 512 then r0 else r0 ++ rowEls (srcRow k v.b (geomB v) j 1) 16 512

/-- One repetition of an operation that moves or combines bits without judging them (R163, R166, R168-R170). -/
def bitRep (v : Vow) (a : VAcc) (j : Nat) : VAcc :=
  let d := rowAt (selOf v.d) (geomD v) j 0
  let w := if v.opc = 9 ∨ (0x10 ≤ v.opc ∧ v.opc ≤ 0x1A) then 32 else (moveWidth v.fmtS).getD 32
  let n := perRow w
  let xs := rowEls (srcRow a.core v.a (geomA v) j 0) w n
  let ys := rowEls (srcRow a.core v.b (geomB v) j 0) w n
  let zs := rowEls (srcRow a.core v.c (geomC v) j 0) w n
  let out : Nat × List VEl :=
    match v.opc with
    | 0x08 => (w, ((xs.zip ys).zip zs).map fun p =>
        let e := if p.2.bits ≠ 0 then p.1.1 else p.1.2
        { e with bad := e.bad || p.2.bad })
    | 0x09 => (w, (List.range n).map fun _ => elOk v.imm)
    | 0x30 | 0x31 =>
      let src := if v.opc = 0x31 then xs ++ zs else xs
      (w, (permIndex a.core v j n).take n |>.map fun i =>
        if i.bad then { bits := 0, bad := true }
        else if i.bits < src.length then src.getD i.bits (elOk 0) else elOk 0)
    | 0x32 => (w, shuffle (v.aux % 16) (v.aux / 16 % 256) n xs ys)
    | 0x33 =>
      let half := fun (e : VEl) => { e with bits := if v.aux % 2 = 0 then e.bits % 2 ^ (w / 2) else e.bits / 2 ^ (w / 2) }
      (w / 2, (xs ++ ys).map half)
    | 0x34 =>
      let part := (if v.aux / 2 % 2 = 0 then xs.take (n / 2) else xs.drop (n / 2))
      (2 * w, part.map fun e => { e with bits :=
        match v.aux / 4 % 4 with
        | 1 => unsignedOf (2 * w) (signedOf w e.bits)
        | 2 => e.bits * 2 ^ w
        | _ => e.bits })
    | _ => (w, (xs.zip ys).map fun p => { bits := intOp v.opc p.1.bits p.2.bits, bad := p.1.bad || p.2.bad })
  { a with core := putEls a.core d out.1 0 out.2 }

/-- One repetition of `VGACC` (R165, R166). -/
def gaccRep (v : Vow) (a : VAcc) (j : Nat) : VAcc :=
  let xs := rowEls (srcRow a.core v.a (geomA v) j 0) 16 512
  (List.range 8).foldl (fun acc r =>
    let d := rowAt (selOf v.d) (geomD v) j r
    let old := rowEls (coreRow acc.core d) 128 64
    let out := (old.zip ((xs.drop (64 * r)).take 64)).map fun p =>
      let cell := if p.1.bad then laMarker else p.1.bits
      (cell, laAdd cell (elVal .g16 p.2) v.scaleS)
    { core := putEls acc.core d 128 0 (out.map fun p => elOk p.2),
      nf := acc.nf + (out.filter fun p => p.2 == laMarker && p.1 != laMarker).length }) a

/-- One repetition of `VCVT` (R171). -/
def cvtRep (v : Vow) (a : VAcc) (j : Nat) : VAcc :=
  let fs := (fmtOfCode v.fmtS).getD .fp32
  let fd := (fmtOfCode v.fmtD).getD .fp32
  let c := min (rowElems fs) (rowElems fd)
  let xs := ((rowEls (srcRow a.core v.a (geomA v) j 0) (fmtBits fs) (rowElems fs)).drop (v.aux % 16 * c)).take c
  let vals := xs.map fun e => elVal fs e
  let out := vals.map fun x =>
    match fd with
    | .la128 => laAdd 0 (scaleVal x (v.scaleS - v.scaleD)) 0
    | _ => (convertVal x (v.scaleS - v.scaleD) fd v.rnd v.sat).getD 0
  let nf := match fd with
    | .int8 => (vals.filter valNonFinite).length
    | .la128 => (out.filter fun b => b == laMarker).length
    | _ => nfCount fd out
  { core := amxAll v (putEls a.core (rowAt (selOf v.d) (geomD v) j 0) (fmtBits fd) (v.aux / 16 % 16 * c) (out.map elOk))
      (vals.map fun x => scaleVal x v.scaleS),
    nf := a.nf + nf }

/-- Writes a run of elements that may continue in the rows that follow (R172). -/
def putRun (k : CoreSt) (sel : VSel) (row w per : Nat) (es : List VEl) : CoreSt :=
  (List.range ((es.length + per - 1) / per)).foldl (fun a r =>
    putEls a (if sel.cache then { sel with idx := sel.idx + row + r } else sel) w 0 ((es.drop (per * r)).take per)) k

/-- The real values of a source row of `VMXQ` (R172): for an MX source with the block scales of row `b`. -/
def mxqVals (v : Vow) (k : CoreSt) (a b : VSel) : List Val :=
  let fs := (fmtOfCode v.fmtS).getD .fp32
  let es := rowEls (coreRow k a) (fmtBits fs) (rowElems fs)
  if fmtIsMx fs then
    let sc := rowEls (coreRow k b) 8 1024
    es.zipIdx.map fun p =>
      let s := sc.getD (p.2 / 32) (elOk 0)
      if p.1.bad || s.bad then .nan else mxVal fs p.1.bits s.bits
  else es.map fun e => scaleVal (elVal fs e) v.scaleS

/-- The blocks of 32 consecutive values; `n` bounds their number. -/
def blocks32 : Nat → List Val → List (List Val)
  | 0, _ => []
  | n + 1, l => if l.isEmpty then [] else l.take 32 :: blocks32 n (l.drop 32)

/-- One repetition of `VMXQ` (R172, R166): the natural form, or one regrouping band. -/
def mxqRep (v : Vow) (a : VAcc) (j : Nat) : VAcc :=
  let fd := (fmtOfCode v.fmtD).getD .mxE4m3
  let ed := rowElems fd
  let k := a.core
  if v.aux % 2 = 0 then
    let vals := mxqVals v k (rowAt (selOf v.a) (geomA v) j 0) (rowAt (selOf v.b) (geomB v) j 0)
    let bl := (blocks32 64 vals).map fun b => regroupBlock b fd
    let es := bl.flatMap fun b => b.2.map elOk
    let k1 := putRun k (rowAt (selOf v.d) (geomD v) j 0) 0 (fmtBits fd) ed es
    let k2 := putEls k1 (rowAt (selOf v.c) (geomC v) j 0) 8 0 (bl.map fun b => elOk b.1)
    { core := amxAll v k2 vals, nf := a.nf + 32 * (bl.filter fun b => b.1 == 0xFF).length }
  else
    let rows := (List.range 32).map fun r =>
      mxqVals v k (rowAt (selOf v.a) { adv := 0 } 0 r) (rowAt (selOf v.b) { adv := 0 } 0 r)
    let es := codeElems v.fmtS
    let bl := (List.range es).map fun c => regroupBlock (rows.map fun r => r.getD c (.zero false)) fd
    let k1 := (List.range 32).foldl (fun acc r =>
      putRun acc (selOf v.d) (vmxqWd v * r) (fmtBits fd) ed (bl.map fun b => elOk (b.2.getD r 0))) k
    let k2 := putRun k1 (selOf v.c) 0 8 1024 (bl.map fun b => elOk b.1)
    { core := amxAll v k2 (rows.flatMap id), nf := a.nf + 32 * (bl.filter fun b => b.1 == 0xFF).length }

/-- The exact sum of a list of values with the cell flags (R174): the value, or NaN or an infinity. -/
def exactSum (vs : List Val) : Val :=
  if vs.any (fun v => decide (v = .nan)) then .nan
  else
    let p := vs.any fun v => decide (v = .inf false)
    let n := vs.any fun v => decide (v = .inf true)
    if p && n then .nan else if p then .inf false else if n then .inf true
    else
      let t := vs.foldl (fun (a : Int) v => match v with
        | .fin m e => a + truncAt m e (-298)
        | _ => a) 0
      if t = 0 then .zero false else .fin t (-298)

/-- The extreme of a list (R174): the selected element, NaN if any is NaN. -/
def extremeVal (lt : Bool) (vs : List Val) : Val :=
  if vs.any (fun v => decide (v = .nan)) then .nan
  else match vs with
    | [] => .nan
    | x :: r => r.foldl (fun a v => if lt then (if orderLt v a then v else a) else (if orderLt a v then v else a)) x

/-- One statistic of a logical row (R173, R174): the FP32 bits, and the real value for amax. -/
def statOf (v : Vow) (xs ys : List Val) : Nat × Val :=
  let kind := v.aux % 8
  let n := xs.length
  let fin := fun (x : Val) (s : Int) (div : Nat) =>
    match x with
    | .zero _ => (0, Val.zero false)
    | .fin m e =>
      let q := stickyDiv m.natAbs div
      let num : Int := if m < 0 then -(stickyNum q : Int) else (stickyNum q : Int)
      ((roundFin (decide (m < 0)) (stickyNum q) (q.e + e + s - v.scaleD) .fp32 v.rnd v.sat).getD 0,
        Val.fin num (q.e + e + s))
    | x => ((convertVal x 0 .fp32 v.rnd v.sat).getD 0, x)
  match kind with
  | 0 => fin (exactSum xs) v.scaleS 1
  | 1 => fin (exactSum xs) v.scaleS n
  | 2 => fin (exactSum (xs.map fun x => mulVal x x)) (2 * v.scaleS) n
  | 5 => fin (exactSum ((xs.zip ys).map fun p => mulVal p.1 p.2)) (2 * v.scaleS) 1
  | k =>
    let x := extremeVal (k == 4) xs
    ((convertVal x (v.scaleS - v.scaleD) .fp32 v.rnd v.sat).getD 0, scaleVal x v.scaleS)

/-- `VRSTAT` over all its rows, or over the logical rows that `rows` rows hold whole (R173, R184). -/
def rstatRun (v : Vow) (a : VAcc) (rows : Nat) : VAcc :=
  let f := (fmtOfCode v.fmtS).getD .fp32
  let w := fmtBits f
  let e := perRow w
  let get := fun sel g => (List.range rows).flatMap fun j => (rowEls (srcRow a.core sel g j 0) w e).map (elVal f)
  let xs := get v.a (geomA v)
  let ys := if v.aux % 8 = 5 then get v.b (geomB v) else []
  let seg := v.aux / 8 % 2 = 1
  let outs :=
    if seg then (List.range (rows * (e / v.imm))).map fun i =>
      statOf v ((xs.drop (i * v.imm)).take v.imm) ((ys.drop (i * v.imm)).take v.imm)
    else if rows = v.rpt + 1 then [statOf v (xs.take v.imm) (ys.take v.imm)] else []
  { core := amxAll v (putEls a.core (selOf v.d) 32 (v.aux / 16 % 256) (outs.map fun o => elOk o.1)) (outs.map Prod.snd),
    nf := a.nf + nfCount .fp32 (outs.map Prod.fst) }

/-- One repetition of `VADDR` (R175). -/
def addrRep (v : Vow) (a : VAcc) (j : Nat) : VAcc :=
  let k := a.core
  let ws := rowEls (srcRow k v.a (geomA v) j 0) 16 512
  let rs := rowEls (srcRow k v.b (geomB v) j 0) 16 512
  let us := rowEls (srcRow k v.c (geomC v) j 0) 32 256 ++ rowEls (srcRow k v.c (geomC v) j 1) 32 256
  let exact := ((ws.zip rs).zip us).map fun p =>
    if p.1.1.bad || p.1.2.bad || p.2.bad then Val.nan
    else addVal (decodeElem .fp32 (p.1.1.bits * 65536 + p.1.2.bits)) (scaleVal (decodeElem .fp32 p.2.bits) v.scaleS)
  let ys := exact.map fun x => arithOut x .fp32 v.rnd v.sat
  let k1 := putEls k (rowAt (selOf v.b) (geomB v) j 0) 16 0 (ys.map fun y => elOk (y % 65536))
  let k2 := putEls k1 (rowAt (selOf v.d) (geomD v) j 0) 16 0 (ys.map fun y => elOk (y / 65536))
  { core := amxAll v k2 exact, nf := a.nf + nfCount .fp32 ys }

/-- One repetition of `VKHIST` (R179). -/
def khistRep (v : Vow) (a : VAcc) (j : Nat) : VAcc :=
  let f := (fmtOfCode v.fmtS).getD .fp32
  let w := fmtBits f
  let sh := v.aux % 32
  let keys := (rowEls (srcRow a.core v.a (geomA v) j 0) w (perRow w)).map (magKey f)
  let hits := keys.filter fun x => sh + 8 == w || x / 2 ^ (sh + 8) == v.imm
  { a with core := (List.range 256).foldl (fun k bin =>
      let n := (hits.filter fun x => x / 2 ^ sh % 256 == bin).length
      if n = 0 then k
      else putEls k (selOf v.d) 32 bin [elOk ((rowEl (coreRow k (selOf v.d)) 32 bin).bits + n)]) a.core }

/-- What `VKSEL` finds in register C (R180). -/
structure KselSt where
  quota : Nat
  thresh : Nat
  outPtr : Nat
  count : Nat
  outEnd : Nat
  full : Bool := false
deriving DecidableEq, Repr

/-- The state of `VKSEL` in register C. -/
def kselOf (k : CoreSt) (v : Vow) : KselSt :=
  let r := coreRow k (selOf v.c)
  { quota := (rowEl r 32 0).bits, thresh := (rowEl r 32 1).bits, outPtr := (rowEl r 32 2).bits,
    count := (rowEl r 32 3).bits, outEnd := (rowEl r 32 4).bits }

/-- Whether `VKSEL` may start (R180). -/
def kselOk (x : KselSt) : Bool := x.outPtr % 8 == 0 && decide (x.outPtr ≤ x.outEnd) && decide (x.outEnd ≤ 0x400000)

/-- One element of `VKSEL` (R180, R183). -/
def kselStep (v : Vow) (f : Fmt) (j : Nat) (acc : CoreSt × KselSt) (pe : VEl × Nat) : CoreSt × KselSt :=
  let k := acc.1
  let x := acc.2
  if x.full then acc
  else
    let key := magKey f pe.1
    let tie := decide (key = x.thresh) && decide (0 < x.quota)
    if decide (x.thresh < key) || tie then
      if x.outEnd < x.outPtr + 8 ∨ 0x400000 < x.outPtr + 8 then (k, { x with full := true })
      else
        let pair := leBytes 4 (v.imm + j * perRow (fmtBits f) + pe.2) ++ leBytes 4 pe.1.bits
        let k1 := { k with lm := k.lm.write x.outPtr pair false }
        let k2 := if v.aux % 2 = 1 then putEls k1 (rowAt (selOf v.a) (geomA v) j 0) (fmtBits f) pe.2 [elOk 0] else k1
        (k2, { x with outPtr := x.outPtr + 8, count := (x.count + 1) % 2 ^ 32,
                      quota := if tie then x.quota - 1 else x.quota })
    else acc

/-- `VKSEL` over its first `rows` rows (R180): the core, and whether the pair area was full. -/
def kselRun (v : Vow) (k : CoreSt) (rows : Nat) : CoreSt × Bool :=
  let f := (fmtOfCode v.fmtS).getD .fp32
  let w := fmtBits f
  let r := (List.range rows).foldl (fun acc j =>
    ((rowEls (srcRow acc.1 v.a (geomA v) j 0) w (perRow w)).zipIdx).foldl (kselStep v f j) acc) (k, kselOf k v)
  let x := r.2
  (putEls r.1 (selOf v.c) 32 0 [elOk x.quota, elOk x.thresh, elOk x.outPtr, elOk x.count, elOk x.outEnd], x.full)

/-- One row of `VLDR` (R181, R156). -/
def State.ldrRow (s : State) (c b : Nat) (e : VqEnt) (v : Vow) (j : Nat) : State :=
  let a := v.addr + j * v.stride
  let bs := (List.range v.len).map fun i => s.engineByte c b e.maps v.loc (a + i)
  let lines := ((List.range v.len).flatMap fun i => (s.enginePoison b e.maps v.loc (a + i)).toList).eraseDups
  let s := forL lines s fun p t => t.poisonRead (some b) c (64 * p)
  s.modCore c fun k => putEls k (rowAt (selOf v.d) (geomD v) j 0) 8 0 (bs.map fun p => { bits := p.1.toNat, bad := p.2 })

/-- One row of `VSTR` (R181, R166): bytes from a marked segment mark the line or segment they land in. -/
def State.strRow (s : State) (c b : Nat) (e : VqEnt) (v : Vow) (j : Nat) : State :=
  let a := v.addr + j * v.stride
  let es := rowEls (coreRow (s.core c) (rowAt (selOf v.a) (geomA v) j 0)) 8 v.len
  (pieces (v.len / 64 + 2) 0 (List.replicate (a % 64) 0 ++ es.map fun x => BitVec.ofNat 8 x.bits)).foldl (fun t p =>
    let lo := p.1 - a % 64
    let skip := if p.1 = 0 then a % 64 else 0
    let n := p.2.length - skip
    t.engineWrite (coreReq c b e.launch e.group e.pc) e.maps v.loc (a + lo) (p.2.drop skip) (((es.drop lo).take n).any VEl.bad)) s

/-- Element `e` of a tie sum (05 R146): the output bits, whether it is non-finite, whether a slot element was marked. -/
def State.tieElem (s : State) (c b : Nat) (maps : List MapEnt) (t : TieRec) (e : Nat) : Nat × Bool × Bool :=
  let n := tieSlotBytes t
  let cell := (List.range t.slots).foldl (fun (a : AccCell × Bool) i =>
    let x := s.engineRead c b maps 1 (t.slotBase + i * t.stride + e * n) n
    let bits := leNat x.1
    if x.2 then ({ a.1 with nan := true }, true)
    else if t.fmtSlot = 0xC then
      (cellPlus a.1 (cellOfMem bits), a.2)
    else
      match decodeElem .g16 bits with
      | .nan => ({ a.1 with nan := true }, a.2)
      | .fin m g => ({ a.1 with sum := a.1.sum + BitVec.ofInt 152 (truncAt m (g + t.slotScale) (-64)) }, a.2)
      | _ => a) ({}, false)
  let f := (fmtOfCode t.fmtOut).getD .fp32
  let sc := if t.fmtSlot = 0xC then t.slotScale - t.scaleOut else -t.scaleOut
  let bits := (cellRound cell.1 t.win sc f (t.mode % 2 == 1) (t.mode / 2 % 2 == 1)).getD 0
  let nf := match f with
    | .la128 => decide (bits = laMarker)
    | f => valNonFinite (decodeElem f bits)
  (bits, nf, cell.2)

/-- `VTIESUM` over its first `n` elements (05 R146, R147): each element is written before the next is read. -/
def State.tieRun (s : State) (c b : Nat) (e : VqEnt) (n : Nat) : State × Nat × Bool :=
  let t := tieOf e.record
  let w := tieOutBytes t
  (List.range n).foldl (fun (a : State × Nat × Bool) i =>
    let lines := ((List.range t.slots).flatMap fun k =>
      (s.enginePoison b e.maps 1 (t.slotBase + k * t.stride + i * tieSlotBytes t)).toList).eraseDups
    let s1 := forL lines a.1 fun p u => u.poisonRead (some b) c (64 * p)
    let r := s1.tieElem c b e.maps t i
    (s1.engineStore (coreReq c b e.launch e.group e.pc) e.maps (t.dst + i * w) (leBytes w r.1) false,
      a.2.1 + (if r.2.1 then 1 else 0), a.2.2 || r.2.2)) (s, 0, false)

/-- The repetition that an opcode runs. -/
def vRep (v : Vow) (a : VAcc) (j : Nat) : VAcc :=
  if v.opc ≤ 7 ∨ (0x20 ≤ v.opc ∧ v.opc ≤ 0x24) then floatRep v a j
  else match v.opc with
    | 0x1B => gaccRep v a j
    | 0x40 => cvtRep v a j
    | 0x41 => mxqRep v a j
    | 0x50 => addrRep v a j
    | 0x60 => khistRep v a j
    | _ => bitRep v a j

/-- An operation run over its first `rows` rows (R158, R160, R184). The flag says that `VKSEL` found its pair area
full (R183). `VAMAXPUT` has no rows. -/
def State.vopRun (s : State) (c b : Nat) (e : VqEnt) (rows : Nat) : State × Bool :=
  let v := vowOf e.w0.toNat e.w1.toNat
  match v.opc with
  | 0x70 => (forN rows s fun j t => t.ldrRow c b e v j, false)
  | 0x71 => (forN rows s fun j t => t.strRow c b e v j, false)
  | 0x61 =>
    let r := kselRun v (s.core c) rows
    (s.setCore c r.1, r.2)
  | 0x48 =>
    let r := rstatRun v { core := s.core c } rows
    ((s.setCore c r.core).count b 1 r.nf, false)
  | 0x58 => (s, false)
  | 0x7F => (s, false)
  | _ =>
    let r := (List.range rows).foldl (vRep v) { core := s.core c }
    ((s.setCore c r.core).count b 1 r.nf, false)

end Sys2Proof.Machine
end

