-- ==== Sys2Proof/Machine/Abort.lean ====
section
/-!
DEFINITION. Aborting a kernel: the fault record, and what the units of its cores still finish (03 R114, 06 R184,
07 R220, R222).
-/

namespace Sys2Proof.Machine

/-- A fault record (07 R220). -/
structure FaultRec where
  code : Nat
  core : Nat := 0
  group : Nat := 0
  pc : Nat := 0xFFFFFFFF
  lanes : Nat := 0
  info : Nat := 0
  detail : Nat := 0
  tally : Nat := 0
deriving DecidableEq, Repr

/-- The 32 bytes of a fault record (07 R220). -/
def faultBytes (f : FaultRec) : Bytes :=
  leBytes 4 (f.code % 2 ^ 16 + f.core % 2 ^ 9 * 2 ^ 16 + f.group % 2 ^ 6 * 2 ^ 25) ++ leBytes 4 f.pc ++ leBytes 4 f.lanes ++
    leBytes 8 f.info ++ leBytes 4 f.detail ++ leBytes 8 f.tally

/-- `MORE` set in a fault record (07 R220). -/
def setMore (r : Bytes) : Bytes := if r.length = 32 then putLe r 3 1 (leAt r 3 1 % 128 + 128) else r

/-- The rows of a vector operation (06 R158): the row of `VAMAXPUT`, the elements of `VTIESUM`, one band for a
regrouping `VMXQ`, `RPT + 1` otherwise. -/
def vopRows (e : VqEnt) : Nat :=
  let v := vowOf e.w0.toNat e.w1.toNat
  if v.opc = 0x7F then (tieOf e.record).elems else if v.opc = 0x58 then 1 else v.rpt + 1

/-- `VAMAXPUT`: hands the register to the keeper and clears it (06 R177, 10 R288). -/
def State.runAmaxPut (s : State) (c b : Nat) (e : VqEnt) : State :=
  let v := vowOf e.w0.toNat e.w1.toNat
  let r := tget (s.core c).amax {} (v.aux % 16)
  (s.modCore c fun k => { k with amax := tset k.amax (v.aux % 16) {} }).amaxPut b (v.imm % 65536) r (v.aux.testBit 4)

/-- The first `n` rows of a started operation of an aborted kernel, and of a move the rest of the 64-byte line that it
was at (06 R184). The tie sum's status record is not written. -/
def State.vopPart (s : State) (c b : Nat) (e : VqEnt) (n : Nat) : State :=
  let v := vowOf e.w0.toNat e.w1.toNat
  if v.opc = 0x58 then s.runAmaxPut c b e
  else if v.opc = 0x7F then (s.tieRun c b e n).1
  else if v.opc = 0x70 ∨ v.opc = 0x71 then
    let full := n / (v.len / 64 + 2)
    let lines := n % (v.len / 64 + 2)
    let s := (s.vopRun c b e (min full (v.rpt + 1))).1
    let a := v.addr + full * v.stride
    let part := min v.len ((a / 64 + lines) * 64 - a)
    if v.rpt < full ∨ part = 0 then s
    else if v.opc = 0x70 then s.ldrRow c b e { v with len := part } full
    else s.strRow c b e { v with len := part } full
  else (s.vopRun c b e n).1

/-- How many rows (of a move: lines) of a started operation had started when its kernel was aborted: a free count,
at least one. -/
def vopPartBound (e : VqEnt) : Nat :=
  let v := vowOf e.w0.toNat e.w1.toNat
  if v.opc = 0x70 ∨ v.opc = 0x71 then (v.rpt + 1) * (v.len / 64 + 2) else vopRows e

/-- The members of a gather fill, or the instruction itself (03 R96). -/
def aqGroup (q : List AqEnt) (e : AqEnt) : List AqEnt :=
  match e.fill with
  | none => [e]
  | some f => q.filter fun x => x.fill == some f

/-- The fold that an instruction runs with: that of its rows, or of the rows of its fill (03 R89, R95, R108). -/
def foldFor (q : List AqEnt) (e : AqEnt) : Nat :=
  let d := descOf e.words
  match e.fill with
  | none => foldLog (rowsOf d e.maskRec).length d.n
  | some _ => foldLog (((aqGroup q e).map fun x => (descOf x.words).m).foldl (· + ·) 0) d.n

/-- The array of an aborted kernel (03 R114): a drain that has already started finishes; whether one has is open. -/
def State.arrayAbort (s : State) (c b : Nat) : State :=
  let k := s.core c
  let s := forL (k.aq.filter fun e => e.bank.isSome && (descOf e.words).drain) s fun e t =>
    let f := Config.freeBool t.free
    let t := t.nextFree
    if f then t.matrixDrain c b e (tget k.banks {} (e.bank.getD 0)).cells (foldFor k.aq e) else t
  s.modCore c fun x => { x with aq := [], fills := [], banks := [] }

/-- The vector engine of an aborted kernel (06 R184): rows already started run to their end, how many is open. -/
def State.vectorAbort (s : State) (c b : Nat) : State :=
  let s := forL ((s.core c).vq.filter fun e => e.started) s fun e t =>
    let n := 1 + Config.freeNat t.free % vopPartBound e
    t.nextFree.vopPart c b e n
  s.modCore c fun x => { x with vq := [] }

/-- Amax registers that hold something when a kernel ends are discarded and counted (06 R177, 10 R289). -/
def State.amaxDiscard (s : State) (c b : Nat) : State :=
  let n := ((s.core c).amax.filter fun p => p.2 ≠ {}).length
  (s.count b 15 n).modCore c fun x => { x with amax := [] }

/-- One core stops for an aborted kernel: no group issues, the units stop as R114 and R184 say (07 R222). -/
def State.stopCore (s : State) (launch c : Nat) : State :=
  match s.kern c with
  | none => s
  | some k =>
    if k.launch = launch then
      let s := s.modKern c fun k =>
        { k with groups := k.groups.map fun p => (p.1, { p.2 with stack := [], chain := none }),
                 barriers := [] }
      ((s.arrayAbort c k.berth).vectorAbort c k.berth).amaxDiscard c k.berth
    else s

/-- A kernel is aborted with a fault, or stopped from outside with the record of such a stop: only the first record is
kept, a later fault sets `MORE`, and every core of the launch stops (07 R220, R222). -/
def State.abortLaunch (s : State) (launch : Nat) (f : FaultRec) : State :=
  match tfind s.launches launch with
  | none => s
  | some l =>
    if l.stopped then s.modLaunch launch fun x => { x with fault := setMore x.fault }
    else
      let r := faultBytes { f with tally := (s.berth l.berth).tally.toNat }
      forL l.running (s.modLaunch launch fun x => { x with stopped := true, fault := r, status := f.code })
        fun c t => t.stopCore launch c

/-- A fault of a thread group's instruction (07 R220). -/
def State.abortGroup (s : State) (t : At) (pc : Nat) (lanes : BitVec 32) (code : Nat) (info detail : Nat := 0) : State :=
  match s.kern t.core with
  | none => s
  | some k => s.abortLaunch k.launch
      { code := code, core := t.core, group := t.group, pc := pc, lanes := lanes.toNat, info := info, detail := detail }

/-- A launch is stopped from outside (07 R220). -/
def State.stopLaunch (s : State) (launch code : Nat) : State :=
  match tfind s.launches launch with
  | none => s
  | some l => s.abortLaunch launch { code := code, core := l.cores.headD 0 }

end Sys2Proof.Machine
end

