-- ==== Sys2Proof/Machine/Flags.lean ====
section
/-!
DEFINITION. The conditions of `CC` (07 R208) and the results of the integer and FP32 instructions (07 R209, R210), as
functions of a width and of source bits. The machine has no condition register.
-/

namespace Sys2Proof.Machine

/-- An integer condition on two sources of `w` bits (R208). -/
def intCond (cc w a b : Nat) : Bool :=
  match cc with
  | 0 => a % 2 ^ w == b % 2 ^ w
  | 1 => a % 2 ^ w != b % 2 ^ w
  | 2 => decide (signedOf w a < signedOf w b)
  | 3 => decide (signedOf w a ≤ signedOf w b)
  | 4 => decide (a % 2 ^ w < b % 2 ^ w)
  | _ => decide (a % 2 ^ w ≤ b % 2 ^ w)

/-- The value of an FP32 source: its low 32 bits (R209). -/
def fp32Val (x : Nat) : Val := decodeElem .fp32 (x % 2 ^ 32)

/-- A floating-point condition (R208): false on NaN but for NE and unordered (06 R164). -/
def floatCond (cc a b : Nat) : Bool := cmpVal cc (fp32Val a) (fp32Val b)

/-- An exact value as FP32, rounded once to nearest even (R209). -/
def fp32Out (v : Val) : Nat := arithOut v .fp32 false false

/-- What an arithmetic instruction computes: width, condition, then the sources A, B and C. -/
abbrev Alu := Nat → Nat → Nat → Nat → Nat → Nat

/-- The signed smaller or larger source. -/
def aluExtreme (lt : Bool) (w a b : Nat) : Nat :=
  if lt then (if signedOf w b < signedOf w a then b else a) else (if signedOf w a < signedOf w b then b else a)

/-- Set bits of a source of `w` bits. -/
def popCount (w a : Nat) : Nat := ((List.range w).filter fun i => a.testBit i).length

/-- Leading zeros of a source of `w` bits. -/
def leadZeros (w a : Nat) : Nat := if a % 2 ^ w = 0 then w else w - 1 - Nat.log2 (a % 2 ^ w)

/-- A signed integer rounded to FP32. -/
def intToFp32 (i : Int) : Nat := if i = 0 then 0 else fp32Out (.fin i 0)

/-- FP32 to a signed 32-bit integer, toward zero and saturated (R210). -/
def fp32ToInt (a : Nat) : Int :=
  match fp32Val a with
  | .nan => -(2 ^ 31)
  | .inf neg => if neg then -(2 ^ 31) else 2 ^ 31 - 1
  | .zero _ => 0
  | .fin m e => max (-(2 ^ 31)) (min (2 ^ 31 - 1) (truncAt m e 0))

/-- FP32 minimum or maximum. -/
def fp32Pick (lt : Bool) (a b : Nat) : Nat := pickMin .fp32 lt (elOk (a % 2 ^ 32)) (elOk (b % 2 ^ 32))

end Sys2Proof.Machine
end

