-- ==== Sys2Proof/Machine/Pvk.lean ====
section
/-!
DEFINITION. The words of kernel instructions (07 R207-R216): fields, encoder, the checks of an image's words (07 R218) and
the decoder. Every field is given by its lowest bit.
-/

namespace Sys2Proof.Machine

/-- What an arithmetic opcode uses (R208, R210). -/
structure ArithUse where
  d : Bool := true
  a : Bool := false
  b : Bool := false
  c : Bool := false
  cc : Bool := false
  imm : Bool := false
deriving DecidableEq, Repr

/-- The arithmetic opcodes (R210) but for `MOVI` and `MOVHI`. -/
def arithUse (op : Nat) : Option ArithUse :=
  match op with
  | 0x00 => some { d := false }
  | 0x01 => some { a := true }
  | 0x04 => some { imm := true }
  | 0x08 | 0x09 | 0x0A | 0x0B => some { a := true, b := true }
  | 0x0C => some { a := true, b := true, c := true }
  | 0x0D | 0x0E => some { a := true, b := true }
  | 0x10 | 0x11 | 0x12 | 0x13 | 0x14 | 0x15 => some { a := true, b := true }
  | 0x16 | 0x17 => some { a := true }
  | 0x18 => some { a := true, b := true, cc := true }
  | 0x19 => some { a := true, b := true, c := true }
  | 0x20 | 0x21 | 0x22 => some { a := true, b := true }
  | 0x23 => some { a := true, b := true, c := true }
  | 0x24 | 0x25 => some { a := true, b := true }
  | 0x26 => some { a := true, b := true, cc := true }
  | 0x27 | 0x28 => some { a := true }
  | 0x30 => some { a := true, imm := true }
  | 0x31 | 0x32 => some { a := true, b := true }
  | _ => none

/-- Whether a specifier names a scalar register (R189). -/
def isScalar (x : BitVec 8) : Bool := x.getLsbD 7

/-- A legal specifier (R189): bit 6 of a per-thread specifier is 0. -/
def specOk (x : BitVec 8) : Bool := x.getLsbD 7 || !x.getLsbD 6

/-- A legal scalar specifier. -/
def scalarOk (x : BitVec 8) : Bool := x.getLsbD 7

/-- A legal per-thread specifier. -/
def threadOk (x : BitVec 8) : Bool := !x.getLsbD 7 && !x.getLsbD 6

/-- The index that a specifier names. -/
def specIdx (x : BitVec 8) : Nat := if isScalar x then x.toNat % 128 else x.toNat % 64

/-- A register group of `n` registers of one file, aligned to `al` (R189). -/
def groupOk (x : BitVec 8) (scalar : Bool) (n al : Nat) : Bool :=
  (if scalar then scalarOk x else threadOk x) && specIdx x % al == 0 &&
    decide (specIdx x + n ≤ if scalar then 128 else 64)

/-- Unused fields zero and no reserved value in an arithmetic word (R207, R208). -/
def arithFieldOk (op : Nat) (u : ArithUse) (o : ArithOp) : Bool :=
  (u.d || o.dst == 0) && (u.a || o.a == 0) && (u.c || o.c == 0) &&
    (if u.b then (if o.immf then o.b == 0 else (u.imm || o.imm == 0)) else (o.b == 0 && !o.immf && (u.imm || o.imm == 0))) &&
    (if u.cc then decide (o.cc.toNat ≤ if op = 0x26 then 4 else 5) else o.cc == 0) &&
    (if op = 0x04 then decide (1 ≤ o.imm.toNat) && decide (o.imm.toNat ≤ 0xE) else true) &&
    (if op = 0x30 then decide (o.imm.toNat ≤ 2) else true)

/-- The specifiers of an arithmetic word (R189, R190, R209). -/
def arithRegOk (op : Nat) (u : ArithUse) (o : ArithOp) : Bool :=
  let src := fun (x : BitVec 8) => if isScalar o.dst then scalarOk x else specOk x
  (if u.d then
      (if op = 0x30 ∨ op = 0x31 then scalarOk o.dst
       else if op = 0x32 ∨ (op = 0x04 ∧ o.imm = 1) then threadOk o.dst
       else specOk o.dst)
    else true) &&
    (if u.a then (if op = 0x30 ∨ op = 0x31 ∨ op = 0x32 then threadOk o.a else src o.a) else true) &&
    (if u.b && !o.immf then (if op = 0x31 then scalarOk o.b else if op = 0x32 then threadOk o.b else src o.b) else true) &&
    (if u.c then src o.c else true)

/-- Whether an arithmetic word passes every check of R218. -/
def arithOk (op : Nat) (o : ArithOp) : Bool :=
  match arithUse op with
  | some u => arithFieldOk op u o && arithRegOk op u o
  | none => false

/-- Bytes of an access by `SIZE` (R212). -/
def sizeBytes (x : BitVec 3) : Nat := 2 ^ x.toNat

/-- The field checks of a load or store (R212): 0x60 `LD`, 0x61 `ST`, 0x63 `LDS`, 0x64 `STS`. -/
def memFieldOk (op : Nat) (o : MemOp) : Bool :=
  decide (o.space.toNat < 2) && decide (o.size.toNat < 7) &&
    (if op = 0x60 ∨ op = 0x63 then (!o.vol || o.space == 1) && (!o.sext || decide (o.size.toNat ≤ 1))
     else !o.vol && !o.sext) &&
    (if op = 0x60 ∨ op = 0x61 then decide (o.size.toNat ≤ 4) else o.b == 0)

/-- The specifiers of a load or store (R189, R212). -/
def memRegOk (op : Nat) (o : MemOp) : Bool :=
  let n := sizeBytes o.size
  scalarOk o.a &&
    (if op = 0x60 ∨ op = 0x61 then specOk o.b && groupOk o.dst false (max 1 (n / 4)) (max 1 (n / 4))
     else groupOk o.dst true (max 1 (n / 8)) (max 1 (n / 8)))

/-- Whether a load or store passes every check of R218. -/
def memOk (op : Nat) (o : MemOp) : Bool := memFieldOk op o && memRegOk op o

/-- The formats of an `XADD` addend (R212). -/
def xfmtOk (x : Nat) : Bool := x == 0 || x == 1 || x == 7 || x == 8 || x == 0xA

/-- The field checks of an atomic (R212, R213). -/
def atomFieldOk (aop : Nat) (o : AtomOp) : Bool :=
  decide (o.space.toNat < 2) &&
    (match aop with
     | 0xA => o.size == 2 && o.xfmt == 0
     | 0xB => o.size == 4 && o.space == 1 && !o.ret && xfmtOk o.xfmt.toNat
     | a => decide (a ≤ 9) && (o.size == 2 || o.size == 3) && o.xfmt == 0)

/-- The specifiers of an atomic (R189, R213). -/
def atomRegOk (aop : Nat) (o : AtomOp) : Bool :=
  scalarOk o.a && specOk o.b &&
    (match aop with
     | 0xB => groupOk o.dst false 2 2
     | 0x9 => if o.size = 3 then groupOk o.dst false 4 4 else groupOk o.dst false 2 1
     | _ => if o.size = 3 then groupOk o.dst false 2 2 else groupOk o.dst false 1 1)

/-- Whether an atomic passes every check of R218. -/
def atomOk (aop : Nat) (o : AtomOp) : Bool := atomFieldOk aop o && atomRegOk aop o

/-! Words. -/

/-- An arithmetic word (R207, R208). -/
def arithWord (op : Nat) (o : ArithOp) : Nat :=
  op + 2 ^ 8 * o.dst.toNat + 2 ^ 16 * o.a.toNat + 2 ^ 24 * o.b.toNat + 2 ^ 32 * o.c.toNat +
    2 ^ 40 * (if o.immf then 1 else 0) + 2 ^ 41 * o.cc.toNat + 2 ^ 48 * o.imm.toNat

/-- A word of `MOVI` or `MOVHI` (R208). -/
def moviWord (op : Nat) (dst : BitVec 8) (imm : BitVec 32) : Nat := op + 2 ^ 8 * dst.toNat + 2 ^ 32 * imm.toNat

/-- A word of a load or store (R212). -/
def memWord (op : Nat) (o : MemOp) : Nat :=
  op + 2 ^ 8 * o.dst.toNat + 2 ^ 16 * o.a.toNat + 2 ^ 24 * o.b.toNat + 2 ^ 32 * o.space.toNat + 2 ^ 34 * o.size.toNat +
    2 ^ 37 * (if o.vol then 1 else 0) + 2 ^ 38 * (if o.sext then 1 else 0) + 2 ^ 48 * o.off.toNat

/-- A word of an atomic (R212). -/
def atomWord (aop : Nat) (o : AtomOp) : Nat :=
  0x62 + 2 ^ 8 * o.dst.toNat + 2 ^ 16 * o.a.toNat + 2 ^ 24 * o.b.toNat + 2 ^ 32 * o.space.toNat + 2 ^ 34 * o.size.toNat +
    2 ^ 39 * aop + 2 ^ 43 * (if o.ret then 1 else 0) + 2 ^ 44 * o.xfmt.toNat + 2 ^ 48 * o.off.toNat

/-- A word of `MISS` (0x40) or `VISS` (0x50) (R211). -/
def issueWord (op : Nat) (a b : BitVec 8) (tk : BitVec 3) : Nat :=
  op + 2 ^ 16 * a.toNat + 2 ^ 24 * b.toNat + 2 ^ 32 * tk.toNat

/-- A word of `BAR` (R215). -/
def barWord (a : BitVec 8) (bid : BitVec 4) (arriveOnly cnti : Bool) (imm : BitVec 16) : Nat :=
  0x90 + 2 ^ 16 * a.toNat + 2 ^ 32 * bid.toNat + 2 ^ 36 * (if arriveOnly then 1 else 0) +
    2 ^ 37 * (if cnti then 1 else 0) + 2 ^ 48 * imm.toNat

/-- A word of a control instruction (R216): `SRC_A`, `COND`, `TGT` or `TK` in the bits from 32 up, `JOIN` or the
immediate in the bits from 48 up. -/
def ctlWord (op : Nat) (a : BitVec 8) (cond : Bool) (mid hi : Nat) : Nat :=
  op + 2 ^ 16 * a.toNat + 2 ^ 24 * (if cond then 1 else 0) + 2 ^ 32 * mid + 2 ^ 48 * hi

/-! Fields of a word. -/

/-- The arithmetic fields of a word (R207, R208). -/
def arithOf (w : Nat) : ArithOp :=
  { dst := BitVec.ofNat 8 (bitsOf w 15 8), a := BitVec.ofNat 8 (bitsOf w 23 16), b := BitVec.ofNat 8 (bitsOf w 31 24),
    c := BitVec.ofNat 8 (bitsOf w 39 32), immf := bitsOf w 40 40 == 1, cc := BitVec.ofNat 3 (bitsOf w 43 41),
    imm := BitVec.ofNat 16 (bitsOf w 63 48) }

/-- The fields of a load or store word (R212). -/
def memOf (w : Nat) : MemOp :=
  { dst := BitVec.ofNat 8 (bitsOf w 15 8), a := BitVec.ofNat 8 (bitsOf w 23 16), b := BitVec.ofNat 8 (bitsOf w 31 24),
    space := BitVec.ofNat 2 (bitsOf w 33 32), size := BitVec.ofNat 3 (bitsOf w 36 34), vol := bitsOf w 37 37 == 1,
    sext := bitsOf w 38 38 == 1, off := BitVec.ofNat 16 (bitsOf w 63 48) }

/-- The fields of an atomic word (R212). -/
def atomOf (w : Nat) : AtomOp :=
  { dst := BitVec.ofNat 8 (bitsOf w 15 8), a := BitVec.ofNat 8 (bitsOf w 23 16), b := BitVec.ofNat 8 (bitsOf w 31 24),
    space := BitVec.ofNat 2 (bitsOf w 33 32), size := BitVec.ofNat 3 (bitsOf w 36 34), ret := bitsOf w 43 43 == 1,
    xfmt := BitVec.ofNat 4 (bitsOf w 47 44), off := BitVec.ofNat 16 (bitsOf w 63 48) }

/-- The arithmetic instructions by opcode (R210). -/
def arithInstr (t : At) (op : Nat) (o : ArithOp) : Option Instr :=
  match op with
  | 0x00 => some (.nop t o)
  | 0x01 => some (.mov t o)
  | 0x04 => some (.movsp t o)
  | 0x08 => some (.iadd t o)
  | 0x09 => some (.isub t o)
  | 0x0A => some (.imul t o)
  | 0x0B => some (.imulhu t o)
  | 0x0C => some (.imad t o)
  | 0x0D => some (.imin t o)
  | 0x0E => some (.imax t o)
  | 0x10 => some (.andb t o)
  | 0x11 => some (.orb t o)
  | 0x12 => some (.xorb t o)
  | 0x13 => some (.shl t o)
  | 0x14 => some (.shr t o)
  | 0x15 => some (.sar t o)
  | 0x16 => some (.popc t o)
  | 0x17 => some (.clz t o)
  | 0x18 => some (.iset t o)
  | 0x19 => some (.sel t o)
  | 0x20 => some (.fadd t o)
  | 0x21 => some (.fsub t o)
  | 0x22 => some (.fmul t o)
  | 0x23 => some (.ffma t o)
  | 0x24 => some (.fmin t o)
  | 0x25 => some (.fmax t o)
  | 0x26 => some (.fset t o)
  | 0x27 => some (.i2f t o)
  | 0x28 => some (.f2i t o)
  | 0x30 => some (.vote t o)
  | 0x31 => some (.v2s t o)
  | 0x32 => some (.shfl t o)
  | _ => none

/-- The atomics by `AOP` (R213). -/
def atomInstr (t : At) (aop : Nat) (o : AtomOp) : Option Instr :=
  match aop with
  | 0x0 => some (.atomAdd t o)
  | 0x1 => some (.atomSmin t o)
  | 0x2 => some (.atomSmax t o)
  | 0x3 => some (.atomUmin t o)
  | 0x4 => some (.atomUmax t o)
  | 0x5 => some (.atomAnd t o)
  | 0x6 => some (.atomOr t o)
  | 0x7 => some (.atomXor t o)
  | 0x8 => some (.atomExch t o)
  | 0x9 => some (.atomCas t o)
  | 0xA => some (.atomFadd t o)
  | 0xB => some (.atomXadd t o)
  | _ => none

/-- The vector operations by `OPC` of W0 (06 R163). -/
def vopInstr (t : At) (opc : Nat) (a b : BitVec 8) (tk : BitVec 3) : Option Instr :=
  match opc with
  | 0x01 => some (.vfma t a b tk)
  | 0x02 => some (.vadd t a b tk)
  | 0x03 => some (.vsub t a b tk)
  | 0x04 => some (.vmul t a b tk)
  | 0x05 => some (.vmin t a b tk)
  | 0x06 => some (.vmax t a b tk)
  | 0x07 => some (.vcmp t a b tk)
  | 0x08 => some (.vsel t a b tk)
  | 0x09 => some (.vbcast t a b tk)
  | 0x10 => some (.viadd t a b tk)
  | 0x11 => some (.visub t a b tk)
  | 0x12 => some (.vimul t a b tk)
  | 0x13 => some (.vand t a b tk)
  | 0x14 => some (.vor t a b tk)
  | 0x15 => some (.vxor t a b tk)
  | 0x16 => some (.vshl t a b tk)
  | 0x17 => some (.vshr t a b tk)
  | 0x18 => some (.vsar t a b tk)
  | 0x19 => some (.vimin t a b tk)
  | 0x1A => some (.vimax t a b tk)
  | 0x1B => some (.vgacc t a b tk)
  | 0x20 => some (.vexp2 t a b tk)
  | 0x21 => some (.vlog2 t a b tk)
  | 0x22 => some (.vrcp t a b tk)
  | 0x23 => some (.vrsqrt t a b tk)
  | 0x24 => some (.vsqrt t a b tk)
  | 0x30 => some (.vperm t a b tk)
  | 0x31 => some (.vperm2 t a b tk)
  | 0x32 => some (.vshuf t a b tk)
  | 0x33 => some (.vpack t a b tk)
  | 0x34 => some (.vunpack t a b tk)
  | 0x40 => some (.vcvt t a b tk)
  | 0x41 => some (.vmxq t a b tk)
  | 0x48 => some (.vrstat t a b tk)
  | 0x50 => some (.vaddr t a b tk)
  | 0x58 => some (.vamaxput t a b tk)
  | 0x60 => some (.vkhist t a b tk)
  | 0x61 => some (.vksel t a b tk)
  | 0x70 => some (.vldr t a b tk)
  | 0x71 => some (.vstr t a b tk)
  | 0x7F => some (.vtiesum t a b tk)
  | _ => none

/-- Whether an opcode is none of the listed ones (R207, R210). -/
def opReserved (op : Nat) : Bool :=
  !((arithUse op).isSome || op == 0x02 || op == 0x03 || op == 0x40 || op == 0x50 ||
    (decide (0x60 ≤ op) && decide (op ≤ 0x64)) || op == 0x80 || op == 0x90 || (decide (0xA0 ≤ op) && decide (op ≤ 0xA6)))

/-- A word with no bit set but those of the ranges given (R207: unused fields and reserved bits are zero). -/
def onlyBits (w : Nat) (fs : List (Nat × Nat)) : Bool :=
  w == fs.foldl (fun a f => a + bitsOf w f.1 f.2 * 2 ^ f.2) 0

/-- The field check of a word (R218, `IMG_FIELD`). -/
def wordFieldOk (w : Nat) : Bool :=
  let op := bitsOf w 7 0
  if op = 0x02 ∨ op = 0x03 then onlyBits w [(7, 0), (15, 8), (63, 32)]
  else match arithUse op with
  | some u => bitsOf w 47 44 == 0 && arithFieldOk op u (arithOf w)
  | none =>
    match op with
    | 0x40 => onlyBits w [(7, 0), (23, 16), (34, 32)]
    | 0x50 => onlyBits w [(7, 0), (23, 16), (31, 24), (34, 32)]
    | 0x62 => atomFieldOk (bitsOf w 42 39) (atomOf w) && bitsOf w 38 37 == 0
    | 0x80 => onlyBits w [(7, 0), (33, 32)]
    | 0x90 =>
      if bitsOf w 37 37 = 1 then onlyBits w [(7, 0), (37, 32), (63, 48)] else onlyBits w [(7, 0), (23, 16), (37, 32)]
    | 0xA0 => onlyBits w [(7, 0), (47, 32)]
    | 0xA1 => onlyBits w [(7, 0), (23, 16), (24, 24), (47, 32)]
    | 0xA2 => onlyBits w [(7, 0), (23, 16), (24, 24), (47, 32), (63, 48)] && bitsOf w 63 48 != 0
    | 0xA3 => onlyBits w [(7, 0), (23, 16)]
    | 0xA4 => onlyBits w [(7, 0), (34, 32), (63, 48)] && decide (bitsOf w 63 48 ≤ 128)
    | 0xA5 => onlyBits w [(7, 0)]
    | 0xA6 => onlyBits w [(7, 0), (63, 48)]
    | _ => memFieldOk op (memOf w) && bitsOf w 47 39 == 0

/-- The specifier check of a word (R218, `IMG_REGISTER`). -/
def wordRegOk (w : Nat) : Bool :=
  let op := bitsOf w 7 0
  let o := arithOf w
  if op = 0x02 then specOk o.dst
  else if op = 0x03 then scalarOk o.dst
  else match arithUse op with
  | some u => arithRegOk op u o
  | none =>
    match op with
    | 0x40 | 0xA1 | 0xA3 => scalarOk o.a
    | 0x50 => scalarOk o.a && scalarOk o.b
    | 0x62 => atomRegOk (bitsOf w 42 39) (atomOf w)
    | 0x90 => bitsOf w 37 37 == 1 || scalarOk o.a
    | 0xA2 => threadOk o.a
    | 0x60 | 0x61 | 0x63 | 0x64 => memRegOk op (memOf w)
    | _ => true

/-- Whether an offset in instructions from a word at `pc` stays in the code (R216). -/
def inCode (codeBytes pc : Nat) (off : Int) : Bool :=
  let x := (pc : Int) + 8 * off
  decide (0 ≤ x) && decide (x < codeBytes)

/-- The target check of a word at `pc` (R218, `IMG_TARGET`). -/
def wordTargetOk (codeBytes pc w : Nat) : Bool :=
  let op := bitsOf w 7 0
  (if op = 0xA0 ∨ op = 0xA1 ∨ op = 0xA2 then inCode codeBytes pc (signedOf 16 (bitsOf w 47 32)) else true) &&
    (if op = 0xA2 then inCode codeBytes pc (bitsOf w 63 48) else true)

/-- The lowest code that a word of an image fails with, 0 if it passes (R218, R221). -/
def wordCode (codeBytes pc w : Nat) : Nat :=
  if opReserved (bitsOf w 7 0) then 0x0303
  else if !wordFieldOk w then 0x0304
  else if !wordRegOk w then 0x0305
  else if !wordTargetOk codeBytes pc w then 0x0306
  else 0

/-- The instruction of a word, for a group; `opc` is the `OPC` of the operation word that a `VISS` names (R207-R216).
`none` for a word that R218 refuses. -/
def decodePvk (t : At) (opc w : Nat) : Option Instr :=
  let op := bitsOf w 7 0
  let o := arithOf w
  let tk := BitVec.ofNat 3 (bitsOf w 34 32)
  let mid := BitVec.ofNat 16 (bitsOf w 47 32)
  let cond := bitsOf w 24 24 == 1
  if opReserved op || !wordFieldOk w || !wordRegOk w then none
  else if op = 0x02 then some (.movi t o.dst (BitVec.ofNat 32 (bitsOf w 63 32)))
  else if op = 0x03 then some (.movhi t o.dst (BitVec.ofNat 32 (bitsOf w 63 32)))
  else if op < 0x40 then arithInstr t op o
  else match op with
  | 0x40 => some (.miss t o.a tk)
  | 0x50 => vopInstr t opc o.a o.b tk
  | 0x60 => some (.ld t (memOf w) [])
  | 0x61 => some (.st t (memOf w))
  | 0x62 => atomInstr t (bitsOf w 42 39) (atomOf w)
  | 0x63 => some (.lds t (memOf w) [])
  | 0x64 => some (.sts t (memOf w))
  | 0x80 => some (.fence t (BitVec.ofNat 2 (bitsOf w 33 32)))
  | 0x90 => some (.bar t o.a (BitVec.ofNat 4 (bitsOf w 35 32)) (bitsOf w 36 36 == 1) (bitsOf w 37 37 == 1) o.imm)
  | 0xA0 => some (.bra t mid)
  | 0xA1 => some (.brs t o.a cond mid)
  | 0xA2 => some (.brc t o.a cond mid o.imm)
  | 0xA3 => some (.jmps t o.a)
  | 0xA4 => some (.waitc t tk o.imm)
  | 0xA5 => some (.exitPath t)
  | 0xA6 => some (.trap t o.imm)
  | _ => none

/-- The word of a kernel instruction with, for a vector operation, the `OPC` of the operation word that its `VISS` names, 0
otherwise (R207-R216, 06 R163). `none` for the other commands of the module. -/
def encodePvk : Instr → Option (Nat × Nat)
  | .nop _ o => some (0, arithWord 0x00 o)
  | .mov _ o => some (0, arithWord 0x01 o)
  | .movsp _ o => some (0, arithWord 0x04 o)
  | .iadd _ o => some (0, arithWord 0x08 o)
  | .isub _ o => some (0, arithWord 0x09 o)
  | .imul _ o => some (0, arithWord 0x0A o)
  | .imulhu _ o => some (0, arithWord 0x0B o)
  | .imad _ o => some (0, arithWord 0x0C o)
  | .imin _ o => some (0, arithWord 0x0D o)
  | .imax _ o => some (0, arithWord 0x0E o)
  | .andb _ o => some (0, arithWord 0x10 o)
  | .orb _ o => some (0, arithWord 0x11 o)
  | .xorb _ o => some (0, arithWord 0x12 o)
  | .shl _ o => some (0, arithWord 0x13 o)
  | .shr _ o => some (0, arithWord 0x14 o)
  | .sar _ o => some (0, arithWord 0x15 o)
  | .popc _ o => some (0, arithWord 0x16 o)
  | .clz _ o => some (0, arithWord 0x17 o)
  | .iset _ o => some (0, arithWord 0x18 o)
  | .sel _ o => some (0, arithWord 0x19 o)
  | .fadd _ o => some (0, arithWord 0x20 o)
  | .fsub _ o => some (0, arithWord 0x21 o)
  | .fmul _ o => some (0, arithWord 0x22 o)
  | .ffma _ o => some (0, arithWord 0x23 o)
  | .fmin _ o => some (0, arithWord 0x24 o)
  | .fmax _ o => some (0, arithWord 0x25 o)
  | .fset _ o => some (0, arithWord 0x26 o)
  | .i2f _ o => some (0, arithWord 0x27 o)
  | .f2i _ o => some (0, arithWord 0x28 o)
  | .vote _ o => some (0, arithWord 0x30 o)
  | .v2s _ o => some (0, arithWord 0x31 o)
  | .shfl _ o => some (0, arithWord 0x32 o)
  | .movi _ dst imm => some (0, moviWord 0x02 dst imm)
  | .movhi _ dst imm => some (0, moviWord 0x03 dst imm)
  | .miss _ a tk => some (0, issueWord 0x40 a 0 tk)
  | .vfma _ a b tk => some (0x01, issueWord 0x50 a b tk)
  | .vadd _ a b tk => some (0x02, issueWord 0x50 a b tk)
  | .vsub _ a b tk => some (0x03, issueWord 0x50 a b tk)
  | .vmul _ a b tk => some (0x04, issueWord 0x50 a b tk)
  | .vmin _ a b tk => some (0x05, issueWord 0x50 a b tk)
  | .vmax _ a b tk => some (0x06, issueWord 0x50 a b tk)
  | .vcmp _ a b tk => some (0x07, issueWord 0x50 a b tk)
  | .vsel _ a b tk => some (0x08, issueWord 0x50 a b tk)
  | .vbcast _ a b tk => some (0x09, issueWord 0x50 a b tk)
  | .viadd _ a b tk => some (0x10, issueWord 0x50 a b tk)
  | .visub _ a b tk => some (0x11, issueWord 0x50 a b tk)
  | .vimul _ a b tk => some (0x12, issueWord 0x50 a b tk)
  | .vand _ a b tk => some (0x13, issueWord 0x50 a b tk)
  | .vor _ a b tk => some (0x14, issueWord 0x50 a b tk)
  | .vxor _ a b tk => some (0x15, issueWord 0x50 a b tk)
  | .vshl _ a b tk => some (0x16, issueWord 0x50 a b tk)
  | .vshr _ a b tk => some (0x17, issueWord 0x50 a b tk)
  | .vsar _ a b tk => some (0x18, issueWord 0x50 a b tk)
  | .vimin _ a b tk => some (0x19, issueWord 0x50 a b tk)
  | .vimax _ a b tk => some (0x1A, issueWord 0x50 a b tk)
  | .vgacc _ a b tk => some (0x1B, issueWord 0x50 a b tk)
  | .vexp2 _ a b tk => some (0x20, issueWord 0x50 a b tk)
  | .vlog2 _ a b tk => some (0x21, issueWord 0x50 a b tk)
  | .vrcp _ a b tk => some (0x22, issueWord 0x50 a b tk)
  | .vrsqrt _ a b tk => some (0x23, issueWord 0x50 a b tk)
  | .vsqrt _ a b tk => some (0x24, issueWord 0x50 a b tk)
  | .vperm _ a b tk => some (0x30, issueWord 0x50 a b tk)
  | .vperm2 _ a b tk => some (0x31, issueWord 0x50 a b tk)
  | .vshuf _ a b tk => some (0x32, issueWord 0x50 a b tk)
  | .vpack _ a b tk => some (0x33, issueWord 0x50 a b tk)
  | .vunpack _ a b tk => some (0x34, issueWord 0x50 a b tk)
  | .vcvt _ a b tk => some (0x40, issueWord 0x50 a b tk)
  | .vmxq _ a b tk => some (0x41, issueWord 0x50 a b tk)
  | .vrstat _ a b tk => some (0x48, issueWord 0x50 a b tk)
  | .vaddr _ a b tk => some (0x50, issueWord 0x50 a b tk)
  | .vamaxput _ a b tk => some (0x58, issueWord 0x50 a b tk)
  | .vkhist _ a b tk => some (0x60, issueWord 0x50 a b tk)
  | .vksel _ a b tk => some (0x61, issueWord 0x50 a b tk)
  | .vldr _ a b tk => some (0x70, issueWord 0x50 a b tk)
  | .vstr _ a b tk => some (0x71, issueWord 0x50 a b tk)
  | .vtiesum _ a b tk => some (0x7F, issueWord 0x50 a b tk)
  | .ld _ o _ => some (0, memWord 0x60 o)
  | .st _ o => some (0, memWord 0x61 o)
  | .lds _ o _ => some (0, memWord 0x63 o)
  | .sts _ o => some (0, memWord 0x64 o)
  | .atomAdd _ o => some (0, atomWord 0x0 o)
  | .atomSmin _ o => some (0, atomWord 0x1 o)
  | .atomSmax _ o => some (0, atomWord 0x2 o)
  | .atomUmin _ o => some (0, atomWord 0x3 o)
  | .atomUmax _ o => some (0, atomWord 0x4 o)
  | .atomAnd _ o => some (0, atomWord 0x5 o)
  | .atomOr _ o => some (0, atomWord 0x6 o)
  | .atomXor _ o => some (0, atomWord 0x7 o)
  | .atomExch _ o => some (0, atomWord 0x8 o)
  | .atomCas _ o => some (0, atomWord 0x9 o)
  | .atomFadd _ o => some (0, atomWord 0xA o)
  | .atomXadd _ o => some (0, atomWord 0xB o)
  | .fence _ scope => some (0, ctlWord 0x80 0 false scope.toNat 0)
  | .bar _ a bid arriveOnly cnti imm => some (0, barWord a bid arriveOnly cnti imm)
  | .bra _ tgt => some (0, ctlWord 0xA0 0 false tgt.toNat 0)
  | .brs _ a cond tgt => some (0, ctlWord 0xA1 a cond tgt.toNat 0)
  | .brc _ a cond tgt join => some (0, ctlWord 0xA2 a cond tgt.toNat join.toNat)
  | .jmps _ a => some (0, ctlWord 0xA3 a false 0 0)
  | .waitc _ tk thr => some (0, ctlWord 0xA4 0 false tk.toNat thr.toNat)
  | .exitPath _ => some (0, ctlWord 0xA5 0 false 0 0)
  | .trap _ imm => some (0, ctlWord 0xA6 0 false 0 imm.toNat)
  | _ => none

end Sys2Proof.Machine
end

