-- ==== Sys2Proof/Machine/Operands.lean ====
section
/-!
DEFINITION. How a thread group issues: reconvergence stack, registers, source operands, the advance to the next word
(07 R186-R193, R201, R209, R216).
-/

namespace Sys2Proof.Machine

/-! Registers. -/

/-- Per-thread register `i` of a lane. -/
def GroupSt.vreg (g : GroupSt) (i lane : Nat) : BitVec 32 := tget g.v 0 (32 * i + lane)

/-- Scalar register `i`; s0 reads as zero (R188). -/
def GroupSt.sregAt (g : GroupSt) (i : Nat) : BitVec 64 := if i = 0 then 0 else tget g.sreg 0 i

/-- Writes per-thread register `i` of a lane. -/
def GroupSt.setV (g : GroupSt) (i lane : Nat) (x : BitVec 32) : GroupSt := { g with v := tset g.v (32 * i + lane) x }

/-- Writes scalar register `i`; a write to s0 is discarded (R188). -/
def GroupSt.setS (g : GroupSt) (i : Nat) (x : BitVec 64) : GroupSt :=
  if i = 0 then g else { g with sreg := tset g.sreg i x }

/-- A source for a lane of a per-thread instruction: a scalar gives its low 32 bits (R209). -/
def GroupSt.srcT (g : GroupSt) (x : BitVec 8) (lane : Nat) : Nat :=
  if isScalar x then (g.sregAt (specIdx x)).toNat % 2 ^ 32 else (g.vreg (specIdx x) lane).toNat

/-- A scalar source (R209). -/
def GroupSt.srcS (g : GroupSt) (x : BitVec 8) : Nat := (g.sregAt (specIdx x)).toNat

/-- The lanes of a mask, ascending. -/
def lanesOf (m : BitVec 32) : List Nat := (List.range 32).filter fun l => m.getLsbD l

/-- Writes a result to the active lanes of a per-thread register. -/
def GroupSt.putLanes (g : GroupSt) (i : Nat) (m : BitVec 32) (f : Nat → Nat) : GroupSt :=
  forL (lanesOf m) g fun l h => h.setV i l (BitVec.ofNat 32 (f l))

/-! Paths. -/

/-- One round of R191 before an issue: paths that are at their join or have no lane go, a join with nothing above it
becomes a path. -/
def settleOnce (l : List PathEnt) : List PathEnt :=
  match l.filter (fun e => e.join || !(e.rpc == some e.pc || e.mask == 0)) with
  | [] => []
  | e :: r => { e with join := false } :: r

/-- The stack before an issue (R191). -/
def settle (l : List PathEnt) : List PathEnt := (List.range (l.length + 1)).foldl (fun a _ => settleOnce a) l

/-- The lanes of a group that wait at a barrier (R191, R194). -/
def waitingLanes (k : KernSt) (group : Nat) : BitVec 32 :=
  k.barriers.foldl (fun a b => (b.2.waiting.filter fun w => w.1 == group).foldl (fun m w => m ||| w.2) a) 0

/-- Whether an entry is a path with a lane that waits at no barrier. -/
def runnable (w : BitVec 32) (e : PathEnt) : Bool := !e.join && (e.mask &&& ~~~w != 0)

/-- What a group issues on: its kernel, the group, the entries above the running path, the path, and those below. -/
structure Issue where
  k : KernSt
  g : GroupSt
  above : List PathEnt
  cur : PathEnt
  below : List PathEnt
deriving DecidableEq, Repr

/-- The path of a group that runs (R191): the topmost one with a lane that is not waiting at a barrier. -/
def State.running (s : State) (t : At) : Option Issue :=
  match s.kern t.core, s.group t with
  | some k, some g =>
    let st := settle g.stack
    let w := waitingLanes k t.group
    match st.dropWhile (fun e => !runnable w e) with
    | [] => none
    | e :: r => some { k := k, g := g, above := st.takeWhile (fun e => !runnable w e), cur := e, below := r }
  | _, _ => none

/-- The specifiers that a register group covers. -/
def specGroup (x n : Nat) : List Nat := (List.range n).map fun i => x + i

/-- Registers that a part of a load or returning atomic will write. -/
def partRegs (p : AccPart) : List Nat :=
  if 128 ≤ p.reg then specGroup p.reg ((p.size + 7) / 8) else specGroup p.reg ((p.size + 3) / 4)

/-- Whether any of a group's registers awaits a result (R186, R187). s0 never does. -/
def State.awaits (s : State) (t : At) (launch : Nat) (specs : List Nat) : Bool :=
  (s.core t.core).acc.any fun a =>
    a.group == t.group && a.launch == launch && (a.kind == .load || a.ret) &&
      a.parts.any fun p => (partRegs p).any fun r => r != 128 && specs.contains r

/-- A group ready to issue an instruction that reads these registers (R186): not at a fence, with a path to run. -/
def State.ready (s : State) (t : At) (srcs : List Nat) : Option Issue :=
  match s.running t with
  | none => none
  | some i => if i.cur.fence.isSome || s.awaits t i.k.launch srcs then none else some i

/-- Runs an instruction's effect if its group is ready; a group that is not ready waits (R186). -/
def State.issue (s : State) (t : At) (srcs : List Nat) (f : Issue → State) : State :=
  match s.ready t srcs with
  | none => s
  | some i => f i

/-- The running path with another program counter. -/
def Issue.at (i : Issue) (pc : Nat) : GroupSt → GroupSt := fun g =>
  { g with stack := i.above ++ { i.cur with pc := pc } :: i.below }

/-- The path goes to `pc`; at or past the code's end, or before its start, the kernel is aborted with `JUMP_TARGET`
(R216). `g` is the group with the instruction's writes. -/
def State.goto (s : State) (t : At) (i : Issue) (g : GroupSt) (pc : Int) : State :=
  let s := s.setGroup t (i.at pc.toNat g)
  if 0 ≤ pc ∧ pc < i.k.codeBytes then s
  else s.abortGroup t i.cur.pc i.cur.mask 0x0386

/-- The path goes to the next word. -/
def State.next (s : State) (t : At) (i : Issue) (g : GroupSt) : State := s.goto t i g (i.cur.pc + 8)

/-! Arithmetic. -/

/-- Operand B: the immediate, sign-extended for an integer, the upper half of an FP32 value for a float (R208, R209). -/
def immOperand (op w : Nat) (imm : BitVec 16) : Nat :=
  if 0x20 ≤ op ∧ op < 0x30 then imm.toNat * 2 ^ 16
  else unsignedOf w imm.toInt

/-- The registers that an arithmetic instruction reads. -/
def arithSrcs (op : Nat) (o : ArithOp) : List Nat :=
  match arithUse op with
  | none => []
  | some u =>
    (if u.a then [o.a.toNat] else []) ++ (if u.b && !o.immf then [o.b.toNat] else []) ++ (if u.c then [o.c.toNat] else [])

/-- The group after an arithmetic instruction (R209): 64 bits once for a scalar destination, 32 bits on each active
lane for a per-thread one. -/
def arithWrite (g : GroupSt) (m : BitVec 32) (op : Nat) (o : ArithOp) (f : Alu) : GroupSt :=
  if isScalar o.dst then
    let b := if o.immf then immOperand op 64 o.imm else g.srcS o.b
    g.setS (specIdx o.dst) (BitVec.ofNat 64 (f 64 o.cc.toNat (g.srcS o.a) b (g.srcS o.c)))
  else
    g.putLanes (specIdx o.dst) m fun l =>
      let b := if o.immf then immOperand op 32 o.imm else g.srcT o.b l
      f 32 o.cc.toNat (g.srcT o.a l) b (g.srcT o.c l)

/-- One ordinary arithmetic instruction: opcode and what it computes. A word that R218 refuses never runs. -/
def State.arith (s : State) (t : At) (op : Nat) (o : ArithOp) (f : Alu) : State :=
  if arithOk op o then s.issue t (arithSrcs op o) fun i => s.next t i (arithWrite i.g i.cur.mask op o f) else s

/-! Addresses of thread memory instructions (R201). -/

/-- The address of a lane. -/
def GroupSt.laneAddr (g : GroupSt) (a b : BitVec 8) (off : BitVec 16) (lane : Nat) : Nat :=
  let x := if isScalar b then (g.sregAt (specIdx b)) else (g.vreg (specIdx b) lane).signExtend 64
  ((g.sregAt (specIdx a)) + x + off.signExtend 64).toNat

/-- The address of a scalar load or store, whose `SRC_B` is zero (R212). -/
def GroupSt.scalarAddr (g : GroupSt) (a : BitVec 8) (off : BitVec 16) : Nat :=
  ((g.sregAt (specIdx a)) + off.signExtend 64).toNat

end Sys2Proof.Machine
end

