-- ==== Sys2Proof/Machine/Arith.lean ====
section
/-!
DEFINITION. The arithmetic instructions (07 R190, R208-R210).
-/

namespace Sys2Proof.Machine

/-- `NOP`: the path goes on. -/
def execNop (t : At) (o : ArithOp) (s : State) : Result :=
  .next (if arithOk 0x00 o then s.issue t [] fun i => s.next t i i.g else s)

/-- `MOV`: d = a. -/
def execMov (t : At) (o : ArithOp) (s : State) : Result := .next (s.arith t 0x01 o fun _ _ a _ _ => a)

/-- `MOVI`: d = the immediate, sign-extended. -/
def execMovi (t : At) (dst : BitVec 8) (imm : BitVec 32) (s : State) : Result :=
  .next (if specOk dst then
      s.issue t [] fun i => s.next t i
        (if isScalar dst then i.g.setS (specIdx dst) (imm.signExtend 64)
         else i.g.putLanes (specIdx dst) i.cur.mask fun _ => imm.toNat)
    else s)

/-- `MOVHI`: d[63:32] = the immediate, d[31:0] kept; a scalar destination only. -/
def execMovhi (t : At) (dst : BitVec 8) (imm : BitVec 32) (s : State) : Result :=
  .next (if scalarOk dst then
      s.issue t [dst.toNat] fun i => s.next t i
        (i.g.setS (specIdx dst) (BitVec.ofNat 64 (imm.toNat * 2 ^ 32 + i.g.srcS dst % 2 ^ 32)))
    else s)

/-- A special register for a lane (R190). `SR_CYCLES` is a free value: the model has no clock. -/
def State.special (s : State) (t : At) (k : KernSt) (idx lane : Nat) : Nat :=
  match idx with
  | 0x1 => lane
  | 0x2 => t.group
  | 0x3 => k.nGroups
  | 0x4 => t.core
  | 0x5 => t.core % 16
  | 0x6 => t.core / 16
  | 0x7 => k.berth
  | 0x8 => s.nodeId
  | 0x9 => k.rank
  | 0xA => k.nCores
  | 0xB => k.argLm
  | 0xC => (Config.freeBits 64 s.free).toNat
  | 0xD => k.tally
  | _ => k.kseq

/-- `MOVSP`: d = a special register. -/
def execMovsp (t : At) (o : ArithOp) (s : State) : Result :=
  .next (if arithOk 0x04 o then
      s.issue t [] fun i =>
        let idx := o.imm.toNat
        let g := if isScalar o.dst then i.g.setS (specIdx o.dst) (BitVec.ofNat 64 (s.special t i.k idx 0))
          else i.g.putLanes (specIdx o.dst) i.cur.mask fun l => s.special t i.k idx l
        (if idx = 0xC then s.nextFree else s).next t i g
    else s)

/-- `IADD`: a + b. -/
def execIadd (t : At) (o : ArithOp) (s : State) : Result := .next (s.arith t 0x08 o fun _ _ a b _ => a + b)

/-- `ISUB`: a − b. -/
def execIsub (t : At) (o : ArithOp) (s : State) : Result :=
  .next (s.arith t 0x09 o fun w _ a b _ => a + 2 ^ w - b % 2 ^ w)

/-- `IMUL`: the low half of a × b. -/
def execImul (t : At) (o : ArithOp) (s : State) : Result := .next (s.arith t 0x0A o fun _ _ a b _ => a * b)

/-- `IMULHU`: the high half of the unsigned a × b. -/
def execImulhu (t : At) (o : ArithOp) (s : State) : Result :=
  .next (s.arith t 0x0B o fun w _ a b _ => a % 2 ^ w * (b % 2 ^ w) / 2 ^ w)

/-- `IMAD`: the low half of a × b + c. -/
def execImad (t : At) (o : ArithOp) (s : State) : Result := .next (s.arith t 0x0C o fun _ _ a b c => a * b + c)

/-- `IMIN`: the signed minimum. -/
def execImin (t : At) (o : ArithOp) (s : State) : Result :=
  .next (s.arith t 0x0D o fun w _ a b _ => aluExtreme true w a b)

/-- `IMAX`: the signed maximum. -/
def execImax (t : At) (o : ArithOp) (s : State) : Result :=
  .next (s.arith t 0x0E o fun w _ a b _ => aluExtreme false w a b)

/-- `AND`. -/
def execAndb (t : At) (o : ArithOp) (s : State) : Result := .next (s.arith t 0x10 o fun _ _ a b _ => a &&& b)

/-- `OR`. -/
def execOrb (t : At) (o : ArithOp) (s : State) : Result := .next (s.arith t 0x11 o fun _ _ a b _ => a ||| b)

/-- `XOR`. -/
def execXorb (t : At) (o : ArithOp) (s : State) : Result := .next (s.arith t 0x12 o fun _ _ a b _ => a ^^^ b)

/-- `SHL`: a shifted left by b modulo the width. -/
def execShl (t : At) (o : ArithOp) (s : State) : Result :=
  .next (s.arith t 0x13 o fun w _ a b _ => a * 2 ^ (b % w))

/-- `SHR`: a shifted right by b modulo the width. -/
def execShr (t : At) (o : ArithOp) (s : State) : Result :=
  .next (s.arith t 0x14 o fun w _ a b _ => a % 2 ^ w / 2 ^ (b % w))

/-- `SAR`: a shifted right by b modulo the width, keeping its sign. -/
def execSar (t : At) (o : ArithOp) (s : State) : Result :=
  .next (s.arith t 0x15 o fun w _ a b _ => unsignedOf w (signedOf w a / (2 ^ (b % w) : Nat)))

/-- `POPC`: set bits of a. -/
def execPopc (t : At) (o : ArithOp) (s : State) : Result := .next (s.arith t 0x16 o fun w _ a _ _ => popCount w a)

/-- `CLZ`: leading zeros of a. -/
def execClz (t : At) (o : ArithOp) (s : State) : Result := .next (s.arith t 0x17 o fun w _ a _ _ => leadZeros w a)

/-- `ISET`: 1 if a `CC` b. -/
def execIset (t : At) (o : ArithOp) (s : State) : Result :=
  .next (s.arith t 0x18 o fun w cc a b _ => if intCond cc w a b then 1 else 0)

/-- `SEL`: a if c is not zero, else b. -/
def execSel (t : At) (o : ArithOp) (s : State) : Result :=
  .next (s.arith t 0x19 o fun _ _ a b c => if c ≠ 0 then a else b)

/-- `FADD`: a + b. -/
def execFadd (t : At) (o : ArithOp) (s : State) : Result :=
  .next (s.arith t 0x20 o fun _ _ a b _ => fp32Out (addVal (fp32Val a) (fp32Val b)))

/-- `FSUB`: a − b. -/
def execFsub (t : At) (o : ArithOp) (s : State) : Result :=
  .next (s.arith t 0x21 o fun _ _ a b _ => fp32Out (addVal (fp32Val a) (negVal (fp32Val b))))

/-- `FMUL`: a × b. -/
def execFmul (t : At) (o : ArithOp) (s : State) : Result :=
  .next (s.arith t 0x22 o fun _ _ a b _ => fp32Out (mulVal (fp32Val a) (fp32Val b)))

/-- `FFMA`: a × b + c with one rounding. -/
def execFfma (t : At) (o : ArithOp) (s : State) : Result :=
  .next (s.arith t 0x23 o fun _ _ a b c => fp32Out (addVal (mulVal (fp32Val a) (fp32Val b)) (fp32Val c)))

/-- `FMIN`. -/
def execFmin (t : At) (o : ArithOp) (s : State) : Result := .next (s.arith t 0x24 o fun _ _ a b _ => fp32Pick true a b)

/-- `FMAX`. -/
def execFmax (t : At) (o : ArithOp) (s : State) : Result := .next (s.arith t 0x25 o fun _ _ a b _ => fp32Pick false a b)

/-- `FSET`: 1 if a `CC` b. -/
def execFset (t : At) (o : ArithOp) (s : State) : Result :=
  .next (s.arith t 0x26 o fun _ cc a b _ => if floatCond cc a b then 1 else 0)

/-- `I2F`: a signed integer to FP32. -/
def execI2f (t : At) (o : ArithOp) (s : State) : Result :=
  .next (s.arith t 0x27 o fun w _ a _ _ => intToFp32 (signedOf w a))

/-- `F2I`: FP32 to a signed 32-bit integer; a scalar destination is sign-extended. -/
def execF2i (t : At) (o : ArithOp) (s : State) : Result :=
  .next (s.arith t 0x28 o fun w _ a _ _ => unsignedOf w (fp32ToInt a))

/-- The lanes of a mask on which a per-thread register is not zero. -/
def nonZeroLanes (g : GroupSt) (x : BitVec 8) (m : BitVec 32) : List Nat :=
  (lanesOf m).filter fun l => g.vreg (specIdx x) l != 0

/-- The result of `VOTE` by its mode: ANY, ALL, BALLOT. -/
def voteResult (g : GroupSt) (x : BitVec 8) (m : BitVec 32) (mode : Nat) : Nat :=
  let l := nonZeroLanes g x m
  match mode with
  | 0 => if l.isEmpty then 0 else 1
  | 1 => if l.length = (lanesOf m).length then 1 else 0
  | _ => l.foldl (fun a i => a + 2 ^ i) 0

/-- `VOTE`. -/
def execVote (t : At) (o : ArithOp) (s : State) : Result :=
  .next (if arithOk 0x30 o then
      s.issue t [o.a.toNat] fun i => s.next t i
        (i.g.setS (specIdx o.dst) (BitVec.ofNat 64 (voteResult i.g o.a i.cur.mask o.imm.toNat)))
    else s)

/-- `V2S`: the per-thread register of one lane into a scalar. -/
def execV2s (t : At) (o : ArithOp) (s : State) : Result :=
  .next (if arithOk 0x31 o then
      s.issue t (arithSrcs 0x31 o) fun i =>
        let l := (if o.immf then o.imm.toNat else i.g.srcS o.b) % 32
        s.next t i (i.g.setS (specIdx o.dst) ((i.g.vreg (specIdx o.a) l).zeroExtend 64))
    else s)

/-- `SHFL`: each active lane reads the register of another lane, active or not. -/
def execShfl (t : At) (o : ArithOp) (s : State) : Result :=
  .next (if arithOk 0x32 o then
      s.issue t (arithSrcs 0x32 o) fun i => s.next t i
        (i.g.putLanes (specIdx o.dst) i.cur.mask fun l =>
          let from_ := (if o.immf then o.imm.toNat else (i.g.vreg (specIdx o.b) l).toNat) % 32
          (i.g.vreg (specIdx o.a) from_).toNat)
    else s)

end Sys2Proof.Machine
end

