-- ==== Sys2Proof/Machine/Home.lean ====
section
/-!
DEFINITION. What a home does with a store, an atomic or a memory-side add: the write-combining buffer, the adders and
their counts (07 R213, 08 R223-R226, 09 R263-R269).
-/

namespace Sys2Proof.Machine

/-- The channel of a stacked-memory address: stack and logical channel. -/
def chanAt (pa : Nat) : Option (Nat × Nat) :=
  match regionOf pa with
  | .stack d off => some (d, chanOf off)
  | _ => none

/-- Whether a home can accept a store to a line: an entry of its write-combining buffer holds the line, or one of the
64 is free (R266). A stalled channel accepts stores into the buffer alone. -/
def State.wcbRoom (s : State) (pa : Nat) : Bool :=
  match chanAt pa with
  | none => true
  | some (d, c) =>
    let w := (s.chan d c).wcb
    decide (w.length < 64) || w.any fun e => e.line == pa / 64

/-- An entry after bytes of its line were stored: full once every byte is valid (R266). -/
def wcbMerge (e : WcbEnt) (m : BitVec 64) : WcbEnt :=
  let mask := e.mask ||| m
  { e with mask := mask, st := if e.st = .accumulating then .accumulating else if mask = BitVec.allOnes 64 then .full else .partly }

/-- The mask of `n` bytes from an address on, in their line. -/
def lineMask (pa n : Nat) : BitVec 64 := (BitVec.allOnes 64 >>> (64 - n)) <<< (pa % 64)

/-- A line of stacked memory enters the write-combining buffer (R265-R267). -/
def State.wcbNote (s : State) (pa n : Nat) (add : Bool) : State :=
  match chanAt pa with
  | none => s
  | some (d, c) =>
    s.modChan d c fun x =>
      let fresh : WcbEnt := { line := pa / 64, st := if add then .accumulating else .partly,
                              mask := if add then BitVec.allOnes 64 else 0 }
      let upd := fun (e : WcbEnt) => if add then { e with st := .accumulating, mask := BitVec.allOnes 64 }
        else wcbMerge e (lineMask pa n)
      { x with wcb := if x.wcb.any fun e => e.line == pa / 64 then lmodFirst x.wcb (fun e => e.line == pa / 64) upd
        else x.wcb ++ [upd fresh] }

/-- A store within one line, accepted at its home (R224, R263, R266). -/
def State.homeStore (s : State) (pa : Nat) (bs : Bytes) (marked : Bool := false) : State :=
  (s.memWrite pa bs marked).wcbNote pa bs.length false

/-- The integer operations by `AOP` on `w` bits (R213): the new value. -/
def intAtomic (aop w old a b : Nat) : Nat :=
  let o := old % 2 ^ w
  let x := a % 2 ^ w
  match aop with
  | 0x0 => (o + x) % 2 ^ w
  | 0x1 => if signedOf w x < signedOf w o then x else o
  | 0x2 => if signedOf w o < signedOf w x then x else o
  | 0x3 => min o x
  | 0x4 => max o x
  | 0x5 => o &&& x
  | 0x6 => o ||| x
  | 0x7 => o ^^^ x
  | 0x8 => x
  | _ => if o = x then b % 2 ^ w else o

/-- A rounded-float add to an element (R267): the exact sum rounded to nearest even, overflow to infinity. -/
def floatAdd (f : Fmt) (old a : Nat) : Nat := arithOut (addVal (decodeElem f old) (decodeElem f a)) f false false

/-- What an add does to an element of `bytes` bytes: new value, and whether a value of it is not finite. -/
structure AddOp where
  bytes : Nat
  f : Nat → Nat
  bad : Nat → Bool := fun _ => false

/-- An integer atomic of `n` bytes. -/
def intOpOf (aop n a b : Nat) : AddOp := { bytes := n, f := fun o => intAtomic aop (8 * n) o a b }

/-- A rounded-float add in a format. -/
def floatOpOf (f : Fmt) (a : Nat) : AddOp :=
  { bytes := fmtBits f / 8, f := fun o => floatAdd f o a, bad := fun o => valNonFinite (decodeElem f o) }

/-- An exact-float add of an element of a format, scaled by `2^k`, to a cell (R54, R268). -/
def cellOpOf (v : Val) (k : Int) : AddOp :=
  { bytes := 16, f := fun o => laAdd o v k, bad := fun o => decide (o % 2 ^ 128 = laMarker) }

/-- The operation of a thread's atomic (R213): `AOP`, size in bytes, `XFMT` and the two operands. -/
def atomicOp (aop n xfmt a b : Nat) : AddOp :=
  if aop = 0xA then floatOpOf .fp32 a
  else if aop = 0xB then cellOpOf (decodeElem ((fmtOfCode xfmt).getD .e4m3) a) (signedOf 8 b)
  else intOpOf aop n a b

/-- An atomic or memory-side add at its home, for a berth: the state, and the value found. A poisoned line stays as it is,
and all-ones are returned (R263); an element that leaves the finite values is counted (R269). -/
def State.homeAdd (s : State) (berth : Option Nat) (reader pa : Nat) (op : AddOp) : State × Nat :=
  if s.mem.marked pa then (s.poisonRead berth reader (pa / 64 * 64), 2 ^ (8 * op.bytes) - 1)
  else
    let old := s.mem.num pa op.bytes
    let new := op.f old
    let s1 := { s with mem := s.mem.write pa (leBytes op.bytes new) false }.wcbNote pa op.bytes true
    let s2 := match berth with
      | some b => if !op.bad old && op.bad new then s1.count b 2 1 else s1
      | none => s1
    (s2, old)

end Sys2Proof.Machine
end

