-- ==== Sys2Proof/Machine/ControlSpace.lean ====
section
/-!
DEFINITION. The control pages that face a berth's kernels: mailboxes and doorbells (15 R457-R461) and the post register
(11 R321).
-/

namespace Sys2Proof.Machine

/-- Whether a mailbox has a server (R457): the module, the kernels of a berth, or of the berth it is assigned to. -/
def State.mbServed (s : State) (m : Nat) : Bool :=
  if m < 96 then decide ((s.berth (m / 4)).life ≠ .absent)
  else if m < 98 then true
  else (s.mb m).assigned.isSome

/-- Offset 0x84 of a mailbox (R458). -/
def State.mbStatus (s : State) (m : Nat) : Nat :=
  let b := s.mb m
  (if b.busy then 1 else 0) + (if b.collide then 2 else 0) + (if s.mbServed m then 4 else 0) + b.outWords % 16 * 2 ^ 8 +
    b.collisions % 2 ^ 16 * 2 ^ 16

/-- A word of a mailbox's block as a kernel reads it (R459). `DBL_SET` is write-only: what a read of it gives is open. -/
def State.mbKernelWord (s : State) (m i : Nat) : Nat :=
  let b := s.mb m
  if i < 16 then (tget b.inp 0 i).toNat
  else if i < 32 then (tget b.outp 0 (i - 16)).toNat
  else if i = 32 then b.nwords + b.tag * 2 ^ 8
  else if i = 33 then s.mbStatus m
  else if i = 34 then b.code % 2 ^ 16 + b.ackTag % 256 * 2 ^ 16
  else if i = 36 then b.dblMask.toNat
  else (Config.freeBits 32 (s.free + i)).toNat

/-- An answer to a request: code, words minus one, `BUSY` cleared, doorbell bit 0 set (R459, R461). -/
def State.mbAnswer (s : State) (m code outWords : Nat) : State :=
  if (s.mb m).busy then
    (s.modMb m fun x => { x with busy := false, code := code % 2 ^ 16, outWords := outWords % 16, ackTag := x.tag }).ring m 1
  else s

/-- An answer of the module with its words. -/
def State.mbReply (s : State) (m code : Nat) (words : List Nat) : State :=
  (s.modMb m fun x => { x with outp := words.zipIdx.foldl (fun t w => tset t w.2 (BitVec.ofNat 32 w.1)) x.outp }).mbAnswer m
    code (words.length - 1)

/-- A kernel's write of a word of a mailbox's block (R459). -/
def State.mbKernelWrite (s : State) (m i v : Nat) : State :=
  if 16 ≤ i ∧ i < 32 then s.modMb m fun x => { x with outp := tset x.outp (i - 16) (BitVec.ofNat 32 v) }
  else if i = 34 then s.mbAnswer m (v % 2 ^ 16) (v / 2 ^ 24 % 16)
  else if i = 35 then s.ring m (BitVec.ofNat 32 v &&& 0xFFFFFFFE)
  else s

/-- The mailbox that an offset of a berth's kernel mailbox page names (R457): its own three, or one assigned to it. -/
def State.pageMailbox (s : State) (b off : Nat) : Option Nat :=
  let j := off / 256
  if 1 ≤ j ∧ j ≤ 3 then some (4 * b + j)
  else if 4 ≤ j ∧ j < 34 ∧ (s.mb (94 + j)).assigned = some b then some (94 + j)
  else none

/-- Bytes that a kernel of a berth reads from a control page. Where no register answers they are open. -/
def State.controlRead (s : State) (b off n : Nat) : Bytes :=
  if mailboxOff ≤ off ∧ off < mailboxOff + 0x4000 then
    let o := off - mailboxOff
    match s.pageMailbox b o with
    | some m => ((List.range 64).flatMap fun i => leBytes 4 (s.mbKernelWord m i)).drop (o % 256) |>.take n
    | none => leBytes n (Config.freeBits (8 * n) s.free).toNat
  else leBytes n (Config.freeBits (8 * n) s.free).toNat

/-- Whether a control page accepts a store now: the post queue holds 64 posts (11 R321). -/
def State.controlRoom (s : State) (die off : Nat) : Bool :=
  if postOff ≤ off ∧ off < postOff + 0x1000 then decide ((s.exch die).posts.length < 64) else true

/-- A post at a die's post register: the first 64 stand in the queue, a later one waits behind them and is accepted when an
entry frees (11 R321). -/
def State.post (s : State) (die : Nat) (v : BitVec 64) : State := s.modExch die fun x => { x with posts := x.posts ++ [v] }

/-- A store of a kernel of a berth to a control page of a die. A mailbox takes whole words; the post register an
8-byte value at its first address. -/
def State.controlWrite (s : State) (b die off : Nat) (bs : Bytes) : State :=
  if mailboxOff ≤ off ∧ off < mailboxOff + 0x4000 then
    let o := off - mailboxOff
    match s.pageMailbox b o with
    | none => s
    | some m =>
      forL (List.range ((bs.length + o % 4 + 3) / 4)) s fun i t =>
        let w := o % 256 / 4 + i
        let old := leBytes 4 (if 16 ≤ w ∧ w < 32 then t.mbKernelWord m w else 0)
        let new := (List.range 4).map fun k =>
          let q := 4 * i + k
          if o % 4 ≤ q ∧ q - o % 4 < bs.length then bs.getD (q - o % 4) 0 else old.getD k 0
        t.mbKernelWrite m w (leNat new)
  else if off = postOff ∧ bs.length = 8 then s.post die (BitVec.ofNat 64 (leNat bs))
  else s

end Sys2Proof.Machine
end

