-- ==== Sys2Proof/Machine/Exchange.lean ====
section
/-!
DEFINITION. The exchange engines (11_gradient_exchange.md): posts, contributions, shards, results, digests, deadlines.
-/

namespace Sys2Proof.Machine

/-! Buckets, groups, shards (R315-R320). -/

/-- The settings 0xB000 to 0xB010 in force for a berth (R340). -/
def State.exchSet (s : State) (b index : Nat) : Nat := tget (s.berth b).exch (if index = 0xB003 then 1000 else 0) index

/-- A bucket descriptor (R316). -/
structure Bkt where
  en : Bool
  mode : Nat
  srec : Bool
  group : Nat
  elems : Nat
  src : Nat
  res : Nat
  rem : Nat
  dig : Nat
  cell : Nat
  scale : Int
  resScale : Int
  scaleRec : Nat
  keep : Nat
deriving DecidableEq, Repr

/-- Word `i` of a descriptor. -/
def bktWord (d : Bytes) (i : Nat) : Nat := leAt d (8 * i) 8

/-- The fields of a bucket descriptor. -/
def bktOf (d : Bytes) : Bkt :=
  { en := bitOf (bktWord d 0) 0, mode := bitsOf (bktWord d 0) 1 1, srec := bitOf (bktWord d 0) 2,
    group := bitsOf (bktWord d 0) 13 8, elems := bitsOf (bktWord d 0) 45 16, src := bitsOf (bktWord d 1) 56 0,
    res := bitsOf (bktWord d 2) 56 0, rem := bitsOf (bktWord d 3) 56 0, dig := bitsOf (bktWord d 4) 56 0,
    cell := bitsOf (bktWord d 5) 39 0, scale := signedOf 8 (bktWord d 6), resScale := signedOf 8 (bktWord d 6 / 256),
    scaleRec := bitsOf (bktWord d 6) 31 16, keep := bitsOf (bktWord d 6) 61 32 }

/-- Whether a descriptor keeps R316 (`EXCH_DESC_FORM`). -/
def bktFormOk (d : Bytes) : Bool :=
  let k := bktOf d
  bitsOf (bktWord d 0) 7 3 == 0 && bitsOf (bktWord d 0) 15 14 == 0 && bitsOf (bktWord d 0) 63 46 == 0 &&
    (List.range 4).all (fun i => bitsOf (bktWord d (i + 1)) 63 57 == 0) && bitsOf (bktWord d 5) 63 40 == 0 &&
    bitsOf (bktWord d 6) 63 62 == 0 && bktWord d 7 == 0 && decide (1 ≤ k.elems) && decide (k.elems ≤ 536870912) &&
    k.src % 64 == 0 && k.res % 64 == 0 && k.rem % 64 == 0 && k.dig % 128 == 0 && k.cell % 16384 == 0 &&
    (if k.mode = 0 then k.keep == 0 && k.rem == 0
     else decide (1 ≤ k.keep) && decide (k.keep ≤ 536870912) && k.rem != 0)

/-- Whether a scale lies between -16 and +8. -/
def exchScaleOk (x : Int) : Bool := decide (-16 ≤ x) && decide (x ≤ 8)

/-- Shard length L of a bucket over `p` members (R317). -/
def shardLen (elems p : Nat) : Nat := 256 * ((elems + 256 * p - 1) / (256 * p))

/-- The length of shard `s` (R317). -/
def shardElems (elems p s : Nat) : Nat := min (shardLen elems p) (elems - s * shardLen elems p)

/-- The rank that owns shard `s` of bucket `i` (R317). -/
def shardOwner (p s i : Nat) : Nat := (s + i) % p

/-- The shard of bucket `i` that rank `o` owns. -/
def ownShard (p o i : Nat) : Nat := (o + (p - i % p)) % p

/-- The bytes of a shard record, rounded up to 16 KiB (R320). -/
def recordBytes (p ls : Nat) : Nat := (16 * ls + 4 * p + 8 * ((p + 63) / 64) + 16383) / 16384 * 16384

/-- This module's node id in member words: 0 where no plan gives one. -/
def State.memberNode (s : State) : Nat := if s.nodeId = 0xFFFF then 0 else s.nodeId

/-- Everything the engine of a die knows of a bucket that passes R324. -/
structure ExCtx where
  b : Nat
  die : Nat
  i : Nat
  k : Bkt
  p : Nat
  rank : Nat
  members : List Nat
  tag : Nat
  /-- Virtual address of the own shard's record. -/
  store : Nat
  /-- The bucket scale. -/
  scale : Int
deriving DecidableEq, Repr

/-- The tag of a bucket (R318). -/
def bucketTag (members : Bytes) (k : Bkt) : Nat :=
  leAt (sha384 (members ++ leBytes 4 k.elems ++ leBytes 1 k.mode ++ leBytes 4 k.keep ++
    leBytes 1 (unsignedOf 8 k.resScale))) 0 4

/-- The descriptor of a bucket. -/
def State.bktBytes (s : State) (b i : Nat) : Option Bytes := s.readVirt b (s.exchSet b 0xB000 + 64 * i) 64

/-- The member list of a group, if group header and list keep R315. -/
def State.groupMembers (s : State) (b g : Nat) : Option Bytes :=
  match s.readVirt b (s.exchSet b 0xB002 + 16 * g) 16 with
  | none => none
  | some h =>
    let va := leAt h 0 8
    let p := leAt h 8 4
    if va = 0 ∨ va % 64 ≠ 0 ∨ 2 ^ 57 ≤ va ∨ p = 0 ∨ 98304 < p ∨ leAt h 12 4 ≠ 0 then none else s.readVirt b va (4 * p)

/-- Member words as numbers. -/
def memberWords (l : Bytes) : List Nat := (List.range (l.length / 4)).map fun m => leAt l (4 * m) 4

/-- Whether member words keep R315: reserved bits zero, dies 0 to 23, none twice. -/
def membersOk (l : List Nat) : Bool := l.all (fun w => decide (w < 2 ^ 17) && decide (w / 4096 < 24)) && l.eraseDups.length == l.length

/-- Whether a virtual range lies in this module with the permissions needed. -/
def State.exchRange (s : State) (b va n : Nat) (read write : Bool) : Bool :=
  (!read || (s.localRange b va n false).isSome) && (!write || (s.localRange b va n true).isSome)

/-- The area entry of a die's engine: base of its cell store, or `none` where it breaks R319. -/
def State.exchStore (s : State) (b d : Nat) : Option (Nat × Nat) :=
  let pos := ((s.berth b).dies.takeWhile fun x => x != d).length
  match s.readVirt b (s.exchSet b 0xB010 + 64 * pos) 64 with
  | none => none
  | some e =>
    let onDie : Nat → Nat → Bool → Bool := fun va n dsm => match s.localRange b va n true with
      | none => false
      | some l => l.all fun p => match regionOf p.1 with
        | .dsm x _ => dsm && x == d
        | .stack x _ => !dsm && x == d
        | _ => false
    let cva := leAt e 0 8
    let cn := leAt e 8 8
    let sva := leAt e 16 8
    let sn := leAt e 24 8
    if cva % 16384 = 0 ∧ cn % 1048576 = 0 ∧ 4 * 1048576 ≤ cn ∧ cn ≤ 64 * 1048576 ∧ sva % 16384 = 0 ∧ sn % 16384 = 0 ∧
        leAt e 32 32 = 0 ∧ onDie cva cn true = true ∧ onDie sva sn false = true then some (sva, sn)
    else none

/-- The scale of a bucket: its own, or that of its scale record where that keeps R324. -/
def State.exchScale (s : State) (b : Nat) (k : Bkt) : Option Int :=
  if !exchScaleOk k.resScale then none
  else if k.srec then
    let kp := (s.berth b).keeper
    if kp.tblE ≤ k.scaleRec then none
    else
      match s.readVirt b (kp.tblBase + 64 * k.scaleRec) 64 with
      | none => none
      | some r =>
        let sc := signedOf 8 (leAt r 16 1)
        if leAt r 0 1 % 2 = 1 ∧ bitsOf (leAt r 0 8) 11 8 = 0xA ∧ exchScaleOk sc then some sc else none
  else if exchScaleOk k.scale then some k.scale else none

/-- The checks of R324 on a bucket for the engine of a die, in the order of their codes. -/
def State.exchCtx (s : State) (b d i : Nat) : Except Nat ExCtx :=
  if s.exchSet b 0xB001 ≤ i then .error 0x05C0
  else
    match s.bktBytes b i with
    | none => .error 0x05C1
    | some w =>
      let k := bktOf w
      if !k.en then .error 0x05C0
      else if !bktFormOk w then .error 0x05C1
      else
        match s.groupMembers b k.group with
        | none => .error 0x05C2
        | some l =>
          let ms := memberWords l
          let p := ms.length
          match ms.findIdx? fun x => x == s.memberNode + d * 4096 with
          | none => .error 0x05C2
          | some q =>
            if !membersOk ms then .error 0x05C2
            else if !(s.exchRange b k.src (2 * k.elems) true false && s.exchRange b k.res (2 * k.elems) false true &&
                (k.mode == 0 || s.exchRange b k.rem (4 * k.elems) true true) && s.exchRange b k.dig 128 true true) then
              .error 0x05C3
            else
              match s.exchStore b d with
              | none => .error 0x05C4
              | some (sva, sn) =>
                if sn < k.cell + recordBytes p (shardElems k.elems p (ownShard p q i)) then .error 0x05C4
                else
                  match s.exchScale b k with
                  | none => .error 0x05C5
                  | some sc => .ok { b := b, die := d, i := i, k := k, p := p, rank := q, members := ms,
                                     tag := bucketTag l k, store := sva + k.cell, scale := sc }

/-- The own shard of the engine's die. -/
def ExCtx.own (c : ExCtx) : Nat := ownShard c.p c.rank c.i

/-- The length of a shard. -/
def ExCtx.len (c : ExCtx) (sh : Nat) : Nat := shardElems c.k.elems c.p sh

/-- The first element of a shard in the bucket. -/
def ExCtx.base (c : ExCtx) (sh : Nat) : Nat := sh * shardLen c.k.elems c.p

/-- Contribution packets of a shard (R326, R327, R329). -/
def ExCtx.total (c : ExCtx) (sh : Nat) : Nat :=
  if c.k.mode = 0 then (c.len sh + 255) / 256 else (min c.k.keep (c.len sh) + 63) / 64

/-- A field of the bucket's record (R335). -/
def State.recField (s : State) (c : ExCtx) (o n : Nat) : Nat := (s.readVirt c.b (c.k.dig + o) n).elim 0 leNat

/-! Packets (R325). -/

/-- An exchange packet's header. -/
structure PktHdr where
  kind : Nat
  group : Nat
  scale : Int
  bucket : Nat
  count : Nat
  round : Nat
  rank : Nat
  shard : Nat
  offset : Nat
  total : Nat
  tag : Nat
deriving DecidableEq, Repr

/-- A packet without padding. -/
def pktBytes (h : PktHdr) (payload : Bytes) : Bytes :=
  leBytes 1 h.kind ++ leBytes 1 h.group ++ leBytes 1 (unsignedOf 8 h.scale) ++ [0] ++ leBytes 2 h.bucket ++
    leBytes 2 h.count ++ leBytes 4 h.round ++ leBytes 4 h.rank ++ leBytes 4 h.shard ++ leBytes 4 h.offset ++
    leBytes 4 h.total ++ leBytes 4 h.tag ++ payload

/-- The header fields of a packet. -/
def pktHdr (p : Bytes) : PktHdr :=
  { kind := leAt p 0 1, group := leAt p 1 1, scale := signedOf 8 (leAt p 2 1), bucket := leAt p 4 2, count := leAt p 6 2,
    round := leAt p 8 4, rank := leAt p 12 4, shard := leAt p 16 4, offset := leAt p 20 4, total := leAt p 24 4,
    tag := leAt p 28 4 }

/-- The unpadded payload of a packet. -/
def pktData (p : Bytes) : Bytes := (p.drop 32).take ((if leAt p 0 1 = 2 then 8 else 2) * leAt p 6 2)

/-- The hash of a packet (R337). -/
def pktHash (p : Bytes) : BitVec 128 := BitVec.ofNat 128 (leAt (sha384 (p.take 32 ++ pktData p)) 0 16)

/-! Rounds. -/

/-- The round of a bucket at an engine. -/
def State.round (s : State) (d i : Nat) : Option RoundSt := tfind (s.exch d).rounds i

/-- The state with the round of a bucket at an engine changed; a round not yet known starts as `r`. -/
def State.modRound (s : State) (d i r : Nat) (f : RoundSt → RoundSt) : State :=
  s.modExch d fun x => { x with rounds := tmod x.rounds { round := r } i f }

/-- Whether a round is in flight: posted, or begun by another member's packet. -/
def RoundSt.inFlight (r : RoundSt) : Bool := r.posted || decide (r.accepted ≠ 0)

/-- Whether any exchange round of a berth is in flight. -/
def State.exchBusy (s : State) (b : Nat) : Bool :=
  (s.berth b).dies.any fun d => (s.exch d).rounds.any fun r => r.2.inFlight

/-- An exchange event, once for each cause, bucket and round (R341). `names` are the ranks or shards it names. -/
def State.exchEvent (s : State) (b d i r code : Nat) (names : List Nat := []) : State :=
  if (s.round d i).elim false fun x => x.raised.contains code then s
  else
    let s := (s.modRound d i r fun x => { x with raised := x.raised ++ [code] }).berthEvent b code i d
    if names.isEmpty then s else s.emit { kind := .event, port := code, args := [b, i, d] ++ names }

/-- A packet dropped whole and counted (R329). -/
def State.exchDrop (s : State) (b d i r code : Nat) : State :=
  (s.modRound d i r fun x => { x with pktDrop := x.pktDrop + 1 }).exchEvent b d i r code

/-- Hands a packet to the member of a rank: the engine itself, an engine of this module, or another module. -/
def State.exchSend (s : State) (c : ExCtx) (rank : Nat) (pkt : Bytes) : State :=
  let m := c.members.getD rank 0
  let node := m % 4096
  let die := m / 4096
  if node = s.memberNode then s.modExch die fun x => { x with inbox := x.inbox ++ [pkt] }
  else
    let job := (s.berth c.b).job
    s.sendNumbered { unit := 0x200 + c.die, die := c.die, node := node, berth := c.b, subject := c.i } 8
      ((s.activePlan job).elim 2 fun p => leAt p 15 1) job die 0 0 pkt

/-! The owner (R329-R331, R334). -/

/-- Whether the bit of a sender is set in the own shard's record. -/
def State.senderDone (s : State) (c : ExCtx) (m : Nat) : Bool :=
  bitOf ((s.readVirt c.b (c.store + 16 * c.len c.own + 4 * c.p + m / 8) 1).elim 0 leNat) (m % 8)

/-- `REMAIN` of a sender. -/
def State.remain (s : State) (c : ExCtx) (m : Nat) : Nat := (s.readVirt c.b (c.store + 16 * c.len c.own + 4 * m) 4).elim 0 leNat

/-- The fault of a contribution packet, 0 if it is accepted (R329, R341). -/
def State.contribFault (s : State) (c : ExCtx) (p : Bytes) : Nat :=
  let h := pktHdr p
  let own := s.recField c 104 8
  let ls := c.len c.own
  let data := pktData p
  if h.round = own % 2 ^ 32 ∨ (h.round = (own + 1) % 2 ^ 32 ∧ h.rank < c.p ∧ s.senderDone c h.rank) then 0x05D2
  else if h.round ≠ (own + 1) % 2 ^ 32 then 0x05D1
  else if h.tag = c.tag ∧ h.kind = (if c.k.mode = 0 then 1 else 2) ∧ h.shard = c.own ∧ h.rank < c.p ∧ exchScaleOk h.scale ∧
      h.total = c.total c.own ∧ 1 ≤ h.count ∧ data.length = (if c.k.mode = 0 then 2 else 8) * h.count ∧
      (if c.k.mode = 0 then h.offset % 256 = 0 ∧ h.count ≤ 256 ∧ h.offset + h.count ≤ ls
       else h.count ≤ 64 ∧ h.offset < h.total ∧ (List.range h.count).all fun j => decide (leAt data (8 * j) 4 < ls)) then 0
  else 0x05D3

/-- Adds one value of a packet to its cell (R330). -/
def State.addCell (s : State) (c : ExCtx) (sc : Int) (e g : Nat) : State :=
  match s.localAddr c.b (c.store + 16 * e) true with
  | none => s
  | some pa => (s.homeAdd (some c.b) (0x200 + c.die) pa (cellOpOf (decodeElem .g16 g) sc)).1

/-- The values of a packet with their elements. -/
def pktValues (p : Bytes) : List (Nat × Nat) :=
  let h := pktHdr p
  let data := pktData p
  (List.range h.count).map fun j =>
    if h.kind = 2 then (leAt data (8 * j) 4, leAt data (8 * j + 4) 2) else (h.offset + j, leAt data (2 * j) 2)

/-- The sender's tracking after a packet (R330). The first packet of a sender finds `REMAIN` zero. -/
def State.trackSender (s : State) (c : ExCtx) (m total : Nat) : State :=
  let at_ := c.store + 16 * c.len c.own
  let r := s.remain c m
  let n := if r = 0 then total - 1 else r - 1
  let s := s.writeVirt c.b (at_ + 4 * m) (leBytes 4 n)
  if n = 0 then
    let o := at_ + 4 * c.p + m / 8
    let old := (s.readVirt c.b o 1).elim 0 leNat
    s.writeVirt c.b o (leBytes 1 (old ||| 2 ^ (m % 8)))
  else s

/-- Whether a G16 rounding of `m * 2^e` saturates (02 R64). -/
def g16Sat (m : Int) (e : Int) : Bool :=
  let t : Int := (Nat.log2 m.natAbs : Int) + e
  let q0 : Int := max t (1 - fmtBias .g16) - fmtMbits .g16
  let n := roundShift m.natAbs (e - q0) false
  let mx := fmtMaxFin .g16 (decide (m < 0))
  decide (m ≠ 0) && dyGt n q0 mx.1 mx.2

/-- The result of a cell: its G16 bits, and whether it saturated (R331). -/
def cellResult (bits : Nat) (resScale : Int) : Nat × Bool :=
  let c := cellOfMem bits
  ((cellRound c (-64) (-resScale) .g16 false false).getD 0xFFFF, !c.nan && g16Sat (cellInt c) (-64 - resScale))

/-- The packets of a shard's result (R326, R334). -/
def resultPackets (c : ExCtx) (round : Nat) (res : List Nat) : List Bytes :=
  (List.range ((res.length + 255) / 256)).map fun j =>
    let es := (res.drop (256 * j)).take 256
    pktBytes { kind := 4, group := c.k.group, scale := c.k.resScale, bucket := c.i, count := es.length, round := round % 2 ^ 32,
               rank := c.rank, shard := c.own, offset := 256 * j, total := (res.length + 255) / 256, tag := c.tag }
      (es.flatMap (leBytes 2))

/-- The result packets that a member must accept for a round: every packet of every non-empty shard. -/
def resultsDue (c : ExCtx) : List (Nat × Nat) :=
  (List.range c.p).flatMap fun sh => (List.range ((c.len sh + 255) / 256)).map fun j => (sh, 256 * j)

/-- The record's bytes 0 to 119 at the end of a round (R335, R336). -/
def roundRecord (r : RoundSt) (ownDone : Nat) : Bytes :=
  leBytes 16 r.dSent.toNat ++ leBytes 16 r.dRecv.toNat ++ leBytes 16 r.dGout.toNat ++ leBytes 16 r.dGin.toNat ++
    leBytes 4 r.pktSent ++ leBytes 4 r.pktDrop ++ leBytes 4 r.nonFinite ++ leBytes 4 r.sat ++ leBytes 4 r.pairs ++
    leBytes 2 0 ++ leBytes 1 (unsignedOf 8 r.scale) ++ zeros 9 ++ leBytes 8 r.tPost ++ leBytes 8 ownDone ++ zeros 8

/-- Ends a round that is complete (R336, R338). -/
def State.endRound (s : State) (c : ExCtx) : State :=
  match s.round c.die c.i with
  | none => s
  | some r =>
    if r.posted && r.owned && (resultsDue c).all fun x => r.got.contains x then
      let s := s.writeVirt c.b c.k.dig (roundRecord r (s.recField c 104 8))
      let s := s.writeVirt c.b (c.k.dig + 120) (leBytes 8 r.round)
      s.modExch c.die fun x => { x with
        rounds := tdel x.rounds c.i,
        run := [r.dSent, r.dRecv, r.dGout, r.dGin].zipIdx.foldl (fun t p => tmod t 0 p.2 (· + p.1)) x.run }
    else s

/-- The own shard of a round is complete: cells rounded, results written and sent, the record cleared, the owner round
raised (R331, R334). -/
def State.endShard (s : State) (c : ExCtx) (round : Nat) : State :=
  let n := c.len c.own
  let rs := (List.range n).map fun e => cellResult ((s.readVirt c.b (c.store + 16 * e) 16).elim 0 leNat) c.k.resScale
  let res := rs.map Prod.fst
  let pkts := resultPackets c round res
  let bad := (res.filter fun x => x == 0xFFFF).length
  let s := s.writeVirt c.b (c.k.res + 2 * c.base c.own) (res.flatMap (leBytes 2))
  let s := if n = 0 then s else s.writeVirt c.b c.store (zeros (16 * n + 4 * c.p + 8 * ((c.p + 63) / 64)))
  let s := (s.writeVirt c.b (c.k.dig + 104) (leBytes 8 round)).count c.b 2 bad
  let h := pkts.foldl (fun a p => a + pktHash p) 0
  let s := s.modRound c.die c.i round fun x => { x with
    owned := true, got := x.got ++ (pkts.map fun p => (c.own, (pktHdr p).offset)), dGin := x.dGin + h,
    dGout := x.dGout + h * BitVec.ofNat 128 c.p, nonFinite := bad, sat := (rs.filter Prod.snd).length }
  let s := forL (List.range (c.p - 1)) s fun j t =>
    forL pkts t fun p u => u.exchSend c ((c.rank + j + 1) % c.p) p
  s.endRound c

/-- An accepted contribution (R330, R331). -/
def State.takeContrib (s : State) (c : ExCtx) (p : Bytes) : State :=
  let h := pktHdr p
  let round := s.recField c 104 8 + 1
  let s := forL (pktValues p) s fun v t => t.addCell c h.scale v.1 v.2
  let s := s.modRound c.die c.i round fun x => { x with
    round := round, accepted := x.accepted + 1, dRecv := x.dRecv + pktHash p }
  let s := s.trackSender c h.rank h.total
  if (List.range c.p).all fun m => s.senderDone c m then s.endShard c round else s

/-- A contribution packet at an engine (R329). -/
def State.contribIn (s : State) (b d : Nat) (p : Bytes) : State :=
  let h := pktHdr p
  match s.exchCtx b d h.bucket with
  | .error _ => s.exchDrop b d h.bucket 0 0x05D3
  | .ok c =>
    let code := s.contribFault c p
    if code = 0 then s.takeContrib c p else s.exchDrop b d h.bucket (s.recField c 104 8 + 1) code

/-- The fault of a result packet, 0 if it is accepted (R334). -/
def State.resultFault (s : State) (c : ExCtx) (p : Bytes) : Nat :=
  let h := pktHdr p
  let done := s.recField c 120 8
  let ls := c.len h.shard
  let got := (s.round c.die c.i).elim [] fun r => r.got
  if h.round = done % 2 ^ 32 ∨ (h.round = (done + 1) % 2 ^ 32 ∧ got.contains (h.shard, h.offset)) then 0x05D2
  else if h.round ≠ (done + 1) % 2 ^ 32 then 0x05D1
  else if h.tag = c.tag ∧ h.kind = 4 ∧ h.shard < c.p ∧ h.rank = shardOwner c.p h.shard c.i ∧ h.scale = c.k.resScale ∧
      h.total = (ls + 255) / 256 ∧ 1 ≤ h.count ∧ h.count ≤ 256 ∧ h.offset % 256 = 0 ∧ h.offset < ls ∧
      h.count = min 256 (ls - h.offset) ∧ (pktData p).length = 2 * h.count then 0
  else 0x05D3

/-- A result packet at an engine (R334, R336). -/
def State.resultIn (s : State) (b d : Nat) (p : Bytes) : State :=
  let h := pktHdr p
  match s.exchCtx b d h.bucket with
  | .error _ => s.exchDrop b d h.bucket 0 0x05D3
  | .ok c =>
    let code := s.resultFault c p
    let round := s.recField c 120 8 + 1
    if code ≠ 0 then s.exchDrop b d h.bucket round code
    else
      let s := s.writeVirt b (c.k.res + 2 * (c.base h.shard + h.offset)) (pktData p)
      (s.modRound d h.bucket round fun x => { x with
        got := x.got ++ [(h.shard, h.offset)], dGin := x.dGin + pktHash p }).endRound c

/-! Posts (R321-R328). -/

/-- The G16 elements of a shard's source, and the poisoned lines read. -/
def State.shardSource (s : State) (c : ExCtx) (sh : Nat) : List Nat :=
  let b := (s.readVirt c.b (c.k.src + 2 * c.base sh) (2 * c.len sh)).getD []
  (List.range (c.len sh)).map fun e => leAt b (2 * e) 2

/-- The poison events of reading a range of a berth in this module. -/
def State.poisonRange (s : State) (b reader va n : Nat) : State :=
  match s.localRange b va n false with
  | none => s
  | some l => forL l s fun p t => t.poisonReads (some b) reader p.1 p.2

/-- The FP32 sums x of a shard (R327). -/
def State.topkSums (s : State) (c : ExCtx) (sh : Nat) : List Nat :=
  let r := (s.readVirt c.b (c.k.rem + 4 * c.base sh) (4 * c.len sh)).getD []
  (s.shardSource c sh).zipIdx.map fun g =>
    (convertVal (addVal (scaleVal (decodeElem .g16 g.1) c.scale) (decodeElem .fp32 (leAt r (4 * g.2) 4))) 0 .fp32 false
      false).getD 0

/-- The magnitude key of an FP32 value (06 R178). -/
def topkKey (x : Nat) : Nat := if decodeElem .fp32 x = .nan then 2 ^ 32 - 1 else x % 2 ^ 31

/-- The indices that a shard of sums sends: the greatest keys, ties to the lower index, ascending (R327). -/
def topkPick (xs : List Nat) (k : Nat) : List Nat :=
  let order := xs.zipIdx.mergeSort fun a b =>
    decide (topkKey b.1 < topkKey a.1) || (topkKey a.1 == topkKey b.1 && decide (a.2 ≤ b.2))
  ((order.take k).map Prod.snd).mergeSort fun a b => decide (a ≤ b)

/-- The G16 value of a sum that is sent, and the remainder left (R327). -/
def topkSplit (x : Nat) (sc : Int) : Nat × Nat :=
  let v := decodeElem .fp32 x
  let g := (convertVal v (-sc) .g16 false false).getD 0xFFFF
  let r := if valNonFinite v then 0
    else (convertVal (addVal v (negVal (scaleVal (decodeElem .g16 g) sc))) 0 .fp32 false false).getD 0
  (g, r)

/-- The payloads of a shard's contribution with their offsets and counts, and the new remainder of a top-k shard. -/
def State.shardPayloads (s : State) (c : ExCtx) (sh : Nat) : List (Nat × Nat × Bytes) × Option Bytes :=
  if c.k.mode = 0 then
    let es := s.shardSource c sh
    ((List.range ((es.length + 255) / 256)).map fun j =>
      let x := (es.drop (256 * j)).take 256
      (256 * j, x.length, x.flatMap (leBytes 2)), none)
  else
    let xs := s.topkSums c sh
    let pick := topkPick xs (min c.k.keep (c.len sh))
    let pairs := pick.map fun i => leBytes 4 i ++ leBytes 2 (topkSplit (xs.getD i 0) c.scale).1 ++ zeros 2
    let rem := xs.zipIdx.flatMap fun x => leBytes 4 (if pick.contains x.2 then (topkSplit x.1 c.scale).2 else x.1)
    ((List.range ((pairs.length + 63) / 64)).map fun j =>
      let x := (pairs.drop (64 * j)).take 64
      (j, x.length, x.flatten), some rem)

/-- The contribution of one shard (R326-R328): packets formed, remainder written, packets sent. -/
def State.sendShard (s : State) (c : ExCtx) (round sh : Nat) : State :=
  if c.len sh = 0 then s
  else
    let r := s.shardPayloads c sh
    let s := s.poisonRange c.b (0x200 + c.die) (c.k.src + 2 * c.base sh) (2 * c.len sh)
    let s := match r.2 with
      | some m => (s.poisonRange c.b (0x200 + c.die) (c.k.rem + 4 * c.base sh) (4 * c.len sh)).writeVirt c.b (c.k.rem + 4 * c.base sh) m
      | none => s
    let pkts := r.1.map fun x => pktBytes
      { kind := c.k.mode + 1, group := c.k.group, scale := c.scale, bucket := c.i, count := x.2.1, round := round % 2 ^ 32,
        rank := c.rank, shard := sh, offset := x.1, total := c.total sh, tag := c.tag } x.2.2
    let pairs := if c.k.mode = 1 then (r.1.map fun x => x.2.1).foldl (· + ·) 0 else 0
    let s := s.modRound c.die c.i round fun x => { x with
      dSent := pkts.foldl (fun a p => a + pktHash p) x.dSent, pktSent := x.pktSent + pkts.length, pairs := x.pairs + pairs }
    forL pkts s fun p t => if sh = c.own then t.contribIn c.b c.die p else t.exchSend c (shardOwner c.p sh c.i) p

/-- A post taken (R323, R328): the round begins, every shard is sent. -/
def State.startRound (s : State) (c : ExCtx) : State :=
  let round := s.recField c 120 8 + 1
  let s := s.modRound c.die c.i round fun x =>
    { (if x.round = round then x else { round := round }) with
      posted := true, scale := c.scale, tPost := (s.berth c.b).tally.toNat }
  let s := forL (List.range c.p) s fun j t => t.sendShard c round ((ownShard c.p c.rank c.i + j) % c.p)
  if c.len c.own = 0 then s.endShard c round else s.endRound c

/-- A post refused (R324): the code in `STATUS` of the record, where that can be written, and an event. -/
def State.refusePost (s : State) (b d i code : Nat) : State :=
  let s := match s.bktBytes b i with
    | some w => if i < s.exchSet b 0xB001 then s.writeVirt b ((bktOf w).dig + 84) (leBytes 2 code) else s
    | none => s
  s.berthEvent b code i d

/-- One post of a die's engine. -/
def State.runPost (s : State) (b d : Nat) (v : BitVec 64) : State :=
  let i := v.toNat % 4096
  if 4096 ≤ v.toNat then s.refusePost b d i 0x05C0
  else
    match s.exchCtx b d i with
    | .error code => s.refusePost b d i code
    | .ok c => s.startRound c

/-- Whether a post waits for the previous round of its bucket (R323). -/
def State.postWaits (s : State) (d : Nat) (v : BitVec 64) : Bool := (s.round d (v.toNat % 4096)).elim false fun r => r.posted

/-- `POST_REGISTER_WRITE`: a kernel posts to the queue of its die (R321). -/
def execPostRegisterWrite (die : Nat) (value : BitVec 64) (s : State) : Result :=
  .next (match s.berthOfDie die with
    | none => s
    | some _ => s.post die value)

/-- `EXCH_POST_TAKE`: the engine takes the first post of its queue whose previous round is complete (R321, R323). -/
def execExchPostTake (die : Nat) (s : State) : Result :=
  .next (match s.berthOfDie die with
    | none => s
    | some b =>
      match ((s.exch die).posts.take 64).findIdx? fun v => !s.postWaits die v with
      | none => s
      | some j =>
        (s.modExch die fun x => { x with posts := x.posts.eraseIdx j }).runPost b die ((s.exch die).posts.getD j 0))

/-- Takes a packet from an engine's inbox: a berth that is being reset counts it as ghost traffic (R342). -/
def State.engineIn (s : State) (die idx : Nat) (result : Bool) (f : Nat → Bytes → State → State) : State :=
  match (s.exch die).inbox[idx]? with
  | none => s
  | some p =>
    if (leAt p 0 1 == 4) != result then s
    else
      let s := s.modExch die fun x => { x with inbox := x.inbox.eraseIdx idx }
      match s.berthOfDie die with
      | none => s.ghostDrop
      | some b =>
        if (s.berth b).life = .resetting then s.ghostDrop else f b p s

/-- `EXCH_PACKET_ARRIVAL`: an owner checks and adds a contribution (R329, R330). -/
def execExchPacketArrival (die idx : Nat) (s : State) : Result :=
  .next (s.engineIn die idx false fun b p t => t.contribIn b die p)

/-- `EXCH_RESULT_ARRIVAL`: a member accepts and writes a result packet (R334). -/
def execExchResultArrival (die idx : Nat) (s : State) : Result :=
  .next (s.engineIn die idx true fun b p t => t.resultIn b die p)

/-- `EXCH_DEADLINE`: the deadline of a round in flight passes: an event names the first 16 senders, or missing shards
(R339). -/
def execExchDeadline (die bucket : Nat) (s : State) : Result :=
  .next (match s.berthOfDie die, s.round die bucket with
    | some b, some r =>
      if !r.inFlight then s
      else
        match s.exchCtx b die bucket with
        | .error _ => s
        | .ok c =>
          let names := if r.owned then (((resultsDue c).filter fun x => !r.got.contains x).map Prod.fst).eraseDups
            else (List.range c.p).filter fun m => !s.senderDone c m
          s.exchEvent b die bucket r.round 0x05D0 (names.take 16)
    | _, _ => s)

end Sys2Proof.Machine
end

