-- ==== Sys2Proof/Machine/MatForm.lean ====
section
/-!
DEFINITION. The checks of a matrix descriptor at queue entry (04 R132-R134) and the fields that requests of one gather
fill share (03 R94).
-/

namespace Sys2Proof.Machine

/-- A range of bytes: first address (which may lie below zero) and length. -/
structure Ext where
  lo : Int
  len : Nat
deriving DecidableEq, Repr

/-- Whether a range leaves local memory. -/
def Ext.outLm (e : Ext) : Bool := decide (e.lo < 0) || decide (0x400000 < e.lo + e.len)

/-- Whether two ranges share a byte. -/
def Ext.meets (e f : Ext) : Bool := decide (e.lo < f.lo + f.len) && decide (f.lo < e.lo + e.len)

/-- Whether the convolution block's fields are in range (R124). -/
def convFieldsOk (c : ConvBlk) : Bool :=
  [c.inH, c.inW, c.outH, c.outW, c.kh, c.kw, c.strH, c.strW, c.dilH, c.dilW, c.nImg].all (fun x => decide (1 ≤ x)) &&
    decide (1 ≤ c.c) && decide (c.c ≤ 16777216)

/-- Whether a convolution instruction fits its block (R134, `CONV_BLOCK`). -/
def convOk (c : ConvBlk) (d : MDesc) : Bool :=
  convFieldsOk c && decide (c.m0 + d.m ≤ c.nImg * c.outH * c.outW) && decide (c.k0 + d.k ≤ c.kh * c.kw * c.c)

/-- The element extent of an operand (R119, R125); `none` where a convolution reads nothing. -/
def opdExtent (o : MOpd) (conv : Bytes) (rows k : Nat) : Option Ext :=
  let w := fmtBits (opdStored o)
  if o.mode = 2 then
    let bits := (List.range rows).flatMap fun i => (List.range k).filterMap fun j => convBit (convOf conv) w i j
    match bits with
    | [] => none
    | x :: r =>
      let lo := r.foldl min x / 8
      let hi := (r.foldl max x + w + 7) / 8
      some { lo := o.addr + lo, len := hi - lo }
  else
    let n := if o.trans = 0 then rows else k
    let m := if o.trans = 0 then k else rows
    some { lo := o.addr, len := (n - 1) * rowStride o rows k + (m * w + 7) / 8 }

/-- The extent of an operand's block scales (R123). -/
def scaleExtent (o : MOpd) (conv : Bytes) (rows k : Nat) : Option Ext :=
  if fmtIsMx (opdFmt o) then
    let org : Int := (o.addr : Int) + o.sclOff
    if o.mode = 2 ∨ o.trans = 0 then
      (opdExtent o conv rows k).map fun e =>
        let lo := (e.lo - (o.addr : Int)).toNat / mxBlockBytes (opdFmt o)
        let hi := ((e.lo - (o.addr : Int)).toNat + e.len - 1) / mxBlockBytes (opdFmt o)
        { lo := org + lo, len := hi - lo + 1 }
    else some { lo := org, len := (k - 1) / 32 * (rowStride o rows k * 8 / fmtBits (opdFmt o)) + rows }
  else none

/-- The output rows that are checked, as ranges (R127, R134). -/
def outExtents (d : MDesc) (maskRec : Nat) : List Ext :=
  let f := (fmtOfCode d.fmtOut).getD .e4m3
  let tie := if d.tieEn then d.tieSlot * d.tieStride * 2 ^ 20 else 0
  (rowsOf d maskRec).map fun i => { lo := ((d.addrOut + tie + i * 16 * d.ldOut : Nat) : Int), len := d.n * outBytes f }

/-- The initial cells that are read, as ranges (R127, R134). -/
def initExtents (d : MDesc) (maskRec : Nat) : List Ext :=
  if d.accInit = 1 then (rowsOf d maskRec).map fun i => { lo := ((d.initAddr + i * d.n * 16 : Nat) : Int), len := d.n * 16 }
  else []

/-- The size of the operand ring (R102, R116). -/
def ringBytes (d : MDesc) : Nat := 2 ^ (18 + d.ringSize)

/-- Whether an instruction streams an operand. -/
def streamsOp (d : MDesc) : Bool := d.a.loc == 1 || d.b.loc == 1

/-- Whether an operand format code is an MX format. -/
def mxCode (c : Nat) : Bool := match fmtOfCode c with
  | some f => fmtIsMx f
  | none => false

/-- The reserved bits and values of a descriptor (R116, R134 `DESC_RESERVED`). -/
def descReserved (d : MDesc) (w : List Nat) (conv : Bytes) : Bool :=
  let f := fun i hi lo => decide (bitsOf (w.getD i 0) hi lo ≠ 0)
  f 0 63 60 || decide (d.m = 0) || decide (64 < d.m) || decide (d.n = 0) || decide (64 < d.n) || decide (d.k = 0) ||
    decide (65536 < d.k) || d.a.mode == 3 || decide (2 ≤ d.b.mode) || (d.drain && f 3 63 62) || f 4 63 62 || f 5 63 62 ||
    f 7 63 59 || (d.a.mode == 2 && (decide (65536 ≤ d.a.ld) || decide (leAt conv 22 2 ≠ 0) ||
      decide (2 ^ 48 ≤ leAt conv 40 8) || decide (leAt conv 48 16 ≠ 0)))

/-- Fields that must be zero (R133). -/
def unusedSet (d : MDesc) : Bool :=
  let mx := fun (o : MOpd) => !mxCode o.fmtCode && (decide (o.sgrp ≠ 0) || decide (o.sclOff ≠ 0))
  (d.a.srcFmt == 0 && decide (d.a.srcScale ≠ 0)) || (d.b.srcFmt == 0 && decide (d.b.srcScale ≠ 0)) ||
    (d.a.srcFmt == 0 && d.b.srcFmt == 0 && d.cvtSat) || mx d.a || mx d.b ||
    (d.a.mode == 0 && decide (d.a.ld ≠ 0)) || (d.b.mode == 0 && decide (d.b.ld ≠ 0)) ||
    (decide (d.accInit ≠ 1) && decide (d.initAddr ≠ 0)) || (!d.rowMaskEn && !d.blkMaskEn && decide (d.maskAddr ≠ 0)) ||
    (!d.blkMaskEn && decide (d.bmaskBit ≠ 0)) ||
    (d.drain && !d.tieEn && (decide (d.tieSlot ≠ 0) || decide (d.tieStride ≠ 0))) ||
    (!streamsOp d && (decide (d.ringBase ≠ 0) || decide (d.ringSize ≠ 0))) || (!d.drain && decide (d.statusAddr ≠ 0))

/-- Whether an operand's format pair is refused (R134 `OPERAND_FORMAT`). -/
def opdFmtBad (o : MOpd) : Bool :=
  o.fmtCode == 0xA || o.fmtCode == 0xB || o.fmtCode == 0xC ||
    (decide (o.srcFmt ≠ 0) && !(fmtOfCode o.fmtCode == some .e4m3 || fmtOfCode o.fmtCode == some .e5m2))

/-- Alignment of an operand (R134 `ALIGNMENT`). -/
def opdAlignBad (o : MOpd) (conv : Bytes) : Bool :=
  let c := convOf conv
  let e := fmtBits (opdStored o)
  decide (o.addr % 16 ≠ 0) || (o.mode == 1 && decide (16 * o.ld % rowUnit o ≠ 0)) ||
    (o.mode == 2 && (decide (8 * c.pixLd % e ≠ 0) || decide (8 * c.rowLd % e ≠ 0) || decide (8 * c.imgLd % e ≠ 0)))

/-- Whether an operand's MX conditions are broken (R134 `MX_K`). -/
def mxKBad (o : MOpd) (conv : Bytes) (k : Nat) : Bool :=
  let c := convOf conv
  let bb := mxBlockBytes (opdFmt o)
  mxCode o.fmtCode && (decide (k % 32 ≠ 0) ||
    (o.mode == 2 && (decide (c.c % 32 ≠ 0) || decide (c.pixLd % bb ≠ 0) || decide (c.rowLd % bb ≠ 0) ||
      decide (c.imgLd % bb ≠ 0))))

/-- Whether a continuation differs from the head of its chain (R134 `CHAIN_MISMATCH`). -/
def chainDiffers (h : ChainSt) (d : MDesc) (maskRec : Nat) : Bool :=
  decide (h.m ≠ d.m) || decide (h.n ≠ d.n) || h.rowMaskEn != d.rowMaskEn ||
    (d.rowMaskEn && decide (h.rowMask ≠ maskRec % 2 ^ 64)) || h.blkMaskEn != d.blkMaskEn || h.exact != descExact d ||
    decide (h.win ≠ d.winLsb) || decide (h.scaleAB ≠ d.a.scale + d.b.scale)

/-- The codes that a descriptor raises when its instruction enters the array queue (R134): every check is run.
`words`, `maskRec` and `conv` are the descriptor, its mask record and its convolution block; `h` is the chain the
group holds open. -/
def State.descCodes (s : State) (b : Nat) (maps : List MapEnt) (h : Option ChainSt) (descAddr : Nat) (words : List Nat)
    (maskRec : Nat) (conv : Bytes) : List Nat :=
  let d := descOf words
  let exact := descExact d
  let isConv := d.a.mode == 2
  let cOk := !isConv || convOk (convOf conv) d
  let fmtR := decide (0xD ≤ d.a.fmtCode) || decide (0xD ≤ d.b.fmtCode) || (d.drain && decide (0xD ≤ d.fmtOut))
  let o := outBytes ((fmtOfCode d.fmtOut).getD .e4m3)
  let outFmt := d.drain && (mxCode d.fmtOut ||
    (fmtOfCode d.fmtOut == some .int8 && !(fmtOfCode d.a.fmtCode == some .int8 && fmtOfCode d.b.fmtCode == some .int8)) ||
    (d.fmtOut == 0xA && (decide (d.scaleOut < -16) || decide (8 < d.scaleOut))))
  let window := if exact then decide (d.winLsb ≠ -64) else decide (d.winLsb < -320) || decide (160 < d.winLsb)
  let gatherBad := d.gather && (decide (16 < d.m) || decide (d.accInit ≠ 0) || !d.drain || d.rowMaskEn || d.blkMaskEn)
  let retileBad := d.retile && (decide (d.accInit ≠ 0) || !d.drain || d.fmtOut == 0xC)
  let exts := fun (o : MOpd) (rows : Nat) => if o.mode == 2 && !cOk then []
    else (opdExtent o conv rows d.k).toList ++ (scaleExtent o conv rows d.k).toList
  let opLm := (if d.a.loc = 0 then exts d.a d.m else []) ++ (if d.b.loc = 0 then exts d.b d.n else [])
  let opMem := (if d.a.loc = 1 then exts d.a d.m else []) ++ (if d.b.loc = 1 then exts d.b d.n else [])
  let outs := if d.drain then outExtents d maskRec else []
  let aux := initExtents d maskRec ++
    (if d.statusAddr = 0 then [] else [{ lo := (d.statusAddr : Int), len := 8 }]) ++
    (if d.rowMaskEn || d.blkMaskEn then [{ lo := (d.maskAddr : Int), len := 16 }] else []) ++
    (if isConv then [{ lo := ((d.a.ld % 65536 * 64 : Nat) : Int), len := 64 }] else [])
  let ring : Ext := { lo := (d.ringBase : Int), len := ringBytes d }
  let lms := opLm ++ (if d.locOut = 0 then outs else []) ++ aux
  let hiBits := fun (loc addr : Nat) => loc == 0 && decide (2 ^ 22 ≤ addr)
  let lmBad := lms.any Ext.outLm || (streamsOp d && ring.outLm) || hiBits d.a.loc d.a.addr || hiBits d.b.loc d.b.addr ||
    (d.drain && hiBits d.locOut d.addrOut)
  let trBad := (opMem.any fun e => decide (e.lo < 0) || !s.rangeOk b maps e.lo.toNat e.len false) ||
    (d.locOut == 1 && outs.any fun e => !s.rangeOk b maps e.lo.toNat e.len true)
  let span := match outs, outs.getLast? with
    | x :: _, some y => (y.lo - x.lo).toNat + y.len
    | _, _ => 0
  [ (descReserved d words conv, 0x0101), (fmtR, 0x0102), (opdFmtBad d.a || opdFmtBad d.b, 0x0103), (outFmt, 0x0104),
    (mxKBad d.a conv d.k || mxKBad d.b conv d.k, 0x0105), (window, 0x0106), (d.accInit == 3, 0x0107),
    (d.accInit == 2 && h.isNone, 0x0108), (decide (d.accInit < 2) && !d.drain && h.isSome, 0x0109),
    (d.accInit == 2 && (match h with | some x => chainDiffers x d maskRec | none => false), 0x010A),
    (d.accInit == 2 && (match h with | some x => decide (16777215 < x.kSum + d.k) | none => false), 0x010B),
    (gatherBad, 0x010C), (retileBad, 0x010D),
    (d.drain && d.fmtOut == 0xC && decide (d.a.scale + d.b.scale - d.scaleOut ≠ 0), 0x010E), (unusedSet d, 0x010F),
    (isConv && (d.a.trans == 1 || d.a.loc == 1 || d.gather), 0x0110),
    (opdAlignBad d.a conv || opdAlignBad d.b conv || (d.drain && decide (d.addrOut % 16 ≠ 0)) ||
      (streamsOp d && decide (d.ringBase % ringBytes d ≠ 0)), 0x0111),
    (d.drain && decide (16 * d.ldOut < d.n * o), 0x0112),
    ((mxCode d.a.fmtCode && decide (d.a.sgrp ≠ (if isConv then 0 else d.a.trans))) ||
      (mxCode d.b.fmtCode && decide (d.b.sgrp ≠ d.b.trans)), 0x0113), (lmBad, 0x0114),
    (streamsOp d && (({ lo := (descAddr : Int), len := 64 } : Ext) :: lms).any fun e => ring.meets e, 0x0115),
    (trBad, 0x0116), (d.rowMaskEn && decide (2 ^ d.m ≤ maskRec % 2 ^ 64), 0x0117),
    (d.drain && d.tieEn && (!(d.fmtOut == 0xC || d.fmtOut == 0xA) || decide (d.tieStride * 2 ^ 20 < span)), 0x0118),
    (isConv && !cOk, 0x0119) ].filterMap fun x => if x.1 then some x.2 else none

/-- What requests must agree on to share a fill (R94, and the paragraph before R135). -/
def gatherKey (w : List Nat) : List Nat :=
  let f := fun i hi lo => bitsOf (w.getD i 0) hi lo
  [w.getD 2 0, f 4 39 20, f 5 61 31, f 6 15 8, f 6 39 32, f 0 7 4, f 0 25 19, f 0 42 26, f 0 3 0, f 1 63 62, f 6 31 24,
    f 0 50 50, f 6 49 40, f 0 47 47]

/-- Whether an instruction's block is masked out (R109, R130). -/
def descSkipped (d : MDesc) (maskRec : Nat) (h : Option ChainSt) : Bool :=
  if d.accInit = 2 then (match h with | some x => x.skipped | none => false)
  else (d.blkMaskEn && !maskRec.testBit (64 + d.bmaskBit)) || (d.rowMaskEn && (rowsOf d maskRec).isEmpty)

end Sys2Proof.Machine
end

