-- ==== Sys2Proof/Machine/MatrixCmd.lean ====
section
/-!
DEFINITION. The commands of the matrix array: issue, start, ring segments, the gather wait and completion
(03 R75-R114, 04 R115-R136).
-/

namespace Sys2Proof.Machine

/-- The sub-index of a berth in the per-berth dictionary entries (14 R422). -/
def berthSub (b : Nat) : Nat := b + 1

/-- Closes a fill: its requests enter the queue's order now (03 R96). -/
def closeFill (k : CoreSt) (f : Nat) : CoreSt :=
  { k with
    fills := k.fills.map fun x => if x.id = f then { x with isOpen := false } else x,
    aq := k.aq.filter (fun e => e.fill != some f) ++ k.aq.filter fun e => e.fill == some f }

/-- The open fills, oldest first. -/
def openFills (k : CoreSt) : List FillSt := k.fills.filter fun f => f.isOpen

/-- Opens a fill for a request, closing the oldest one where there are four (03 R95). -/
def openFill (k : CoreSt) (e : AqEnt) (m : Nat) : CoreSt :=
  let k := match openFills k with
    | a :: _ :: _ :: _ :: _ => closeFill k a.id
    | _ => k
  { k with
    fills := k.fills ++ [{ id := k.nextId, words := e.words, rows := m }],
    aq := k.aq ++ [{ e with fill := some k.nextId }], nextId := k.nextId + 1 }

/-- A gather request joins or opens a fill (03 R95, R96); `wait` is the berth's gather wait. -/
def gatherIn (k : CoreSt) (e : AqEnt) (wait : Nat) : CoreSt :=
  let m := (descOf e.words).m
  match (openFills k).find? fun f => gatherKey f.words == gatherKey e.words with
  | some f =>
    if f.rows + m ≤ 64 then
      let k := { k with
        fills := k.fills.map fun x => if x.id = f.id then { x with rows := x.rows + m } else x,
        aq := k.aq ++ [{ e with fill := some f.id }] }
      if f.rows + m = 64 then closeFill k f.id else k
    else openFill (closeFill k f.id) e m
  | none =>
    let k' := openFill k e m
    if wait = 0 then closeFill k' (k'.nextId - 1) else k'

/-- The chain that a group holds open after an instruction (03 R83, R85, 04 R130). -/
def chainAfter (h : Option ChainSt) (d : MDesc) (desc maskRec id : Nat) (skipped : Bool) : Option ChainSt :=
  if d.accInit = 2 then
    if d.drain then none else h.map fun x => { x with kSum := x.kSum + d.k }
  else if d.drain then h
  else some { id := id, desc := desc, m := d.m, n := d.n, rowMaskEn := d.rowMaskEn, rowMask := maskRec % 2 ^ 64,
              blkMaskEn := d.blkMaskEn, exact := descExact d, win := d.winLsb, scaleAB := d.a.scale + d.b.scale,
              kSum := d.k, skipped := skipped }

/-- The eight words of a descriptor in local memory. -/
def descWords (lm : Store) (a : Nat) : List Nat := (List.range 8).map fun i => lm.num (a + 8 * i) 8

/-- An instruction enters the array queue: its descriptor and records are read and validated; a masked one completes at
once, a gather request goes to its fill (R95, R109, R117, R132). -/
def State.enterArray (s : State) (t : At) (i : Issue) (addr tk : Nat) : State :=
  let k := s.core t.core
  let abort := fun code => s.abortGroup t i.cur.pc i.cur.mask code addr
  if addr % 64 ≠ 0 ∨ 0x400000 ≤ addr then abort 0x0100
  else
    let words := descWords k.lm addr
    let d := descOf words
    let maskRec := if d.rowMaskEn || d.blkMaskEn then k.lm.num d.maskAddr 16 else 0
    let conv := if d.a.mode = 2 then k.lm.read (d.a.ld % 65536 * 64) 64 else []
    let maps := (s.berth i.k.berth).maps
    match (s.descCodes i.k.berth maps i.g.chain addr words maskRec conv).head? with
    | some code => abort code
    | none =>
      let skipped := descSkipped d maskRec i.g.chain
      let g := { i.g with chain := chainAfter i.g.chain d addr maskRec k.nextId skipped }
      if skipped then
        let s := if d.statusAddr = 0 then s
          else s.modCore t.core fun x => { x with lm := x.lm.write d.statusAddr (zeros 8) false, nextId := x.nextId + 1 }
        s.next t i g
      else
        let e : AqEnt := { id := k.nextId, group := t.group, launch := i.k.launch, tk := tk, pc := i.cur.pc,
                           lanes := i.cur.mask, descAddr := addr, words := words, maskRec := maskRec, conv := conv,
                           maps := maps, chain := if d.accInit = 2 then (i.g.chain.elim k.nextId fun c => c.id) else k.nextId }
        let k1 := { k with nextId := k.nextId + 1 }
        let k2 := if d.gather then gatherIn k1 e (s.setting 0x4008 (berthSub i.k.berth) 256)
          else { k1 with aq := k1.aq ++ [e] }
        (s.setCore t.core k2).next t i (g.tkInc tk)

/-- `MISS`: hands the descriptor at a local-memory address to the array queue of 64 entries; a full queue makes the
group wait (R88, R199, R211). -/
def execMiss (t : At) (a : BitVec 8) (tk : BitVec 3) (s : State) : Result :=
  .next (if scalarOk a then
      s.issue t [a.toNat] fun i =>
        if 64 ≤ (s.core t.core).aq.length then s else s.enterArray t i (i.g.srcS a) tk.toNat
    else s)

/-- An entry of the array queue. -/
def CoreSt.aqEnt (k : CoreSt) (id : Nat) : Option AqEnt := k.aq.find? fun e => e.id == id

/-- Whether a gather request waits in an open fill (R88). -/
def heldByFill (k : CoreSt) (e : AqEnt) : Bool := k.fills.any fun f => f.isOpen && e.fill == some f.id

/-- Whether the rings of two instructions overlap (04 R122). -/
def ringsMeet (a b : AqEnt) : Bool :=
  let d := descOf a.words
  let e := descOf b.words
  streamsOp d && streamsOp e &&
    ({ lo := (d.ringBase : Int), len := ringBytes d } : Ext).meets { lo := (e.ringBase : Int), len := ringBytes e }

/-- The entries queued before an entry and, of a gather fill, outside its fill. -/
def aqBefore (k : CoreSt) (e : AqEnt) : List AqEnt :=
  (k.aq.takeWhile fun x => x.id != e.id).filter fun x => !(e.fill.isSome && x.fill == e.fill)

/-- Whether an earlier entry keeps a head from starting (R86, R88): one that itself waits for a bank, is no continuation,
is not held by an open fill and streams no operand (R104). -/
def blocksHead (k : CoreSt) (x : AqEnt) : Bool :=
  x.bank.isNone && (descOf x.words).accInit != 2 && !heldByFill k x && !streamsOp (descOf x.words)

/-- The bank an instruction can start in now (R82, R86): its chain's, or a free one, the one after the bank most recently
taken where both are free. -/
def bankFor (k : CoreSt) (e : AqEnt) : Option Nat :=
  let before := aqBefore k e
  if e.bank.isSome || heldByFill k e || before.any fun x => ringsMeet x e then none
  else if (descOf e.words).accInit = 2 then
    if before.any fun x => x.chain == e.chain then none
    else firstBelow 2 fun b => (tget k.banks {} b).owner == some e.chain
  else if before.any (blocksHead k) then none
  else
    let free := fun b => (tget k.banks {} b).owner.isNone
    if free 0 && free 1 then some ((k.lastBank + 1) % 2) else firstBelow 2 free

/-- `MATRIX_START`: a queued instruction takes its bank and its slices start; one that finds none waits. -/
def execMatrixStart (core id : Nat) (s : State) : Result :=
  let k := s.core core
  .next (match k.aqEnt id with
    | none => s
    | some e =>
      match bankFor k e with
      | none => s
      | some b =>
        let head := (descOf e.words).accInit != 2
        let ids := (aqGroup k.aq e).map fun x => x.id
        s.setCore core { k with
          aq := k.aq.map fun x => if ids.contains x.id then { x with bank := some b } else x,
          banks := if head then tset k.banks b { owner := some e.chain } else k.banks,
          lastBank := if head then b else k.lastBank })

/-- `RING_SEGMENT_FILLED`: the streamer has copied one more segment of a streamed operand into the ring (R102). The manual
gives no order of bytes in the ring, so its bytes are free values. -/
def execRingSegmentFilled (core id : Nat) (s : State) : Result :=
  let k := s.core core
  .next (match k.aqEnt id with
    | none => s
    | some e =>
      let d := descOf e.words
      if streamsOp d && !((aqBefore k e).any fun x => ringsMeet x e) then
        let n := ringBytes d / 8
        let bs := leBytes n (Config.freeBits (8 * n) s.free).toNat
        s.nextFree.setCore core { k with
          lm := k.lm.write (d.ringBase + e.segments % 8 * n) bs false,
          aq := k.aq.map fun x => if x.id = id then { x with segments := x.segments + 1 } else x }
      else s)

/-- `GATHER_WAIT_EXPIRY`: the gather wait of an open fill has elapsed (R96). -/
def execGatherWaitExpiry (core fill : Nat) (s : State) : Result :=
  let k := s.core core
  .next (if (openFills k).any fun f => f.id == fill then s.setCore core (closeFill k fill) else s)

/-- The cells of a bank after an instruction that does not drain (R83, R84). -/
def State.cellsAfter (s : State) (c b : Nat) (e : AqEnt) (old : Tbl AccCell) : Tbl AccCell :=
  let d := descOf e.words
  (s.matrixSums c b e old).1.foldl (fun t r =>
    tset t (64 * r.i + r.j) (if d.accInit = 1 then cellPlus r.cell (s.initCell c d r.i r.j) else r.cell)) old

/-- Lines of berth memory that an instruction's operands touch and that are poisoned (R111 and 14 R436). -/
def State.reportOperands (s : State) (c b : Nat) (e : AqEnt) : State :=
  let d := descOf e.words
  forL ((s.opdPoison b e d d.a (rowsOf d e.maskRec) d.m) ++ (s.opdPoison b e d d.b (List.range d.n) d.n)).eraseDups s
    fun p t => t.poisonRead (some b) c (64 * p)

/-- The instructions of a started entry run to their end (R80, R84, R98): sums, drain or cells kept, bank, completions. -/
def State.matrixFinish (s : State) (core : Nat) (e : AqEnt) (bank : Nat) : State :=
  let k := s.core core
  let b := s.coreBerth core
  let s := s.nextFree
  let es := aqGroup k.aq e
  let fold := foldFor k.aq e
  let old := (tget k.banks {} bank).cells
  let drain := (descOf e.words).drain
  let s := if drain then forL es s fun x t => t.matrixDrain core b x old fold
    else
      (s.reportOperands core b e).modCore core fun x =>
        { x with banks := tmod x.banks {} bank fun y => { y with cells := s.cellsAfter core b e old } }
  let ids := es.map fun x => x.id
  let s := s.modCore core fun x => { x with
    aq := x.aq.filter fun y => !ids.contains y.id,
    fills := x.fills.filter fun f => e.fill != some f.id,
    banks := if drain then tset x.banks bank {} else x.banks }
  forL es s fun x t => t.signal core x.launch x.group x.tk

/-- `MATRIX_COMPLETE`: the last slice is added and the instruction ends. `residues` is the number of runs whose residue
check failed: a first failure runs it once more, a second aborts the kernel and reports the core (R112). -/
def execMatrixComplete (core id residues : Nat) (s : State) : Result :=
  .next (match (s.core core).aqEnt id with
    | none => s
    | some e =>
      match e.bank with
      | none => s
      | some bank =>
        if residues < 2 then
          (s.modCore core fun x => { x with residues := x.residues + residues }).matrixFinish core e bank
        else
          let s := { s with defects := { s.defects with subst := s.defects.subst ++ [(core, 2, 0x0182)] } }
          let ids := (aqGroup (s.core core).aq e).map fun x => x.id
          (s.modCore core fun x => { x with
            residues := x.residues + 2, aq := x.aq.filter fun y => !ids.contains y.id }).abortLaunch e.launch
            { code := 0x0182, core := core, group := e.group, pc := e.pc, lanes := e.lanes.toNat, info := e.descAddr })

end Sys2Proof.Machine
end

