-- ==== Sys2Proof/Machine/ThreadMem.lean ====
section
/-!
DEFINITION. Thread loads, stores and atomics, the L1 data cache, and what returns or is accepted later
(07 R201-R206, R212, R213, 08 R223-R233).
-/

namespace Sys2Proof.Machine

/-- The checks of one lane's access, in the order of R201: its place (`none` for local memory), or the fault's code. An
atomic needs both permissions. -/
def State.checkLane (s : State) (b space n addr : Nat) (read write : Bool) : Except Nat (Option Place) :=
  if addr % n ≠ 0 then .error 0x0383
  else if space = 0 then (if 0x400000 ≤ addr then .error 0x0384 else .ok none)
  else if 2 ^ 57 ≤ addr then .error 0x0385
  else if read && write && (translate (s.berth b).maps addr false).isNone then .error 0x0385
  else
    match s.checkVirt b (s.berth b).maps addr write with
    | .ok p => .ok (some p)
    | .error c => .error c

/-- One lane's access with its place. -/
structure LaneAcc where
  lane : Nat
  addr : Nat
  place : Option Place
deriving DecidableEq, Repr

/-- The checks of an instruction's lanes: the places, or the code and address of the lowest lane that fails (R201). -/
def State.checkLanes (s : State) (b space n : Nat) (read write : Bool) (l : List (Nat × Nat)) :
    Except (Nat × Nat) (List LaneAcc) :=
  l.foldr (fun x acc =>
    match s.checkLane b space n x.2 read write with
    | .error c => .error (c, x.2)
    | .ok p =>
      match acc with
      | .error e => .error e
      | .ok r => .ok ({ lane := x.1, addr := x.2, place := p } :: r)) (.ok [])

/-- Sectors of 32 bytes that parts of a line cover (R205). -/
def sectorsOf (ps : List AccPart) : Nat :=
  ((ps.flatMap fun p => (List.range ((p.size + 31) / 32)).map fun i => p.addr / 32 + i).eraseDups).length

/-- Sector request slots in use (R206): loads until their data return, stores and atomics until they are accepted. -/
def slotsUsed (k : CoreSt) : Nat :=
  ((k.acc.filter fun a => !a.lm && a.done.isNone).map fun a => sectorsOf a.parts).foldl (· + ·) 0

/-- The accesses of an instruction's parts outside local memory: one for each line of this module, one for each part at
another module. -/
def lineAccesses (mk : Access) (ps : List (Place × AccPart)) : List Access :=
  let here := ps.filterMap fun x => match x.1 with
    | .here pa => some { x.2 with addr := pa }
    | .remote _ _ => none
  let far := ps.filterMap fun x => match x.1 with
    | .here _ => none
    | .remote node pa => some { mk with node := some node, line := pa / 64, parts := [{ x.2 with addr := pa }] }
  ((here.map fun p => p.addr / 64).eraseDups.map fun l =>
    { mk with line := l, parts := here.filter fun p => p.addr / 64 == l }) ++ far

/-- Whether an address may be held by the L1 (08 R231): stacked memory and die shared memory of this module. -/
def cacheable (pa : Nat) : Bool :=
  match regionOf pa with
  | .stack _ _ => true
  | .dsm _ _ => true
  | _ => false

/-- The value of a part in the bytes of its line. -/
def partIn (line : Bytes) (p : AccPart) : Nat := leAt line (p.addr % 64) p.size

/-- A load of a line as it issues: served by the L1 where it holds the line, and otherwise left to its home (R202). -/
def loadL1 (k : CoreSt) (a : Access) : Access :=
  if a.vol || a.node.isSome then a
  else
    match k.l1.find? fun x => x.line == a.line with
    | some x => { a with done := some (a.parts.map (partIn (leBytes 64 x.data.toNat))) }
    | none => a

/-- The bytes of stores laid over an L1 line (R202). -/
def overlay (d : BitVec 512) (ps : List AccPart) : BitVec 512 :=
  BitVec.ofNat 512 (leNat (ps.foldl (fun b p => putLe b (p.addr % 64) p.size p.d0) (leBytes 64 d.toNat)))

/-- The L1 after an access issues: a store updates a copy, an atomic invalidates its line (R202, 08 R233). -/
def issueL1 (l : List L1Line) (a : Access) : List L1Line :=
  if a.node.isSome then l
  else
    match a.kind with
    | .load => l
    | .store => l.map fun x => if x.line = a.line then { x with data := overlay x.data a.parts } else x
    | .atomic => l.filter fun x => x.line != a.line

/-- `OP` of a remote request (12 R365). -/
def requestOp (n aop : Nat) (ret : Bool) : Nat := Nat.log2 n + aop * 8 + if ret then 128 else 0

/-- The payload of a remote store or atomic (12 R365). The manual lays out that of `XADD`; the operands of the other
atomics follow each other. -/
def requestPayload (a : Access) (p : AccPart) : Bytes :=
  match a.kind with
  | .load => []
  | .store => leBytes p.size p.d0
  | .atomic =>
    if a.aop = 0xB then leBytes 4 p.d0 ++ leBytes 1 p.d1 ++ leBytes 1 a.xfmt ++ zeros 10
    else leBytes p.size p.d0 ++ leBytes p.size p.d1

/-- Sends the requests of an access at another module (08 R244, 12 R376). -/
def State.sendAccess (s : State) (core : Nat) (a : Access) : State :=
  match a.node, a.parts with
  | some node, p :: _ =>
    let b := s.coreBerth core
    let kind := match a.kind with
      | .load => 1
      | .store => 2
      | .atomic => 3
    s.sendRequest { unit := core, die := core / 16, node := node, core := core, access := a.id, berth := b } kind
      (s.berth b).job p.addr (requestOp p.size a.aop a.ret) (requestPayload a p)
  | _, _ => s

/-- Whether the core's slots and request numbers have room for an instruction's accesses (R206, 12 R377). -/
def State.accessRoom (s : State) (core : Nat) (as : List Access) : Bool :=
  let k := s.core core
  decide (slotsUsed k + ((as.filter fun a => a.done.isNone).map fun a => sectorsOf a.parts).foldl (· + ·) 0 ≤ 4096) &&
    as.all fun a => match a.node with
      | some n => s.reqRoom core n
      | none => true

/-- Numbers accesses from a core's next number on. -/
def numberAcc (n : Nat) (as : List Access) : List Access := as.zipIdx.map fun x => { x.1 with id := n + x.2 }

/-- The accesses of an instruction are issued: L1, list of open accesses, remote requests. -/
def State.openAccesses (s : State) (core : Nat) (as : List Access) : State :=
  let k := s.core core
  let as := numberAcc k.nextId as
  forL as (s.setCore core { k with
    acc := k.acc ++ as, nextId := k.nextId + as.length, l1 := as.foldl issueL1 k.l1 }) fun a t => t.sendAccess core a

/-- The register bytes of an operand of `n` bytes, from its first register on (R189). -/
def GroupSt.regData (g : GroupSt) (x : BitVec 8) (n lane : Nat) : Nat :=
  if isScalar x then
    leNat (((List.range ((n + 7) / 8)).flatMap fun i => leBytes 8 (g.sregAt (specIdx x + i)).toNat).take n)
  else leNat (((List.range ((n + 3) / 4)).flatMap fun i => leBytes 4 (g.vreg (specIdx x + i) lane).toNat).take n)

/-- A loaded value written to its registers (R189, R212): 1 and 2 bytes extended to the register. -/
def GroupSt.putData (g : GroupSt) (reg lane n v : Nat) (sext : Bool) : GroupSt :=
  let w := if sext ∧ n ≤ 2 then unsignedOf 64 (signedOf (8 * n) v) else v
  if 128 ≤ reg then
    forN ((n + 7) / 8) g fun i h => h.setS (reg - 128 + i) (BitVec.ofNat 64 (w / 2 ^ (64 * i)))
  else forN ((n + 3) / 4) g fun i h => h.setV (reg + i) lane (BitVec.ofNat 32 (w / 2 ^ (32 * i)))

/-- The lanes of a per-thread instruction with their addresses; lane 32 for a scalar one. -/
def laneAddrs (i : Issue) (a b : BitVec 8) (off : BitVec 16) (scalar : Bool) : List (Nat × Nat) :=
  if scalar then [(32, i.g.scalarAddr a off)]
  else (lanesOf i.cur.mask).map fun l => (l, i.g.laneAddr a b off l)

/-- The registers that an address reads. -/
def addrSrcs (o : MemOp) (scalar : Bool) : List Nat := if scalar then [o.a.toNat] else [o.a.toNat, o.b.toNat]

/-- L1 lines that failed their check when a load read them are discarded (08 R249). -/
def dropBad (k : CoreSt) (lines : List Nat) : CoreSt :=
  let n := (k.l1.filter fun x => lines.contains x.line).length
  { k with l1 := k.l1.filter (fun x => !lines.contains x.line), l1Fails := k.l1Fails + n }

/-- An access of the running path, before its parts are known. -/
def Issue.access (i : Issue) (t : At) (kind : AccKind) : Access :=
  { id := 0, group := t.group, launch := i.k.launch, kind := kind, pc := i.cur.pc, lanes := i.cur.mask, line := 0, parts := [] }

/-- The parts of an instruction that lie in local memory. -/
def lmParts (f : LaneAcc → AccPart) (ls : List LaneAcc) : List AccPart := (ls.filter fun x => x.place.isNone).map f

/-- The parts of an instruction that lie outside local memory, with their places. -/
def placedParts (f : LaneAcc → AccPart) (ls : List LaneAcc) : List (Place × AccPart) :=
  ls.filterMap fun x => x.place.map fun p => (p, f x)

/-- One lane's part of a load. -/
def loadPart (o : MemOp) (x : LaneAcc) : AccPart :=
  { lane := x.lane, addr := x.addr, size := sizeBytes o.size, va := x.addr, reg := o.dst.toNat }

/-- A load's accesses outside local memory, those that the L1 serves with their values (R202). -/
def loadFar (k : CoreSt) (t : At) (i : Issue) (o : MemOp) (ls : List LaneAcc) : List Access :=
  (lineAccesses { i.access t .load with vol := o.vol, sext := o.sext } (placedParts (loadPart o) ls)).map (loadL1 k)

/-- A load's access to local memory, which is performed as it issues. -/
def loadNear (k : CoreSt) (t : At) (i : Issue) (o : MemOp) (ls : List LaneAcc) : List Access :=
  let lm := lmParts (loadPart o) ls
  if lm.isEmpty then []
  else [{ i.access t .load with sext := o.sext, vol := o.vol, lm := true, parts := lm,
                                done := some (lm.map fun p => k.lm.num p.addr p.size) }]

/-- A load (`LD`, `LDS`). Local memory is read now; a line that the L1 holds is served by it; the rest waits for its home.
`l1bad` are the L1 lines that fail their check. -/
def State.loadIssue (s : State) (t : At) (o : MemOp) (scalar : Bool) (l1bad : List Nat) : State :=
  s.issue t (addrSrcs o scalar) fun i =>
    match s.checkLanes i.k.berth o.space.toNat (sizeBytes o.size) true false (laneAddrs i o.a o.b o.off scalar) with
    | .error e => s.abortGroup t i.cur.pc i.cur.mask e.1 e.2
    | .ok ls =>
      let touched := (lineAccesses { i.access t .load with vol := o.vol, sext := o.sext }
        (placedParts (loadPart o) ls)).filterMap fun a => if a.node.isNone && !a.vol then some a.line else none
      let k := dropBad (s.core t.core) (l1bad.filter fun l => touched.contains l)
      if s.accessRoom t.core (loadFar k t i o ls) then
        ((s.setCore t.core k).openAccesses t.core (loadNear k t i o ls ++ loadFar k t i o ls)).next t i i.g
      else s

/-- `LD`: 1 to 16 bytes for each active lane. -/
def execLd (t : At) (o : MemOp) (l1bad : List Nat) (s : State) : Result :=
  .next (if memOk 0x60 o then s.loadIssue t o false l1bad else s)

/-- `LDS`: 1 to 64 bytes into scalar registers. -/
def execLds (t : At) (o : MemOp) (l1bad : List Nat) (s : State) : Result :=
  .next (if memOk 0x63 o then s.loadIssue t o true l1bad else s)

/-- One lane's part of a store, with its data. -/
def storePart (i : Issue) (o : MemOp) (x : LaneAcc) : AccPart :=
  { lane := x.lane, addr := x.addr, size := sizeBytes o.size, va := x.addr, d0 := i.g.regData o.dst (sizeBytes o.size) x.lane }

/-- A store's accesses outside local memory. -/
def storeFar (t : At) (i : Issue) (o : MemOp) (ls : List LaneAcc) : List Access :=
  lineAccesses (i.access t .store) (placedParts (storePart i o) ls)

/-- Local memory after a store, its parts written in ascending lane order (R203). -/
def storeLm (lm : Store) (ps : List AccPart) : Store :=
  ps.foldl (fun m p => m.write p.addr (leBytes p.size p.d0) false) lm

/-- The registers that a store reads. -/
def storeSrcs (o : MemOp) (scalar : Bool) : List Nat :=
  addrSrcs o scalar ++ partRegs { lane := 0, addr := 0, size := sizeBytes o.size, reg := o.dst.toNat }

/-- A store (`ST`, `STS`): local memory is written now, in ascending lane order (R203); the rest goes to its homes. -/
def State.storeIssue (s : State) (t : At) (o : MemOp) (scalar : Bool) : State :=
  s.issue t (storeSrcs o scalar) fun i =>
    match s.checkLanes i.k.berth o.space.toNat (sizeBytes o.size) false true (laneAddrs i o.a o.b o.off scalar) with
    | .error e => s.abortGroup t i.cur.pc i.cur.mask e.1 e.2
    | .ok ls =>
      if s.accessRoom t.core (storeFar t i o ls) then
        let s := s.modCore t.core fun k => { k with lm := storeLm k.lm (lmParts (storePart i o) ls) }
        (s.openAccesses t.core (storeFar t i o ls)).next t i i.g
      else s

/-- `ST`: 1 to 16 bytes from each active lane. -/
def execSt (t : At) (o : MemOp) (s : State) : Result := .next (if memOk 0x61 o then s.storeIssue t o false else s)

/-- `STS`: 1 to 64 bytes from scalar registers. -/
def execSts (t : At) (o : MemOp) (s : State) : Result := .next (if memOk 0x64 o then s.storeIssue t o true else s)

/-- Data registers of an atomic (R213). -/
def atomRegs (aop n : Nat) : Nat := if aop = 0xB then 2 else if aop = 0x9 then n / 2 else n / 4

/-- Atomics of local memory in ascending lane order (R203): the memory after, and the values found. -/
def lmAtomics (lm : Store) (aop xfmt : Nat) (ps : List AccPart) : Store × List Nat :=
  ps.foldl (fun r p =>
    let op := atomicOp aop p.size xfmt p.d0 p.d1
    let old := r.1.num p.addr p.size
    (r.1.write p.addr (leBytes p.size (op.f old)) false, r.2 ++ [old])) (lm, [])

/-- Bytes of an operand of an atomic: an `XADD` takes an addend and a scale of one register each (R213). -/
def atomWidth (aop : Nat) (o : AtomOp) : Nat := if aop = 0xB then 4 else sizeBytes o.size

/-- One lane's part of an atomic, with its operands (R213). -/
def atomPart (i : Issue) (aop : Nat) (o : AtomOp) (x : LaneAcc) : AccPart :=
  { lane := x.lane, addr := x.addr, size := sizeBytes o.size, va := x.addr, reg := o.dst.toNat,
    d0 := i.g.regData o.dst (atomWidth aop o) x.lane,
    d1 := i.g.regData (o.dst + BitVec.ofNat 8 (atomWidth aop o / 4)) (atomWidth aop o) x.lane }

/-- An atomic's access before its parts are known. -/
def Issue.atom (i : Issue) (t : At) (aop : Nat) (o : AtomOp) : Access :=
  { i.access t .atomic with aop := aop, xfmt := o.xfmt.toNat, ret := o.ret }

/-- An atomic's accesses outside local memory. -/
def atomFar (t : At) (i : Issue) (aop : Nat) (o : AtomOp) (ls : List LaneAcc) : List Access :=
  lineAccesses (i.atom t aop o) (placedParts (atomPart i aop o) ls)

/-- The registers that an atomic reads. -/
def atomSrcs (aop : Nat) (o : AtomOp) : List Nat :=
  [o.a.toNat, o.b.toNat] ++ specGroup o.dst.toNat (atomRegs aop (sizeBytes o.size))

/-- An atomic (`ATOM`): one for each active lane. -/
def State.atomIssue (s : State) (t : At) (aop : Nat) (o : AtomOp) : State :=
  s.issue t (atomSrcs aop o) fun i =>
    match s.checkLanes i.k.berth o.space.toNat (sizeBytes o.size) true true (laneAddrs i o.a o.b o.off false) with
    | .error e => s.abortGroup t i.cur.pc i.cur.mask e.1 e.2
    | .ok ls =>
      if s.accessRoom t.core (atomFar t i aop o ls) then
        let lm := lmParts (atomPart i aop o) ls
        let r := lmAtomics (s.core t.core).lm aop o.xfmt.toNat lm
        let s := s.modCore t.core fun k => { k with lm := r.1 }
        let near := if lm.isEmpty || !o.ret then [] else [{ i.atom t aop o with lm := true, parts := lm, done := some r.2 }]
        (s.openAccesses t.core (near ++ atomFar t i aop o ls)).next t i i.g
      else s

/-- `ATOM` `ADD`: integer add (R213). -/
def execAtomAdd (t : At) (o : AtomOp) (s : State) : Result :=
  .next (if atomOk 0x0 o then s.atomIssue t 0x0 o else s)

/-- `ATOM` `SMIN`: signed minimum (R213). -/
def execAtomSmin (t : At) (o : AtomOp) (s : State) : Result :=
  .next (if atomOk 0x1 o then s.atomIssue t 0x1 o else s)

/-- `ATOM` `SMAX`: signed maximum (R213). -/
def execAtomSmax (t : At) (o : AtomOp) (s : State) : Result :=
  .next (if atomOk 0x2 o then s.atomIssue t 0x2 o else s)

/-- `ATOM` `UMIN`: unsigned minimum (R213). -/
def execAtomUmin (t : At) (o : AtomOp) (s : State) : Result :=
  .next (if atomOk 0x3 o then s.atomIssue t 0x3 o else s)

/-- `ATOM` `UMAX`: unsigned maximum (R213). -/
def execAtomUmax (t : At) (o : AtomOp) (s : State) : Result :=
  .next (if atomOk 0x4 o then s.atomIssue t 0x4 o else s)

/-- `ATOM` `AND`: AND (R213). -/
def execAtomAnd (t : At) (o : AtomOp) (s : State) : Result :=
  .next (if atomOk 0x5 o then s.atomIssue t 0x5 o else s)

/-- `ATOM` `OR`: OR (R213). -/
def execAtomOr (t : At) (o : AtomOp) (s : State) : Result :=
  .next (if atomOk 0x6 o then s.atomIssue t 0x6 o else s)

/-- `ATOM` `XOR`: XOR (R213). -/
def execAtomXor (t : At) (o : AtomOp) (s : State) : Result :=
  .next (if atomOk 0x7 o then s.atomIssue t 0x7 o else s)

/-- `ATOM` `EXCH`: replace (R213). -/
def execAtomExch (t : At) (o : AtomOp) (s : State) : Result :=
  .next (if atomOk 0x8 o then s.atomIssue t 0x8 o else s)

/-- `ATOM` `CAS`: replace if equal (R213). -/
def execAtomCas (t : At) (o : AtomOp) (s : State) : Result :=
  .next (if atomOk 0x9 o then s.atomIssue t 0x9 o else s)

/-- `ATOM` `FADD`: FP32 add (R213). -/
def execAtomFadd (t : At) (o : AtomOp) (s : State) : Result :=
  .next (if atomOk 0xA o then s.atomIssue t 0xA o else s)

/-- `ATOM` `XADD`: exact-float add to a cell (R213). -/
def execAtomXadd (t : At) (o : AtomOp) (s : State) : Result :=
  .next (if atomOk 0xB o then s.atomIssue t 0xB o else s)

/-- An open access of a core. -/
def CoreSt.access (k : CoreSt) (id : Nat) : Option Access := k.acc.find? fun a => a.id == id

/-- Whether an earlier access of the core to the same line is not yet performed (08 R227). -/
def CoreSt.behind (k : CoreSt) (a : Access) : Bool :=
  (k.acc.takeWhile fun x => x.id != a.id).any fun x =>
    !x.lm && x.done.isNone && x.line == a.line && x.node == a.node

/-- The state with an access of a core removed. -/
def State.dropAccess (s : State) (core id : Nat) : State :=
  s.modCore core fun k => { k with acc := k.acc.filter fun a => a.id != id }

/-- The state with an access of a core changed. -/
def State.modAccess (s : State) (core id : Nat) (f : Access → Access) : State :=
  s.modCore core fun k => { k with acc := k.acc.map fun a => if a.id = id then f a else a }

/-- The results of an access reach their registers, if its kernel still runs, and the access ends. -/
def State.returnAccess (s : State) (core : Nat) (a : Access) (vals : List Nat) : State :=
  let s := s.dropAccess core a.id
  match s.kern core with
  | none => s
  | some k =>
    if k.launch = a.launch then
      let put := fun (g : GroupSt) =>
        forL (a.parts.zip vals) g fun x h => h.putData x.1.reg x.1.lane x.1.size x.2 a.sext
      s.modKern core fun k => { k with groups := tmod k.groups {} a.group put }
    else s

/-- A line enters the L1 of 2,048 lines, overlaid by the core's younger stores to it; a younger atomic to the line keeps
it out (08 R228, R233). `victim` is the line replaced in a full L1. -/
def fillL1 (k : CoreSt) (a : Access) (data : Bytes) (victim : Nat) : CoreSt :=
  let younger := (k.acc.dropWhile fun x => x.id != a.id).filter fun x => x.line == a.line && x.node.isNone && !x.lm
  if younger.any fun x => x.kind == .atomic then k
  else
    let d := (younger.filter fun x => x.kind == .store).foldl (fun d x => overlay d x.parts) (BitVec.ofNat 512 (leNat data))
    let rest := k.l1.filter fun x => x.line != a.line
    let rest := if rest.length < 2048 then rest else rest.eraseIdx (victim % 2048)
    { k with l1 := rest ++ [{ line := a.line, data := d }] }

/-- A load read at its home in this module (R201, R204, 08 R225): values, and the line for the L1. -/
def State.homeLoad (s : State) (core : Nat) (a : Access) (victim : Nat) : State × List Nat :=
  let b := s.coreBerth core
  match regionOf (a.line * 64) with
  | .control _ off =>
    let o := off / 64 * 64
    (s.nextFree, a.parts.map fun p => leNat (s.controlRead b (o + p.addr % 64) p.size))
  | _ =>
    let line := s.memRead (a.line * 64) 64
    let s1 := s.poisonReads (some b) core (a.line * 64) 64
    let s2 := if a.vol || !cacheable (a.line * 64) then s1 else s1.modCore core fun k => fillL1 k a line victim
    (s2, a.parts.map (partIn line))

/-- `LOAD_DATA_RETURN`: a load's data return to its registers; a load that was left to its home in this module is read
there now, behind the core's earlier accesses to the line (R187, 08 R227). -/
def execLoadDataReturn (core id victim : Nat) (s : State) : Result :=
  let k := s.core core
  .next (match k.access id with
    | none => s
    | some a =>
      if a.kind ≠ .load then s
      else
        match a.done with
        | some vals => s.returnAccess core a vals
        | none =>
          if a.node.isSome || k.behind a then s
          else
            let r := s.homeLoad core a victim
            r.1.returnAccess core a r.2)

/-- `ATOMIC_RETURN`: the values an atomic with `RET` found reach its registers (R212). -/
def execAtomicReturn (core id : Nat) (s : State) : Result :=
  .next (match (s.core core).access id with
    | none => s
    | some a =>
      match a.kind, a.done with
      | .atomic, some vals => s.returnAccess core a vals
      | _, _ => s)

/-- Whether the home of a line can accept a store or atomic now (11 R321, 09 R266). -/
def State.homeRoom (s : State) (pa : Nat) : Bool :=
  match regionOf pa with
  | .control d off => s.controlRoom d off
  | _ => s.wcbRoom pa

/-- One part of a store or atomic performed at its home: the state, and the value an atomic found. -/
def State.performPart (s : State) (core b : Nat) (a : Access) (p : AccPart) : State × Nat :=
  match regionOf p.addr with
  | .control d off =>
    match a.kind with
    | .store => (s.controlWrite b d off (leBytes p.size p.d0), 0)
    | _ =>
      let old := leNat (s.controlRead b off p.size)
      (s.nextFree.controlWrite b d off (leBytes p.size ((atomicOp a.aop p.size a.xfmt p.d0 p.d1).f old)), old)
  | _ =>
    match a.kind with
    | .store => (s.homeStore p.addr (leBytes p.size p.d0), 0)
    | _ => s.homeAdd (some b) core p.addr (atomicOp a.aop p.size a.xfmt p.d0 p.d1)

/-- A store or atomic performed: its parts in ascending lane order (R203). A returning atomic waits for its return. -/
def State.perform (s : State) (core : Nat) (a : Access) : State :=
  let b := (tfind s.launches a.launch).elim (s.coreBerth core) fun l => l.berth
  let r := a.parts.foldl (fun (r : State × List Nat) p =>
    let x := r.1.performPart core b a p
    (x.1, r.2 ++ [x.2])) (s, [])
  if a.kind = .atomic ∧ a.ret then r.1.modAccess core a.id fun x => { x with done := some r.2 }
  else r.1.dropAccess core a.id

/-- `HOME_ACCEPT`: a store or atomic of a core takes its place in its line's coherence order (08 R224, R227). -/
def execHomeAccept (core id : Nat) (s : State) : Result :=
  let k := s.core core
  .next (match k.access id with
    | none => s
    | some a =>
      if a.kind = .load ∨ a.done.isSome ∨ a.node.isSome ∨ k.behind a ∨ s.homeRoom (a.line * 64) = false then s
      else s.perform core a)

end Sys2Proof.Machine
end

