-- ==== Sys2Proof/Machine/Control.lean ====
section
/-!
DEFINITION. Fences, barriers, control instructions and the forward-progress monitor
(07 R191-R198, R214-R216, 08 R233-R239).
-/

namespace Sys2Proof.Machine

/-! Paths that go on. -/

/-- The state with a group's stack replaced. -/
def State.putStack (s : State) (t : At) (l : List PathEnt) : State :=
  match s.group t with
  | none => s
  | some g => s.setGroup t { g with stack := l }

/-- A path that has gone past a word: behind the code's end the kernel is aborted (R216). -/
def State.passed (s : State) (t : At) (e : PathEnt) : State :=
  match s.kern t.core with
  | none => s
  | some k => if e.pc + 8 < k.codeBytes then s else s.abortGroup t e.pc e.mask 0x0386

/-- The paths of a group that a choice picks go past their word. -/
def State.passPaths (s : State) (t : At) (p : PathEnt → Bool) : State :=
  match s.group t with
  | none => s
  | some g =>
    let step := fun (e : PathEnt) => if p e then { e with pc := e.pc + 8, fence := none } else e
    forL (g.stack.filter p) (s.putStack t (g.stack.map step)) fun e u => u.passed t e

/-! Fences (R214, 08 R233-R235). -/

/-- Whether an access of a group, numbered below `n`, has not been performed. -/
def State.unperformed (s : State) (t : At) (launch n : Nat) : Bool :=
  (s.core t.core).acc.any fun a => a.group == t.group && a.launch == launch && decide (a.id < n) && a.done.isNone

/-- `FENCE`: the path waits for what its group issued before. -/
def execFence (t : At) (scope : BitVec 2) (s : State) : Result :=
  .next (s.issue t [] fun i =>
    let e := { i.cur with fence := some (scope.toNat, (s.core t.core).nextId) }
    s.setGroup t { i.g with stack := i.above ++ e :: i.below })

/-- Whether a path's fence has what it waits for. -/
def State.fenceDone (s : State) (t : At) (launch : Nat) (e : PathEnt) : Bool :=
  match e.fence with
  | some (_, n) => !s.unperformed t launch n
  | none => false

/-- `FENCE_COMPLETE`: the awaited accesses are performed; scope 1 or wider invalidates the L1; the path goes on. -/
def execFenceComplete (t : At) (s : State) : Result :=
  .next (match s.kern t.core, s.group t with
    | some k, some g =>
      match g.stack.find? (s.fenceDone t k.launch) with
      | none => s
      | some e =>
        let s := if (e.fence.elim 0 fun f => f.1) = 0 then s else s.modCore t.core fun c => { c with l1 := [] }
        s.passPaths t fun x => x == e
    | _, _ => s)

/-! Barriers (R194, R195, 08 R239). -/

/-- A barrier is complete: all lanes that wait at it go on, and a new generation starts. -/
def State.releaseBarrier (s : State) (core bid : Nat) : State :=
  match s.kern core with
  | none => s
  | some k =>
    let w := (tget k.barriers {} bid).waiting
    forL w (s.modKern core fun x => { x with barriers := tdel x.barriers bid }) fun x u =>
      u.passPaths { core := core, group := x.1 } fun e => !e.join && (e.mask &&& x.2 != 0)

/-- `BAR`: the active lanes arrive at a barrier, and wait there unless `ARRIVE_ONLY` is set. An arrival counts once
every access that its group issued is performed. A bad count aborts the kernel (R195). -/
def execBar (t : At) (a : BitVec 8) (bid : BitVec 4) (arriveOnly cnti : Bool) (imm : BitVec 16) (s : State) : Result :=
  .next (if cnti || scalarOk a then
      s.issue t (if cnti then [] else [a.toNat]) fun i =>
        let count := if cnti then imm.toNat else i.g.srcS a
        let b := tget i.k.barriers {} bid.toNat
        if s.unperformed t i.k.launch (s.core t.core).nextId then s
        else if count = 0 ∨ 2048 < count ∨ (b.arrivals ≠ 0 ∧ count ≠ b.count) then
          s.abortGroup t i.cur.pc i.cur.mask 0x0381 count (b.arrivals + b.count * 2 ^ 12 + bid.toNat * 2 ^ 24)
        else
          let n := b.arrivals + (lanesOf i.cur.mask).length
          let b' : BarrierSt := { arrivals := n, count := count,
                                  waiting := b.waiting ++ if arriveOnly then [] else [(t.group, i.cur.mask)] }
          let s := s.setGroup t { i.g with stack := i.above ++ i.cur :: i.below }
          let s := s.modKern t.core fun k => { k with barriers := tset k.barriers bid.toNat b' }
          let s := if arriveOnly then s.next t i i.g else s
          if count ≤ n then s.releaseBarrier t.core bid.toNat else s
    else s)

/-! Jumps (R216). -/

/-- A jump of the running path to an offset in instructions, which R218 has held inside the code. -/
def State.jump (s : State) (t : At) (i : Issue) (off : Int) : State := s.goto t i i.g ((i.cur.pc : Int) + 8 * off)

/-- `BRA`: jump. -/
def execBra (t : At) (tgt : BitVec 16) (s : State) : Result :=
  .next (s.issue t [] fun i => if inCode i.k.codeBytes i.cur.pc tgt.toInt then s.jump t i tgt.toInt else s)

/-- `BRS`: jump if the scalar is not zero (`COND` 0) or zero (`COND` 1). -/
def execBrs (t : At) (a : BitVec 8) (cond : Bool) (tgt : BitVec 16) (s : State) : Result :=
  .next (if scalarOk a then
      s.issue t [a.toNat] fun i =>
        if inCode i.k.codeBytes i.cur.pc tgt.toInt then
          if (i.g.srcS a == 0) == cond then s.jump t i tgt.toInt else s.next t i i.g
        else s
    else s)

/-- The lanes of a mask for which a condition holds. -/
def lanesWhere (m : BitVec 32) (p : Nat → Bool) : BitVec 32 :=
  (lanesOf m).foldl (fun x l => if p l then x ||| BitVec.twoPow 32 l else x) 0

/-- `BRC`: the divergent branch of R191. A split that would take the stack beyond 32 entries aborts the kernel (R192). -/
def execBrc (t : At) (a : BitVec 8) (cond : Bool) (tgt join : BitVec 16) (s : State) : Result :=
  .next (if threadOk a then
      s.issue t [a.toNat] fun i =>
        let pc := i.cur.pc
        if join ≠ 0 ∧ inCode i.k.codeBytes pc tgt.toInt ∧ inCode i.k.codeBytes pc join.toNat then
          let taken := lanesWhere i.cur.mask fun l => (i.g.vreg (specIdx a) l == 0) == cond
          let fall := i.cur.mask &&& ~~~taken
          if taken = 0 then s.next t i i.g
          else if fall = 0 then s.jump t i tgt.toInt
          else if 32 < i.above.length + 1 + i.below.length + 2 then s.abortGroup t pc i.cur.mask 0x0382
          else
            let jpc := pc + 8 * join.toNat
            let up : PathEnt := { pc := ((pc : Int) + 8 * tgt.toInt).toNat, rpc := some jpc, mask := taken }
            let dn : PathEnt := { pc := pc + 8, rpc := some jpc, mask := fall }
            s.setGroup t { i.g with
              stack := dn :: up :: (i.above ++ { i.cur with join := true, pc := jpc } :: i.below) }
        else s
    else s)

/-- `JMPS`: jump to a code offset: a multiple of 8 below `CODE_BYTES`, or the kernel is aborted. -/
def execJmps (t : At) (a : BitVec 8) (s : State) : Result :=
  .next (if scalarOk a then
      s.issue t [a.toNat] fun i =>
        let x := i.g.srcS a
        if x % 8 = 0 ∧ x < i.k.codeBytes then s.goto t i i.g x else s.abortGroup t i.cur.pc i.cur.mask 0x0386
    else s)

/-- `WAITC`: goes on once the counter is at or below the threshold. A group that starts to wait closes the open fills
that hold a request of the counter (R198, 03 R96). -/
def execWaitc (t : At) (tk : BitVec 3) (thr : BitVec 16) (s : State) : Result :=
  .next (if thr.toNat ≤ 128 then
      s.issue t [] fun i =>
        if i.g.counter tk.toNat ≤ thr.toNat then s.next t i i.g
        else
          let mine := fun (k : CoreSt) (f : FillSt) => k.aq.any fun e =>
            e.fill == some f.id && e.group == t.group && e.launch == i.k.launch && e.tk == tk.toNat
          s.modCore t.core fun k => ((openFills k).filter (mine k)).foldl (fun k f => closeFill k f.id) k
    else s)

/-- `EXIT`: the path's lanes leave every entry of the stack (R192). A group that exits with an open chain aborts its
kernel (03 R87). -/
def execExitPath (t : At) (s : State) : Result :=
  .next (s.issue t [] fun i =>
    let rest := (i.above ++ i.cur :: i.below).map fun e => { e with mask := e.mask &&& ~~~i.cur.mask }
    let g := { i.g with stack := rest.filter fun e => e.mask != 0 }
    match g.stack, g.chain with
    | [], some c => s.abortGroup t i.cur.pc i.cur.mask 0x0181 c.desc
    | _, _ => s.setGroup t g)

/-- `TRAP`: aborts the kernel with `USER_TRAP`. -/
def execTrap (t : At) (imm : BitVec 16) (s : State) : Result :=
  .next (s.issue t [] fun i => s.abortGroup t i.cur.pc i.cur.mask 0x0387 0 imm.toNat)

/-! The forward-progress monitor (R196). -/

/-- The lanes of a group that have not exited. -/
def liveLanes (g : GroupSt) : BitVec 32 := g.stack.foldl (fun m e => m ||| e.mask) 0

/-- The lowest barrier with waiting lanes and fewer arrivals than its count, where every live lane of the kernel waits. -/
def strandedBarrier (k : KernSt) : Option Nat :=
  if (List.range k.nGroups).all fun g => liveLanes (tget k.groups {} g) &&& ~~~(waitingLanes k g) == 0 then
    firstBelow 16 fun b =>
      let x := tget k.barriers {} b
      !x.waiting.isEmpty && decide (x.arrivals < x.count)
  else none

/-- `FORWARD_PROGRESS_CHECK`: the second of two examinations in a row that finds a stranded barrier aborts the kernel. -/
def execForwardProgressCheck (core : Nat) (s : State) : Result :=
  .next (match s.kern core with
    | none => s
    | some k =>
      match strandedBarrier k with
      | none => s.modKern core fun x => { x with stranded := false }
      | some b =>
        if !k.stranded then s.modKern core fun x => { x with stranded := true }
        else
          let x := tget k.barriers {} b
          let grp := (x.waiting.map fun w => w.1).foldl min 63
          let m := (x.waiting.filter fun w => w.1 == grp).foldl (fun a w => a ||| w.2) 0
          let e := ((tget k.groups {} grp).stack.find? fun e => !e.join && (e.mask &&& m != 0)).getD { pc := 0, mask := 0 }
          s.abortGroup { core := core, group := grp } e.pc e.mask 0x0380 0
            (x.arrivals + x.count * 2 ^ 12 + b * 2 ^ 24))

end Sys2Proof.Machine
end

