-- ==== Sys2Proof/Machine/Kernel.lean ====
section
/-!
DEFINITION. Kernel images and the start and end of a kernel on a core (07 R200, R217-R221).
-/

namespace Sys2Proof.Machine

/-- The header of a kernel image (R217). -/
structure ImgHdr where
  codeBytes : Nat
  entry : Nat
  groups : Nat
  minFw : Nat
  dataBytes : Nat
  dataLm : Nat
  argBytes : Nat
  argLm : Nat
  flags : Nat
deriving DecidableEq, Repr

/-- The fields of an image's first 128 bytes. -/
def imgHdr (h : Bytes) : ImgHdr :=
  { codeBytes := leAt h 8 4, entry := leAt h 12 4, groups := leAt h 16 2, minFw := leAt h 18 2, dataBytes := leAt h 20 4,
    dataLm := leAt h 24 4, argBytes := leAt h 28 4, argLm := leAt h 32 4, flags := leAt h 36 4 }

/-- Whether the code and data sizes keep R217. -/
def imgSizesOk (h : ImgHdr) : Bool :=
  decide (8 ≤ h.codeBytes) && decide (h.codeBytes ≤ 1048576) && h.codeBytes % 8 == 0 &&
    decide (h.dataBytes ≤ 0x400000) && h.dataBytes % 64 == 0

/-- Whether the header's fixed fields keep R217 (`IMG_HEADER`). -/
def imgHeaderOk (b : Bytes) : Bool :=
  let h := imgHdr b
  b.take 4 == [0x50, 0x56, 0x4B, 0x49] && leAt b 4 2 == 1 && decide (1 ≤ h.groups) && decide (h.groups ≤ 64) &&
    decide (h.flags < 2) && leAt b 40 40 == 0

/-- Whether sizes and extents keep R217 and R218 (`IMG_SIZE`). -/
def imgExtentsOk (h : ImgHdr) : Bool :=
  imgSizesOk h && h.dataLm % 64 == 0 && h.argLm % 64 == 0 && h.argBytes % 8 == 0 && decide (h.argBytes ≤ 4096) &&
    decide (h.dataLm + h.dataBytes ≤ 0x400000) && decide (h.argLm + h.argBytes ≤ 0x400000) &&
    (h.dataBytes == 0 || h.argBytes == 0 || decide (h.dataLm + h.dataBytes ≤ h.argLm) ||
      decide (h.argLm + h.argBytes ≤ h.dataLm))

/-- The words of an image's code that fail, with their codes and offsets. -/
def badWords (codeBytes : Nat) (code : Bytes) : List (Nat × Nat) :=
  ((List.range (codeBytes / 8)).map fun i => (wordCode codeBytes (8 * i) (leAt code (8 * i) 8), 8 * i)).filter
    fun x => x.1 != 0

/-- Every check that the bytes of an image fail, with the offset of the word, or all-ones. -/
def imageFails (b : Bytes) (fw : Nat) : List (Nat × Nat) :=
  let h := imgHdr b
  let one : Bool → Nat → List (Nat × Nat) := fun ok code => if ok then [] else [(code, 0xFFFFFFFF)]
  let body := if imgSizesOk h then
      let code := (b.drop 128).take h.codeBytes
      one (sha384 (b.take 80 ++ (b.drop 128).take (h.codeBytes + h.dataBytes)) == (b.drop 80).take 48) 0x0302 ++
        badWords h.codeBytes code
    else []
  one (imgHeaderOk b) 0x0300 ++ one (imgExtentsOk h) 0x0301 ++
    one (h.entry % 8 == 0 && decide (h.entry < h.codeBytes)) 0x0306 ++ one (decide (h.minFw ≤ fw)) 0x0308 ++ body

/-- The lowest code of a list, with its first offset. -/
def lowestFail (l : List (Nat × Nat)) : Option (Nat × Nat) :=
  l.foldl (fun a x => match a with
    | none => some x
    | some y => if x.1 < y.1 then some x else a) none

/-- The validation of an image at launch (R218): the lowest code that fails, with the word's offset. -/
def State.imageCode (s : State) (b va fw : Nat) : Option (Nat × Nat) :=
  let maps := (s.berth b).maps
  if !s.rangeOk b maps va 128 false then some (0x0307, 0xFFFFFFFF)
  else
    let h := imgHdr (s.engineRead 0 b maps 1 va 128).1
    let n := if imgSizesOk h then 128 + h.codeBytes + h.dataBytes else 128
    if s.rangeOk b maps va n false then lowestFail (imageFails (s.engineRead 0 b maps 1 va n).1 fw)
    else lowestFail ((0x0307, 0xFFFFFFFF) :: (imageFails ((s.engineRead 0 b maps 1 va 128).1) fw).filter
      fun x => x.1 == 0x0300 || x.1 == 0x0301 || x.1 == 0x0306 || x.1 == 0x0308)

/-- The poisoned lines of a virtual range of a berth. -/
def State.poisonLines (s : State) (b : Nat) (maps : List MapEnt) (va n : Nat) : List Nat :=
  (((List.range (n / 64 + 2)).map fun i => (va / 64 + i) * 64).filter fun a => decide (a < va + n)).filterMap
    (s.enginePoison b maps 1)

/-- Copies berth memory to local memory; a piece that takes a marked byte is marked (06 R156). -/
def State.copyToLm (s : State) (c b va lm n : Nat) : State :=
  let maps := (s.berth b).maps
  let s := forL (s.poisonLines b maps va n) s fun p t => t.poisonRead (some b) c (64 * p)
  forL (List.range ((n + 63) / 64)) s fun i t =>
    let k := min 64 (n - 64 * i)
    let r := t.engineRead c b maps 1 (va + 64 * i) k
    t.modCore c fun x => { x with lm := x.lm.write (lm + 64 * i) r.1 r.2 }

/-- A group as it starts (R185, R188, R191). -/
def groupStart (entry : Nat) : GroupSt := { stack := [{ pc := entry, mask := BitVec.allOnes 32 }] }

/-- Whether a launch still runs and has not been stopped. -/
def State.launchLive (s : State) (launch : Nat) : Bool := (tfind s.launches launch).elim false fun l => !l.stopped

/-- `KERNEL_START`: a core that holds a launch's kernel clears its local memory under `ZERO_LM`, copies data and arguments
into it, invalidates its L1 and starts the groups (R219, 06 R154, R156, 08 R233). -/
def execKernelStart (core : Nat) (s : State) : Result :=
  .next (match s.kern core with
    | none => s
    | some k =>
      if k.started || !s.launchLive k.launch then s
      else
        let s := s.nextFree
        let h := imgHdr (s.engineRead core k.berth (s.berth k.berth).maps 1 k.image 128).1
        let s := s.modCore core fun x => { x with
          lm := if h.flags % 2 = 1 then {} else x.lm, l1 := [], vr := [], cache := [], vrMark := [], cacheMark := [],
          amax := [] }
        let s := s.copyToLm core k.berth (k.image + 128 + h.codeBytes) h.dataLm h.dataBytes
        let s := s.copyToLm core k.berth k.argVa h.argLm h.argBytes
        s.modKern core fun k => { k with
          started := true, nGroups := h.groups, codeBytes := h.codeBytes, entry := h.entry, argLm := h.argLm,
          groups := (List.range h.groups).map fun g => (g, groupStart h.entry), barriers := [] })

/-- Whether a kernel has ended on a core (R200): no lane left, no matrix or vector work, no store or atomic on its way. -/
def State.kernelOver (s : State) (core : Nat) (k : KernSt) : Bool :=
  let c := s.core core
  (k.started || !s.launchLive k.launch) && ((List.range k.nGroups).all fun g => liveLanes (tget k.groups {} g) == 0) &&
    !(c.aq.any fun e => e.launch == k.launch) && !(c.vq.any fun e => e.launch == k.launch) &&
    !(c.acc.any fun a => a.launch == k.launch && a.kind != .load && a.done.isNone)

/-- A core leaves its launch. -/
def State.leaveLaunch (s : State) (core launch : Nat) : State :=
  s.modLaunch launch fun l => { l with running := l.running.filter fun c => c != core }

/-- `KERNEL_END`: the kernel has ended on the core: amax registers not handed over are discarded and counted, and the
core is free (R200, 06 R177). -/
def execKernelEnd (core : Nat) (s : State) : Result :=
  .next (match s.kern core with
    | none => s
    | some k =>
      if s.kernelOver core k then
        let s := s.amaxDiscard core k.berth
        (s.modCore core fun c => { c with kern := none, acc := c.acc.filter fun a => a.launch != k.launch }).leaveLaunch
          core k.launch
      else s)

end Sys2Proof.Machine
end

