-- ==== Sys2Proof/Machine/Objects.lean ====
section
/-!
DEFINITION. Memory objects, events and contexts of a berth: handles, references, signals (15 R449-R454), and what the
berth's sequencers read and write at virtual addresses.
-/

namespace Sys2Proof.Machine

/-! Handles (R449, R450). -/

/-- The live memory object that a handle names. -/
def State.objAt (s : State) (b h : Nat) : Option ObjSt :=
  let o := tget (s.berth b).objs {} (h % 2 ^ 20)
  if o.live && o.gen == h / 2 ^ 20 then some o else none

/-- The live event that a handle names. -/
def State.evtAt (s : State) (b h : Nat) : Option EvtSt :=
  let e := tget (s.berth b).evts {} (h % 2 ^ 18)
  if e.live && e.gen == h / 2 ^ 18 then some e else none

/-- The state with the object of a handle changed. -/
def State.modObj (s : State) (b h : Nat) (f : ObjSt → ObjSt) : State :=
  s.modBerth b fun x => { x with objs := tmod x.objs {} (h % 2 ^ 20) f }

/-- The state with the event of a handle changed. -/
def State.modEvt (s : State) (b h : Nat) (f : EvtSt → EvtSt) : State :=
  s.modBerth b fun x => { x with evts := tmod x.evts {} (h % 2 ^ 18) f }

/-- Destroys a memory object that nothing holds or names any more (R450, R452). -/
def State.objSweep (s : State) (b h : Nat) : State :=
  match s.objAt b h with
  | none => s
  | some o =>
    if o.holders.isEmpty && o.dref == 0 then
      (s.modBerth b fun x => { x with
        objs := tset x.objs (h % 2 ^ 20) { gen := o.gen % 4095 + 1 }, objFree := x.objFree ++ [h % 2 ^ 20] }).berthEvent b
        0x07E5 h o.va
    else s

/-- Destroys an event that nothing holds or names any more (R450, R452). -/
def State.evtSweep (s : State) (b h : Nat) : State :=
  match s.evtAt b h with
  | none => s
  | some e =>
    if e.holders.isEmpty && e.dref == 0 then
      s.modBerth b fun x => { x with
        evts := tset x.evts (h % 2 ^ 18) { gen := e.gen % 16383 + 1 }, evtFree := x.evtFree ++ [h % 2 ^ 18] }
    else s

/-- Sets an event: a signal takes the greater value, a status other than 0 stays for good and freezes the value; with
`NOTIFY` every change is reported (R454, R474). -/
def State.evtSet (s : State) (b h value status : Nat) : State :=
  match s.evtAt b h with
  | none => s
  | some e =>
    let v := if status = 0 then max e.value.toNat value else e.value.toNat
    if e.status ≠ 0 ∨ (v = e.value.toNat ∧ status = 0) then s
    else
      let s := s.modEvt b h fun x => { x with value := BitVec.ofNat 64 v, status := status }
      if e.notify then s.berthEvent b 0x07E4 h v (leBytes 1 status) else s

/-- Drops the references of an admitted command (R452). -/
def State.dropRefs (s : State) (b : Nat) (a : AdmitSt) : State :=
  let s := forL a.objs s fun h t => (t.modObj b h fun o => { o with dref := o.dref - 1 }).objSweep b h
  forL a.evts s fun h t => (t.modEvt b h fun e => { e with dref := e.dref - 1 }).evtSweep b h

/-- The live handles of a berth's memory objects. -/
def State.objHandles (s : State) (b : Nat) : List Nat :=
  ((s.berth b).objs.filter fun p => p.2.live).map fun p => p.1 + 2 ^ 20 * p.2.gen

/-- The live handles of a berth's events. -/
def State.evtHandles (s : State) (b : Nat) : List Nat :=
  ((s.berth b).evts.filter fun p => p.2.live).map fun p => p.1 + 2 ^ 18 * p.2.gen

/-- Drops every host reference that a context holds (R475). -/
def State.dropHolder (s : State) (b c : Nat) : State :=
  let s := forL (s.objHandles b) s fun h t =>
    (t.modObj b h fun o => { o with holders := o.holders.filter fun x => x != c }).objSweep b h
  forL (s.evtHandles b) s fun h t =>
    (t.modEvt b h fun e => { e with holders := e.holders.filter fun x => x != c }).evtSweep b h

/-! What a sequencer reads and writes. -/

/-- The pieces of a range by 64-byte line of its addresses: offset in the range and length. -/
def lineCuts (a n : Nat) : List (Nat × Nat) :=
  ((List.range ((a % 64 + n + 63) / 64)).map fun i =>
    let lo := if i = 0 then 0 else 64 * i - a % 64
    (lo, min n (64 * (i + 1) - a % 64) - lo)).filter fun p => p.2 != 0

/-- Bytes that a sequencer or controller of a berth reads, and whether a poisoned line supplied any; a control page
answers as its registers do. -/
def State.unitRead (s : State) (b va n : Nat) : Bytes × Bool :=
  match s.checkVirt b (s.berth b).maps va false with
  | .ok (.here pa) =>
    match regionOf pa with
    | .control _ off => (s.controlRead b off n, false)
    | _ => s.engineRead 0 b (s.berth b).maps 1 va n
  | _ => s.engineRead 0 b (s.berth b).maps 1 va n

/-- Counts and reports the poisoned lines of a range that a unit of a berth reads (14 R436). -/
def State.unitPoison (s : State) (b reader va n : Nat) : State :=
  forL (((lineCuts va n).filterMap fun p => s.enginePoison b (s.berth b).maps 1 (va + p.1)).eraseDups) s
    fun l t => t.poisonRead (some b) reader (64 * l)

/-- Bytes that a sequencer or controller of a berth writes, line by line at their homes (08 R226). Bytes on another
module leave as write requests of the berth's command engine (12 R365, R376). -/
def State.unitWrite (s : State) (b va : Nat) (bs : Bytes) (marked : Bool := false) : State :=
  forL (lineCuts va bs.length) s fun p t =>
    let piece := (bs.drop p.1).take p.2
    match t.checkVirt b (t.berth b).maps (va + p.1) true with
    | .ok (.here pa) =>
      match regionOf pa with
      | .control d off => t.controlWrite b d off piece
      | _ => t.homeStore pa piece marked
    | .ok (.remote node pa) => t.remoteStore (t.engineReq b node) pa piece
    | .error _ => t

/-- Whether a range is aligned, below 2^57 and translates to the berth's own stacks or DSM with read and write
permission, page by page. -/
def State.ownRange (s : State) (b va n : Nat) : Bool :=
  ((List.range ((va % 4096 + n + 4095) / 4096)).map fun i => if i = 0 then va else (va / 4096 + i) * 4096).all fun a =>
    match s.localAddr b a false, s.localAddr b a true with
    | some pa, some _ => match homeDie pa with
      | some d => (s.berth b).dies.contains d && (s.segOf pa).isNone
      | none => false
    | _, _ => false

end Sys2Proof.Machine
end

