-- ==== Sys2Proof/Machine/Streams.lean ====
section
/-!
DEFINITION. Streams of a berth: frames, landing and reorder, records, sluice messages, restarts (13 R385-R398).
-/

namespace Sys2Proof.Machine

/-- A byte-string setting of the dictionary, `n` zero bytes by default. -/
def State.blob (s : State) (index sub n : Nat) : Bytes := (tfind s.dict.blobs (entryKey index sub)).getD (zeros n)

/-- The state with a byte-string setting written. -/
def State.putBlob (s : State) (index sub : Nat) (v : Bytes) : State :=
  { s with dict := { s.dict with blobs := tset s.dict.blobs (entryKey index sub) v } }

/-- The configuration of a stream (R387). -/
structure StrmCfg where
  die : Nat
  va : Nat
  slots : Nat
  drift : Nat
  goGap : Nat
  maxRec : Nat
  srcAddr : Bytes
  srcPort : Nat
  key : Nat
  ports : Nat
  gapWait : Nat
deriving DecidableEq, Repr

/-- The dictionary index of a stream. -/
def strmIx (b st : Nat) : Nat := 0xC100 + 16 * b + st

/-- The configuration of a stream as the dictionary holds it. -/
def State.strmCfg (s : State) (b st : Nat) : StrmCfg :=
  let x := strmIx b st
  { die := s.setting x 2 0, va := s.setting x 3 0, slots := s.setting x 4 0, drift := s.setting x 5 0,
    goGap := s.setting x 6 0, maxRec := s.setting x 7 0, srcAddr := s.blob x 8 16, srcPort := s.setting x 9 0,
    key := s.setting x 0xA 0, ports := s.setting x 0xB 0, gapWait := s.setting x 0xC 500 }

/-- A stream. -/
def State.strm (s : State) (b st : Nat) : StreamSt := tget s.streams {} (16 * b + st)

/-- The state with a stream changed. -/
def State.modStrm (s : State) (b st : Nat) (f : StreamSt → StreamSt) : State :=
  { s with streams := tset s.streams (16 * b + st) (f (s.strm b st)) }

/-- A basin port. -/
def State.basin (s : State) (p : Nat) : BasinSt := tget s.basins {} p

/-! Sluice messages (R386, R396, R397). -/

/-- The port that a stream's messages leave by: that of its latest frame, or its lowest one; ports that are down take no
part (R417). -/
def State.strmPort (s : State) (b st : Nat) : Option Nat :=
  let ok := fun p => (s.strmCfg b st).ports.testBit p && (s.basin p).up
  match (s.strm b st).port with
  | some p => if ok p then some p else firstBelow 4 ok
  | none => firstBelow 4 ok

/-- The 48 bytes of a sluice message (R396). -/
def sluiceBytes (c : StrmCfg) (x : StreamSt) (b st cmd arg arg2 : Nat) : Bytes :=
  [0x50, 0x56, 0x53, 0x4C, 1] ++ beBytes 1 cmd ++ beBytes 2 (16 * b + st) ++ beBytes 4 c.key ++ beBytes 4 x.epoch ++
    beBytes 8 x.nextSeq ++ beBytes 8 (x.low + c.slots) ++ beBytes 8 arg ++ beBytes 4 arg2 ++ beBytes 4 x.msgSeq

/-- Sends a sluice message of a network stream. -/
def State.sluice (s : State) (b st cmd arg arg2 : Nat) : State :=
  let x := s.strm b st
  if x.enable ≠ 1 then s
  else
    match s.strmPort b st with
    | none => s
    | some p =>
      (s.modStrm b st fun y => { y with msgSeq := (y.msgSeq + 1) % 2 ^ 32, resends := if cmd = 4 then y.resends + 1 else y.resends }).emit
        { kind := .stream, port := p, args := [cmd, b, st], data := sluiceBytes (s.strmCfg b st) x b st cmd arg arg2 }

/-- Free slots of a stream (R397). -/
def freeSlots (c : StrmCfg) (x : StreamSt) : Nat := x.low + c.slots - max x.high x.low

/-- STOP when free slots fall to the stop level, GO when they have risen enough after a STOP (R397). -/
def State.sluiceCheck (s : State) (b st : Nat) : State :=
  let x := s.strm b st
  let c := s.strmCfg b st
  if x.enable ≠ 1 then s
  else if !x.stopped && decide (freeSlots c x ≤ c.drift + 8) then
    (s.modStrm b st fun y => { y with
      stopped := true, breachSaid := false, goLeft := 0, st := if y.st = 2 then 3 else y.st }).sluice b st 2 0 0
  else if x.stopped && decide (c.drift + 8 + c.goGap ≤ freeSlots c x) then
    (s.modStrm b st fun y => { y with stopped := false, goLeft := 3, st := if y.st = 3 then 2 else y.st }).sluice b st 3 0 0
  else s

/-! Records (R391, R394). -/

/-- The first sequence from `q` on that has not landed; `n` bounds the search. -/
def firstMissing (t : Tbl Bytes) (q : Nat) : Nat → Nat
  | 0 => q
  | n + 1 => if (tfind t q).isSome then firstMissing t (q + 1) n else q

/-- The stream with `NEXT_SEQ` found again. -/
def StreamSt.renext (x : StreamSt) : StreamSt := { x with nextSeq := firstMissing x.landed x.low (x.landed.length + 1) }

/-- The record number, length and offset of a frame's header. -/
def frameRec (h : Bytes) : Nat × Nat × Nat := (beAt h 24 8, beAt h 32 4, beAt h 36 4)

/-- Fragments of a record. -/
def fragsOf (len : Nat) : Nat := (len + 8191) / 8192

/-- Whether the headers of a record keep R391 after record `prev`. -/
def fragsOk (hs : List Bytes) (prev : Option Nat) (r len : Nat) : Bool :=
  (prev.elim true fun p => decide (p < r)) && hs.zipIdx.all fun h =>
    frameRec h.1 == (r, len, 8192 * h.2) && beAt h.1 6 2 == min 8192 (len - 8192 * h.2) &&
      (beAt h.1 5 1 == if h.2 + 1 = fragsOf len then 1 else 0)

/-- The bytes of the record that starts at sequence `q` of a stream, as its die reads them from the basin. -/
def State.basinBytes (s : State) (b st q len : Nat) : Bytes :=
  let c := s.strmCfg b st
  (List.range (fragsOf len)).flatMap fun i =>
    (s.unitRead b (c.va + 8192 * ((q + i) % c.slots)) (min 8192 (len - 8192 * i))).1

/-- A complete record whose CRC fails (R394): its slots are emptied and asked for again; the fourth failure faults the
stream. -/
def State.recordBad (s : State) (b st r n : Nat) : State :=
  let x := s.strm b st
  let s := s.modStrm b st fun y =>
    { y with landed := y.landed.filter fun p => decide (p.1 < x.chk) || decide (x.chk + n ≤ p.1), crcFails := y.crcFails + 1 }.renext
  if x.crcFails + 1 < 4 then s.sluice b st 4 x.chk n
  else (s.modStrm b st fun y => { y with st := 4, bad := some (r, n) }).berthEvent b 0x0682 st r

/-- Checks the next record of a stream, once all its fragments have landed (R394). -/
def State.checkRecord (s : State) (b st : Nat) : State :=
  let x := s.strm b st
  match tfind x.landed x.chk with
  | none => s
  | some h0 =>
    let r := (frameRec h0).1
    let len := (frameRec h0).2.1
    let n := fragsOf len
    match (List.range n).mapM fun i => tfind x.landed (x.chk + i) with
    | none => s
    | some hs =>
      if x.st = 4 then s
      else if !fragsOk hs x.prev r len then (s.modStrm b st fun y => { y with st := 4, bad := none }).berthEvent b 0x0683 st r
      else if crc32c (s.basinBytes b st x.chk len) = beAt (hs.getLastD []) 40 4 then
        s.modStrm b st fun y => { y with
          ready := y.ready ++ [{ record := r, first := y.chk, frags := n, len := len }], chk := y.chk + n, prev := some r,
          crcFails := 0 }
      else s.recordBad b st r n

/-- Discards what stands at the head of a stream below the tally, and frees its slots (R401, R403). -/
def State.dropStale (s : State) (b st : Nat) : State :=
  let x := s.strm b st
  let tally := (s.berth b).tally.toNat
  match x.ready, x.bad with
  | r :: l, _ =>
    if r.record < tally then
      s.modStrm b st fun y => { y with
        ready := l, low := r.first + r.frags, landed := y.landed.filter fun p => decide (r.first + r.frags ≤ p.1) }.renext
    else s
  | [], some (r, n) =>
    if r < tally then
      s.modStrm b st fun y => { y with
        bad := none, st := 2, crcFails := 0, chk := x.chk + n, prev := some r, low := x.chk + n,
        landed := y.landed.filter fun p => decide (x.chk + n ≤ p.1) }.renext
    else s
  | [], none => s

/-- A stream brought up to date: records checked, stale ones discarded, the source stopped or started. -/
def State.settleStrm (s : State) (b st : Nat) : State :=
  let x := s.strm b st
  (forN (x.landed.length + x.ready.length + 2) s fun _ t => (t.checkRecord b st).dropStale b st).sluiceCheck b st

/-- Every stream of a berth brought up to date. -/
def State.settleStrms (s : State) (b : Nat) : State :=
  forN 16 s fun st t => if (t.strm b st).enable = 0 then t else t.settleStrm b st

/-! Frames (R390, R392, R393). -/

/-- Whether `FRAME_CRC` of a frame holds (R390). -/
def frameCrcOk (f : Bytes) : Bool := crc32c (f.take 44 ++ zeros 4 ++ f.drop 48) == beAt f 44 4

/-- Whether a frame keeps the form of R390 for a stream. -/
def frameFormOk (c : StrmCfg) (f : Bytes) : Bool :=
  let r := frameRec f
  decide (48 ≤ f.length) && f.length == 48 + beAt f 6 2 && f.take 5 == [0x50, 0x56, 0x53, 0x46, 1] && decide (beAt f 5 1 < 2) &&
    decide (1 ≤ beAt f 6 2) && decide (beAt f 6 2 ≤ 8192) && beAt f 8 4 == c.key && decide (1 ≤ r.2.1) &&
    decide (r.2.1 ≤ c.maxRec) && decide (r.2.2 + beAt f 6 2 ≤ r.2.1)

/-- What becomes of a frame (R393, after its first row). -/
inductive FrameFate where
  | land
  | crc
  | other
  | breach
deriving DecidableEq, Repr

/-- The checks of R393 after the first row. -/
def State.frameFate (s : State) (b st : Nat) (udpOk : Bool) (f : Bytes) : FrameFate :=
  let x := s.strm b st
  let c := s.strmCfg b st
  let q := beAt f 16 8
  if !udpOk || (decide (48 ≤ f.length) && !frameCrcOk f) then .crc
  else if !frameFormOk c f then .other
  else if beAt f 12 4 ≠ x.epoch then .other
  else if q < x.low ∨ (tfind x.landed q).isSome then .other
  else if x.low + c.slots ≤ q then .breach
  else .land

/-- Lands a frame in its slot: payload, header and the controller's 16 bytes, which are open (R392). -/
def State.landFrame (s : State) (b st : Nat) (f : Bytes) : State :=
  let c := s.strmCfg b st
  let q := beAt f 16 8
  let s := s.unitWrite b (c.va + 8192 * (q % c.slots)) (f.drop 48)
  let s := s.unitWrite b (c.va + 8192 * c.slots + 64 * (q % c.slots))
    (f.take 48 ++ leBytes 16 (Config.freeBits 128 s.free).toNat)
  let s := s.nextFree.modStrm b st fun y => { y with
    landed := tset y.landed q (f.take 48), high := max y.high (q + 1), st := if y.st = 1 then 2 else y.st,
    gaps := tdel y.gaps q }.renext
  let s := s.settleStrm b st
  if (s.strm b st).ackOpen then s.modStrm b st fun y => { y with ackDue := true }
  else (s.sluice b st 1 0 0).modStrm b st fun y => { y with ackOpen := y.enable = 1 }

/-- A frame of a stream dropped and counted. -/
def State.dropFrame (s : State) (b st : Nat) (k : FrameFate) : State :=
  match k with
  | .land => s
  | .crc => s.modStrm b st fun y => { y with dropCrc := y.dropCrc + 1 }
  | .other => s.modStrm b st fun y => { y with dropOther := y.dropOther + 1 }
  | .breach =>
    let x := s.strm b st
    let s := s.modStrm b st fun y => { y with breach := y.breach + 1, breachSaid := true }
    if x.enable = 1 ∧ !x.breachSaid then s.berthEvent b 0x0681 st 0 else s

/-- `UDP_BASE` (R386). -/
def State.udpBase (s : State) : Nat := s.setting 0xC000 0 40000

/-- `STREAM_FRAME_ARRIVAL`: a UDP payload arrives at a basin port (R393). `udpOk` tells whether its UDP checksum holds. -/
def execStreamFrameArrival (port : Nat) (src : Bytes) (srcPort dstPort : Nat) (udpOk : Bool) (payload : Bytes) (s : State) :
    Result :=
  let i := dstPort - s.udpBase
  let b := i / 16
  let st := i % 16
  let c := s.strmCfg b st
  .next (
    if !(s.basin port).up then s
    else if s.udpBase ≤ dstPort ∧ i < 384 ∧ (s.strm b st).enable = 1 ∧ c.ports.testBit port ∧ c.srcAddr = src ∧
        c.srcPort = srcPort then
      let s := s.modStrm b st fun y => { y with port := some port }
      match s.frameFate b st udpOk payload with
      | .land => s.landFrame b st payload
      | k => s.dropFrame b st k
    else { s with basins := tset s.basins port { s.basin port with unmatched := (s.basin port).unmatched + 1 } })

/-! Timers. -/

/-- Slots in a row that are empty from a sequence on, below the highest that has landed. -/
def emptyRun (x : StreamSt) (q : Nat) : Nat := ((List.range (x.high - q)).takeWhile fun i => (tfind x.landed (q + i)).isNone).length

/-- `GAP_WAIT_EXPIRY`: the slot of a sequence, the first of a run of empty ones, has stayed empty for `GAP_WAIT` (R395,
R414). -/
def execGapWaitExpiry (b st seq : Nat) (s : State) : Result :=
  let x := s.strm b st
  let n := emptyRun x seq
  let first := decide (seq = x.low) || (tfind x.landed (seq - 1)).isSome
  let given := x.bad.elim false fun r => decide (x.chk ≤ seq) && decide (seq < x.chk + r.2)
  .next (
    if x.enable = 0 ∨ seq < x.low ∨ n = 0 ∨ !first ∨ given then s
    else
      let k := tget x.gaps 0 seq + 1
      let s := (s.sluice b st 4 seq n).modStrm b st fun y => { y with gaps := tset y.gaps seq k }
      if k = 16 then s.berthEvent b 0x0680 st seq else s)

/-- `ACK_PERIOD_END`: an ACK period of a stream ends (R397). -/
def execAckPeriodEnd (b st : Nat) (s : State) : Result :=
  let x := s.strm b st
  .next (
    if !x.ackOpen then s
    else if x.ackDue then (s.sluice b st 1 0 0).modStrm b st fun y => { y with ackDue := false }
    else s.modStrm b st fun y => { y with ackOpen := false })

/-- `SLUICE_REPEAT_TIMER`: a repeat of STOP, GO or REWIND falls due (R397). -/
def execSluiceRepeatTimer (b st : Nat) (s : State) : Result :=
  let x := s.strm b st
  let c := s.strmCfg b st
  let s := if x.rewindLeft = 0 then s
    else (s.sluice b st 5 (s.berth b).tally.toNat 0).modStrm b st fun y => { y with rewindLeft := y.rewindLeft - 1 }
  .next (
    if x.stopped ∧ freeSlots c x ≤ c.drift + 8 then s.sluice b st 2 0 0
    else if x.goLeft ≠ 0 then (s.sluice b st 3 0 0).modStrm b st fun y => { y with goLeft := y.goLeft - 1 }
    else s)

/-! Enabling (R388, R389). -/

/-- A stream with its basin flushed. -/
def StreamSt.flush (x : StreamSt) : StreamSt :=
  { x with landed := [], ready := [], low := 0, high := 0, chk := 0, prev := none, crcFails := 0, bad := none, gaps := [],
           ackOpen := false, ackDue := false, stopped := false, breachSaid := false, goLeft := 0, rewindLeft := 0 }

/-- Restarts a stream as `v` (R389). -/
def State.restartStrm (s : State) (b st v : Nat) : State :=
  let s := s.modStrm b st fun y => { y.flush with
    enable := v, st := 1, epoch := (y.epoch + 1) % 2 ^ 32, nextSeq := 0, msgSeq := 0, port := none,
    rewindLeft := if v = 1 then 3 else 0 }
  s.sluice b st 5 (s.berth b).tally.toNat 0

/-- Restarts every enabled stream of a berth. -/
def State.restartStrms (s : State) (b : Nat) : State :=
  forN 16 s fun st t => if (t.strm b st).enable = 0 then t else t.restartStrm b st (t.strm b st).enable

/-- Disables a stream (R389). -/
def State.disableStrm (s : State) (b st : Nat) : State :=
  s.modStrm b st fun y => { y.flush with enable := 0, st := 0 }

/-- Whether the fields of a stream keep the ranges of R387 and R388 for `ENABLE` `v`. -/
def State.strmFormOk (s : State) (b st v : Nat) : Bool :=
  let c := s.strmCfg b st
  decide (c.die < (s.berth b).dies.length) && c.va % 65536 == 0 && decide (c.va < 2 ^ 57) &&
    decide (512 ≤ c.slots) && decide (c.slots ≤ 1048576) && 2 ^ Nat.log2 c.slots == c.slots && decide (c.drift ≤ 131072) &&
    decide (1 ≤ c.goGap) && decide (c.goGap ≤ c.slots / 2) && decide (1 ≤ c.maxRec) && decide (c.maxRec ≤ 16777216) &&
    decide (c.ports < 16) && decide (50 ≤ c.gapWait) && decide (c.gapWait ≤ 10000) &&
    decide (c.drift + 8 + 2 * fragsOf c.maxRec ≤ c.slots) &&
    (if v = 2 then c.drift == 0 && c.srcAddr.all (fun x => x == 0) && c.srcPort == 0
     else decide (1 ≤ c.srcPort) && decide (c.srcPort < 65536) && c.ports != 0)

/-- Whether the basin area of a stream translates, readable and writable, to the stack of its die (R387, R388). -/
def State.basinOk (s : State) (b st : Nat) : Bool :=
  let c := s.strmCfg b st
  let d := (s.berth b).dies.getD c.die 0
  (List.range ((8256 * c.slots + 4095) / 4096)).all fun i =>
    match s.localAddr b (c.va + 4096 * i) false, s.localAddr b (c.va + 4096 * i) true with
    | some pa, some _ => match regionOf pa with
      | .stack x _ => x == d
      | _ => false
    | _, _ => false

/-- The code that refuses a write of `v` to `ENABLE`, 0 if it is accepted (R388). -/
def State.enableCode (s : State) (b st v : Nat) : Nat :=
  if v = 0 then 0
  else if 2 < v then 0x080B
  else if ((s.strm b st).enable ≠ 0 ∧ (s.strm b st).enable ≠ v) ∨ (s.berth b).life = .absent ∨ !s.strmFormOk b st v then
    0x0640
  else if !s.basinOk b st then 0x0641
  else 0

/-- A write to `ENABLE`: its code and what follows. -/
def State.writeEnable (s : State) (b st v : Nat) : Nat × State :=
  let code := s.enableCode b st v
  (code, if code ≠ 0 then s else if v = 0 then s.disableStrm b st else s.restartStrm b st v)

/-- A write to a dictionary entry that a command makes: what it does, and its item code as the answer. No lockkeeper
answers while both are lost (16 R511), and none during a start (17 R514). -/
def State.byDict (s : State) (index sub : Nat) (f : State → Nat × State) : State :=
  if s.lk.active.isNone || !s.up then s
  else (f s).2.emit { kind := .answer, port := entryKey index sub, args := [(f s).1] }

/-- `STREAM_ENABLE`: a write of 1 or 2 to a stream's `ENABLE` (R388, R389). -/
def execStreamEnable (b st v : Nat) (s : State) : Result :=
  .next (if v = 0 then s else s.byDict (strmIx b st) 1 fun t => t.writeEnable b st v)

/-- `STREAM_DISABLE`: a write of 0 to a stream's `ENABLE` (R389). -/
def execStreamDisable (b st : Nat) (s : State) : Result :=
  .next (s.byDict (strmIx b st) 1 fun t => t.writeEnable b st 0)

/-- `BASIN_PORT_LINK_CHANGE`: a basin port goes down or comes back; streams and drains use the ports that are up (R417). -/
def execBasinPortLinkChange (port : Nat) (up : Bool) (s : State) : Result :=
  .next { s with basins := tset s.basins port { s.basin port with up := up } }

end Sys2Proof.Machine
end

