-- ==== Sys2Proof/Machine/Queues.lean ====
section
/-!
DEFINITION. Queues: the words of a command, admission, the conditions of a start, retirement and completion records
(15 R462-R469, R473, R475).
-/

namespace Sys2Proof.Machine

/-! The words of a command (R464, R465). -/

/-- The eight words of a command. -/
def cmdWords (b : Bytes) : List Nat := (List.range 8).map fun i => leAt b (8 * i) 8

/-- Word `i` of a command. -/
def cw (w : List Nat) (i : Nat) : Nat := w.getD i 0

/-- The opcode of a command. -/
def cmdOpc (w : List Nat) : Nat := cw w 0 % 256
/-- Whether a command is marked step-end. -/
def cmdStepEnd (w : List Nat) : Bool := (cw w 0).testBit 8
/-- The event a command waits for. -/
def cmdWaitEvt (w : List Nat) : Nat := cw w 1 % 2 ^ 32
/-- The event a command signals. -/
def cmdSigEvt (w : List Nat) : Nat := cw w 1 / 2 ^ 32

/-- Whether a word is a location word (R465). -/
def locOk (x : Nat) : Bool := if x.testBit 63 then bitsOf x 62 32 == 0 else bitsOf x 62 57 == 0

/-- Whether bits from `lo` up of a word are zero. -/
def highZero (x lo : Nat) : Bool := decide (x < 2 ^ lo)

/-- Bytes of an element that `MADD` reads and of the element it adds to, by `ACLASS` (R465, 09 R267). -/
def maddSizes (cls xf : Nat) : Nat × Nat :=
  match cls with
  | 0 => (4, 4)
  | 1 => (8, 8)
  | 2 => (4, 4)
  | 3 => (2, 2)
  | 4 => (2, 2)
  | _ => (fmtBits ((fmtOfCode xf).getD .e4m3) / 8, 16)

/-- The formats of an exact-float addend (09 R268). -/
def xaddFmtOk (x : Nat) : Bool := x == 0 || x == 1 || x == 7 || x == 8 || x == 0xA

/-- Whether the words keep R464 and R465. -/
def cmdFormOk (w : List Nat) : Bool :=
  bitsOf (cw w 0) 15 10 == 0 &&
    match cmdOpc w with
    | 0 => (List.range 4).all fun i => cw w (4 + i) == 0
    | 1 => highZero (cw w 4) 43 && decide (bitsOf (cw w 4) 42 32 ≤ 1024) && highZero (cw w 5) 57 && highZero (cw w 7) 57
    | 2 => locOk (cw w 4) && locOk (cw w 5) && highZero (cw w 6) 41 && cw w 6 % 16 == 0
    | 3 => highZero (cw w 4) 57 && highZero (cw w 5) 32 && highZero (cw w 6) 40 && cw w 6 % 4 == 0 && highZero (cw w 7) 32
    | 4 => locOk (cw w 4) && highZero (cw w 5) 57 && highZero (cw w 6) 48 && decide (bitsOf (cw w 6) 35 32 ≤ 5) &&
        (bitsOf (cw w 6) 35 32 != 5 || xaddFmtOk (bitsOf (cw w 6) 39 36))
    | 5 => highZero (cw w 4) 57 && cw w 5 == 0 && cw w 6 == 0
    | 6 => (cw w 4).testBit 63 && locOk (cw w 4) && highZero (cw w 5) 36 && cw w 6 == 0 && cw w 7 == 0
    | 7 => bitsOf (cw w 4) 15 12 == 0 && highZero (cw w 4) 21 && cw w 6 == 0 && cw w 7 == 0
    | _ => false

/-- The byte counts that a command moves: from its source, and to its destination. -/
def cmdBytes (w : List Nat) : Nat × Nat :=
  match cmdOpc w with
  | 2 => (cw w 6 % 2 ^ 40, cw w 6 % 2 ^ 40)
  | 3 => (0, cw w 6 % 2 ^ 40)
  | 4 =>
    let z := maddSizes (bitsOf (cw w 6) 35 32) (bitsOf (cw w 6) 39 36)
    (cw w 6 % 2 ^ 32 * z.1, cw w 6 % 2 ^ 32 * z.2)
  | 5 => (32, 0)
  | 6 => (cw w 5 % 2 ^ 32, 0)
  | _ => (0, 0)

/-- The location words of a command with their bytes: whether it is written. -/
def cmdLocs (w : List Nat) : List (Nat × Nat × Bool) :=
  let n := cmdBytes w
  match cmdOpc w with
  | 2 => [(cw w 4, n.1, false), (cw w 5, n.2, true)]
  | 3 => [(cw w 4, n.2, true)]
  | 4 => [(cw w 4, n.1, false), (cw w 5, n.2, true)]
  | 5 => [(cw w 4, n.1, false)]
  | 6 => [(cw w 4, n.1, false)]
  | _ => []

/-- The extents of a command in berth memory. -/
def cmdExtents (w : List Nat) : List (Nat × Nat × Bool) := (cmdLocs w).filter fun x => !x.1.testBit 63

/-- The extents of a command in the barge window: offset and bytes. -/
def cmdBarges (w : List Nat) : List (Nat × Nat) :=
  ((cmdLocs w).filter fun x => x.1.testBit 63).map fun x => (x.1 % 2 ^ 32, x.2.1)

/-! Parts of a queue. -/

/-- A queue of a berth. -/
def State.queue (s : State) (b q : Nat) : Option QueueSt := tfind (s.berth b).queues q

/-- The state with a queue changed, if it exists. -/
def State.modQueue (s : State) (b q : Nat) (f : QueueSt → QueueSt) : State :=
  match s.queue b q with
  | none => s
  | some x => s.modBerth b fun y => { y with queues := tset y.queues q (f x) }

/-- A context. -/
def State.ctx (s : State) (c : Nat) : Option CtxSt := tfind s.ctxs c

/-- Whether a context has been abandoned or is gone. -/
def State.ctxGone (s : State) (c : Nat) : Bool := (s.ctx c).elim true fun x => x.abandoned

/-- The object list of a launch: `none` if it cannot be read. -/
def State.objList (s : State) (b : Nat) (w : List Nat) : Option (List Nat) :=
  let n := bitsOf (cw w 4) 42 32
  if cmdOpc w ≠ 1 ∨ n = 0 then some []
  else (s.readVirt b (cw w 7) (4 * n)).map fun l => (List.range n).map fun i => leAt l (4 * i) 4

/-- The memory-object handles that a command names (R465). -/
def State.cmdObjs (s : State) (b : Nat) (w : List Nat) : List Nat :=
  if cmdOpc w = 1 then (cw w 4 % 2 ^ 32 :: (s.objList b w).getD []).eraseDups
  else ([cw w 7 % 2 ^ 32, cw w 7 / 2 ^ 32].filter fun h => h != 0).eraseDups

/-- The event handles that a command names. -/
def cmdEvts (w : List Nat) : List Nat := ([cmdWaitEvt w, cmdSigEvt w].filter fun h => h != 0).eraseDups

/-- Whether an extent lies within one of the named objects. -/
def State.inObjects (s : State) (b : Nat) (hs : List Nat) (va n : Nat) : Bool :=
  hs.any fun h => (s.objAt b h).elim false fun o => decide (o.va ≤ va) && decide (va + n ≤ o.va + o.bytes)

/-- Whether an offset and length lie in a function's barge window. -/
def inWindow (f : FnSt) (off n : Nat) : Bool := f.barge.elim false fun w => decide (off + n ≤ w.2.2 * 2 ^ w.2.1)

/-- The dies of a launch's mask. -/
def launchDies (w : List Nat) : List Nat := (List.range 24).filter fun d => (cw w 6).testBit d

/-- The logical cores of a launch, ascending (R471). -/
def launchCores (w : List Nat) : List Nat :=
  (launchDies w).flatMap fun d => ((List.range 16).filter fun l => (cw w 6).testBit (24 + l)).map fun l => 16 * d + l

/-- The lowest of the codes that apply, 0 if none does. -/
def lowestCode (l : List (Bool × Nat)) : Nat := ((l.filter fun x => x.1).map Prod.snd).min?.getD 0

/-- The code that admission refuses a command with, 0 if it accepts it (R466). -/
def State.cmdCode (s : State) (b : Nat) (q : QueueSt) (w : List Nat) : Nat :=
  if !cmdFormOk w then 0x0700
  else
    let hs := s.cmdObjs b w
    let ext := cmdExtents w
    lowestCode [
      (hs.any (fun h => (s.objAt b h).isNone) || (cmdEvts w).any (fun h => (s.evtAt b h).isNone) ||
        (!ext.isEmpty && hs.isEmpty), 0x0701),
      ((s.objList b w).isNone || ext.any fun x => !s.inObjects b hs x.1 x.2.1, 0x0702),
      (cmdStepEnd w && !q.step, 0x0703),
      (cmdOpc w == 1 && ((launchCores w).isEmpty || (launchDies w).any fun d => !(s.berth b).dies.contains d), 0x0704),
      ((cmdBarges w).any fun x => !inWindow (s.fn (b + 1)) x.1 x.2, 0x0705)]

/-! Admission (R463). -/

/-- Admits the next command of a queue: references taken, the command copied to the staging ring (R463, R466). -/
def State.admitOne (s : State) (b q : Nat) : State :=
  match s.queue b q with
  | none => s
  | some x =>
    let slot := 64 * (x.admitted % 2 ^ x.log2)
    let raw := s.hostRead (x.hostRing + slot) 64
    let w := cmdWords raw
    let code := s.cmdCode b x w
    let objs := if cmdFormOk w then (s.cmdObjs b w).filter fun h => (s.objAt b h).isSome else []
    let evts := (cmdEvts w).filter fun h => (s.evtAt b h).isSome
    let s := forL objs s fun h t => t.modObj b h fun o => { o with dref := o.dref + 1 }
    let s := forL evts s fun h t => t.modEvt b h fun e => { e with dref := e.dref + 1 }
    let s := s.unitWrite b (x.staging + slot) raw
    s.modQueue b q fun y => { y with
      admits := tset y.admits y.admitted { objs := objs, evts := evts, refused := if code = 0 then none else some code },
      admitted := y.admitted + 1 }

/-- Whether a function's registers answer (R445): the PF, and a VF enabled with its berth (14 R423, R430). None answers
during a start (17 R514) or without power. -/
def State.fnLive (s : State) (f : Nat) : Bool := s.up && (f == 0 || (s.fn f).enabled)

/-- `QDB_QUEUE_WRITE`: a write of the low word of `QDB` records the queue (R448). -/
def execQdbQueueWrite (f queue : Nat) (s : State) : Result :=
  .next (if f = 0 ∨ 24 < f ∨ !s.fnLive f then s else s.modFn f fun x => { x with queue := queue % 2 ^ 14 })

/-- `QDB_DOORBELL`: a write of `TAIL`, with `QUEUE` in the same write or as last recorded, starts the admission of the
commands up to it, or is ignored and counted (R448, R463). -/
def execQdbDoorbell (f : Nat) (queue : Option Nat) (tail : Nat) (s : State) : Result :=
  .next (
    if f = 0 ∨ 24 < f ∨ !s.fnLive f then s
    else
      let b := f - 1
      let s := match queue with
        | some q => s.modFn f fun x => { x with queue := q % 2 ^ 14 }
        | none => s
      let q := (s.fn f).queue
      let bad := s.modFn f fun x => { x with qdbBad := (x.qdbBad + 1) % 2 ^ 32 }
      match s.queue b q with
      | none => bad
      | some x =>
        let n := (tail % 2 ^ 32 + 2 ^ 32 - x.admitted % 2 ^ 32) % 2 ^ 32
        if s.ctxGone x.ctx ∨ 2 ^ x.log2 - (x.admitted - x.retired) < n then bad
        else if !s.hostUp then s
        else forN n s fun _ t => t.admitOne b q)

/-! Starting a command (R466-R468, R470). -/

/-- Whether a berth's sequencers fetch: active, not held, no boundary work owed, no lockage or restore (R37, R305, R468,
18 R546, R557). -/
def State.fetchOpen (s : State) (b : Nat) : Bool :=
  let x := s.berth b
  x.life == .active && !x.held && !x.boundary && !x.withhold && (tget s.snaps {} b).phase == 0 &&
    !(tget s.snaps {} b).unrestored

/-- The words of the command at a queue's front as the staging ring holds them now. A slot that cannot be read gives a
reserved opcode. -/
def State.frontWords (s : State) (b : Nat) (x : QueueSt) : List Nat :=
  match s.readVirt b (x.staging + 64 * (x.retired % 2 ^ x.log2)) 64 with
  | some r => cmdWords r
  | none => List.replicate 8 (2 ^ 64 - 1)

/-- Whether the event that a command waits for lets it go (R454). -/
def State.waitOver (s : State) (b : Nat) (w : List Nat) : Bool :=
  cmdWaitEvt w == 0 || (s.evtAt b (cmdWaitEvt w)).elim true fun e => e.status != 0 || decide (cw w 2 ≤ e.value.toNat)

/-- Whether that event has failed or been abandoned (R467). -/
def State.waitFailed (s : State) (b : Nat) (w : List Nat) : Bool :=
  cmdWaitEvt w != 0 && (s.evtAt b (cmdWaitEvt w)).elim true fun e => e.status != 0

/-- Whether a queue holds an admitted command that has not started. -/
def QueueSt.waiting (x : QueueSt) : Bool := x.run.isNone && decide (x.retired < x.admitted)

/-- The command of opcode `opc` that a queue can start now, apart from its resources. -/
def State.startable (s : State) (b q opc : Nat) : Option (QueueSt × List Nat) :=
  match s.queue b q with
  | none => none
  | some x =>
    let w := s.frontWords b x
    if s.fetchOpen b && !x.stopped && x.resident && x.waiting && (tget x.admits {} x.retired).refused.isNone &&
        !s.ctxGone x.ctx && s.waitOver b w && !s.waitFailed b w && cmdOpc w == opc then some (x, w)
    else none

/-- The barges that a command touches, as bits (R473). -/
def touchedBarges (f : FnSt) (w : List Nat) : BitVec 64 :=
  match f.barge with
  | none => 0
  | some (_, k, n) =>
    (cmdBarges w).foldl (fun a x => (List.range n).foldl (fun a i =>
      if x.1 < (i + 1) * 2 ^ k ∧ i * 2 ^ k < x.1 + x.2 then a ||| BitVec.ofNat 64 (2 ^ i) else a) a) 0

/-- A command starts; a number is taken for the bytes of other modules that it may read. -/
def State.beginCmd (s : State) (b q : Nat) (w : List Nat) : State :=
  let t := touchedBarges (s.fn (b + 1)) w
  s.nextFree.modQueue b q fun x => { x with run := some { index := x.retired, words := w, barges := t }, reserving := false }

/-- The running command of a queue changed. -/
def State.modRun (s : State) (b q : Nat) (f : RunSt → RunSt) : State :=
  s.modQueue b q fun x => { x with run := x.run.map f }

/-- The running command of a queue has ended and waits to retire. -/
def State.endCmd (s : State) (b q status : Nat) (count aux : Nat := 0) (fault : Bytes := []) : State :=
  s.modRun b q fun r => { r with done := some status, count := count, aux := aux, fault := fault }

/-- The code that a command's barges or host memory fail it with at its start, 0 if none (R473, R478). -/
def State.bargeCode (s : State) (b : Nat) (w : List Nat) : Nat :=
  let f := s.fn (b + 1)
  if (cmdBarges w).isEmpty then 0
  else if (cmdBarges w).any (fun x => !inWindow f x.1 x.2) || touchedBarges f w &&& ~~~f.bargeOwn != 0 then 0x0705
  else if !s.hostUp then 0x070B
  else 0

/-- The code that a command fails with at its start for its extents, 0 if none (R466). -/
def State.extentCode (s : State) (b : Nat) (w : List Nat) : Nat :=
  if (cmdExtents w).all fun x => s.rangeOk b (s.berth b).maps x.1 x.2.1 x.2.2 then 0 else 0x0702

/-- Starts a command: its bytes, which may have changed since admission, and its start checks decide whether it runs. -/
def State.startCmd (s : State) (b q opc : Nat) (room : List Nat → Bool) (own : State → List Nat → Nat)
    (run : List Nat → State → State) : State :=
  match s.startable b q opc with
  | none => s
  | some (x, w) =>
    if !room w then s
    else
      let s := s.beginCmd b q w
      let code := lowestCode [(s.cmdCode b x w != 0, s.cmdCode b x w), (s.bargeCode b w != 0, s.bargeCode b w),
        (own s w != 0, own s w)]
      if code ≠ 0 then s.endCmd b q code else run w s

/-! Retirement (R467-R469, R473). -/

/-- The completion record of a command (R469). -/
def cplBytes (w : List Nat) (status count tally aux : Nat) (step : Bool) (fault : Bytes) : Bytes :=
  leBytes 8 (cw w 0 / 2 ^ 16) ++ leBytes 2 status ++ leBytes 1 (cmdOpc w) ++
    leBytes 1 ((if step then 1 else 0) + (if fault.isEmpty then 0 else 2)) ++ leBytes 4 count ++ leBytes 8 tally ++
    leBytes 8 aux ++ padTo 32 fault

/-- A function-level reset clears notice ring and barge window, once no command touches a barge (R476). -/
def State.flrClear (s : State) (f : Nat) : State :=
  if (s.fn f).flr ∧ !((s.berth (f - 1)).queues.any fun p => p.2.run.elim false fun r => r.barges != 0) then
    s.modFn f fun y => { y with flr := false, ring := none, barge := none, bargeOwn := 0 }
  else s

/-- The command at a queue's front retires with a status: its event is signalled, its references dropped, its barges
returned, its completion record and the retired count written. -/
def State.retireFront (s : State) (b q status count aux : Nat) (step : Bool) (fault : Bytes) : State :=
  match s.queue b q with
  | none => s
  | some x =>
    let w := match x.run with
      | some r => r.words
      | none => s.frontWords b x
    let f := b + 1
    let i := x.retired
    let adm := tget x.admits {} i
    let s := if (x.run.map fun r => r.barges).getD 0 = 0 ∨ (cmdOpc w = 2 ∧ (cw w 6).testBit 40) then s
      else s.modFn f fun y => { y with bargeOwn := y.bargeOwn &&& ~~~((x.run.map fun r => r.barges).getD 0) }
    let s := if cmdSigEvt w = 0 ∨ !adm.evts.contains (cmdSigEvt w) then s
      else s.evtSet b (cmdSigEvt w) (cw w 3) (if status = 0 then 0 else 1)
    let s := s.modQueue b q fun y => { y with retired := i + 1, run := none, reserving := false, admits := tdel y.admits i }
    let s := (s.dropRefs b adm).flrClear f
    let rec' := (cw w 0).testBit 9 || status != 0
    let lost := (if rec' then 1 else 0) + 1
    if s.hostUp then
      let s := if rec' then (s.hostWrite (x.cplRing + 64 + 64 * (i % 2 ^ x.log2))
          (cplBytes w status count (s.berth b).tally.toNat aux step fault)).ring (serviceMailbox f) 8 else s
      s.hostWrite x.cplRing (leBytes 8 (i + 1))
    else s.modFn f fun y => { y with cplLost := (y.cplLost + lost) % 2 ^ 32 }

/-- Retires every admitted command of a queue that has not started, in order, with a status (R475, R477). -/
def State.retireRest (s : State) (b q status : Nat) : State :=
  match s.queue b q with
  | none => s
  | some x => forN (x.admitted - x.retired) s fun _ t =>
    if (t.queue b q).elim false fun y => y.waiting then t.retireFront b q status 0 0 false [] else t

/-- A context that is abandoned and has no queue left is freed (R475). -/
def State.freeCtx (s : State) (b c : Nat) : State :=
  match s.ctx c with
  | none => s
  | some x =>
    if x.abandoned ∧ !((s.berth b).queues.any fun p => p.2.ctx == c) then
      ({ s with ctxs := tdel s.ctxs c }).berthEvent b 0x07E6 c 0
    else s

/-- A queue that is being destroyed, or whose context is abandoned, goes once it is empty (R475, R477). -/
def State.sweepQueue (s : State) (b q : Nat) : State :=
  match s.queue b q with
  | none => s
  | some x =>
    let s := if s.ctxGone x.ctx then s.retireRest b q 0x0707 else s
    match s.queue b q with
    | none => s
    | some y =>
      if y.retired = y.admitted ∧ y.run.isNone ∧ (y.destroying ∨ s.ctxGone y.ctx) then
        (s.modBerth b fun z => { z with queues := tdel z.queues q }).freeCtx b y.ctx
      else s

/-- The last round completed at this module's member of a bucket (11 R335, R336). -/
def State.bucketDone (s : State) (b i : Nat) : Nat :=
  match s.bktBytes b i with
  | none => 0
  | some w => (s.readVirt b ((bktOf w).dig + 120) 8).elim 0 leNat

/-- A running command whose work has ended gets its status: a launch whose cores have all ended, an `XWAIT` whose round
is done (R465, R471). -/
def State.finishRun (s : State) (b q : Nat) : State :=
  match (s.queue b q).bind fun x => x.run with
  | none => s
  | some r =>
    if r.done.isSome then s
    else if cmdOpc r.words = 7 then
      if cw r.words 5 ≤ s.bucketDone b (cw r.words 4 % 2 ^ 12) then s.endCmd b q 0 else s
    else
      match r.launch with
      | none => s
      | some l =>
        match tfind s.launches l with
        | none => s
        | some a =>
          if a.running.isEmpty then
            ({ s with launches := tdel s.launches l }).endCmd b q a.status 0 0 a.fault
          else s

/-- Whether the command at the front retires without running: refused at admission, or released by an event that has
failed (R466, R467). -/
def State.skipCode (s : State) (b : Nat) (x : QueueSt) : Option Nat :=
  if s.fetchOpen b && !x.stopped && x.waiting then
    match (tget x.admits {} x.retired).refused with
    | some c => some c
    | none => if s.waitFailed b (s.frontWords b x) then some 0x0706 else none
  else none

/-- What a queue would retire now: status, count, aux and fault record. -/
def State.retiring (s : State) (b : Nat) (x : QueueSt) : Option (Nat × Nat × Nat × Bytes) :=
  match x.run with
  | some r => r.done.map fun c => (c, r.count, r.aux, r.fault)
  | none => (s.skipCode b x).map fun c => (c, 0, 0, [])

/-- Whether what a queue would retire is marked step-end: its bit counts in the step queue alone (R36, R466). -/
def State.endsStep (s : State) (b : Nat) (x : QueueSt) : Bool :=
  x.step && cmdStepEnd (match x.run with
    | some r => r.words
    | none => s.frontWords b x)

end Sys2Proof.Machine
end

