-- ==== Sys2Proof/Machine/QueueCmds.lean ====
section
/-!
DEFINITION. The commands of a queue: launches, copies, fills, adds, takes, feeds and waits for a round; resident slots
(13 R400-R407, R414, 15 R465, R470-R473).
-/

namespace Sys2Proof.Machine

/-- The reader that a berth's command engine shows in a poison record (12 R365). -/
def State.cmdUnit (s : State) (b : Nat) : Nat := 0x400 + headDie (s.berth b)

/-! Resident slots (R470). -/

/-- The die whose sequencer serves a queue. -/
def State.queueDie (s : State) (b : Nat) (x : QueueSt) : Nat := (s.berth b).dies.getD x.pos (headDie (s.berth b))

/-- The queues resident at a die. -/
def State.residents (s : State) (b die : Nat) : List (Nat × QueueSt) :=
  (s.berth b).queues.filter fun p => p.2.resident && s.queueDie b p.2 == die

/-- The queues that may be evicted: with no started command, and if any has no admitted command those alone, else those
that wait for an event. -/
def State.evictable (s : State) (b die : Nat) : List Nat :=
  let l := (s.residents b die).filter fun p => p.2.run.isNone
  let idle := l.filter fun p => p.2.retired == p.2.admitted
  ((if idle.isEmpty then l.filter fun p => !s.waitOver b (s.frontWords b p.2) else idle)).map Prod.fst

/-- `SLOT_GRANT`: a queue with a released command gets one of the 48 slots of its die; where none is free another queue
leaves its slot. Which has waited longest on its event is open here, the model having no clock. -/
def execSlotGrant (b q : Nat) (s : State) : Result :=
  .next (match s.queue b q with
    | none => s
    | some x =>
      let die := s.queueDie b x
      if x.resident || !x.waiting || !s.waitOver b (s.frontWords b x) then s
      else if (s.residents b die).length < 48 then s.modQueue b q fun y => { y with resident := true }
      else
        let l := s.evictable b die
        match l[Config.freeNat s.free % max 1 l.length]? with
        | none => s
        | some v =>
          (s.nextFree.modQueue b v fun y => { y with resident := false }).modQueue b q fun y => { y with resident := true })

/-! Commands that end at their start. -/

/-- `MARK`: a command that does nothing. -/
def execMark (b q : Nat) (s : State) : Result :=
  .next (s.startCmd b q 0 (fun _ => true) (fun _ _ => 0) fun _ t => t.endCmd b q 0)

/-- Bytes at a location word of a command: its barge window, or berth memory. -/
def State.locRead (s : State) (b loc off n : Nat) : Bytes × Bool :=
  if loc.testBit 63 then (s.hostRead (((s.fn (b + 1)).barge.elim 0 fun w => w.1) + loc % 2 ^ 32 + off) n, false)
  else s.unitRead b (loc + off) n

/-- Writes bytes at a location word. -/
def State.locWrite (s : State) (b loc off : Nat) (bs : Bytes) (marked : Bool) : State :=
  if loc.testBit 63 then s.hostWrite (((s.fn (b + 1)).barge.elim 0 fun w => w.1) + loc % 2 ^ 32 + off) bs
  else s.unitWrite b (loc + off) bs marked

/-- Copies bytes from one location to another, line by line of the destination (R472, 02 R67). -/
def State.runCopy (s : State) (b src dst n : Nat) : State :=
  let s := if src.testBit 63 then s
    else s.unitPoison b (if dst.testBit 63 then 0xFFFE else s.cmdUnit b) src n
  forL (lineCuts dst n) s fun p t =>
    let r := t.locRead b src p.1 p.2
    t.locWrite b dst p.1 r.1 r.2

/-- `COPY`: copies bytes between berth memory and barges. -/
def execCopyMem (b q : Nat) (s : State) : Result :=
  .next (s.startCmd b q 2 (fun _ => true) (fun t w => t.extentCode b w) fun w t =>
    (t.runCopy b (cw w 4) (cw w 5) (cw w 6 % 2 ^ 40)).endCmd b q 0)

/-- `FILL`: fills berth memory with a pattern of 4 bytes. -/
def execFillMem (b q : Nat) (s : State) : Result :=
  .next (s.startCmd b q 3 (fun _ => true) (fun t w => t.extentCode b w) fun w t =>
    (forL (lineCuts (cw w 4) (cw w 6 % 2 ^ 40)) t fun p u =>
      u.unitWrite b (cw w 4 + p.1) ((List.range p.2).map fun i =>
        BitVec.ofNat 8 (cw w 5 / 2 ^ (8 * ((p.1 + i) % 4))))).endCmd b q 0)

/-- The add of an element of `MADD` by `ACLASS` (R465, 09 R267, R268). -/
def maddOp (cls xf : Nat) (scale : Int) (x : Nat) : AddOp :=
  match cls with
  | 0 => intOpOf 0 4 x 0
  | 1 => intOpOf 0 8 x 0
  | 2 => floatOpOf .fp32 x
  | 3 => floatOpOf .fp16 x
  | 4 => floatOpOf .bf16 x
  | _ => cellOpOf (decodeElem ((fmtOfCode xf).getD .e4m3) x) scale

/-- The request that adds an element of `MADD` at another module (12 R365): operation and size, and payload. There is none
for elements of 16 bits. -/
def maddRequest (cls xf : Nat) (scale : Int) (x : Nat) : Option (Nat × Bytes) :=
  match cls with
  | 0 => some (2, leBytes 4 x ++ zeros 4)
  | 1 => some (3, leBytes 8 x ++ zeros 8)
  | 2 => some (2 + 8 * 0xA, leBytes 4 x ++ zeros 4)
  | 5 => some (4 + 8 * 0xB, leBytes 4 x ++ leBytes 1 (unsignedOf 8 scale) ++ leBytes 1 xf ++ zeros 10)
  | _ => none

/-- One element of `MADD`: an element read from a poisoned line stands for NaN where its class has one. -/
def State.maddOne (s : State) (b src dst i cls xf : Nat) (scale : Int) : State :=
  let z := maddSizes cls xf
  let r := s.locRead b src (i * z.1) z.1
  let op := if r.2 && cls == 5 then cellOpOf .nan scale else maddOp cls xf scale (leNat r.1)
  match s.checkVirt b (s.berth b).maps (dst + i * z.2) true with
  | .ok (.here pa) => (s.homeAdd (some b) (s.cmdUnit b) pa op).1
  | .ok (.remote node pa) =>
    match maddRequest cls xf scale (leNat r.1) with
    | some q => s.sendRequest (s.engineReq b node) 3 (s.berth b).job pa q.1 q.2
    | none => s.emit { kind := .frame, port := node, args := [3, b, pa, cls], data := r.1 }
  | .error _ => s

/-- `MADD`: memory-side adds from a source into a destination. -/
def execMadd (b q : Nat) (s : State) : Result :=
  .next (s.startCmd b q 4 (fun _ => true) (fun t w => t.extentCode b w) fun w t =>
    let cls := bitsOf (cw w 6) 35 32
    let xf := bitsOf (cw w 6) 39 36
    let n := cw w 6 % 2 ^ 32
    let t := if (cw w 4).testBit 63 then t else t.unitPoison b (t.cmdUnit b) (cw w 4) (n * (maddSizes cls xf).1)
    (forN n t fun i u => u.maddOne b (cw w 4) (cw w 5) i cls xf (signedOf 8 (bitsOf (cw w 6) 47 40))).endCmd b q 0)

/-- `XWAIT`: waits until `DONE` of a bucket reaches a round; it retires once it has (R465). -/
def execXwait (b q : Nat) (s : State) : Result :=
  .next (s.startCmd b q 7 (fun _ => true) (fun _ _ => 0) fun _ t => t.finishRun b q)

/-! Launches (R471). -/

/-- The physical map of a core: 0xFF where the logical core is absent (17 R526). -/
def State.corePresent (s : State) (c : Nat) : Bool := tget s.defects.coreMap 0 c != 0xFF

/-- Whether a core is free for a launch: no kernel on it, and no substitution awaited (R471, 17 R525). -/
def State.coreFreeFor (s : State) (c : Nat) : Bool :=
  (s.kern c).isNone && !(s.defects.subst.any fun x => x.1 == c)

/-- The cores that a waiting launch of another queue of the berth reserves. -/
def State.reserved (s : State) (b q : Nat) : List Nat :=
  ((s.berth b).queues.filter fun p => p.1 != q && p.2.reserving).flatMap fun p => launchCores (s.frontWords b p.2)

/-- Whether a launch can have all its cores now. -/
def State.launchRoom (s : State) (b q : Nat) (w : List Nat) : Bool :=
  ((launchCores w).filter s.corePresent).all fun c => s.coreFreeFor c && !(s.reserved b q).contains c

/-- The image version that a berth's cores run (17 R533). -/
def State.fwOf (s : State) (b : Nat) : Nat := tget s.fw.berth s.fw.base b

/-- The code of a launch's own start checks: no core present (17 R526), an argument address for an image without arguments
(R465), arguments that cannot be read. -/
def State.launchCode (s : State) (b : Nat) (w : List Nat) : Nat :=
  if ((launchCores w).filter s.corePresent).isEmpty then 0x0704
  else
    match s.objAt b (cw w 4 % 2 ^ 32) with
    | none => 0x0701
    | some o =>
      let n := (imgHdr (s.unitRead b o.va 128).1).argBytes
      if (s.imageCode b o.va (s.fwOf b)).isSome then 0
      else if n = 0 then (if cw w 5 = 0 then 0 else 0x0700)
      else if s.rangeOk b (s.berth b).maps (cw w 5) n false then 0
      else 0x0702

/-- A launch is granted its cores: its image is validated, and its kernel stands ready on each of them (R471, 07 R190,
R218). -/
def State.runLaunch (s : State) (b q : Nat) (w : List Nat) : State :=
  let cores := (launchCores w).filter s.corePresent
  match s.objAt b (cw w 4 % 2 ^ 32) with
  | none => s.endCmd b q 0x0701
  | some o =>
    match s.imageCode b o.va (s.fwOf b) with
    | some (code, pc) =>
      s.endCmd b q code 0 0
        (faultBytes { code := code, core := cores.headD 0, pc := pc, tally := (s.berth b).tally.toNat })
    | none =>
      let l := s.launchNext
      let k := (s.berth b).kseq
      let s := { s with
        launchNext := l + 1,
        launches := tset s.launches l { berth := b, queue := q, kseq := k, cores := cores, running := cores, image := o.va,
                                        limitMs := cw w 6 / 2 ^ 40 } }
      let s := s.modBerth b fun x => { x with kseq := x.kseq + 1 }
      let s := s.modRun b q fun r => { r with launch := some l }
      forL cores.zipIdx s fun p t => t.modCore p.1 fun x => { x with
        kern := some { berth := b, launch := l, kseq := k, nGroups := 0, codeBytes := 0, rank := p.2, nCores := cores.length,
                       tally := (t.berth b).tally.toNat, image := o.va, argVa := cw w 5 } }

/-- `LAUNCH`: a launch starts when all its cores are free (R471). -/
def execLaunch (b q : Nat) (s : State) : Result :=
  .next (s.startCmd b q 1 (s.launchRoom b q) (fun t w => t.launchCode b w) fun w t => t.runLaunch b q w)

/-- `LAUNCH_RESERVE_TIMER`: a launch that has waited 1 ms for its cores becomes the berth's reserving one, if it has none
(R471). -/
def execLaunchReserveTimer (b q : Nat) (s : State) : Result :=
  .next (match s.startable b q 1 with
    | none => s
    | some _ => if (s.berth b).queues.any fun p => p.2.reserving then s else s.modQueue b q fun x => { x with reserving := true })

/-- `KERNEL_LIMIT`: a launch runs longer than its `LIMIT_MS` and is stopped (R471, 07 R222). -/
def execKernelLimit (launch : Nat) (s : State) : Result :=
  .next (match tfind s.launches launch with
    | none => s
    | some l => if l.limitMs = 0 ∨ l.stopped ∨ l.running.isEmpty then s else s.stopLaunch launch 0x070A)

/-! Takes (13 R400-R407). -/

/-- A number rounded up to a multiple of 64. -/
def round64 (n : Nat) : Nat := (n + 63) / 64 * 64

/-- Skip window `w` of a berth, empty where none is listed (13 R406). -/
def State.skipWin (s : State) (b w : Nat) : Nat × Nat := tget (s.berth b).skips (2 ^ 64 - 1, 0) w

/-- The window that holds a tally: the record after its end. -/
def State.skipPast (s : State) (b t : Nat) : Option Nat :=
  (((List.range 16).map fun i => s.skipWin b (i + 1)).find? fun w => decide (w.1 ≤ t) && decide (t ≤ w.2)).map
    fun w => w.2 + 1

/-- The lowest stream of a berth whose head holds a record (13 R401). -/
def State.recordAt (s : State) (b t : Nat) : Option (Nat × RecSt) :=
  (List.range 16).findSome? fun st =>
    match (s.strm b st).ready with
    | r :: _ => if r.record = t then some (st, r) else none
    | [] => none

/-- The hash of a record (13 R401). -/
def recHash (r : Nat) (b : Bytes) : Nat := leAt (sha384 (beBytes 8 r ++ b)) 0 16

/-- Copies a record out of its basin, and adds it to the berth's digest (13 R401, R404). -/
def State.takeRecord (s : State) (b : Nat) (t : TakeSt) (st : Nat) (r : RecSt) : State :=
  let c := s.strmCfg b st
  let src := fun i => c.va + 8192 * ((r.first + i) % c.slots)
  let len := fun i => min 8192 (r.len - 8192 * i)
  let bytes := s.basinBytes b st r.first r.len
  let s := forN r.frags s fun i u => u.unitPoison b (u.cmdUnit b) (src i) (len i)
  let s := forN r.frags s fun i u => forL (lineCuts 0 (len i)) u fun p v =>
    let x := v.unitRead b (src i + p.1) p.2
    v.unitWrite b (t.dst + t.off + 8192 * i + p.1) x.1 x.2
  let s := s.unitWrite b (t.list + 64 + 16 * t.taken) (leBytes 8 r.record ++ leBytes 4 t.off ++ leBytes 4 r.len)
  let s := s.modBerth b fun x => { x with
    ingest := (x.ingest + recHash r.record bytes) % 2 ^ 128, tally := BitVec.ofNat 64 (r.record + 1),
    take := some { t with taken := t.taken + 1, off := t.off + round64 r.len, waited := false } }
  s.settleStrms b

/-- A take ends: its list header is written and its command waits to retire (13 R402, R403). -/
def State.takeEnd (s : State) (b : Nat) (t : TakeSt) (status : Nat := 0) : State :=
  let s := s.unitWrite b t.list (leBytes 4 t.taken ++ zeros 4 ++ leBytes 8 t.skipped ++ leBytes 8 t.before ++
    leBytes 8 (s.berth b).tally.toNat ++ leBytes 8 t.off ++ zeros 24)
  (s.modBerth b fun x => { x with take := none }).endCmd b t.queue status t.taken t.skipped

/-- One turn of a take's loop (13 R401). -/
def State.takeTurn (s : State) (b : Nat) : State :=
  match (s.berth b).take with
  | none => s
  | some t =>
    if t.count ≤ t.taken then s.takeEnd b t
    else
      let now := (s.berth b).tally.toNat
      match s.skipPast b now with
      | some past =>
        (s.modBerth b fun x => { x with
          tally := BitVec.ofNat 64 past, take := some { t with skipped := t.skipped + (past - now) } }).settleStrms b
      | none =>
        match s.recordAt b now with
        | none => s
        | some (st, r) =>
          if t.dstBytes < t.off + round64 r.len then
            let s := s.takeEnd b t
            if t.taken = 0 then s.berthEvent b 0x0687 now 0 else s
          else s.takeRecord b t st r

/-! Feeds (13 R414). -/

/-- The frame at an offset of a barge: the bytes that its header gives it. -/
def feedFrame (b : Bytes) : Bytes := if b.length < 48 then b else b.take (48 + beAt b 6 2)

/-- One frame of a feed: landed, dropped, or waiting for a slot. -/
def State.feedTurn (s : State) (b q : Nat) : State :=
  match (s.queue b q).bind fun x => x.run with
  | none => s
  | some r =>
    let st := bitsOf (cw r.words 5) 35 32
    let n := cw r.words 5 % 2 ^ 32
    if r.done.isSome ∨ cmdOpc r.words ≠ 6 then s
    else if !s.hostUp then s.endCmd b q 0x070B r.count r.aux
    else if n ≤ r.off then s.endCmd b q 0 r.count r.aux
    else
      let f := feedFrame (s.locRead b (cw r.words 4) r.off (min (n - r.off) 8240)).1
      let step := fun (t : State) (landed : Bool) => t.modRun b q fun x => { x with
        off := x.off + f.length, count := if landed then x.count + 1 else x.count, aux := if landed then x.aux else x.aux + 1 }
      if (s.strm b st).enable ≠ 2 then step (s.dropFrame b st .other) false
      else
        match s.frameFate b st true f with
        | .land => (step s true).landFrame b st f
        | .breach => if (s.strm b st).nextSeq = beAt f 16 8 then s else step (s.dropFrame b st .breach) false
        | k => step (s.dropFrame b st k) false

/-- Every waiting feed of a berth goes on as far as it can. -/
def State.feedAll (s : State) (b : Nat) : State :=
  forL ((s.berth b).queues.filter fun p => p.2.run.elim false fun r => cmdOpc r.words == 6 && r.done.isNone) s fun p t =>
    forN (p.2.run.elim 0 fun r => (cw r.words 5 % 2 ^ 32) / 48 + 2) t fun _ u => u.feedTurn b p.1

/-- A take goes on as far as it can: every record to deliver, the windows before it, and a feed that its freed slots let
go on. No take runs while the berth is held (13 R417). -/
def State.takeRun (s : State) (b : Nat) : State :=
  if (s.berth b).held then s
  else
    match (s.berth b).take with
    | none => s
    | some t => forN (17 * (t.count + 1 - t.taken)) s fun _ u => (u.takeTurn b).feedAll b

/-- `FEED`: a barge of frames is landed into a host-fed stream (13 R414). -/
def execFeed (b q : Nat) (s : State) : Result :=
  .next (s.startCmd b q 6 (fun _ => true)
    (fun t w => if (t.strm b (bitsOf (cw w 5) 35 32)).enable = 2 then 0 else 0x0603) fun _ t => t.feedAll b)

/-- The code of a take's own start checks, 0 if it starts (13 R400, R412, R416). -/
def State.takeCode (s : State) (b : Nat) (w : List Nat) : Nat :=
  let maps := (s.berth b).maps
  if !s.rangeOk b maps (cw w 4) 32 false then 0x0601
  else
    let r := (s.unitRead b (cw w 4) 32).1
    let dst := leAt r 0 8
    let n := leAt r 8 8
    let list := leAt r 16 8
    let count := leAt r 24 4
    if dst % 64 ≠ 0 ∨ n < 64 ∨ 2 ^ 32 < n ∨ n % 64 ≠ 0 ∨ list % 64 ≠ 0 ∨ count = 0 ∨ 65536 < count ∨ leAt r 28 4 ≠ 0 then 0x0600
    else if !s.rangeOk b maps dst n true ∨ !s.rangeOk b maps list (64 + 16 * count) true then 0x0601
    else if (List.range 16).all fun st => (s.strm b st).enable == 0 then 0x0602
    else 0

/-- A take begins (13 R400, R401). -/
def State.takeStart (s : State) (b q : Nat) (w : List Nat) : State :=
  let r := (s.unitRead b (cw w 4) 32).1
  (s.modBerth b fun x => { x with
    take := some { queue := q, dst := leAt r 0 8, dstBytes := leAt r 8 8, list := leAt r 16 8, count := leAt r 24 4,
                   before := x.tally.toNat } }).takeRun b

/-- `TAKE`: a take starts when no other take of the berth runs (13 R400, R403). -/
def execTakeCmd (b q : Nat) (s : State) : Result :=
  .next (s.startCmd b q 5 (fun _ => (s.berth b).take.isNone) (fun t w => t.takeCode b w) fun w t => t.takeStart b q w)

/-- `TAKE_CONTINUE`: a waiting take goes on when the next record is complete (13 R401), and so do feeds that waited for a
slot of a stream that has been restarted or disabled since (13 R389, R414). -/
def execTakeContinue (b : Nat) (s : State) : Result := .next ((s.takeRun b).feedAll b)

/-- `TAKE_WAIT`: a take has waited for one record longer than the berth's take wait (13 R416). -/
def execTakeWait (b : Nat) (s : State) : Result :=
  .next (match (s.berth b).take with
    | none => s
    | some t =>
      if t.waited then s
      else (s.modBerth b fun x => { x with take := some { t with waited := true } }).berthEvent b 0x0684
        (s.berth b).tally.toNat t.queue)

/-- A write to a skip window; it applies to a waiting take at once (13 R401, R406). -/
def State.writeSkip (s : State) (b w first last : Nat) : Nat × State :=
  (0, (s.modBerth b fun x => { x with skips := tset x.skips w (first % 2 ^ 64, last % 2 ^ 64) }).takeRun b)

/-- `SKIP_WINDOW_WRITE`: a skip window is written (13 R406). -/
def execSkipWindowWrite (b w first last : Nat) (s : State) : Result :=
  .next (if w = 0 ∨ 16 < w ∨ (s.berth b).life = .absent then s
    else s.byDict (0x8040 + b) w fun t => t.writeSkip b w first last)

/-- A rewind: the tally is set, every enabled stream restarts (13 R407). -/
def State.rewind (s : State) (b t : Nat) : State := (s.modBerth b fun x => { x with tally := BitVec.ofNat 64 t }).restartStrms b

/-- A write to the rewind entry: its code and what follows. It is accepted while the berth is held or restored (13 R407,
18 R557). -/
def State.writeRewind (s : State) (b t : Nat) : Nat × State :=
  if (s.berth b).held ∨ (tget s.snaps {} b).phase = 3 then (0, s.rewind b t) else (0x0642, s)

/-- `BERTH_REWIND`: a write to the rewind entry (13 R407). -/
def execBerthRewind (b tally : Nat) (s : State) : Result := .next (s.byDict 0x8002 (b + 1) fun t => t.writeRewind b tally)

end Sys2Proof.Machine
end

