-- ==== Sys2Proof/Machine/Boundary.lean ====
section
/-!
DEFINITION. A step boundary: scale records, sentinels, the loss watch, holds, the timetable; the retirement of commands
(01 R36, R37, 10 R283-R307, 13 R409-R413, 15 R467, R468).
-/

namespace Sys2Proof.Machine

/-! Scale records (10 R286, R287, R293, R294). -/

/-- The keeper's part of a scale record: W2 to W7. -/
structure ScaleRec where
  scale : Int
  win : Int
  histN : Nat
  nfLast : Bool
  wovfLast : Bool
  idleLast : Bool
  cfgErr : Bool
  combFail : Bool
  lastAmax : Nat
  pendAmax : Nat
  pendC : Bool
  pendNf : Bool
  pendWovf : Bool
  nfSteps : Nat
  wovfSteps : Nat
  hist : List Nat
deriving DecidableEq, Repr

/-- The keeper's fields of a record line. -/
def scaleRecOf (l : Bytes) : ScaleRec :=
  let w2 := leAt l 16 8
  let w3 := leAt l 24 8
  { scale := signedOf 8 w2, win := signedOf 10 (bitsOf w2 17 8), histN := bitsOf w2 22 18, nfLast := bitOf w2 23,
    wovfLast := bitOf w2 24, idleLast := bitOf w2 25, cfgErr := bitOf w2 26, combFail := bitOf w2 27,
    lastAmax := bitsOf w2 63 32, pendAmax := bitsOf w3 31 0, pendC := bitOf w3 32, pendNf := bitOf w3 33,
    pendWovf := bitOf w3 34, nfSteps := bitsOf w3 47 36, wovfSteps := bitsOf w3 59 48,
    hist := (List.range 16).map fun i => leAt l (32 + 2 * i) 2 }

/-- A flag as a number. -/
def flag (b : Bool) : Nat := if b then 1 else 0

/-- Bytes 16 to 63 of a record (R285, R286). -/
def scaleRecBytes (r : ScaleRec) : Bytes :=
  leBytes 8 (unsignedOf 8 r.scale + unsignedOf 10 r.win * 2 ^ 8 + r.histN % 32 * 2 ^ 18 + flag r.nfLast * 2 ^ 23 +
      flag r.wovfLast * 2 ^ 24 + flag r.idleLast * 2 ^ 25 + flag r.cfgErr * 2 ^ 26 + flag r.combFail * 2 ^ 27 +
      r.lastAmax * 2 ^ 32) ++
    leBytes 8 (r.pendAmax + flag r.pendC * 2 ^ 32 + flag r.pendNf * 2 ^ 33 + flag r.pendWovf * 2 ^ 34 +
      r.nfSteps * 2 ^ 36 + r.wovfSteps * 2 ^ 48) ++ (padTo 32 (r.hist.flatMap (leBytes 2)))

/-- Bytes 16 to 63 of an invalid record: as they are, with `CFG_ERR` set (R287). -/
def cfgErrBytes (l : Bytes) : Bytes := leBytes 8 (leAt l 16 8 ||| 2 ^ 26) ++ (l.drop 24).take 40

/-- Software's settings of a record: W0 and W1. -/
structure ScaleCfg where
  policy : Nat
  span : Bool
  depth : Nat
  fmt : Nat
  margin : Nat
  smin : Int
  smax : Int
  fixed : Int
  winHead : Nat
  ovf : Nat
  backoff : Nat
  comb : Nat
deriving DecidableEq, Repr

/-- The settings of a record line. -/
def scaleCfgOf (l : Bytes) : ScaleCfg :=
  let w := leAt l 0 8
  { policy := bitsOf w 2 1, span := bitOf w 3, depth := bitsOf w 7 4, fmt := bitsOf w 11 8, margin := bitsOf w 15 12,
    smin := signedOf 8 (bitsOf w 23 16), smax := signedOf 8 (bitsOf w 31 24), fixed := signedOf 8 (bitsOf w 39 32),
    winHead := bitsOf w 46 40, ovf := bitsOf w 48 47, backoff := bitsOf w 52 49, comb := leAt l 8 8 }

/-- Whether a format takes its scale from the history: E4M3, E5M2, INT8, FP16 and G16 (R287). -/
def scaleFmtOk (fmt : Nat) : Bool := fmt == 0 || fmt == 1 || fmt == 7 || fmt == 8 || fmt == 0xA

/-- Whether W0 and W1 of a record are valid (R287). -/
def State.scaleValid (s : State) (b : Nat) (l : Bytes) : Bool :=
  let c := scaleCfgOf l
  bitsOf (leAt l 0 8) 63 53 == 0 && decide (c.comb < 2 ^ 57) && c.policy != 3 && c.ovf != 3 &&
    (if c.ovf = 0 then c.backoff == 0 else c.backoff != 0) && decide (c.fmt < 0xC) && (scaleFmtOk c.fmt || c.policy == 2) &&
    decide (c.smin ≤ c.fixed) && decide (c.fixed ≤ c.smax) &&
    (c.fmt != 0xA || (decide (-16 ≤ c.smin) && decide (c.smax ≤ 8))) &&
    (if c.span then c.comb % 64 == 0 && (match s.checkVirt b (s.berth b).maps c.comb true with
        | .ok _ => true
        | .error _ => false)
     else c.comb == 0)

/-- The exponent entry of an FP32 magnitude (R294). -/
def amaxExpo (a : Nat) : Int :=
  if a = 0 then -32767
  else if 255 ≤ bitsOf a 30 23 then 128
  else if bitsOf a 30 23 = 0 then (Nat.log2 (a % 2 ^ 23) : Int) - 149
  else (bitsOf a 30 23 : Int) - 127

/-- The exponent of a format's largest magnitudes (R294). -/
def scaleEmax (fmt : Nat) : Int :=
  match fmt with
  | 0 => 8
  | 7 => 6
  | 0xA => 32
  | _ => 15

/-- A scale held to `SMIN` and `SMAX`, for G16 also to -16 and +8 (R294). -/
def scaleClamp (c : ScaleCfg) (x : Int) : Int :=
  let y := max c.smin (min c.smax x)
  if c.fmt = 0xA then max (-16) (min 8 y) else y

/-- What a step contributed to a record: contributed, non-finite, window overflow, magnitude. -/
structure Contrib where
  c : Bool := false
  nf : Bool := false
  wovf : Bool := false
  a : Nat := 0
deriving DecidableEq, Repr

/-- The largest exponent of a history (R294). -/
def histMax (h : List Nat) : Option Int := ((h.filter fun x => x != 0x8000 && x != 0x8001).map fun x => signedOf 16 x).max?

/-- `derive` of R294 for a contribution that is finite: the history takes it, scale and window follow. -/
def deriveFinite (c : ScaleCfg) (r : ScaleRec) (a : Nat) : ScaleRec :=
  let e := amaxExpo a
  let h := padTo16 ((unsignedOf 16 e :: r.hist).take (c.depth + 1))
  let r := { r with hist := h, histN := min (r.histN + 1) (c.depth + 1) }
  match histMax h with
  | none => r
  | some xm =>
    let r := if c.policy = 0 then { r with scale := scaleClamp c (xm - scaleEmax c.fmt + c.margin) }
      else if c.policy = 1 ∧ a ≠ 0 then { r with scale := scaleClamp c (e - scaleEmax c.fmt + c.margin) } else r
    { r with win := min (max (xm + c.winHead - 126) (-320)) 160 }
where
  /-- A history filled with empty entries to its 16 places. -/
  padTo16 (h : List Nat) : List Nat := h ++ List.replicate (16 - h.length) 0x8000

/-- `derive` of R294 for a non-finite step. -/
def deriveNonFinite (c : ScaleCfg) (r : ScaleRec) : ScaleRec :=
  let r := { r with nfSteps := min 4095 (r.nfSteps + 1) }
  let r := if 1 ≤ c.ovf then { r with scale := scaleClamp c (r.scale + c.backoff) } else r
  if c.ovf = 2 then { r with histN := 0, hist := List.replicate 16 0x8000 } else r

/-- `derive` of R294. -/
def derive (c : ScaleCfg) (r : ScaleRec) (x : Contrib) : ScaleRec :=
  let old := r.win
  let r := { r with nfLast := x.nf && x.c, wovfLast := x.wovf, idleLast := !x.c }
  let r := if x.c then
      (let r := { r with lastAmax := x.a }
       if x.nf then deriveNonFinite c r else deriveFinite c r x.a)
    else r
  let r := if c.policy = 2 then { r with scale := c.fixed } else r
  if x.wovf then { r with wovfSteps := min 4095 (r.wovfSteps + 1), win := min (max r.win (old + 32)) 160 } else r

/-- The contribution in a step accumulator. -/
def contribOf (a : AmaxAcc) : Contrib := { c := a.contributed, nf := a.nonFinite, wovf := a.wovf, a := a.mag }

/-- One combine access of 8 bytes (R296): the state, and the value found, `none` if the access failed. A line on another
module answers with a free value. -/
def State.combAccess (s : State) (b va aop x : Nat) : State × Option Nat :=
  match s.checkVirt b (s.berth b).maps va true with
  | .error _ => (s, none)
  | .ok (.remote node pa) =>
    let die := headDie (s.berth b)
    let v := (Config.freeBits 64 s.free).toNat
    if aop = 9 then (s.nextFree, some v)
    else ((s.nextFree.sendRequest { unit := 0x300 + die, die := die, node := node, berth := b, subject := va } 3
      (s.berth b).job pa (3 + 8 * aop) (leBytes 8 x)), some v)
  | .ok (.here pa) =>
    if s.mem.marked pa then (s.poisonRead (some b) (0x300 + headDie (s.berth b)) pa, none)
    else if aop = 9 then (s, some (s.mem.num pa 8))
    else
      let r := s.homeAdd (some b) (0x300 + headDie (s.berth b)) pa (intOpOf aop 8 x 0)
      (r.1, some r.2)

/-- The combine accesses of a job-wide record at boundary `n` (R293, R296, R297): the combined contribution of the step
before, or `none` if an access failed. -/
def State.combine (s : State) (b n comb : Nat) (x : Contrib) : State × Option Contrib :=
  let rd := comb + 16 * ((n + 3) % 4)
  let wr := comb + 16 * (n % 4)
  let cl := comb + 16 * ((n + 2) % 4)
  let r1 := s.combAccess b rd 9 0
  let r2 := r1.1.combAccess b (rd + 8) 9 0
  let w1 := if x.c then r2.1.combAccess b wr 4 x.a else (r2.1, some 0)
  let w2 := if x.c then w1.1.combAccess b (wr + 8) 6 (flag x.c + 2 * flag x.nf + 4 * flag x.wovf) else (w1.1, some 0)
  let c1 := w2.1.combAccess b cl 8 0
  let c2 := c1.1.combAccess b (cl + 8) 8 0
  (c2.1, match r1.2, r2.2, w1.2, w2.2, c1.2, c2.2 with
    | some a, some f, some _, some _, some _, some _ =>
      some { c := bitOf f 0, nf := bitOf f 1, wovf := bitOf f 2, a := a % 2 ^ 32 }
    | _, _, _, _, _, _ => none)

/-- The keeper's write of bytes 16 to 63 of record `i` (R285). -/
def State.putScaleRec (s : State) (b i : Nat) (r : ScaleRec) : State :=
  s.unitWrite b ((s.berth b).keeper.tblBase + 64 * i + 16) (scaleRecBytes r)

/-- The accumulator of record `i` cleared. -/
def State.clearAcc (s : State) (b i : Nat) : State :=
  s.modBerth b fun x => { x with keeper := { x.keeper with acc := tdel x.keeper.acc i } }

/-- Record `i` at boundary `n` (R293). -/
def State.scaleStep (s : State) (b n i : Nat) : State :=
  match s.scaleLine b i with
  | none =>
    (match s.localAddr b ((s.berth b).keeper.tblBase + 64 * i) false with
      | some pa => if s.mem.marked pa then s.poisonRead (some b) (0x300 + headDie (s.berth b)) pa else s
      | none => s).count b 13 1
  | some l =>
    if leAt l 0 1 % 2 = 0 then s
    else if !s.scaleValid b l then
      (s.unitWrite b ((s.berth b).keeper.tblBase + 64 * i + 16) (cfgErrBytes l)).count b 13 1
    else
      let c := scaleCfgOf l
      let own := contribOf (tget (s.berth b).keeper.acc {} i)
      let r := { scaleRecOf l with cfgErr := false, combFail := false }
      let q := if c.span then s.combine b n c.comb own else (s, some own)
      let r := if c.span then
          { r with pendAmax := own.a, pendC := own.c, pendNf := own.nf, pendWovf := own.wovf, combFail := q.2.isNone } else r
      let x := q.2.getD {}
      let s := ((q.1.count b 14 (flag q.2.isNone)).count b 11 (flag (x.c && x.nf))).count b 12 (flag x.wovf)
      (s.putScaleRec b i (derive c r x)).clearAcc b i

/-! Sentinels (10 R301-R304) and the loss watch (R306, R307). -/

/-- The berth is held from now on (R305). -/
def State.hold (s : State) (b : Nat) : State := s.modBerth b fun x => { x with held := true }

/-- A trip record (R304). -/
def tripBytes (tally step source action loss value : Nat) : Bytes :=
  leBytes 8 tally ++ leBytes 8 step ++ leBytes 1 source ++ leBytes 1 action ++ [0, 0] ++ leBytes 4 loss ++ leBytes 8 value

/-- What a trip or a spike does under its action (R303, R304). -/
def State.trip (s : State) (b source action loss value : Nat) : State :=
  if action = 0 then s
  else
    let base := (s.berth b).keeper.sentBase
    let r := tripBytes (s.berth b).tally.toNat (s.berth b).stepSeq.toNat source action loss value
    let w2 := (s.unitRead b (base + 0x610) 8).1
    let next := bitsOf (leNat w2) 51 48 % 14
    let s := s.unitWrite b (base + 0x640 + 32 * next) r
    let s := s.unitWrite b (base + 0x610) (leBytes 8 (leNat w2 - bitsOf (leNat w2) 51 48 * 2 ^ 48 + (next + 1) % 14 * 2 ^ 48))
    let s := if 2 ≤ action then s.berthEvent b 0x07E3 source value r else s
    if action = 3 then s.hold b else s

/-- Counter `k` at a boundary: its growth is judged against its trip word (R303). -/
def State.tripStep (s : State) (b k : Nat) : State :=
  let base := (s.berth b).keeper.sentBase
  let now := (s.counter b k).toNat
  let old := leNat (s.unitRead b (base + 0x400 + 8 * k) 8).1
  let word := leNat (s.unitRead b (base + 0x200 + 8 * k) 8).1
  let delta := (now + 2 ^ 64 - old) % 2 ^ 64
  let s := s.unitWrite b (base + 0x400 + 8 * k) (leBytes 8 now)
  if word / 2 ^ 34 = 0 ∧ word % 2 ^ 32 ≠ 0 ∧ word % 2 ^ 32 ≤ delta then s.trip b k (bitsOf word 33 32) 0 delta else s

/-- Whether W0 of the loss watch keeps its ranges (R306). -/
def lossCfgOk (w : Nat) : Bool :=
  let k := bitsOf w 5 1
  decide (1 ≤ k) && decide (k ≤ 16) && bitsOf w 15 8 == 0 && !valNonFinite (decodeElem .fp32 (w / 2 ^ 32)) &&
    cmpVal 2 (decodeElem .fp32 0x3F800000) (decodeElem .fp32 (w / 2 ^ 32))

/-- The new mean of the loss watch (R307). -/
def lossMean (seen k mean loss : Nat) : Nat :=
  if seen = 0 then loss
  else
    let m := decodeElem .fp32 mean
    (convertVal (addVal m (scaleVal (addVal (decodeElem .fp32 loss) (negVal m)) (-(k : Int)))) 0 .fp32 false false).getD 0

/-- The loss watch at a boundary (R306, R307). -/
def State.lossWatch (s : State) (b : Nat) : State :=
  let base := (s.berth b).keeper.sentBase
  let w0 := leNat (s.unitRead b (base + 0x600) 8).1
  let w1 := leNat (s.unitRead b (base + 0x608) 8).1
  let w2 := leNat (s.unitRead b (base + 0x610) 8).1
  if !bitOf w0 0 then s
  else if !lossCfgOk w0 then s.berthEvent b 0x07E3 0xFF 0
  else if !bitOf w1 32 then s
  else
    let loss := w1 % 2 ^ 32
    let mean := w2 % 2 ^ 32
    let seen := bitsOf w2 47 32
    let bad := valNonFinite (decodeElem .fp32 loss)
    let spike := bad || (decide (bitsOf w0 31 16 ≤ seen) && decide (0 < seen) &&
      cmpVal 2 (mulVal (decodeElem .fp32 mean) (decodeElem .fp32 (w0 / 2 ^ 32))) (decodeElem .fp32 loss))
    let s := s.count b 10 (flag bad)
    let s := if spike then
        (((s.count b 9 1).unitWrite b (base + 0x618) (leBytes 8 (s.berth b).tally.toNat)).trip b 0xFF (bitsOf w0 7 6) loss mean)
      else s.unitWrite b (base + 0x610) (leBytes 8 (lossMean seen (bitsOf w0 5 1) mean loss + min 65535 (seen + 1) * 2 ^ 32 +
        bitsOf w2 51 48 * 2 ^ 48))
    s.unitWrite b (base + 0x608) (zeros 8)

/-- Whether the sentinel block of a berth can be read and written. -/
def State.blockOk (s : State) (b : Nat) : Bool :=
  let base := (s.berth b).keeper.sentBase
  (s.localRange b base 2048 true).isSome && (s.localRange b base 2048 false).elim false fun l =>
    l.all fun p => !s.mem.marked p.1

/-- The sentinels at a boundary (R301-R303, R312). -/
def State.sentinels (s : State) (b : Nat) : State :=
  let base := (s.berth b).keeper.sentBase
  if base = 0 then s
  else if !s.blockOk b then s.berthEvent b 0x07E3 0xFF 0
  else
    let s := forN 16 s fun k t => t.unitWrite b (base + 8 * k) (leBytes 8 (t.counter b k).toNat)
    let soft := (List.range 48).map fun i => (16 + i, BitVec.ofNat 64 (leNat (s.unitRead b (base + 8 * (16 + i)) 8).1))
    let s := s.modBerth b fun x => { x with
      keeper := { x.keeper with cnt := soft.foldl (fun t p => tset t p.1 p.2) x.keeper.cnt } }
    (forN 64 s fun k t => t.tripStep b k).lossWatch b

/-- The settings 0x9000 to 0x9002 come into force after the keeper's work, and with them those of the exchange (R313,
11 R340). A new table starts with no contribution. -/
def State.adopt (s : State) (b : Nat) : State :=
  let base := s.setting 0x9000 (b + 1) 0
  let e := s.setting 0x9001 (b + 1) 0
  s.modBerth b fun x => { x with
    keeper := { x.keeper with
      acc := if base = x.keeper.tblBase ∧ e = x.keeper.tblE then x.keeper.acc else [],
      tblBase := base, tblE := if base = 0 then 0 else e, sentBase := s.setting 0x9002 (b + 1) 0 },
    exch := ((List.range 17).map fun i => (0xB000 + i, s.setting (0xB000 + i) (b + 1) (if i = 3 then 1000 else 0))),
    reported := [] }

/-- The keeper's work at a boundary (R291-R293, R303, R307). -/
def State.keeperWork (s : State) (b : Nat) : State :=
  let n := (s.berth b).stepSeq.toNat + 1
  let s := s.modBerth b fun x => { x with stepSeq := BitVec.ofNat 64 n }
  let s := forN (s.berth b).keeper.tblE s fun i t => t.scaleStep b n i
  (s.sentinels b).adopt b

/-! The timetable (13 R409-R413). -/

/-- A timetable entry. -/
structure TtEnt where
  at_ : Nat
  w1 : Nat
  arg0 : Nat
  arg1 : Nat
deriving DecidableEq, Repr

/-- The entry in 32 bytes. -/
def ttOf (b : Bytes) : TtEnt := { at_ := leAt b 0 8, w1 := leAt b 8 8, arg0 := leAt b 16 8, arg1 := leAt b 24 8 }

/-- The action of an entry. -/
def TtEnt.action (e : TtEnt) : Nat := bitsOf e.w1 15 8

/-- Whether an entry is valid (R411): `e` is the number of scale records in use. -/
def ttValid (x : TtEnt) (e : Nat) : Bool :=
  bitsOf x.w1 7 2 == 0 &&
    match x.action with
    | 1 => true
    | 2 => decide (x.arg0 % 65536 < e)
    | 3 => true
    | 4 => true
    | 5 => x.arg0 % 8 == 0 && decide (x.arg0 < 2 ^ 57)
    | 6 => true
    | _ => false

/-- An entry as it is written back after it fired at tally `t` (R413). -/
def ttFired (x : TtEnt) (t : Nat) : TtEnt :=
  let period := bitsOf x.w1 63 32
  let fires := min 65535 (bitsOf x.w1 31 16 + 1)
  { x with
    at_ := if period = 0 then x.at_ else x.at_ + period * ((t - x.at_) / period + 1),
    w1 := x.w1 - bitsOf x.w1 31 16 * 2 ^ 16 + fires * 2 ^ 16 - if period = 0 then 1 else 0 }

/-- The sequencer's write of W0 and W1 (R410). -/
def State.ttWrite (s : State) (b base i : Nat) (x : TtEnt) : State :=
  s.unitWrite b (base + 32 * i) (leBytes 8 x.at_ ++ leBytes 8 x.w1)

/-- A stream switch (R411, R412): the code that refuses it, 0 if none. -/
def State.ttSwitch (s : State) (b arg : Nat) : Nat × State :=
  let st := arg % 16
  let on := (s.strm b st).enable != 0
  if bitOf arg 8 = on then (0, s)
  else s.writeEnable b st (if bitOf arg 8 then (if (s.strmCfg b st).srcPort = 0 then 2 else 1) else 0)

/-- A lockage asked for in a slot (R413): the first at a boundary waits to run, a later one is merged into it. -/
def State.askLockage (s : State) (b slot : Nat) : State :=
  let x := tget s.snaps {} b
  if x.lockage.isSome then s.berthEvent b 0x0686 slot 0
  else { s with snaps := tset s.snaps b { x with lockage := some slot, phase := 1, copied := false } }

/-- What the action of entry `i` does (R411). -/
def State.ttAct (s : State) (b i : Nat) (x : TtEnt) : State :=
  match x.action with
  | 1 => s.askLockage b (x.arg0 % 256)
  | 2 => s.unitWrite b ((s.berth b).keeper.tblBase + 64 * (x.arg0 % 65536)) (leBytes 8 x.arg1)
  | 4 => s.hold b
  | 5 => s.unitWrite b x.arg0 (leBytes 8 x.arg1)
  | 6 =>
    let r := s.ttSwitch b x.arg0
    if r.1 = 0 then r.2 else r.2.berthEvent b 0x0685 i r.1
  | _ => s

/-- Entry `i` fires at tally `t`, or is switched off as invalid (R413). -/
def State.ttFire (s : State) (b base t i : Nat) : State :=
  let x := ttOf (s.unitRead b (base + 32 * i) 32).1
  if !ttValid x (s.berth b).keeper.tblE then
    (s.ttWrite b base i { x with w1 := x.w1 - 1 }).berthEvent b 0x0685 i 0
  else
    let s := s.ttAct b i x
    let s := if x.action = 3 ∨ bitOf x.w1 1 then s.berthEvent b 0x0688 (if x.action = 3 then x.arg0 else i) i else s
    s.ttWrite b base i (ttFired x t)

/-- The entries due at a tally, in firing order (R413). -/
def State.ttDue (s : State) (b base n t : Nat) : List Nat :=
  let l := ((List.range n).map fun i => (i, ttOf (s.unitRead b (base + 32 * i) 32).1)).filter fun p =>
    bitOf p.2.w1 0 && decide (p.2.at_ ≤ t)
  (l.mergeSort fun p q => decide (p.2.at_ < q.2.at_) || (p.2.at_ == q.2.at_ && decide (p.1 ≤ q.1))).map Prod.fst

/-- The first action of R37: the timetable. -/
def State.timetable (s : State) (b : Nat) : State :=
  let base := s.setting 0x8010 (b + 1) 0
  let n := s.setting 0x8011 (b + 1) 0
  let t := (s.berth b).tally.toNat
  if n = 0 then s
  else if !s.rangeOk b (s.berth b).maps base (32 * n) false then s.berthEvent b 0x0685 (2 ^ 64 - 1) 0
  else forL (s.ttDue b base n t) s fun i u => u.ttFire b base t i

/-- The actions of R37 at a boundary: the timetable fires; with no lockage to run the sequencer may fetch again. A held
berth owes them until its release (R305). -/
def State.boundaryActions (s : State) (b : Nat) : State :=
  let x := s.berth b
  if !x.boundary || (tget s.snaps {} b).phase != 0 then s
  else if x.held then s.modBerth b fun y => { y with holdDue := true }
  else
    let s := (s.modBerth b fun y => { y with holdDue := false }).timetable b
    if (tget s.snaps {} b).phase = 1 then s else s.modBerth b fun y => { y with boundary := false }

/-! Retirement (15 R467). -/

/-- Retires what stands at a queue's front, if it is ready to; a step-end command brings the keeper's work with it
(10 R290, R291). -/
def State.retireOne (s : State) (b q : Nat) : State :=
  let s := s.finishRun b q
  match s.queue b q with
  | none => s
  | some x =>
    match s.retiring b x with
    | none => s
    | some (status, count, aux, fault) =>
      let step := s.endsStep b x
      let s := if step then (s.keeperWork b).modBerth b fun y => { y with
        boundary := true, withhold := y.withhold || y.handOver } else s
      (s.retireFront b q status count aux step fault).sweepQueue b q

/-- `COMMAND_RETIRE`: the command at a queue's front retires when its work is accepted (15 R467). -/
def execCommandRetire (b q : Nat) (s : State) : Result := .next (s.retireOne b q)

/-- `STEP_BOUNDARY`: the step-end command of a berth retires, if it has not yet, and the sequencer carries out the actions
of R37. -/
def execStepBoundary (b : Nat) (s : State) : Result :=
  .next (
    let s := if (s.berth b).boundary then s
      else match (s.berth b).queues.find? fun p => s.endsStep b p.2 && p.2.run.isSome with
        | some p => s.retireOne b p.1
        | none => s
    s.boundaryActions b)

/-- Releases a held berth: the actions that its boundary still owes are carried out (10 R305, 13 R413). -/
def State.release (s : State) (b : Nat) : State :=
  if (s.berth b).held then (s.modBerth b fun x => { x with held := false }).boundaryActions b else s

/-- `HOLD_RELEASE`: a write of 0 to the hold entry releases the berth (10 R305). -/
def execHoldRelease (b : Nat) (s : State) : Result :=
  .next (s.byDict 0x9004 (b + 1) fun t => (0, t.release b))

end Sys2Proof.Machine
end

