-- ==== Sys2Proof/Machine/Defects.lean ====
section
/-!
DEFINITION. The defect list, spares and what a lockkeeper's absence holds back (17 R520-R526).
-/

namespace Sys2Proof.Machine

/-- The number that the next entry of the defect list takes. -/
def State.defectNo (s : State) : Nat := s.defects.list.length + s.defects.running.length

/-- Enters a unit in the defect list (R522): a full list keeps the entry in its running state (R523), and without a
lockkeeper the entry waits (R541). -/
def State.addDefect (s : State) (e : DefectEnt) : State :=
  let e := { e with dawnNo := s.boot.dawns, ptpNs := s.ptpTime }
  let d := s.defects
  if s.lk.active.isNone then { s with defects := { d with waiting := d.waiting ++ [e] } }
  else if d.list.length < 4096 then { s with defects := { d with list := d.list ++ [e] } }
  else ({ s with defects := { d with running := d.running ++ [e] } }).moduleEvent 0x098C 0 0

/-- Every entry in force: the list, and what a full list keeps in its running state. -/
def State.defectsNow (s : State) : List DefectEnt := s.defects.list ++ s.defects.running

/-- A spare has entered service for entry `n`; `last` tells that it was the last of its kind (R540). -/
def State.spareIn (s : State) (n kind die : Nat) (last : Bool) : State :=
  let s := s.moduleEvent 0x0982 n 0
  if last then s.moduleEvent 0x0983 kind die else s

/-! Cores (R524-R526). -/

/-- The free spare cores of a die: PC16 and PC17, lowest first. -/
def State.freeCores (s : State) (d : Nat) : List Nat := tget s.defects.coreFree [16, 17] d

/-- The physical core of a core index (01 R27). -/
def State.physCore (s : State) (c : Nat) : Nat := tget s.defects.coreMap (c % 16) c

/-- A core has failed and awaits a spare (R525). -/
def State.coreFails (s : State) (c cause detail : Nat) : State :=
  if s.physCore c = 0xFF ∨ s.defects.subst.any fun x => x.1 == c then s
  else { s with defects := { s.defects with subst := s.defects.subst ++ [(c, cause, detail)] } }

/-- What a core takes along to its spare: local memory (R525). -/
def CoreSt.moved (k : CoreSt) : CoreSt := { lm := k.lm, nextId := k.nextId }

/-- A spare takes a failed core's place, or the core becomes absent where none is free (R525, R526). `bad` are spares
that could not be made complete with the berth's image, which are not used (R537). -/
def State.substituteCore (s : State) (c cause detail : Nat) (bad : List Nat) : State :=
  let d := c / 16
  let old := s.physCore c
  let free := (s.freeCores d).filter fun p => !bad.contains p
  let n := s.defectNo
  let s := { s with defects := { s.defects with subst := s.defects.subst.filter fun x => x.1 != c } }
  let e : DefectEnt := { kind := 1, die := d, unit := old, cause := cause, st := 2, detail := detail }
  match free with
  | p :: _ =>
    let s := s.addDefect { e with st := 1, spare := p }
    let left := (s.freeCores d).filter fun q => q != p
    let s := ({ s with defects := { s.defects with
      coreMap := tset s.defects.coreMap c p, coreFree := tset s.defects.coreFree d left } }).modCore c CoreSt.moved
    s.spareIn n 1 d left.isEmpty
  | [] =>
    let s := s.addDefect e
    (({ s with defects := { s.defects with coreMap := tset s.defects.coreMap c 0xFF } }).setCore c {}).moduleEvent 0x0985 c 0

/-- Whether a lockage of the berth of a die runs or waits (R541). -/
def State.dieInLockage (s : State) (d : Nat) : Bool :=
  (s.berthOfDie d).elim false fun b => (tget s.snaps {} b).phase == 1

/-- Whether a receiver of core images holds the version that a hand-over goes to (R536). Receiver `32 * die + unit`; unit 18
is the die controller. -/
def State.holdsImage (s : State) (die unit : Nat) : Bool := tget s.fw.held s.fw.base (32 * die + unit) == s.fw.target

/-- `CORE_SUBSTITUTION`: no launch holds a failed core, and a spare takes its place (R525). A spare without the image that a
hand-over of its berth waits for leaves the berth on its old one (R536). -/
def execCoreSubstitution (core : Nat) (bad : List Nat) (s : State) : Result :=
  .next (match s.defects.subst.find? fun x => x.1 == core with
    | none => s
    | some (_, cause, detail) =>
      if s.lk.active.isNone || (s.kern core).isSome || (cause == 3 && s.dieInLockage (core / 16)) then s
      else
        let s := s.substituteCore core cause detail bad
        match s.berthOfDie (core / 16) with
        | none => s
        | some b =>
          if (s.berth b).handOver && s.physCore core != 0xFF && !s.holdsImage (core / 16) (s.physCore core) then
            (s.modBerth b fun x => { x with handOver := false }).berthEvent b 0x098B 0 0
          else s)

/-! Attachments and fabric dies (01 R20, R28). -/

/-- Attachments in service of a compute die: A bit 0, B bit 1. -/
def State.attachments (s : State) (d : Nat) : Nat := tget s.defects.attach 3 d

/-- An attachment leaves service: it is entered and reported (R540). -/
def State.attachmentLost (s : State) (d a cause detail : Nat) : State :=
  if (s.attachments d).testBit a then
    let left := s.attachments d &&& (3 - 2 ^ a)
    (({ s with defects := { s.defects with attach := tset s.defects.attach d left } }).addDefect
      { kind := 8, die := d, unit := a, cause := cause, st := if left = 0 then 2 else 1, detail := detail,
        spare := if left = 0 then 0xFFFF else 1 - a }).moduleEvent 0x098F d a
  else s

end Sys2Proof.Machine
end

