-- ==== Sys2Proof/Machine/HostCmds.lean ====
section
/-!
DEFINITION. The host's side: function registers, mailboxes and doorbells, control requests, teardown, host links
(15 R443-R461, R473-R478).
-/

namespace Sys2Proof.Machine

/-! Function registers (R448, R473). -/

/-- `BARGE_GIVE`: the host passes barges of its window to the module (R473). -/
def execBargeGive (f : Nat) (bits : BitVec 64) (s : State) : Result :=
  .next (if !s.fnLive f then s
    else s.modFn f fun x => { x with
      bargeOwn := x.bargeOwn ||| (bits &&& BitVec.ofNat 64 (x.barge.elim 0 fun w => 2 ^ w.2.2 - 1)) })

/-- `FUNCTION_COUNTER_READ`: the host reads `QDB_BAD` (0), `NTC_LOST` (1) or `CPL_LOST` (2), which clears it; the PF has
`NTC_LOST` alone. `head` is a write of `NTC_HEAD` that comes with the read (R448). -/
def execFunctionCounterRead (f reg : Nat) (head : Option Nat) (s : State) : Result :=
  .next (if !s.fnLive f then s.emit { kind := .answer, port := f, args := [reg, 0] }
    else
      let x := s.fn f
      let v := if reg = 1 then x.ntcLost else if f = 0 then 0 else if reg = 0 then x.qdbBad else if reg = 2 then x.cplLost else 0
      (s.modFn f fun y => { y with
        ntcLost := if reg = 1 then 0 else y.ntcLost, qdbBad := if reg = 0 then 0 else y.qdbBad,
        cplLost := if reg = 2 then 0 else y.cplLost,
        ntcHead := (head.getD y.ntcHead) % 2 ^ 32 }).emit { kind := .answer, port := f, args := [reg, v] })

/-! Mailboxes and doorbells (R458-R461). -/

/-- The function that a mailbox belongs to (R443, R461). -/
def mbFunction (m : Nat) : Nat := if m < 96 then m / 4 + 1 else 0

/-- The berth whose kernels a mailbox faces. -/
def State.mbBerth (s : State) (m : Nat) : Option Nat :=
  if m < 96 then (if m % 4 = 0 then none else some (m / 4)) else (s.mb m).assigned

/-- The control requests (R455). -/
def reqKnown (r : Nat) : Bool := (decide (1 ≤ r) && decide (r ≤ 0x0E)) || (decide (0x10 ≤ r) && decide (r ≤ 0x13)) ||
  (decide (0x20 ≤ r) && decide (r ≤ 0x23))

/-- `MAILBOX_SUBMIT`: the host writes `IN` and then `NWORDS`: the request is submitted, or every write is discarded and
counted (R458, R460). A request without a server, or of a number that no server knows, is answered at once (R479); a
message in mailbox 97 goes to the dictionary (16 R492). -/
def execMailboxSubmit (m port : Nat) (words : List Nat) (nwords tag : Nat) (s : State) : Result :=
  .next (
    if 128 ≤ m ∨ !s.fnLive (mbFunction m) then s
    else if (s.mb m).busy then
      s.modMb m fun x => { x with collide := true, collisions := min 0xFFFF (x.collisions + (words.take 16).length + 1) }
    else
      let s := s.modMb m fun x => { x with
        inp := (words.take 16).zipIdx.foldl (fun t p => tset t p.2 (BitVec.ofNat 32 p.1)) x.inp, nwords := nwords % 16,
        tag := tag % 256, busy := true }
      let w0 := (tget (s.mb m).inp 0 0).toNat
      if m = 97 then
        let bytes := (List.range (nwords % 16 + 1)).flatMap fun i => leBytes 4 (tget (s.mb m).inp 0 i).toNat
        { s with dict := { s.dict with inbox := s.dict.inbox ++ [{ port := 97, conn := 0, msg := bytes }] } }
      else if m % 4 = 0 ∧ m ≤ 96 then
        let s := s.modFn (mbFunction m) fun x => { x with port := port % 2 }
        if reqKnown (w0 % 256) then s else s.mbReply m 0x0740 []
      else if !s.mbServed m then s.mbAnswer m 0x0748 0
      else s)

/-- `MAILBOX_ANSWER`: a kernel's write to offset 0x88 answers the request of a mailbox of its berth (R459). -/
def execMailboxAnswer (b m code outWords : Nat) (s : State) : Result :=
  .next (if s.mbBerth m = some b then s.mbAnswer m code outWords else s)

/-- `DBL_SET`: a kernel sets doorbell bits 1 to 31 of a mailbox of its berth (R459). -/
def execDblSet (b m : Nat) (bits : BitVec 32) (s : State) : Result :=
  .next (if s.mbBerth m = some b then s.ring m (bits &&& 0xFFFFFFFE) else s)

/-- `DBL_CLEAR`: the host clears doorbell bits (R458). -/
def execDblClear (m : Nat) (bits : BitVec 32) (s : State) : Result :=
  .next (if s.fnLive (mbFunction m) then s.modMb m fun x => { x with dbl := x.dbl &&& ~~~bits } else s)

/-- `DBL_MASK_WRITE`: the host writes a doorbell mask; the vector fires where a mask bit falls while its doorbell bit is
set (R461). -/
def execDblMaskWrite (m : Nat) (mask : BitVec 32) (s : State) : Result :=
  .next (if !s.fnLive (mbFunction m) then s
    else
      let x := s.mb m
      let s := s.modMb m fun y => { y with dblMask := mask }
      if x.dblMask &&& ~~~mask &&& x.dbl = 0 then s else s.emit { kind := .msix, port := m })

/-- `COLLIDE_CLEAR`: the host clears `COLLIDE` (R458). -/
def execCollideClear (m : Nat) (s : State) : Result :=
  .next (if s.fnLive (mbFunction m) then s.modMb m fun x => { x with collide := false } else s)

/-- `COLLISIONS_READ`: the host reads offset 0x84, which clears `COLLISIONS` (R458). -/
def execCollisionsRead (m : Nat) (s : State) : Result :=
  .next (if s.fnLive (mbFunction m) then
      (s.modMb m fun x => { x with collisions := 0 }).emit { kind := .answer, port := m, args := [s.mbStatus m] }
    else s.emit { kind := .answer, port := m, args := [0] })

/-! Control requests (R455). -/

/-- Word `i` of a request. -/
def State.reqWord (s : State) (m i : Nat) : Nat := (tget (s.mb m).inp 0 i).toNat

/-- Two words of a request, low word first. -/
def State.reqLong (s : State) (m i : Nat) : Nat := s.reqWord m i + 2 ^ 32 * s.reqWord m (i + 1)

/-- What a request gives: its acknowledge code, its answer words and the state. -/
abbrev Reply := Nat × List Nat × State

/-- The berth that a request names. -/
def State.reqBerth (s : State) (m : Nat) : Nat := if m = 96 then bitsOf (s.reqWord m 0) 12 8 else m / 4

/-- Serves a control request of number `req` in a service mailbox (R455): its form, its role and its berth, then the
request. Requests that name no berth pass over the berth. Mailbox 96 answers while a lockkeeper runs (R480). -/
def State.serve (s : State) (m req : Nat) (named : Bool) (f : Nat → State → Reply) : State :=
  let w0 := s.reqWord m 0
  if !(m % 4 == 0 && decide (m ≤ 96)) || !(s.mb m).busy || w0 % 256 != req || (m == 96 && s.lk.active.isNone) then s
  else if w0 / (if m = 96 then 2 ^ 13 else 2 ^ 8) ≠ 0 then s.mbReply m 0x0740 []
  else if 0x20 ≤ req ∧ m ≠ 96 then s.mbReply m 0x0746 []
  else if named ∧ (s.berth (s.reqBerth m)).life = .absent then s.mbReply m 0x07C0 []
  else
    let r := f (s.reqBerth m) s
    r.2.2.mbReply m r.1 (if r.1 = 0 then r.2.1 else [])

/-- A refused request. -/
def refuse (code : Nat) (s : State) : Reply := (code, [], s)

/-- A request done without answer words. -/
def done (s : State) : Reply := (0, [], s)

/-- Whether a request may name a context (R475, R479). -/
def State.ctxOk (s : State) (b c : Nat) : Bool := (s.ctx c).elim false fun x => x.berth == b && !x.abandoned

/-- `CTX_CREATE` (R449, R455). -/
def execCtxCreate (m : Nat) (s : State) : Result :=
  .next (s.serve m 0x01 true fun b t =>
    match firstBelow 65536 fun c => (t.ctx c).isNone with
    | none => refuse 0x0741 t
    | some c => (0, [c], { t with ctxs := tset t.ctxs c { berth := b } }))

/-- What abandoning a context does to a queue of it (R475): what has not started retires, a take ends after the record in
progress, an `XWAIT` at once. -/
def State.abandonQueue (s : State) (b q : Nat) : State :=
  match s.queue b q with
  | none => s
  | some x =>
    let s := match x.run with
      | none => s.retireRest b q 0x0707
      | some r =>
        if r.done.isSome then s
        else if cmdOpc r.words = 7 then s.endCmd b q 0x0707
        else if cmdOpc r.words = 5 then (s.berth b).take.elim s fun t => s.takeEnd b t
        else s
    s.sweepQueue b q

/-- Abandons a context (R475). -/
def State.abandonCtx (s : State) (b c : Nat) : State :=
  match s.ctx c with
  | none => s
  | some x =>
    if x.abandoned then s
    else
      let s := { s with ctxs := tset s.ctxs c { x with abandoned := true } }
      let qs := ((s.berth b).queues.filter fun p => p.2.ctx == c).map Prod.fst
      let idle := qs.filter fun q => (s.queue b q).elim false fun y => y.run.isNone
      let s := forL idle s fun q t => t.retireRest b q 0x0707
      let evs := (s.evtHandles b).filter fun h => (s.evtAt b h).elim false fun e => e.creator == c
      let s := forL evs s fun h t => t.evtSet b h 0 2
      let s := s.dropHolder b c
      (forL qs s fun q t => t.abandonQueue b q).freeCtx b c

/-- `CTX_ABANDON` (R475). -/
def execCtxAbandon (m : Nat) (s : State) : Result :=
  .next (s.serve m 0x02 true fun b t =>
    let c := t.reqWord m 1
    if t.ctxOk b c then done (t.abandonCtx b c) else refuse 0x0743 t)

/-- Stops the launches of a context's queues, and what else still runs there (R475). -/
def State.graceOver (s : State) (b c : Nat) : State :=
  forL ((s.berth b).queues.filter fun p => p.2.ctx == c) s fun p t =>
    match p.2.run with
    | none => t
    | some r =>
      if r.done.isSome then t
      else match r.launch with
        | some l => t.stopLaunch l 0x0708
        | none => if cmdOpc r.words = 5 then (t.berth b).take.elim t fun x => t.takeEnd b x 0x0707 else t

/-- `ABANDON_GRACE_EXPIRY`: the grace of an abandoned context ends (R475). -/
def execAbandonGraceExpiry (ctx : Nat) (s : State) : Result :=
  .next (match s.ctx ctx with
    | none => s
    | some x => if x.abandoned then s.graceOver x.berth ctx else s)

/-- `QUEUE_CREATE` (R455, R462). -/
def execQueueCreate (m : Nat) (s : State) : Result :=
  .next (s.serve m 0x03 true fun b t =>
    let c := t.reqWord m 1
    let w := t.reqWord m 2
    let log2 := bitsOf w 20 16
    let step := bitOf w 8
    if !t.ctxOk b c then refuse 0x0743 t
    else if w / 2 ^ 21 ≠ 0 ∨ bitsOf w 7 5 ≠ 0 ∨ bitsOf w 15 9 ≠ 0 ∨ log2 < 4 ∨ 16 < log2 ∨ (t.berth b).dies.length ≤ w % 32 ∨
        (step ∧ (t.berth b).queues.any fun p => p.2.step) then refuse 0x0740 t
    else
      match firstBelow 16384 fun q => (t.queue b q).isNone with
      | none => refuse 0x0741 t
      | some q => (0, [q], t.modBerth b fun x => { x with
          queues := tset x.queues q { ctx := c, pos := w % 32, step := step, log2 := log2, hostRing := t.reqLong m 3,
                                      cplRing := t.reqLong m 5, staging := t.reqLong m 7 } }))

/-- `QUEUE_DESTROY`: takes effect when the last admitted command has retired (R477). -/
def execQueueDestroy (m : Nat) (s : State) : Result :=
  .next (s.serve m 0x04 true fun b t =>
    let q := t.reqWord m 1
    if (t.queue b q).isNone then refuse 0x0742 t
    else done ((t.modQueue b q fun x => { x with destroying := true }).sweepQueue b q))

/-- `QUEUE_STOP`: no later command starts; with `STOP_KERNEL` a running launch is stopped (R477). -/
def execQueueStop (m : Nat) (s : State) : Result :=
  .next (s.serve m 0x05 true fun b t =>
    let q := t.reqWord m 1
    let w := t.reqWord m 2
    match t.queue b q with
    | none => refuse 0x0742 t
    | some x =>
      if 1 < w then refuse 0x0740 t
      else
        let t := t.modQueue b q fun y => { y with stopped := true }
        match x.run.bind fun r => r.launch with
        | some l => done (if w = 1 then t.stopLaunch l 0x0709 else t)
        | none => done t)

/-- `QUEUE_START`: resumes a queue (R477). -/
def execQueueStart (m : Nat) (s : State) : Result :=
  .next (s.serve m 0x06 true fun b t =>
    let q := t.reqWord m 1
    if (t.queue b q).isNone then refuse 0x0742 t else done (t.modQueue b q fun x => { x with stopped := false }))

/-- Whether every page of a range is mapped. -/
def allMapped (maps : List MapEnt) (va n : Nat) : Bool :=
  ((List.range ((va % 4096 + n + 4095) / 4096)).map fun i => if i = 0 then va else (va / 4096 + i) * 4096).all fun a =>
    (findMap maps a).isSome

/-- `OBJ_CREATE` (R449, R450, R455). -/
def execObjCreate (m : Nat) (s : State) : Result :=
  .next (s.serve m 0x07 true fun b t =>
    let c := t.reqWord m 1
    let va := t.reqLong m 2
    let n := t.reqLong m 4
    if !t.ctxOk b c then refuse 0x0743 t
    else if !allMapped (t.berth b).maps va n then refuse 0x0747 t
    else
      let x := t.berth b
      match x.objFree, decide (x.objNext < 2 ^ 20) with
      | [], false => refuse 0x0741 t
      | free, _ =>
        let i := free.headD x.objNext
        let g := (tget x.objs {} i).gen
        (0, [i + 2 ^ 20 * g], t.modBerth b fun y => { y with
          objs := tset y.objs i { gen := g, live := true, va := va, bytes := n, holders := [c] },
          objFree := free.drop 1, objNext := if free.isEmpty then y.objNext + 1 else y.objNext }))

/-- `OBJ_IMPORT` (R452, R455). -/
def execObjImport (m : Nat) (s : State) : Result :=
  .next (s.serve m 0x08 true fun b t =>
    let c := t.reqWord m 1
    let h := t.reqWord m 2
    if !t.ctxOk b c then refuse 0x0743 t
    else if (t.objAt b h).isNone then refuse 0x0742 t
    else done (t.modObj b h fun o => { o with holders := if o.holders.contains c then o.holders else o.holders ++ [c] }))

/-- `OBJ_RELEASE` (R452, R455). -/
def execObjRelease (m : Nat) (s : State) : Result :=
  .next (s.serve m 0x09 true fun b t =>
    let c := t.reqWord m 1
    let h := t.reqWord m 2
    if !t.ctxOk b c then refuse 0x0743 t
    else match t.objAt b h with
      | none => refuse 0x0742 t
      | some o =>
        if o.holders.contains c then
          done ((t.modObj b h fun o => { o with holders := o.holders.filter fun x => x != c }).objSweep b h)
        else refuse 0x0742 t)

/-- `EVT_CREATE` (R449, R450, R455). -/
def execEvtCreate (m : Nat) (s : State) : Result :=
  .next (s.serve m 0x0A true fun b t =>
    let c := t.reqWord m 1
    let w := t.reqWord m 4
    if !t.ctxOk b c then refuse 0x0743 t
    else if 1 < w then refuse 0x0740 t
    else
      let x := t.berth b
      match x.evtFree, decide (x.evtNext < 2 ^ 18) with
      | [], false => refuse 0x0741 t
      | free, _ =>
        let i := free.headD x.evtNext
        let g := (tget x.evts {} i).gen
        (0, [i + 2 ^ 18 * g], t.modBerth b fun y => { y with
          evts := tset y.evts i { gen := g, live := true, value := BitVec.ofNat 64 (t.reqLong m 2), notify := w = 1,
                                  creator := c, holders := [c] },
          evtFree := free.drop 1, evtNext := if free.isEmpty then y.evtNext + 1 else y.evtNext }))

/-- `EVT_IMPORT` (R452, R455). -/
def execEvtImport (m : Nat) (s : State) : Result :=
  .next (s.serve m 0x0B true fun b t =>
    let c := t.reqWord m 1
    let h := t.reqWord m 2
    if !t.ctxOk b c then refuse 0x0743 t
    else if (t.evtAt b h).isNone then refuse 0x0742 t
    else done (t.modEvt b h fun e => { e with holders := if e.holders.contains c then e.holders else e.holders ++ [c] }))

/-- `EVT_RELEASE` (R452, R455). -/
def execEvtRelease (m : Nat) (s : State) : Result :=
  .next (s.serve m 0x0C true fun b t =>
    let c := t.reqWord m 1
    let h := t.reqWord m 2
    if !t.ctxOk b c then refuse 0x0743 t
    else match t.evtAt b h with
      | none => refuse 0x0742 t
      | some e =>
        if e.holders.contains c then
          done ((t.modEvt b h fun e => { e with holders := e.holders.filter fun x => x != c }).evtSweep b h)
        else refuse 0x0742 t)

/-- `EVT_QUERY` (R455). -/
def execEvtQuery (m : Nat) (s : State) : Result :=
  .next (s.serve m 0x0D true fun b t =>
    match t.evtAt b (t.reqWord m 1) with
    | none => refuse 0x0742 t
    | some e => (0, [e.value.toNat % 2 ^ 32, e.value.toNat / 2 ^ 32, e.status], t))

/-- `EVT_SIGNAL` (R454, R455). -/
def execEvtSignal (m : Nat) (s : State) : Result :=
  .next (s.serve m 0x0E true fun b t =>
    let h := t.reqWord m 1
    if (t.evtAt b h).isNone then refuse 0x0742 t else done (t.evtSet b h (t.reqLong m 2) 0))

/-- `BARGE_SETUP` for the function of the mailbox (R455, R473). -/
def execBargeSetup (m : Nat) (s : State) : Result :=
  .next (s.serve m 0x10 false fun _ t =>
    let f := mbFunction m
    let a := t.reqLong m 1
    let w := t.reqWord m 3
    let k := w % 32
    let n := bitsOf w 14 8
    if a % 4096 ≠ 0 ∨ w / 2 ^ 15 ≠ 0 ∨ bitsOf w 7 5 ≠ 0 ∨ k < 16 ∨ 26 < k ∨ n = 0 ∨ 64 < n then refuse 0x0740 t
    else if (t.fn f).bargeOwn ≠ 0 then refuse 0x0745 t
    else done (t.modFn f fun x => { x with barge := some (a, k, n) }))

/-- `NOTICE_SETUP` for the function of the mailbox (R455, R474). -/
def execNoticeSetup (m : Nat) (s : State) : Result :=
  .next (s.serve m 0x11 false fun _ t =>
    let a := t.reqLong m 1
    let w := t.reqWord m 3
    if a % 64 ≠ 0 ∨ w < 6 ∨ 16 < w then refuse 0x0740 t
    else done (t.modFn (mbFunction m) fun x => { x with ring := some (a, w) }))

/-- `RESUME`: releases a held berth (R455, 10 R305). -/
def execResumeBerth (m : Nat) (s : State) : Result := .next (s.serve m 0x12 true fun b t => done (t.release b))

/-- The shift of a page size code: 64 KiB, 2 MiB, 1 GiB. -/
def pageShift (x : Nat) : Nat := if x = 0 then 16 else if x = 1 then 21 else 30

/-- `MAP`: maps pages into a berth's translation (R455, R456). -/
def execMapPages (m : Nat) (s : State) : Result :=
  .next (s.serve m 0x20 true fun b t =>
    let va := t.reqLong m 1
    let pa := t.reqLong m 3
    let n := t.reqWord m 5
    let w := t.reqWord m 6
    let sh := pageShift (w % 4)
    let len := n * 2 ^ sh
    if 16 ≤ w ∨ w % 4 = 3 ∨ n = 0 then refuse 0x0740 t
    else if va % 2 ^ sh ≠ 0 ∨ pa % 2 ^ sh ≠ 0 ∨ 2 ^ 57 < va + len ∨
        ((t.berth b).maps.any fun x => decide (va < x.va + x.pages * 2 ^ x.shift) && decide (x.va < va + len)) then refuse 0x0744 t
    else done (t.modBerth b fun x => { x with
      maps := x.maps ++ [{ va := va, pa := pa, shift := sh, pages := n, read := bitOf w 2, write := bitOf w 3 }] }))

/-- A mapped range without the pages from `lo` to below `hi`. -/
def MapEnt.cut (x : MapEnt) (lo hi : Nat) : List MapEnt :=
  let sz := 2 ^ x.shift
  let e := x.va + x.pages * sz
  if hi ≤ x.va ∨ e ≤ lo then [x]
  else
    (if x.va < lo then [{ x with pages := (lo - x.va) / sz }] else []) ++
      (if hi < e then [{ x with va := hi, pa := x.pa + (hi - x.va), pages := (e - hi) / sz }] else [])

/-- `UNMAP`: unmaps pages, all of them or none (R453, R455). -/
def execUnmapPages (m : Nat) (s : State) : Result :=
  .next (s.serve m 0x21 true fun b t =>
    let va := t.reqLong m 1
    let n := t.reqWord m 3
    let w := t.reqWord m 4
    let sh := pageShift (w % 4)
    let len := n * 2 ^ sh
    let x := t.berth b
    if 3 ≤ w ∨ n = 0 then refuse 0x0740 t
    else if va % 2 ^ sh ≠ 0 ∨
        !((List.range n).all fun i => (findMap x.maps (va + i * 2 ^ sh)).elim false fun e => e.shift == sh) ∨
        ((t.objHandles b).any fun h => (t.objAt b h).elim false fun o =>
          decide (va < o.va + o.bytes) && decide (o.va < va + len)) then refuse 0x0744 t
    else done (t.modBerth b fun y => { y with maps := y.maps.flatMap fun e => e.cut va (va + len) }))

/-- `MB_ASSIGN`: assigns an operator mailbox to a berth, or withdraws it, which answers a request that waits (R455,
R460). -/
def execMbAssign (m : Nat) (s : State) : Result :=
  .next (s.serve m 0x22 false fun _ t =>
    let x := t.reqWord m 1
    let w := t.reqWord m 2
    if x < 98 ∨ 127 < x ∨ w / 2 ^ 9 ≠ 0 ∨ bitsOf w 7 5 ≠ 0 then refuse 0x0740 t
    else if bitOf w 8 then
      if (t.berth (w % 32)).life = .absent then refuse 0x07C0 t
      else done (t.modMb x fun y => { y with assigned := some (w % 32) })
    else done ((t.modMb x fun y => { y with assigned := none }).mbAnswer x 0x0748 0))

/-- `SEG_LOAD`: copies host memory into both copies of a loading segment (R455, 14 R432). -/
def execSegLoad (m : Nat) (s : State) : Result :=
  .next (s.serve m 0x23 false fun _ t =>
    let k := t.reqWord m 1
    let off := t.reqLong m 2
    let a := t.reqLong m 4
    let n := t.reqWord m 6
    let g := t.seg k
    if 63 < k ∨ a % 64 ≠ 0 then refuse 0x0740 t
    else if g.st ≠ 1 then refuse 0x07C0 t
    else if off % 64 ≠ 0 ∨ n % 64 ≠ 0 ∨ n = 0 ∨ 2 ^ 30 < n ∨ g.bytes < off + n then refuse 0x0740 t
    else if !t.hostUp then refuse 0x070B t
    else done (forN (n / 64) t fun i u =>
      let bs := u.hostRead (a + 64 * i) 64
      (u.homeStore (g.primary + off + 64 * i) bs).homeStore (g.shadow + off + 64 * i) bs))

/-! Function-level resets and host links (R476, R478). -/

/-- `VF_FLR`: abandons every context of the berth; ring and barge window go once no command touches a barge (R476). -/
def execVfFlr (f : Nat) (s : State) : Result :=
  .next (if f = 0 ∨ 24 < f ∨ !s.fnLive f then s
    else
      let b := f - 1
      let cs := (s.ctxs.filter fun p => p.2.berth == b).map Prod.fst
      ((forL cs s fun c t => t.abandonCtx b c).modFn f fun x => { x with flr := true }).flrClear f)

/-- `PF_FLR`: clears the PF's registers, ring, window and the operator's mailboxes; no berth is affected, so a mailbox
stays with the berth it is assigned to (R476). -/
def execPfFlr (s : State) : Result :=
  .next (forN 32 { s with host := { s.host with fn := tset s.host.fn 0 {} } } fun j t =>
    t.modMb (96 + j) fun x => { assigned := x.assigned })

/-- A host port. -/
def State.hostPort (s : State) (p : Nat) : PortSt := tget s.host.ports {} p

/-- The state with a host port changed. -/
def State.modPort (s : State) (p : Nat) (f : PortSt → PortSt) : State :=
  { s with host := { s.host with ports := tset s.host.ports p (f (s.hostPort p)) } }

/-- `HOST_LINK_DOWN`: a host port leaves link-up; functions go on through the other port (R447, R480). -/
def execHostLinkDown (port : Nat) (s : State) : Result := .next (s.modPort (port % 2) fun x => { x with up := false })

/-- `HOST_LOSS`: both ports have been down for 10 ms: the host is lost, and feeds that wait fail (R478). -/
def execHostLoss (s : State) : Result :=
  .next (if (s.hostPort 0).up || (s.hostPort 1).up then s
    else forN 24 { s with host := { s.host with lost := true } } fun b t => t.feedAll b)

/-- `HOST_LINK_UP`: a host link returns at a width and rate (R444, R478). -/
def execHostLinkUp (port width rate : Nat) (s : State) : Result :=
  .next (
    let s := s.modPort (port % 2) fun x => { x with up := true, width := min 4 width, rate := rate, perst := false }
    { s with host := { s.host with lost := false } })

end Sys2Proof.Machine
end

