-- ==== Sys2Proof/Machine/Berths.lean ====
section
/-!
DEFINITION. Berths and shared segments: creation, resizing, reset, dusk, segments and joins (14 R418-R436).
-/

namespace Sys2Proof.Machine

/-! Dies. -/

/-- Whether a compute die is free: of no berth, and not fenced (R418). -/
def State.dieFree (s : State) (d : Nat) : Bool := (s.berthOfDie d).isNone && !s.defects.fenced.contains d

/-- The dies of a mask. -/
def maskDies (m : Nat) : List Nat := (List.range 24).filter fun d => m.testBit d

/-- The mask of a list of dies. -/
def diesMask (l : List Nat) : Nat := l.foldl (fun m d => m ||| 2 ^ d) 0

/-- Whether a mask names dies, all of which are free and have their stack in service (R422). -/
def State.diesOk (s : State) (m : Nat) (have_ : List Nat) : Bool :=
  decide (m ≠ 0) && decide (m < 2 ^ 24) &&
    (maskDies m).all fun d => have_.contains d || (s.dieFree d && !(s.stack d).outOfService)

/-- Whether an address lies in a stack or in the DSM of a die. -/
def inDie (d a : Nat) : Bool := homeDie a == some d

/-- A die with every core's local memory, DSM and stack cleared to zero, except segment copies (R423). -/
def State.clearDie (s : State) (d : Nat) : State :=
  let keep := fun a => !inDie d a || (s.segOf a).isSome
  let s := forN 16 s fun c t => t.setCore (16 * d + c) {}
  { s with
    chans := s.chans.map fun p => (p.1, if p.1 / 1024 = d then { p.2 with wcb := [] } else p.2),
    mem := { cells := s.mem.cells.filter fun p => keep p.1, poison := s.mem.poison.filter fun p => keep (64 * p) } }

/-- Every per-berth entry of a berth, but for those that `but` keeps (16 R487, 14 R423). -/
def berthEntry (b key : Nat) : Bool :=
  let ix := key / 256
  (key % 256 == b + 1 && (decide (0x4001 ≤ ix) && decide (ix ≤ 0x40FF) || decide (0x8000 ≤ ix) && decide (ix ≤ 0x803F) ||
      decide (0x9000 ≤ ix) && decide (ix ≤ 0x90FF) || decide (0xB000 ≤ ix) && decide (ix ≤ 0xBFFF))) ||
    ix == 0x4300 + b || ix == 0x8040 + b || ix == 0x9100 + b || (ix - ix % 16) == 0xC100 + 16 * b

/-- The per-berth dictionary entries of a berth at their defaults, except those of the listed indices. -/
def State.berthDefaults (s : State) (b : Nat) (but : List Nat) : State :=
  let keep := fun k => !berthEntry b k || but.contains (k / 256)
  { s with dict := { s.dict with
      sets := s.dict.sets.filter fun p => keep p.1, blobs := s.dict.blobs.filter fun p => keep p.1 } }

/-- The parts of the state that a berth brings with it, as after its creation. -/
def State.berthBlank (s : State) (b : Nat) : State :=
  let s := forN 16 s fun st t => { t with streams := tdel t.streams (16 * b + st) }
  let s := forN 4 s fun j t => { t with mbox := tdel t.mbox (4 * b + j) }
  let s := forL (s.berth b).dies s fun d t => t.modExch d fun _ => {}
  { s with snaps := tdel s.snaps b, host := { s.host with fn := tdel s.host.fn (b + 1) } }

/-! Creation (R422, R423). -/

/-- The code that refuses a creation, 0 if none (R422). -/
def State.createCode (s : State) (b : Nat) : Nat :=
  let ext := s.setting 0x4005 (b + 1) 0
  let job := s.setting 0x4006 (b + 1) 0
  let share := s.setting 0x4007 (b + 1) 0
  if (s.berth b).life ≠ .absent then 0x07C0
  else if !s.diesOk (s.setting 0x4003 (b + 1) 0) [] then 0x07C1
  else if (ext = 1) ≠ (job ≠ 0) ∨ 1 < ext ∨ share = 0 ∨
      64 < share + ((s.berths.filter fun p => p.2.life ≠ .absent).map fun p => p.2.share).foldl (· + ·) 0 then 0x07C2
  else 0

/-- A write of 1 to `CMD`: the dies are claimed and the clearing begins. -/
def State.writeCreate (s : State) (b : Nat) : Nat × State :=
  let code := s.createCode b
  (code, if code ≠ 0 then s
    else s.setBerth b { life := .creating, dies := maskDies (s.setting 0x4003 (b + 1) 0), extent := s.setting 0x4005 (b + 1) 0,
                        job := s.setting 0x4006 (b + 1) 0, share := s.setting 0x4007 (b + 1) 0 })

/-- `BERTH_CREATE`. -/
def execBerthCreate (b : Nat) (s : State) : Result := .next (s.byDict 0x4001 (b + 1) fun t => t.writeCreate b)

/-! Reset (R428, R429). -/

/-- The stores and atomics that a core has issued to this module are performed, its kernel and its work are gone (R428,
steps 1 to 3). -/
def State.dropCore (s : State) (launch c : Nat) : State :=
  let s := s.stopCore launch c
  let s := forL (s.core c).acc s fun a t =>
    if a.launch = launch ∧ a.kind ≠ .load ∧ a.done.isNone ∧ a.node.isNone then t.perform c a else t
  s.modCore c fun x => { x with kern := none, acc := [], vq := [], aq := [], fills := [], banks := [], amax := [] }

/-- Every kernel of a berth stops without a fault record. -/
def State.dropLaunches (s : State) (b : Nat) : State :=
  let ls := s.launches.filter fun p => p.2.berth == b
  forL ls s fun p t =>
    let t := forL p.2.running t fun c u => u.dropCore p.1 c
    { t with launches := tdel t.launches p.1 }

/-- Every admitted command of a queue that has not retired is discarded, and the queue is left stopped (15 R477). -/
def State.resetQueue (s : State) (b q : Nat) : State :=
  match s.queue b q with
  | none => s
  | some x =>
    let s := forN (x.admitted - x.retired) s fun _ t => t.retireFront b q 0x070C 0 0 false []
    (s.modQueue b q fun y => { y with stopped := true, run := none }).sweepQueue b q

/-- A slot goes void (18 R549, R560). -/
def State.voidSlot (s : State) (b slot : Nat) : State :=
  let x := tget s.snaps {} b
  ({ s with snaps := tset s.snaps b { x with slots := tmod x.slots {} slot fun y => { y with st := 5 } } }).berthEvent b 0x0A44
    slot 0

/-- A lockage or restore that a reset or a fence interrupts: the lockage's slot goes void, the berth must be restored again
(18 R560). A lockage that has captured nothing leaves its slot as it was. -/
def State.dropSnap (s : State) (b : Nat) : State :=
  let x := tget s.snaps {} b
  let s := { s with snaps := tset s.snaps b { x with
    phase := 0, lockage := none, copied := false, restoring := none, unrestored := x.unrestored || x.phase == 2 } }
  match x.lockage with
  | some slot => if x.copied then s.voidSlot b slot else s
  | none => s

/-- A berth stops as in R428, steps 1 to 6, but for the clearing of local memory, which its end brings. -/
def State.stopBerth (s : State) (b : Nat) : State :=
  let s := s.dropLaunches b
  let s := s.modBerth b fun x => { x with take := none }
  let s := forL ((s.berth b).queues.map Prod.fst) s fun q t => t.resetQueue b q
  let s := s.modBerth b fun x => { x with
    held := false, holdDue := false, boundary := false, keeper := { x.keeper with acc := [] } }
  let s := s.dropSnap b
  let dies := (s.berth b).dies
  let s := forL dies s fun d t => t.modExch d fun x => { x with posts := [], rounds := [] }
  let s := s.modFabric fun x => { x with reqs := x.reqs.filter fun r => !dies.contains r.die }
  s.restartStrms b

/-- A mailbox that kernels of a berth serve answers what waits there (15 R460). -/
def State.resetBoxes (s : State) (b : Nat) : State :=
  forN 128 s fun m t => if m % 4 != 0 && t.mbBerth m == some b then t.mbAnswer m 0x0749 0 else t

/-- A reset begins. -/
def State.startReset (s : State) (b : Nat) : State :=
  ((s.stopBerth b).resetBoxes b).modBerth b fun x => { x with life := .resetting, wantReset := false }

/-! Dusk (R430). -/

/-- A dusk begins: contexts are abandoned, streams disabled, posts dropped, windows invalidated. -/
def State.startDusk (s : State) (b : Nat) : State :=
  let s := s.modBerth b fun x => { x with life := .dusk, wantDusk := false, wantReset := false }
  let s := forL ((s.ctxs.filter fun p => p.2.berth == b).map Prod.fst) s fun c t => t.abandonCtx b c
  let s := forN 16 s fun st t => if (t.strm b st).enable = 0 then t else t.disableStrm b st
  let s := forL (s.berth b).dies s fun d t => t.modExch d fun x => { x with posts := [] }
  s.modFabric fun x => { x with
    windows := x.windows.map fun w => (w.1, if bitsOf w.2.toNat 8 4 = b then w.2 &&& ~~~1#128 else w.2) }

/-- Whether a mode of a berth runs whose end a reset waits for (R439, note q). -/
def BerthSt.changing (x : BerthSt) : Bool := x.life == .creating || x.life == .resizing

/-- A reset or dusk that waited for the running mode begins (R439, notes q and s). -/
def State.nextMode (s : State) (b : Nat) : State :=
  let x := s.berth b
  if x.changing || x.life == .dusk || x.life == .absent then s
  else if x.wantReset && x.life == .active then s.startReset b
  else if x.wantDusk && x.life != .resetting && (tget s.snaps {} b).phase != 1 && (tget s.snaps {} b).phase != 2 then
    s.startDusk b
  else s

/-- A reset requested: merged into one that runs, refused in a dusk, an absent or a faulted berth, else begun or waiting
(R428, R439, R440). -/
def State.askReset (s : State) (b : Nat) : Nat × State :=
  match (s.berth b).life with
  | .absent => (0x07C0, s)
  | .dusk => (0x07C0, s)
  | .faulted => (0x07C0, s)
  | .resetting => (0, s)
  | _ => (0, (s.modBerth b fun x => { x with wantReset := true }).nextMode b)

/-- `BERTH_RESET_REQUEST`: a write of 3 to `CMD`. -/
def execBerthResetRequest (b : Nat) (s : State) : Result := .next (s.byDict 0x4001 (b + 1) fun t => t.askReset b)

/-- `RESET`: the host's request for a reset of its berth (15 R455). -/
def execResetBerth (m : Nat) (s : State) : Result :=
  .next (s.serve m 0x13 true fun b t =>
    let r := t.askReset b
    if r.1 = 0 then done r.2 else refuse r.1 t)

/-- `BERTH_RESET_DONE`: local memory is cleared, the berth is active again and hears of it (R428, step 6 and 7). -/
def execBerthResetDone (b : Nat) (s : State) : Result :=
  .next (
    if (s.berth b).life ≠ .resetting then s
    else
      let s := forL (s.berth b).dies s fun d t => forN 16 t fun c u => u.modCore (16 * d + c) fun x => { x with lm := {} }
      ((s.modBerth b fun x => { x with life := .active }).berthEvent b 0x07E0 0 0).nextMode b)

/-- `BERTH_CREATE_DONE`: the dies are cleared and the berth is active (R423). -/
def execBerthCreateDone (b : Nat) (s : State) : Result :=
  .next (
    if (s.berth b).life ≠ .creating then s
    else
      let x := s.berth b
      let s := forL x.dies s fun d t => t.clearDie d
      let s := (s.berthBlank b).berthDefaults b [0x4003, 0x4005, 0x4006, 0x4007]
      let s := s.setBerth b { life := .active, dies := x.dies, extent := x.extent, job := x.job, share := x.share,
                              maps := fixedMaps x.dies, wantReset := x.wantReset, wantDusk := x.wantDusk }
      (s.modFn (b + 1) fun y => { y with enabled := true }).nextMode b)

/-- Whether an active cut plan has a berth's bit set (R430). -/
def State.planned (s : State) (b : Nat) : Bool :=
  s.fabric.plans.any fun p => p.2.st == 2 && (leAt p.2.bytes 16 4).testBit b

/-- A write of 4 to `CMD` (R430). -/
def State.writeDusk (s : State) (b : Nat) : Nat × State :=
  if (s.berth b).life = .absent ∨ (s.berth b).life = .dusk then (0x07C0, s)
  else if s.planned b then (0x07C7, s)
  else (0, (s.modBerth b fun x => { x with wantDusk := true }).nextMode b)

/-- `BERTH_DUSK`. -/
def execBerthDusk (b : Nat) (s : State) : Result := .next (s.byDict 0x4001 (b + 1) fun t => t.writeDusk b)

/-- `DUSK_GRACE_EXPIRY`: what still runs is stopped: launches without a fault record, takes and feeds (R430, step 1). -/
def execDuskGraceExpiry (b : Nat) (s : State) : Result :=
  .next (
    if (s.berth b).life ≠ .dusk then s
    else
      let s := forL ((s.ctxs.filter fun p => p.2.berth == b).map Prod.fst) s fun c t => t.graceOver b c
      let s := forL (s.berth b).queues s fun p t => match p.2.run with
        | some r => if cmdOpc r.words = 6 ∧ r.done.isNone then t.endCmd b p.1 0x0707 r.count r.aux else t
        | none => t
      { s with launches := s.launches.map fun p => (p.1, if p.2.berth = b then { p.2 with fault := [] } else p.2) })

/-- `DUSK_DONE`: once every command has retired, the dies are cleared and free, every entry is at its default and the berth
is absent; the operator alone hears of it (R430, 15 R474). A mailbox assigned to the berth loses its server. -/
def execDuskDone (b : Nat) (s : State) : Result :=
  .next (
    let x := s.berth b
    if x.life ≠ .dusk ∨ !x.queues.isEmpty then s
    else
      let s := forL x.dies s fun d t => t.clearDie d
      let s := forN 30 s fun j t =>
        if (t.mb (98 + j)).assigned = some b then
          (t.modMb (98 + j) fun y => { y with assigned := none }).mbAnswer (98 + j) 0x0748 0
        else t
      let s := ((s.operatorEvent b 0x07E2 0 0).berthBlank b).berthDefaults b []
      { s with berths := tdel s.berths b, ctxs := s.ctxs.filter fun p => p.2.berth != b,
               fw := { s.fw with berth := tdel s.fw.berth b } })

/-! Resizing (R425, R426). -/

/-- Whether a die lies under a valid window entry (R425). -/
def State.windowOn (s : State) (d : Nat) : Bool :=
  s.fabric.windows.any fun w => w.2.getLsbD 0 &&
    decide ((winRange w.2).1 < stackBase (d + 1)) && decide (stackBase d < (winRange w.2).1 + (winRange w.2).2)

/-- Whether a berth's work allows a resize (R425). -/
def State.resizeFree (s : State) (b : Nat) : Bool :=
  let x := s.berth b
  (x.life == .active || x.life == .faulted) && !(x.queues.any fun p => p.2.run.isSome) && !s.exchBusy b &&
    (List.range 16).all (fun st => (s.strm b st).enable == 0) && (tget s.snaps {} b).phase != 1 &&
    (tget s.snaps {} b).phase != 2

/-- The code that refuses a resize, 0 if none (R425, R440). -/
def State.resizeCode (s : State) (b : Nat) : Nat :=
  let x := s.berth b
  let m := s.setting 0x4004 (b + 1) 0
  let gone := x.dies.filter fun d => !m.testBit d
  if x.life = .absent ∨ x.life = .dusk ∨
      (x.life = .faulted ∧ m ≠ diesMask (x.dies.filter fun d => !s.defects.fenced.contains d)) then 0x07C0
  else if !s.diesOk m x.dies then 0x07C1
  else if !s.resizeFree b then 0x07C3
  else if (maskDies m).head? ≠ x.dies.head? then 0x07C4
  else if gone.any s.windowOn then 0x07C5
  else 0

/-- Every slot of a berth's snapshots becomes empty (18 R542, R560). -/
def State.emptySlots (s : State) (b : Nat) : State :=
  { s with snaps := tset s.snaps b { tget s.snaps {} b with slots := [] } }

/-- A write of 2 to `CMD`: added dies are claimed and cleared. -/
def State.writeResize (s : State) (b : Nat) : Nat × State :=
  let code := s.resizeCode b
  if code ≠ 0 then (code, s)
  else
    let x := s.berth b
    let new := maskDies (s.setting 0x4004 (b + 1) 0)
    let s := forL (new.filter fun d => !x.dies.contains d) s fun d t => t.clearDie d
    (0, s.modBerth b fun y => { y with
      life := .resizing, newDies := new, dies := (List.range 24).filter fun d => new.contains d || y.dies.contains d })

/-- `BERTH_RESIZE`. -/
def execBerthResize (b : Nat) (s : State) : Result := .next (s.byDict 0x4001 (b + 1) fun t => t.writeResize b)

/-- `BERTH_RESIZE_DONE`: released dies are cleared and free, positions count anew over the dies that remain (R426). The
mappings of the dies' post registers follow (11 R321). -/
def execBerthResizeDone (b : Nat) (s : State) : Result :=
  .next (
    let x := s.berth b
    if x.life ≠ .resizing then s
    else
      let s := forL (x.dies.filter fun d => !x.newDies.contains d) s fun d t => (t.clearDie d).modExch d fun _ => {}
      let fixed := fixedMaps x.dies
      let s := s.modBerth b fun y => { y with
        life := .active, dies := y.newDies, newDies := [],
        maps := fixedMaps y.newDies ++ y.maps.filter fun m => !fixed.contains m && !(fixedMaps y.newDies).contains m &&
          !(decide (Config.postVa ≤ m.va) && decide (m.va < Config.postVa + 0x1000 * 24) && m.shift == 12) }
      ((s.putSetting 0x4003 (b + 1) (diesMask x.newDies)).emptySlots b).nextMode b)

/-! The shrink acknowledge (R427). -/

/-- Whether a mapped range lies, in part, in a range of this module's addresses. -/
def State.mapsRange (s : State) (m : MapEnt) (lo n : Nat) : Bool :=
  let node := m.pa / 2 ^ 52
  let pa := m.pa % 2 ^ 48
  (node == 0 || node == s.nodeId) && decide (pa < lo + n) && decide (lo < pa + m.pages * 2 ^ m.shift)

/-- Whether a carve-out other than a berth's sequencer area reaches into a range of a die (R440, 18 R560). -/
def State.carvedAbove (s : State) (d lo : Nat) : Bool :=
  let hit := fun a n => decide (a < stackBase (d + 1)) && decide (stackBase d + lo < a + n)
  (List.range 64).any (fun k => (s.seg k).st != 0 && (hit (s.seg k).primary (s.seg k).bytes || hit (s.seg k).shadow (s.seg k).bytes)) ||
    (List.range 24).any fun b => (s.berth b).life != .absent && (s.berth b).dies.contains d && decide ((s.snapArea b).2 ≠ 0) &&
      decide (lo < (s.snapArea b).1 + (s.snapArea b).2)

/-- A write of 5 to `CMD`: every pending limit that no translation of the berth passes becomes the grant (R427). -/
def State.writeShrink (s : State) (b : Nat) : Nat × State :=
  let x := s.berth b
  let due := x.dies.filterMap fun d => (s.stack d).pending.map fun p => (d, p)
  if x.life = .absent then (0x07C0, s)
  else if due.any fun p => x.maps.any fun m => s.mapsRange m (stackBase p.1 + p.2) (0x1000000000 - p.2) then (0x07C6, s)
  else (0, forL due s fun p t =>
    if t.carvedAbove p.1 p.2 then t else (t.modStack p.1 fun y => { y with limit := min y.limit p.2 }).emptySlots b)

/-- `SHRINK_ACKNOWLEDGE`. -/
def execShrinkAcknowledge (b : Nat) (s : State) : Result := .next (s.byDict 0x4001 (b + 1) fun t => t.writeShrink b)

/-- A write to `CMD` of any value (R441). -/
def State.writeBerthCmd (s : State) (b v : Nat) : Nat × State :=
  match v with
  | 1 => s.writeCreate b
  | 2 => s.writeResize b
  | 3 => s.askReset b
  | 4 => s.writeDusk b
  | 5 => s.writeShrink b
  | _ => (0x080B, s)

/-! Shared segments (R431-R435). -/

/-- Whether a range of stacked memory can hold a copy of a segment: on one die below its usable limit, free of carve-outs,
and mapped by no translation of the die's owner (R431). -/
def State.segPlace (s : State) (a n : Nat) : Bool :=
  let d := a / 0x1000000000
  let off := a % 0x1000000000
  let apart := fun lo m => decide (m = 0) || decide (a + n ≤ lo) || decide (lo + m ≤ a)
  decide (d < 24) && a % 0x200000 == 0 && decide (off + n ≤ (s.stack d).limit) &&
    (List.range 64).all (fun k => (s.seg k).st == 0 || (apart (s.seg k).primary (s.seg k).bytes &&
      apart (s.seg k).shadow (s.seg k).bytes && (s.seg k).reshadow.elim true fun x => apart x (s.seg k).bytes)) &&
    (match s.berthOfDie d with
      | none => true
      | some b => (d != headDie (s.berth b) || apart (stackBase d) 0x4000000) &&
        apart (stackBase d + (s.snapArea b).1) (s.snapArea b).2 && !((s.berth b).maps.any fun m => s.mapsRange m a n))

/-- `CMD` 1 of a segment: definition (R431). -/
def State.segDefine (s : State) (k : Nat) : Nat × State :=
  let n := s.setting (0x4200 + k) 3 0
  let p := s.setting (0x4200 + k) 4 0
  let w := s.setting (0x4200 + k) 5 0
  if (s.seg k).st ≠ 0 then (0x07C0, s)
  else if n = 0 ∨ 2 ^ 35 < n ∨ n % 0x200000 ≠ 0 ∨ !s.segPlace p n ∨ !s.segPlace w n ∨ p / 0x1000000000 = w / 0x1000000000 then
    (0x07C8, s)
  else (0, s.modSeg k fun _ => { st := 1, bytes := n, primary := p, shadow := w })

/-- `SEG_DEFINE`. -/
def execSegDefine (k : Nat) (s : State) : Result := .next (s.byDict (0x4200 + k) 2 fun t => t.segDefine k)

/-- `CMD` 2: a loaded segment is sealed (R432). -/
def State.segSeal (s : State) (k : Nat) : Nat × State :=
  if (s.seg k).st ≠ 1 then (0x07C0, s) else (0, s.modSeg k fun g => { g with st := 2 })

/-- `SEG_SEAL`. -/
def execSegSeal (k : Nat) (s : State) : Result := .next (s.byDict (0x4200 + k) 2 fun t => t.segSeal k)

/-- Whether a berth has joined a segment. -/
def State.segJoined (s : State) (k : Nat) : Bool :=
  (List.range 24).any fun b => (s.berth b).life != .absent && (s.berth b).segs.getLsbD k

/-- `CMD` 3: a segment that no berth has joined is deleted; its carve-outs return to their dies (R433). -/
def State.segDelete (s : State) (k : Nat) : Nat × State :=
  if (s.seg k).st = 0 then (0x07C0, s)
  else if s.segJoined k then (0x07C9, s)
  else (0, { s with segs := tdel s.segs k })

/-- `SEG_DELETE`. -/
def execSegDelete (k : Nat) (s : State) : Result := .next (s.byDict (0x4200 + k) 2 fun t => t.segDelete k)

/-- The copy of a degraded segment that survives. -/
def SegSt.survivor (g : SegSt) : Nat := if g.primaryLost then g.shadow else g.primary

/-- `CMD` 4: the survivor of a degraded segment is copied to the range in `SHADOW` (R435). -/
def State.segReshadow (s : State) (k : Nat) : Nat × State :=
  let g := s.seg k
  let w := s.setting (0x4200 + k) 5 0
  if g.st ≠ 3 ∨ g.reshadow.isSome then (0x07C0, s)
  else if !s.segPlace w g.bytes ∨ w / 0x1000000000 = g.survivor / 0x1000000000 then (0x07C8, s)
  else (0, s.modSeg k fun x => { x with reshadow := some w })

/-- `SEG_RESHADOW`. -/
def execSegReshadow (k : Nat) (s : State) : Result := .next (s.byDict (0x4200 + k) 2 fun t => t.segReshadow k)

/-- A write to `CMD` of a segment (R441). -/
def State.writeSegCmd (s : State) (k v : Nat) : Nat × State :=
  match v with
  | 1 => s.segDefine k
  | 2 => s.segSeal k
  | 3 => s.segDelete k
  | 4 => s.segReshadow k
  | _ => (0x080B, s)

/-- Copies bytes and marks from one range of whole lines to another. -/
def Store.copy (st : Store) (src dst n : Nat) : Store :=
  let here := fun a => decide (src ≤ a) && decide (a < src + n)
  let c := st.clear dst (dst + n)
  { cells := (st.cells.filter fun p => here p.1).foldl (fun c p => cellPut c (p.1 - src + dst) p.2) c.cells,
    poison := c.poison ++ (st.poison.filter fun p => here (64 * p)).map fun p => (64 * p - src + dst) / 64 }

/-- A line of a segment is lost in both copies: marked in each, counted, told to every joined berth (R434). -/
def State.segLineLost (s : State) (k off reader : Nat) : State :=
  let g := s.seg k
  let a := g.primary + off / 64 * 64
  let w := g.shadow + off / 64 * 64
  let s := { s with mem := (s.mem.mark (a / 64)).mark (w / 64) }
  (s.modSeg k fun x => { x with poisoned := x.poisoned + 1 }).poisonNew reader a

/-- `RESHADOW_DONE`: the copy ends and the segment is sealed again. `bad` are the lines of the survivor that the copy found
uncorrectable, by offset (R435, R440). A segment whose primary copy was lost counts its survivor as primary from then on. -/
def execReshadowDone (k : Nat) (bad : List Nat) (s : State) : Result :=
  .next (
    let g := s.seg k
    match g.reshadow with
    | none => s
    | some w =>
      if g.st ≠ 3 then s
      else
        let s := { s with mem := s.mem.copy g.survivor w g.bytes }
        let s := s.modSeg k fun x => { x with
          st := 2, primary := g.survivor, shadow := w, reshadow := none, primaryLost := false }
        let s := (s.putSetting (0x4200 + k) 4 g.survivor).putSetting (0x4200 + k) 5 w
        forL (bad.filter fun o => decide (o < g.bytes)) s fun o t => t.segLineLost k o 0xFFFF)

/-- A write to `SEGMENTS` of a berth (R433). -/
def State.writeJoin (s : State) (b : Nat) (bits : BitVec 64) : Nat × State :=
  let x := s.berth b
  let mapped := fun k => x.maps.any fun m => s.mapsRange m (s.seg k).primary (s.seg k).bytes || s.mapsRange m (s.seg k).shadow (s.seg k).bytes
  if x.life = .absent ∨ (List.range 64).any fun k => bits.getLsbD k && !x.segs.getLsbD k && !((s.seg k).st == 2 || (s.seg k).st == 3) then
    (0x07C0, s)
  else if (List.range 64).any fun k => x.segs.getLsbD k && !bits.getLsbD k && mapped k then (0x07C9, s)
  else (0, (s.modBerth b fun y => { y with segs := bits }).putSetting 0x400A (b + 1) bits.toNat)

/-- `SEGMENT_JOIN_WRITE`: a berth joins or leaves segments (R433). -/
def execSegmentJoinWrite (b : Nat) (bits : BitVec 64) (s : State) : Result :=
  .next (s.byDict 0x400A (b + 1) fun t => t.writeJoin b bits)

/-- The copies of segments that lie on a die are lost with it (R435). -/
def State.segsLost (s : State) (d : Nat) : State :=
  forN 64 s fun k t =>
    let g := t.seg k
    let p := g.primary / 0x1000000000 == d
    let w := g.shadow / 0x1000000000 == d
    if g.st = 1 ∨ g.st = 2 then
      if p ∨ w then t.modSeg k fun x => { x with st := 3, primaryLost := p } else t
    else if g.st = 3 ∧ g.survivor / 0x1000000000 = d then
      let t := t.modSeg k fun x => { x with st := 4, reshadow := none }
      let lines := (List.range (g.bytes / 64)).flatMap fun i => [g.primary / 64 + i, g.shadow / 64 + i]
      let t := { t with mem := { t.mem with
        cells := cellsClear (cellsClear t.mem.cells g.primary (g.primary + g.bytes)) g.shadow (g.shadow + g.bytes),
        poison := t.mem.poison.filter (fun x => !lines.contains x) ++ lines } }
      forL ((List.range 24).filter fun b => (t.berth b).life != .absent && (t.berth b).segs.getLsbD k) t fun b u =>
        u.berthEvent b 0x07E7 g.primary 0 (poisonRecord u b 2 0xFFFF g.primary)
    else if g.reshadow.elim false (fun a => a / 0x1000000000 == d) then t.modSeg k fun x => { x with reshadow := none }
    else t

end Sys2Proof.Machine
end

