-- ==== Sys2Proof/Machine/Link.lean ====
section
/-!
DEFINITION. Link ports: what arrives and leaves flit by flit, frames that arrive whole, responses, what a destination keeps
of its sources, lanes, and the loss of a port (12 R343-R348, R360, R365-R371, R378-R382).
-/

namespace Sys2Proof.Machine

/-! Control flits (R346). -/

/-- Sends a control flit: its sequence is zero and is not counted. -/
def State.controlFlit (s : State) (p ftype : Nat) (body : Bytes) : State :=
  s.emit { kind := .flit, port := p, args := [ftype, 0], data := flitBytes ftype 0 body }

/-- Whether a flit's CRC holds. -/
def flitOk (f : Bytes) : Bool := f.length == 64 && crc16 (f.take 62) == leAt f 62 2

/-- The type of a flit. -/
def flitType (f : Bytes) : Nat := leAt f 60 2 / 4096

/-- Whether a port carries flits: it has trained. -/
def LinkSt.on (l : LinkSt) : Bool := l.life == .discovery || l.life == .active || l.life == .disabled

/-- The `ACK` of a port: the last data flit received, once there is one. -/
def State.sendAck (s : State) (p : Nat) : State :=
  let n := (s.link p).rxSeq
  if n = 0 then s else s.controlFlit p 8 (leBytes 2 ((n + 4095) % 4096))

/-- The `CREDIT` of a port. -/
def State.sendCredit (s : State) (p : Nat) : State :=
  s.controlFlit p 9 ((List.range 8).flatMap fun i => leBytes 2 (tget (s.link p).freed 0 i))

/-- The `REPLAY` of a port, if one is outstanding. -/
def State.sendReplay (s : State) (p : Nat) : State :=
  match (s.link p).replay with
  | none => s
  | some r => s.controlFlit p 0xA (leBytes 2 ((s.link p).rxSeq % 4096) ++ leBytes 1 r)

/-- A `LANE_CTL` flit: request (1) or agree (2). -/
def State.sendLaneCtl (s : State) (p op : Nat) (c : LaneChange) : State :=
  s.controlFlit p 0xB (leBytes 1 op ++ leBytes 1 c.leaving ++ leBytes 1 c.taking ++ [0] ++ leBytes 2 c.codeword)

/-- A data flit is discarded: `REPLAY` is asked for, unless it already is. -/
def State.askReplay (s : State) (p reason : Nat) : State :=
  if (s.link p).replay.isSome then s else (s.modLink p fun x => { x with replay := some reason }).sendReplay p

/-! Frames that have arrived. -/

/-- The key of a source unit: node and unit (R378). -/
def histKey (h : FrameHdr) : Nat := h.src * 65536 + h.unit

/-- What the module keeps of the source of a frame. -/
def State.histOf (s : State) (h : FrameHdr) : HistSt := tget s.fabric.hist {} (histKey h)

/-- The state with what it keeps of the source of a frame changed. -/
def State.modHist (s : State) (h : FrameHdr) (f : HistSt → HistSt) : State :=
  s.modFabric fun x => { x with hist := tmod x.hist {} (histKey h) f }

/-- A request has been performed: its number, of the last 1,024, and its response are kept (R379). -/
def State.performed (s : State) (h : FrameHdr) (response : Bytes) : State :=
  s.modHist h fun x => { x with
    performed := (h.seq :: x.performed).take 1024, saved := ((h.seq, response) :: x.saved).take 1024 }

/-- The response to a request: the request's numbers come back (R365). -/
def State.responseTo (s : State) (h : FrameHdr) (kind status : Nat) (payload : Bytes) : Bytes :=
  mkFrame { kind := kind, cls := 1, job := h.job, dst := h.src, src := s.nodeId, dstDie := h.srcDie, srcDie := h.dstDie,
            unit := h.unit, seq := h.seq, addr := h.addr, op := h.op, status := status, tag := h.tag } payload

/-- Sends a frame that starts at this module, if a route is open. -/
def State.sendFrame (s : State) (f : Bytes) : State := (s.routeFrame f none).getD s

/-- Whether a job may send here by the gang that a port is in: an active plan holds the job, with a share (R371). -/
def State.jobKnown (s : State) (p job : Nat) : Bool :=
  match s.activePlan job, s.portGang p with
  | some plan, some g => planShare plan g != 0
  | _, _ => false

/-- An exchange packet for this module: delivered to the engine of its die once, and acknowledged (R379, R380). -/
def State.exchangeIn (s : State) (f : Bytes) : State :=
  let h := hdrOf f
  if !frameOk f then s.modFabric fun x => { x with crcDrop := x.crcDrop + 1 }
  else
    let r := s.responseTo h 5 0 []
    if (s.histOf h).performed.contains h.seq then s.sendFrame r
    else ((s.modExch h.dstDie fun x => { x with inbox := x.inbox ++ [payloadOf f] }).performed h r).sendFrame r

/-- A frame has arrived whole at a port: its flits are freed, its bytes counted, and it is dropped, handed to an exchange
engine, or left for the step that handles it. -/
def State.frameIn (s : State) (p : Nat) (f : Bytes) : State :=
  let h := hdrOf f
  let s := s.modLink p fun x => { x with
    freed := tmod x.freed 0 (framePair f) fun n => (n + frameFlits f) % 65536,
    rxBytes := tmod x.rxBytes 0 h.job (· + BitVec.ofNat 64 f.length) }
  if h.kind = 0x10 then s.modFabric fun x => { x with inbox := x.inbox ++ [(p, f)] }
  else if !s.jobKnown p h.job then s.moduleEvent 0x0589 h.job p
  else if h.kind = 8 ∧ h.dst = s.nodeId then s.exchangeIn f
  else s.modFabric fun x => { x with inbox := x.inbox ++ [(p, f)] }

/-- A data flit in sequence: the frame it belongs to grows, and goes on when it is whole. -/
def State.acceptFlit (s : State) (p : Nat) (flit : Bytes) : State :=
  let l := s.link p
  let body := flit.take 60
  let head := flitType flit == 1
  let left := if head then (32 + 16 * leAt body 3 1 + 59) / 60 - 1 else l.rxLeft - 1
  let buf := if head then body else l.rxFrame ++ body
  if !head && l.rxLeft == 0 then s.modLink p fun x => { x with rxSeq := x.rxSeq + 1, replay := none }
  else
    let s := s.modLink p fun x => { x with rxSeq := x.rxSeq + 1, replay := none, rxLeft := left, rxFrame := buf }
    if left = 0 then
      (s.modLink p fun x => { x with rxFrame := [] }).frameIn p (buf.take (32 + 16 * leAt buf 3 1))
    else s

/-- A data flit arrives (R346). -/
def State.flitIn (s : State) (p : Nat) (flit : Bytes) (uncorrectable : Bool) : State :=
  let l := s.link p
  if !l.on then s
  else if uncorrectable then s.askReplay p 2
  else if !flitOk flit then s.askReplay p 1
  else if flitType flit ≠ 1 ∧ flitType flit ≠ 2 then s
  else if leAt flit 60 2 % 4096 ≠ l.rxSeq % 4096 then s.askReplay p 3
  else s.acceptFlit p flit

/-! The loss of a port. -/

/-- A frame that a port held goes to another port of its gang, or again by its route (R382). -/
def State.resendFrame (s : State) (g : Nat) (f : Bytes) : State :=
  let h := hdrOf f
  if h.kind = 0x10 then s
  else
    match s.pickPort g h.job h with
    | some p => s.sendOnPort p f
    | none => s.sendFrame (mkFrame { h with ttl := h.ttl + 1 } (payloadOf f))

/-- What a port that goes down keeps: its lanes and its byte counts. -/
def LinkSt.lost (x : LinkSt) (life : LinkLife) : LinkSt :=
  { x with
    life := life, changes := [], txSeq := 0, unacked := [], rxSeq := 0, replay := none, rxFrame := [], rxLeft := 0,
    freed := [], peerFreed := [], sent := [], waitq := [], disc := {} }

/-- A port leaves service: its gang narrows, or empties and routes are due anew; frames without a link acknowledgement go
by other ports (R360, R382). `quiet` leaves out the event, the port going into instrument use (19 R565). -/
def State.portLost (s : State) (p : Nat) (life : LinkLife) (quiet : Bool := false) : State :=
  let was := (s.link p).life
  let held := (s.link p).unacked.filterMap (·.whole) ++ (s.link p).waitq
  let s := s.modLink p fun x => x.lost life
  if was ≠ .active then s
  else
    let s := if quiet then s else s.moduleEvent 0x0583 p 0
    match s.portGang p with
    | none => s
    | some g =>
      let s := if (s.activePorts g).isEmpty then
          (s.moduleEvent 0x0586 g 0).modFabric fun f => { f with routesDue := true }
        else s
      forL held s fun f t => t.resendFrame g f

/-! Lanes (R347, R348). -/

/-- The event and the entry of a lane that leaves service, and the change that the ends agree on. Lane 8 is S. -/
def State.retireLane (s : State) (p lane cause detail codeword : Nat) : State :=
  let l := s.link p
  let e : DefectEnt := { kind := 4, die := 24 + p / 3, unit := p, sub := lane, cause := cause, st := 2, detail := detail }
  let n := s.defectNo
  let ask := fun (t : State) (c : LaneChange) =>
    if l.on then (t.modLink p fun x => { x with changes := x.changes ++ [c] }).sendLaneCtl p 1 c
    else t.modLink p fun x => { x with
      lanes := if c.taking = 8 then x.lanes else x.lanes.erase c.leaving,
      spare := if c.taking = 8 then some c.leaving else if x.spare = some c.leaving then none else x.spare }
  if l.retired.contains lane then s
  else
    let s := s.modLink p fun x => { x with retired := x.retired ++ [lane] }
    if lane = 8 ∧ l.spare.isNone ∧ !(l.changes.any fun c => c.taking == 8) then s.addDefect e
    else if lane ≠ 8 ∧ !l.retired.contains 8 ∧ l.spare.isNone ∧ !(l.changes.any fun c => c.taking == 8) then
      (((s.addDefect { e with st := 1, spare := 8 }).spareIn n 4 (24 + p / 3) true).moduleEvent 0x0584 p lane) |> fun t =>
        ask t { leaving := lane, taking := 8, codeword := codeword % 65536 }
    else
      let data := if lane = 8 then (l.spare.getD ((l.changes.find? fun c => c.taking == 8).elim 0 fun c => c.leaving)) else lane
      let s := s.addDefect e
      let left := (l.lanes.filter fun x => x != data && !(l.changes.any fun c => c.taking == 0xFF && c.leaving == x)).length
      if left < 4 then s.portLost p .down
      else ask (s.moduleEvent 0x0585 p left) { leaving := data, taking := 0xFF, codeword := codeword % 65536 }

/-- A lane change takes effect (R346). -/
def LinkSt.change (x : LinkSt) (c : LaneChange) : LinkSt :=
  if c.taking = 8 then { x with spare := some c.leaving }
  else { x with lanes := x.lanes.erase c.leaving, spare := if x.spare = some c.leaving then none else x.spare }

/-! Rows. -/

/-- `DATA_FLIT_RECEIVE`: a data flit is accepted in sequence, or discarded with a replay request (R346). -/
def execDataFlitReceive (port : Nat) (flit : Bytes) (uncorrectable : Bool) (s : State) : Result :=
  .next (s.flitIn port flit uncorrectable)

/-- Whether a control flit is taken: the port is on, the CRC holds, the type is the one named. -/
def State.ctlOk (s : State) (p ftype : Nat) (flit : Bytes) : Bool := (s.link p).on && flitOk flit && flitType flit == ftype

/-- `ACK`: frees the replay buffer up to a sequence (R346). -/
def execAckFlit (port : Nat) (flit : Bytes) (s : State) : Result :=
  .next (
    if !s.ctlOk port 8 flit then s
    else
      match (s.link port).unacked.findIdx? fun f => f.seq == leAt flit 0 2 % 4096 with
      | none => s
      | some i => (s.modLink port fun x => { x with unacked := x.unacked.drop (i + 1) }).drainWaiting port (s.link port).waitq.length)

/-- `CREDIT`: the peer's freed flits, modulo 2^16, for the eight pairs (R346, R367). -/
def execCreditFlit (port : Nat) (flit : Bytes) (s : State) : Result :=
  .next (
    if !s.ctlOk port 9 flit then s
    else
      let up := fun (t : Tbl Nat) i =>
        let old := tget t 0 i
        tset t i (old + (leAt flit (2 * i) 2 + 65536 - old % 65536) % 65536)
      (s.modLink port fun x => { x with peerFreed := (List.range 8).foldl up x.peerFreed }).drainWaiting port
        (s.link port).waitq.length)

/-- `REPLAY`: the data flits from a sequence on are sent again in order (R346). -/
def execReplayFlit (port : Nat) (flit : Bytes) (s : State) : Result :=
  .next (
    if !s.ctlOk port 0xA flit then s
    else
      match (s.link port).unacked.findIdx? fun f => f.seq == leAt flit 0 2 % 4096 with
      | none => s
      | some i => forL ((s.link port).unacked.drop i) s fun f t =>
          t.emit { kind := .flit, port := port, args := [f.ftype, f.seq], data := flitBytes f.ftype f.seq f.body })

/-- `LANE_CTL`: a request is agreed and noted; an agreement ends the repeats of the own request (R346). -/
def execLaneCtl (port : Nat) (flit : Bytes) (s : State) : Result :=
  .next (
    let c : LaneChange := { leaving := leAt flit 1 1, taking := leAt flit 2 1, codeword := leAt flit 4 2, agreed := true }
    let same := fun (x : LaneChange) => x.leaving == c.leaving && x.taking == c.taking && x.codeword == c.codeword
    if !s.ctlOk port 0xB flit then s
    else if leAt flit 0 1 = 1 then
      (s.modLink port fun x => { x with changes := if x.changes.any same then x.changes else x.changes ++ [c] }).sendLaneCtl
        port 2 c
    else if leAt flit 0 1 = 2 then
      s.modLink port fun x => { x with changes := x.changes.map fun y => if same y then { y with agreed := true } else y }
    else s)

/-- `LINK_CONTROL_TIMER`: `ACK`, `CREDIT`, an outstanding `REPLAY` and requests not yet agreed are sent again (R346). -/
def execLinkControlTimer (port : Nat) (s : State) : Result :=
  .next (
    if !(s.link port).on then s
    else
      let s := ((s.sendAck port).sendCredit port).sendReplay port
      forL ((s.link port).changes.filter fun c => !c.agreed) s fun c t => t.sendLaneCtl port 1 c)

/-- `LANE_SWITCH`: the codeword boundary is reached that agreed changes name, and both ends change lanes (R346). -/
def execLaneSwitch (port codeword : Nat) (s : State) : Result :=
  .next (
    let due := (s.link port).changes.filter fun c => c.agreed && c.codeword == codeword
    s.modLink port fun x => { due.foldl LinkSt.change x with changes := x.changes.filter fun c => !due.contains c })

/-- `LANE_RETIRE`: a lane loses lock or passes its error bounds and is retired; the end names the codeword of the change,
1,024 to 32,767 ahead (R346-R348). -/
def execLaneRetire (port lane codeword : Nat) (s : State) : Result :=
  .next (if port < 24 ∧ lane ≤ 8 then s.retireLane port lane 2 0 codeword else s)

end Sys2Proof.Machine
end

