-- ==== Sys2Proof/Machine/Fence.lean ====
section
/-!
DEFINITION. Fencing: compute dies, fabric dies and lockkeepers that the module no longer trusts (17 R528, 14 R440), and
defects that waited for a lockkeeper (17 R541).
-/

namespace Sys2Proof.Machine

/-- The berth of a fenced die stops and is faulted; one in dusk goes on with its dusk. With the head die its tables are
lost (14 R440, 15 R480). -/
def State.faultBerth (s : State) (b d : Nat) : State :=
  let head := headDie (s.berth b) == d
  let s := (s.stopBerth b).resetBoxes b
  let s := forL (s.berth b).dies s fun e t => forN 16 t fun c u => u.modCore (16 * e + c) fun x => { x with lm := {} }
  let s := if head then
      { s.modBerth b fun x => { x with queues := [], objs := [], evts := [], maps := [] } with
        ctxs := s.ctxs.filter fun p => p.2.berth != b }
    else s
  (s.modBerth b fun x => { x with life := if x.life = .dusk then .dusk else .faulted, wantReset := false }).berthEvent b
    0x07E1 d 0

/-- The engines with a round in flight in which a die of this module takes part report its loss (11 R341, R342). -/
def State.memberLost (s : State) (d : Nat) : State :=
  forN 24 s fun e t =>
    match t.berthOfDie e with
    | none => t
    | some b => forL (t.exch e).rounds t fun r u =>
      match u.exchCtx b e r.1 with
      | .ok c => if e ≠ d ∧ r.2.inFlight = true ∧ c.members.contains (u.memberNode + d * 4096) = true then
          u.exchEvent b e r.1 r.2.round 0x05D4 else u
      | .error _ => u

/-- A compute die is fenced: it is taken out of every access table, its berth stops, segment copies on it are lost. -/
def State.fenceDie (s : State) (d : Nat) : State :=
  if s.defects.fenced.contains d then s
  else
    let owner := s.berthOfDie d
    let s := ({ s with defects := { s.defects with fenced := s.defects.fenced ++ [d] } }).moduleEvent 0x0984 d 9
    let s := s.memberLost d
    let s := match owner with
      | some b => s.faultBerth b d
      | none => s
    (s.segsLost d).nextMode (owner.getD 24)

/-- The ports of fabric die `k` (01 R28). -/
def fdLinks (k : Nat) : List Nat := [3 * k, 3 * k + 1, 3 * k + 2]

/-- The basin ports of a fabric die. -/
def fdBasins (k : Nat) : List Nat := if k = 2 then [0, 1] else if k = 6 then [2, 3] else []

/-- The attachments of compute dies at a fabric die: die, and 0 for A, 1 for B (01 R28). -/
def fdAttach (k : Nat) : List (Nat × Nat) :=
  ((List.range 24).filter fun d => d % 8 == k).map (fun d => (d, 0)) ++
    ((List.range 24).filter fun d => d % 8 == 7 - k).map fun d => (d, 1)

/-- A fabric die leaves service with its link, host and basin ports; compute dies go by their other attachment
(01 R20, 17 R528). -/
def State.fdDown (s : State) (k : Nat) : State :=
  let s := forL (fdLinks k) s fun p t => t.portLost p .down
  let s := if k = 0 ∨ k = 4 then s.modPort (k / 4) fun x => { x with up := false } else s
  let s := forL (fdBasins k) s fun p t => { t with basins := tset t.basins p { t.basin p with up := false } }
  s.modFabric fun f => { f with fds := tmod f.fds {} k fun x => { x with up := false } }

/-- A fabric die is fenced (R528). -/
def State.fenceFd (s : State) (k : Nat) : State :=
  if s.defects.fencedFds.contains k then s
  else
    let s := { s with defects := { s.defects with fencedFds := s.defects.fencedFds ++ [k] } }
    let s := s.fdDown k
    (forL (fdAttach k) s fun a t =>
      { t with defects := { t.defects with attach := tset t.defects.attach a.1 (t.attachments a.1 &&& (3 - 2 ^ a.2)) } }).moduleEvent
      0x098E (24 + k) 0

/-- A lockkeeper is fenced: its access-table entries are cleared, and it is no longer active or standby. -/
def State.fenceLk (s : State) (die : Nat) : State :=
  if s.lk.fenced.contains die then s
  else
    let s := { s with lk := { s.lk with fenced := s.lk.fenced ++ [die], standby := 0 } }
    (s.moduleEvent 0x0984 die 0xB).moduleEvent 0x0988 die 0

/-- What an entry of the list brings with it beside the list: fences (R528). -/
def State.applyFence (s : State) (e : DefectEnt) : State :=
  if e.st ≠ 2 then s
  else if e.kind = 9 then s.fenceDie e.die
  else if e.kind = 0xC then s.fenceFd (e.die - 24)
  else if e.kind = 0xB then s.fenceLk e.die
  else s

/-- A unit is declared failed and fenced: the entry first, then the fence (R522, R528). -/
def State.fence (s : State) (e : DefectEnt) : State :=
  let up := s.lk.active.isSome
  let s := s.addDefect e
  if up then s.applyFence e else s

/-- A lockkeeper has returned: what waited is entered and carried out (R541). -/
def State.lkReturned (s : State) : State :=
  let w := s.defects.waiting
  forL w { s with defects := { s.defects with waiting := [] } } fun e t => t.fence e

/-- `DIE_FENCE`: a compute die, a fabric die or a lockkeeper is fenced with a cause and the code that led to it. -/
def execDieFence (kind die cause detail : Nat) (s : State) : Result :=
  .next (
    if (kind = 9 ∧ die < 24 ∧ !s.defects.fenced.contains die) ∨
        (kind = 0xC ∧ 24 ≤ die ∧ die < 32 ∧ !s.defects.fencedFds.contains (die - 24)) ∨
        (kind = 0xB ∧ (die = 27 ∨ die = 31) ∧ s.lk.active ≠ some die ∧ !s.lk.fenced.contains die) then
      s.fence { kind := kind, die := die, cause := cause, st := 2, detail := detail }
    else s)

end Sys2Proof.Machine
end

