-- ==== Sys2Proof/Machine/Lockage.lean ====
section
/-!
DEFINITION. Lockages, snapshots, drains, fills and restores (18 R542-R560).
-/

namespace Sys2Proof.Machine

/-! The snapshot area (R542, R543). -/

/-- A setting of a berth's snapshots. -/
def State.snapSet (s : State) (b sub : Nat) : Nat := s.setting (0x4300 + b) sub 0

/-- The snapshots of a berth. -/
def State.snap (s : State) (b : Nat) : SnapSt := tget s.snaps {} b

/-- A slot of a berth. -/
def State.slot (s : State) (b k : Nat) : SlotSt := tget (s.snap b).slots {} k

/-- The state with the snapshots of a berth changed. -/
def State.modSnap (s : State) (b : Nat) (f : SnapSt → SnapSt) : State := { s with snaps := tset s.snaps b (f (s.snap b)) }

/-- Where slot `k` starts on die `d`. -/
def State.slotBase (s : State) (b k d : Nat) : Nat := stackBase d + s.snapSet b 3 + k * s.snapSet b 4

/-- The bytes of a die's slot header. -/
def slotHeader : Nat := 0x100000

/-- Whether two ranges share an address. -/
def overlaps (a n lo m : Nat) : Bool := decide (a < lo + m) && decide (lo < a + n)

/-- Whether a copy of a segment reaches into a range. -/
def State.segHits (s : State) (a n : Nat) : Bool :=
  (List.range 64).any fun k =>
    let g := s.seg k
    decide (g.st ≠ 0) && (overlaps a n g.primary g.bytes || overlaps a n g.shadow g.bytes ||
      g.reshadow.elim false fun r => overlaps a n r g.bytes)

/-- Whether a carve-out reaches into a range of stacked memory of a berth. -/
def State.carveHits (s : State) (b a n : Nat) : Bool :=
  s.segHits a n || overlaps a n (stackBase (headDie (s.berth b))) 0x4000000 ||
    (s.berth b).dies.any fun d => overlaps a n (stackBase d + (s.snapArea b).1) (s.snapArea b).2

/-- The code that refuses a write of `v` to `AREA_OFF`, `AREA_BYTES` or `SLOTS` (subindices 3 to 5), 0 if none (R542, R558). -/
def State.areaCode (s : State) (b sub v : Nat) : Nat :=
  let x := s.berth b
  let gib := 0x40000000
  let form := match sub with
    | 3 => v % gib == 0 && decide (gib ≤ v)
    | 4 => v % gib == 0 && decide (gib ≤ v) && decide (v ≤ 33 * gib)
    | _ => decide (v ≤ 4)
  let t := s.putSetting (0x4300 + b) sub v
  let off := (t.snapArea b).1
  let n := (t.snapArea b).2
  let bad := fun d =>
    decide ((s.stack d).limit < off + n) || s.segHits (stackBase d + off) n ||
      (d == headDie x && overlaps off n 0 0x4000000) || x.maps.any fun m => s.mapsRange m (stackBase d + off) n
  if !form || (s.snap b).phase != 0 || ((s.snap b).slots.any fun p => p.2.draining || p.2.st == 6) ||
      (n != 0 && x.dies.any bad) then 0x0A00
  else 0

/-- A write to `AREA_OFF`, `AREA_BYTES` or `SLOTS`: accepted, it empties every slot. -/
def State.writeArea (s : State) (b sub v : Nat) : Nat × State :=
  let code := s.areaCode b sub v
  (code, if code ≠ 0 then s else (s.putSetting (0x4300 + b) sub v).emptySlots b)

/-- `SNAPSHOT_AREA_WRITE` (R542). -/
def execSnapshotAreaWrite (b sub v : Nat) (s : State) : Result :=
  .next (if 3 ≤ sub ∧ sub ≤ 5 ∧ (s.berth b).life ≠ .absent then s.byDict (0x4300 + b) sub fun t => t.writeArea b sub v else s)

/-! The persistent set (R544, R545). -/

/-- The longest piece that its `LEN` can hold, in whole lines. -/
def pieceMax : Nat := 0xFFFFFFC0

/-- The runs of a virtual range of a berth: physical address and length. `none` if part of it is not stack or DSM of the
berth's dies, readable and writable. `fuel` bounds the runs. -/
def State.runs (s : State) (b va n : Nat) : Nat → Option (List (Nat × Nat))
  | 0 => if n = 0 then some [] else none
  | fuel + 1 =>
    if n = 0 then some []
    else
      match findMap (s.berth b).maps va with
      | none => none
      | some m =>
        let gpa := m.pa + (va - m.va)
        let pa := gpa % 2 ^ 48
        let room := match regionOf pa with
          | .stack d off => if (s.berth b).dies.contains d then (s.stack d).limit - off else 0
          | .dsm d off => if (s.berth b).dies.contains d then 0x06000000 - off else 0
          | _ => 0
        let k := min (min n (m.va + m.pages * 2 ^ m.shift - va)) (min room pieceMax)
        if !(m.read && m.write) || gpa / 2 ^ 48 % 16 != 0 || !(gpa / 2 ^ 52 == 0 || gpa / 2 ^ 52 == s.nodeId) || k = 0 ||
            s.carveHits b pa k then none
        else (s.runs b (va + k) (n - k) fuel).map fun r => (pa, k) :: r

/-- The runs of a range, with as many as a berth's mappings can give. -/
def State.rangeRuns (s : State) (b va n : Nat) : Option (List (Nat × Nat)) :=
  s.runs b va n (26 * ((s.berth b).maps.length + 1) + n / pieceMax + 1)

/-- An entry of the persistent-set list or the zero list. -/
structure SetEnt where
  va : Nat
  bytes : Nat
  flags : Nat
deriving DecidableEq, Repr

/-- Whether an entry keeps R544. -/
def SetEnt.formOk (e : SetEnt) : Bool :=
  decide (e.va < 2 ^ 57) && e.va % 64 == 0 && e.bytes % 64 == 0 && decide (64 ≤ e.bytes) && decide (e.bytes ≤ 2 ^ 32) &&
    decide (e.flags < 2)

/-- The entries of a list, and the codes that refuse it. -/
def State.setList (s : State) (b va count : Nat) : List SetEnt × List Nat :=
  if va = 0 ∨ count = 0 then ([], [])
  else
    match s.readVirt b va (16 * count) with
    | none => ([], [0x0A04])
    | some l =>
      let es := (List.range count).map fun i =>
        { va := leAt l (16 * i) 8, bytes := leAt l (16 * i + 8) 4, flags := leAt l (16 * i + 12) 4 : SetEnt }
      (es, if es.all SetEnt.formOk then [] else [0x0A03])

/-- The ranges of a berth's persistent set: list index or item number, offset, address, length. -/
def State.setRanges (s : State) (b : Nat) : List (Nat × Nat × Nat × Nat) :=
  let k := (s.berth b).keeper
  let soft := (s.setList b (s.snapSet b 1) (s.snapSet b 2)).1.zipIdx.map fun p => (p.2, 0, p.1.va, p.1.bytes)
  let tt := s.setting 0x8011 (b + 1) 0
  let bkts := (List.range (s.exchSet b 0xB001)).filterMap fun i =>
    match s.bktBytes b i with
    | none => some (0xFFF3, 128 * i, 2 ^ 57, 128)
    | some w =>
      if (bktOf w).en ∨ (s.rangeRuns b (bktOf w).dig 128).isSome then some (0xFFF3, 128 * i, (bktOf w).dig, 128) else none
  soft ++ (if k.tblE = 0 then [] else [(0xFFF0, 0, k.tblBase, 64 * k.tblE)]) ++
    (if k.sentBase = 0 then [] else [(0xFFF1, 0, k.sentBase, 2048)]) ++
    (if tt = 0 then [] else [(0xFFF2, 0, s.setting 0x8010 (b + 1) 0, 32 * tt)]) ++ bkts

/-- The pieces of a range. -/
def runPieces (range : Nat) : Nat → List (Nat × Nat) → List PieceSt
  | _, [] => []
  | off, (pa, n) :: r => { range := range, offset := off, len := n, pa := pa } :: runPieces range (off + n) r

/-- Adjacent pieces of one range joined (R543). -/
def joinPieces : List PieceSt → List PieceSt
  | [] => []
  | p :: r =>
    match joinPieces r with
    | q :: t =>
      if p.range = q.range ∧ p.offset + p.len = q.offset ∧ p.pa + p.len = q.pa ∧ p.len + q.len ≤ pieceMax then
        { p with len := p.len + q.len } :: t
      else p :: q :: t
    | [] => [p]

/-- The pieces of a berth's persistent set on die `d`, in table order. -/
def State.diePieces (s : State) (b d : Nat) : List PieceSt :=
  joinPieces (((s.setRanges b).flatMap fun r => runPieces r.1 r.2.1 ((s.rangeRuns b r.2.2.1 r.2.2.2).getD [])).filter fun p =>
    homeDie p.pa == some d)

/-- The codes that refuse the persistent set of a berth, and its zero list (R544). -/
def State.setCodes (s : State) (b : Nat) : List Nat :=
  let zero := s.setList b (s.snapSet b 9) (s.snapSet b 0xA)
  (s.setList b (s.snapSet b 1) (s.snapSet b 2)).2 ++ zero.2 ++
    (if ((s.setRanges b).all fun r => (s.rangeRuns b r.2.2.1 r.2.2.2).isSome) &&
        zero.1.all fun e => (s.rangeRuns b e.va e.bytes).isSome then [] else [0x0A04]) ++
    if (s.berth b).dies.any fun d => decide (65503 < (s.diePieces b d).length) then [0x0A03] else []

/-- The persistent bytes of a list of pieces. -/
def piecesLen (l : List PieceSt) : Nat := (l.map PieceSt.len).foldl (· + ·) 0

/-- Running digest `k` of a berth, over its dies (11 R338). -/
def State.runSum (s : State) (b k : Nat) : BitVec 128 :=
  ((s.berth b).dies.map fun d => tget (s.exch d).run 0 k).foldl (· + ·) 0

/-- The state values block (R545). -/
def State.stateValues (s : State) (b : Nat) : Bytes :=
  let x := s.berth b
  leBytes 8 x.tally.toNat ++ leBytes 8 x.stepSeq.toNat ++ leBytes 16 x.ingest ++
    ((List.range 4).flatMap fun k => leBytes 16 (s.runSum b k).toNat) ++
    ((List.range 16).flatMap fun w => leBytes 8 (s.skipWin b (w + 1)).1 ++ leBytes 8 (s.skipWin b (w + 1)).2) ++
    leBytes 8 (s.setting 0x8010 (b + 1) 0) ++ leBytes 2 (s.setting 0x8011 (b + 1) 0) ++
    leBytes 8 x.keeper.tblBase ++ leBytes 4 x.keeper.tblE ++ leBytes 8 x.keeper.sentBase ++ zeros 2

/-! Slot records and headers (R543, R549). -/

/-- The bytes of a slot record. -/
def slotBytes (x : SlotSt) : Bytes :=
  leBytes 1 x.st ++ leBytes 1 (flag x.drained + 2 * flag x.inflight + 4 * flag x.draining) ++ zeros 2 ++ leBytes 4 x.stopUs ++
    leBytes 8 x.tally ++ leBytes 8 x.stepSeq ++ leBytes 8 x.dMax ++ leBytes 8 x.dTotal ++ leBytes 8 x.listHash ++
    leBytes 16 x.tensor ++ leBytes 16 x.state ++ leBytes 16 x.ingest ++ leBytes 16 x.xch ++ leBytes 2 x.fw ++ zeros 14

/-- The slot record that 128 bytes give. -/
def slotOf (l : Bytes) : SlotSt :=
  { st := leAt l 0 1, drained := bitOf (leAt l 1 1) 0, inflight := bitOf (leAt l 1 1) 1, draining := bitOf (leAt l 1 1) 2,
    stopUs := leAt l 4 4, tally := leAt l 8 8, stepSeq := leAt l 16 8, dMax := leAt l 24 8, dTotal := leAt l 32 8,
    listHash := leAt l 40 8, tensor := leAt l 48 16, state := leAt l 64 16, ingest := leAt l 80 16, xch := leAt l 96 16,
    fw := leAt l 112 2 }

/-- The record that an entry X:10 to X:13 reports. -/
def State.slotRecord (s : State) (b k : Nat) : Bytes := if (s.slot b k).st = 0 then zeros 128 else slotBytes (s.slot b k)

/-- Writes bytes over whatever lines hold them. -/
def Store.put (st : Store) (a : Nat) (bs : Bytes) : Store := { st with cells := cellsPut st.cells a bs }

/-- A slot changed, with its record in every die's header. -/
def State.putSlot (s : State) (b k : Nat) (x : SlotSt) : State :=
  let s := s.modSnap b fun y => { y with slots := tset y.slots k x }
  forL (s.berth b).dies s fun d t => { t with mem := t.mem.put (t.slotBase b k d) (slotBytes x) }

/-- A piece table (R543). -/
def pieceTable (l : List PieceSt) : Bytes :=
  l.flatMap fun p => leBytes 2 p.range ++ zeros 2 ++ leBytes 4 p.offset ++ leBytes 4 p.len ++ zeros 4

/-- The pieces that a die's slot header lists, each with where its bytes lie in the slot. -/
def State.slotPieces (s : State) (b k d : Nat) : List PieceSt :=
  let base := s.slotBase b k d
  let n := s.mem.num (base + 512) 4
  let es := (List.range (min n 65503)).map fun i =>
    (s.mem.num (base + 528 + 16 * i) 2, s.mem.num (base + 532 + 16 * i) 4, s.mem.num (base + 536 + 16 * i) 4)
  (es.foldl (fun (a : List PieceSt × Nat) e =>
    (a.1 ++ [{ range := e.1, offset := e.2.1, len := e.2.2, pa := a.2 }], a.2 + e.2.2)) ([], base + slotHeader)).1

/-- Copies bytes line by line, a poison mark travelling with its line; whole lines go at once. -/
def Store.copyRun (st : Store) (src dst n : Nat) : Store :=
  if src % 64 = 0 ∧ dst % 64 = 0 ∧ n % 64 = 0 then st.copy src dst n
  else
    forL (lineCuts src n) st fun p t =>
      t.write (dst + p.1) (st.read (src + p.1) p.2) (st.marked (src + p.1))

/-- A die's header and pieces written into a slot (R546, steps 3 and 4). -/
def State.copyDie (s : State) (b k d : Nat) (x : SlotSt) (values : Bytes) (l : List PieceSt) : State :=
  let base := s.slotBase b k d
  let header := slotBytes x ++ (if d = headDie (s.berth b) then values else zeros 384) ++ leBytes 4 l.length ++ zeros 12 ++
    pieceTable l
  let s := { s with mem := (s.mem.clear base (base + slotHeader)).put base header }
  (l.foldl (fun (a : State × Nat) p =>
    ({ a.1.poisonReads (some b) (0x400 + d) p.pa p.len with mem := a.1.mem.copyRun p.pa a.2 p.len }, a.2 + p.len))
    (s, base + slotHeader)).1

/-! Taking a lockage (R546, R547). -/

/-- Whether a command of a berth has started and not retired. -/
def State.cmdRuns (s : State) (b : Nat) : Bool := ((s.berth b).queues.any fun p => p.2.run.isSome) || (s.berth b).take.isSome

/-- The codes that refuse a lockage into slot `k` (R546, step 2, R559). -/
def State.lockageCodes (s : State) (b k : Nat) : List Nat :=
  let lens := (s.berth b).dies.map fun d => piecesLen (s.diePieces b d)
  s.setCodes b ++
    (if lens.any fun n => decide (2 ^ 35 < n) || decide (s.snapSet b 4 < n + slotHeader) then [0x0A05] else []) ++
    (if (s.slot b k).draining ∨ (s.slot b k).st = 6 then [0x0A06] else []) ++
    if s.snapSet b 5 ≤ k then [0x0A07] else []

/-- A lockage ends: the sequencer fetches, and what waited for it goes on. -/
def State.endLockage (s : State) (b : Nat) : State :=
  ((s.modSnap b fun y => { y with phase := 0, lockage := none, copied := false }).modBerth b fun y =>
    { y with boundary := false })

/-- The slot record of a lockage at its capture. -/
def State.captured (s : State) (b : Nat) : SlotSt :=
  let x := s.berth b
  let tabs := x.dies.map fun d => s.diePieces b d
  let lens := tabs.map piecesLen
  { st := 1, inflight := s.exchBusy b, tally := x.tally.toNat, stepSeq := x.stepSeq.toNat, dMax := lens.foldl max 0,
    dTotal := lens.foldl (· + ·) 0, listHash := leAt (sha384 (tabs.flatMap pieceTable)) 0 8, ingest := x.ingest,
    xch := ((List.range 4).map (s.runSum b)).foldl (fun a v => (a + v.toNat) % 2 ^ 128) 0, fw := s.fwOf b,
    compare := ((s.setList b (s.snapSet b 1) (s.snapSet b 2)).1.zipIdx.filter fun p => p.1.flags == 1).map Prod.snd }

/-- `LOCKAGE_COPY`: every started command has retired; the lockage is refused, or captures and copies (R546). -/
def execLockageCopy (b : Nat) (s : State) : Result :=
  .next (
    let y := s.snap b
    match y.lockage with
    | none => s
    | some k =>
      if y.phase ≠ 1 ∨ y.copied ∨ s.cmdRuns b then s
      else
        match (s.lockageCodes b k).min? with
        | some code => ((s.endLockage b).berthEvent b 0x0A41 k code).nextMode b
        | none =>
          let x := s.captured b
          let values := s.stateValues b
          let tabs := (s.berth b).dies.map fun d => (d, s.diePieces b d)
          let s := (s.modSnap b fun z => { z with copied := true }).putSlot b k x
          forL tabs s fun p t => t.copyDie b k p.1 x values p.2)

/-- `LOCKAGE_RELEASE`: every die's copy has ended; the stop took `stopUs` (R546, step 5). -/
def execLockageRelease (b stopUs : Nat) (s : State) : Result :=
  .next (
    let y := s.snap b
    match y.lockage with
    | none => s
    | some k =>
      if y.phase ≠ 1 ∨ !y.copied then s
      else
        let s := s.putSlot b k { s.slot b k with stopUs := stopUs % 2 ^ 32 }
        ((s.endLockage b).berthEvent b 0x0A40 k (stopUs % 2 ^ 32)).nextMode b)

/-! Digests and replicas (R548-R550). -/

/-- The digest of a range: the sum of its chunks' hashes (R548). -/
def rangeDigest (ix : Nat) (l : Bytes) : Nat :=
  ((List.range ((l.length + 65535) / 65536)).map fun i =>
    leAt (sha384 (leBytes 2 ix ++ leBytes 4 (65536 * i) ++ (l.drop (65536 * i)).take 65536)) 0 16).foldl
      (fun a h => (a + h) % 2 ^ 128) 0

/-- The bytes that a slot holds of a range. -/
def State.slotRange (s : State) (b k range : Nat) : Bytes :=
  let ps := ((s.berth b).dies.flatMap fun d => s.slotPieces b k d).filter fun p => p.range == range
  (ps.mergeSort fun p q => decide (p.offset ≤ q.offset)).flatMap fun p => s.memRead p.pa p.len

/-- The tensor digest of a slot over the listed ranges. -/
def State.tensorDigest (s : State) (b k : Nat) (ranges : List Nat) : Nat :=
  (ranges.map fun r => rangeDigest r (s.slotRange b k r)).foldl (fun a h => (a + h) % 2 ^ 128) 0

/-- The state digest of a slot: each module item and the state values block as a range of index 0xFFFF (R548). -/
def State.stateDigest (s : State) (b k : Nat) : Nat :=
  ((s.memRead (s.slotBase b k (headDie (s.berth b)) + 128) 384 ::
      [0xFFF0, 0xFFF1, 0xFFF2, 0xFFF3].map (s.slotRange b k)).map (rangeDigest 0xFFFF)).foldl
    (fun a h => (a + h) % 2 ^ 128) 0

/-- Compares a slot's digest with the replica's that waits, if a lockkeeper runs (R550, R560). -/
def State.compareSlot (s : State) (b k : Nat) : State :=
  let x := s.slot b k
  match x.replica with
  | some (_, d) =>
    if 2 ≤ x.st ∧ x.st ≤ 4 ∧ s.lk.active.isSome then
      let good := decide (d = x.tensor)
      (s.putSlot b k { x with st := if good then 3 else 4, replica := none }).berthEvent b (if good then 0x0A42 else 0x0A43) k 0
    else s
  | none => s

/-- A write of 24 bytes to X:18 + `k` (R550). -/
def State.writeReplica (s : State) (b k step digest : Nat) : Nat × State :=
  let x := s.slot b k
  if s.snapSet b 5 ≤ k ∨ x.st = 0 ∨ 5 ≤ x.st ∨ x.stepSeq ≠ step then (0x0A02, s)
  else (0, (s.modSnap b fun y => { y with slots := tset y.slots k { x with replica := some (step, digest) } }).compareSlot b k)

/-- `REPLICA_DIGEST_WRITE`. -/
def execReplicaDigestWrite (b slot step : Nat) (digest : BitVec 128) (s : State) : Result :=
  .next (if slot < 4 ∧ (s.berth b).life ≠ .absent then
    s.byDict (0x4300 + b) (0x18 + slot) fun t => t.writeReplica b slot (step % 2 ^ 64) digest.toNat else s)

/-! Drains (R551, R552). -/

/-- Basin ports that carry a berth's drains: address set, port up. -/
def State.drainPorts (s : State) : List Nat :=
  (List.range 4).filter fun p => (s.basin p).up && (s.blob 0xC001 (p + 1) 16).any fun x => x != 0

/-- The total of a die's run. -/
def State.runTotal (s : State) (b k d : Nat) : Nat := slotHeader + piecesLen (s.slotPieces b k d)

/-- A drain frame (R551). -/
def drainFrame (kind key b k pos step off total : Nat) (payload : Bytes) : Bytes :=
  let h1 := [0x50, 0x56, 0x53, 0x44, 1] ++ beBytes 1 kind ++ beBytes 2 payload.length ++ beBytes 4 key ++ beBytes 1 b ++
    beBytes 1 k ++ beBytes 1 pos ++ [0] ++ beBytes 8 step ++ beBytes 8 off ++ beBytes 8 total
  h1 ++ beBytes 4 (crc32c (h1 ++ zeros 8 ++ payload)) ++ zeros 4 ++ payload

/-- Sends a drain frame by the port that its offset falls to. -/
def State.sendDrain (s : State) (b k pos kind off total : Nat) (payload : Bytes) : State :=
  let ports := s.drainPorts
  match ports[off / 8192 % ports.length]? with
  | none => s
  | some p => s.emit {
      kind := .stream, port := p, args := [0x100 + kind, b, k, pos],
      data := drainFrame kind (s.snapSet b 0xD) b k pos (s.slot b k).stepSeq off total payload }

/-- Sends the bytes of a die's run from `lo` to below `hi`, in frames of 8,192 bytes. -/
def State.sendRun (s : State) (b k pos lo hi : Nat) : State :=
  let d := (s.berth b).dies.getD pos 0
  let total := s.runTotal b k d
  forN ((hi - lo + 8191) / 8192) s fun i t =>
    let off := lo + 8192 * i
    t.sendDrain b k pos 1 off total (t.memRead (t.slotBase b k d + off) (min 8192 (hi - off)))

/-- How far a die's run may be sent: 8 MiB beyond the last acknowledged offset (R552). -/
def State.runReach (s : State) (b k pos : Nat) : Nat :=
  min (s.runTotal b k ((s.berth b).dies.getD pos 0)) (tget (s.slot b k).acked 0 pos + 0x800000)

/-- A slot starts to drain (R551). -/
def State.startDrain (s : State) (b k : Nat) : State :=
  let s := s.putSlot b k { s.slot b k with draining := true, acked := [] }
  forN (s.berth b).dies.length s fun pos t => t.sendRun b k pos 0 (t.runReach b k pos)

/-- `SNAPSHOT_DIGEST_DONE`: a slot's digests are complete (R548, R549): it is compared, and drained where that is asked for. -/
def execSnapshotDigestDone (b slot : Nat) (s : State) : Result :=
  .next (
    let x := s.slot b slot
    if x.st ≠ 1 ∨ ((s.snap b).phase = 1 ∧ (s.snap b).lockage = some slot) then s
    else
      let x := { x with tensor := s.tensorDigest b slot x.compare, state := s.stateDigest b slot }
      if x.inflight then (s.putSlot b slot { x with st := 5 }).berthEvent b 0x0A44 slot 0
      else
        let s := (s.putSlot b slot { x with st := 2 }).compareSlot b slot
        if s.snapSet b 0xE = 1 then s.startDrain b slot else s)

/-- A write of 3 to X:06. -/
def State.snapDrain (s : State) (b : Nat) : Nat × State :=
  let k := s.snapSet b 7
  let x := s.slot b k
  if s.snapSet b 5 ≤ k ∨ x.st < 2 ∨ 4 < x.st then (0x0A02, s)
  else if x.draining then (0x0A01, s)
  else (0, s.startDrain b k)

/-- `SNAPSHOT_DRAIN`. -/
def execSnapshotDrain (b : Nat) (s : State) : Result := .next (s.byDict (0x4300 + b) 6 fun t => t.snapDrain b)

/-- A write of 4 to X:06. -/
def State.snapAbort (s : State) (b : Nat) : Nat × State :=
  let k := s.snapSet b 7
  if s.snapSet b 5 ≤ k then (0x0A02, s)
  else if !(s.slot b k).draining then (0x0A01, s)
  else (0, s.putSlot b k { s.slot b k with draining := false, acked := [] })

/-- `DRAIN_ABORT`. -/
def execDrainAbort (b : Nat) (s : State) : Result := .next (s.byDict (0x4300 + b) 6 fun t => t.snapAbort b)

/-- Whether a UDP payload is a drain frame of a kind for the slot that it names (R551-R553): form, key and checksum. -/
def State.drainOk (s : State) (port kind : Nat) (f : Bytes) : Bool :=
  let b := beAt f 12 1
  (s.basin port).up && decide (b < 24) && decide ((s.berth b).life ≠ .absent) && f.take 4 == [0x50, 0x56, 0x53, 0x44] &&
    beAt f 4 1 == 1 && beAt f 5 1 == kind && f.length == 48 + beAt f 6 2 && beAt f 8 4 == s.snapSet b 0xD &&
    decide (beAt f 13 1 < 4) && decide (beAt f 14 1 < (s.berth b).dies.length) && beAt f 15 1 == 0 && beAt f 44 4 == 0 &&
    crc32c (f.take 40 ++ zeros 4 ++ f.drop 44) == beAt f 40 4

/-- `DRAIN_ACKNOWLEDGE`: an acknowledge advances a die's offset, and the drain ends with the last (R552). -/
def execDrainAcknowledge (port : Nat) (frame : Bytes) (s : State) : Result :=
  .next (
    let b := beAt frame 12 1
    let k := beAt frame 13 1
    let pos := beAt frame 14 1
    let off := beAt frame 24 8
    let x := s.slot b k
    if !s.drainOk port 2 frame || frame.length != 48 || !x.draining || beAt frame 16 8 != x.stepSeq ||
        decide (off ≤ tget x.acked 0 pos) || decide (s.runReach b k pos < off) then s
    else
      let lo := s.runReach b k pos
      let s := s.modSnap b fun y => { y with slots := tset y.slots k { x with acked := tset x.acked pos off } }
      if (List.range (s.berth b).dies.length).all fun i =>
          tget (s.slot b k).acked 0 i == s.runTotal b k ((s.berth b).dies.getD i 0) then
        (s.putSlot b k { s.slot b k with drained := true, draining := false, acked := [] }).berthEvent b 0x0A45 k 0
      else s.sendRun b k pos lo (s.runReach b k pos))

/-- `DRAIN_RESEND_TIMER`: no acknowledge has advanced a die's offset for 1 ms; it resends from there (R552). -/
def execDrainResendTimer (b slot pos : Nat) (s : State) : Result :=
  .next (if (s.slot b slot).draining ∧ pos < (s.berth b).dies.length then
    s.sendRun b slot pos (tget (s.slot b slot).acked 0 pos) (s.runReach b slot pos) else s)

/-- `DRAIN_STALLED`: a drain has made no progress for 1 s (R552). -/
def execDrainStalled (b slot : Nat) (s : State) : Result :=
  .next (if (s.slot b slot).draining then s.berthEvent b 0x0A46 slot 0 else s)

/-! Fills (R553). -/

/-- A write of 5 to X:06. -/
def State.snapFill (s : State) (b : Nat) : Nat × State :=
  let k := s.snapSet b 7
  let x := s.slot b k
  let y := s.snap b
  if s.snapSet b 5 ≤ k then (0x0A02, s)
  else if (s.berth b).life ≠ .active ∨ x.draining ∨ x.st = 6 ∨ (y.phase = 1 ∧ y.lockage = some k) ∨
      (y.phase = 2 ∧ y.restoring = some k) then (0x0A01, s)
  else (0, s.modSnap b fun z => { z with slots := tset z.slots k { st := 6 } })

/-- `SNAPSHOT_FILL`. -/
def execSnapshotFill (b : Nat) (s : State) : Result := .next (s.byDict (0x4300 + b) 6 fun t => t.snapFill b)

/-- Every run of a fill is complete: both digests are computed anew and held against the run's own record (R553). -/
def State.endFill (s : State) (b k : Nat) : State :=
  let x := slotOf (s.memRead (s.slotBase b k (headDie (s.berth b))) 128)
  let cmp := ((s.setList b (s.snapSet b 1) (s.snapSet b 2)).1.zipIdx.filter fun p => p.1.flags == 1).map Prod.snd
  let good := s.tensorDigest b k cmp == x.tensor && s.stateDigest b k == x.state
  (s.putSlot b k { x with st := if good then x.st else 5, draining := false, compare := cmp }).berthEvent b 0x0A47 (flag good) k

/-- `FILL_DATA_FRAME`: a data frame of a fill, in order; its bytes are stored and acknowledged (R553). The first frame tells
which snapshot the slot receives. -/
def execFillDataFrame (port : Nat) (frame : Bytes) (s : State) : Result :=
  .next (
    let b := beAt frame 12 1
    let k := beAt frame 13 1
    let pos := beAt frame 14 1
    let off := beAt frame 24 8
    let total := beAt frame 32 8
    let n := frame.length - 48
    let x := s.slot b k
    let have_ := tget x.filled 0 pos
    if !s.drainOk port 1 frame || x.st != 6 || n = 0 || decide (8192 < n) ||
        (!x.total.isEmpty && beAt frame 16 8 != x.stepSeq) || tget x.total total pos != total ||
        decide (total < slotHeader) || decide (s.snapSet b 4 < total) || decide (total < off + n) then s
    else
      let d := (s.berth b).dies.getD pos 0
      let fresh := decide (off ≤ have_ ∧ have_ < off + n)
      let s := if fresh then
          (let m := if off = 0 then s.mem.clear (s.slotBase b k d) (s.slotBase b k d + s.snapSet b 4) else s.mem
           { s with mem := m.put (s.slotBase b k d + off) (frame.drop 48) })
        else s
      let x := { x with stepSeq := beAt frame 16 8, total := tset x.total pos total,
                        filled := tset x.filled pos (if fresh then off + n else have_) }
      let s := (s.modSnap b fun y => { y with slots := tset y.slots k x }).sendDrain b k pos 2 (tget x.filled 0 pos) total []
      if (List.range (s.berth b).dies.length).all fun i => (tfind x.total i).isSome && tget x.filled 0 i == tget x.total 0 i then
        s.endFill b k
      else s)

/-- `FILL_ACK_TIMER`: a die that has received nothing asks from offset 0, every 1 ms (R553). -/
def execFillAckTimer (b slot pos : Nat) (s : State) : Result :=
  .next (if (s.slot b slot).st = 6 ∧ pos < (s.berth b).dies.length ∧ tget (s.slot b slot).filled 0 pos = 0 then
    s.sendDrain b slot pos 2 0 0 [] else s)

/-- A write of 6 to X:06: the slot is empty. -/
def State.snapEmpty (s : State) (b : Nat) : Nat × State :=
  let k := s.snapSet b 7
  let y := s.snap b
  if s.snapSet b 5 ≤ k then (0x0A02, s)
  else if (s.slot b k).draining ∨ (y.phase = 1 ∧ y.lockage = some k) ∨ (y.phase = 2 ∧ y.restoring = some k) then (0x0A01, s)
  else (0, s.modSnap b fun z => { z with slots := tdel z.slots k })

/-- `SLOT_EMPTY`. -/
def execSlotEmpty (b : Nat) (s : State) : Result := .next (s.byDict (0x4300 + b) 6 fun t => t.snapEmpty b)

/-! Restore and resume (R554-R557). -/

/-- The code that refuses a restore, 0 if none (R554, R555, step 2). -/
def State.restoreCode (s : State) (b k : Nat) : Nat :=
  let x := s.slot b k
  if (s.berth b).life ≠ .active ∨ (s.snap b).phase ≠ 0 ∨ s.cmdRuns b ∨ s.exchBusy b then 0x0A01
  else if s.snapSet b 5 ≤ k ∨ x.st < 2 ∨ 4 < x.st ∨ !(s.setCodes b).isEmpty ∨
      (s.berth b).dies.any fun d => pieceTable (s.slotPieces b k d) != pieceTable (s.diePieces b d) then 0x0A02
  else 0

/-- Every piece of a slot copied back to its source (R555, step 3). -/
def State.copyBack (s : State) (b k : Nat) : State :=
  forL (s.berth b).dies s fun d t =>
    forL ((t.slotPieces b k d).zip (t.diePieces b d)) t fun p u => { u with mem := u.mem.copyRun p.1.pa p.2.pa p.1.len }

/-- The state values written back (R555, step 3, R556), but for the tally, which the rewind sets. -/
def State.valuesBack (s : State) (b : Nat) (v : Bytes) : State :=
  let s := s.modBerth b fun x => { x with
    stepSeq := BitVec.ofNat 64 (leAt v 8 8), ingest := leAt v 16 16,
    skips := (List.range 16).foldl (fun t w =>
      if leAt v (96 + 16 * w) 8 ≤ leAt v (104 + 16 * w) 8 then tset t (w + 1) (leAt v (96 + 16 * w) 8, leAt v (104 + 16 * w) 8)
      else t) x.skips,
    keeper := { x.keeper with tblBase := leAt v 362 8, tblE := leAt v 370 4, sentBase := leAt v 374 8 } }
  let run := (List.range 4).map fun k => (k, BitVec.ofNat 128 (leAt v (32 + 16 * k) 16))
  let s := forL (s.berth b).dies s fun d t => t.modExch d fun x => { x with run := if d = headDie (t.berth b) then run else [] }
  ((((s.putSetting 0x8010 (b + 1) (leAt v 352 8)).putSetting 0x8011 (b + 1) (leAt v 360 2)).putSetting 0x9000 (b + 1)
    (leAt v 362 8)).putSetting 0x9001 (b + 1) (leAt v 370 4)).putSetting 0x9002 (b + 1) (leAt v 374 8)

/-- The keeper's counters loaded from the sentinel block (10 R310). -/
def State.reloadCounters (s : State) (b : Nat) : State :=
  let base := (s.berth b).keeper.sentBase
  if base = 0 then s
  else
    let l := (s.unitRead b base 512).1
    let cnt := (List.range 64).map fun i => (i, BitVec.ofNat 64 (leAt l (8 * i) 8))
    s.modBerth b fun x => { x with keeper := { x.keeper with cnt := cnt } }

/-- A write of 1 to X:06: the hold is released, the slot and the state values are written back, the zero list is zeroed
(R555, steps 1 to 4). -/
def State.snapRestore (s : State) (b : Nat) : Nat × State :=
  let k := s.snapSet b 7
  let code := s.restoreCode b k
  if code ≠ 0 then (code, s)
  else
    let zero := (s.setList b (s.snapSet b 9) (s.snapSet b 0xA)).1.flatMap fun e => (s.rangeRuns b e.va e.bytes).getD []
    let v := s.memRead (s.slotBase b k (headDie (s.berth b)) + 128) 384
    let s := s.modBerth b fun x => { x with
      held := false, holdDue := false, boundary := false, keeper := { x.keeper with acc := [] } }
    let s := s.modSnap b fun y => { y with phase := 2, restoring := some k }
    let s := ((s.copyBack b k).valuesBack b v).reloadCounters b
    (0, forL zero s fun p t => { t with mem := t.mem.clear p.1 (p.1 + p.2) })

/-- `SNAPSHOT_RESTORE`. -/
def execSnapshotRestore (b : Nat) (s : State) : Result := .next (s.byDict (0x4300 + b) 6 fun t => t.snapRestore b)

/-- `RESTORE_END`: the berth is rewound to the saved tally, X:08 is 3 (R555, steps 5 and 6). -/
def execRestoreEnd (b : Nat) (s : State) : Result :=
  .next (match (s.snap b).restoring with
    | none => s
    | some k =>
      if (s.snap b).phase ≠ 2 then s
      else
        let s := s.rewind b (leNat (s.memRead (s.slotBase b k (headDie (s.berth b)) + 128) 8))
        let s := s.modSnap b fun y => { y with phase := 3, restoring := none, unrestored := false }
        (s.berthEvent b 0x0A48 k 0).nextMode b)

/-- The pending combine atomics of record `i` at the restored boundary (10 R311). -/
def State.combAgain (s : State) (b i : Nat) : State :=
  match s.scaleLine b i with
  | none => s
  | some l =>
    let r := scaleRecOf l
    let c := scaleCfgOf l
    if leAt l 0 1 % 2 = 0 ∨ !c.span ∨ !r.pendC then s
    else
      let at_ := c.comb + 16 * ((s.berth b).stepSeq.toNat % 4)
      let w1 := s.combAccess b at_ 4 r.pendAmax
      let w2 := w1.1.combAccess b (at_ + 8) 6 (flag r.pendC + 2 * flag r.pendNf + 4 * flag r.pendWovf)
      if w1.2.isSome && w2.2.isSome then w2.1 else (w2.1.putScaleRec b i { r with combFail := true }).count b 14 1

/-- A write of 2 to X:06 (R557). -/
def State.snapResume (s : State) (b : Nat) : Nat × State :=
  if (s.snap b).phase ≠ 3 then (0x0A01, s)
  else
    let s := forN (s.berth b).keeper.tblE s fun i t => t.combAgain b i
    (0, s.modSnap b fun y => { y with phase := 0 })

/-- `SNAPSHOT_RESUME`. -/
def execSnapshotResume (b : Nat) (s : State) : Result := .next (s.byDict (0x4300 + b) 6 fun t => t.snapResume b)

/-- A write to X:06 (R558). -/
def State.writeSnap (s : State) (b v : Nat) : Nat × State :=
  match v with
  | 1 => s.snapRestore b
  | 2 => s.snapResume b
  | 3 => s.snapDrain b
  | 4 => s.snapAbort b
  | 5 => s.snapFill b
  | 6 => s.snapEmpty b
  | _ => (0x0A00, s)

end Sys2Proof.Machine
end

