-- ==== Sys2Proof/Machine/Failover.lean ====
section
/-!
DEFINITION. The lockkeepers: takeover, restart, catching up, loss (16 R511, 17 R531, R532, R538).
-/

namespace Sys2Proof.Machine

/-- The lockkeeper on the other die. -/
def otherLk (die : Nat) : Nat := 58 - die

/-- Every session and connection ends, with what was staged; service state ends with its session (16 R485, R511). -/
def State.dropSessions (s : State) : State :=
  let s := { s with dict := { s.dict with
    sessions := [], conns := [], inbox := s.dict.inbox.filter fun m => m.port == 97 } }
  if s.lk.service.isSome then ({ s with lk := { s.lk with service := none } }).moduleEvent 0x0883 0 0 else s

/-- A broadcast stops; receivers keep their images (17 R538, R541). -/
def State.dropBroadcast (s : State) : State :=
  if s.fw.st = 2 then { s with fw := { s.fw with st := 0, gaps := [] } } else s

/-- The standby takes over (17 R531). An installation that called for it goes on with the former active one. -/
def State.takeOver (s : State) : State :=
  match s.lk.active with
  | none => s
  | some a =>
    let s := (s.dropSessions).dropBroadcast
    ({ s with lk := { s.lk with
      active := some (otherLk a), standby := 0, installing := false,
      cut := if s.lk.cut.contains a then s.lk.cut else s.lk.cut ++ [a] } }).moduleEvent 0x0987 (otherLk a) 0

/-- The active lockkeeper is lost and no standby mirrors it: dictionary access and repairs wait (01 R38). -/
def State.lkLost (s : State) : State :=
  let s := (s.dropSessions).dropBroadcast
  { s with lk := { s.lk with
    active := none, installing := false, cut := match s.lk.active with
      | some a => if s.lk.cut.contains a then s.lk.cut else s.lk.cut ++ [a]
      | none => s.lk.cut } }

/-- `HEARTBEAT_MISS`: five heartbeats are missed, or the active lockkeeper fails its self-test (17 R531). -/
def execHeartbeatMiss (s : State) : Result := .next (if s.lk.standby = 1 then s.takeOver else s.lkLost)

/-- A lockkeeper is back in charge: what waited for one is done (17 R541, 18 R560). -/
def State.lkBack (s : State) : State :=
  forN 24 s.lkReturned fun b t => forL ((t.snap b).slots.map Prod.fst) t fun k u => u.compareSlot b k

/-- A lockkeeper becomes active while the other is absent; it rebuilds its state from its store and the units (17 R532). -/
def State.lkAlone (s : State) (die : Nat) : State :=
  ({ s with lk := { s.lk with active := some die, standby := 0, cut := s.lk.cut.filter fun d => d != die } }).lkBack

/-- `LK_RESTART`: a lockkeeper restarts and runs its self-test: it becomes standby, or active if the other is absent, or it
is entered and fenced (17 R532). -/
def execLkRestart (die : Nat) (pass : Bool) (s : State) : Result :=
  let e : DefectEnt := { kind := 0xB, die := die, cause := 2, st := 2, detail := 0x0988 }
  .next (
    if (die ≠ 27 ∧ die ≠ 31) ∨ s.lk.fenced.contains die ∨ s.lk.active = some die ∨
        s.defects.waiting.any (fun x => x.kind == 0xB && x.die == die) then s
    else if !pass then s.fence e
    else
      match s.lk.active with
      | some _ => if s.lk.standby ≠ 0 then s
        else { s with lk := { s.lk with standby := 2, cut := s.lk.cut.filter fun d => d != die } }
      | none => s.lkAlone die)

/-- The version of the staged image, 0 if none (17 R533). -/
def State.stagedVersion (s : State) : Nat := s.fw.staged.elim 0 fun i => leAt i 6 2

/-- `STANDBY_CATCH_UP_DONE`: the standby mirrors; during an installation it then takes over, and the installation ends when
the former active one mirrors in its turn (17 R532, R538). If the active one has gone meanwhile, it becomes active. -/
def execStandbyCatchUpDone (s : State) : Result :=
  .next (
    if s.lk.standby ≠ 2 then s
    else
      match s.lk.active with
      | none => match [27, 31].find? fun d => !s.lk.cut.contains d && !s.lk.fenced.contains d with
        | some d => s.lkAlone d
        | none => s
      | some _ =>
        let s := { s with lk := { s.lk with standby := 1 } }
        if s.lk.installing then
          let v := s.stagedVersion
          let s := s.takeOver
          { s with lk := { s.lk with version := v } }
        else if s.fw.st = 4 then { s with fw := { s.fw with st := 0, staged := none } }
        else s)

/-- `STANDBY_FAILURE`: the standby fails while the active one runs (17 R532, R541). -/
def execStandbyFailure (s : State) : Result :=
  .next (
    match s.lk.active with
    | none => s
    | some a =>
      if s.lk.standby = 0 then s
      else
        let s := { s with
          lk := { s.lk with standby := 0, installing := false, cut := s.lk.cut ++ [otherLk a] },
          fw := { s.fw with st := if s.fw.st = 4 then 1 else s.fw.st } }
        s.moduleEvent 0x0988 (otherLk a) 0)

end Sys2Proof.Machine
end

