-- ==== Sys2Proof/Machine/Stacked.lean ====
section
/-!
DEFINITION. Stacked memory: the symbol code, poison, scrub, write-combining, memory-side adders, spares, retraining,
shrinking and the status register of a channel (09 R250-R282).
-/

namespace Sys2Proof.Machine

/-! The symbol code (R258-R262). -/

/-- Unknown symbols corrected with `e` dead pins (R259). -/
def symFix (e : Nat) : Nat := [4, 3, 3, 2, 2, 1, 1, 0, 0].getD e 0

/-- Unknown symbols always detected with `e` dead pins (R259). -/
def symSee (e : Nat) : Nat := [12, 12, 11, 11, 10, 10, 9, 9, 8].getD e 0

/-- What the decoder makes of a word. -/
inductive Decoded where
  | clean
  | corrected
  | lost
  /-- Decoded to a wrong line: a pattern beyond the detection bound. -/
  | wrong
deriving DecidableEq, Repr

/-- The symbols of a word that are wrong at pins not known dead. -/
def unknownSyms (dead syms : List Nat) : List Nat := (syms.filter fun j => decide (j < 80) && !dead.contains j).eraseDups

/-- The decoder on a word whose wrong symbols are `syms` (R259). Beyond the detection bound the outcome is open; `n` numbers
that choice. -/
def decodeSyms (n : Nat) (dead syms : List Nat) : Decoded :=
  let u := (unknownSyms dead syms).length
  if u = 0 then (if syms.any fun j => dead.contains j then .corrected else .clean)
  else if u ≤ symFix dead.length then .corrected
  else if u ≤ symSee dead.length then .lost
  else match Config.freeNat n % 3 with
    | 0 => .lost
    | 1 => .clean
    | _ => .wrong

/-- A value of 32 bits that the manual does not give, such as the `DETAIL` of an entry that no code led to. -/
def State.openDetail (s : State) : Nat × State := (Config.freeNat s.free % 2 ^ 32, s.nextFree)

/-! Spares of a channel group (R250, R272). -/

/-- The key of group `g` of stack `n`. -/
def groupKey (n g : Nat) : Nat := 16 * n + g

/-- The free spares of a group, by offset in it, lowest first. -/
def State.groupFree (s : State) (n g : Nat) : List Nat := tget s.groups [64, 65, 66, 67, 68, 69, 70, 71] (groupKey n g)

/-- The logical channels of a group. -/
def groupChans (g : Nat) : List Nat := (List.range 64).map fun i => 64 * g + i

/-- Whether a copy of a group runs. -/
def State.groupCopies (s : State) (n g : Nat) : Bool :=
  (groupChans g).any fun l => (s.chan n l).mode == .copying || (s.chan n l).mode == .copyingBack

/-- Whether a group has a spare, free or in passing use. -/
def State.groupHas (s : State) (n g : Nat) : Bool :=
  !(s.groupFree n g).isEmpty || (groupChans g).any fun l => (s.chan n l).spare.isSome

/-- The channels of a die that must leave service and have not yet been relocated. -/
def State.leavers (s : State) (n : Nat) : Nat := ((List.range 1024).filter fun l => (s.chan n l).leaving).length

/-- The usable window of a die after `k` withdrawals (R277). -/
def windowAfter (k : Nat) : Nat := 2 ^ 36 - k * 2 ^ 27

/-- A channel must leave service and its group has no spare: the die's window shrinks, or its stack leaves service
(R277, R278). -/
def State.startLeaving (s : State) (n l : Nat) : State :=
  let k := (s.stack n).relocated + s.leavers n
  if 64 ≤ k then
    let s := ((s.modChan n l fun x => { x with needSpare := false }).modStack n fun x =>
      { x with outOfService := true }).moduleEvent 0x0445 n 0
    (s.addDefect { kind := 0xA, die := n, cause := 2, st := 2, detail := 0x0445 }).fence
      { kind := 9, die := n, cause := 2, st := 2, detail := 0x0445 }
  else
    ((s.modChan n l fun x => { x with leaving := true, needSpare := false }).modStack n fun x =>
      { x with pending := some (windowAfter (k + 1)) }).moduleEvent 0x0443 n l

/-- A queued channel of a group without spares leaves service if a rule beside R260 takes it out, or at four dead pins. It
waits while no lockkeeper runs (R282). -/
def State.leaveIfNone (s : State) (n l : Nat) : State :=
  let x := s.chan n l
  if x.needSpare ∧ !x.leaving ∧ x.mode = .normal ∧ !s.groupHas n (l / 64) ∧ (x.why.isSome ∨ 4 ≤ x.dead.length) ∧
      s.lk.active.isSome ∧ !(s.stack n).outOfService then s.startLeaving n l
  else s

/-- A channel is queued for substitution (R272); `why` is the cause and detail of its entry. -/
def State.queueSpare (s : State) (n l : Nat) (why : Option (Nat × Nat)) : State :=
  let x := s.chan n l
  if x.mode = .relocated ∨ x.leaving then s
  else (s.modChan n l fun y => { y with needSpare := true, why := if y.why.isSome then y.why else why }).leaveIfNone n l

/-! Reads and the scrub. -/

/-- Pins that a channel declares dead: those in 16 of the last 64 corrected reads, as far as eight dead pins allow (R260). -/
def newDead (x : ChanSt) : List Nat :=
  ((List.range 80).filter fun j => !x.dead.contains j && decide (16 ≤ (x.recent.filter fun r => r.contains j).length)).take
    (8 - x.dead.length)

/-- A read that needed correction is counted; pins that it shows dead are erasures from the next read on (R260, R279). -/
def State.corrected (s : State) (n l : Nat) (syms : List Nat) : State :=
  let s := s.modChan n l fun x => { x with corr := min 0xFFFFFF (x.corr + 1), recent := (syms.eraseDups :: x.recent).take 64 }
  let new := newDead (s.chan n l)
  let s := forL new s fun j t =>
    let d := t.openDetail
    (d.2.modChan n l fun x => { x with dead := x.dead ++ [j] }).addDefect
      { kind := 3, die := n, unit := (t.chan n l).phys, sub := j, cause := 2, st := 3, detail := d.1 }
  if !new.isEmpty ∧ 2 ≤ (s.chan n l).dead.length then s.queueSpare n l none else s

/-- The line of the other copy of a sealed or loading segment (14 R434). -/
def SegSt.twin (g : SegSt) (pa : Nat) : Option Nat :=
  if g.st = 1 ∨ g.st = 2 then
    if g.primary ≤ pa ∧ pa < g.primary + g.bytes then some (pa - g.primary + g.shadow) else some (pa - g.shadow + g.primary)
  else none

/-- The berth of a unit that reads (12 R365); the scrub, 0xFFFF, belongs to none. -/
def State.readerBerth (s : State) (reader : Nat) : Option Nat :=
  if reader < 384 then s.berthOfDie (reader / 16)
  else if 0x200 ≤ reader ∧ reader < 0x500 ∧ reader % 256 < 24 then s.berthOfDie (reader % 256)
  else none

/-- An uncorrectable line (R262, 14 R434): served from the other copy of its segment and rewritten, or stored poisoned. -/
def State.uncorrectable (s : State) (pa reader : Nat) (twinSyms : List Nat) : State :=
  let bad := fun (t : State) (a : Nat) => match chanAt a with
    | some (n, l) => t.modChan n l fun x => { x with uncorr := min 255 (x.uncorr + 1) }
    | none => t
  let k := s.segOf pa
  match k.bind fun k => (s.seg k).twin pa with
  | some w =>
    let dead := (chanAt w).elim [] fun c => (s.chan c.1 c.2).dead
    if !s.mem.marked w && decodeSyms s.free dead twinSyms != .lost then
      let s := { s.nextFree with mem := { s.mem with poison := s.mem.poison.filter fun p => p != pa / 64 } }.memWrite pa
        (s.memRead w 64)
      let s := (s.modSeg (k.getD 0) fun g => { g with served := g.served + 1 }).moduleEvent 0x0441 pa (k.getD 0)
      match s.readerBerth reader with
      | some b => s.count b 7 1
      | none => s
    else
      let g := s.seg (k.getD 0)
      let off := if g.primary ≤ pa ∧ pa < g.primary + g.bytes then pa - g.primary else pa - g.shadow
      ((bad (bad s.nextFree pa) w).moduleEvent 0x0440 pa (k.getD 0)).segLineLost (k.getD 0) off reader
  | none => ((bad { s with mem := s.mem.mark (pa / 64) } pa).moduleEvent 0x0440 pa 0xFFFF).poisonNew reader pa

/-- A controller reads a line whose wrong symbols are `syms` (R259-R262); the scrub rewrites what it corrects (R264). -/
def State.channelRead (s : State) (line reader : Nat) (syms twin : List Nat) (scrub : Bool) : State :=
  let pa := 64 * line
  match chanAt pa with
  | none => s
  | some (n, l) =>
    let x := s.chan n l
    if x.mode = .stalled ∨ (s.stack n).outOfService then s
    else
      let r := decodeSyms s.free x.dead syms
      let s := s.nextFree
      let counted := if r = .corrected ∨ r = .wrong then s.corrected n l (syms.filter fun j => decide (j < 80)) else s
      if r = .lost then s.uncorrectable pa reader twin
      else if s.mem.marked pa then counted.poisonRead (s.readerBerth reader) reader pa
      else if r = .wrong ∧ scrub then
        counted.nextFree.memWrite pa (leBytes 64 (Config.freeBits 512 counted.free).toNat)
      else counted

/-- `CHANNEL_READ`: the controller of a line's channel reads and decodes it for a unit (R259-R262). `syms` are the symbols of
the stored word that come back wrong, `twin` those of the other copy where the line lies in a segment. -/
def execChannelRead (line reader : Nat) (syms twin : List Nat) (s : State) : Result :=
  .next (s.channelRead line reader syms twin false)

/-- `PATROL_SCRUB`: the scrub reads a line and rewrites it if it needed correction (R264). -/
def execPatrolScrub (line : Nat) (syms twin : List Nat) (s : State) : Result :=
  .next (s.channelRead line 0xFFFF syms twin true)

/-- `CHANNEL_WRITE`: the controller of a line's channel takes a write of the bytes that `mask` names (R263). -/
def execChannelWrite (line : Nat) (data : BitVec 512) (mask : BitVec 64) (marked : Bool) (s : State) : Result :=
  let pa := 64 * line
  .next (
    if (chanAt pa).isNone ∨ mask = 0 then s
    else
      let bs := leBytes 64 data.toNat
      let old := s.memRead pa 64
      let new := (List.range 64).map fun i => if mask.getLsbD i then bs.getD i 0 else old.getD i 0
      if marked || mask = BitVec.allOnes 64 || !s.mem.marked pa then s.memWrite pa new marked
      else s.memWrite pa [0] false)

/-- `REFRESH`: a per-bank refresh changes no data (R255). -/
def execRefresh (_n _l : Nat) (s : State) : Result := .next s

/-! The write-combining buffer and the adders (R265-R269). -/

/-- `WCB_PARTIAL_DRAIN`: the controller reads the line of a partial entry, merges it and writes the line (R266). If the array's
line is uncorrectable or poisoned, the entry's bytes are discarded (R263). -/
def execWcbPartialDrain (n l line : Nat) (syms twin : List Nat) (s : State) : Result :=
  .next (
    if (s.chan n l).wcb.any fun e => e.line == line && e.st == .partly then
      let clean := !s.mem.marked (64 * line)
      let s := s.channelRead line 0xFFFF syms twin false
      let s := if clean ∧ s.mem.marked (64 * line) then s.memWrite (64 * line) [0] false else s
      s.modChan n l fun x => { x with wcb := x.wcb.filter fun e => !(e.line == line) }
    else s)

/-- `WCB_WRITE_RUN`: full and accumulating entries drain, oldest first, 32 lines to a run (R266). -/
def execWcbWriteRun (n l : Nat) (s : State) : Result :=
  let due := (((s.chan n l).wcb.filter fun e => e.st != .partly).take 32).map WcbEnt.line
  .next (if due.isEmpty then s else s.modChan n l fun x => { x with wcb := x.wcb.filter fun e => !due.contains e.line })

/-- The operation of a memory-side add command: class 0 integer of `fmt` bytes, 1 rounded float, 2 exact float (R267). -/
def memsideOp (cls op fmt : Nat) (scale : Int) (data : Nat) : Option AddOp :=
  match cls with
  | 0 => if (fmt = 4 ∨ fmt = 8) ∧ op ≤ 9 then some (intOpOf op fmt (data % 2 ^ 64) (data / 2 ^ 64)) else none
  | 1 => match fmtOfCode fmt with
    | some .fp32 => some (floatOpOf .fp32 data)
    | some .fp16 => some (floatOpOf .fp16 data)
    | some .bf16 => some (floatOpOf .bf16 data)
    | _ => none
  | 2 => match fmtOfCode fmt with
    | some .e4m3 => some (cellOpOf (decodeElem .e4m3 data) scale)
    | some .e5m2 => some (cellOpOf (decodeElem .e5m2 data) scale)
    | some .int8 => some (cellOpOf (decodeElem .int8 data) scale)
    | some .fp16 => some (cellOpOf (decodeElem .fp16 data) scale)
    | some .g16 => some (cellOpOf (decodeElem .g16 data) scale)
    | _ => none
  | _ => none

/-- `MEMSIDE_ADD`: an add to an element of stacked memory or DSM, for a request of a berth if one is given (R267-R269). -/
def execMemsideAdd (addr cls op fmt scale data : Nat) (berth : Option Nat) (s : State) : Result :=
  .next (match memsideOp cls op fmt (signedOf 8 scale) data with
    | some o => if (homeDie addr).isSome ∧ addr % o.bytes = 0 ∧ s.wcbRoom addr then (s.homeAdd berth 0xFFFF addr o).1 else s
    | none => s)

/-! Spares, retraining and shrinking (R272-R278). -/

/-- A waiting copy back of a group begins once no other copy of the group runs (R272, R274). -/
def State.groupNext (s : State) (n g : Nat) : State :=
  if s.groupCopies n g then s
  else match (groupChans g).find? fun l => (s.chan n l).passed with
    | some l => s.modChan n l fun x => { x with mode := .copyingBack, passed := false }
    | none => s

/-- `SPARE_COPY_START`: a queued channel takes the lowest free spare of its group (R272, R276). A substitution waits for a
lockkeeper; a channel that must leave and finds no spare left leaves (R277, R282). -/
def execSpareCopyStart (n l : Nat) (s : State) : Result :=
  let x := s.chan n l
  let g := l / 64
  .next (
    if l < 1024 ∧ n < 24 ∧ x.mode = .normal ∧ !x.leaving ∧ !s.groupCopies n g ∧
        ((x.needSpare ∧ s.lk.active.isSome) ∨ x.needRetrain) then
      match s.groupFree n g with
      | p :: r => ({ s with groups := tset s.groups (groupKey n g) r }).modChan n l fun y =>
          { y with mode := .copying, spare := some (72 * g + p) }
      | [] => s.leaveIfNone n l
    else s)

/-- The dead pins that the defect list gives a physical channel. -/
def State.listedPins (s : State) (n p : Nat) : List Nat :=
  (s.defectsNow.filter fun e => e.kind == 3 && e.die == n && e.unit == p && e.st == 3).map DefectEnt.sub

/-- A spare stays in a channel's service: the original's entry, and the event (R274, 17 R524, R540). -/
def State.spareStays (s : State) (n l old new cause detail : Nat) : State :=
  let k := s.defectNo
  let s := s.addDefect { kind := 2, die := n, unit := old, cause := cause, st := 1, spare := new, detail := detail }
  let s := s.modChan n l fun x => { x with
    mode := .normal, phys := new, spare := none, original := none, why := none, needSpare := false, needRetrain := false,
    retrainFails := 0 }
  s.spareIn k 2 n (!s.groupHas n (l / 64))

/-- `SPARE_COPY_DONE`: reads switch to the spare, and the original is retrained (R273, R274); an original that a rule or the
keeper has taken out of service does not come back. A spare that failed is entered, and the copy starts again on the next. -/
def execSpareCopyDone (n l : Nat) (ok : Bool) (s : State) : Result :=
  let x := s.chan n l
  let g := l / 64
  .next (match x.mode, x.spare with
    | .copying, some p =>
      if ok then
        (match x.why with
          | some w => (s.modChan n l fun y => { y with dead := s.listedPins n p, recent := [] }).spareStays n l x.phys p w.1 w.2
          | none => s.modChan n l fun y => { y with
              mode := .onSpare, phys := p, original := some x.phys, needSpare := false, dead := s.listedPins n p,
              recent := [] }).groupNext n g
      else
        let d := s.openDetail
        let e : DefectEnt := { kind := 2, die := n, unit := p, cause := 2, st := 2, detail := d.1 }
        match s.groupFree n g with
        | q :: r =>
          (({ d.2 with groups := tset s.groups (groupKey n g) r }).modChan n l fun y =>
            { y with spare := some (72 * g + q) }).addDefect { e with st := 1, spare := 72 * g + q }
        | [] => (((d.2.modChan n l fun y => { y with mode := .normal, spare := none }).addDefect e).leaveIfNone n l).groupNext n g
    | _, _ => s)

/-- `RETRAIN_DUE`: the interval, a change of temperature or a low margin calls for a retrain (R275, R276): by copy-away, or
by a stall where the group has no spare left and no other channel of the die is stalled. -/
def execRetrainDue (n l : Nat) (s : State) : Result :=
  let x := s.chan n l
  .next (
    if l < 1024 ∧ n < 24 ∧ x.mode = .normal then
      if !s.groupHas n (l / 64) ∧ !((List.range 1024).any fun k => (s.chan n k).mode == .stalled) then
        s.modChan n l fun y => { y with mode := .stalled, needRetrain := false }
      else s.modChan n l fun y => { y with needRetrain := true }
    else s)

/-- `RETRAIN_DONE`: a retrain ends. On a spare, an original that passes and shows no dead pin takes its data back, any other
is entered and the spare stays (R274). After a stall the channel serves on; at the second stall that fails it must leave
service (17 R527). -/
def execRetrainDone (n l : Nat) (pass : Bool) (s : State) : Result :=
  let x := s.chan n l
  .next (match x.mode, x.original with
    | .onSpare, some o =>
      if x.passed then s
      else if pass ∧ (s.listedPins n o).isEmpty then (s.modChan n l fun y => { y with passed := true }).groupNext n (l / 64)
      else
        let d := s.openDetail
        d.2.spareStays n l o x.phys 2 d.1
    | .stalled, _ =>
      let s := s.modChan n l fun y => { y with mode := .normal, retrainFails := if pass then 0 else y.retrainFails + 1 }
      if pass ∨ x.retrainFails = 0 then s else s.queueSpare n l (some (3, 0x00050986))
    | _, _ => s)

/-- `COPY_BACK_DONE`: the original serves again and the spare is free (R274). -/
def execCopyBackDone (n l : Nat) (s : State) : Result :=
  let x := s.chan n l
  let g := l / 64
  .next (match x.mode, x.original with
    | .copyingBack, some o =>
      let free := (List.range 72).filter fun i => (s.groupFree n g).contains i || 72 * g + i == x.phys
      (({ s with groups := tset s.groups (groupKey n g) free }).modChan n l fun y => { y with
        mode := .normal, phys := o, original := none, spare := none, needRetrain := false, retrainFails := 0, dead := [],
        recent := [] }).groupNext n g
    | _, _ => s)

/-- Whether the range that a relocation needs is withdrawn: the shrink has been acknowledged, or the die is of no berth
and no carve-out reaches into it (R277). -/
def State.withdrawn (s : State) (n lim : Nat) : Bool :=
  decide ((s.stack n).limit ≤ lim) || ((s.berthOfDie n).isNone && !s.carvedAbove n lim)

/-- `CHANNEL_RELOCATION_DONE`: the channel's lines lie in the withdrawn range's rows; it is entered and reported (R277, steps 3
and 4). -/
def execChannelRelocationDone (n l : Nat) (s : State) : Result :=
  let x := s.chan n l
  let k := (s.stack n).relocated + 1
  .next (
    if !x.leaving ∨ s.lk.active.isNone ∨ !s.withdrawn n (windowAfter k) then s
    else
      let d := s.openDetail
      let w := x.why.getD (2, d.1)
      let s := (d.2.modChan n l fun y => { y with mode := .relocated, leaving := false, why := none, recent := [] }).modStack n
        fun y => { y with relocated := k, limit := min y.limit (windowAfter k) }
      let s := s.modStack n fun y => { y with pending := if s.leavers n = 0 then none else y.pending }
      (s.addDefect { kind := 2, die := n, unit := x.phys, cause := w.1, st := 4, detail := w.2 }).moduleEvent 0x0444 n l)

/-! The status register (R279). -/

/-- `STATE` of a channel. -/
def chanModeCode : ChanMode → Nat
  | .normal => 0
  | .copying => 1
  | .onSpare => 2
  | .copyingBack => 3
  | .stalled => 4
  | .relocated => 5

/-- The status register of a channel. -/
def State.chanStatus (s : State) (n l : Nat) : Nat :=
  let x := s.chan n l
  x.corr + x.dead.length * 2 ^ 24 + x.uncorr * 2 ^ 28 +
    (if x.mode = .relocated then 0x7FF else x.phys) * 2 ^ 40 + chanModeCode x.mode * 2 ^ 51 +
    (s.groupFree n (l / 64)).length * 2 ^ 54

/-- `CHANNEL_STATUS_READ`: the register is answered and its counts start again (R279). -/
def execChannelStatusRead (n l : Nat) (s : State) : Result :=
  .next (
    if n < 24 ∧ l < 1024 then
      (s.emit { kind := .answer, port := controlBase n + 0x100000 + 8 * l, args := [s.chanStatus n l] }).modChan n l fun x =>
        { x with corr := 0, uncorr := 0 }
    else s)

end Sys2Proof.Machine
end

