-- ==== Sys2Proof/Machine/Spares.lean ====
section
/-!
DEFINITION. Units by identity, what follows when one fails, wear trends, readmission and the keeper's declaration
(17 R521-R530, 20 R572).
-/

namespace Sys2Proof.Machine

/-! Regulator rails (20 R572): core rails 0 to 23 and fabric-die rails 24 to 31 by die, stack rails 32 to 55, the bus
converter 0x100. -/

/-- The phases of a rail, and those that carry full load. -/
def railSpec (rail : Nat) : Nat × Nat :=
  if rail < 24 then (26, 24) else if rail < 32 then (8, 7) else if rail < 56 then (10, 9) else (12, 11)

/-- Whether a number names a rail. -/
def railOk (rail : Nat) : Bool := decide (rail < 56) || rail == 0x100

/-- The rail and phase of a defect-list unit: phases 26 to 35 of a compute die are those of its stack rail. -/
def phaseOf (die unit : Nat) : Nat × Nat := if die < 24 ∧ 26 ≤ unit then (32 + die, unit - 26) else (die, unit)

/-- The die and unit of a phase, as the defect list numbers it. -/
def phaseUnit (rail phase : Nat) : Nat × Nat := if 32 ≤ rail then (rail - 32, 26 + phase) else (rail, phase)

/-- Phases out of service on a rail. -/
def State.phasesOutOf (s : State) (rail : Nat) : List Nat := tget s.power.phasesOut [] rail

/-- Whether any rail is short of its full-load phases. -/
def State.railsShort (s : State) : Bool :=
  s.power.phasesOut.any fun p => decide ((railSpec p.1).1 - p.2.length < (railSpec p.1).2)

/-- A phase or a module of the bus converter leaves service: it is entered, and a rail that is short lowers the reduction's
start (20 R572, R585). -/
def State.phaseLost (s : State) (rail phase cause detail : Nat) : State :=
  if !railOk rail ∨ (railSpec rail).1 ≤ phase ∨ (s.phasesOutOf rail).contains phase then s
  else
    let out := phase :: s.phasesOutOf rail
    let left := (railSpec rail).1 - out.length
    let k := s.defectNo
    let s := { s with power := { s.power with phasesOut := tset s.power.phasesOut rail out } }
    let u := phaseUnit rail phase
    let s := if rail = 0x100 then s
      else
        let s := s.addDefect { kind := 6, die := u.1, unit := u.2, cause := cause, detail := detail,
                               st := if (railSpec rail).2 ≤ left then 1 else 2 }
        if (railSpec rail).2 ≤ left then s.spareIn k 6 u.1 (left == (railSpec rail).2) else s
    let s := s.moduleEvent 0x0B88 rail phase
    if left < (railSpec rail).2 then
      ({ s with power := { s.power with limited := true } }).moduleEvent 0x0B89 rail left
    else s

/-! Units. -/

/-- The logical core of a die that a physical core serves. -/
def State.coreOf (s : State) (d u : Nat) : Option Nat :=
  firstBelow 16 fun c => s.physCore (16 * d + c) == u

/-- The logical channel of a stack that a physical channel serves. -/
def State.chanServed (s : State) (n u : Nat) : Option Nat :=
  (groupChans (u / 72)).find? fun l => (s.chan n l).phys == u && (s.chan n l).mode != .relocated

/-- Whether an identity names a unit that is in service or a free spare. -/
def State.unitIn (s : State) (kind die unit sub : Nat) : Bool :=
  match kind with
  | 1 => decide (die < 24) && decide (unit < 18) && sub == 0 && ((s.coreOf die unit).isSome || (s.freeCores die).contains unit)
  | 2 => decide (die < 24) && decide (unit < 1152) && sub == 0 &&
    ((s.chanServed die unit).isSome || (s.groupFree die (unit / 72)).contains (unit % 72))
  | 3 => decide (die < 24) && decide (unit < 1152) && decide (sub < 80) && !(s.listedPins die unit).contains sub
  | 4 => decide (unit < 24) && die == 24 + unit / 3 && decide (sub ≤ 8) && !(s.link unit).retired.contains sub
  | 5 => decide (sub ≤ 8) && (if die < 24 then decide (unit < 2) && (s.attachments die).testBit unit
      else decide (die < 32) && decide (unit < 3) && !s.defects.edgesOut.contains (8 * (die - 24) + unit))
  | 6 => decide (die < 32) && sub == 0 && decide (unit < if die < 24 then 36 else 8) &&
    !(s.phasesOutOf (phaseOf die unit).1).contains (phaseOf die unit).2
  | 7 => decide (die < 32) && !s.defects.sramRows.contains (die, unit, sub)
  | 8 => decide (die < 24) && decide (unit < 2) && sub == 0 && (s.attachments die).testBit unit
  | 9 => decide (die < 24) && unit == 0 && sub == 0 && !s.defects.fenced.contains die
  | 0xA => decide (die < 24) && unit == 0 && sub == 0 && !(s.stack die).outOfService
  | 0xB => (die == 27 || die == 31) && unit == 0 && sub == 0 && !s.lk.fenced.contains die
  | 0xC => decide (24 ≤ die) && decide (die < 32) && unit == 0 && sub == 0 && !s.defects.fencedFds.contains (die - 24)
  | _ => false

/-- A unit has failed: its spare comes in, or its no-spare rule applies (R522-R528). `e` carries its identity, cause and
detail. -/
def State.failUnit (s : State) (e : DefectEnt) : State :=
  match e.kind with
  | 1 => match s.coreOf e.die e.unit with
    | some c => s.coreFails (16 * e.die + c) e.cause e.detail
    | none =>
      let left := (s.freeCores e.die).filter fun p => p != e.unit
      let s := { s with defects := { s.defects with coreFree := tset s.defects.coreFree e.die left } }.addDefect { e with st := 2 }
      if left.isEmpty then s.moduleEvent 0x0983 1 e.die else s
  | 2 => match s.chanServed e.die e.unit with
    | some l => s.queueSpare e.die l (some (e.cause, e.detail))
    | none =>
      let g := e.unit / 72
      let left := (s.groupFree e.die g).filter fun p => p != e.unit % 72
      ({ s with groups := tset s.groups (groupKey e.die g) left }).addDefect { e with st := 2 }
  | 3 =>
    let s := s.addDefect { e with st := 3 }
    (match s.chanServed e.die e.unit with
      | some l =>
        let s := s.modChan e.die l fun x => { x with dead := if x.dead.length < 8 then x.dead ++ [e.sub] else x.dead }
        if 2 ≤ (s.chan e.die l).dead.length then s.queueSpare e.die l none else s
      | none => s)
  | 4 => s.retireLane e.unit e.sub e.cause e.detail 1024
  | 5 =>
    let s := s.addDefect { e with st := 2 }
    if e.die < 24 then s.attachmentLost e.die e.unit e.cause e.detail
    else { s with defects := { s.defects with edgesOut := s.defects.edgesOut ++ [8 * (e.die - 24) + e.unit] } }
  | 6 => s.phaseLost (phaseOf e.die e.unit).1 (phaseOf e.die e.unit).2 e.cause e.detail
  | 7 =>
    let n := (s.defects.sramRows.filter fun r => r.1 == e.die && r.2.1 == e.unit).length
    ({ s with defects := { s.defects with sramRows := s.defects.sramRows ++ [(e.die, e.unit, e.sub)] } }).addDefect
      { e with st := 1, spare := n }
  | 8 => s.attachmentLost e.die e.unit e.cause e.detail
  | 0xA => (s.modStack e.die fun x => { x with outOfService := true }).addDefect { e with st := 2 }
  | 0xB =>
    let s := if s.lk.active = some e.die then (if s.lk.standby = 1 then s.takeOver else s.lkLost) else s
    s.fence { e with st := 2 }
  | _ => s.fence { e with st := 2 }

/-! Wear trends (R527). -/

/-- The kinds of unit that a measure is taken of. -/
def measureKind (m kind : Nat) : Bool :=
  match m with
  | 0 => kind == 1 | 1 => kind == 1 | 2 => kind == 1 | 3 => kind == 7 | 4 => kind == 2 | 5 => kind == 2 | 6 => kind == 4
  | 7 => kind == 6 | 8 => kind == 6 | 9 => kind == 0xB | 10 => kind == 9 || kind == 0xC | _ => false

/-- Whether a row or a phase of a die waits with its substitution for a lockage of the die's berth; the first sample after the
lockage brings it about (R527, R541). A core waits with its own command, and a channel copy goes on (09 R282). -/
def State.wearWaits (s : State) (kind die : Nat) : Bool := (kind == 6 || kind == 7) && s.dieInLockage die

/-- An identity as one number. -/
def unitKey (kind die unit sub : Nat) : Nat := kind + die * 2 ^ 8 + unit * 2 ^ 16 + sub * 2 ^ 32

/-- `WEAR_SAMPLE`: a measure of a unit has crossed its warning level (1) or its substitution level (2): the warning is raised
once for each, and at the second the unit is replaced, if its kind has a spare (R527). Ports in instrument use are left out
(19 R566). -/
def execWearSample (kind die unit sub measure level : Nat) (s : State) : Result :=
  .next (
    let key := unitKey kind die unit sub
    if !measureKind measure kind || !s.unitIn kind die unit sub || s.lk.active.isNone || (level != 1 && level != 2) ||
        (kind == 4 && (s.link unit).life == .instrument) then s
    else
      let fresh := fun l => decide (l ≤ level) && !s.defects.warned.contains (2 * measure + l, key)
      let new := [1, 2].filter fresh
      let s := { s with defects := { s.defects with warned := s.defects.warned ++ new.map fun l => (2 * measure + l, key) } }
      let s := forL new s fun _ t => t.moduleEvent 0x0986 key measure
      if level = 2 ∧ measure ≠ 10 ∧ !s.wearWaits kind die then
        s.failUnit { kind := kind, die := die, unit := unit, sub := sub, cause := 3, st := 2, detail := 0x0986 + measure * 2 ^ 16 }
      else s)

/-! Readmission (R529). -/

/-- The last entry of a unit that is spared or fenced: its number. -/
def State.readmitEntry (s : State) (kind die unit sub : Nat) : Option Nat :=
  ((List.range s.defects.list.length).reverse.find? fun i =>
    match s.defects.list[i]? with
    | some e => e.kind == kind && e.die == die && e.unit == unit && e.sub == sub && (e.st == 1 || e.st == 2)
    | none => false)

/-- Whether a unit of a kind can be tested now (R529). -/
def State.readmitOk (s : State) (kind die unit : Nat) : Bool :=
  match kind with
  | 1 => true
  | 2 => true
  | 4 => (s.link unit).life == .active
  | 6 => true
  | 9 => (s.berthOfDie die).isNone
  | 0xB => s.lk.active.isSome && s.lk.active != some die
  | 0xC => true
  | _ => false

/-- A write to 0x7200:00. -/
def State.writeReadmit (s : State) (kind die unit sub : Nat) : Nat × State :=
  if s.defects.readmit = 1 then (0x0907, s)
  else
    match s.readmitEntry kind die unit sub with
    | none => (0x0905, s)
    | some i =>
      if !s.readmitOk kind die unit then (0x0905, s)
      else (0, { s with defects := { s.defects with readmit := 1, readmitUnit := s.defects.list[i]? } })

/-- `READMISSION_REQUEST`: a keeper in service state asks for a test of a unit on the list. -/
def execReadmissionRequest (kind die unit sub : Nat) (s : State) : Result :=
  .next (s.byDict 0x7200 0 fun t => if t.lk.service.isNone then (0x0809, t) else t.writeReadmit kind die unit sub)

/-- A unit that has passed joins the free spares of its kind, and its access-table entries are restored (R529). -/
def State.readmit (s : State) (e : DefectEnt) : State :=
  match e.kind with
  | 1 =>
    let free := (List.range 18).filter fun p => (s.freeCores e.die).contains p || p == e.unit
    { s with defects := { s.defects with coreFree := tset s.defects.coreFree e.die free } }
  | 2 =>
    let g := e.unit / 72
    let free := (List.range 72).filter fun p => (s.groupFree e.die g).contains p || p == e.unit % 72
    { s with groups := tset s.groups (groupKey e.die g) free }
  | 4 => s.modLink e.unit fun x => { x with retired := x.retired.filter fun l => l != e.sub }
  | 6 =>
    let r := phaseOf e.die e.unit
    let s := { s with power := { s.power with
      phasesOut := tset s.power.phasesOut r.1 ((s.phasesOutOf r.1).filter fun p => p != r.2) } }
    { s with power := { s.power with limited := s.railsShort } }
  | 9 => { s with defects := { s.defects with fenced := s.defects.fenced.filter fun d => d != e.die } }
  | 0xB => { s with lk := { s.lk with fenced := s.lk.fenced.filter fun d => d != e.die, standby := 2 } }
  | 0xC =>
    let k := e.die - 24
    let s := { s with defects := { s.defects with fencedFds := s.defects.fencedFds.filter fun d => d != k } }
    let lost := fun (a : Nat × Nat) => s.defectsNow.any fun x => x.kind == 8 && x.die == a.1 && x.unit == a.2
    let s := forL ((fdAttach k).filter fun a => !lost a) s fun a t =>
      { t with defects := { t.defects with attach := tset t.defects.attach a.1 (t.attachments a.1 ||| 2 ^ a.2) } }
    let s := s.modFabric fun f => { f with fds := tmod f.fds {} k fun x => { x with up := true } }
    let s := if k = 0 ∨ k = 4 then s.modPort (k / 4) fun x => { x with up := true } else s
    forL (fdBasins k) s fun p t => { t with basins := tset t.basins p { t.basin p with up := true } }
  | _ => s

/-- `READMIT_DONE`: the tests of a unit end (R529). -/
def execReadmitDone (pass : Bool) (s : State) : Result :=
  .next (match s.defects.readmitUnit with
    | none => s
    | some e =>
      let s := { s with defects := { s.defects with readmit := if pass then 2 else 3, readmitUnit := none } }
      let s := if !pass then s
        else
          let s := match s.readmitEntry e.kind e.die e.unit e.sub with
            | some i => { s with defects := { s.defects with list := s.defects.list.modify i fun x => { x with st := 5 } } }
            | none => s
          s.readmit e
      s.moduleEvent 0x098D (if pass then 1 else 0) 0)

/-! The keeper's declaration (R530). -/

/-- A write to 0x7202:00. The entry that follows has no code that led to it: its `DETAIL` is open. -/
def State.writeDeclare (s : State) (kind die unit sub : Nat) : Nat × State :=
  if !s.unitIn kind die unit sub || (kind == 0xB && s.lk.active == some die) ||
      (kind == 8 && (s.attachments die == 1 || s.attachments die == 2) && (s.berthOfDie die).isSome) then (0x0906, s)
  else
    let d := s.openDetail
    (0, d.2.failUnit { kind := kind, die := die, unit := unit, sub := sub, cause := 5, st := 2, detail := d.1 })

/-- `DECLARE_FAILED`. -/
def execDeclareFailed (kind die unit sub : Nat) (s : State) : Result :=
  .next (s.byDict 0x7202 0 fun t => if t.lk.service.isNone then (0x0809, t) else t.writeDeclare kind die unit sub)

end Sys2Proof.Machine
end

