-- ==== Sys2Proof/Machine/Firmware.lean ====
section
/-!
DEFINITION. Firmware: staging, broadcast, hand-over, the lockkeeper's image (17 R533-R538).
-/

namespace Sys2Proof.Machine

/-- The code that refuses an image, 0 if it is staged (R533, R534). -/
def State.fwImageCode (s : State) (i : Bytes) : Nat :=
  let n := leAt i 8 4
  let form := i.take 4 == [0x50, 0x56, 0x46, 0x57] && (leAt i 4 1 == 1 || leAt i 4 1 == 2) && leAt i 5 1 == 0 &&
    n % 4096 == 0 && decide (4096 ≤ n) && decide (n ≤ 4190208) && leAt i 12 4 == 0 && i.length == 4096 + n &&
    (((i.drop 2208).take 1888).all fun x => x == 0)
  let digest := (i.drop 16).take 48
  let signer := (i.drop 160).take 2048
  if !form then 0x0900
  else if sha384 (i.take 16 ++ i.drop 4096) != digest then 0x0901
  else if s.lk.seFailed || !Config.firmwareSigner signer || !Config.verify signer digest ((i.drop 64).take 96) then 0x0902
  else if leAt i 6 2 < s.setting 0xA015 0 0 then 0x0903
  else 0

/-- A write to 0xA010:00. -/
def State.stageImage (s : State) (i : Bytes) : Nat × State :=
  let code := s.fwImageCode i
  (code, if code ≠ 0 then s
    else { s with fw := { s.fw with staged := some i, st := if s.fw.st = 0 then 1 else s.fw.st } })

/-- `IMAGE_STAGING`: the final segment of an image arrives (R534). -/
def execImageStaging (image : Bytes) (s : State) : Result := .next (s.byDict 0xA010 0 fun t => t.stageImage image)

/-- The receivers of a core image: `32 * die + unit`, unit 18 being the die controller (R535). -/
def receivers : List Nat := (List.range 24).flatMap fun d => (List.range 19).map fun u => 32 * d + u

/-- The flagged receivers (R535). -/
def State.flaggedList (s : State) : List Nat := receivers.filter fun r => (tget s.fw.flagged 0 (r / 32)).testBit (r % 32)

/-- The chunks of an image. -/
def imageChunks (i : Bytes) : List Nat := List.range (i.length / 4096)

/-- A write of 1 to 0xA011:00: the broadcast starts; a second one of the same image goes to the flagged receivers (R535). -/
def State.fwBroadcast (s : State) : Nat × State :=
  match s.fw.staged with
  | none => (0x0904, s)
  | some i =>
    if s.fw.st = 2 ∨ s.fw.st = 4 then (0x0904, s)
    else if leAt i 4 1 ≠ 2 then (0x0900, s)
    else if s.lk.seFailed then (0x0902, s)
    else
      let again := leAt i 6 2 == s.fw.target && !s.flaggedList.isEmpty
      let who := if again then s.flaggedList else receivers
      (0, { s with fw := { s.fw with
        st := 2, rounds := 0, target := leAt i 6 2, gaps := who.map fun r => (r, imageChunks i), flagged := [] } })

/-- `FW_BROADCAST`. -/
def execFwBroadcast (s : State) : Result := .next (s.byDict 0xA011 0 State.fwBroadcast)

/-- The receivers of a berth that its hand-over needs: active cores and die controllers of its dies (R536). -/
def State.berthReceivers (s : State) (b : Nat) : List (Nat × Nat) :=
  (s.berth b).dies.flatMap fun d =>
    (d, 18) :: ((List.range 16).map fun c => (d, s.physCore (16 * d + c))).filter fun p => p.2 != 0xFF

/-- A berth whose receivers all hold the image hands over at its next point; any other stays as it is (R536, R537), though it
was to hand over to an earlier image. A held berth and one without a step queue start no further command. -/
def State.handOverDue (s : State) (b : Nat) : State :=
  let x := s.berth b
  if x.life = .absent ∨ s.fwOf b = s.fw.target then s
  else if (s.berthReceivers b).all fun p => s.holdsImage p.1 p.2 then
    s.modBerth b fun y => { y with
      handOver := true, withhold := y.withhold || y.held || !(y.queues.any fun q => q.2.step) }
  else (s.modBerth b fun y => { y with handOver := false, withhold := false }).berthEvent b 0x098B 0 0

/-- Whether a berth is about to hand over. -/
def State.anyHandOver (s : State) : Bool := (List.range 24).any fun b => (s.berth b).handOver

/-- A broadcast ends: incomplete receivers are flagged, berths hand over or stay, free dies hand over at once (R535-R537).
An image staged meanwhile stays staged. -/
def State.endBroadcast (s : State) : State :=
  let left := s.fw.gaps.map Prod.fst
  let keep := !left.isEmpty || s.stagedVersion != s.fw.target
  let old := s.fw.base
  let flags := left.foldl (fun t r => tmod t 0 (r / 32) (· ||| 2 ^ (r % 32))) ([] : Tbl Nat)
  let held := left.foldl (fun t r => tset t r (tget t old r)) s.fw.held
  let berths := (List.range 24).filter fun b => (s.berth b).life != .absent
  let s := { s with fw := { s.fw with
    gaps := [], flagged := flags, held := held, berth := berths.foldl (fun t b => tset t b (tget t old b)) s.fw.berth } }
  let s := if left.isEmpty then s else s.moduleEvent 0x0989 left.length 0
  let s := forL berths s fun b t => t.handOverDue b
  { s with fw := { s.fw with
    base := s.fw.target, staged := if keep then s.fw.staged else none,
    st := if s.anyHandOver then 3 else if keep then 1 else 0 } }

/-- `FW_ROUND_END`: every receiver reports the chunks that it still lacks, one whose copy fails its check all of them (R535).
A receiver that lacks none holds the image verified. -/
def execFwRoundEnd (gaps : List (Nat × List Nat)) (s : State) : Result :=
  .next (
    if s.fw.st ≠ 2 then s
    else
      let left := (s.fw.gaps.map fun p => (p.1, (tget gaps [] p.1))).filter fun p => !p.2.isEmpty
      let got := (s.fw.gaps.map Prod.fst).filter fun r => !(left.any fun p => p.1 == r)
      let s := { s with fw := { s.fw with
        gaps := left, rounds := s.fw.rounds + 1, held := got.foldl (fun t r => tset t r s.fw.target) s.fw.held } }
      if left.isEmpty ∨ 8 ≤ s.fw.rounds then s.endBroadcast else s)

/-- A write of 2 to 0xA011:00: the standby restarts on the staged image (R538). -/
def State.fwInstall (s : State) : Nat × State :=
  match s.fw.staged with
  | none => (0x0904, s)
  | some i =>
    if leAt i 4 1 ≠ 1 then (0x0900, s)
    else if s.lk.standby ≠ 1 ∨ s.fw.st = 2 ∨ s.fw.st = 4 then (0x0904, s)
    else (0, { s with fw := { s.fw with st := 4 }, lk := { s.lk with standby := 2, installing := true } })

/-- `FW_INSTALL_LOCKKEEPER`. -/
def execFwInstallLockkeeper (s : State) : Result := .next (s.byDict 0xA011 0 State.fwInstall)

/-- A write of 3 to 0xA011:00: a broadcast ends, and every receiver keeps its image; a hand-over under way completes (R538). -/
def State.fwAbort (s : State) : Nat × State :=
  (0, if s.fw.st = 2 then { s with fw := { s.fw with st := if s.anyHandOver then 3 else 1, gaps := [] } } else s)

/-- `FW_ABORT`. -/
def execFwAbort (s : State) : Result := .next (s.byDict 0xA011 0 State.fwAbort)

/-- A write to 0xA011:00. -/
def State.writeFw (s : State) (v : Nat) : Nat × State :=
  match v with
  | 1 => s.fwBroadcast
  | 2 => s.fwInstall
  | 3 => s.fwAbort
  | _ => (0x080B, s)

/-- `FW_HANDOVER`: at its hand-over point a berth's units switch to the image of the last broadcast that ended, and its
sequencer fetches (R537). -/
def execFwHandover (b : Nat) (s : State) : Result :=
  .next (
    let x := s.berth b
    let y := s.snap b
    if !x.handOver ∨ !(x.withhold || x.held) ∨ x.life ≠ .active ∨ s.cmdRuns b ∨ y.phase = 1 ∨ y.phase = 2 then s
    else
      let s := s.modBerth b fun z => { z with handOver := false, withhold := false }
      let s := { s with fw := { s.fw with berth := tset s.fw.berth b s.fw.base } }
      let more := s.anyHandOver
      let s := { s with fw := { s.fw with st := if s.fw.st = 3 ∧ !more then (if s.fw.staged.isSome then 1 else 0) else s.fw.st } }
      s.berthEvent b 0x098A b 0)

/-- `HANDOVER_DELAY_EXPIRY`: a berth's commands have delayed its hand-over for more than 10 s; it goes on waiting (R537). -/
def execHandoverDelayExpiry (b : Nat) (s : State) : Result :=
  .next (if (s.berth b).handOver then s.berthEvent b 0x098B b 0 else s)

end Sys2Proof.Machine
end

