-- ==== Sys2Proof/Machine/Remote.lean ====
section
/-!
DEFINITION. Remote operations: requests that arrive, windows, responses, retransmission, timeouts, transit
(12 R370-R380).
-/

namespace Sys2Proof.Machine

/-! Windows (R373-R375). -/

/-- The fabric dies that hold windows on a compute die: `n mod 8` and `7 - n mod 8` (R373). -/
def windowFds (d : Nat) : List Nat := [d % 8, 7 - d % 8]

/-- The compute die of an address of stacked memory or DSM. -/
def winDie (pa : Nat) : Option Nat := homeDie pa

/-- Whether a valid window lets a job do an operation on a range (R375): `perm` is 1 read, 2 write, 3 atomic. -/
def State.windowed (s : State) (job perm pa n : Nat) : Bool :=
  match winDie pa with
  | none => false
  | some d => s.fabric.windows.any fun w =>
      (windowFds d).contains (w.1 / 16384) && w.2.getLsbD 0 && w.2.getLsbD perm && bitsOf w.2.toNat 31 16 == job &&
        decide ((winRange w.2).1 ≤ pa) && decide (pa + n ≤ (winRange w.2).1 + (winRange w.2).2)

/-- Whether an address lies above its die's usable limit (09 R277). -/
def State.aboveLimit (s : State) (pa : Nat) : Bool :=
  match regionOf pa with
  | .stack d off => decide ((s.stack d).limit ≤ off)
  | _ => false

/-- The check of a request: 0, or the `STATUS` of a refusal (R375). -/
def State.requestStatus (s : State) (h : FrameHdr) (perm n : Nat) : Nat :=
  if !s.windowed h.job perm h.addr n then 1 else if s.aboveLimit h.addr then 2 else 0

/-- Whether a window entry can be valid (R373, R374): its range lies in the stacked memory or DSM of a compute die attached
to its fabric die, and its berth owns every byte. -/
def State.windowFormOk (s : State) (w : Nat) (e : BitVec 128) : Bool :=
  let lo := (winRange e).1
  let n := (winRange e).2
  let v := e.toNat
  decide (w < 131072) && decide (n ≠ 0) && bitsOf v 15 9 == 0 && bitsOf v 127 96 == 0 && decide (bitsOf v 8 4 < 24) &&
    match winDie lo, winDie (lo + n - 1) with
    | some d, some d' =>
      d == d' && (windowFds d).contains (w / 16384) && (s.berth (bitsOf v 8 4)).dies.contains d &&
        (match regionOf lo, regionOf (lo + n - 1) with
          | .stack _ o, .stack _ o' => decide (o ≤ o') && !(List.range (n / 65536)).any fun i => s.carved (lo + 65536 * i)
          | .dsm _ _, .dsm _ _ => true
          | _, _ => false)
    | _, _ => false

/-- `WINDOW_ENTRY_WRITE`: the driver writes an entry; one that would be valid against R373 stays invalid (R374). -/
def execWindowEntryWrite (w : Nat) (entry : BitVec 128) (s : State) : Result :=
  .next (
    if 131072 ≤ w then s
    else if entry.getLsbD 0 && !s.windowFormOk w entry then
      (s.modFabric fun x => { x with windows := tset x.windows w ((tget x.windows 0 w) &&& ~~~1#128) }).moduleEvent 0x0544 w 0
    else s.modFabric fun x => { x with windows := tset x.windows w entry })

/-! Requests (R375, R378, R379). -/

/-- Takes a frame of a kind for this node out of the frames that have arrived. -/
def State.takeFrame (s : State) (idx kind : Nat) (f : FrameHdr → Bytes → State → State) : State :=
  match s.fabric.inbox[idx]? with
  | none => s
  | some (_, b) =>
    let h := hdrOf b
    if h.kind ≠ kind ∨ h.dst ≠ s.nodeId then s
    else
      let s := s.modFabric fun x => { x with inbox := x.inbox.eraseIdx idx }
      if frameOk b then f h b s else s.modFabric fun x => { x with crcDrop := x.crcDrop + 1 }

/-- The frames that waited behind a request to a line may be handled now. -/
def State.unhold (s : State) (h : FrameHdr) : State :=
  let back := (s.histOf h).held.filter fun b => (hdrOf b).addr / 64 == h.addr / 64
  let s := s.modHist h fun x => { x with held := x.held.filter fun b => !back.contains b }
  s.modFabric fun x => { x with inbox := x.inbox ++ back.map fun b => (24, b) }

/-- A request is handled: held while an earlier request of its unit to its line is still on its way (`ahead`), answered from
what is kept if it was performed before, and otherwise checked and performed. `perform` gives the state, the response's
status and its payload. -/
def State.serveRequest (s : State) (idx kind perm : Nat) (ahead : Bool) (n : FrameHdr → Nat)
    (perform : FrameHdr → Bytes → State → State × Nat × Bytes) : State :=
  s.takeFrame idx kind fun h b t =>
    let resp := if kind = 1 then 4 else 5
    if (t.histOf h).performed.contains h.seq ∧ kind ≠ 1 then
      match (t.histOf h).saved.find? fun x => x.1 == h.seq with
      | some r => t.sendFrame r.2
      | none => t
    else if ahead then t.modHist h fun x => { x with held := x.held ++ [b] }
    else
      let st := t.requestStatus h perm (n h)
      let r := if st = 0 then perform h (payloadOf b) t else (t, st, [])
      let f := r.1.responseTo h resp r.2.1 r.2.2
      ((r.1.performed h f).unhold h).sendFrame f

/-- Bytes that a request covers (07 R212). -/
def reqBytes (h : FrameHdr) : Nat := 2 ^ (h.op % 8)

/-- `AOP` of a request (R365). -/
def reqAop (h : FrameHdr) : Nat := h.op / 8 % 16

/-- `READ_REQUEST`: a remote read is window-checked and performed (R375). -/
def execReadRequest (idx : Nat) (ahead : Bool) (s : State) : Result :=
  .next (s.serveRequest idx 1 1 ahead reqBytes fun h _ t =>
    let bad := t.mem.anyMarked h.addr (reqBytes h)
    (t.poisonReads none 0xFFFD h.addr (reqBytes h), if bad then 128 else 0, t.memRead h.addr (reqBytes h)))

/-- `WRITE_REQUEST`: a remote write is window-checked, ordered and performed once (R375, R378, R379). -/
def execWriteRequest (idx : Nat) (ahead : Bool) (s : State) : Result :=
  .next (
    if (s.fabric.inbox[idx]?).elim false fun x => !s.wcbRoom (hdrOf x.2).addr then s
    else s.serveRequest idx 2 2 ahead reqBytes fun h p t => (t.homeStore h.addr (p.take (reqBytes h)), 0, []))

/-- The addition of a remote atomic from its payload (R365). -/
def remoteAtomic (h : FrameHdr) (p : Bytes) : AddOp :=
  if reqAop h = 0xB then atomicOp 0xB 16 (leAt p 5 1 % 16) (leAt p 0 4) (leAt p 4 1)
  else atomicOp (reqAop h) (reqBytes h) 0 (leAt p 0 (reqBytes h)) (leAt p (reqBytes h) (reqBytes h))

/-- `ATOMIC_REQUEST`: a remote atomic is window-checked and performed once; with `RET` the value found goes back. -/
def execAtomicRequest (idx : Nat) (ahead : Bool) (s : State) : Result :=
  .next (
    if (s.fabric.inbox[idx]?).elim false fun x => !s.wcbRoom (hdrOf x.2).addr then s
    else s.serveRequest idx 3 3 ahead (fun h => (remoteAtomic h []).bytes) fun h p t =>
      let op := remoteAtomic h p
      let bad := t.mem.anyMarked h.addr op.bytes
      let r := t.homeAdd none 0xFFFD h.addr op
      (r.1, if bad then 128 else 0, if h.op.testBit 7 then leBytes op.bytes r.2 else []))

/-! Responses (R375, R376). -/

/-- The request that a response answers. -/
def State.waitingFor (s : State) (h : FrameHdr) : Option ReqSt :=
  s.fabric.reqs.find? fun r => r.unit == h.unit && r.node == h.src && r.seq == h.seq && r.tag == h.tag

/-- The fault of a core's request aborts its kernel, and the request's slot is free (R375, R379). -/
def State.failAccess (s : State) (r : ReqSt) (code : Nat) : State :=
  if r.access = 0 then
    s.abortLaunch r.launch { code := code, core := r.core, group := r.group, pc := r.pc, info := (hdrOf r.frame).addr }
  else match (s.core r.core).access r.access with
  | none => s
  | some a =>
    (s.dropAccess r.core a.id).abortLaunch a.launch
      { code := code, core := r.core, group := a.group, pc := a.pc, lanes := a.lanes.toNat,
        info := a.parts.head?.elim 0 fun p => p.va }

/-- A scale keeper's request has failed: the record is marked, and counted (10 R312). -/
def State.failComb (s : State) (r : ReqSt) : State :=
  let k := (s.berth r.berth).keeper
  match (List.range k.tblE).find? fun i => (s.scaleLine r.berth i).elim false fun l =>
      (scaleCfgOf l).span && decide ((scaleCfgOf l).comb ≤ r.subject) && decide (r.subject < (scaleCfgOf l).comb + 64) with
  | none => s
  | some i =>
    match s.scaleLine r.berth i with
    | none => s
    | some l => (s.putScaleRec r.berth i { scaleRecOf l with combFail := true }).count r.berth 14 1

/-- What a failed request does at its source: `code` is the fault of a core's (R375, R379, R380). -/
def State.failRequest (s : State) (r : ReqSt) (code : Nat) : State :=
  if r.unit < 0x200 then s.failAccess r code
  else if r.unit / 0x100 = 2 then
    if code = 0x0503 then
      s.exchEvent r.berth r.die r.subject ((s.round r.die r.subject).elim 0 fun x => x.round) 0x05D4 [r.node]
    else s
  else if r.unit / 0x100 = 3 then s.failComb r
  else s

/-- A response that a core waits for: data reach its access (R375). A poisoned line gives all-ones. -/
def State.coreResponse (s : State) (r : ReqSt) (p : Bytes) : State :=
  match (s.core r.core).access r.access with
  | none => s
  | some a =>
    let n := a.parts.head?.elim 0 fun x => x.size
    match a.kind with
    | .load => s.modAccess r.core a.id fun x => { x with done := some [leAt p 0 n] }
    | .atomic =>
      if a.ret then s.modAccess r.core a.id fun x => { x with done := some [leAt p 0 n] } else s.dropAccess r.core a.id
    | .store => s.dropAccess r.core a.id

/-- A response arrives: its request ends, or it is an orphan (R382). -/
def State.responseIn (s : State) (idx kind : Nat) : State :=
  s.takeFrame idx kind fun h b t =>
    match t.waitingFor h with
    | none => (t.modFabric fun x => { x with orphan := x.orphan + 1 }).moduleEvent 0x058C h.src h.unit
    | some r =>
      let t := t.modFabric fun x => { x with reqs := x.reqs.filter fun y => y != r }
      match h.status % 128 with
      | 1 => t.failRequest r 0x0502
      | 2 => t.failRequest r 0x0401
      | _ =>
        let t := if bitOf h.status 7 ∧ r.unit < 0x200 then t.count r.berth 6 1 else t
        if r.unit < 0x200 then t.coreResponse r (payloadOf b) else t

/-- `READ_RESPONSE`: data or a denial reach the source (R375). -/
def execReadResponse (idx : Nat) (s : State) : Result := .next (s.responseIn idx 4)

/-- `WRITE_ATOMIC_RESPONSE`: an acknowledgement, a value or a denial reaches the source (R375). -/
def execWriteAtomicResponse (idx : Nat) (s : State) : Result := .next (s.responseIn idx 5)

/-- `REMOTE_RETRANSMIT`: a request without response is sent again with its number and tag over the current route (R379). -/
def execRemoteRetransmit (unit node seq : Nat) (s : State) : Result :=
  .next (match s.fabric.reqs.find? fun r => r.unit == unit && r.node == node && r.seq == seq with
    | none => s
    | some r => if s.defects.fenced.contains r.die then s.ghostDrop else s.sendFrame r.frame)

/-- `REMOTE_TIMEOUT`: the remote timeout passes without a response: the kernel aborts with `REMOTE_UNREACHABLE`, an exchange
engine reports the member lost, a scale record is marked (R379, R380). -/
def execRemoteTimeout (unit node seq : Nat) (s : State) : Result :=
  .next (match s.fabric.reqs.find? fun r => r.unit == unit && r.node == node && r.seq == seq with
    | none => s
    | some r =>
      let s := s.modFabric fun x => { x with reqs := x.reqs.filter fun y => y != r }
      s.failRequest r 0x0503)

/-- `REMOTE_HISTORY_EXPIRY`: what is kept of a source unit lapses (R379). -/
def execRemoteHistoryExpiry (node unit : Nat) (s : State) : Result :=
  .next (s.modFabric fun x => { x with hist := tmod x.hist {} (node * 65536 + unit) fun y => { y with performed := [], saved := [] } })

/-! Transit (R363, R364, R370, R371). -/

/-- A frame that is not for this node goes on by its route, or is dropped. -/
def State.forward (s : State) (idx : Nat) : State :=
  match s.fabric.inbox[idx]? with
  | none => s
  | some (p, f) =>
    let h := hdrOf f
    if h.kind = 0x10 ∨ h.dst = s.nodeId then s
    else
      let s := s.modFabric fun x => { x with inbox := x.inbox.eraseIdx idx }
      if h.ttl = 0 then s.moduleEvent 0x0588 h.dst p
      else (s.routeFrame f (s.portGang p)).getD (s.modFabric fun x => { x with noExit := x.noExit + 1 })

/-- `FRAME_TRANSIT`: a frame for another node is forwarded by its route, or dropped; a frame that a fenced unit of this
module emits is dropped and counted (`die`, R528). -/
def execFrameTransit (idx : Nat) (die : Option Nat) (s : State) : Result :=
  .next (match die with
    | some d => if s.defects.fenced.contains d then s.ghostDrop else s
    | none => s.forward idx)

end Sys2Proof.Machine
end

