-- ==== Sys2Proof/Machine/Discovery.lean ====
section
/-!
DEFINITION. Discovery of peers, cut plans, routes, restarts of fabric dies (12 R353-R362, R382).
-/

namespace Sys2Proof.Machine

/-! Routes (R362). -/

/-- The gangs with an active port, with their masks, ascending. -/
def State.liveGangs (s : State) : List (Nat × Nat) :=
  (List.range 16).filterMap fun g =>
    if (s.activePorts g).isEmpty then none else (s.gangMask g).map fun m => (g, m)

/-- The breadth-first search of R362: distances by node difference; `n` bounds the nodes visited. -/
def routeDist (gs : List (Nat × Nat)) : Nat → List Nat → Tbl Nat → Tbl Nat
  | 0, _, d => d
  | _ + 1, [], d => d
  | n + 1, v :: q, d =>
    let r := gs.foldl (fun (x : Tbl Nat × List Nat) g =>
      let w := v ^^^ g.2
      if (tfind x.1 w).isSome then x else (tset x.1 w (tget d 0 v + 1), x.2 ++ [w])) (d, [])
    routeDist gs n (q ++ r.2) r.1

/-- One route entry (R361, R362) towards the node at difference `v`. -/
def routeEntry (gs : List (Nat × Nat)) (d : Tbl Nat) (v : Nat) : Nat :=
  match tfind d v with
  | none => 0
  | some dv =>
    if v = 0 then 0
    else
      let by_ := fun (k : Nat) => (gs.filter fun g => tfind d (v ^^^ g.2) == some k).map Prod.fst
      let near := by_ (dv - 1)
      let four := (near ++ by_ dv ++ by_ (dv + 1)).take 4
      (four.zipIdx.foldl (fun e x => e + (16 + x.1) * 2 ^ (5 * x.2)) 0) + dv % 16 * 2 ^ 20 + min 4 near.length * 2 ^ 24

/-- The route table for the gangs that have an active port. -/
def State.routeTable (s : State) : Tbl Nat :=
  let gs := s.liveGangs
  let d := routeDist gs 4096 [0] [(0, 0)]
  if s.nodeId = 0xFFFF then []
  else ((List.range 4096).map fun n => (n, routeEntry gs d (s.nodeId ^^^ n))).filter fun p => p.2 != 0

/-- The routes are built anew; a changed entry is reported (R362, R384). -/
def State.buildRoutes (s : State) : State :=
  let t := s.routeTable
  let s' := s.modFabric fun f => { f with routes := t, routesDue := false }
  if t = s.fabric.routes then s' else s'.moduleEvent 0x0587 0 0

/-- `ROUTE_BUILD`: routes are rebuilt after a change of the non-empty gangs (R362). -/
def execRouteBuild (s : State) : Result := .next (if s.fabric.routesDue then s.buildRoutes else s)

/-! Cut plans (R353-R356). -/

/-- A plan slot. -/
def State.plan (s : State) (slot : Nat) : PlanSt := tget s.fabric.plans {} slot

/-- The state with a plan slot changed. -/
def State.modPlan (s : State) (slot : Nat) (f : PlanSt → PlanSt) : State :=
  s.modFabric fun x => { x with plans := tset x.plans slot (f (s.plan slot)) }

/-- Whether bytes are all zero. -/
def allZero (b : Bytes) : Bool := b.all fun x => x == 0

/-- Whether a plan keeps the layout of R354. -/
def planFormOk (b : Bytes) : Bool :=
  let n := leAt b 14 1
  b.length == 64 + 64 * n && b.take 4 == [0x57, 0x43, 0x55, 0x54] && leAt b 4 2 == 1 && leAt b 6 2 != 0 &&
    decide (leAt b 8 2 < 4096) && decide (leAt b 10 2 < 4096) && decide (leAt b 12 2 < 4096) &&
    leAt b 10 2 &&& leAt b 12 2 == 0 && decide (1 ≤ n) && decide (n ≤ 16) && (leAt b 15 1 == 2 || leAt b 15 1 == 3) &&
    decide (leAt b 16 4 < 2 ^ 24) && allZero ((b.drop 20).take 44) &&
    (planGangs b).all fun r => decide (leAt r 0 1 < 16) && decide (1 ≤ leAt r 1 1) && decide (leAt r 1 1 ≤ 64) &&
      decide (leAt r 2 2 < 4096) && decide (leAt r 4 4 < 2 ^ 24) && allZero ((r.drop 8).take 8)

/-- The plans held in other slots. -/
def State.otherPlans (s : State) (slot : Nat) : List Bytes :=
  (s.fabric.plans.filter fun p => p.1 != slot && (p.2.st == 1 || p.2.st == 2)).map fun p => p.2.bytes

/-- Whether a plan conflicts with those held (R355). -/
def State.planConflict (s : State) (slot : Nat) (b : Bytes) : Bool :=
  let others := s.otherPlans slot
  let recs := others.flatMap planGangs
  (others.any fun o => leAt o 8 2 != leAt b 8 2 || leAt o 6 2 == leAt b 6 2) ||
    (planGangs b).any fun r =>
      (recs.any fun q =>
        (leAt q 0 1 == leAt r 0 1 && (leAt q 2 2 != leAt r 2 2 || leAt q 4 4 != leAt r 4 4)) ||
          (leAt q 0 1 != leAt r 0 1 && leAt q 4 4 &&& leAt r 4 4 != 0)) ||
        decide (64 < leAt r 1 1 + ((others.map fun o => planShare o (leAt r 0 1)).foldl (· + ·) 0))

/-- The code that refuses a plan, 0 if none (R355). -/
def State.planCode (s : State) (slot : Nat) (b : Bytes) : Nat :=
  if !planFormOk b then 0x0540
  else if s.planConflict slot b then 0x0541
  else if (List.range 24).any fun i => (leAt b 16 4).testBit i &&
      ((s.berth i).life == .absent || (s.berth i).job != leAt b 6 2) then 0x0543
  else 0

/-- A write to a plan slot: the plan is held, or refused; a refused one leaves a plan that the slot holds. -/
def State.writePlan (s : State) (slot : Nat) (b : Bytes) : Nat × State :=
  let code := s.planCode slot b
  let held := (s.plan slot).st == 1 || (s.plan slot).st == 2
  (code, if code = 0 then s.modPlan slot fun _ => { bytes := b, st := 1 }
    else s.modPlan slot fun x => if held then { x with refusal := code, missing := [] } else { st := 3, refusal := code })

/-- `CUT_PLAN_WRITE`: a plan is validated when it is written (R355). -/
def execCutPlanWrite (slot : Nat) (plan : Bytes) (s : State) : Result :=
  .next (if slot = 0 ∨ 32 < slot then s else s.byDict 0x5100 slot fun t => t.writePlan slot plan)

/-- The ports of a plan. -/
def planPorts (b : Bytes) : List Nat := (List.range 24).filter fun p => (planGangs b).any fun r => (leAt r 4 4).testBit p

/-- Whether every node of a plan's job set has a route with an exit open to the job (R356, R363). -/
def State.planRoutable (s : State) (b : Bytes) : Bool :=
  (List.range 4096).all fun n =>
    !planHasNode b n || n == s.nodeId ||
      (routeExits (tget s.fabric.routes 0 n)).zipIdx.any fun x =>
        planShare b x.1 != 0 && !(s.activePorts x.1).isEmpty && exitFits (tget s.fabric.routes 0 n) x.2 24

/-- The end of a plan's wait for discovery: routes are built, and the plan is active or refused (R356). -/
def State.decidePlan (s : State) (slot : Nat) : State :=
  let b := (s.plan slot).bytes
  let s := s.buildRoutes
  if s.planRoutable b then s.modPlan slot fun x => { x with st := 2, waiting := false, refusal := 0, missing := [] }
  else s.modPlan slot fun x => { x with
    st := 3, waiting := false, refusal := 0x0542,
    missing := (planPorts b).filter fun p => (s.link p).life != .active }

/-- Every plan that waits and whose ports are all active is decided. -/
def State.settlePlans (s : State) : State :=
  forL s.fabric.plans s fun p t =>
    if (t.plan p.1).waiting && (planPorts (t.plan p.1).bytes).all fun q => (t.link q).life == .active then t.decidePlan p.1
    else t

/-- A write of 1 to a plan's entry: it waits for discovery (R356). -/
def State.activatePlan (s : State) (slot : Nat) : Nat × State :=
  if (s.plan slot).st = 1 then (0, (s.modPlan slot fun x => { x with waiting := true }).settlePlans)
  else if (s.plan slot).st = 2 then (0, s)
  else (0x080C, s)

/-- `CUT_PLAN_ACTIVATE`. -/
def execCutPlanActivate (slot : Nat) (s : State) : Result := .next (s.byDict 0x5101 slot fun t => t.activatePlan slot)

/-- The frames of a job that are in the module are forwarded or delivered: those for other nodes go on (R356). -/
def State.flushJob (s : State) (job : Nat) : State :=
  forN s.fabric.inbox.length s fun i t =>
    let k := t.fabric.inbox.length - 1 - i
    if (t.fabric.inbox[k]?).elim false fun x => (hdrOf x.2).job == job && (hdrOf x.2).dst != t.nodeId then t.forward k else t

/-- A write of 2: the plan is withdrawn, and its slot is empty (R356). -/
def State.withdrawPlan (s : State) (slot : Nat) : Nat × State :=
  let x := s.plan slot
  if x.st = 1 ∨ x.st = 2 then
    (0, ((s.flushJob (leAt x.bytes 6 2)).modPlan slot fun _ => {}).modFabric fun f => { f with routesDue := true })
  else (0x080C, s)

/-- `CUT_PLAN_WITHDRAW`. -/
def execCutPlanWithdraw (slot : Nat) (s : State) : Result := .next (s.byDict 0x5101 slot fun t => t.withdrawPlan slot)

/-- `DISCOVERY_WAIT_EXPIRY`: the wait ends: ports that trained no peer are reported, gangs without any port are empty, and
the plan is decided (R356, R360). -/
def execDiscoveryWaitExpiry (slot : Nat) (s : State) : Result :=
  .next (
    if !(s.plan slot).waiting then s
    else
      let b := (s.plan slot).bytes
      let s := forL ((planPorts b).filter fun p => (s.link p).life != .active && (s.link p).life != .disabled) s fun p t =>
        t.moduleEvent 0x0583 p 0
      let s := forL ((planGangs b).filter fun r => (s.activePorts (leAt r 0 1)).isEmpty) s fun r t =>
        t.moduleEvent 0x0586 (leAt r 0 1) 0
      s.decidePlan slot)

/-! Discovery (R357-R360). -/

/-- The certificate chain that the module sends (R358). -/
def ownChain : Bytes := Config.deviceCert ++ Config.issuerCerts

/-- Sends a discovery frame: class 0, `JOB` 0, `TTL` 1; head and body as in R358. Its destination node is not given; 0
here. -/
def State.sendDisc (s : State) (p sub : Nat) (body : Bytes) : State :=
  let head := leBytes 1 sub ++ [1] ++ leBytes 2 body.length ++ leBytes 2 s.nodeId ++ leBytes 1 p ++ zeros 9
  s.sendOnPort p (mkFrame { kind := 0x10, cls := 0, ttl := 1, job := 0, dst := 0, src := s.nodeId % 4096 } (head ++ body))

/-- Sends `HELLO` (R357, R358). -/
def State.sendHello (s : State) (p : Nat) : State :=
  let g := s.portGang p
  s.sendDisc p 1 (leBytes 1 (g.getD 0x1F) ++ [0] ++ leBytes 2 ((g.bind s.gangMask).getD 0) ++ zeros 12 ++
    padTo 32 (s.link p).disc.nonce)

/-- Sends every `CERT` fragment, ascending. -/
def State.sendCerts (s : State) (p : Nat) : State :=
  let n := (ownChain.length + 1023) / 1024
  forN n s fun i t =>
    let d := (ownChain.drop (1024 * i)).take 1024
    t.sendDisc p 2 (leBytes 2 i ++ leBytes 2 n ++ leBytes 4 ownChain.length ++ leBytes 2 d.length ++ zeros 6 ++ d)

/-- Sends the one `CHALLENGE`, once the peer's `HELLO` is there. -/
def State.sendChallenge (s : State) (p : Nat) : State :=
  let d := (s.link p).disc
  if d.challengeSent ∨ d.peer.isNone then s
  else (s.sendDisc p 3 (zeros 16 ++ padTo 32 d.nonce)).modLink p fun x => { x with disc := { x.disc with challengeSent := true } }

/-- Discovery begins: a fresh nonce, `HELLO` and certificates (R357). -/
def State.startDisc (s : State) (p : Nat) : State :=
  let n := leBytes 32 (Config.freeBits 256 s.free).toNat
  let s := s.nextFree.modLink p fun x => { x with life := .discovery, disc := { nonce := n } }
  (s.sendHello p).sendCerts p

/-- Whether a port can come up: its fabric die runs and is not fenced, and the port is not in instrument use. -/
def State.portFree (s : State) (p : Nat) : Bool :=
  decide (p < 24) && (tget s.fabric.fds {} (p / 3)).up && !s.defects.fencedFds.contains (p / 3) &&
    (s.link p).life != .instrument

/-- `PORT_LINK_UP`: a port has trained; lanes that failed their acceptance are replaced or left out, and discovery starts
(R357, 17 R519). -/
def execPortLinkUp (port : Nat) (bad : List Nat) (s : State) : Result :=
  .next (
    if !s.portFree port then s
    else
      let s := s.portLost port .training
      let s := forL (bad.filter fun l => decide (l ≤ 8)) s fun l t => t.retireLane port l 2 0 0
      if (s.link port).life = .training then s.startDisc port else s)

/-- A port stays disabled with an event (R360). -/
def State.disablePort (s : State) (p code : Nat) : State :=
  let was := (s.link p).life
  let g := s.portGang p
  let s := (s.modLink p fun x => { x with life := .disabled, disc := { x.disc with failed := true } }).moduleEvent code p 0
  match g with
  | some g => if was = .active ∧ (s.activePorts g).isEmpty then
      (s.moduleEvent 0x0586 g 0).modFabric fun f => { f with routesDue := true } else s
  | none => s

/-- Whether a discovery frame's payload keeps the layout of R358. -/
def discFormOk (p : Bytes) : Bool :=
  let n := leAt p 2 2
  let node := leAt p 4 2
  leAt p 1 1 == 1 && decide (16 + n ≤ p.length) && p.length == (16 + n + 15) / 16 * 16 && allZero (p.drop (16 + n)) &&
    (decide (node < 4096) || node == 0xFFFF) && decide (leAt p 6 1 < 24) && allZero ((p.drop 7).take 9) &&
    match leAt p 0 1 with
    | 1 => n == 48 && leAt p 17 1 == 0 && decide (leAt p 18 2 < 4096) && allZero ((p.drop 20).take 12) &&
        (decide (leAt p 16 1 < 16) || (leAt p 16 1 == 0x1F && leAt p 18 2 == 0))
    | 2 => n == 16 + leAt p 24 2 && decide (leAt p 16 2 < leAt p 18 2) && allZero ((p.drop 26).take 6) &&
        leAt p 18 2 == (leAt p 20 4 + 1023) / 1024 && leAt p 24 2 == min 1024 (leAt p 20 4 - 1024 * leAt p 16 2)
    | 3 => n == 48 && allZero ((p.drop 16).take 16)
    | 4 => n == 112 && allZero ((p.drop 16).take 16)
    | _ => false

/-- Takes a discovery frame of a subtype that has arrived; one against the layout is dropped and counts as a proof that
fails (R358). A port that has joined its gang answers challenges and nothing else. -/
def State.takeDisc (s : State) (idx sub : Nat) (f : Nat → Bytes → State → State) : State :=
  match s.fabric.inbox[idx]? with
  | none => s
  | some (p, b) =>
    if leAt b 0 1 ≠ 0x10 then s
    else
      let pl := payloadOf b
      if leAt pl 0 1 ≠ sub ∧ 1 ≤ leAt pl 0 1 ∧ leAt pl 0 1 ≤ 4 then s
      else
        let s := s.modFabric fun x => { x with inbox := x.inbox.eraseIdx idx }
        if !frameOk b then s.modFabric fun x => { x with crcDrop := x.crcDrop + 1 }
        else if !discFormOk pl then s.disablePort p 0x0580
        else if sub ≠ 3 ∧ (s.link p).life = .active then s
        else f p pl s

/-- `HELLO`: the peer's node, port and nonce. A port that no held plan names, or whose peer is another than planned, stays
disabled (R359, R360). The challenge goes out. -/
def execHello (idx : Nat) (s : State) : Result :=
  .next (s.takeDisc idx 1 fun p pl s =>
    let node := leAt pl 4 2
    let s := s.modLink p fun x => { x with disc := { x.disc with peer := some (node, leAt pl 6 1, (pl.drop 32).take 32) } }
    let s := s.sendChallenge p
    match s.portGang p with
    | none => s.disablePort p 0x0582
    | some g =>
      if some (s.nodeId ^^^ node) ≠ s.gangMask g ∨ leAt pl 6 1 ≠ p then s.disablePort p 0x0581
      else s.modLink p fun x => { x with peerNode := node })

/-- `CERT`: a fragment of the peer's chain. -/
def execCert (idx : Nat) (s : State) : Result :=
  .next (s.takeDisc idx 2 fun p pl s => s.modLink p fun x => { x with disc := { x.disc with
    frags := tset x.disc.frags (leAt pl 16 2) ((pl.drop 32).take (leAt pl 24 2)), nFrags := leAt pl 18 2 } })

/-- The signed block of a `PROOF` (R358). -/
def proofBlock (own other : Bytes) (node port : Nat) : Bytes :=
  [0x57, 0x4C, 0x50, 0x44] ++ padTo 32 own ++ padTo 32 other ++ leBytes 2 node ++ leBytes 1 port ++ [0]

/-- `DISCOVERY_CHALLENGE`: answered with one `PROOF`, while the secure element signs (R357, 16 R511). -/
def execDiscoveryChallenge (idx : Nat) (s : State) : Result :=
  .next (s.takeDisc idx 3 fun p pl s =>
    if s.lk.seFailed then s
    else
      let sig := Config.sign s.free (proofBlock (s.link p).disc.nonce ((pl.drop 32).take 32) s.nodeId p)
      s.nextFree.sendDisc p 4 (zeros 16 ++ padTo 96 sig))

/-- The peer's chain, once every fragment is there. -/
def DiscSt.chain (d : DiscSt) : Option Bytes :=
  if d.nFrags = 0 then none
  else ((List.range d.nFrags).mapM fun i => tfind d.frags i).map fun l => l.flatten

/-- The first certificate of a chain in DER. -/
def firstCert (c : Bytes) : Bytes := if leAt c 1 1 = 0x82 then c.take (4 + beAt c 2 2) else if leAt c 1 1 = 0x81 then c.take (3 + beAt c 2 1) else c.take (2 + leAt c 1 1)

/-- Whether a fingerprint is what every active plan that names a gang carries for it (R359). -/
def State.fprOk (s : State) (g : Nat) (fpr : Bytes) : Bool :=
  ((s.fabric.plans.filter fun p => p.2.st == 2).flatMap fun p => planGangs p.2.bytes).all fun r =>
    leAt r 0 1 != g || (r.drop 16).take 48 == fpr

/-- `PROOF`: the port joins its gang, or stays disabled (R359, R360). -/
def execProof (idx : Nat) (s : State) : Result :=
  .next (s.takeDisc idx 4 fun p pl s =>
    let d := (s.link p).disc
    match d.chain, d.peer, s.portGang p with
    | some chain, some (node, port, nonce), some g =>
      let cert := firstCert chain
      let fpr := sha384 cert
      let s := s.modLink p fun x => { x with seen := fpr }
      if !(Config.deviceChain chain && s.fprOk g fpr && Config.verify cert (proofBlock nonce d.nonce node port) ((pl.drop 32).take 96)) then
        s.disablePort p 0x0580
      else if some (s.nodeId ^^^ node) ≠ s.gangMask g ∨ port ≠ p then s.disablePort p 0x0581
      else
        let empty := (s.activePorts g).isEmpty
        let s := s.modLink p fun x => { x with life := .active, peerNode := node }
        (if empty then s.modFabric fun f => { f with routesDue := true } else s).settlePlans
    | _, _, none => s.disablePort p 0x0582
    | _, _, _ => s.disablePort p 0x0580)

/-- `DISCOVERY_RESEND_TIMER`: the peer has been silent for 5 ms: `HELLO` with the same nonce and the certificates again. -/
def execDiscoveryResendTimer (port : Nat) (s : State) : Result :=
  .next (if (s.link port).life = .discovery then (s.sendHello port).sendCerts port else s)

/-- `DISCOVERY_RETRY_TIMER`: a disabled port repeats discovery (R360). -/
def execDiscoveryRetryTimer (port : Nat) (s : State) : Result :=
  .next (if (s.link port).life = .disabled then s.startDisc port else s)

/-! Fabric dies (R382). -/

/-- The instrument of a port ends, and `MODE` returns to 0 (19 R567). -/
def State.instAbort (s : State) (p : Nat) : State :=
  let x := tget s.inst {} p
  if x.st = 0 then s
  else (({ s with inst := tset s.inst p { x with st := 0 } }).putSetting (0x5800 + p) 1 0).moduleEvent 0x0C42 p 0

/-- `FD_FAILURE`: a fabric die fails and restarts itself: its ports are down meanwhile (R382). -/
def execFdFailure (k : Nat) (s : State) : Result :=
  .next (
    if 8 ≤ k ∨ !(tget s.fabric.fds {} k).up then s
    else
      let s := forL (fdLinks k) s fun p t => t.instAbort p
      (s.fdDown k).modFabric fun f => { f with fds := tmod f.fds {} k fun x => { x with restarts := x.restarts + 1 } })

/-- `FD_RESTART`: the restart is complete: host and basin ports return, link ports train anew, routes are rebuilt from the
plans. A die that has failed to restart three times in one hour (`ok` false) is fenced (R382, 17 R528). -/
def execFdRestart (k : Nat) (ok : Bool) (s : State) : Result :=
  .next (
    if 8 ≤ k ∨ (tget s.fabric.fds {} k).up ∨ s.defects.fencedFds.contains k then s
    else if !ok then s.fence { kind := 0xC, die := 24 + k, cause := 2, st := 2, detail := 0x058A }
    else
      let s := s.modFabric fun f => { f with fds := tmod f.fds {} k fun x => { x with up := true } }
      let s := if k = 0 ∨ k = 4 then s.modPort (k / 4) fun x => { x with up := true } else s
      let s := forL (fdBasins k) s fun p t => { t with basins := tset t.basins p { t.basin p with up := true } }
      (s.buildRoutes).moduleEvent 0x058A (24 + k) 0)

end Sys2Proof.Machine
end

