-- ==== Sys2Proof/Machine/Instrument.lean ====
section
/-!
DEFINITION. The link test instrument (19 R561-R568).
-/

namespace Sys2Proof.Machine

/-- The instrument of a port. -/
def State.instOf (s : State) (p : Nat) : InstSt := tget s.inst {} p

/-- The state with the instrument of a port changed. -/
def State.modInst (s : State) (p : Nat) (f : InstSt → InstSt) : State := { s with inst := tset s.inst p (f (s.instOf p)) }

/-- `MODE`. -/
def State.instMode (s : State) (p : Nat) : Nat := s.setting (0x5800 + p) 1 0

/-- `PATTERN`, 1 as long as nothing is written. -/
def State.instPattern (s : State) (p : Nat) : Nat := s.setting (0x5800 + p) 2 1

/-- The lanes that take part. -/
def State.instLanes (s : State) (p : Nat) : List Nat := (List.range 9).filter fun l => (s.setting (0x5800 + p) 3 0).testBit l

/-- Whether a port is the last active port of a gang on which an active plan holds a share (R565). -/
def State.lastPort (s : State) (p : Nat) : Bool :=
  match s.portGang p with
  | none => false
  | some g => s.activePorts g == [p] && s.fabric.plans.any fun x => x.2.st == 2 && planShare x.2.bytes g != 0

/-- A write to `PATTERN`, `LANES` or `TARGET_BITS` (subindices 2 to 4). -/
def State.writeInstSet (s : State) (p sub v : Nat) : Nat × State :=
  let bad := match sub with
    | 2 => decide (v = 0) || decide (5 < v) || (v == 5 && decide (1 < s.instMode p))
    | 3 => decide (512 ≤ v)
    | _ => false
  if bad then (0x0C00, s)
  else if (s.instOf p).st = 3 ∨ (s.instOf p).st = 4 then (0x0C02, s)
  else (0, s.putSetting (0x5800 + p) sub v)

/-- Whether the mode of a port checks. -/
def State.instChecks (s : State) (p : Nat) : Bool := s.instMode p == 2 || s.instMode p == 3

/-- The counts of a lane when its run ends: what the line brought is open; `bits` are those compared, if they are known. -/
def State.laneEnds (s : State) (p lane : Nat) (bits : Option Nat) : State :=
  let c := tget (s.instOf p).cnt {} lane
  let n := s.free
  let coded := s.instPattern p == 4
  let e := { c with
    bits := bits.getD (Config.freeNat n), errors := Config.freeNat (n + 1),
    uncorr := if coded then Config.freeNat (n + 2) % 2 ^ 32 else 0 }
  (s.modInst p fun x => { x with cnt := tset x.cnt lane e }).nextFree.nextFree.nextFree

/-- A run that goes on ends in state `st`: the counts of its lanes are as the line gave them. -/
def State.runEnds (s : State) (p st : Nat) : State :=
  (if (s.instOf p).st = 3 then forL (s.instLanes p) s fun l t => t.laneEnds p l none else s).modInst p fun x => { x with st := st }

/-- A write to `MODE` (R561, R562, R565, R566). The lanes of a port that comes back train anew. -/
def State.writeInstMode (s : State) (p v : Nat) : Nat × State :=
  let x := s.instOf p
  if 4 < v ∨ (1 < v ∧ s.instPattern p = 5) then (0x0C00, s)
  else if v = 0 then
    (0, if x.st = 0 then s
      else ((s.runEnds p 0).putSetting (0x5800 + p) 1 0).modLink p fun l => l.lost .training)
  else if x.st ≠ 0 then (0, (s.runEnds p 2).putSetting (0x5800 + p) 1 v)
  else if s.lastPort p then (0x0C01, s)
  else if !s.portFree p then (0x0C02, s)
  else (0, ((s.portLost p .instrument true).modInst p fun y => { y with st := 2 }).putSetting (0x5800 + p) 1 v)

/-- `INSTR_MODE_WRITE`. -/
def execInstrModeWrite (port v : Nat) (s : State) : Result :=
  .next (if port < 24 then s.byDict (0x5800 + port) 1 fun t => t.writeInstMode port v else s)

/-- `RUN` 1: counters are cleared and checking starts. -/
def State.instStart (s : State) (p : Nat) : Nat × State :=
  if !s.instChecks p ∨ (s.instOf p).st = 4 then (0x0C02, s)
  else (0, s.modInst p fun x => { x with st := 3, cnt := [], lostSaid := false })

/-- `RUN` 2: checking stops. -/
def State.instStop (s : State) (p : Nat) : Nat × State :=
  if !s.instChecks p ∨ (s.instOf p).st = 4 then (0x0C02, s)
  else if (s.instOf p).st ≠ 3 then (0, s)
  else (0, s.runEnds p 5)

/-- `SCAN` 1: a margin scan starts (R564). -/
def State.instScan (s : State) (p : Nat) : Nat × State :=
  if s.instMode p = 0 then (0x0C02, s)
  else if !s.instChecks p then (0x0C00, s)
  else if (s.instOf p).st = 3 ∨ (s.instOf p).st = 4 then (0x0C02, s)
  else (0, s.modInst p fun x => { x with st := 4 })

/-- A write to a control of a port's instrument (R561). -/
def State.writeInst (s : State) (p sub v : Nat) : Nat × State :=
  match sub with
  | 1 => s.writeInstMode p v
  | 5 => if v = 1 then s.instStart p else if v = 2 then s.instStop p else (0x0C00, s)
  | 6 => if v = 1 then s.instScan p else (0x0C00, s)
  | _ => s.writeInstSet p sub v

/-- `INSTR_RUN_START`. -/
def execInstrRunStart (port : Nat) (s : State) : Result :=
  .next (if port < 24 then s.byDict (0x5800 + port) 5 fun t => t.instStart port else s)

/-- `INSTR_RUN_STOP`. -/
def execInstrRunStop (port : Nat) (s : State) : Result :=
  .next (if port < 24 then s.byDict (0x5800 + port) 5 fun t => t.instStop port else s)

/-- `INSTR_SCAN`. -/
def execInstrScan (port : Nat) (s : State) : Result :=
  .next (if port < 24 then s.byDict (0x5800 + port) 6 fun t => t.instScan port else s)

/-- A margin result that the line gives, within the steps of the scan: open beyond that (R564). -/
def marginBytes (n : Nat) : Bytes :=
  let phase := fun (k : Nat) => leBytes 1 (BitVec.ofInt 8 (Int.ofNat (Config.freeNat k % 64) - 32)).toNat
  let slicer := fun (k : Nat) => leBytes 2 (BitVec.ofInt 16 (Int.ofNat (Config.freeNat k % 128) - 64)).toNat
  phase n ++ phase (n + 1) ++ slicer (n + 2) ++ slicer (n + 3) ++ zeros 2

/-- `INSTR_SCAN_DONE`: the scan ends with results that the line gives, and leaves the counters cleared (R564). -/
def execInstrScanDone (port : Nat) (s : State) : Result :=
  .next (
    if (s.instOf port).st ≠ 4 then s
    else
      let s := forL (s.instLanes port) s fun l t =>
        (t.modInst port fun x => { x with
          margins := tset x.margins l (marginBytes t.free) }).nextFree.nextFree.nextFree.nextFree
      (s.modInst port fun x => { x with st := 5, cnt := [] }).moduleEvent 0x0C40 port 0)

/-- `INSTR_TARGET_REACHED`: a run has compared `TARGET_BITS` on every lane. -/
def execInstrTargetReached (port : Nat) (s : State) : Result :=
  let n := s.setting (0x5800 + port) 4 0
  .next (
    if (s.instOf port).st ≠ 3 ∨ n = 0 then s
    else ((forL (s.instLanes port) s fun l t => t.laneEnds port l (some n)).modInst port fun x =>
      { x with st := 5 }).moduleEvent 0x0C40 port 0)

/-- `INSTR_LOCK_LOST`: the checker of a lane loses lock and locks again (R563, R567). -/
def execInstrLockLost (port lane : Nat) (s : State) : Result :=
  .next (
    let x := s.instOf port
    if x.st ≠ 3 ∨ !(s.instLanes port).contains lane then s
    else
      let s := s.modInst port fun y => { y with
        lostSaid := true, cnt := tmod y.cnt {} lane fun c => { c with lockLoss := min 65535 (c.lockLoss + 1) } }
      if x.lostSaid then s else s.moduleEvent 0x0C41 port lane)

/-- The counters of a lane as an entry reports them; while a run goes on, what has been counted is open (R563). -/
def State.laneBytes (s : State) (p lane : Nat) : Bytes :=
  let x := s.instOf p
  let c := tget x.cnt {} lane
  let n := s.free + 8 * lane
  let run := x.st == 3 && (s.instLanes p).contains lane
  leBytes 8 (if run then Config.freeNat n else c.bits) ++ leBytes 8 (if run then Config.freeNat (n + 1) else c.errors) ++
    leBytes 4 (if run && s.instPattern p == 4 then Config.freeNat (n + 2) else c.uncorr) ++ leBytes 2 c.lockLoss ++
    leBytes 1 (if run && Config.freeBool (n + 3) then 1 else 0) ++ zeros 9

end Sys2Proof.Machine
end

