-- ==== Sys2Proof/Machine/Starts.lean ====
section
/-!
DEFINITION. Dawn and first light (17 R512-R519, R524), and what a host port answers meanwhile (17 R514, 20 R582).
-/

namespace Sys2Proof.Machine

/-- Whether a setting survives a start (R513). -/
def survives (key : Nat) : Bool :=
  let ix := key / 256
  (decide (0x1000 ≤ ix) && decide (ix < 0x2000)) || (decide (0x2000 ≤ ix) && decide (ix ≤ 0x2007)) ||
    (decide (0x3000 ≤ ix) && decide (ix < 0x4000)) || ix == 0x5001 || ix == 0x5002 || ix == 0x6010 || ix == 0x6011 ||
    (decide (0xA000 ≤ ix) && decide (ix < 0xB000)) || (decide (0xC000 ≤ ix) && decide (ix ≤ 0xC003))

/-! The allocation that follows from the defect list (R524). -/

/-- The spares of a pool once an entry has taken its own, and given back what was readmitted. -/
def poolAfter (n : Nat) (free : List Nat) (e : DefectEnt) (unit spare : Nat) : List Nat :=
  (List.range n).filter fun p => (free.contains p && (p != spare || e.spare == 0xFFFF) && (p != unit || e.st == 5)) ||
    (e.st == 5 && p == unit)

/-- What one entry of the list brings about at a start. -/
def State.allocEntry (s : State) (e : DefectEnt) : State :=
  match e.kind with
  | 1 =>
    let s := match s.coreOf e.die e.unit with
      | some c => { s with defects := { s.defects with
          coreMap := tset s.defects.coreMap (16 * e.die + c) (if e.spare = 0xFFFF then 0xFF else e.spare) } }
      | none => s
    { s with defects := { s.defects with
      coreFree := tset s.defects.coreFree e.die (poolAfter 18 (s.freeCores e.die) e e.unit e.spare) } }
  | 2 =>
    let g := e.unit / 72
    (match s.chanServed e.die e.unit with
      | some l =>
        if e.st = 4 then
          let k := (s.stack e.die).relocated + 1
          (s.modChan e.die l fun x => { x with mode := .relocated }).modStack e.die fun x =>
            { x with relocated := k, limit := windowAfter k }
        else
          let s := if e.spare = 0xFFFF then s else s.modChan e.die l fun x => { x with phys := e.spare }
          let free := poolAfter 72 (s.groupFree e.die g) e (e.unit % 72) (e.spare % 72)
          { s with groups := tset s.groups (groupKey e.die g) free }
      | none =>
        let free := poolAfter 72 (s.groupFree e.die g) { e with spare := 0xFFFF } (e.unit % 72) 72
        { s with groups := tset s.groups (groupKey e.die g) free })
  | 4 =>
    s.modLink e.unit fun x =>
      let x := if e.st = 5 then x else { x with retired := x.retired ++ [e.sub] }
      if e.spare = 8 then { x with spare := some e.sub }
      else if e.st = 5 then x
      else
        let data := if e.sub = 8 then x.spare.getD 8 else e.sub
        { x with lanes := x.lanes.erase data, spare := if e.sub = 8 then none else x.spare }
  | 5 => if e.die < 24 then s
    else { s with defects := { s.defects with edgesOut := s.defects.edgesOut ++ [8 * (e.die - 24) + e.unit] } }
  | 6 => if e.st = 5 then s
    else
      let r := phaseOf e.die e.unit
      { s with power := { s.power with phasesOut := tset s.power.phasesOut r.1 (r.2 :: s.phasesOutOf r.1) } }
  | 7 => { s with defects := { s.defects with sramRows := s.defects.sramRows ++ [(e.die, e.unit, e.sub)] } }
  | 8 => { s with defects := { s.defects with
      attach := tset s.defects.attach e.die (s.attachments e.die &&& (3 - 2 ^ (e.unit % 2))) } }
  | 9 => if e.st = 5 then s else { s with defects := { s.defects with fenced := s.defects.fenced ++ [e.die] } }
  | 0xA => if e.st = 5 then s else s.modStack e.die fun x => { x with outOfService := true }
  | 0xB => if e.st = 5 then s else { s with lk := { s.lk with fenced := s.lk.fenced ++ [e.die] } }
  | 0xC => if e.st = 5 then s
    else
      let k := e.die - 24
      let s := { s with defects := { s.defects with fencedFds := s.defects.fencedFds ++ [k] } }
      let s := forL (fdAttach k) s fun a t =>
        { t with defects := { t.defects with attach := tset t.defects.attach a.1 (t.attachments a.1 &&& (3 - 2 ^ a.2)) } }
      s.fdDown k
  | _ => s

/-- Channels with their dead pins as the list gives them; those with two or more are queued again (R260, R272). -/
def State.allocPins (s : State) : State :=
  forL (s.defects.list.filter fun e => e.kind == 3) s fun e t =>
    match t.chanServed e.die e.unit with
    | some l =>
      let t := t.modChan e.die l fun x => { x with dead := if x.dead.length < 8 then x.dead ++ [e.sub] else x.dead }
      if 2 ≤ (t.chan e.die l).dead.length then t.modChan e.die l fun x => { x with needSpare := true } else t
    | none => t

/-- The lockkeepers at a dawn: FD3's takes the active role unless it is fenced (01 R22). -/
def lkAtDawn (lk : LkSt) : LkSt :=
  let ok := [27, 31].filter fun d => !lk.fenced.contains d
  { lk with active := ok.head?, standby := if ok.length = 2 then 1 else 0, cut := [], installing := false, service := none,
            ptp := 0, ptpNs := 0 }

/-- The state once a start (1 dawn, 2 first light) has begun: every memory is cleared, every berth absent, every die free;
what R513 names is kept, and the allocation follows from the list (R512, R513, R517, R524). -/
def State.beginStart (s : State) (kind : Nat) : State :=
  let dawn := kind == 1
  let d := s.defects
  let s1 : State := {
    pending := s.pending, free := s.free, out := s.out,
    host := { mem := s.host.mem, ports := s.host.ports.map fun p => (p.1, { p.2 with spdm := {}, eid := 0 }) },
    dict := { sets := s.dict.sets.filter fun p => survives p.1, blobs := s.dict.blobs.filter fun p => survives p.1,
              sessNext := if dawn then 1 else s.dict.sessNext, tick := s.dict.tick, mirrorTick := s.dict.mirrorTick, gen := s.dict.gen,
              calWrites := s.dict.calWrites, tpDown := s.dict.tpDown },
    fw := { s.fw with
      berth := [], gaps := [], flagged := [], held := [], st := if s.fw.staged.isSome then 1 else 0 },
    defects := { list := d.list, factory := d.factory, waiting := if dawn then [] else d.waiting },
    fabric := { ports := if dawn then [] else s.fabric.ports.map fun p => (p.1, { seen := p.2.seen }) },
    basins := s.basins.map fun p => (p.1, { up := p.2.up }),
    lk := if dawn then { s.lk with fenced := [] } else { s.lk with fenced := [], service := none },
    boot := { s.boot with running := kind, lastStart := kind, dawns := if dawn then s.boot.dawns + 1 else s.boot.dawns },
    power := { s.power with
      on := true, latched := false, phasesOut := [], band := if dawn then 0 else s.power.band,
      level := if dawn then 0 else s.power.level, causes := if dawn then 0 else s.power.causes,
      alarms := if dawn then [] else s.power.alarms, failed := if dawn then [] else s.power.failed } }
  let s2 := (s1.defects.list.foldl State.allocEntry s1).allocPins
  let s3 := { s2 with power := { s2.power with limited := s2.railsShort } }
  if dawn then { s3 with lk := lkAtDawn s3.lk } else s3

/-- A unit that fails a test of a start that no launch holds: its spare is brought in at once (R516, R517). -/
def State.failAtStart (s : State) (kind die unit sub cause : Nat) : State :=
  if !s.unitIn kind die unit sub then s
  else
    let d := s.openDetail
    let s := d.2.failUnit { kind := kind, die := die, unit := unit, sub := sub, cause := cause, st := 2, detail := d.1 }
    let s := forL s.defects.subst s fun x t => t.substituteCore x.1 x.2.1 x.2.2 []
    if kind ≠ 2 ∧ kind ≠ 3 then s
    else match s.chanServed die unit with
      | none => s
      | some l =>
        let x := s.chan die l
        match x.needSpare, s.groupFree die (l / 64) with
        | true, p :: r =>
          let w := x.why.getD (cause, d.1)
          (({ s with groups := tset s.groups (groupKey die (l / 64)) r }).modChan die l fun y => { y with dead := [] }).spareStays
            die l x.phys (72 * (l / 64) + p) w.1 w.2
        | _, _ => s

/-- `DAWN`: input power is applied (R512, R515). -/
def execDawn (s : State) : Result :=
  .next ((if s.lk.service.isSome then { s with lk := { s.lk with service := none } } else s).beginStart 1)

/-- A write to 0x7001:00 (R512, R539). -/
def State.writeStart (s : State) (v : Nat) : Nat × State :=
  match v with
  | 1 => (0, (s.dropSessions).beginStart 2)
  | 2 => (0, (s.dropSessions).beginStart 1)
  | _ => (0x080B, s)

/-- `DAWN_REQUEST`: 2 is written to 0x7001:00. -/
def execDawnRequest (s : State) : Result := .next (s.byDict 0x7001 0 fun t => t.writeStart 2)

/-- `FIRST_LIGHT`: 1 is written to 0x7001:00. -/
def execFirstLight (s : State) : Result := .next (s.byDict 0x7001 0 fun t => t.writeStart 1)

/-- `START_END`: the start ends after `ms` milliseconds. `failed` are the units that failed a test of the dawn twice, or to
retrain in the first light: kind, die, unit, sub (R514-R517). A protective power-off is reported at the end of the next
dawn (20 R579). -/
def execStartEnd (ms : Nat) (failed : List (Nat × Nat × Nat × Nat)) (s : State) : Result :=
  let k := s.boot.running
  .next (
    if k = 0 ∨ !s.power.on then s
    else
      let s := forL failed s fun u t => t.failAtStart u.1 u.2.1 u.2.2.1 u.2.2.2 (if k = 1 then 1 else 4)
      let s := ({ s with boot := { s.boot with running := 0, durationMs := ms % 2 ^ 32 } }).moduleEvent
        (if k = 1 then 0x0980 else 0x0981) (ms % 2 ^ 32) 0
      match k, s.power.offCause with
      | 1, some c => ({ s with power := { s.power with offCause := none } }).moduleEvent 0x0B8A c 0
      | _, _ => s)

/-- `CONFIGURATION_REQUEST`: a host port answers a configuration request, with Request Retry Status while a start runs
(R514). The registers it otherwise answers from are those of PCIe: what a read of them gives is open. -/
def execConfigurationRequest (port f reg : Nat) (s : State) : Result :=
  .next (
    if !s.power.on ∨ 2 ≤ port then s
    else if s.boot.running ≠ 0 then s.emit { kind := .pcie, port := port, args := [2, f, reg] }
    else (s.emit { kind := .pcie, port := port, args := [0, f, reg, (Config.freeBits 32 s.free).toNat] }).nextFree)

/-- `HOST_PERST_ASSERTED`: the host drives PERST# of a port low: the port's link is down until it trains anew (20 R582). -/
def execHostPerstAsserted (port : Nat) (s : State) : Result :=
  .next (if port < 2 then s.modPort port fun x => { x with perst := true, up := false } else s)

end Sys2Proof.Machine
end

