-- ==== Sys2Proof/Machine/Power.lean ====
section
/-!
DEFINITION. Power and cooling: input voltage, the power controller, protective power-off, sensors and alarms (20 R569-R586).
-/

namespace Sys2Proof.Machine

/-- The module is powered off, and what its memories held is lost (R574, R579). -/
def State.powerOff (s : State) (cause : Nat) : State :=
  let t := s.beginStart 2
  { t with
    boot := s.boot,
    host := { t.host with ports := [(0, { up := false }), (1, { up := false })] },
    power := { t.power with on := false, latched := true, offCause := some cause, level := 0, causes := 0, alarms := [] } }

/-- `PROTECTIVE_OFF`: the regulators power the module off (R579). Cause 0 is the input voltage, 1 a die's junction, 2 a stack,
3 coolant flow at the highest reduction level. -/
def execProtectiveOff (cause : Nat) (s : State) : Result :=
  .next (if !s.power.on ∨ 3 < cause ∨ (cause = 3 ∧ s.power.level ≠ 48) then s else s.powerOff cause)

/-- A sensor's value by dictionary entry. -/
def State.sensor (s : State) (ix sub : Nat) (d : Int) : Int := tget s.power.sensors d (entryKey ix sub)

/-- `INPUT_VOLTAGE_CHANGE`: the input has been at `mv` millivolts for `us` microseconds (R570, R571). -/
def execInputVoltageChange (mv : Int) (us : Nat) (s : State) : Result :=
  if mv < -60000 ∨ 64000 < mv ∨ (60000 < mv ∧ 10000 < us) then .fault .beyondAbsoluteMaximum
  else .next (
    if !s.power.on then s
    else
      let s : State := { s with power := { s.power with sensors := tset s.power.sensors (entryKey 0x3000 1) mv } }
      let band := fun (n code : Nat) (t : State) =>
        let u := { t with power := { t.power with band := n } }
        if n = 0 ∨ t.power.band = n then u else u.moduleEvent code (max 0 mv).toNat 0
      if (mv < 44000 ∧ 2000 < us) ∨ (60000 < mv ∧ 1000 < us) then s.powerOff 0
      else if mv < 44000 then s
      else if mv < 48000 then band 1 0x0B82 s
      else if mv ≤ 58000 then band 0 0 s
      else band 2 0x0B83 s)

/-! The power controller (R575-R577). -/

/-- The reduction level changes, with its event when it leaves or reaches 0. -/
def State.setLevel (s : State) (r : Nat) : State :=
  let old := s.power.level
  let s := { s with power := { s.power with level := r } }
  if old = 0 ∧ r ≠ 0 then s.moduleEvent 0x0B80 r 0
  else if old ≠ 0 ∧ r = 0 then s.moduleEvent 0x0B81 0 0 else s

/-- The start value of the power cause as a fraction: the limit, lowered by the rail that is shortest of phases (R572). -/
def State.powerStart (s : State) : Nat × Nat :=
  let limit := s.setting 0x3010 0 13500
  s.power.phasesOut.foldl (fun (a : Nat × Nat) p =>
    let left := (railSpec p.1).1 - p.2.length
    let full := (railSpec p.1).2
    if left < full ∧ limit * left * a.2 < a.1 * full then (limit * left, full) else a) (limit, 1)

/-- The hottest of a group of sensors. -/
def State.hottest (s : State) (ix n : Nat) : Int :=
  ((List.range n).map fun i => s.sensor ix (i + 1) 0).foldl max (-100000)

/-- The level that a cause demands, from whether its measure is above its start and below its end (R576). -/
def causeLevel (r : Nat) (above below : Bool) : Nat := if above then min 48 (r + 4) else if below then r - 1 else r

/-- `POWER_CONTROLLER_TICK`: power in W and current in mA, each averaged over 1 ms, and the temperatures set the level; it rises
by at most 4 in a tick and falls by 1 in ten (R576). Without a lockkeeper it stays (R577). -/
def execPowerControllerTick (power current : Nat) (s : State) : Result :=
  let r := s.power.level
  let st := s.powerStart
  let die := s.hottest 0x3001 32
  let stack := s.hottest 0x3002 24
  let dieStart : Int := s.setting 0x3013 0 10000
  let above := [decide (st.1 < power * st.2), decide (281000 < current), decide (dieStart < die), decide (9200 < stack)]
  let below := [decide (power * st.2 * 100 < st.1 * 97), decide (current < 272000), decide (die < dieStart - 300),
    decide (stack < 8900)]
  let want : Nat := ((above.zip below).map fun p => causeLevel r p.1 p.2).foldl max 0
  let calls : Nat := (above.zip below).zipIdx.foldl (fun a p =>
    if p.1.1 || (s.power.causes.testBit p.2 && !p.1.2) then a + 2 ^ p.2 else a) 0
  let rails := if s.power.limited && calls.testBit 0 then 16 else 0
  .next (
    if !s.up ∨ s.lk.active.isNone then s
    else
      let peak := max (s.sensor 0x3000 4 0) (power : Int)
      let sens := tset (tset (tset s.power.sensors (entryKey 0x3000 2) (current : Int)) (entryKey 0x3000 3) (power : Int))
        (entryKey 0x3000 4) peak
      let s : State := { s with power := { s.power with sensors := sens } }
      let t := if r < want then s.setLevel want
        else if want < r ∧ 9 ≤ s.power.sinceDown then s.setLevel (r - 1) else s
      let fast := if s.power.causes.testBit 5 && t.power.level != 0 then 32 else 0
      { t with power := { t.power with
        causes := calls + rails + fast,
        sinceDown := if t.power.level < r then 0 else min 9 (t.power.sinceDown + 1) } })

/-- `FAST_CURRENT_LIMIT`: the input current has been above 300 A for 20 µs (R577). -/
def execFastCurrentLimit (s : State) : Result :=
  .next (
    if !s.power.on then s
    else
      let t := s.setLevel 48
      { t with power := { t.power with causes := t.power.causes ||| 32, sinceDown := 0 } })

/-- `PHASE_LOST`: a regulator phase or a module of the bus converter fails (R572). -/
def execPhaseLost (rail phase : Nat) (s : State) : Result :=
  .next (if s.power.on then s.phaseLost rail phase 2 0x0B88 else s)

/-! Sensors and alarms (R580, R585). -/

/-- Whether an alarm's condition holds now: code and subject. -/
def State.alarmHolds (s : State) (a : Nat × Nat) : Bool :=
  match a.1 with
  | 0x0B84 => decide (s.sensor 0x3004 3 20000 < (s.setting 0x3014 0 20000 : Int))
  | 0x0B85 => decide (4000 < s.sensor 0x3004 1 0)
  | 0x0B86 => decide ((s.setting 0x3013 0 10000 : Int) ≤ s.sensor 0x3001 (a.2 + 1) 0)
  | 0x0B87 => decide (9200 ≤ s.sensor 0x3002 (a.2 + 1) 0)
  | _ => false

/-- An alarm raised once while its condition holds. -/
def State.raiseAlarm (s : State) (a : Nat × Nat) : State :=
  if s.alarmHolds a && !s.power.alarms.contains a then
    ({ s with power := { s.power with alarms := s.power.alarms ++ [a] } }).moduleEvent a.1 a.2 0
  else s

/-- The temperature sensors behind a value of a die or a stack. -/
def sensorsBehind (key : Nat) : Nat := if key / 256 = 0x3001 then 16 else if key / 256 = 0x3002 then 4 else 1

/-- `SENSOR_REFRESH`: sensor values by dictionary entry, and sensors that have failed, by entry and number (R580). A die or
stack without a sensor left is taken to be at its reduction start. -/
def execSensorRefresh (values : List (Nat × Int)) (bad : List (Nat × Nat)) (s : State) : Result :=
  .next (
    if !s.power.on then s
    else
      let new : List (Nat × Nat) := (bad.filter fun x => !s.power.failed.contains x).eraseDups
      let s : State := { s with power := { s.power with
        sensors := values.foldl (fun t p => tset t p.1 p.2) s.power.sensors, failed := s.power.failed ++ new } }
      let s := forL new s fun x t => t.moduleEvent 0x0B8B x.1 0
      let gone := fun (key : Nat) => decide (sensorsBehind key ≤ (s.power.failed.filter fun x => x.1 == key).length)
      let fill := fun (t : Tbl Int) (p : Nat × Nat × Int) =>
        (List.range p.2.1).foldl (fun u i => if gone (entryKey p.1 (i + 1)) then tset u (entryKey p.1 (i + 1)) p.2.2 else u) t
      let sens := [(0x3001, 32, (s.setting 0x3013 0 10000 : Int)), (0x3002, 24, (9200 : Int))].foldl fill s.power.sensors
      let s : State := { s with power := { s.power with sensors := sens } }
      let s : State := { s with power := { s.power with alarms := s.power.alarms.filter s.alarmHolds } }
      let s := forN 32 s fun d t => t.raiseAlarm (0x0B86, d)
      forN 24 s fun n t =>
        let t := t.raiseAlarm (0x0B87, n)
        let hot := decide (8500 < t.sensor 0x3002 (n + 1) 0)
        if (t.stack n).hot = hot then t else t.modStack n fun x => { x with hot := hot })

/-- `COOLANT_ALARM_TIMER`: low flow, or a high inlet temperature, has lasted for 1 s (R585). -/
def execCoolantAlarmTimer (inlet : Bool) (s : State) : Result :=
  .next (if s.power.on then s.raiseAlarm (if inlet then 0x0B85 else 0x0B84, 0) else s)

end Sys2Proof.Machine
end

