-- ==== Sys2Proof/Machine/Entries.lean ====
section
/-!
DEFINITION. The entries of the object dictionary: their table, who may reach them, and what they read (16 R482-R488,
R500-R503, R508, R509 and the entry tables of the other chapters).
-/

namespace Sys2Proof.Machine

/-- Types of entries (R482), in the numbering of R509. -/
inductive EType where
  | bool
  | u8
  | u16
  | u32
  | u64
  | i32
  | i64
  | str
  | octets
  | record
deriving DecidableEq, Repr

/-- Access classes (R484). -/
inductive EAcc where
  | ro
  | rw
  | wo
  | const
  | rws
deriving DecidableEq, Repr

/-- Role columns (R486, R487): observer and above; observer and above for reading, with the operator and a tenant for its own
berth writing; tenant and above; the same, where a tenant may write one value only; operator; keeper. -/
inductive ERole where
  | observer
  | observerTenant
  | observerOperator
  | tenant
  | tenantReset
  | operator
  | keeper
deriving DecidableEq, Repr

/-- One line of the entry tables: a range of indices and of subindices. -/
structure EntRow where
  i0 : Nat
  i1 : Nat
  s0 : Nat
  s1 : Nat
  typ : EType
  acc : EAcc
  role : ERole
  lmin : Nat := 0
  lmax : Nat := 0
  range : Option (Nat × Nat) := none
  dflt : Nat := 0
  /-- Subindices stand for berths. -/
  berth : Bool := false
deriving DecidableEq, Repr

/-- Bytes of a numeric type, `none` for the others. -/
def EType.size : EType → Option Nat
  | .bool => some 1
  | .u8 => some 1
  | .u16 => some 2
  | .u32 => some 4
  | .u64 => some 8
  | .i32 => some 4
  | .i64 => some 8
  | _ => none

/-- The number of a type in the mirror's directory (R509). -/
def EType.code : EType → Nat
  | .bool => 1
  | .u8 => 2
  | .u16 => 3
  | .u32 => 4
  | .u64 => 5
  | .i32 => 7
  | .i64 => 8
  | .str => 10
  | .octets => 11
  | .record => 12

/-- A numeric line. -/
def num (i0 i1 s0 s1 : Nat) (t : EType) (a : EAcc) (r : ERole) : EntRow :=
  { i0 := i0, i1 := i1, s0 := s0, s1 := s1, typ := t, acc := a, role := r, lmin := t.size.getD 0, lmax := t.size.getD 0 }

/-- A line of bytes. -/
def oct (i0 i1 s0 s1 : Nat) (t : EType) (lo hi : Nat) (a : EAcc) (r : ERole) : EntRow :=
  { i0 := i0, i1 := i1, s0 := s0, s1 := s1, typ := t, acc := a, role := r, lmin := lo, lmax := hi }

/-- A line with a range, a default, or subindices that stand for berths. -/
def EntRow.rng (e : EntRow) (lo hi : Nat) : EntRow := { e with range := some (lo, hi) }
def EntRow.dft (e : EntRow) (d : Nat) : EntRow := { e with dflt := d }
def EntRow.perBerth (e : EntRow) : EntRow := { e with berth := true }

/-- Entries of R501 and of 15 R481 in 0x1000-0x1FFF. -/
def rowsIdentity : List EntRow :=
  [oct 0x1000 0x1002 0 0 .str 0 255 .const .observer,
   oct 0x1003 0x1003 0 0 .octets 2048 2048 .const .observer,
   oct 0x1004 0x1004 0 0 .octets 4096 4096 .const .observer,
   oct 0x1005 0x1005 0 0 .octets 97 97 .const .observer,
   oct 0x1006 0x1006 0 0 .str 0 255 .const .observer,
   oct 0x1007 0x1007 0 0 .octets 48 48 .const .observer,
   oct 0x1100 0x1100 0 0 .record 64 64 .ro .observer,
   num 0x1200 0x1200 0 1 .u8 .ro .observer,
   num 0x1201 0x1201 0 0 .bool .rw .keeper,
   num 0x1202 0x1202 0 0 .u8 .ro .observer,
   num 0x1210 0x1210 1 2 .u32 .ro .observer,
   oct 0x1220 0x1221 1 2 .octets 16 16 .rw .operator,
   ((num 0x1222 0x1222 0 0 .u16 .rw .operator).rng 1024 65535).dft 30517,
   num 0x1230 0x1230 0 0 .u8 .ro .observer,
   num 0x1231 0x1231 0 0 .i64 .ro .observer,
   (num 0x1232 0x1232 0 0 .u8 .rw .operator).rng 0 127,
   oct 0x1300 0x1300 1 4 .octets 0 2048 .rw .operator,
   oct 0x1301 0x1301 0 0 .octets 2048 2048 .const .observer,
   oct 0x1310 0x1310 1 0x40 .record 52 52 .rw .operator,
   num 0x1320 0x1320 0 0 .u8 .ro .observer]

/-- Entries of R502 and of 20 R580. -/
def rowsCalPower : List EntRow :=
  [oct 0x2000 0x2000 1 1 .octets 48 48 .ro .observer,
   num 0x2000 0x2000 2 2 .bool .ro .observer,
   num 0x2000 0x2000 3 3 .u32 .ro .observer,
   oct 0x2001 0x2001 1 0x20 .record 256 256 .rws .keeper,
   oct 0x2002 0x2002 1 0x20 .record 128 128 .rws .keeper,
   oct 0x2003 0x2003 1 0x20 .record 512 512 .rws .keeper,
   oct 0x2004 0x2004 1 0x18 .record 576 576 .rws .keeper,
   oct 0x2005 0x2005 1 0x18 .octets 92160 92160 .rws .keeper,
   oct 0x2006 0x2006 0 0 .record 64 64 .rws .keeper,
   oct 0x2007 0x2007 1 0x20 .record 32 32 .rws .keeper,
   num 0x3000 0x3000 1 4 .u32 .ro .observer,
   num 0x3001 0x3001 1 0x20 .i32 .ro .observer,
   num 0x3002 0x3002 1 0x18 .i32 .ro .observer,
   num 0x3003 0x3003 1 0x20 .u32 .ro .observer,
   num 0x3004 0x3004 1 2 .i32 .ro .observer,
   num 0x3004 0x3004 3 5 .u32 .ro .observer,
   ((num 0x3010 0x3010 0 0 .u32 .rw .operator).rng 4000 13500).dft 13500,
   num 0x3011 0x3012 0 0 .u8 .ro .observer,
   ((num 0x3013 0x3013 0 0 .u32 .rw .operator).rng 8500 10000).dft 10000,
   ((num 0x3014 0x3014 0 0 .u32 .rw .operator).rng 20000 60000).dft 20000]

/-- Entries of 14 R441 and 15 R481. -/
def rowsBerths : List EntRow :=
  [num 0x4000 0x4000 0 0 .u32 .ro .observer,
   ((num 0x4001 0x4001 1 0x18 .u8 .wo .tenantReset).rng 1 5).perBerth,
   (num 0x4002 0x4002 1 0x18 .u8 .ro .observer).perBerth,
   (num 0x4003 0x4004 1 0x18 .u32 .rw .operator).perBerth,
   (num 0x4005 0x4005 1 0x18 .u8 .rw .operator).perBerth,
   (num 0x4006 0x4006 1 0x18 .u16 .rw .operator).perBerth,
   ((num 0x4007 0x4007 1 0x18 .u8 .rw .operator).rng 1 64).perBerth,
   (((num 0x4008 0x4008 1 0x18 .u16 .rw .tenant).rng 0 4095).dft 256).perBerth,
   (((num 0x4009 0x4009 1 0x18 .u32 .rw .operator).rng 0 60000).dft 100).perBerth,
   (num 0x400A 0x400A 1 0x18 .u64 .rw .operator).perBerth,
   (num 0x400B 0x400B 1 0x18 .u64 .ro .tenant).perBerth,
   (((num 0x400C 0x400C 1 0x18 .u32 .rw .operator).rng 0 60000).dft 100).perBerth,
   num 0x4200 0x423F 1 1 .u8 .ro .observer,
   (num 0x4200 0x423F 2 2 .u8 .wo .operator).rng 1 4,
   num 0x4200 0x423F 3 5 .u64 .rw .operator,
   num 0x4200 0x423F 6 7 .u64 .ro .observer]

/-- Entries of 18 R558. -/
def rowsSnap : List EntRow :=
  [num 0x4300 0x4317 1 1 .u64 .rw .tenant,
   (num 0x4300 0x4317 2 2 .u16 .rw .tenant).rng 0 1024,
   num 0x4300 0x4317 3 4 .u64 .rw .operator,
   num 0x4300 0x4317 5 5 .u8 .rw .operator,
   num 0x4300 0x4317 6 6 .u8 .wo .tenant,
   num 0x4300 0x4317 7 7 .u8 .rw .tenant,
   num 0x4300 0x4317 8 8 .u8 .ro .observer,
   num 0x4300 0x4317 9 9 .u64 .rw .tenant,
   (num 0x4300 0x4317 0xA 0xA .u16 .rw .tenant).rng 0 1024,
   oct 0x4300 0x4317 0xB 0xB .octets 16 16 .rw .operator,
   (num 0x4300 0x4317 0xC 0xC .u16 .rw .operator).rng 1024 65535,
   num 0x4300 0x4317 0xD 0xD .u32 .rw .operator,
   num 0x4300 0x4317 0xE 0xE .bool .rw .tenant,
   oct 0x4300 0x4317 0x10 0x13 .record 128 128 .ro .observer,
   oct 0x4300 0x4317 0x18 0x1B .octets 24 24 .wo .tenant]

/-- Entries of 12 R383 and 19 R561. -/
def rowsFabric : List EntRow :=
  [num 0x5000 0x5000 0 0 .u16 .ro .observer,
   ((num 0x5001 0x5001 0 0 .u32 .rw .operator).rng 5 10000).dft 50,
   ((num 0x5002 0x5002 0 0 .u32 .rw .operator).rng 1 600).dft 10,
   oct 0x5100 0x5100 1 0x20 .octets 64 1088 .rw .operator,
   num 0x5101 0x5101 1 0x20 .u8 .rw .operator,
   oct 0x5102 0x5102 1 0x20 .octets 2 26 .ro .operator,
   num 0x5200 0x5200 1 0x18 .u32 .ro .observer,
   oct 0x5201 0x5201 1 0x18 .octets 48 48 .ro .operator,
   num 0x5210 0x5212 1 0x18 .u64 .ro .tenant,
   num 0x5300 0x5301 0 0 .u64 .ro .observer,
   num 0x5800 0x5817 1 2 .u8 .rw .observerOperator,
   num 0x5800 0x5817 3 3 .u16 .rw .observerOperator,
   num 0x5800 0x5817 4 4 .u64 .rw .observerOperator,
   num 0x5800 0x5817 5 6 .u8 .wo .observerOperator,
   num 0x5800 0x5817 7 7 .u8 .ro .observer,
   oct 0x5800 0x5817 0x10 0x18 .record 32 32 .ro .observer,
   oct 0x5800 0x5817 0x20 0x28 .record 8 8 .ro .observer]

/-- Entries of 09 R280 and 17 R539, and the versions of R501. -/
def rowsUnits : List EntRow :=
  [num 0x6000 0x6000 1 0x18 .u64 .ro .observer,
   num 0x6001 0x6001 1 0x18 .u16 .ro .observer,
   num 0x6002 0x6002 1 0x18 .u64 .ro .observer,
   ((num 0x6010 0x6010 0 0 .u32 .rw .operator).rng 24 720).dft 168,
   ((num 0x6011 0x6011 0 0 .u32 .rw .operator).rng 1 168).dft 24,
   num 0x7000 0x7000 0 0 .u32 .ro .observer,
   (num 0x7001 0x7001 0 0 .u8 .wo .operator).rng 1 2,
   num 0x7002 0x7002 0 0 .u8 .ro .observer,
   num 0x7003 0x7003 0 0 .u32 .ro .observer,
   oct 0x7010 0x7010 1 0x18 .octets 16 16 .ro .observer,
   num 0x7011 0x7011 1 0x18 .u8 .ro .observer,
   num 0x7012 0x7012 0 0 .u16 .ro .observer,
   num 0x7020 0x7020 1 0x18 .u8 .ro .observer,
   num 0x7030 0x7030 1 0x20 .u8 .ro .observer,
   oct 0x7100 0x7100 0 0 .octets 64 131136 .ro .observer,
   num 0x7101 0x7101 0 0 .u16 .ro .observer,
   oct 0x7200 0x7200 0 0 .record 8 8 .rws .keeper,
   num 0x7201 0x7201 0 0 .u8 .ro .observer,
   oct 0x7202 0x7202 0 0 .record 8 8 .rws .keeper,
   num 0xA000 0xA000 1 2 .u16 .ro .observer,
   (num 0xA002 0xA002 1 0x18 .u16 .ro .observer).perBerth,
   oct 0xA010 0xA010 0 0 .octets 4096 4194304 .wo .operator,
   (num 0xA011 0xA011 0 0 .u8 .wo .operator).rng 1 3,
   num 0xA012 0xA013 0 0 .u8 .ro .observer,
   num 0xA014 0xA014 1 0x18 .u32 .ro .observer,
   num 0xA015 0xA015 0 0 .u16 .rws .keeper,
   num 0xA016 0xA016 0 0 .u16 .ro .observer]

/-- Entries of 10 R313 and 11 R340. -/
def rowsKeeper : List EntRow :=
  [(num 0x9000 0x9000 1 0x18 .u64 .rw .tenant).perBerth,
   ((num 0x9001 0x9001 1 0x18 .u32 .rw .tenant).rng 0 65536).perBerth,
   (num 0x9002 0x9002 1 0x18 .u64 .rw .tenant).perBerth,
   (num 0x9003 0x9003 1 0x18 .u64 .ro .observer).perBerth,
   (num 0x9004 0x9004 1 0x18 .u8 .rw .tenant).perBerth,
   num 0x9100 0x9117 1 0x40 .u64 .ro .observer,
   (num 0xB000 0xB000 1 0x18 .u64 .rw .tenant).perBerth,
   ((num 0xB001 0xB001 1 0x18 .u16 .rw .tenant).rng 0 4096).perBerth,
   (num 0xB002 0xB002 1 0x18 .u64 .rw .tenant).perBerth,
   (((num 0xB003 0xB003 1 0x18 .u32 .rw .tenant).rng 1 60000).dft 1000).perBerth,
   (num 0xB010 0xB010 1 0x18 .u64 .rw .tenant).perBerth,
   (num 0xB011 0xB011 1 0x18 .u64 .ro .tenant).perBerth,
   (oct 0xB020 0xB023 1 0x18 .octets 16 16 .ro .observer).perBerth]

/-- Entries of 13 R387, R406 and R415. -/
def rowsIngest : List EntRow :=
  [(num 0x8000 0x8000 1 0x18 .u64 .ro .observer).perBerth,
   (oct 0x8001 0x8001 1 0x18 .octets 16 16 .ro .observer).perBerth,
   (num 0x8002 0x8002 1 0x18 .u64 .wo .tenant).perBerth,
   (((num 0x8003 0x8003 1 0x18 .u32 .rw .tenant).rng 1 600000).dft 10000).perBerth,
   (num 0x8010 0x8010 1 0x18 .u64 .rw .tenant).perBerth,
   ((num 0x8011 0x8011 1 0x18 .u16 .rw .tenant).rng 0 256).perBerth,
   oct 0x8040 0x8057 1 0x10 .octets 16 16 .rw .tenant,
   ((num 0xC000 0xC000 0 0 .u16 .rw .operator).rng 1024 65152).dft 40000,
   oct 0xC001 0xC001 1 4 .octets 16 16 .rw .operator,
   (num 0xC002 0xC002 1 4 .u16 .rw .operator).rng 0 4094,
   oct 0xC003 0xC003 1 4 .octets 16 16 .rw .operator,
   num 0xC010 0xC010 1 4 .u64 .ro .observer,
   (num 0xC100 0xC27F 1 1 .u8 .rw .observerTenant).rng 0 2,
   num 0xC100 0xC27F 2 2 .u8 .rw .observerTenant,
   num 0xC100 0xC27F 3 3 .u64 .rw .observerTenant,
   num 0xC100 0xC27F 4 7 .u32 .rw .observerTenant,
   oct 0xC100 0xC27F 8 8 .octets 16 16 .rw .observerTenant,
   num 0xC100 0xC27F 9 9 .u16 .rw .observerTenant,
   num 0xC100 0xC27F 0xA 0xA .u32 .rw .observerTenant,
   num 0xC100 0xC27F 0xB 0xB .u8 .rw .observerTenant,
   (num 0xC100 0xC27F 0xC 0xC .u32 .rw .observerTenant).dft 500,
   num 0xC100 0xC27F 0x10 0x10 .u8 .ro .observer,
   num 0xC100 0xC27F 0x11 0x11 .u32 .ro .observer,
   num 0xC100 0xC27F 0x12 0x16 .u64 .ro .observer]

/-- Every line of the entry tables. -/
def entryRows : List EntRow :=
  rowsIdentity ++ rowsCalPower ++ rowsBerths ++ rowsSnap ++ rowsFabric ++ rowsUnits ++ rowsKeeper ++ rowsIngest

/-- The line of an entry, `none` if no table names it (R500). -/
def entryRow (ix sub : Nat) : Option EntRow :=
  entryRows.find? fun e => decide (e.i0 ≤ ix) && decide (ix ≤ e.i1) && decide (e.s0 ≤ sub) && decide (sub ≤ e.s1)

/-- The berth that an entry belongs to (R487). -/
def EntRow.berthOf (e : EntRow) (ix sub : Nat) : Option Nat :=
  if e.berth then some (sub - 1)
  else if 0x4300 ≤ ix ∧ ix ≤ 0x4317 then some (ix - 0x4300)
  else if 0x8040 ≤ ix ∧ ix ≤ 0x8057 then some (ix - 0x8040)
  else if 0x9100 ≤ ix ∧ ix ≤ 0x9117 then some (ix - 0x9100)
  else if 0xC100 ≤ ix ∧ ix ≤ 0xC27F then some ((ix - 0xC100) / 16)
  else none

/-! Values. -/

/-- A value: a number (its bits, for a signed one) or bytes. -/
inductive EVal where
  | n (v : Nat)
  | b (v : Bytes)
deriving DecidableEq, Repr

/-- The bytes of a value as a message carries it: numbers big-endian (R483). -/
def EVal.wire (t : EType) : EVal → Bytes
  | .n v => beBytes (t.size.getD 0) v
  | .b v => v

/-- The bytes of a value as the mirror holds it: numbers little-endian (R509). -/
def EVal.stored (t : EType) : EVal → Bytes
  | .n v => leBytes (t.size.getD 0) v
  | .b v => v

/-- The value that a message's bytes give, if they keep the type and length (R482). -/
def EntRow.parse (e : EntRow) (b : Bytes) : Option EVal :=
  if b.length < e.lmin ∨ e.lmax < b.length then none
  else match e.typ.size with
    | some _ => if e.typ = .bool ∧ 1 < beNat b then none else some (.n (beNat b))
    | none => some (.b b)

/-- The capability table's words 0x000 to 0x033 (15 R446), with the module's function number 0. -/
def capBytes : Bytes :=
  [0x00010000, 0, 65536, 16384, 1048576, 262144, 48, 65536, 1024, 128, 16, 64, 0x1A10].flatMap (leBytes 4)

/-- An entry of the defect list (17 R521). -/
def DefectEnt.bytes (e : DefectEnt) : Bytes :=
  leBytes 1 e.kind ++ leBytes 1 e.die ++ leBytes 2 e.unit ++ leBytes 2 e.sub ++ leBytes 1 e.cause ++ leBytes 1 e.st ++
    leBytes 2 e.spare ++ zeros 2 ++ leBytes 4 e.dawnNo ++ leBytes 8 e.ptpNs ++ leBytes 4 e.detail ++ zeros 4

/-- The defect list (17 R520). -/
def State.defectBytes (s : State) : Bytes :=
  let d := s.defects
  [0x50, 0x56, 0x44, 0x4C] ++ leBytes 2 1 ++ leBytes 2 d.list.length ++ leBytes 2 d.factory ++ zeros 2 ++
    leBytes 4 s.boot.dawns ++ zeros 48 ++ d.list.flatMap DefectEnt.bytes

/-- The calibration entries in ascending order, with their lengths (R502). -/
def calEntries : List (Nat × Nat × Nat) :=
  [(0x2001, 1, 32, 256), (0x2002, 1, 32, 128), (0x2003, 1, 32, 512), (0x2004, 1, 24, 576), (0x2005, 1, 24, 92160),
   (0x2006, 0, 1, 64), (0x2007, 1, 32, 32)].flatMap fun r => (List.range r.2.2.1).map fun i => (r.1, r.2.1 + i, r.2.2.2)

/-- A calibration value: as written, or as at manufacture. -/
def State.calValue (s : State) (ix sub n : Nat) : Bytes :=
  (tfind s.dict.blobs (entryKey ix sub)).getD (padTo n (Config.calibration (entryKey ix sub)))

/-- The digest of the calibration set (0x2000:01), and that of the factory's. -/
def State.calDigest (s : State) : Bytes := sha384 (calEntries.flatMap fun e => s.calValue e.1 e.2.1 e.2.2)
def factoryCal : Bytes := sha384 (calEntries.flatMap fun e => padTo e.2.2 (Config.calibration (entryKey e.1 e.2.1)))

/-- The version of the oldest core image that runs (0xA000:02). -/
def State.coreVersion (s : State) : Nat :=
  ((List.range 24).map fun d => (s.berthOfDie d).elim s.fw.base s.fwOf).foldl min 0xFFFF

/-- `STATE` of a berth (14 R441). -/
def BerthLife.code : BerthLife → Nat
  | .absent => 0
  | .active => 1
  | .creating => 2
  | .resizing => 3
  | .resetting => 4
  | .dusk => 5
  | .faulted => 6

/-- `STATE` of a link port (12 R383). -/
def LinkLife.code : LinkLife → Nat
  | .down => 0
  | .training => 1
  | .discovery => 2
  | .active => 3
  | .disabled => 4
  | .instrument => 5

/-- The status word of a link port (0x5200). -/
def State.portStatus (s : State) (p : Nat) : Nat :=
  let l := s.link p
  l.life.code + (l.lanes.length % 16) * 2 ^ 3 + (if l.spare.isSome then 2 ^ 7 else 0) +
    ((s.portGang p).elim 0 fun g => g * 2 ^ 8 + 2 ^ 12) + l.peerNode % 4096 * 2 ^ 16

/-- Bytes of jobs on a port, for a reader's job or, without one, for all (R488): sent, received, and all other jobs. -/
def State.jobBytes (s : State) (p what : Nat) (job : Option Nat) : Nat :=
  let l := s.link p
  let sum := fun (t : Tbl (BitVec 64)) (f : Nat → Bool) => ((t.filter fun x => f x.1).map fun x => x.2.toNat).foldl (· + ·) 0
  let mine := fun j => job.elim true fun x => x == j
  (match what with
    | 0 => sum l.txBytes mine
    | 1 => sum l.rxBytes mine
    | _ => sum l.txBytes (fun j => !mine j) + sum l.rxBytes fun j => !mine j) % 2 ^ 64

/-- The state of a host port (0x1210): link, width, rate, host lost. -/
def State.hostPortWord (s : State) (h : Nat) : Nat :=
  let p := tget s.host.ports {} h
  (if p.up then 1 else 0) + p.width % 8 * 2 + p.rate % 256 * 2 ^ 8 + (if s.host.lost then 2 ^ 16 else 0)

/-- A sensor's value as an entry reports it. -/
def State.sensorBits (s : State) (ix sub : Nat) : Nat :=
  unsignedOf 32 (s.sensor ix sub (if ix = 0x3004 ∧ sub = 3 then 20000 else 0))

/-- The reading of entries 0x1000-0x2FFF. -/
def State.readIdentity (s : State) (ix sub : Nat) (e : EntRow) : EVal :=
  match ix with
  | 0x1000 => .b [0x50, 0x56, 0x32, 0x34, 0x36, 0x34, 0x2D, 0x4C, 0x43]
  | 0x1003 => .b (padTo 2048 Config.deviceCert)
  | 0x1004 => .b (padTo 4096 Config.issuerCerts)
  | 0x1100 => .b (padTo 64 capBytes)
  | 0x1200 => .n (if sub = 0 then s.lk.active.getD 0 else s.lk.standby)
  | 0x1201 => .n (if s.lk.service.isSome then 1 else 0)
  | 0x1202 => .n (if s.lk.seFailed then 1 else 0)
  | 0x1210 => .n (s.hostPortWord (sub - 1))
  | 0x1230 => .n s.lk.ptp
  | 0x1231 => .n s.ptpTime
  | 0x1320 => .n s.dict.sessions.length
  | 0x2000 => match sub with
    | 1 => .b s.calDigest
    | 2 => .n (if s.calDigest = factoryCal then 1 else 0)
    | _ => .n s.dict.calWrites
  | _ =>
    if 0x2001 ≤ ix ∧ ix ≤ 0x2007 then .b (s.calValue ix sub e.lmax)
    else if e.acc = .const then
      .b (if e.lmin = e.lmax then padTo e.lmax (Config.identity (entryKey ix sub)) else (Config.identity (entryKey ix sub)).take e.lmax)
    else if e.typ.size.isSome then .n (s.setting ix sub e.dflt)
    else .b ((tfind s.dict.blobs (entryKey ix sub)).getD (zeros e.lmin))

/-- The reading of entries 0x3000-0x4FFF. -/
def State.readBerths (s : State) (ix sub : Nat) (e : EntRow) : EVal :=
  match ix with
  | 0x3011 => .n s.power.level
  | 0x3012 => .n s.power.causes
  | 0x4000 => .n (diesMask ((List.range 24).filter s.dieFree))
  | 0x4002 => .n (s.berth (sub - 1)).life.code
  | 0x400A => .n (s.berth (sub - 1)).segs.toNat
  | 0x400B => .n Config.mailboxVa
  | _ =>
    if 0x3000 ≤ ix ∧ ix ≤ 0x3004 then .n (s.sensorBits ix sub)
    else if 0x4200 ≤ ix ∧ ix ≤ 0x423F then
      let g := s.seg (ix - 0x4200)
      match sub with
      | 1 => .n g.st
      | 6 => .n g.served.toNat
      | 7 => .n g.poisoned.toNat
      | _ => .n (s.setting ix sub 0)
    else if 0x4300 ≤ ix ∧ sub = 8 then .n (s.snap (ix - 0x4300)).phase
    else if 0x4300 ≤ ix ∧ 0x10 ≤ sub then .b (s.slotRecord (ix - 0x4300) (sub - 0x10))
    else if e.typ.size.isSome then .n (s.setting ix sub e.dflt)
    else .b (s.blob ix sub e.lmin)

/-- The reading of entries 0x5000-0x5FFF, for a reader's job. -/
def State.readFabric (s : State) (job : Option Nat) (ix sub : Nat) (e : EntRow) : EVal :=
  match ix with
  | 0x5000 => .n s.nodeId
  | 0x5100 => .b (s.plan sub).bytes
  | 0x5101 => .n (s.plan sub).st
  | 0x5102 => .b (leBytes 2 (s.plan sub).refusal ++ (s.plan sub).missing.flatMap (leBytes 1))
  | 0x5200 => .n (s.portStatus (sub - 1))
  | 0x5201 => .b (padTo 48 (s.link (sub - 1)).seen)
  | 0x5300 => .n s.fabric.ghost.toNat
  | 0x5301 => .n s.fabric.orphan.toNat
  | _ =>
    if 0x5210 ≤ ix ∧ ix ≤ 0x5212 then .n (s.jobBytes (sub - 1) (ix - 0x5210) job)
    else if 0x5800 ≤ ix then
      let p := ix - 0x5800
      if sub = 2 then .n (s.instPattern p)
      else if sub = 7 then .n (s.instOf p).st
      else if 0x20 ≤ sub then .b (padTo 8 (tget (s.instOf p).margins (zeros 8) (sub - 0x20)))
      else if 0x10 ≤ sub then .b (s.laneBytes p (sub - 0x10))
      else .n (s.setting ix sub 0)
    else .n (s.setting ix sub e.dflt)

/-- The reading of entries 0x6000-0x7FFF and 0xA000-0xAFFF. -/
def State.readUnits (s : State) (ix sub : Nat) (e : EntRow) : EVal :=
  let d := sub - 1
  match ix with
  | 0x6000 => .n (s.stack d).limit
  | 0x6001 => .n ((List.range 16).map fun g => (s.groupFree d g).length).sum
  | 0x6002 => .n ((s.stack d).pending.getD 0)
  | 0x7000 => .n s.boot.dawns
  | 0x7002 => .n s.boot.lastStart
  | 0x7003 => .n s.boot.durationMs
  | 0x7010 => .b ((List.range 16).flatMap fun c => leBytes 1 (s.physCore (16 * d + c)))
  | 0x7011 => .n (s.freeCores d).length
  | 0x7012 => .n (leNat (Config.identity (entryKey 0x7012 0)) % 65536)
  | 0x7020 => .n (s.attachments d)
  | 0x7030 =>
    let free := fun r => (railSpec r).1 - (s.phasesOutOf r).length - (railSpec r).2
    .n (free d + if d < 24 then free (32 + d) else 0)
  | 0x7100 => .b s.defectBytes
  | 0x7101 => .n s.defects.list.length
  | 0x7201 => .n s.defects.readmit
  | 0xA000 => .n (if sub = 1 then s.lk.version else s.coreVersion)
  | 0xA002 => .n (s.fwOf d)
  | 0xA012 => .n s.fw.st
  | 0xA013 => .n s.fw.rounds
  | 0xA014 => .n (tget s.fw.flagged 0 d)
  | 0xA016 => .n s.stagedVersion
  | _ => if e.typ.size.isSome then .n (s.setting ix sub e.dflt) else .b (s.blob ix sub e.lmin)

/-- The reading of entries 0x8000-0x9FFF and 0xB000-0xBFFF. -/
def State.readKeeper (s : State) (ix sub : Nat) (e : EntRow) : EVal :=
  let b := sub - 1
  match ix with
  | 0x8000 => .n (s.berth b).tally.toNat
  | 0x8001 => .b (leBytes 16 (s.berth b).ingest)
  | 0x9003 => .n (s.berth b).stepSeq.toNat
  | 0x9004 => .n (if (s.berth b).held then 1 else 0)
  | 0xB011 => .n Config.postVa
  | _ =>
    if 0x8040 ≤ ix ∧ ix ≤ 0x8057 then
      let w := s.skipWin (ix - 0x8040) sub
      .b (leBytes 8 w.1 ++ leBytes 8 w.2)
    else if 0x9100 ≤ ix ∧ ix ≤ 0x9117 then .n (s.counter (ix - 0x9100) (sub - 1)).toNat
    else if 0xB020 ≤ ix ∧ ix ≤ 0xB023 then
      .b (leBytes 16 (((s.berth b).dies.map fun d => tget (s.exch d).run 0 (ix - 0xB020)).foldl (· + ·) 0).toNat)
    else .n (s.setting ix sub e.dflt)

/-- The reading of entries 0xC000-0xCFFF. -/
def State.readIngest (s : State) (ix sub : Nat) (e : EntRow) : EVal :=
  if ix = 0xC010 then .n ((s.basin (sub - 1)).unmatched % 2 ^ 64)
  else if 0xC100 ≤ ix ∧ (sub = 1 ∨ 0x10 ≤ sub) then
    let x := s.strm ((ix - 0xC100) / 16) (ix % 16)
    .n (match sub with
      | 1 => x.enable
      | 0x10 => x.st
      | 0x11 => x.epoch
      | 0x12 => x.nextSeq
      | 0x13 => x.dropCrc % 2 ^ 64
      | 0x14 => x.dropOther % 2 ^ 64
      | 0x15 => x.breach % 2 ^ 64
      | _ => x.resends % 2 ^ 64)
  else if e.typ.size.isSome then .n (s.setting ix sub e.dflt)
  else .b (s.blob ix sub e.lmin)

/-- What an entry reads, for a reader's job. -/
def State.entryVal (s : State) (job : Option Nat) (ix sub : Nat) (e : EntRow) : EVal :=
  if ix < 0x3000 then s.readIdentity ix sub e
  else if ix < 0x5000 then s.readBerths ix sub e
  else if ix < 0x6000 then s.readFabric job ix sub e
  else if ix < 0x8000 then s.readUnits ix sub e
  else if ix < 0xA000 then s.readKeeper ix sub e
  else if ix < 0xB000 then s.readUnits ix sub e
  else if ix < 0xC000 then s.readKeeper ix sub e
  else s.readIngest ix sub e

/-- What reading an entry does: the peak of the input power starts anew (20 R580), and counts that are still running are
drawn anew (19 R563). -/
def State.entryRead (s : State) (ix sub : Nat) : State :=
  if ix = 0x3000 ∧ sub = 4 then { s with power := { s.power with sensors := tset s.power.sensors (entryKey 0x3000 4) 0 } }
  else if 0x5800 ≤ ix ∧ ix ≤ 0x5817 ∧ 0x10 ≤ sub then { s with free := s.free + 128 }
  else s

/-! The mirror (R508, R509). -/

/-- The entries of the mirror in ascending order: index, subindex and line. -/
def mirrorEntries : List (Nat × Nat × EntRow) :=
  (((entryRows.filter fun e => e.acc != .wo).flatMap fun e =>
    (List.range (e.i1 + 1 - e.i0)).flatMap fun i => (List.range (e.s1 + 1 - e.s0)).map fun j => (e.i0 + i, e.s0 + j, e))).mergeSort
      fun x y => decide (entryKey x.1 x.2.1 ≤ entryKey y.1 y.2.1)

/-- The bytes of the mirror as the lockkeeper keeps it up between changes. -/
def State.mirror (s : State) : Bytes :=
  let vals := mirrorEntries.map fun x => (x, (s.entryVal none x.1 x.2.1 x.2.2).stored x.2.2.typ)
  let n := vals.length
  let base := 64 + 16 * n
  let area := vals.flatMap Prod.snd
  let dir := vals.foldl (fun (a : Bytes × Nat) v =>
    (a.1 ++ leBytes 2 v.1.1 ++ leBytes 1 v.1.2.1 ++ leBytes 1 v.1.2.2.typ.code ++ leBytes 4 v.2.length ++ leBytes 4 a.2 ++ zeros 4,
      a.2 + v.2.length)) (([] : Bytes), base)
  [0x50, 0x56, 0x44, 0x4D] ++ leBytes 2 1 ++ zeros 2 ++ leBytes 8 s.dict.gen ++ leBytes 4 n ++ leBytes 4 64 ++ leBytes 4 base ++
    leBytes 4 area.length ++ leBytes 8 s.dict.mirrorTick ++ zeros 24 ++ dir.1 ++ area

end Sys2Proof.Machine
end

