-- ==== Sys2Proof/Machine/Dictionary.lean ====
section
/-!
DEFINITION. Writes to the object dictionary: roles, checks in their order, and what a write does (16 R484-R489, R499, R503).
-/

namespace Sys2Proof.Machine

/-! Sessions (R485, R494). -/

/-- Service state starts or ends, with its event (R485, R510). -/
def State.setService (s : State) (x : Option Nat) : State :=
  let t := { s with lk := { s.lk with service := x } }
  if s.lk.service.isSome = x.isSome then t else t.moduleEvent 0x0883 (if x.isSome then 1 else 0) 0

/-- A session ends, with what it staged and a service state that it set (R485, R494, R495). -/
def State.closeSession (s : State) (sid : Nat) : State :=
  let s := { s with dict := { s.dict with sessions := tdel s.dict.sessions sid } }
  if s.lk.service = some sid then s.setService none else s

/-- A session changed, if it is open. -/
def State.modSession (s : State) (sid : Nat) (f : SessSt → SessSt) : State :=
  match tfind s.dict.sessions sid with
  | some x => { s with dict := { s.dict with sessions := tset s.dict.sessions sid (f x) } }
  | none => s

/-! Admission (R486, R487, R499 steps 1 to 3). -/

/-- The rank that a role column asks for: reading, writing. -/
def ERole.rank : ERole → Nat × Nat
  | .observer => (1, 1)
  | .observerTenant => (1, 2)
  | .observerOperator => (1, 3)
  | .tenant => (2, 2)
  | .tenantReset => (2, 2)
  | .operator => (3, 3)
  | .keeper => (4, 4)

/-- The code that refuses a session an entry, 0 if it may reach it. `v` is the value of a write. -/
def State.mayReach (s : State) (x : SessSt) (ix sub : Nat) (e : EntRow) (write : Bool) (v : Option EVal) : Nat :=
  if x.role = 2 ∧ ((s.berth x.berth).life ≠ .active ∨ (e.berthOf ix sub).elim false fun b => b != x.berth) then 0x0807
  else if write ∧ x.role = 1 then 0x0806
  else if x.role < (if write then e.role.rank.2 else e.role.rank.1) then 0x0806
  else if write ∧ e.role = .tenantReset ∧ x.role = 2 ∧ v ≠ some (.n 3) then 0x0806
  else if write then
    match e.acc with
    | .ro => 0x0808
    | .const => 0x0808
    | .rws => if s.lk.service.isNone then 0x0809 else 0
    | _ => 0
  else if e.acc = .wo then 0x0808 else 0

/-- The job whose bytes a session reads (R488). -/
def State.readerJob (s : State) (x : SessSt) : Option Nat := if x.role = 2 then some (s.berth x.berth).job else none

/-- Reads an entry for a session: its code, its bytes. -/
def State.readEntry (s : State) (x : SessSt) (ix sub : Nat) : Nat × Bytes :=
  match entryRow ix sub with
  | none => (0x0805, [])
  | some e =>
    let c := s.mayReach x ix sub e false none
    if c ≠ 0 then (c, []) else (0, (s.entryVal (s.readerJob x) ix sub e).wire e.typ)

/-! What a write does. -/

/-- A setting takes its value. -/
def State.putEntry (s : State) (ix sub : Nat) : EVal → Nat × State
  | .n v => (0, s.putSetting ix sub v)
  | .b v => (0, s.putBlob ix sub v)

/-- A setting takes its value where a condition of the entry's table holds (`ENTRY_STATE`). -/
def State.putIf (s : State) (ok : Bool) (ix sub : Nat) (v : EVal) : Nat × State :=
  if ok then s.putEntry ix sub v else (0x080C, s)

/-- The number of a value, and its bytes. -/
def EVal.num : EVal → Nat
  | .n v => v
  | .b _ => 0
def EVal.bytes : EVal → Bytes
  | .n _ => []
  | .b v => v

/-- A write to a calibration entry (R503): counted and reported, and wear trends of units whose ageing baselines changed start
again. -/
def State.writeCal (s : State) (ix sub : Nat) (v : Bytes) : Nat × State :=
  let s := s.putBlob ix sub v
  let d := s.defects
  let s := { s with
    dict := { s.dict with calWrites := (s.dict.calWrites + 1) % 2 ^ 32 },
    defects := if ix = 0x2003 then { d with warned := d.warned.filter fun w => w.2 / 2 ^ 8 % 2 ^ 8 != sub - 1 } else d }
  (0, s.moduleEvent 0x0880 (entryKey ix sub) 0)

/-- A role-table record within its ranges (R501). -/
def roleRecOk (v : Bytes) : Bool := decide (leAt v 48 1 ≤ 3) && decide (leAt v 49 1 ≤ 23) && leAt v 50 2 == 0

/-- A write of an address that must be aligned and translate to the berth's own stack or DSM; its first unit is checked
(R499 steps 5 and 7; 10 R284, R301, 13 R409). -/
def State.putBase (s : State) (ix sub v align unit : Nat) : Nat × State :=
  if v = 0 then (0, s.putSetting ix sub v)
  else if v % align ≠ 0 ∨ 2 ^ 57 ≤ v then (0x080B, s)
  else if !s.ownRange (sub - 1) v unit then (0x080D, s)
  else (0, s.putSetting ix sub v)

/-- A write to 0x1000-0x2FFF, by a session. -/
def State.applyIdentity (s : State) (sid ix sub : Nat) (v : EVal) : Nat × State :=
  if ix = 0x1201 then
    (0, if v.num = 1 then s.setService (some sid) else s.setService none)
  else if ix = 0x1310 then if roleRecOk v.bytes then s.putEntry ix sub v else (0x080B, s)
  else if 0x2001 ≤ ix ∧ ix ≤ 0x2007 then s.writeCal ix sub v.bytes
  else s.putEntry ix sub v

/-- A write to 0x3000-0x4FFF. -/
def State.applyBerths (s : State) (ix sub : Nat) (v : EVal) : Nat × State :=
  let b := sub - 1
  let k := ix - 0x4200
  match ix with
  | 0x4001 => s.writeBerthCmd b v.num
  | 0x4003 => s.putIf ((s.berth b).life == .absent) ix sub v
  | 0x4005 => s.putIf ((s.berth b).life == .absent) ix sub v
  | 0x4006 => s.putIf ((s.berth b).life == .absent) ix sub v
  | 0x4007 => s.putIf ((s.berth b).life == .absent) ix sub v
  | 0x400A => s.writeJoin b (BitVec.ofNat 64 v.num)
  | _ =>
    if 0x4200 ≤ ix ∧ ix ≤ 0x423F then
      match sub with
      | 2 => s.writeSegCmd k v.num
      | 5 => s.putIf ((s.seg k).st == 0 || (s.seg k).st == 3) ix sub v
      | _ => s.putIf ((s.seg k).st == 0) ix sub v
    else if 0x4300 ≤ ix then
      let b := ix - 0x4300
      if 3 ≤ sub ∧ sub ≤ 5 then s.writeArea b sub v.num
      else if sub = 6 then s.writeSnap b v.num
      else if 0x18 ≤ sub then s.writeReplica b (sub - 0x18) (leAt v.bytes 0 8) (leAt v.bytes 8 16)
      else if sub = 0xC ∧ s.udpBase ≤ v.num ∧ v.num ≤ s.udpBase + 383 then (0x0A00, s)
      else s.putEntry ix sub v
    else s.putEntry ix sub v

/-- A write to 0x5000-0x5FFF. -/
def State.applyFabric (s : State) (ix sub : Nat) (v : EVal) : Nat × State :=
  if ix = 0x5100 then s.writePlan sub v.bytes
  else if ix = 0x5101 then
    match v.num with
    | 1 => s.activatePlan sub
    | 2 => s.withdrawPlan sub
    | _ => (0x080B, s)
  else if 0x5800 ≤ ix then s.writeInst (ix - 0x5800) sub v.num
  else s.putEntry ix sub v

/-- A write to 0x6000-0x7FFF or 0xA000-0xAFFF. -/
def State.applyUnits (s : State) (ix sub : Nat) (v : EVal) : Nat × State :=
  let r := v.bytes
  let asked := fun (f : Nat → Nat → Nat → Nat → Nat × State) =>
    if leAt r 6 2 ≠ 0 then (0x080B, s)
    else
      let a := f (leAt r 0 1) (leAt r 1 1) (leAt r 2 2) (leAt r 4 2)
      (a.1, if a.1 = 0 then a.2.putBlob ix sub r else a.2)
  match ix with
  | 0x7001 => s.writeStart v.num
  | 0x7200 => asked s.writeReadmit
  | 0x7202 => asked s.writeDeclare
  | 0xA010 => s.stageImage r
  | 0xA011 => s.writeFw v.num
  | _ => s.putEntry ix sub v

/-- A write to 0x8000-0x9FFF or 0xB000-0xBFFF. -/
def State.applyKeeper (s : State) (ix sub : Nat) (v : EVal) : Nat × State :=
  match ix with
  | 0x8002 => s.writeRewind (sub - 1) v.num
  | 0x8010 => s.putBase ix sub v.num 4096 32
  | 0x9000 => s.putBase ix sub v.num 4096 64
  | 0x9002 => s.putBase ix sub v.num 2048 2048
  | 0x9004 => (0, if v.num = 0 then s.release (sub - 1) else s)
  | _ =>
    if 0x8040 ≤ ix ∧ ix ≤ 0x8057 then s.writeSkip (ix - 0x8040) sub (leAt v.bytes 0 8) (leAt v.bytes 8 8)
    else s.putEntry ix sub v

/-- A write to 0xC000-0xCFFF. -/
def State.applyIngest (s : State) (ix sub : Nat) (v : EVal) : Nat × State :=
  if 0xC100 ≤ ix then
    let b := (ix - 0xC100) / 16
    if sub = 1 then s.writeEnable b (ix % 16) v.num
    else if (s.strm b (ix % 16)).enable ≠ 0 then (0x0640, s)
    else s.putEntry ix sub v
  else s.putEntry ix sub v

/-- A value accepted so far meets its owner's checks and takes effect (R499 steps 6 to 8). -/
def State.applyEntry (s : State) (sid ix sub : Nat) (v : EVal) : Nat × State :=
  if ix < 0x3000 then s.applyIdentity sid ix sub v
  else if ix < 0x5000 then s.applyBerths ix sub v
  else if ix < 0x6000 then s.applyFabric ix sub v
  else if ix < 0x8000 then s.applyUnits ix sub v
  else if ix < 0xA000 then s.applyKeeper ix sub v
  else if ix < 0xB000 then s.applyUnits ix sub v
  else if ix < 0xC000 then s.applyKeeper ix sub v
  else s.applyIngest ix sub v

/-- Whether a value lies in the range of its line. -/
def EntRow.inRange (e : EntRow) (v : EVal) : Bool :=
  match e.range, v with
  | some (lo, hi), .n x => decide (lo ≤ x) && decide (x ≤ hi)
  | _, _ => true

/-- A session's write of bytes to an entry: the checks of R499 in their order, then its effect. -/
def State.writeEntry (s : State) (sid : Nat) (x : SessSt) (ix sub : Nat) (raw : Bytes) : Nat × State :=
  match entryRow ix sub with
  | none => (0x0805, s)
  | some e =>
    let c := s.mayReach x ix sub e true (e.parse raw)
    if c ≠ 0 then (c, s)
    else
      match e.parse raw with
      | none => (0x080A, s)
      | some v =>
        if !e.inRange v then (if 0x4300 ≤ ix ∧ ix ≤ 0x4317 then 0x0A00 else 0x080B, s)
        else
          let r := s.applyEntry sid ix sub v
          (r.1, if r.1 = 0 then { r.2 with dict := { r.2.dict with changed := true } } else r.2)

/-- A write that a command makes for an open session, and its code as the answer. -/
def State.bySession (s : State) (sid ix sub : Nat) (raw : Bytes) : State :=
  s.byDict ix sub fun t => match tfind t.dict.sessions sid with
    | some x => t.writeEntry sid x ix sub raw
    | none => (0x0802, t)

/-- `SERVICE_STATE_WRITE`: a session writes 0x1201:00 (R485). -/
def execServiceStateWrite (session v : Nat) (s : State) : Result := .next (s.bySession session 0x1201 0 (leBytes 1 v))

/-- `CALIBRATION_WRITE`: a session writes a calibration value (R502, R503). -/
def execCalibrationWrite (session ix sub : Nat) (value : Bytes) (s : State) : Result :=
  .next (if 0x2001 ≤ ix ∧ ix ≤ 0x2007 then s.bySession session ix sub value else s)

end Sys2Proof.Machine
end

