-- ==== Sys2Proof/Machine/Thinil.lean ====
section
/-!
DEFINITION. Thinil messages: transports, sessions, ticks, answers (16 R489-R498).
-/

namespace Sys2Proof.Machine

/-- The most body bytes of a transport (R493). -/
def maxBody (port : Nat) : Nat := if port = 97 then 48 else 1184

/-- A message: header and body (R493). -/
def thnMsg (typ sid seq code : Nat) (body : Bytes) : Bytes :=
  [1] ++ beBytes 1 typ ++ [0, 0] ++ beBytes 4 sid ++ beBytes 4 seq ++ beBytes 2 body.length ++ beBytes 2 code ++ body

/-- A value with its padding to a multiple of 4 bytes. -/
def padded (v : Bytes) : Bytes := v ++ zeros ((4 - v.length % 4) % 4)

/-- What a request's body comes to: the code of the whole message, the answer's body, the state. -/
structure ThnRes where
  code : Nat := 0
  body : Bytes := []
  state : State

/-! Reading and writing (R493, R495). -/

/-- The items of a `READ`: each value as far as the answer has room for it. -/
def State.readItems (s : State) (sid : Nat) : Nat → Nat → Bytes → Bytes × State
  | 0, _, _ => ([], s)
  | n + 1, room, b =>
    match tfind s.dict.sessions sid with
    | none => ([], s)
    | some x =>
      let ix := beAt b 0 2
      let sub := beAt b 2 1
      let r := s.readEntry x ix sub
      let size := (padded r.2).length
      let long := r.1 == 0 && decide (room < size)
      let code := if long then 0x080E else r.1
      let val := if code = 0 then padded r.2 else []
      let t := if code = 0 then s.entryRead ix sub else s
      let rest := t.readItems sid n (room - val.length) (b.drop 4)
      (b.take 4 ++ beBytes 2 code ++ beBytes 2 (if code = 0 ∨ long then r.2.length else 0) ++ val ++ rest.1, rest.2)

/-- `READ`. -/
def State.thnRead (s : State) (sid port : Nat) (b : Bytes) : ThnRes :=
  let n := beAt b 0 2
  if n = 0 ∨ 16 < n ∨ b.length ≠ 4 + 4 * n ∨ beAt b 2 2 ≠ 0 ∨ (List.range n).any (fun i => beAt b (7 + 4 * i) 1 != 0) ∨
      maxBody port < 4 + 8 * n then { code := 0x0800, state := s }
  else
    let r := s.readItems sid n (maxBody port - 4 - 8 * n) (b.drop 4)
    { body := b.take 4 ++ r.1, state := r.2 }

/-- The items of a `WRITE`: index, subindex, value; `none` if the body breaks R493. -/
def writeItems : Nat → Bytes → Option (List (Nat × Nat × Bytes))
  | 0, b => if b.isEmpty then some [] else none
  | n + 1, b =>
    let len := beAt b 4 2
    let v := (b.drop 8).take len
    let size := (padded v).length
    if b.length < 8 + len ∨ beAt b 3 1 ≠ 0 ∨ beAt b 6 2 ≠ 0 ∨ (b.drop 8).take size ≠ padded v then none
    else (writeItems n (b.drop (8 + size))).map fun r => (beAt b 0 2, beAt b 2 1, v) :: r

/-- Writes items in order; a failure of one leaves the others unaffected (R499). -/
def State.applyItems (s : State) (sid : Nat) : List (Nat × Nat × Bytes) → Bytes × State
  | [] => ([], s)
  | i :: r =>
    let w := match tfind s.dict.sessions sid with
      | some x => s.writeEntry sid x i.1 i.2.1 i.2.2
      | none => (0x0802, s)
    let rest := w.2.applyItems sid r
    (beBytes 2 i.1 ++ beBytes 1 i.2.1 ++ [0] ++ beBytes 2 w.1 ++ [0, 0] ++ rest.1, rest.2)

/-- `WRITE`. -/
def State.thnWrite (s : State) (sid port : Nat) (b : Bytes) : ThnRes :=
  let n := beAt b 0 2
  if n = 0 ∨ 16 < n ∨ b.length < 4 ∨ beAt b 2 2 ≠ 0 ∨ maxBody port < 4 + 8 * n then { code := 0x0800, state := s }
  else
    match writeItems n (b.drop 4) with
    | none => { code := 0x0800, state := s }
    | some l =>
      let r := s.applyItems sid l
      { body := b.take 4 ++ r.1, state := r.2 }

/-- `READ_SEG`. -/
def State.thnReadSeg (s : State) (x : SessSt) (port : Nat) (b : Bytes) : ThnRes :=
  let off := beAt b 4 4
  let len := beAt b 8 2
  if b.length ≠ 12 ∨ beAt b 3 1 ≠ 0 ∨ beAt b 10 2 ≠ 0 ∨ maxBody port < 16 + (padded (zeros len)).length then
    { code := 0x0800, state := s }
  else
    let ix := beAt b 0 2
    let sub := beAt b 2 1
    let r := s.readEntry x ix sub
    let code := if r.1 = 0 ∧ r.2.length < off + len then 0x080E else r.1
    let data := if code = 0 then (r.2.drop off).take len else []
    { body := b.take 4 ++ beBytes 2 code ++ [0, 0] ++ beBytes 4 r.2.length ++ beBytes 2 data.length ++ [0, 0] ++ padded data,
      state := if code = 0 then s.entryRead ix sub else s }

/-- The byte at an offset of a staged value: the newest piece that holds it. -/
def stagedAt (pieces : List (Nat × Bytes)) (i : Nat) : Option Byte :=
  match pieces with
  | [] => none
  | p :: r => if p.1 ≤ i ∧ i < p.1 + p.2.length then p.2[i - p.1]? else stagedAt r i

/-- A staged value, if its pieces cover it. -/
def stagedValue (pieces : List (Nat × Bytes)) (total : Nat) : Option Bytes := (List.range total).mapM (stagedAt pieces)

/-- `WRITE_SEG`: a segment is staged; a final one that completes the value writes it (R495). A segment of another entry or
another `TOTAL` discards what is staged, and is refused as a second staged value. -/
def State.thnWriteSeg (s : State) (sid : Nat) (x : SessSt) (b : Bytes) : ThnRes :=
  let ix := beAt b 0 2
  let sub := beAt b 2 1
  let off := beAt b 4 4
  let total := beAt b 8 4
  let len := beAt b 12 2
  let data := (b.drop 16).take len
  if b.length < 16 + len ∨ beAt b 3 1 ≠ 0 ∨ 1 < beAt b 14 2 ∨ b.drop 16 ≠ padded data then { code := 0x0800, state := s }
  else
    let answer := fun (c : Nat) (t : State) => ({ body := b.take 4 ++ beBytes 2 c ++ [0, 0], state := t } : ThnRes)
    let early := match entryRow ix sub with
      | none => 0x0805
      | some e =>
        let c := s.mayReach x ix sub e true (some (.n 3))
        if c ≠ 0 then c
        else if total < e.lmin ∨ e.lmax < total then 0x080A
        else if total < off + len then 0x080E else 0
    let other := x.staged.elim false fun g => g.1 != entryKey ix sub || g.2.1 != total
    if early ≠ 0 then answer early s
    else if other then { code := 0x0804, state := s.modSession sid fun y => { y with staged := none } }
    else
      let pieces := (off, data) :: (x.staged.elim [] fun g => g.2.2)
      match beAt b 14 2, stagedValue pieces total with
      | 1, some v =>
        let r := (s.modSession sid fun y => { y with staged := none }).writeEntry sid x ix sub v
        answer r.1 r.2
      | _, _ => answer 0 (s.modSession sid fun y => { y with staged := some (entryKey ix sub, total, pieces) })

/-! Sessions (R489, R494, R496). -/

/-- The role and berth that the transport gives a session, 0 if none (R489). -/
def State.grantOf (s : State) (port conn : Nat) : Nat × Nat :=
  if port = 97 then (3, 0)
  else match tfind s.dict.conns conn with
    | none => (0, 0)
    | some c =>
      if Config.clientChain (c.leaf ++ c.chain) (padTo 2048 (Config.identity (entryKey 0x1301 0))) then (4, 0)
      else if (List.range 4).any fun i => !(s.blob 0x1300 (i + 1) 0).isEmpty &&
          Config.clientChain (c.leaf ++ c.chain) (s.blob 0x1300 (i + 1) 0) then
        match ((List.range 64).map fun i => s.blob 0x1310 (i + 1) 52).find? fun r => leAt r 48 1 != 0 && r.take 48 == sha384 c.leaf with
        | some r => (leAt r 48 1, leAt r 49 1)
        | none => (0, 0)
      else (0, 0)

/-- `OPEN`: the state and the answer. A tenant's session needs the berth of its role-table entry. -/
def State.thnOpen (s : State) (m : ThnMsg) : State × Bytes :=
  let b := m.msg.drop 16
  let seq := beAt m.msg 8 4
  let role := beAt b 0 1
  let g := s.grantOf m.port m.conn
  if beAt m.msg 4 4 ≠ 0 ∨ b.length ≠ 4 ∨ beAt b 1 3 ≠ 0 ∨ role = 0 ∨ 4 < role then (s, thnMsg 0x81 (beAt m.msg 4 4) seq 0x0800 [])
  else if g.1 < role ∨ (role = 2 ∧ g.1 ≠ 2) then (s, thnMsg 0x81 0 seq 0x0806 [])
  else if 32 ≤ s.dict.sessions.length then (s, thnMsg 0x81 0 seq 0x0804 [])
  else
    let n := s.dict.sessNext
    let x : SessSt := { port := m.port, conn := m.conn, role := role, berth := if role = 2 then g.2 else 0,
                        subscribe := beAt m.msg 2 2 == 1 }
    ({ s with dict := { s.dict with sessions := tset s.dict.sessions n x, sessNext := n + 1 } },
      thnMsg 0x81 n seq 0 (beBytes 2 (maxBody m.port) ++ beBytes 2 100))

/-- Whether every request of a session is refused: its berth is not active (R489). -/
def State.scopeLost (s : State) (x : SessSt) : Bool := x.role == 2 && (s.berth x.berth).life != .active

/-- What a request of an open session comes to. -/
def State.thnDo (s : State) (sid : Nat) (x : SessSt) (typ : Nat) (body : Bytes) : ThnRes :=
  match typ with
  | 0x10 => s.thnRead sid x.port body
  | 0x11 => s.thnWrite sid x.port body
  | 0x12 => s.thnReadSeg x x.port body
  | 0x13 => s.thnWriteSeg sid x body
  | _ =>
    if !body.isEmpty then { code := 0x0800, state := s }
    else if s.scopeLost x then { code := 0x0807, state := s }
    else { state := s }

/-- Handles one message: the state and the answer (R493-R496). -/
def State.thnHandle (s : State) (m : ThnMsg) : State × Bytes :=
  let h := m.msg
  let typ := beAt h 1 1
  let sid := beAt h 4 4
  let seq := beAt h 8 4
  let body := h.drop 16
  let no := fun (c : Nat) => (s, thnMsg (typ ||| 0x80) sid seq c [])
  if beAt h 0 1 ≠ 1 then no 0x0801
  else if h.length < 16 ∨ beAt h 12 2 ≠ body.length ∨ maxBody m.port < body.length ∨ beAt h 14 2 ≠ 0 ∨
      !([1, 2, 3, 0x10, 0x11, 0x12, 0x13].contains typ) ∨ (if typ = 1 then 1 else 0) < beAt h 2 2 then no 0x0800
  else if typ = 1 then s.thnOpen m
  else
    match tfind s.dict.sessions sid with
    | none => no 0x0802
    | some x =>
      if x.port ≠ m.port ∨ x.conn ≠ m.conn then no 0x0802
      else match x.kept.find? fun p => p.1 == seq with
        | some p => (s, p.2)
        | none =>
          if !x.kept.isEmpty && x.kept.all (fun p => decide (seq ≤ p.1)) then no 0x0803
          else
            let r := s.thnDo sid x typ body
            let ans := thnMsg (typ ||| 0x80) sid seq r.code r.body
            let t := r.state.modSession sid fun y => { y with kept := (y.kept ++ [(seq, ans)]).drop (y.kept.length + 1 - 64) }
            (if typ = 2 ∧ r.code = 0 then t.closeSession sid else t, ans)

/-- Sends an answer on its transport (R490, R492). -/
def State.thnAnswer (s : State) (m : ThnMsg) (ans : Bytes) : State :=
  if m.port = 97 then
    s.mbReply 97 (beAt ans 14 2) ((List.range ((ans.length + 3) / 4)).map fun i => leAt ans (4 * i) 4)
  else s.emit { kind := .thinil, port := m.port, args := [m.conn], data := ans }

/-! Transports and ticks (R490, R497, R508, R509). -/

/-- Whether a towpath port serves: its link is up and its lockkeeper is the active one, or a standby that relays (R490). -/
def State.tpServes (s : State) (port : Nat) : Bool :=
  decide (port < 2) && s.up && !s.dict.tpDown.contains port && s.lk.active.isSome &&
    (s.lk.active == some (27 + 4 * port) || s.lk.standby != 0)

/-- A message of a type arrives on a connection of a towpath port. -/
def State.thnIn (s : State) (typ port conn : Nat) (msg : Bytes) : State :=
  if s.tpServes port ∧ (tfind s.dict.conns conn).elim false (fun c => c.port == port) ∧ beAt msg 1 1 = typ then
    { s with dict := { s.dict with inbox := s.dict.inbox ++ [{ port := port, conn := conn, msg := msg }] } }
  else s

/-- `OPEN` on a towpath connection; over mailbox 97 messages come by `MAILBOX_SUBMIT`. -/
def execOpenSession (port conn : Nat) (msg : Bytes) (s : State) : Result := .next (s.thnIn 0x01 port conn msg)

/-- `CLOSE` arrives. -/
def execCloseSession (port conn : Nat) (msg : Bytes) (s : State) : Result := .next (s.thnIn 0x02 port conn msg)

/-- `PING` arrives. -/
def execPing (port conn : Nat) (msg : Bytes) (s : State) : Result := .next (s.thnIn 0x03 port conn msg)

/-- `READ` arrives. -/
def execReadEntry (port conn : Nat) (msg : Bytes) (s : State) : Result := .next (s.thnIn 0x10 port conn msg)

/-- `WRITE` arrives. -/
def execWriteEntry (port conn : Nat) (msg : Bytes) (s : State) : Result := .next (s.thnIn 0x11 port conn msg)

/-- `READ_SEG` arrives. -/
def execReadSeg (port conn : Nat) (msg : Bytes) (s : State) : Result := .next (s.thnIn 0x12 port conn msg)

/-- `WRITE_SEG` arrives. -/
def execWriteSeg (port conn : Nat) (msg : Bytes) (s : State) : Result := .next (s.thnIn 0x13 port conn msg)

/-- A message's place in its tick (R497): session, then `SEQ`. -/
def ThnMsg.key (m : ThnMsg) : Nat := beAt m.msg 4 4 * 2 ^ 32 + beAt m.msg 8 4

/-- Puts a message after those of lower or equal place. -/
def thnInsert (m : ThnMsg) : List ThnMsg → List ThnMsg
  | [] => [m]
  | a :: r => if m.key < a.key then m :: a :: r else a :: thnInsert m r

/-- The messages of a tick by place, equal ones as they arrived (R497). -/
def thnSort (l : List ThnMsg) : List ThnMsg := l.foldl (fun a m => thnInsert m a) []

/-- Handles a message of a tick, unless its connection has gone or the module starts anew. -/
def State.thnTurn (s : State) (m : ThnMsg) : State :=
  if !s.up || s.lk.active.isNone || (m.port != 97 && (tfind s.dict.conns m.conn).isNone) then s
  else
    let r := s.thnHandle m
    r.1.thnAnswer m r.2

/-- `DICTIONARY_TICK`: the messages of the tick are processed in order, and the mirror changes if an entry has: by a write of
the tick, or by the module itself, as the command says (R497, R509). -/
def execDictionaryTick (changed : Bool) (s : State) : Result :=
  .next (
    if !s.up ∨ s.lk.active.isNone then s
    else
      let l := thnSort s.dict.inbox
      let s : State := { s with dict := { s.dict with inbox := [], tick := s.dict.tick + 1 } }
      let s : State := forL l s fun m t => t.thnTurn m
      if changed ∨ s.dict.changed then
        { s with dict := { s.dict with changed := false, gen := s.dict.gen + 2, mirrorTick := s.dict.tick } }
      else s)

/-- `SESSION_IDLE_TIMEOUT`: a session has sent nothing for 60 s (R494). -/
def execSessionIdleTimeout (session : Nat) (s : State) : Result :=
  .next (if (tfind s.dict.sessions session).isSome then s.closeSession session else s)

/-- `STAGE_TIMEOUT`: 10 s have passed without a segment of a staged value (R495). -/
def execStageTimeout (session : Nat) (s : State) : Result :=
  .next (s.modSession session fun x => { x with staged := none })

end Sys2Proof.Machine
end

