-- ==== Sys2Proof/Machine/Identity.lean ====
section
/-!
DEFINITION. Identity and the networks beside Thinil: DTLS handshakes, Neighbor Discovery and echoes, PTP, the secure element,
MCTP and SPDM (16 R490, R491, R504-R507, R511; 13 R385). The answers hold what the manual gives; their encoding is that of the
published standards.
-/

namespace Sys2Proof.Machine

/-! The IPv6 ports (13 R385, 16 R490). -/

/-- The address of a port that is up, if one is set: basin ports 0 to 3, towpath ports 0 and 1. -/
def State.ipOf (s : State) (towpath : Bool) (port : Nat) : Option Bytes :=
  let a := if towpath then s.blob 0x1220 (port + 1) 16 else s.blob 0xC001 (port + 1) 16
  let live := if towpath then s.tpServes port else s.up && decide (port < 4) && (s.basin port).up
  if live && a.any (fun x => x != 0) then some a else none

/-- `ICMPV6_ECHO_REQUEST`: an echo request to a port's address is answered with its payload. -/
def execIcmpv6EchoRequest (towpath : Bool) (port : Nat) (src dst payload : Bytes) (s : State) : Result :=
  .next (if s.ipOf towpath port = some dst then
      s.emit { kind := .icmp, port := port, args := [if towpath then 1 else 0, 129], data := dst ++ src ++ payload }
    else s)

/-- `NEIGHBOR_SOLICITATION`: a solicitation of a port's address is answered with an advertisement. -/
def execNeighborSolicitation (towpath : Bool) (port : Nat) (src target : Bytes) (s : State) : Result :=
  .next (if s.ipOf towpath port = some target then
      s.emit { kind := .icmp, port := port, args := [if towpath then 1 else 0, 136], data := target ++ src }
    else s)

/-! The towpath (R489, R490). -/

/-- `TOWPATH_HANDSHAKE`: a client with a certificate chain asks for connection `conn` of a port. `proof` tells whether the
client has shown that it holds the key of its leaf certificate. The module signs with its device key; a client whose chain
leads neither to the keeper root nor to a trust anchor is refused (R489, R490, R504, R511). -/
def execTowpathHandshake (port conn : Nat) (leaf chain : Bytes) (proof : Bool) (s : State) : Result :=
  let root := padTo 2048 (Config.identity (entryKey 0x1301 0))
  let anchored := (List.range 4).any fun i => !(s.blob 0x1300 (i + 1) 0).isEmpty &&
    Config.clientChain (leaf ++ chain) (s.blob 0x1300 (i + 1) 0)
  .next (
    if !s.tpServes port ∨ (tfind s.dict.conns conn).isSome then s
    else if s.lk.seFailed ∨ 32 ≤ s.dict.conns.length then s.emit { kind := .dtls, port := port, args := [conn, 0] }
    else if !proof ∨ !(Config.clientChain (leaf ++ chain) root || anchored) then
      (s.moduleEvent 0x0881 port 0).emit { kind := .dtls, port := port, args := [conn, 0] }
    else
      ({ s with dict := { s.dict with conns := tset s.dict.conns conn { port := port, leaf := leaf, chain := chain } } }).emit
        { kind := .dtls, port := port, args := [conn, 1] })

/-- Connections and sessions of a towpath port end. -/
def State.dropPort (s : State) (port : Nat) : State :=
  let gone := (s.dict.sessions.filter fun p => p.2.port == port).map Prod.fst
  let s := forL gone s fun sid t => t.closeSession sid
  { s with dict := { s.dict with
    conns := s.dict.conns.filter fun p => p.2.port != port, inbox := s.dict.inbox.filter fun m => m.port != port } }

/-- `TOWPATH_PORT_LINK_CHANGE`: a towpath port goes down, and sessions on it lose their transport, or comes back (R485). -/
def execTowpathPortLinkChange (port : Nat) (up : Bool) (s : State) : Result :=
  .next (
    if 2 ≤ port then s
    else if up then { s with dict := { s.dict with tpDown := s.dict.tpDown.filter fun p => p != port } }
    else if s.dict.tpDown.contains port then s
    else
      let s := s.dropPort port
      { s with dict := { s.dict with tpDown := s.dict.tpDown ++ [port] } })

/-! PTP (R490, R491). -/

/-- The PTP state changes; leaving the locked state is reported (R510). -/
def State.setPtp (s : State) (p : Nat) : State :=
  let t := { s with lk := { s.lk with ptp := p } }
  if s.lk.ptp = 2 ∧ p ≠ 2 then t.moduleEvent 0x0884 0 0 else t

/-- `PTP_MESSAGE`: a message of a master in the domain of 0x1232:00: type 0x0 Sync, 0x8 Follow_Up, 0x9 Delay_Resp, 0xB Announce.
`locked` and `ns` are what the clock comes to with it: whether it is locked, and its time. A Sync or Follow_Up lets the clock
send its Delay_Req (R490). -/
def execPtpMessage (port typ domain ns : Nat) (locked : Bool) (s : State) : Result :=
  .next (
    if !s.tpServes port ∨ domain ≠ s.setting 0x1232 0 0 then s
    else if typ = 0xB then if s.lk.ptp = 0 then s.setPtp 1 else s
    else if (typ = 0 ∨ typ = 8 ∨ typ = 9) ∧ s.lk.ptp ≠ 0 then
      let s := s.setPtp (if locked then 2 else 1)
      let s := { s with lk := { s.lk with ptpNs := ns } }
      if typ = 9 then s else s.emit { kind := .ptp, port := port, args := [1, domain] }
    else s)

/-- `PTP_MASTER_LOST`: messages of the master stop (R511). -/
def execPtpMasterLost (s : State) : Result := .next (s.setPtp 0)

/-- `SECURE_ELEMENT`: the secure element stops answering (R511). -/
def execSecureElement (s : State) : Result :=
  .next (if s.lk.seFailed then s else ({ s with lk := { s.lk with seFailed := true } }).moduleEvent 0x0882 0 0)

/-! MCTP control (R506). -/

/-- Whether the endpoint of a host port answers. -/
def State.mctpUp (s : State) (port : Nat) : Bool := s.up && decide (port < 2) && (s.hostPort port).up

/-- Answers on the MCTP endpoint of a host port. -/
def State.mctpSay (s : State) (port : Nat) (args : List Nat) (data : Bytes := []) : State :=
  s.emit { kind := .mctp, port := port, args := args, data := data }

/-- `SET_ENDPOINT_ID`: the bus owner sets the endpoint ID (operation 0, or forced, 1). Values 0 and 0xFF are no endpoint IDs,
and other operations are for endpoints of other kinds. -/
def execSetEndpointId (port op eid : Nat) (s : State) : Result :=
  .next (
    if !s.mctpUp port then s
    else if 1 < op ∨ eid = 0 ∨ 0xFF ≤ eid then s.mctpSay port [0x01, 2]
    else (s.modPort port fun x => { x with eid := eid }).mctpSay port [0x01, 0, eid])

/-- `GET_ENDPOINT_ID`. -/
def execGetEndpointId (port : Nat) (s : State) : Result :=
  .next (if s.mctpUp port then s.mctpSay port [0x02, 0, (s.hostPort port).eid] else s)

/-- `GET_MCTP_VERSION_SUPPORT`: for the base (0xFF), control (0) and SPDM (5); any other type is not supported. -/
def execGetMctpVersionSupport (port typ : Nat) (s : State) : Result :=
  .next (
    if !s.mctpUp port then s
    else if typ = 0 ∨ typ = 5 ∨ typ = 0xFF then s.mctpSay port [0x04, 0] (Config.mctpVersions typ)
    else s.mctpSay port [0x04, 0x80])

/-- `GET_MESSAGE_TYPE_SUPPORT`: control and SPDM. -/
def execGetMessageTypeSupport (port : Nat) (s : State) : Result :=
  .next (if s.mctpUp port then s.mctpSay port [0x05, 0] [0, 5] else s)

/-! SPDM (R506, R507). -/

/-- Whether the responder answers: its endpoint is up, and a lockkeeper, which owns the identity, runs. -/
def State.spdmUp (s : State) (port : Nat) : Bool := s.mctpUp port && s.lk.active.isSome

/-- The state with the negotiation of a port changed. -/
def State.modSpdm (s : State) (port : Nat) (f : SpdmSt → SpdmSt) : State := s.modPort port fun x => { x with spdm := f x.spdm }

/-- The negotiation of a port. -/
def State.spdm (s : State) (port : Nat) : SpdmSt := (s.hostPort port).spdm

/-- An `ERROR` answer. -/
def State.spdmError (s : State) (port code : Nat) : State := s.mctpSay port [0x7F, code]

/-- `GET_VERSION`: SPDM 1.3 only; the negotiation starts anew. -/
def execGetVersion (port : Nat) (s : State) : Result :=
  .next (if !s.spdmUp port then s else (s.modSpdm port fun _ => { version := true }).mctpSay port [0x04] (leBytes 2 0x1300))

/-- `GET_CAPABILITIES` in a version: capabilities CERT, CHAL and MEAS with signature. -/
def execGetCapabilities (port version : Nat) (s : State) : Result :=
  .next (
    if !s.spdmUp port then s
    else if version ≠ 0x13 then s.spdmError port 0x41
    else if !(s.spdm port).version then s.spdmError port 4
    else (s.modSpdm port fun x => { x with caps := true }).mctpSay port
      [0x61, Config.spdmValue 0, 0x16, Config.spdmValue 1, Config.spdmValue 2])

/-- `NEGOTIATE_ALGORITHMS`: of the offered signing and hashing algorithms, P-384 and SHA-384 are taken. -/
def execNegotiateAlgorithms (port asym hash : Nat) (s : State) : Result :=
  .next (
    if !s.spdmUp port then s
    else if !(s.spdm port).caps then s.spdmError port 4
    else (s.modSpdm port fun x => { x with algs := asym.testBit 7 && hash.testBit 1 }).mctpSay port
      [0x63, asym &&& 0x80, hash &&& 2])

/-- The certificate chain of slot 0. -/
def spdmChain : Bytes := Config.deviceCert ++ Config.issuerCerts

/-- `GET_DIGESTS`: one slot, 0. -/
def execGetDigests (port : Nat) (s : State) : Result :=
  .next (
    if !s.spdmUp port then s
    else if !(s.spdm port).algs then s.spdmError port 4
    else s.mctpSay port [0x01, 1] (sha384 spdmChain))

/-- `GET_CERTIFICATE`: a portion of the chain, and how much remains. -/
def execGetCertificate (port slot off len : Nat) (s : State) : Result :=
  .next (
    if !s.spdmUp port then s
    else if !(s.spdm port).algs then s.spdmError port 4
    else if slot ≠ 0 ∨ spdmChain.length ≤ off then s.spdmError port 1
    else
      let d := (spdmChain.drop off).take len
      s.mctpSay port [0x02, 0, d.length, spdmChain.length - off - d.length] d)

/-- The measurement blocks: DMTF value type and digest (R507). -/
def State.measurements (s : State) : List (Nat × Bytes) :=
  [(1, Config.imageDigest 1 s.lk.version), (1, Config.imageDigest 2 s.coreVersion), (2, s.calDigest),
   (2, sha384 (s.defects.list.flatMap DefectEnt.bytes)), (2, padTo 48 (Config.identity (entryKey 0x1007 0))),
   (2, sha384 Config.identityExtension)]

/-- The bytes of a measurement block. -/
def measureBytes (i : Nat) (m : Nat × Bytes) : Bytes := leBytes 1 i ++ leBytes 1 m.1 ++ leBytes 2 m.2.length ++ m.2

/-- What an answer signs: the requester's nonce, the responder's, and the answer. -/
def State.spdmSigned (s : State) (port code : Nat) (nonce body : Bytes) : State :=
  if s.lk.seFailed then s.spdmError port 5
  else
    let own := leBytes 32 (Config.freeBits 256 s.free).toNat
    let msg := nonce ++ own ++ body
    ({ s with free := s.free + 2 }).mctpSay port [code] (own ++ body ++ Config.sign (s.free + 1) msg)

/-- `CHALLENGE`: answered with the chain's digest and a signature. -/
def execChallenge (port slot : Nat) (nonce : Bytes) (s : State) : Result :=
  .next (
    if !s.spdmUp port then s
    else if !(s.spdm port).algs then s.spdmError port 4
    else if slot ≠ 0 then s.spdmError port 1
    else s.spdmSigned port 0x03 nonce (sha384 spdmChain))

/-- `GET_MEASUREMENTS`: operation 0 counts the blocks, 0xFF asks for all, any other for one; with a signature if asked (R507). -/
def execGetMeasurements (port op : Nat) (sign : Bool) (nonce : Bytes) (s : State) : Result :=
  .next (
    if !s.spdmUp port then s
    else if !(s.spdm port).algs then s.spdmError port 4
    else if op ≠ 0 ∧ op ≠ 0xFF ∧ 6 < op then s.spdmError port 1
    else
      let all := s.measurements.zipIdx.map fun p => measureBytes (p.2 + 1) p.1
      let body := if op = 0 then [] else if op = 0xFF then all.flatten else all.getD (op - 1) []
      let body := [if op = 0 then 6 else if op = 0xFF then 6 else 1] ++ body
      if sign then s.spdmSigned port 0x60 nonce body else s.mctpSay port [0x60] body)

end Sys2Proof.Machine
end

