-- ==== Sys2Proof/Machine/VectorCmd.lean ====
section
/-!
DEFINITION. The commands of the vector engine: the operations a thread group issues, start and completion
(05 R146-R149, 06 R153-R184, 10 R288).
-/

namespace Sys2Proof.Machine

/-- A `VISS` whose operation word has a given `OPC` (07 R211): the word enters the vector queue of 64 entries and is
validated there, or its kernel is aborted with the lowest failing code (06 R182). A full queue makes the group wait
(07 R199). A word with the `OPC` of another operation is not this command; a reserved `OPC` is refused. -/
def State.viss (s : State) (t : At) (opc : Nat) (a b : BitVec 8) (tk : BitVec 3) : State :=
  if scalarOk a && scalarOk b then
    s.issue t [a.toNat, b.toNat] fun i =>
      let k := s.core t.core
      let w0 := i.g.srcS a
      let w1 := i.g.srcS b
      let v := vowOf w0 w1
      if (v.opc ≠ opc ∧ (vUse v).isSome) ∨ 64 ≤ k.vq.length then s
      else
        let maps := (s.berth i.k.berth).maps
        match (s.vowCodes t.core i.k.berth maps w0 w1).head? with
        | some code => s.abortGroup t i.cur.pc i.cur.mask code w0
        | none =>
          let e : VqEnt := { id := k.nextId, group := t.group, launch := i.k.launch, tk := tk.toNat, pc := i.cur.pc,
                             lanes := i.cur.mask, w0 := BitVec.ofNat 64 w0, w1 := BitVec.ofNat 64 w1, maps := maps,
                             record := if v.opc = 0x7F then k.lm.read v.imm 32 else [] }
          (s.setCore t.core { k with vq := k.vq ++ [e], nextId := k.nextId + 1 }).next t i (i.g.tkInc tk.toNat)
  else s

/-- `VFMA`: d = a × b + c, rounded once (R164). -/
def execVfma (t : At) (a b : BitVec 8) (tk : BitVec 3) (s : State) : Result := .next (s.viss t 0x01 a b tk)

/-- `VADD`: float add (R164). -/
def execVadd (t : At) (a b : BitVec 8) (tk : BitVec 3) (s : State) : Result := .next (s.viss t 0x02 a b tk)

/-- `VSUB`: float subtract (R164). -/
def execVsub (t : At) (a b : BitVec 8) (tk : BitVec 3) (s : State) : Result := .next (s.viss t 0x03 a b tk)

/-- `VMUL`: float multiply (R164). -/
def execVmul (t : At) (a b : BitVec 8) (tk : BitVec 3) (s : State) : Result := .next (s.viss t 0x04 a b tk)

/-- `VMIN`: float minimum (R164). -/
def execVmin (t : At) (a b : BitVec 8) (tk : BitVec 3) (s : State) : Result := .next (s.viss t 0x05 a b tk)

/-- `VMAX`: float maximum (R164). -/
def execVmax (t : At) (a b : BitVec 8) (tk : BitVec 3) (s : State) : Result := .next (s.viss t 0x06 a b tk)

/-- `VCMP`: float comparison (R164). -/
def execVcmp (t : At) (a b : BitVec 8) (tk : BitVec 3) (s : State) : Result := .next (s.viss t 0x07 a b tk)

/-- `VSEL`: select by the elements of C (R163). -/
def execVsel (t : At) (a b : BitVec 8) (tk : BitVec 3) (s : State) : Result := .next (s.viss t 0x08 a b tk)

/-- `VBCAST`: broadcast of the immediate (R163). -/
def execVbcast (t : At) (a b : BitVec 8) (tk : BitVec 3) (s : State) : Result := .next (s.viss t 0x09 a b tk)

/-- `VIADD`: integer add (R163). -/
def execViadd (t : At) (a b : BitVec 8) (tk : BitVec 3) (s : State) : Result := .next (s.viss t 0x10 a b tk)

/-- `VISUB`: integer subtract (R163). -/
def execVisub (t : At) (a b : BitVec 8) (tk : BitVec 3) (s : State) : Result := .next (s.viss t 0x11 a b tk)

/-- `VIMUL`: integer multiply, low half (R163). -/
def execVimul (t : At) (a b : BitVec 8) (tk : BitVec 3) (s : State) : Result := .next (s.viss t 0x12 a b tk)

/-- `VAND`: AND (R163). -/
def execVand (t : At) (a b : BitVec 8) (tk : BitVec 3) (s : State) : Result := .next (s.viss t 0x13 a b tk)

/-- `VOR`: OR (R163). -/
def execVor (t : At) (a b : BitVec 8) (tk : BitVec 3) (s : State) : Result := .next (s.viss t 0x14 a b tk)

/-- `VXOR`: XOR (R163). -/
def execVxor (t : At) (a b : BitVec 8) (tk : BitVec 3) (s : State) : Result := .next (s.viss t 0x15 a b tk)

/-- `VSHL`: shift left (R163). -/
def execVshl (t : At) (a b : BitVec 8) (tk : BitVec 3) (s : State) : Result := .next (s.viss t 0x16 a b tk)

/-- `VSHR`: logical shift right (R163). -/
def execVshr (t : At) (a b : BitVec 8) (tk : BitVec 3) (s : State) : Result := .next (s.viss t 0x17 a b tk)

/-- `VSAR`: arithmetic shift right (R163). -/
def execVsar (t : At) (a b : BitVec 8) (tk : BitVec 3) (s : State) : Result := .next (s.viss t 0x18 a b tk)

/-- `VIMIN`: signed minimum (R163). -/
def execVimin (t : At) (a b : BitVec 8) (tk : BitVec 3) (s : State) : Result := .next (s.viss t 0x19 a b tk)

/-- `VIMAX`: signed maximum (R163). -/
def execVimax (t : At) (a b : BitVec 8) (tk : BitVec 3) (s : State) : Result := .next (s.viss t 0x1A a b tk)

/-- `VGACC`: exact sums of G16 elements into LA128 cells (R165). -/
def execVgacc (t : At) (a b : BitVec 8) (tk : BitVec 3) (s : State) : Result := .next (s.viss t 0x1B a b tk)

/-- `VEXP2`: 2^a (R167). -/
def execVexp2 (t : At) (a b : BitVec 8) (tk : BitVec 3) (s : State) : Result := .next (s.viss t 0x20 a b tk)

/-- `VLOG2`: log2 a (R167). -/
def execVlog2 (t : At) (a b : BitVec 8) (tk : BitVec 3) (s : State) : Result := .next (s.viss t 0x21 a b tk)

/-- `VRCP`: reciprocal (R167). -/
def execVrcp (t : At) (a b : BitVec 8) (tk : BitVec 3) (s : State) : Result := .next (s.viss t 0x22 a b tk)

/-- `VRSQRT`: reciprocal square root (R167). -/
def execVrsqrt (t : At) (a b : BitVec 8) (tk : BitVec 3) (s : State) : Result := .next (s.viss t 0x23 a b tk)

/-- `VSQRT`: square root (R167). -/
def execVsqrt (t : At) (a b : BitVec 8) (tk : BitVec 3) (s : State) : Result := .next (s.viss t 0x24 a b tk)

/-- `VPERM`: permutation of A by B (R168). -/
def execVperm (t : At) (a b : BitVec 8) (tk : BitVec 3) (s : State) : Result := .next (s.viss t 0x30 a b tk)

/-- `VPERM2`: permutation of A then C by B (R168). -/
def execVperm2 (t : At) (a b : BitVec 8) (tk : BitVec 3) (s : State) : Result := .next (s.viss t 0x31 a b tk)

/-- `VSHUF`: a fixed pattern (R169). -/
def execVshuf (t : At) (a b : BitVec 8) (tk : BitVec 3) (s : State) : Result := .next (s.viss t 0x32 a b tk)

/-- `VPACK`: halves of A and B (R170). -/
def execVpack (t : At) (a b : BitVec 8) (tk : BitVec 3) (s : State) : Result := .next (s.viss t 0x33 a b tk)

/-- `VUNPACK`: one half of A, widened (R170). -/
def execVunpack (t : At) (a b : BitVec 8) (tk : BitVec 3) (s : State) : Result := .next (s.viss t 0x34 a b tk)

/-- `VCVT`: conversion (R171). -/
def execVcvt (t : At) (a b : BitVec 8) (tk : BitVec 3) (s : State) : Result := .next (s.viss t 0x40 a b tk)

/-- `VMXQ`: requantisation to MX (R172). -/
def execVmxq (t : At) (a b : BitVec 8) (tk : BitVec 3) (s : State) : Result := .next (s.viss t 0x41 a b tk)

/-- `VRSTAT`: an exact row statistic (R173). -/
def execVrstat (t : At) (a b : BitVec 8) (tk : BitVec 3) (s : State) : Result := .next (s.viss t 0x48 a b tk)

/-- `VADDR`: add with remainder (R175). -/
def execVaddr (t : At) (a b : BitVec 8) (tk : BitVec 3) (s : State) : Result := .next (s.viss t 0x50 a b tk)

/-- `VAMAXPUT`: an amax register to the scale keeper (R177). -/
def execVamaxput (t : At) (a b : BitVec 8) (tk : BitVec 3) (s : State) : Result := .next (s.viss t 0x58 a b tk)

/-- `VKHIST`: histogram of magnitude keys (R179). -/
def execVkhist (t : At) (a b : BitVec 8) (tk : BitVec 3) (s : State) : Result := .next (s.viss t 0x60 a b tk)

/-- `VKSEL`: selection above a threshold (R180). -/
def execVksel (t : At) (a b : BitVec 8) (tk : BitVec 3) (s : State) : Result := .next (s.viss t 0x61 a b tk)

/-- `VLDR`: rows from memory (R181). -/
def execVldr (t : At) (a b : BitVec 8) (tk : BitVec 3) (s : State) : Result := .next (s.viss t 0x70 a b tk)

/-- `VSTR`: rows to memory (R181). -/
def execVstr (t : At) (a b : BitVec 8) (tk : BitVec 3) (s : State) : Result := .next (s.viss t 0x71 a b tk)

/-- `VTIESUM`: sum of tie slots (05 R146). -/
def execVtiesum (t : At) (a b : BitVec 8) (tk : BitVec 3) (s : State) : Result := .next (s.viss t 0x7F a b tk)

/-- What an operation reads or writes: register, cache row, amax register, or a range of local or berth memory. -/
inductive Touch where
  | reg (i : Nat)
  | rows (lo n : Nat)
  | amax (i : Nat)
  | mem (loc lo n : Nat)
deriving DecidableEq, Repr

/-- Whether two operations meet in what they touch. -/
def touchMeets (x y : Touch) : Bool :=
  match x, y with
  | .reg a, .reg b => a == b
  | .rows a n, .rows b m => decide (a < b + m) && decide (b < a + n)
  | .amax a, .amax b => a == b
  | .mem l a n, .mem k b m => l == k && decide (a < b + m) && decide (b < a + n)
  | _, _ => false

/-- One operand's part of what an operation touches. -/
def touchOpd (used : Bool) (sel : Nat) (g : VGeom) (rpt : Nat) : List Touch :=
  if used then
    match cacheRange sel g rpt with
    | some (lo, n) => [.rows lo n]
    | none => [.reg (sel % 32)]
  else []

/-- Everything an operation touches (R160, R161). `VKSEL` may write its pairs anywhere in local memory. -/
def vopTouches (e : VqEnt) : List Touch :=
  let v := vowOf e.w0.toNat e.w1.toNat
  match vUse v with
  | none => []
  | some u =>
    touchOpd u.d v.d (geomD v) v.rpt ++ touchOpd u.a v.a (geomA v) v.rpt ++ touchOpd u.b v.b (geomB v) v.rpt ++
      touchOpd u.c v.c (geomC v) v.rpt ++ (if v.amx && u.amx then [.amax (v.aux / 4096)] else []) ++
      (if v.opc = 0x58 then [.amax (v.aux % 16)] else []) ++
      (if u.move then (moveExtents v).map fun x => .mem v.loc x.1 x.2 else []) ++
      (if v.opc = 0x61 then [.mem 0 0 0x400000] else []) ++
      (if v.opc = 0x7F then
        let t := tieOf e.record
        [.mem 1 t.dst (t.elems * tieOutBytes t), .mem 0 (t.status * 8) 8] ++
          (List.range t.slots).map fun i => .mem 1 (t.slotBase + i * t.stride) (t.elems * tieSlotBytes t)
      else [])

/-- Whether an operation takes the pipe of the moves (R160). -/
def isMove (e : VqEnt) : Bool := bitsOf e.w0.toNat 7 0 == 0x70 || bitsOf e.w0.toNat 7 0 == 0x71

/-- Whether a queued operation can start (R160): its pipe takes operations in queue order, and no earlier operation in the
queue touches what it touches. -/
def vopCanStart (q : List VqEnt) (e : VqEnt) : Bool :=
  (q.takeWhile fun x => x.id != e.id).all fun x =>
    (x.started || isMove x != isMove e) &&
      !((vopTouches x).any fun a => (vopTouches e).any fun b => touchMeets a b)

/-- `VECTOR_OP_START`: a queued operation starts. `VKSEL` checks its state now and aborts the kernel with `VKSEL_STATE`
if it is invalid (R180, R183). -/
def execVectorOpStart (core id : Nat) (s : State) : Result :=
  let k := s.core core
  .next (match k.vq.find? fun e => e.id == id && !e.started with
    | none => s
    | some e =>
      if vopCanStart k.vq e then
        let v := vowOf e.w0.toNat e.w1.toNat
        if v.opc = 0x61 ∧ kselOk (kselOf k v) = false then
          s.abortLaunch e.launch { code := 0x0282, core := core, group := e.group, pc := e.pc, lanes := e.lanes.toNat,
                                   info := e.w0.toNat }
        else s.setCore core { k with vq := k.vq.map fun x => if x.id = id then { x with started := true } else x }
      else s)

/-- The tie sum with its status record and sentinel (05 R146, R147). -/
def State.tieAll (s : State) (core b : Nat) (e : VqEnt) : State :=
  let t := tieOf e.record
  let r := s.tieRun core b e t.elems
  let s := r.1.count b 3 r.2.1
  if t.status = 0 then s
  else s.modCore core fun x =>
    { x with lm := x.lm.write (t.status * 8) (leBytes 8 (r.2.1 % 2 ^ 29 + if r.2.2 then 2 ^ 29 else 0)) false }

/-- A started operation run to its end, and whether it found its pair area full. -/
def State.vopAll (s : State) (core b : Nat) (e : VqEnt) : State × Bool :=
  let opc := bitsOf e.w0.toNat 7 0
  if opc = 0x58 then (s.runAmaxPut core b e, false)
  else if opc = 0x7F then (s.tieAll core b e, false)
  else s.vopRun core b e (vopRows e)

/-- `VECTOR_OP_COMPLETE`: the operation writes its last result and signals completion (R162). `residues` is the number of
runs whose residue check failed: a first failure runs it once more, a second aborts the kernel and reports the core
(R183). -/
def execVectorOpComplete (core id residues : Nat) (s : State) : Result :=
  .next (match (s.core core).vq.find? fun e => e.id == id && e.started with
    | none => s
    | some e =>
      let fault : Nat → FaultRec := fun code =>
        { code := code, core := core, group := e.group, pc := e.pc, lanes := e.lanes.toNat, info := e.w0.toNat }
      let drop : CoreSt → CoreSt := fun x => { x with vq := x.vq.filter fun y => y.id != id }
      if residues < 2 then
        let r := (s.nextFree.modCore core fun x => { x with residues := x.residues + residues }).vopAll core (s.coreBerth core) e
        let s := r.1.modCore core drop
        if r.2 then s.abortLaunch e.launch (fault 0x0280) else s.signal core e.launch e.group e.tk
      else
        let s := { s with defects := { s.defects with subst := s.defects.subst ++ [(core, 2, 0x0281)] } }
        (s.modCore core fun x => drop { x with residues := x.residues + 2 }).abortLaunch e.launch (fault 0x0281))

end Sys2Proof.Machine
end

