-- ==== Sys2Proof/Machine/Dispatch.lean ====
section
/-!
DEFINITION. One arm for each command: its meaning, or its name where it has none yet.
-/

namespace Sys2Proof.Machine

def exec (i : Instr) (s : State) : Host.Outcome State Fault Refusal :=
  match i with
  | .nop t o => Sys2Proof.Machine.execNop t o s
  | .mov t o => Sys2Proof.Machine.execMov t o s
  | .movi t dst imm => Sys2Proof.Machine.execMovi t dst imm s
  | .movhi t dst imm => Sys2Proof.Machine.execMovhi t dst imm s
  | .movsp t o => Sys2Proof.Machine.execMovsp t o s
  | .iadd t o => Sys2Proof.Machine.execIadd t o s
  | .isub t o => Sys2Proof.Machine.execIsub t o s
  | .imul t o => Sys2Proof.Machine.execImul t o s
  | .imulhu t o => Sys2Proof.Machine.execImulhu t o s
  | .imad t o => Sys2Proof.Machine.execImad t o s
  | .imin t o => Sys2Proof.Machine.execImin t o s
  | .imax t o => Sys2Proof.Machine.execImax t o s
  | .andb t o => Sys2Proof.Machine.execAndb t o s
  | .orb t o => Sys2Proof.Machine.execOrb t o s
  | .xorb t o => Sys2Proof.Machine.execXorb t o s
  | .shl t o => Sys2Proof.Machine.execShl t o s
  | .shr t o => Sys2Proof.Machine.execShr t o s
  | .sar t o => Sys2Proof.Machine.execSar t o s
  | .popc t o => Sys2Proof.Machine.execPopc t o s
  | .clz t o => Sys2Proof.Machine.execClz t o s
  | .iset t o => Sys2Proof.Machine.execIset t o s
  | .sel t o => Sys2Proof.Machine.execSel t o s
  | .fadd t o => Sys2Proof.Machine.execFadd t o s
  | .fsub t o => Sys2Proof.Machine.execFsub t o s
  | .fmul t o => Sys2Proof.Machine.execFmul t o s
  | .ffma t o => Sys2Proof.Machine.execFfma t o s
  | .fmin t o => Sys2Proof.Machine.execFmin t o s
  | .fmax t o => Sys2Proof.Machine.execFmax t o s
  | .fset t o => Sys2Proof.Machine.execFset t o s
  | .i2f t o => Sys2Proof.Machine.execI2f t o s
  | .f2i t o => Sys2Proof.Machine.execF2i t o s
  | .vote t o => Sys2Proof.Machine.execVote t o s
  | .v2s t o => Sys2Proof.Machine.execV2s t o s
  | .shfl t o => Sys2Proof.Machine.execShfl t o s
  | .miss t a tk => Sys2Proof.Machine.execMiss t a tk s
  | .matrixStart core id => Sys2Proof.Machine.execMatrixStart core id s
  | .ringSegmentFilled core id => Sys2Proof.Machine.execRingSegmentFilled core id s
  | .gatherWaitExpiry core fill => Sys2Proof.Machine.execGatherWaitExpiry core fill s
  | .matrixComplete core id residues => Sys2Proof.Machine.execMatrixComplete core id residues s
  | .vfma t a b tk => Sys2Proof.Machine.execVfma t a b tk s
  | .vadd t a b tk => Sys2Proof.Machine.execVadd t a b tk s
  | .vsub t a b tk => Sys2Proof.Machine.execVsub t a b tk s
  | .vmul t a b tk => Sys2Proof.Machine.execVmul t a b tk s
  | .vmin t a b tk => Sys2Proof.Machine.execVmin t a b tk s
  | .vmax t a b tk => Sys2Proof.Machine.execVmax t a b tk s
  | .vcmp t a b tk => Sys2Proof.Machine.execVcmp t a b tk s
  | .vsel t a b tk => Sys2Proof.Machine.execVsel t a b tk s
  | .vbcast t a b tk => Sys2Proof.Machine.execVbcast t a b tk s
  | .viadd t a b tk => Sys2Proof.Machine.execViadd t a b tk s
  | .visub t a b tk => Sys2Proof.Machine.execVisub t a b tk s
  | .vimul t a b tk => Sys2Proof.Machine.execVimul t a b tk s
  | .vand t a b tk => Sys2Proof.Machine.execVand t a b tk s
  | .vor t a b tk => Sys2Proof.Machine.execVor t a b tk s
  | .vxor t a b tk => Sys2Proof.Machine.execVxor t a b tk s
  | .vshl t a b tk => Sys2Proof.Machine.execVshl t a b tk s
  | .vshr t a b tk => Sys2Proof.Machine.execVshr t a b tk s
  | .vsar t a b tk => Sys2Proof.Machine.execVsar t a b tk s
  | .vimin t a b tk => Sys2Proof.Machine.execVimin t a b tk s
  | .vimax t a b tk => Sys2Proof.Machine.execVimax t a b tk s
  | .vgacc t a b tk => Sys2Proof.Machine.execVgacc t a b tk s
  | .vexp2 t a b tk => Sys2Proof.Machine.execVexp2 t a b tk s
  | .vlog2 t a b tk => Sys2Proof.Machine.execVlog2 t a b tk s
  | .vrcp t a b tk => Sys2Proof.Machine.execVrcp t a b tk s
  | .vrsqrt t a b tk => Sys2Proof.Machine.execVrsqrt t a b tk s
  | .vsqrt t a b tk => Sys2Proof.Machine.execVsqrt t a b tk s
  | .vperm t a b tk => Sys2Proof.Machine.execVperm t a b tk s
  | .vperm2 t a b tk => Sys2Proof.Machine.execVperm2 t a b tk s
  | .vshuf t a b tk => Sys2Proof.Machine.execVshuf t a b tk s
  | .vpack t a b tk => Sys2Proof.Machine.execVpack t a b tk s
  | .vunpack t a b tk => Sys2Proof.Machine.execVunpack t a b tk s
  | .vcvt t a b tk => Sys2Proof.Machine.execVcvt t a b tk s
  | .vmxq t a b tk => Sys2Proof.Machine.execVmxq t a b tk s
  | .vrstat t a b tk => Sys2Proof.Machine.execVrstat t a b tk s
  | .vaddr t a b tk => Sys2Proof.Machine.execVaddr t a b tk s
  | .vamaxput t a b tk => Sys2Proof.Machine.execVamaxput t a b tk s
  | .vkhist t a b tk => Sys2Proof.Machine.execVkhist t a b tk s
  | .vksel t a b tk => Sys2Proof.Machine.execVksel t a b tk s
  | .vldr t a b tk => Sys2Proof.Machine.execVldr t a b tk s
  | .vstr t a b tk => Sys2Proof.Machine.execVstr t a b tk s
  | .vtiesum t a b tk => Sys2Proof.Machine.execVtiesum t a b tk s
  | .vectorOpStart core id => Sys2Proof.Machine.execVectorOpStart core id s
  | .vectorOpComplete core id residues => Sys2Proof.Machine.execVectorOpComplete core id residues s
  | .ld t o l1bad => Sys2Proof.Machine.execLd t o l1bad s
  | .st t o => Sys2Proof.Machine.execSt t o s
  | .lds t o l1bad => Sys2Proof.Machine.execLds t o l1bad s
  | .sts t o => Sys2Proof.Machine.execSts t o s
  | .atomAdd t o => Sys2Proof.Machine.execAtomAdd t o s
  | .atomSmin t o => Sys2Proof.Machine.execAtomSmin t o s
  | .atomSmax t o => Sys2Proof.Machine.execAtomSmax t o s
  | .atomUmin t o => Sys2Proof.Machine.execAtomUmin t o s
  | .atomUmax t o => Sys2Proof.Machine.execAtomUmax t o s
  | .atomAnd t o => Sys2Proof.Machine.execAtomAnd t o s
  | .atomOr t o => Sys2Proof.Machine.execAtomOr t o s
  | .atomXor t o => Sys2Proof.Machine.execAtomXor t o s
  | .atomExch t o => Sys2Proof.Machine.execAtomExch t o s
  | .atomCas t o => Sys2Proof.Machine.execAtomCas t o s
  | .atomFadd t o => Sys2Proof.Machine.execAtomFadd t o s
  | .atomXadd t o => Sys2Proof.Machine.execAtomXadd t o s
  | .loadDataReturn core id victim => Sys2Proof.Machine.execLoadDataReturn core id victim s
  | .atomicReturn core id => Sys2Proof.Machine.execAtomicReturn core id s
  | .fence t scope => Sys2Proof.Machine.execFence t scope s
  | .fenceComplete t => Sys2Proof.Machine.execFenceComplete t s
  | .bar t a bid arriveOnly cnti imm => Sys2Proof.Machine.execBar t a bid arriveOnly cnti imm s
  | .bra t tgt => Sys2Proof.Machine.execBra t tgt s
  | .brs t a cond tgt => Sys2Proof.Machine.execBrs t a cond tgt s
  | .brc t a cond tgt join => Sys2Proof.Machine.execBrc t a cond tgt join s
  | .jmps t a => Sys2Proof.Machine.execJmps t a s
  | .waitc t tk thr => Sys2Proof.Machine.execWaitc t tk thr s
  | .exitPath t => Sys2Proof.Machine.execExitPath t s
  | .trap t imm => Sys2Proof.Machine.execTrap t imm s
  | .forwardProgressCheck core => Sys2Proof.Machine.execForwardProgressCheck core s
  | .kernelStart core => Sys2Proof.Machine.execKernelStart core s
  | .kernelEnd core => Sys2Proof.Machine.execKernelEnd core s
  | .homeAccept core id => Sys2Proof.Machine.execHomeAccept core id s
  | .channelRead line reader syms twin => Sys2Proof.Machine.execChannelRead line reader syms twin s
  | .channelWrite line data mask marked => Sys2Proof.Machine.execChannelWrite line data mask marked s
  | .memsideAdd addr cls op fmt scale data berth => Sys2Proof.Machine.execMemsideAdd addr cls op fmt scale data berth s
  | .wcbPartialDrain n l line syms twin => Sys2Proof.Machine.execWcbPartialDrain n l line syms twin s
  | .wcbWriteRun n l => Sys2Proof.Machine.execWcbWriteRun n l s
  | .refresh n l => Sys2Proof.Machine.execRefresh n l s
  | .patrolScrub line syms twin => Sys2Proof.Machine.execPatrolScrub line syms twin s
  | .spareCopyStart n l => Sys2Proof.Machine.execSpareCopyStart n l s
  | .spareCopyDone n l ok => Sys2Proof.Machine.execSpareCopyDone n l ok s
  | .copyBackDone n l => Sys2Proof.Machine.execCopyBackDone n l s
  | .retrainDue n l => Sys2Proof.Machine.execRetrainDue n l s
  | .retrainDone n l pass => Sys2Proof.Machine.execRetrainDone n l pass s
  | .channelRelocationDone n l => Sys2Proof.Machine.execChannelRelocationDone n l s
  | .channelStatusRead n l => Sys2Proof.Machine.execChannelStatusRead n l s
  | .stepBoundary b => Sys2Proof.Machine.execStepBoundary b s
  | .holdRelease b => Sys2Proof.Machine.execHoldRelease b s
  | .postRegisterWrite die value => Sys2Proof.Machine.execPostRegisterWrite die value s
  | .exchPostTake die => Sys2Proof.Machine.execExchPostTake die s
  | .exchPacketArrival die idx => Sys2Proof.Machine.execExchPacketArrival die idx s
  | .exchResultArrival die idx => Sys2Proof.Machine.execExchResultArrival die idx s
  | .exchDeadline die bucket => Sys2Proof.Machine.execExchDeadline die bucket s
  | .dataFlitReceive port flit uncorrectable => Sys2Proof.Machine.execDataFlitReceive port flit uncorrectable s
  | .ackFlit port flit => Sys2Proof.Machine.execAckFlit port flit s
  | .creditFlit port flit => Sys2Proof.Machine.execCreditFlit port flit s
  | .replayFlit port flit => Sys2Proof.Machine.execReplayFlit port flit s
  | .laneCtl port flit => Sys2Proof.Machine.execLaneCtl port flit s
  | .linkControlTimer port => Sys2Proof.Machine.execLinkControlTimer port s
  | .laneSwitch port codeword => Sys2Proof.Machine.execLaneSwitch port codeword s
  | .laneRetire port lane codeword => Sys2Proof.Machine.execLaneRetire port lane codeword s
  | .portLinkUp port bad => Sys2Proof.Machine.execPortLinkUp port bad s
  | .hello idx => Sys2Proof.Machine.execHello idx s
  | .cert idx => Sys2Proof.Machine.execCert idx s
  | .discoveryChallenge idx => Sys2Proof.Machine.execDiscoveryChallenge idx s
  | .proof idx => Sys2Proof.Machine.execProof idx s
  | .discoveryResendTimer port => Sys2Proof.Machine.execDiscoveryResendTimer port s
  | .discoveryRetryTimer port => Sys2Proof.Machine.execDiscoveryRetryTimer port s
  | .cutPlanWrite slot plan => Sys2Proof.Machine.execCutPlanWrite slot plan s
  | .cutPlanActivate slot => Sys2Proof.Machine.execCutPlanActivate slot s
  | .cutPlanWithdraw slot => Sys2Proof.Machine.execCutPlanWithdraw slot s
  | .discoveryWaitExpiry slot => Sys2Proof.Machine.execDiscoveryWaitExpiry slot s
  | .routeBuild => Sys2Proof.Machine.execRouteBuild s
  | .frameTransit idx die => Sys2Proof.Machine.execFrameTransit idx die s
  | .readRequest idx ahead => Sys2Proof.Machine.execReadRequest idx ahead s
  | .writeRequest idx ahead => Sys2Proof.Machine.execWriteRequest idx ahead s
  | .atomicRequest idx ahead => Sys2Proof.Machine.execAtomicRequest idx ahead s
  | .readResponse idx => Sys2Proof.Machine.execReadResponse idx s
  | .writeAtomicResponse idx => Sys2Proof.Machine.execWriteAtomicResponse idx s
  | .remoteRetransmit unit node seq => Sys2Proof.Machine.execRemoteRetransmit unit node seq s
  | .remoteTimeout unit node seq => Sys2Proof.Machine.execRemoteTimeout unit node seq s
  | .windowEntryWrite w entry => Sys2Proof.Machine.execWindowEntryWrite w entry s
  | .fdFailure k => Sys2Proof.Machine.execFdFailure k s
  | .fdRestart k ok => Sys2Proof.Machine.execFdRestart k ok s
  | .streamFrameArrival port src srcPort dstPort udpOk payload => Sys2Proof.Machine.execStreamFrameArrival port src srcPort dstPort udpOk payload s
  | .gapWaitExpiry b st seq => Sys2Proof.Machine.execGapWaitExpiry b st seq s
  | .ackPeriodEnd b st => Sys2Proof.Machine.execAckPeriodEnd b st s
  | .sluiceRepeatTimer b st => Sys2Proof.Machine.execSluiceRepeatTimer b st s
  | .streamEnable b st v => Sys2Proof.Machine.execStreamEnable b st v s
  | .streamDisable b st => Sys2Proof.Machine.execStreamDisable b st s
  | .takeCmd b q => Sys2Proof.Machine.execTakeCmd b q s
  | .takeContinue b => Sys2Proof.Machine.execTakeContinue b s
  | .takeWait b => Sys2Proof.Machine.execTakeWait b s
  | .berthRewind b tally => Sys2Proof.Machine.execBerthRewind b tally s
  | .skipWindowWrite b w first last => Sys2Proof.Machine.execSkipWindowWrite b w first last s
  | .feed b q => Sys2Proof.Machine.execFeed b q s
  | .icmpv6EchoRequest towpath port src dst payload => Sys2Proof.Machine.execIcmpv6EchoRequest towpath port src dst payload s
  | .neighborSolicitation towpath port src target => Sys2Proof.Machine.execNeighborSolicitation towpath port src target s
  | .berthCreate b => Sys2Proof.Machine.execBerthCreate b s
  | .berthCreateDone b => Sys2Proof.Machine.execBerthCreateDone b s
  | .berthResize b => Sys2Proof.Machine.execBerthResize b s
  | .berthResizeDone b => Sys2Proof.Machine.execBerthResizeDone b s
  | .berthResetRequest b => Sys2Proof.Machine.execBerthResetRequest b s
  | .berthResetDone b => Sys2Proof.Machine.execBerthResetDone b s
  | .berthDusk b => Sys2Proof.Machine.execBerthDusk b s
  | .duskGraceExpiry b => Sys2Proof.Machine.execDuskGraceExpiry b s
  | .duskDone b => Sys2Proof.Machine.execDuskDone b s
  | .shrinkAcknowledge b => Sys2Proof.Machine.execShrinkAcknowledge b s
  | .segDefine k => Sys2Proof.Machine.execSegDefine k s
  | .segSeal k => Sys2Proof.Machine.execSegSeal k s
  | .segDelete k => Sys2Proof.Machine.execSegDelete k s
  | .segReshadow k => Sys2Proof.Machine.execSegReshadow k s
  | .reshadowDone k bad => Sys2Proof.Machine.execReshadowDone k bad s
  | .segmentJoinWrite b bits => Sys2Proof.Machine.execSegmentJoinWrite b bits s
  | .dieFence kind die cause detail => Sys2Proof.Machine.execDieFence kind die cause detail s
  | .qdbQueueWrite f queue => Sys2Proof.Machine.execQdbQueueWrite f queue s
  | .qdbDoorbell f queue tail => Sys2Proof.Machine.execQdbDoorbell f queue tail s
  | .bargeGive f bits => Sys2Proof.Machine.execBargeGive f bits s
  | .functionCounterRead f reg head => Sys2Proof.Machine.execFunctionCounterRead f reg head s
  | .mailboxSubmit m port words nwords tag => Sys2Proof.Machine.execMailboxSubmit m port words nwords tag s
  | .mailboxAnswer b m code outWords => Sys2Proof.Machine.execMailboxAnswer b m code outWords s
  | .dblSet b m bits => Sys2Proof.Machine.execDblSet b m bits s
  | .dblClear m bits => Sys2Proof.Machine.execDblClear m bits s
  | .dblMaskWrite m mask => Sys2Proof.Machine.execDblMaskWrite m mask s
  | .collideClear m => Sys2Proof.Machine.execCollideClear m s
  | .collisionsRead m => Sys2Proof.Machine.execCollisionsRead m s
  | .ctxCreate m => Sys2Proof.Machine.execCtxCreate m s
  | .ctxAbandon m => Sys2Proof.Machine.execCtxAbandon m s
  | .queueCreate m => Sys2Proof.Machine.execQueueCreate m s
  | .queueDestroy m => Sys2Proof.Machine.execQueueDestroy m s
  | .queueStop m => Sys2Proof.Machine.execQueueStop m s
  | .queueStart m => Sys2Proof.Machine.execQueueStart m s
  | .objCreate m => Sys2Proof.Machine.execObjCreate m s
  | .objImport m => Sys2Proof.Machine.execObjImport m s
  | .objRelease m => Sys2Proof.Machine.execObjRelease m s
  | .evtCreate m => Sys2Proof.Machine.execEvtCreate m s
  | .evtImport m => Sys2Proof.Machine.execEvtImport m s
  | .evtRelease m => Sys2Proof.Machine.execEvtRelease m s
  | .evtQuery m => Sys2Proof.Machine.execEvtQuery m s
  | .evtSignal m => Sys2Proof.Machine.execEvtSignal m s
  | .bargeSetup m => Sys2Proof.Machine.execBargeSetup m s
  | .noticeSetup m => Sys2Proof.Machine.execNoticeSetup m s
  | .resumeBerth m => Sys2Proof.Machine.execResumeBerth m s
  | .resetBerth m => Sys2Proof.Machine.execResetBerth m s
  | .mapPages m => Sys2Proof.Machine.execMapPages m s
  | .unmapPages m => Sys2Proof.Machine.execUnmapPages m s
  | .mbAssign m => Sys2Proof.Machine.execMbAssign m s
  | .segLoad m => Sys2Proof.Machine.execSegLoad m s
  | .slotGrant b q => Sys2Proof.Machine.execSlotGrant b q s
  | .mark b q => Sys2Proof.Machine.execMark b q s
  | .launch b q => Sys2Proof.Machine.execLaunch b q s
  | .launchReserveTimer b q => Sys2Proof.Machine.execLaunchReserveTimer b q s
  | .kernelLimit launch => Sys2Proof.Machine.execKernelLimit launch s
  | .copyMem b q => Sys2Proof.Machine.execCopyMem b q s
  | .fillMem b q => Sys2Proof.Machine.execFillMem b q s
  | .madd b q => Sys2Proof.Machine.execMadd b q s
  | .xwait b q => Sys2Proof.Machine.execXwait b q s
  | .commandRetire b q => Sys2Proof.Machine.execCommandRetire b q s
  | .abandonGraceExpiry ctx => Sys2Proof.Machine.execAbandonGraceExpiry ctx s
  | .vfFlr f => Sys2Proof.Machine.execVfFlr f s
  | .pfFlr => Sys2Proof.Machine.execPfFlr s
  | .hostLinkDown port => Sys2Proof.Machine.execHostLinkDown port s
  | .hostLoss => Sys2Proof.Machine.execHostLoss s
  | .hostLinkUp port width rate => Sys2Proof.Machine.execHostLinkUp port width rate s
  | .openSession port conn msg => Sys2Proof.Machine.execOpenSession port conn msg s
  | .closeSession port conn msg => Sys2Proof.Machine.execCloseSession port conn msg s
  | .ping port conn msg => Sys2Proof.Machine.execPing port conn msg s
  | .readEntry port conn msg => Sys2Proof.Machine.execReadEntry port conn msg s
  | .writeEntry port conn msg => Sys2Proof.Machine.execWriteEntry port conn msg s
  | .readSeg port conn msg => Sys2Proof.Machine.execReadSeg port conn msg s
  | .writeSeg port conn msg => Sys2Proof.Machine.execWriteSeg port conn msg s
  | .dictionaryTick changed => Sys2Proof.Machine.execDictionaryTick changed s
  | .sessionIdleTimeout session => Sys2Proof.Machine.execSessionIdleTimeout session s
  | .stageTimeout session => Sys2Proof.Machine.execStageTimeout session s
  | .serviceStateWrite session v => Sys2Proof.Machine.execServiceStateWrite session v s
  | .calibrationWrite session ix sub value => Sys2Proof.Machine.execCalibrationWrite session ix sub value s
  | .towpathHandshake port conn leaf chain proof => Sys2Proof.Machine.execTowpathHandshake port conn leaf chain proof s
  | .secureElement => Sys2Proof.Machine.execSecureElement s
  | .setEndpointId port op eid => Sys2Proof.Machine.execSetEndpointId port op eid s
  | .getEndpointId port => Sys2Proof.Machine.execGetEndpointId port s
  | .getMctpVersionSupport port typ => Sys2Proof.Machine.execGetMctpVersionSupport port typ s
  | .getMessageTypeSupport port => Sys2Proof.Machine.execGetMessageTypeSupport port s
  | .getVersion port => Sys2Proof.Machine.execGetVersion port s
  | .getCapabilities port version => Sys2Proof.Machine.execGetCapabilities port version s
  | .negotiateAlgorithms port asym hash => Sys2Proof.Machine.execNegotiateAlgorithms port asym hash s
  | .getDigests port => Sys2Proof.Machine.execGetDigests port s
  | .getCertificate port slot off len => Sys2Proof.Machine.execGetCertificate port slot off len s
  | .challenge port slot nonce => Sys2Proof.Machine.execChallenge port slot nonce s
  | .getMeasurements port op sign nonce => Sys2Proof.Machine.execGetMeasurements port op sign nonce s
  | .ptpMessage port typ domain ns locked => Sys2Proof.Machine.execPtpMessage port typ domain ns locked s
  | .dawn => Sys2Proof.Machine.execDawn s
  | .dawnRequest => Sys2Proof.Machine.execDawnRequest s
  | .firstLight => Sys2Proof.Machine.execFirstLight s
  | .wearSample kind die unit sub measure level => Sys2Proof.Machine.execWearSample kind die unit sub measure level s
  | .coreSubstitution core bad => Sys2Proof.Machine.execCoreSubstitution core bad s
  | .readmissionRequest kind die unit sub => Sys2Proof.Machine.execReadmissionRequest kind die unit sub s
  | .readmitDone pass => Sys2Proof.Machine.execReadmitDone pass s
  | .declareFailed kind die unit sub => Sys2Proof.Machine.execDeclareFailed kind die unit sub s
  | .heartbeatMiss => Sys2Proof.Machine.execHeartbeatMiss s
  | .lkRestart die pass => Sys2Proof.Machine.execLkRestart die pass s
  | .imageStaging image => Sys2Proof.Machine.execImageStaging image s
  | .fwBroadcast => Sys2Proof.Machine.execFwBroadcast s
  | .fwRoundEnd gaps => Sys2Proof.Machine.execFwRoundEnd gaps s
  | .fwInstallLockkeeper => Sys2Proof.Machine.execFwInstallLockkeeper s
  | .fwAbort => Sys2Proof.Machine.execFwAbort s
  | .fwHandover b => Sys2Proof.Machine.execFwHandover b s
  | .lockageCopy b => Sys2Proof.Machine.execLockageCopy b s
  | .snapshotDigestDone b slot => Sys2Proof.Machine.execSnapshotDigestDone b slot s
  | .replicaDigestWrite b slot step digest => Sys2Proof.Machine.execReplicaDigestWrite b slot step digest s
  | .snapshotAreaWrite b sub v => Sys2Proof.Machine.execSnapshotAreaWrite b sub v s
  | .snapshotRestore b => Sys2Proof.Machine.execSnapshotRestore b s
  | .snapshotResume b => Sys2Proof.Machine.execSnapshotResume b s
  | .snapshotDrain b => Sys2Proof.Machine.execSnapshotDrain b s
  | .drainAbort b => Sys2Proof.Machine.execDrainAbort b s
  | .snapshotFill b => Sys2Proof.Machine.execSnapshotFill b s
  | .slotEmpty b => Sys2Proof.Machine.execSlotEmpty b s
  | .drainAcknowledge port frame => Sys2Proof.Machine.execDrainAcknowledge port frame s
  | .drainResendTimer b slot pos => Sys2Proof.Machine.execDrainResendTimer b slot pos s
  | .drainStalled b slot => Sys2Proof.Machine.execDrainStalled b slot s
  | .fillDataFrame port frame => Sys2Proof.Machine.execFillDataFrame port frame s
  | .fillAckTimer b slot pos => Sys2Proof.Machine.execFillAckTimer b slot pos s
  | .instrModeWrite port v => Sys2Proof.Machine.execInstrModeWrite port v s
  | .instrRunStart port => Sys2Proof.Machine.execInstrRunStart port s
  | .instrRunStop port => Sys2Proof.Machine.execInstrRunStop port s
  | .instrScan port => Sys2Proof.Machine.execInstrScan port s
  | .instrScanDone port => Sys2Proof.Machine.execInstrScanDone port s
  | .instrTargetReached port => Sys2Proof.Machine.execInstrTargetReached port s
  | .instrLockLost port lane => Sys2Proof.Machine.execInstrLockLost port lane s
  | .inputVoltageChange mv us => Sys2Proof.Machine.execInputVoltageChange mv us s
  | .powerControllerTick power current => Sys2Proof.Machine.execPowerControllerTick power current s
  | .fastCurrentLimit => Sys2Proof.Machine.execFastCurrentLimit s
  | .phaseLost rail phase => Sys2Proof.Machine.execPhaseLost rail phase s
  | .protectiveOff cause => Sys2Proof.Machine.execProtectiveOff cause s
  | .sensorRefresh values bad => Sys2Proof.Machine.execSensorRefresh values bad s
  | .coolantAlarmTimer inlet => Sys2Proof.Machine.execCoolantAlarmTimer inlet s
  | .startEnd ms failed => Sys2Proof.Machine.execStartEnd ms failed s
  | .lockageRelease b stopUs => Sys2Proof.Machine.execLockageRelease b stopUs s
  | .restoreEnd b => Sys2Proof.Machine.execRestoreEnd b s
  | .standbyCatchUpDone => Sys2Proof.Machine.execStandbyCatchUpDone s
  | .standbyFailure => Sys2Proof.Machine.execStandbyFailure s
  | .ptpMasterLost => Sys2Proof.Machine.execPtpMasterLost s
  | .handoverDelayExpiry b => Sys2Proof.Machine.execHandoverDelayExpiry b s
  | .basinPortLinkChange port up => Sys2Proof.Machine.execBasinPortLinkChange port up s
  | .towpathPortLinkChange port up => Sys2Proof.Machine.execTowpathPortLinkChange port up s
  | .configurationRequest port f reg => Sys2Proof.Machine.execConfigurationRequest port f reg s
  | .hostPerstAsserted port => Sys2Proof.Machine.execHostPerstAsserted port s
  | .remoteHistoryExpiry node unit => Sys2Proof.Machine.execRemoteHistoryExpiry node unit s

end Sys2Proof.Machine
end

