-- ==== Sys2Proof/Safety.lean ====
section
/-!
DEFINITION. What counts as a safe run, and the invariants that claims speak of.
-/

namespace Sys2Proof.Machine

/-- Every memory of the module, and the host's as the module sees it, is in canonical form. -/
def State.canonical (s : State) : Prop :=
  Memory.wf s.mem.cells = true ∧ Memory.wf s.host.mem = true ∧ ∀ p ∈ s.cores, Memory.wf p.2.lm.cells = true

/-- No generation of a berth's objects and events is 0 (15 R450). -/
def BerthSt.gensOk (x : BerthSt) : Prop := (∀ p ∈ x.objs, p.2.gen ≠ 0) ∧ ∀ p ∈ x.evts, p.2.gen ≠ 0

/-- No generation of any berth is 0. -/
def State.gensOk (s : State) : Prop := ∀ p ∈ s.berths, p.2.gensOk

/-- A table's indices rise. -/
def rising {α : Type} : Tbl α → Prop
  | [] => True
  | p :: r => (∀ q ∈ r, p.1 < q.1) ∧ rising r

/-- The open sessions stand in the order of their numbers and are at most 32 (16 R494). -/
def DictSt.sessionsOk (x : DictSt) : Prop := rising x.sessions ∧ x.sessions.length ≤ 32

/-- The defect list `m` has every entry of `l` at its place, as it was or readmitted (17 R522). -/
def listGrows (l m : List DefectEnt) : Prop :=
  ∀ (i : Nat) (e : DefectEnt), l[i]? = some e → ∃ f : DefectEnt, m[i]? = some f ∧ (f = e ∨ f = { e with st := 5 })

/-- The next step does not stop the module. -/
def State.safe (s : State) : Prop := ∃ t, step s = .next t

/-- Every step of a run of `n` steps leads to a next state. -/
def State.safeFor : Nat → State → Prop
  | 0, _ => True
  | n + 1, s => ∃ t, step s = .next t ∧ State.safeFor n t

/-! What a change leaves alone. -/

/-- The parts of the state. -/
inductive Part where
  | pending
  | free
  | out
  | mem
  | chans
  | groups
  | hbm
  | cores
  | berths
  | segs
  | host
  | mbox
  | ctxs
  | launches
  | launchNext
  | fabric
  | dict
  | fw
  | defects
  | streams
  | basins
  | snaps
  | lk
  | boot
  | power
  | inst
deriving DecidableEq, Repr

/-- Two states agree on a part. -/
def Part.same : Part → State → State → Prop
  | .pending, s, t => t.pending = s.pending
  | .free, s, t => t.free = s.free
  | .out, s, t => t.out = s.out
  | .mem, s, t => t.mem = s.mem
  | .chans, s, t => t.chans = s.chans
  | .groups, s, t => t.groups = s.groups
  | .hbm, s, t => t.hbm = s.hbm
  | .cores, s, t => t.cores = s.cores
  | .berths, s, t => t.berths = s.berths
  | .segs, s, t => t.segs = s.segs
  | .host, s, t => t.host = s.host
  | .mbox, s, t => t.mbox = s.mbox
  | .ctxs, s, t => t.ctxs = s.ctxs
  | .launches, s, t => t.launches = s.launches
  | .launchNext, s, t => t.launchNext = s.launchNext
  | .fabric, s, t => t.fabric = s.fabric
  | .dict, s, t => t.dict = s.dict
  | .fw, s, t => t.fw = s.fw
  | .defects, s, t => t.defects = s.defects
  | .streams, s, t => t.streams = s.streams
  | .basins, s, t => t.basins = s.basins
  | .snaps, s, t => t.snaps = s.snaps
  | .lk, s, t => t.lk = s.lk
  | .boot, s, t => t.boot = s.boot
  | .power, s, t => t.power = s.power
  | .inst, s, t => t.inst = s.inst

/-- `t` differs from `s` in the parts of `l` at most. -/
def Frame (l : List Part) (s t : State) : Prop := ∀ p, p ∉ l → p.same s t

/-- Whether every part of one list is in another. -/
def partsIn (a b : List Part) : Bool := a.all fun p => b.contains p

end Sys2Proof.Machine
end

