-- ==== Sys2Proof/Machine/Touches.lean ====
section
/-!
DEFINITION. Which parts of the state each command may change. What a command leaves alone is read from this table; what it
does to the parts it names, from its meaning.
-/

namespace Sys2Proof.Machine

/-- The parts of the state that a command may change. No command changes the queue. -/
def touches : Instr → List Part
  | .nop .. | .mov .. | .movi .. | .movhi .. | .movsp .. | .iadd .. | .isub .. | .imul .. | .imulhu .. | .imad ..
  | .imin .. | .imax .. | .andb .. | .orb .. | .xorb .. | .shl .. | .shr .. | .sar .. | .popc .. | .clz .. | .iset ..
  | .sel .. | .fadd .. | .fsub .. | .fmul .. | .ffma .. | .fmin .. | .fmax .. | .fset .. | .i2f .. | .f2i ..
  | .vote .. | .v2s .. | .shfl .. | .miss .. | .vfma .. | .vadd .. | .vsub .. | .vmul .. | .vmin .. | .vmax ..
  | .vcmp .. | .vsel .. | .vbcast .. | .viadd .. | .visub .. | .vimul .. | .vand .. | .vor .. | .vxor .. | .vshl ..
  | .vshr .. | .vsar .. | .vimin .. | .vimax .. | .vgacc .. | .vexp2 .. | .vlog2 .. | .vrcp .. | .vrsqrt ..
  | .vsqrt .. | .vperm .. | .vperm2 .. | .vshuf .. | .vpack .. | .vunpack .. | .vcvt .. | .vmxq .. | .vrstat ..
  | .vaddr .. | .vamaxput .. | .vkhist .. | .vksel .. | .vldr .. | .vstr .. | .vtiesum .. | .vectorOpStart ..
  | .ld .. | .st .. | .lds .. | .sts .. | .atomAdd .. | .atomSmin .. | .atomSmax .. | .atomUmin .. | .atomUmax ..
  | .atomAnd .. | .atomOr .. | .atomXor .. | .atomExch .. | .atomCas .. | .atomFadd .. | .atomXadd ..
  | .fenceComplete .. | .bar .. | .bra .. | .brs .. | .brc .. | .jmps .. | .waitc .. | .exitPath .. | .trap ..
  | .forwardProgressCheck .. | .queueStop .. | .kernelLimit .. =>
    [.free, .out, .mem, .cores, .berths, .host, .mbox, .launches, .fabric]
  | .matrixStart .. | .gatherWaitExpiry .. | .atomicReturn .. | .fence .. =>
    [.cores]
  | .ringSegmentFilled .. =>
    [.free, .cores]
  | .matrixComplete .. | .vectorOpComplete .. =>
    [.free, .out, .mem, .cores, .berths, .host, .mbox, .launches, .fabric, .defects]
  | .loadDataReturn .. | .kernelStart .. =>
    [.free, .out, .cores, .berths, .host, .mbox]
  | .kernelEnd .. =>
    [.cores, .berths, .launches]
  | .homeAccept .. =>
    [.free, .out, .mem, .chans, .cores, .berths, .host, .mbox, .fabric]
  | .channelRead .. | .wcbPartialDrain .. | .patrolScrub .. | .retrainDone .. =>
    [.free, .out, .mem, .chans, .hbm, .cores, .berths, .segs, .host, .mbox, .ctxs, .launches, .fabric, .defects,
     .streams, .basins, .snaps, .lk]
  | .channelWrite .. =>
    [.out, .mem, .host, .mbox]
  | .memsideAdd .. =>
    [.out, .mem, .chans, .berths, .host, .mbox]
  | .wcbWriteRun .. | .retrainDue .. =>
    [.chans]
  | .refresh .. =>
    []
  | .spareCopyStart .. | .spareCopyDone .. =>
    [.free, .out, .mem, .chans, .groups, .hbm, .cores, .berths, .segs, .host, .mbox, .ctxs, .launches, .fabric,
     .defects, .streams, .basins, .snaps, .lk]
  | .copyBackDone .. =>
    [.chans, .groups]
  | .channelRelocationDone .. =>
    [.free, .out, .chans, .hbm, .host, .mbox, .defects]
  | .channelStatusRead .. =>
    [.out, .chans]
  | .stepBoundary .. =>
    [.free, .out, .mem, .chans, .berths, .host, .mbox, .ctxs, .launches, .fabric, .streams, .snaps]
  | .holdRelease .. | .resumeBerth .. =>
    [.out, .mem, .chans, .berths, .host, .mbox, .fabric, .streams, .snaps]
  | .postRegisterWrite .. | .laneSwitch .. | .remoteHistoryExpiry .. =>
    [.fabric]
  | .exchPostTake .. | .exchPacketArrival .. | .atomicRequest .. | .qdbDoorbell .. =>
    [.out, .mem, .chans, .berths, .host, .mbox, .fabric]
  | .exchResultArrival .. =>
    [.out, .mem, .host, .mbox, .fabric]
  | .exchDeadline .. | .dataFlitReceive .. | .hello .. | .cert .. | .proof .. | .cutPlanActivate ..
  | .cutPlanWithdraw .. | .discoveryWaitExpiry .. | .routeBuild | .frameTransit .. | .remoteRetransmit ..
  | .windowEntryWrite .. =>
    [.out, .host, .mbox, .fabric]
  | .ackFlit .. | .creditFlit .. | .laneCtl .. | .discoveryResendTimer .. | .cutPlanWrite .. =>
    [.out, .fabric]
  | .replayFlit .. | .linkControlTimer .. | .icmpv6EchoRequest .. | .neighborSolicitation .. | .getEndpointId ..
  | .getMctpVersionSupport .. | .getMessageTypeSupport .. | .getDigests .. | .getCertificate ..
  | .drainResendTimer .. | .fillAckTimer .. =>
    [.out]
  | .laneRetire .. =>
    [.out, .host, .mbox, .fabric, .defects]
  | .portLinkUp .. =>
    [.free, .out, .host, .mbox, .fabric, .defects]
  | .discoveryChallenge .. =>
    [.free, .out, .host, .mbox, .fabric]
  | .discoveryRetryTimer .. =>
    [.free, .out, .fabric]
  | .readRequest .. =>
    [.out, .berths, .host, .mbox, .fabric]
  | .writeRequest .. =>
    [.out, .mem, .chans, .host, .mbox, .fabric]
  | .readResponse .. | .writeAtomicResponse .. | .remoteTimeout .. | .duskGraceExpiry .. | .abandonGraceExpiry .. =>
    [.free, .out, .mem, .chans, .cores, .berths, .host, .mbox, .launches, .fabric]
  | .fdFailure .. =>
    [.out, .host, .mbox, .fabric, .dict, .basins, .inst]
  | .fdRestart .. | .dieFence .. | .lkRestart .. =>
    [.free, .out, .mem, .chans, .cores, .berths, .segs, .host, .mbox, .ctxs, .launches, .fabric, .defects, .streams,
     .basins, .snaps, .lk]
  | .streamFrameArrival .. =>
    [.free, .out, .mem, .chans, .host, .mbox, .fabric, .streams, .basins]
  | .gapWaitExpiry .. =>
    [.out, .host, .mbox, .streams]
  | .ackPeriodEnd .. | .sluiceRepeatTimer .. | .streamEnable .. | .streamDisable .. =>
    [.out, .streams]
  | .takeCmd .. | .takeContinue .. | .skipWindowWrite .. | .feed .. | .hostLoss =>
    [.free, .out, .mem, .chans, .berths, .host, .mbox, .fabric, .streams]
  | .takeWait .. | .objRelease .. | .evtSignal .. =>
    [.out, .berths, .host, .mbox]
  | .berthRewind .. =>
    [.out, .berths, .streams]
  | .berthCreate .. =>
    [.out, .berths]
  | .berthCreateDone .. | .berthResizeDone .. =>
    [.free, .out, .mem, .chans, .cores, .berths, .host, .mbox, .ctxs, .launches, .fabric, .dict, .streams, .snaps]
  | .berthResize .. =>
    [.out, .mem, .chans, .cores, .berths]
  | .berthResetRequest .. | .berthResetDone .. | .berthDusk .. | .resetBerth .. | .lockageCopy ..
  | .lockageRelease .. | .restoreEnd .. =>
    [.free, .out, .mem, .chans, .cores, .berths, .host, .mbox, .ctxs, .launches, .fabric, .streams, .snaps]
  | .duskDone .. =>
    [.out, .mem, .chans, .cores, .berths, .host, .mbox, .ctxs, .fabric, .dict, .fw, .streams, .snaps]
  | .shrinkAcknowledge .. =>
    [.out, .hbm, .snaps]
  | .segDefine .. | .segSeal .. | .segDelete .. | .segReshadow .. =>
    [.out, .segs]
  | .reshadowDone .. =>
    [.out, .mem, .segs, .host, .mbox, .dict]
  | .segmentJoinWrite .. =>
    [.out, .berths, .dict]
  | .qdbQueueWrite .. | .bargeGive .. | .hostLinkDown .. | .hostLinkUp .. | .hostPerstAsserted .. =>
    [.host]
  | .functionCounterRead .. | .setEndpointId .. | .getVersion .. | .getCapabilities .. | .negotiateAlgorithms .. =>
    [.out, .host]
  | .mailboxSubmit .. | .towpathHandshake .. =>
    [.out, .host, .mbox, .dict]
  | .mailboxAnswer .. | .dblSet .. | .dblMaskWrite .. | .collisionsRead .. | .evtQuery .. | .mbAssign .. =>
    [.out, .mbox]
  | .dblClear .. | .collideClear .. =>
    [.mbox]
  | .ctxCreate .. =>
    [.out, .mbox, .ctxs]
  | .ctxAbandon .. | .vfFlr .. =>
    [.out, .mem, .chans, .berths, .host, .mbox, .ctxs, .fabric]
  | .queueCreate .. | .queueStart .. | .objCreate .. | .objImport .. | .evtCreate .. | .evtImport .. | .evtRelease ..
  | .mapPages .. | .unmapPages .. =>
    [.out, .berths, .mbox]
  | .queueDestroy .. =>
    [.out, .berths, .host, .mbox, .ctxs]
  | .bargeSetup .. | .noticeSetup .. | .drainStalled .. | .handoverDelayExpiry .. =>
    [.out, .host, .mbox]
  | .segLoad .. =>
    [.out, .mem, .chans, .host, .mbox]
  | .slotGrant .. | .mark .. =>
    [.free, .berths]
  | .launch .. =>
    [.free, .cores, .berths, .launches, .launchNext]
  | .launchReserveTimer .. =>
    [.berths]
  | .copyMem .. | .fillMem .. | .madd .. =>
    [.free, .out, .mem, .chans, .berths, .host, .mbox, .fabric]
  | .xwait .. =>
    [.free, .berths, .launches]
  | .commandRetire .. =>
    [.free, .out, .mem, .chans, .berths, .host, .mbox, .ctxs, .launches, .fabric]
  | .pfFlr =>
    [.host, .mbox]
  | .openSession .. | .closeSession .. | .ping .. | .readEntry .. | .writeEntry .. | .readSeg .. | .writeSeg ..
  | .stageTimeout .. =>
    [.dict]
  | .dictionaryTick .. | .serviceStateWrite .. | .calibrationWrite .. =>
    [.free, .out, .mem, .chans, .groups, .hbm, .cores, .berths, .segs, .host, .mbox, .ctxs, .launches, .launchNext,
     .fabric, .dict, .fw, .defects, .streams, .basins, .snaps, .lk, .boot, .power, .inst]
  | .sessionIdleTimeout .. | .towpathPortLinkChange .. =>
    [.out, .host, .mbox, .dict, .lk]
  | .secureElement | .ptpMessage .. | .ptpMasterLost =>
    [.out, .host, .mbox, .lk]
  | .challenge .. | .getMeasurements .. | .configurationRequest .. =>
    [.free, .out]
  | .dawn | .dawnRequest | .firstLight | .inputVoltageChange .. | .protectiveOff .. =>
    [.out, .mem, .chans, .groups, .hbm, .cores, .berths, .segs, .host, .mbox, .ctxs, .launches, .launchNext, .fabric,
     .dict, .fw, .defects, .streams, .basins, .snaps, .lk, .boot, .power, .inst]
  | .wearSample .. | .declareFailed .. =>
    [.free, .out, .mem, .chans, .groups, .hbm, .cores, .berths, .segs, .host, .mbox, .ctxs, .launches, .fabric,
     .dict, .fw, .defects, .streams, .basins, .snaps, .lk, .power]
  | .coreSubstitution .. =>
    [.out, .cores, .berths, .host, .mbox, .defects]
  | .readmissionRequest .. =>
    [.out, .defects]
  | .readmitDone .. =>
    [.out, .groups, .host, .mbox, .fabric, .defects, .basins, .lk, .power]
  | .heartbeatMiss =>
    [.out, .host, .mbox, .dict, .fw, .lk]
  | .imageStaging .. | .fwBroadcast | .fwAbort =>
    [.out, .fw]
  | .fwRoundEnd .. | .fwHandover .. =>
    [.out, .berths, .host, .mbox, .fw]
  | .fwInstallLockkeeper =>
    [.out, .fw, .lk]
  | .snapshotDigestDone .. | .replicaDigestWrite .. | .drainAcknowledge .. | .fillDataFrame .. =>
    [.out, .mem, .host, .mbox, .snaps]
  | .snapshotAreaWrite .. =>
    [.out, .dict, .snaps]
  | .snapshotRestore .. =>
    [.out, .mem, .berths, .fabric, .dict, .snaps]
  | .snapshotResume .. =>
    [.free, .out, .mem, .chans, .berths, .host, .mbox, .fabric, .snaps]
  | .snapshotDrain .. | .drainAbort .. =>
    [.out, .mem, .snaps]
  | .snapshotFill .. | .slotEmpty .. =>
    [.out, .snaps]
  | .instrModeWrite .. =>
    [.free, .out, .host, .mbox, .fabric, .dict, .inst]
  | .instrRunStart .. | .instrScan .. =>
    [.out, .inst]
  | .instrRunStop .. =>
    [.free, .out, .inst]
  | .instrScanDone .. | .instrTargetReached .. =>
    [.free, .out, .host, .mbox, .inst]
  | .instrLockLost .. =>
    [.out, .host, .mbox, .inst]
  | .powerControllerTick .. | .fastCurrentLimit | .coolantAlarmTimer .. =>
    [.out, .host, .mbox, .power]
  | .phaseLost .. =>
    [.out, .host, .mbox, .defects, .power]
  | .sensorRefresh .. =>
    [.out, .hbm, .host, .mbox, .power]
  | .startEnd .. =>
    [.free, .out, .mem, .chans, .groups, .hbm, .cores, .berths, .segs, .host, .mbox, .ctxs, .launches, .fabric,
     .dict, .fw, .defects, .streams, .basins, .snaps, .lk, .boot, .power]
  | .standbyCatchUpDone =>
    [.free, .out, .mem, .chans, .cores, .berths, .segs, .host, .mbox, .ctxs, .launches, .fabric, .dict, .fw,
     .defects, .streams, .basins, .snaps, .lk]
  | .standbyFailure =>
    [.out, .host, .mbox, .fw, .lk]
  | .basinPortLinkChange .. =>
    [.basins]

end Sys2Proof.Machine
end

