-- ==== Sys2Proof/Certificates/Slice0/Obligations.lean ====
section
/-!
DEFINITION. The statements about the model, for the provers: one for each family of commands and each kind of state, from
the numbered rules of the manual. A statement of several parts is their conjunction, each part with a name of its own.
-/

namespace Sys2Proof.Machine

/-! Claims about thread instructions (07). -/

/-- A source of 32 bits for a lane: a per-thread register, or the low half of a scalar register (R188, R189, R209). -/
def srcLane (g : GroupSt) (x : BitVec 8) (l : Nat) : BitVec 32 :=
  if x.getLsbD 7 then (g.sregAt (x.toNat % 128)).setWidth 32 else g.vreg (x.toNat % 64) l

/-- A scalar source of 64 bits (R188, R189, R209). -/
def srcScalar (g : GroupSt) (x : BitVec 8) : BitVec 64 := g.sregAt (x.toNat % 128)

/-- Operand B of an arithmetic instruction in `w` bits: its register, or `IMM16` sign-extended, or for a float the upper
half of an FP32 value (R209). -/
def srcB (float : Bool) (w : Nat) (o : ArithOp) (r : BitVec w) : BitVec w :=
  if o.immf then (if float then (o.imm ++ 0#16).setWidth w else o.imm.signExtend w) else r

/-- The running path of an issue one instruction on, everything else of the group but its registers as it was. -/
def Issue.advanced (i : Issue) (g : GroupSt) : Prop :=
  g.stack = i.above ++ { i.cur with pc := i.cur.pc + 8 } :: i.below ∧ g.tk = i.g.tk ∧ g.chain = i.g.chain

/-- Scalar register `d` alone receives a value; s0 receives nothing (R188). -/
def onlyScalar (g h : GroupSt) (d : Nat) (x : BitVec 64) : Prop :=
  (∀ j, h.sregAt j = if j = d ∧ j ≠ 0 then x else g.sregAt j) ∧ h.v = g.v

/-- Per-thread register `d` alone receives a value, on the lanes of a mask. -/
def onlyLanes (g h : GroupSt) (d : Nat) (m : BitVec 32) (f : Nat → BitVec 32) : Prop :=
  (∀ j l, l < 32 → h.vreg j l = if j = d ∧ m.getLsbD l = true then f l else g.vreg j l) ∧ h.sreg = g.sreg

/-- What an arithmetic instruction computes in `w` bits from `CC` and its three sources. -/
abbrev WidthFun := (w : Nat) → BitVec 3 → BitVec w → BitVec w → BitVec w → BitVec w

/-- A ready arithmetic instruction whose next word lies in the code answers a next state: the group with the result in its
destination alone and its path one instruction on, everything else as it was (R186, R193, R209, R210). -/
def ArithRuns (c : At → ArithOp → Instr) (op : Nat) (float : Bool) (f : WidthFun) : Prop :=
  ∀ (s : State) (t : At) (o : ArithOp) (i : Issue), arithOk op o = true → s.ready t (arithSrcs op o) = some i →
    i.cur.pc + 8 < i.k.codeBytes →
    ∃ g, exec (c t o) s = .next (s.setGroup t g) ∧ i.advanced g ∧
      if o.dst.getLsbD 7 then
        onlyScalar i.g g (o.dst.toNat % 128)
          (f 64 o.cc (srcScalar i.g o.a) (srcB float 64 o (srcScalar i.g o.b)) (srcScalar i.g o.c))
      else
        onlyLanes i.g g (o.dst.toNat % 64) i.cur.mask fun l =>
          f 32 o.cc (srcLane i.g o.a l) (srcB float 32 o (srcLane i.g o.b l)) (srcLane i.g o.c l)

/-- An integer condition of `CC` (R208): EQ, NE, LT, LE, and LT and LE unsigned. -/
def ccHolds {w : Nat} (cc : BitVec 3) (a b : BitVec w) : Bool :=
  match cc.toNat with
  | 0 => a == b
  | 1 => a != b
  | 2 => a.slt b
  | 3 => a.sle b
  | 4 => a.ult b
  | _ => a.ule b

/-- A float function on the low 32 bits of its sources, zeros above its result (R209). -/
def onFp32 (f : Nat → Nat → Nat → Nat → Nat) : WidthFun := fun w cc a b c =>
  BitVec.ofNat w (f cc.toNat (a.toNat % 2 ^ 32) (b.toNat % 2 ^ 32) (c.toNat % 2 ^ 32))

end Sys2Proof.Machine

open Sys2Proof Sys2Proof.Machine

/-- R209, R210 with R186 and R188: the integer instructions write the result that the table gives to their destination and
change nothing else but the path. -/
def Sys2Proof.Machine.IntegerInstructionsRun : Prop :=
  ArithRuns .mov 0x01 false (fun _ _ a _ _ => a) ∧
  ArithRuns .iadd 0x08 false (fun _ _ a b _ => a + b) ∧
  ArithRuns .isub 0x09 false (fun _ _ a b _ => a - b) ∧
  ArithRuns .imul 0x0A false (fun _ _ a b _ => a * b) ∧
  ArithRuns .imulhu 0x0B false (fun w _ a b _ => ((a.zeroExtend (2 * w) * b.zeroExtend (2 * w)) >>> w).setWidth w) ∧
  ArithRuns .imad 0x0C false (fun _ _ a b c => a * b + c) ∧
  ArithRuns .imin 0x0D false (fun _ _ a b _ => if b.slt a then b else a) ∧
  ArithRuns .imax 0x0E false (fun _ _ a b _ => if a.slt b then b else a) ∧
  ArithRuns .andb 0x10 false (fun _ _ a b _ => a &&& b) ∧
  ArithRuns .orb 0x11 false (fun _ _ a b _ => a ||| b) ∧
  ArithRuns .xorb 0x12 false (fun _ _ a b _ => a ^^^ b) ∧
  ArithRuns .shl 0x13 false (fun w _ a b _ => a <<< (b.toNat % w)) ∧
  ArithRuns .shr 0x14 false (fun w _ a b _ => a >>> (b.toNat % w)) ∧
  ArithRuns .sar 0x15 false (fun w _ a b _ => a.sshiftRight (b.toNat % w)) ∧
  ArithRuns .popc 0x16 false (fun w _ a _ _ => BitVec.ofNat w ((List.range w).countP fun i => a.getLsbD i)) ∧
  ArithRuns .clz 0x17 false (fun _ _ a _ _ => a.clz) ∧
  ArithRuns .iset 0x18 false (fun _ cc a b _ => if ccHolds cc a b then 1 else 0) ∧
  ArithRuns .sel 0x19 false (fun _ _ a b c => if c = 0 then b else a)

/-- R209, R210: the float instructions take the low 32 bits of their sources as FP32, round once, and write the result to
their destination, zeros above; `I2F` takes the width of its destination, `F2I` extends its sign into a scalar. -/
def Sys2Proof.Machine.FloatInstructionsRun : Prop :=
  ArithRuns .fadd 0x20 true (onFp32 fun _ a b _ => arithOut (addVal (fp32Val a) (fp32Val b)) .fp32 false false) ∧
  ArithRuns .fsub 0x21 true (onFp32 fun _ a b _ => arithOut (addVal (fp32Val a) (negVal (fp32Val b))) .fp32 false false) ∧
  ArithRuns .fmul 0x22 true (onFp32 fun _ a b _ => arithOut (mulVal (fp32Val a) (fp32Val b)) .fp32 false false) ∧
  ArithRuns .ffma 0x23 true (onFp32 fun _ a b c =>
    arithOut (addVal (mulVal (fp32Val a) (fp32Val b)) (fp32Val c)) .fp32 false false) ∧
  ArithRuns .fmin 0x24 true (onFp32 fun _ a b _ => fp32Pick true a b) ∧
  ArithRuns .fmax 0x25 true (onFp32 fun _ a b _ => fp32Pick false a b) ∧
  ArithRuns .fset 0x26 true (onFp32 fun cc a b _ => if cmpVal cc (fp32Val a) (fp32Val b) then 1 else 0) ∧
  ArithRuns .i2f 0x27 true (fun w _ a _ _ =>
    BitVec.ofNat w (if a.toInt = 0 then 0 else arithOut (.fin a.toInt 0) .fp32 false false)) ∧
  ArithRuns .f2i 0x28 true (fun w _ a _ _ => (BitVec.ofInt 32 (fp32ToInt (a.toNat % 2 ^ 32))).signExtend w)

namespace Sys2Proof.Machine

/-- The ordinary arithmetic instructions with their opcodes (R210). -/
def arithTable : List ((At → ArithOp → Instr) × Nat) :=
  [(.mov, 0x01), (.iadd, 0x08), (.isub, 0x09), (.imul, 0x0A), (.imulhu, 0x0B), (.imad, 0x0C), (.imin, 0x0D), (.imax, 0x0E),
    (.andb, 0x10), (.orb, 0x11), (.xorb, 0x12), (.shl, 0x13), (.shr, 0x14), (.sar, 0x15), (.popc, 0x16), (.clz, 0x17),
    (.iset, 0x18), (.sel, 0x19), (.fadd, 0x20), (.fsub, 0x21), (.fmul, 0x22), (.ffma, 0x23), (.fmin, 0x24), (.fmax, 0x25),
    (.fset, 0x26), (.i2f, 0x27), (.f2i, 0x28)]

/-- A special register of 64 bits for a lane, but for `SR_CYCLES` (R190). -/
def specialReg (s : State) (t : At) (k : KernSt) (lane : Nat) : Nat → Option Nat
  | 0x1 => some lane
  | 0x2 => some t.group
  | 0x3 => some k.nGroups
  | 0x4 => some t.core
  | 0x5 => some (t.core % 16)
  | 0x6 => some (t.core / 16)
  | 0x7 => some k.berth
  | 0x8 => some s.nodeId
  | 0x9 => some k.rank
  | 0xA => some k.nCores
  | 0xB => some k.argLm
  | 0xD => some k.tally
  | 0xE => some k.kseq
  | _ => none

/-- A lane of the running path on which a per-thread register is not zero. -/
def Issue.sees (i : Issue) (x : BitVec 8) (l : Nat) : Bool :=
  i.cur.mask.getLsbD l && i.g.vreg (x.toNat % 64) l != 0

/-- A lane that the operands of `V2S` or `SHFL` name (R210). -/
def laneNamed (o : ArithOp) (x : Nat) : Nat := (if o.immf then o.imm.toNat else x) % 32

/-- An instruction that waits while its group is not ready (R186). -/
def Waits (i : Instr) (t : At) (srcs : List Nat) : Prop := ∀ s : State, s.ready t srcs = none → exec i s = .next s

/-- An arithmetic instruction at the end of the code: its result is written and the kernel is aborted with `JUMP_TARGET`,
the record holding the offset of this last word (R216). -/
def ArithLeavesCode (c : At → ArithOp → Instr) (op : Nat) : Prop :=
  ∀ (s : State) (t : At) (o : ArithOp) (i : Issue), arithOk op o = true → s.ready t (arithSrcs op o) = some i →
    i.k.codeBytes ≤ i.cur.pc + 8 →
    ∃ g, i.advanced g ∧ exec (c t o) s = .next ((s.setGroup t g).abortGroup t i.cur.pc i.cur.mask 0x0386)

end Sys2Proof.Machine

/-- R210, R190, R193: `NOP`, the moves, `MOVSP`, and the instructions that read other lanes. -/
def Sys2Proof.Machine.MoveAndLaneInstructionsRun : Prop :=
  ∀ (s : State) (t : At) (i : Issue), i.cur.pc + 8 < i.k.codeBytes →
    (∀ o, arithOk 0x00 o = true → s.ready t [] = some i →
      exec (.nop t o) s = .next (s.setGroup t (i.at (i.cur.pc + 8) i.g))) ∧
    (∀ dst imm, specOk dst = true → s.ready t [] = some i →
      ∃ g, exec (.movi t dst imm) s = .next (s.setGroup t g) ∧ i.advanced g ∧
        if dst.getLsbD 7 then onlyScalar i.g g (dst.toNat % 128) (imm.signExtend 64)
        else onlyLanes i.g g (dst.toNat % 64) i.cur.mask fun _ => imm) ∧
    (∀ dst imm, dst.getLsbD 7 = true → s.ready t [dst.toNat] = some i →
      ∃ g, exec (.movhi t dst imm) s = .next (s.setGroup t g) ∧ i.advanced g ∧
        onlyScalar i.g g (dst.toNat % 128) (imm ++ (srcScalar i.g dst).setWidth 32)) ∧
    (∀ o, arithOk 0x04 o = true → s.ready t [] = some i → o.imm.toNat ≠ 0xC →
      ∃ g, exec (.movsp t o) s = .next (s.setGroup t g) ∧ i.advanced g ∧
        if o.dst.getLsbD 7 then
          ∃ x, specialReg s t i.k 0 o.imm.toNat = some x ∧ onlyScalar i.g g (o.dst.toNat % 128) (BitVec.ofNat 64 x)
        else ∃ f : Nat → Nat, (∀ l, specialReg s t i.k l o.imm.toNat = some (f l)) ∧
          onlyLanes i.g g (o.dst.toNat % 64) i.cur.mask fun l => BitVec.ofNat 32 (f l)) ∧
    (∀ o, arithOk 0x04 o = true → s.ready t [] = some i → o.imm.toNat = 0xC →
      ∃ g x, exec (.movsp t o) s = .next (s.nextFree.setGroup t g) ∧ i.advanced g ∧
        if o.dst.getLsbD 7 then onlyScalar i.g g (o.dst.toNat % 128) x
        else onlyLanes i.g g (o.dst.toNat % 64) i.cur.mask fun _ => x.setWidth 32) ∧
    (∀ o, arithOk 0x30 o = true → s.ready t [o.a.toNat] = some i →
      ∃ g x, exec (.vote t o) s = .next (s.setGroup t g) ∧ i.advanced g ∧ onlyScalar i.g g (o.dst.toNat % 128) x ∧
        (o.imm = 0 → x = if (List.range 32).any (i.sees o.a) then 1 else 0) ∧
        (o.imm = 1 → x = if (List.range 32).all fun l => !i.cur.mask.getLsbD l || i.sees o.a l then 1 else 0) ∧
        (o.imm = 2 → ∀ l, x.getLsbD l = (decide (l < 32) && i.sees o.a l))) ∧
    (∀ o, arithOk 0x31 o = true → s.ready t (arithSrcs 0x31 o) = some i →
      ∃ g, exec (.v2s t o) s = .next (s.setGroup t g) ∧ i.advanced g ∧
        onlyScalar i.g g (o.dst.toNat % 128)
          ((i.g.vreg (o.a.toNat % 64) (laneNamed o (srcScalar i.g o.b).toNat)).zeroExtend 64)) ∧
    (∀ o, arithOk 0x32 o = true → s.ready t (arithSrcs 0x32 o) = some i →
      ∃ g, exec (.shfl t o) s = .next (s.setGroup t g) ∧ i.advanced g ∧
        onlyLanes i.g g (o.dst.toNat % 64) i.cur.mask fun l =>
          i.g.vreg (o.a.toNat % 64) (laneNamed o (i.g.vreg (o.b.toNat % 64) l).toNat))

/-- Arithmetic instructions run: the parts together. -/
def Obligations.ArithmeticInstructionsRun : Prop := IntegerInstructionsRun ∧ FloatInstructionsRun ∧ MoveAndLaneInstructionsRun

/-- R186: a group that is not ready (no path with a lane that waits at no barrier, its path at a fence, or a source awaiting
a load's or an atomic's result) waits: the instruction changes nothing. -/
def Sys2Proof.Machine.GroupNotReadyWaits : Prop :=
  ∀ (t : At) (o : ArithOp) (a : BitVec 8) (n m : BitVec 16),
    (∀ p ∈ arithTable, Waits (p.1 t o) t (arithSrcs p.2 o)) ∧
    Waits (.bra t n) t [] ∧ Waits (.brs t a true n) t [a.toNat] ∧ Waits (.brs t a false n) t [a.toNat] ∧
    Waits (.brc t a true n m) t [a.toNat] ∧ Waits (.jmps t a) t [a.toNat] ∧ Waits (.exitPath t) t [] ∧ Waits (.trap t n) t [] ∧
    (∀ (s : State) (i : Issue) (l : List Nat), s.running t = some i → i.cur.fence ≠ none → s.ready t l = none)

/-- R216: an arithmetic instruction that is the last word of the code writes its result and leaves the code: its kernel is
aborted with `JUMP_TARGET`, and the record's `PC` holds the offset of that word. -/
def Sys2Proof.Machine.LastWordAbortsTheKernel : Prop := ∀ p ∈ arithTable, ArithLeavesCode p.1 p.2

/-- Instructions wait and abort: the parts together. -/
def Obligations.InstructionsWaitAndAbort : Prop := GroupNotReadyWaits ∧ LastWordAbortsTheKernel

namespace Sys2Proof.Machine

/-- The lanes of the running path for which the condition of `BRC` holds (R216): register not zero under `COND` 0, zero under
`COND` 1. -/
def Issue.takes (i : Issue) (x : BitVec 8) (cond : Bool) (l : Nat) : Bool :=
  i.cur.mask.getLsbD l && ((i.g.vreg (x.toNat % 64) l == 0) == cond)

/-- A state whose launch of a kernel has stopped with a fault record: the record's code, core, group, pc, lanes, `INFO`,
`DETAIL` and the berth's tally (R220, R222). -/
def StoppedWith (s u : State) (k : KernSt) (f : FaultRec) : Prop :=
  ∀ l, tfind s.launches k.launch = some l → l.stopped = false →
    ∃ m, tfind u.launches k.launch = some m ∧ m.stopped = true ∧ m.status = f.code ∧
      m.fault = faultBytes { f with tally := (s.berth l.berth).tally.toNat }

/-- The arrivals that a path adds to a barrier (R194): one for each active lane. -/
def Issue.arrivals (i : Issue) : Nat := (List.range 32).countP fun l => i.cur.mask.getLsbD l

end Sys2Proof.Machine

/-- R216: `BRA`, `BRS` and `JMPS` move the path to their target, or to the next word where `BRS` is not taken, and change
nothing else. -/
def Sys2Proof.Machine.JumpsMoveThePath : Prop :=
  ∀ (s : State) (t : At) (i : Issue) (a : BitVec 8) (cond : Bool) (tgt : BitVec 16),
    (s.ready t [] = some i → inCode i.k.codeBytes i.cur.pc tgt.toInt = true →
      exec (.bra t tgt) s = .next (s.setGroup t (i.at (i.cur.pc + 8 * tgt.toInt).toNat i.g))) ∧
    (a.getLsbD 7 = true → s.ready t [a.toNat] = some i → inCode i.k.codeBytes i.cur.pc tgt.toInt = true →
      (srcScalar i.g a = 0 ↔ cond = true) →
      exec (.brs t a cond tgt) s = .next (s.setGroup t (i.at (i.cur.pc + 8 * tgt.toInt).toNat i.g))) ∧
    (a.getLsbD 7 = true → s.ready t [a.toNat] = some i → inCode i.k.codeBytes i.cur.pc tgt.toInt = true →
      ¬(srcScalar i.g a = 0 ↔ cond = true) → i.cur.pc + 8 < i.k.codeBytes →
      exec (.brs t a cond tgt) s = .next (s.setGroup t (i.at (i.cur.pc + 8) i.g))) ∧
    (a.getLsbD 7 = true → s.ready t [a.toNat] = some i → (srcScalar i.g a).toNat % 8 = 0 →
      (srcScalar i.g a).toNat < i.k.codeBytes →
      exec (.jmps t a) s = .next (s.setGroup t (i.at (srcScalar i.g a).toNat i.g))) ∧
    (a.getLsbD 7 = true → s.ready t [a.toNat] = some i →
      ((srcScalar i.g a).toNat % 8 ≠ 0 ∨ i.k.codeBytes ≤ (srcScalar i.g a).toNat) →
      ∃ u, exec (.jmps t a) s = .next u ∧
        StoppedWith s u i.k { code := 0x0386, core := t.core, group := t.group, pc := i.cur.pc, lanes := i.cur.mask.toNat })

/-- R191, R192: `BRC`. With no lane taken the path goes on, with every lane taken it jumps; otherwise its entry becomes the
join, and the taken path and above it the fall-through path are pushed, or the kernel is aborted with `DIVERGE_DEPTH` where
the stack would exceed 32 entries. -/
def Sys2Proof.Machine.DivergentBranchSplitsThePath : Prop :=
  ∀ (s : State) (t : At) (i : Issue) (a : BitVec 8) (cond : Bool) (tgt join : BitVec 16),
    threadOk a = true → s.ready t [a.toNat] = some i → join ≠ 0 → inCode i.k.codeBytes i.cur.pc tgt.toInt = true →
    inCode i.k.codeBytes i.cur.pc join.toNat = true →
    ((∀ l < 32, i.takes a cond l = false) →
      exec (.brc t a cond tgt join) s = .next (s.setGroup t (i.at (i.cur.pc + 8) i.g))) ∧
    ((∀ l < 32, i.cur.mask.getLsbD l = true → i.takes a cond l = true) →
      exec (.brc t a cond tgt join) s = .next (s.setGroup t (i.at (i.cur.pc + 8 * tgt.toInt).toNat i.g))) ∧
    ((∃ l < 32, i.takes a cond l = true) → (∃ l < 32, i.cur.mask.getLsbD l = true ∧ i.takes a cond l = false) →
      (i.above.length + 1 + i.below.length + 2 ≤ 32 →
        ∃ taken fall : BitVec 32,
          (∀ l < 32, taken.getLsbD l = i.takes a cond l ∧ fall.getLsbD l = (i.cur.mask.getLsbD l && !i.takes a cond l)) ∧
          exec (.brc t a cond tgt join) s = .next (s.setGroup t { i.g with
            stack :=
              { pc := i.cur.pc + 8, rpc := some (i.cur.pc + 8 * join.toNat), mask := fall } ::
              { pc := (i.cur.pc + 8 * tgt.toInt).toNat, rpc := some (i.cur.pc + 8 * join.toNat), mask := taken } ::
              (i.above ++ { i.cur with join := true, pc := i.cur.pc + 8 * join.toNat } :: i.below) })) ∧
      (32 < i.above.length + 1 + i.below.length + 2 →
        ∃ u, exec (.brc t a cond tgt join) s = .next u ∧
          StoppedWith s u i.k
            { code := 0x0382, core := t.core, group := t.group, pc := i.cur.pc, lanes := i.cur.mask.toNat }))

/-- R192, R198, R214, R216, R220: `EXIT` takes the path's lanes out of every entry of the stack; `WAITC` goes on at or below
its threshold; `FENCE` holds its path until every access issued before it is performed; `TRAP` aborts the kernel with
`USER_TRAP` and its immediate. A group that exits with an open chain is aborted with `CHAIN_OPEN_AT_EXIT` (03 R87). -/
def Sys2Proof.Machine.PathsWaitAndEnd : Prop :=
  ∀ (s : State) (t : At) (i : Issue), s.ready t [] = some i →
    (∀ c, i.g.chain = some c → (∀ e ∈ i.above ++ i.below, e.mask &&& ~~~i.cur.mask = 0) →
      ∃ u, exec (.exitPath t) s = .next u ∧
        StoppedWith s u i.k { code := 0x0181, core := t.core, group := t.group, pc := i.cur.pc, lanes := i.cur.mask.toNat,
                              info := c.desc }) ∧
    (i.g.chain = none →
      ∃ g, exec (.exitPath t) s = .next (s.setGroup t g) ∧
        (∀ e ∈ g.stack, e.mask &&& i.cur.mask = 0 ∧ e.mask ≠ 0) ∧ g.v = i.g.v ∧ g.sreg = i.g.sreg ∧ g.tk = i.g.tk) ∧
    (∀ (tk : BitVec 3) (thr : BitVec 16), thr.toNat ≤ 128 → tget i.g.tk 0 tk.toNat ≤ thr.toNat →
      i.cur.pc + 8 < i.k.codeBytes →
      exec (.waitc t tk thr) s = .next (s.setGroup t (i.at (i.cur.pc + 8) i.g))) ∧
    (∀ (tk : BitVec 3) (thr : BitVec 16), thr.toNat ≤ 128 → thr.toNat < tget i.g.tk 0 tk.toNat →
      ∃ u, exec (.waitc t tk thr) s = .next u ∧ u.group t = some i.g ∧ (u.core t.core).lm = (s.core t.core).lm) ∧
    (∀ scope : BitVec 2, exec (.fence t scope) s = .next (s.setGroup t { i.g with
      stack := i.above ++ { i.cur with fence := some (scope.toNat, (s.core t.core).nextId) } :: i.below })) ∧
    (∀ imm : BitVec 16, ∃ u, exec (.trap t imm) s = .next u ∧
      StoppedWith s u i.k { code := 0x0387, core := t.core, group := t.group, pc := i.cur.pc, lanes := i.cur.mask.toNat,
                            detail := imm.toNat })

/-- Paths move split and end: the parts together. -/
def Obligations.PathsMoveSplitAndEnd : Prop := JumpsMoveThePath ∧ DivergentBranchSplitsThePath ∧ PathsWaitAndEnd

/-- R214, R233, R235: a fence completes once every access its group issued before it is performed; a scope of DIE or wider
leaves the L1 empty, and the path goes on one instruction further. -/
def Sys2Proof.Machine.FenceCompletes : Prop :=
  ∀ (s : State) (t : At) (k : KernSt) (g : GroupSt) (e : PathEnt) (scope n : Nat), s.kern t.core = some k →
    s.group t = some g → e ∈ g.stack → e.fence = some (scope, n) → (∀ x ∈ g.stack, x.fence ≠ none → x = e) →
    ((∀ a ∈ (s.core t.core).acc, a.group = t.group → a.launch = k.launch → a.id < n → a.done ≠ none) →
      e.pc + 8 < k.codeBytes →
      ∃ u, exec (.fenceComplete t) s = .next u ∧
        u.group t = some { g with stack := g.stack.map fun x => if x = e then { x with pc := x.pc + 8, fence := none } else x } ∧
        (u.core t.core).l1 = (if scope = 0 then (s.core t.core).l1 else []) ∧
        (u.core t.core).lm = (s.core t.core).lm ∧ u.mem = s.mem) ∧
    ((∃ a ∈ (s.core t.core).acc, a.group = t.group ∧ a.launch = k.launch ∧ a.id < n ∧ a.done = none) →
      exec (.fenceComplete t) s = .next s)

/-- R194, R195, R239: `BAR`, its arrivals counted once the accesses that its group issued are performed, adds one arrival for
each active lane. Short of the count the lanes wait, or go on with `ARRIVE_ONLY`; at the count the lanes go on and the barrier
starts again without arrivals; a count of 0, above 2,048 or unlike that of the generation aborts the kernel. -/
def Sys2Proof.Machine.BarriersCountLanes : Prop :=
  ∀ (s : State) (t : At) (i : Issue) (a : BitVec 8) (bid : BitVec 4) (arriveOnly cnti : Bool) (imm : BitVec 16) (b : BarrierSt)
    (count : Nat), (cnti = true ∨ a.getLsbD 7 = true) → s.ready t (if cnti then [] else [a.toNat]) = some i →
    b = tget i.k.barriers {} bid.toNat → count = (if cnti then imm.toNat else (srcScalar i.g a).toNat) →
    (s.unperformed t i.k.launch (s.core t.core).nextId = true → exec (.bar t a bid arriveOnly cnti imm) s = .next s) ∧
    (s.unperformed t i.k.launch (s.core t.core).nextId = false → 1 ≤ count → count ≤ 2048 →
      (b.arrivals = 0 ∨ b.count = count) → b.arrivals + i.arrivals < count → i.cur.pc + 8 < i.k.codeBytes →
      ∃ u k, exec (.bar t a bid arriveOnly cnti imm) s = .next u ∧ u.kern t.core = some k ∧
        tget k.barriers {} bid.toNat = { arrivals := b.arrivals + i.arrivals, count := count,
                                         waiting := b.waiting ++ if arriveOnly then [] else [(t.group, i.cur.mask)] } ∧
        u.group t = some { i.g with
          stack := i.above ++ (if arriveOnly then { i.cur with pc := i.cur.pc + 8 } else i.cur) :: i.below }) ∧
    (s.unperformed t i.k.launch (s.core t.core).nextId = false → 1 ≤ count → count ≤ 2048 →
      (b.arrivals = 0 ∨ b.count = count) → count ≤ b.arrivals + i.arrivals → i.above = [] → i.below = [] → b.waiting = [] →
      i.cur.pc + 8 < i.k.codeBytes →
      ∃ u k, exec (.bar t a bid arriveOnly cnti imm) s = .next u ∧ u.kern t.core = some k ∧
        tget k.barriers {} bid.toNat = {} ∧ u.group t = some (i.at (i.cur.pc + 8) i.g)) ∧
    (s.unperformed t i.k.launch (s.core t.core).nextId = false →
      (count = 0 ∨ 2048 < count ∨ (b.arrivals ≠ 0 ∧ count ≠ b.count)) →
      ∃ u, exec (.bar t a bid arriveOnly cnti imm) s = .next u ∧
        StoppedWith s u i.k { code := 0x0381, core := t.core, group := t.group, pc := i.cur.pc, lanes := i.cur.mask.toNat,
                              info := count, detail := b.arrivals + b.count * 2 ^ 12 + bid.toNat * 2 ^ 24 })

/-- R196: the forward-progress monitor remembers a stranded barrier, forgets it where the next examination finds none, and
aborts the kernel with `BARRIER_STRANDED` where two successive examinations find one. -/
def Sys2Proof.Machine.MonitorAbortsStrandedKernels : Prop :=
  ∀ (s : State) (c : Nat) (k : KernSt), s.kern c = some k →
    (strandedBarrier k = none →
      ∃ u, exec (.forwardProgressCheck c) s = .next u ∧ u.kern c = some { k with stranded := false }) ∧
    (∀ b, strandedBarrier k = some b → k.stranded = false →
      ∃ u, exec (.forwardProgressCheck c) s = .next u ∧ u.kern c = some { k with stranded := true }) ∧
    (∀ b, strandedBarrier k = some b → k.stranded = true →
      ∃ u, exec (.forwardProgressCheck c) s = .next u ∧
        ∃ f : FaultRec, f.code = 0x0380 ∧ f.core = c ∧ f.info = 0 ∧
          f.detail = (tget k.barriers {} b).arrivals + (tget k.barriers {} b).count * 2 ^ 12 + b * 2 ^ 24 ∧
          (∃ w ∈ (tget k.barriers {} b).waiting, f.group = w.1 ∨ f.group = 63) ∧
          (∀ w ∈ (tget k.barriers {} b).waiting, f.group ≤ w.1) ∧ StoppedWith s u k f)

/-- Groups synchronise: the parts together. -/
def Obligations.GroupsSynchronise : Prop := FenceCompletes ∧ BarriersCountLanes ∧ MonitorAbortsStrandedKernels

namespace Sys2Proof.Machine

/-- What the checks of R201 answer for a thread memory instruction's lanes: the places, or the lowest failing lane's fault. -/
def memChecks (s : State) (i : Issue) (o : MemOp) (scalar read write : Bool) : Except (Nat × Nat) (List LaneAcc) :=
  s.checkLanes i.k.berth o.space.toNat (sizeBytes o.size) read write (laneAddrs i o.a o.b o.off scalar)

/-- An open access of a group with a lane's part at an address, for a register or with data. -/
def OpenPart (u : State) (t : At) (i : Issue) (kind : AccKind) (node : Option Nat) (lane addr size : Nat)
    (q : Access → AccPart → Prop) : Prop :=
  ∃ a ∈ (u.core t.core).acc, a.kind = kind ∧ a.group = t.group ∧ a.launch = i.k.launch ∧ a.node = node ∧
    ∃ p ∈ a.parts, p.lane = lane ∧ p.addr = addr ∧ p.size = size ∧ q a p

/-- A ready load (R201, R202, R212): the lowest lane that fails a check aborts the kernel with its fault and address; else the
path goes on, no byte of memory changes, and every lane's part is open, one in local memory with the value that it held. -/
def LoadRuns (c : At → MemOp → List Nat → Instr) (op : Nat) (scalar : Bool) : Prop :=
  ∀ (s : State) (t : At) (o : MemOp) (bad : List Nat) (i : Issue), memOk op o = true →
    s.ready t (addrSrcs o scalar) = some i →
    (∀ code addr, memChecks s i o scalar true false = .error (code, addr) →
      ∃ u, exec (c t o bad) s = .next u ∧ StoppedWith s u i.k
        { code := code, core := t.core, group := t.group, pc := i.cur.pc, lanes := i.cur.mask.toNat, info := addr }) ∧
    (∀ ls, memChecks s i o scalar true false = .ok ls → (∀ k, s.accessRoom t.core (loadFar k t i o ls) = true) →
      i.cur.pc + 8 < i.k.codeBytes →
      ∃ u, exec (c t o bad) s = .next u ∧ u.group t = some (i.at (i.cur.pc + 8) i.g) ∧ u.mem = s.mem ∧
        (u.core t.core).lm = (s.core t.core).lm ∧
        ∀ x ∈ ls,
          (x.place = none → OpenPart u t i .load none x.lane x.addr (sizeBytes o.size) fun a p =>
            p.reg = o.dst.toNat ∧ ∃ vals, a.done = some vals ∧
              (p, (s.core t.core).lm.num x.addr (sizeBytes o.size)) ∈ a.parts.zip vals) ∧
          (∀ pa, x.place = some (.here pa) → OpenPart u t i .load none x.lane pa (sizeBytes o.size) fun a p =>
            a.line = pa / 64 ∧ p.reg = o.dst.toNat) ∧
          (∀ node pa, x.place = some (.remote node pa) →
            OpenPart u t i .load (some node) x.lane pa (sizeBytes o.size) fun _ p => p.reg = o.dst.toNat))

/-- A ready store (R201-R203): as a load, but local memory takes the lanes' data in ascending lane order, every other byte of
it as it was, and the other lanes' data are open until their homes accept them. -/
def StoreRuns (c : At → MemOp → Instr) (op : Nat) (scalar : Bool) : Prop :=
  ∀ (s : State) (t : At) (o : MemOp) (i : Issue), memOk op o = true → s.ready t (storeSrcs o scalar) = some i →
    (∀ code addr, memChecks s i o scalar false true = .error (code, addr) →
      ∃ u, exec (c t o) s = .next u ∧ StoppedWith s u i.k
        { code := code, core := t.core, group := t.group, pc := i.cur.pc, lanes := i.cur.mask.toNat, info := addr }) ∧
    (∀ ls, memChecks s i o scalar false true = .ok ls → s.accessRoom t.core (storeFar t i o ls) = true →
      i.cur.pc + 8 < i.k.codeBytes →
      ∃ u, exec (c t o) s = .next u ∧ u.group t = some (i.at (i.cur.pc + 8) i.g) ∧ u.mem = s.mem ∧
        (u.core t.core).lm = (ls.filter fun x => x.place.isNone).foldl (fun m x =>
          m.write x.addr (leBytes (sizeBytes o.size) (i.g.regData o.dst (sizeBytes o.size) x.lane)) false) (s.core t.core).lm ∧
        ∀ x ∈ ls,
          (∀ pa, x.place = some (.here pa) → OpenPart u t i .store none x.lane pa (sizeBytes o.size) fun a p =>
            a.line = pa / 64 ∧ p.d0 = i.g.regData o.dst (sizeBytes o.size) x.lane) ∧
          (∀ node pa, x.place = some (.remote node pa) → OpenPart u t i .store (some node) x.lane pa (sizeBytes o.size)
            fun _ p => p.d0 = i.g.regData o.dst (sizeBytes o.size) x.lane))

/-- The value an atomic leaves (R213): `AOP`, size in bytes, `XFMT`, the value found, and the operands. -/
def aopValue (aop n xfmt old a b : Nat) : Nat :=
  let w := 8 * n
  match aop with
  | 0x0 => (old + a) % 2 ^ w
  | 0x1 => if signedOf w a < signedOf w old then a else old
  | 0x2 => if signedOf w old < signedOf w a then a else old
  | 0x3 => min old a
  | 0x4 => max old a
  | 0x5 => old &&& a
  | 0x6 => old ||| a
  | 0x7 => old ^^^ a
  | 0x8 => a
  | 0x9 => if old = a then b else old
  | 0xA => arithOut (addVal (decodeElem .fp32 old) (decodeElem .fp32 a)) .fp32 false false
  | _ => laAdd old (decodeElem ((fmtOfCode xfmt).getD .e4m3) a) (signedOf 8 b)

/-- A ready atomic (R201, R203, R213): local memory takes the lanes' atomics one after the other, lowest lane first; the
others are open until their homes perform them. -/
def AtomRuns (c : At → AtomOp → Instr) (aop : Nat) : Prop :=
  ∀ (s : State) (t : At) (o : AtomOp) (i : Issue), atomOk aop o = true → s.ready t (atomSrcs aop o) = some i →
    (∀ code addr, s.checkLanes i.k.berth o.space.toNat (sizeBytes o.size) true true (laneAddrs i o.a o.b o.off false) =
        .error (code, addr) →
      ∃ u, exec (c t o) s = .next u ∧ StoppedWith s u i.k
        { code := code, core := t.core, group := t.group, pc := i.cur.pc, lanes := i.cur.mask.toNat, info := addr }) ∧
    (∀ ls, s.checkLanes i.k.berth o.space.toNat (sizeBytes o.size) true true (laneAddrs i o.a o.b o.off false) = .ok ls →
      s.accessRoom t.core (atomFar t i aop o ls) = true → i.cur.pc + 8 < i.k.codeBytes →
      ∃ u, exec (c t o) s = .next u ∧ u.group t = some (i.at (i.cur.pc + 8) i.g) ∧ u.mem = s.mem ∧
        (u.core t.core).lm = (ls.filter fun x => x.place.isNone).foldl (fun m x =>
          m.write x.addr (leBytes (sizeBytes o.size)
            (aopValue aop (sizeBytes o.size) o.xfmt.toNat (m.num x.addr (sizeBytes o.size))
              (i.g.regData o.dst (atomWidth aop o) x.lane)
              (i.g.regData (o.dst + BitVec.ofNat 8 (atomWidth aop o / 4)) (atomWidth aop o) x.lane))) false)
          (s.core t.core).lm ∧
        ∀ x ∈ ls,
          (∀ pa, x.place = some (.here pa) → OpenPart u t i .atomic none x.lane pa (sizeBytes o.size) fun a _ =>
            a.line = pa / 64 ∧ a.aop = aop ∧ a.ret = o.ret) ∧
          (∀ node pa, x.place = some (.remote node pa) → OpenPart u t i .atomic (some node) x.lane pa (sizeBytes o.size)
            fun a _ => a.aop = aop ∧ a.ret = o.ret) ∧
          (x.place = none → o.ret = true → OpenPart u t i .atomic none x.lane x.addr (sizeBytes o.size) fun a p =>
            a.done ≠ none ∧ p.reg = o.dst.toNat))

/-- Register words that data of `n` bytes fill: 32 bits each, data of 1 and 2 bytes extended (R189, R212). -/
def landedV (g h : GroupSt) (sext : Bool) (p : AccPart) (v : Nat) : Prop :=
  h.sreg = g.sreg ∧ ∀ j l, l < 32 → h.vreg j l =
    if p.reg ≤ j ∧ j < p.reg + (p.size + 3) / 4 ∧ l = p.lane then
      BitVec.ofNat 32 ((if sext ∧ p.size ≤ 2 then unsignedOf 64 (signedOf (8 * p.size) v) else v) / 2 ^ (32 * (j - p.reg)))
    else g.vreg j l

/-- Scalar registers that data of `n` bytes fill, s0 none (R188, R189, R212). -/
def landedS (g h : GroupSt) (sext : Bool) (p : AccPart) (v : Nat) : Prop :=
  h.v = g.v ∧ ∀ j, h.sregAt j =
    if p.reg - 128 ≤ j ∧ j < p.reg - 128 + (p.size + 7) / 8 ∧ j ≠ 0 then
      BitVec.ofNat 64 ((if sext ∧ p.size ≤ 2 then unsignedOf 64 (signedOf (8 * p.size) v) else v) / 2 ^ (64 * (j - (p.reg - 128))))
    else g.sregAt j

/-- A part's data in its registers, per-thread or scalar. -/
def landed (g h : GroupSt) (sext : Bool) (p : AccPart) (v : Nat) : Prop :=
  h.stack = g.stack ∧ h.tk = g.tk ∧ h.chain = g.chain ∧
    if 128 ≤ p.reg then landedS g h sext p v else landedV g h sext p v

end Sys2Proof.Machine

/-- R201, R202, R212: `LD` and `LDS`. -/
def Sys2Proof.Machine.ThreadLoadsIssue : Prop := LoadRuns .ld 0x60 false ∧ LoadRuns .lds 0x63 true

/-- R201, R202, R203, R212: `ST` and `STS`. -/
def Sys2Proof.Machine.ThreadStoresIssue : Prop := StoreRuns .st 0x61 false ∧ StoreRuns .sts 0x64 true

/-- R213 with R201 and R203: the atomics. -/
def Sys2Proof.Machine.ThreadAtomicsIssue : Prop :=
  AtomRuns .atomAdd 0x0 ∧ AtomRuns .atomSmin 0x1 ∧ AtomRuns .atomSmax 0x2 ∧ AtomRuns .atomUmin 0x3 ∧
  AtomRuns .atomUmax 0x4 ∧ AtomRuns .atomAnd 0x5 ∧ AtomRuns .atomOr 0x6 ∧ AtomRuns .atomXor 0x7 ∧
  AtomRuns .atomExch 0x8 ∧ AtomRuns .atomCas 0x9 ∧ AtomRuns .atomFadd 0xA ∧ AtomRuns .atomXadd 0xB

/-- Memory instructions issue: the parts together. -/
def Obligations.MemoryInstructionsIssue : Prop := ThreadLoadsIssue ∧ ThreadStoresIssue ∧ ThreadAtomicsIssue

/-- R187, R204, R212, R213: the data of a load, and the value that a returning atomic found, reach their registers alone, and
the access is over; a load left to its home in stacked or shared memory reads it there, its line read as all-ones where it is
poisoned. -/
def Sys2Proof.Machine.AccessesReturn : Prop :=
  ∀ (s : State) (core id victim : Nat) (a : Access) (p : AccPart) (k : KernSt), (s.core core).access id = some a →
    a.parts = [p] → s.kern core = some k → k.launch = a.launch → a.group < k.nGroups → (p.reg < 128 → p.lane < 32) →
    (∀ v, a.kind = .load → a.done = some [v] →
      ∃ u h, exec (.loadDataReturn core id victim) s = .next u ∧ u.group ⟨core, a.group⟩ = some h ∧
        landed (tget k.groups {} a.group) h a.sext p v ∧ (u.core core).access id = none ∧ u.mem = s.mem) ∧
    (∀ v, a.kind = .atomic → a.done = some [v] →
      ∃ u h, exec (.atomicReturn core id) s = .next u ∧ u.group ⟨core, a.group⟩ = some h ∧
        landed (tget k.groups {} a.group) h a.sext p v ∧ (u.core core).access id = none ∧ u.mem = s.mem) ∧
    (a.kind = .load → a.done = none → a.node = none → (s.core core).behind a = false → cacheable (a.line * 64) = true →
      p.addr / 64 = a.line → p.addr % 64 + p.size ≤ 64 →
      ∃ u h, exec (.loadDataReturn core id victim) s = .next u ∧ u.group ⟨core, a.group⟩ = some h ∧
        landed (tget k.groups {} a.group) h a.sext p (s.mem.num p.addr p.size) ∧ (u.core core).access id = none ∧
        u.mem = s.mem)

/-- R224, R225, R213: a store or atomic that its home accepts takes its place at its line: the store's bytes, or the value
that the atomic's operation makes of the value found, are what memory then holds, and nothing else of memory changes; the
access is over, or waits to return the value found. -/
def Sys2Proof.Machine.HomesPerformAccesses : Prop :=
  ∀ (s : State) (core id : Nat) (a : Access) (p : AccPart), (s.core core).access id = some a → a.parts = [p] →
    a.done = none → a.node = none → (s.core core).behind a = false → s.homeRoom (a.line * 64) = true →
    cacheable p.addr = true → s.mem.marked p.addr = false →
    (a.kind = .store → p.addr % 64 + p.size ≤ 64 →
      ∃ u, exec (.homeAccept core id) s = .next u ∧ u.mem = s.mem.write p.addr (leBytes p.size p.d0) false ∧
        (u.core core).access id = none) ∧
    (a.kind = .atomic → p.size = (if a.aop = 0xA then 4 else if a.aop = 0xB then 16 else p.size) →
      p.d0 < 2 ^ (8 * p.size) → p.d1 < 2 ^ (8 * p.size) → a.aop ≤ 0xB →
      ∃ u, exec (.homeAccept core id) s = .next u ∧
        u.mem = s.mem.write p.addr (leBytes p.size (aopValue a.aop p.size a.xfmt (s.mem.num p.addr p.size) p.d0 p.d1)) false ∧
        if a.ret then (u.core core).access id = some { a with done := some [s.mem.num p.addr p.size] }
        else (u.core core).access id = none)

/-- Accesses are performed and return: the parts together. -/
def Obligations.AccessesArePerformedAndReturn : Prop := AccessesReturn ∧ HomesPerformAccesses

namespace Sys2Proof.Machine

/-- A completion counter of 8 bits after an issue and after a completion (R197). -/
def tkAfter (g h : GroupSt) (tk : Nat) (n : Nat) : Prop :=
  ∀ j, tget h.tk 0 j = if j = tk then (tget g.tk 0 j + n) % 256 else tget g.tk 0 j

/-- A ready `VISS` whose operation word holds the opcode (R160, R182, R183, R197, R199, R211): a full queue makes the group
wait; a word that fails a check aborts the kernel with the lowest code and W0; else the word enters the queue, the completion
counter rises by 1, the path goes on, and no memory and no vector register changes. -/
def VissRuns (c : At → BitVec 8 → BitVec 8 → BitVec 3 → Instr) (opc : Nat) : Prop :=
  ∀ (s : State) (t : At) (a b : BitVec 8) (tk : BitVec 3) (i : Issue), a.getLsbD 7 = true → b.getLsbD 7 = true →
    s.ready t [a.toNat, b.toNat] = some i → (srcScalar i.g a).toNat % 256 = opc →
    (64 ≤ (s.core t.core).vq.length → exec (c t a b tk) s = .next s) ∧
    ((s.core t.core).vq.length < 64 →
      (∀ code r, s.vowCodes t.core i.k.berth (s.berth i.k.berth).maps (srcScalar i.g a).toNat (srcScalar i.g b).toNat =
          code :: r →
        ∃ u, exec (c t a b tk) s = .next u ∧ StoppedWith s u i.k
          { code := code, core := t.core, group := t.group, pc := i.cur.pc, lanes := i.cur.mask.toNat,
            info := (srcScalar i.g a).toNat }) ∧
      (s.vowCodes t.core i.k.berth (s.berth i.k.berth).maps (srcScalar i.g a).toNat (srcScalar i.g b).toNat = [] →
        i.cur.pc + 8 < i.k.codeBytes →
        ∃ u g e, exec (c t a b tk) s = .next u ∧ u.group t = some g ∧
          g.stack = i.above ++ { i.cur with pc := i.cur.pc + 8 } :: i.below ∧ g.v = i.g.v ∧ g.sreg = i.g.sreg ∧
          tkAfter i.g g tk.toNat 1 ∧ (u.core t.core).vq = (s.core t.core).vq ++ [e] ∧ e.w0 = srcScalar i.g a ∧
          e.w1 = srcScalar i.g b ∧ e.started = false ∧ e.tk = tk.toNat ∧ e.group = t.group ∧ e.launch = i.k.launch ∧
          (u.core t.core).vr = (s.core t.core).vr ∧ (u.core t.core).lm = (s.core t.core).lm ∧ u.mem = s.mem))

/-- The vector operations with their opcodes (06 R163). -/
def vectorTable : List ((At → BitVec 8 → BitVec 8 → BitVec 3 → Instr) × Nat) :=
  [(.vfma, 0x01), (.vadd, 0x02), (.vsub, 0x03), (.vmul, 0x04), (.vmin, 0x05), (.vmax, 0x06), (.vcmp, 0x07), (.vsel, 0x08),
    (.vbcast, 0x09), (.viadd, 0x10), (.visub, 0x11), (.vimul, 0x12), (.vand, 0x13), (.vor, 0x14), (.vxor, 0x15), (.vshl, 0x16),
    (.vshr, 0x17), (.vsar, 0x18), (.vimin, 0x19), (.vimax, 0x1A), (.vgacc, 0x1B), (.vexp2, 0x20), (.vlog2, 0x21), (.vrcp, 0x22),
    (.vrsqrt, 0x23), (.vsqrt, 0x24), (.vperm, 0x30), (.vperm2, 0x31), (.vshuf, 0x32), (.vpack, 0x33), (.vunpack, 0x34),
    (.vcvt, 0x40), (.vmxq, 0x41), (.vrstat, 0x48), (.vaddr, 0x50), (.vamaxput, 0x58), (.vkhist, 0x60), (.vksel, 0x61),
    (.vldr, 0x70), (.vstr, 0x71), (.vtiesum, 0x7F)]

/-- What the checks of a descriptor at queue entry answer (04 R117, R132, R134). -/
def missCodes (s : State) (t : At) (i : Issue) (addr : Nat) : List Nat :=
  let lm := (s.core t.core).lm
  let w := descWords lm addr
  let d := descOf w
  s.descCodes i.k.berth (s.berth i.k.berth).maps i.g.chain addr w
    (if d.rowMaskEn || d.blkMaskEn then lm.num d.maskAddr 16 else 0)
    (if d.a.mode = 2 then lm.read (d.a.ld % 65536 * 64) 64 else [])

/-- Element `i` of 32 bits of a row of vector registers. -/
def word32 (r : BitVec 8192) (i : Nat) : BitVec 32 := r.extractLsb' (32 * i) 32

/-- The 32-bit integer and bit operations by opcode (06 R163). -/
def intWord (opc : Nat) (x y : BitVec 32) : BitVec 32 :=
  match opc with
  | 0x10 => x + y
  | 0x11 => x - y
  | 0x12 => x * y
  | 0x13 => x &&& y
  | 0x14 => x ||| y
  | 0x15 => x ^^^ y
  | 0x16 => x <<< (y.toNat % 32)
  | 0x17 => x >>> (y.toNat % 32)
  | 0x18 => x.sshiftRight (y.toNat % 32)
  | 0x19 => if y.slt x then y else x
  | _ => if x.slt y then y else x

end Sys2Proof.Machine

/-- R160, R163, R197, R199, R211: the 41 vector operations as a thread group issues them. -/
def Sys2Proof.Machine.VectorOperationsIssue : Prop := ∀ p ∈ vectorTable, VissRuns p.1 p.2

/-- R160, R162, R183, R197: a queued operation starts once nothing before it in the queue stands in its way, a
`VKSEL` with invalid state aborting its kernel with `VKSEL_STATE`; as it completes it
leaves the queue and its counter falls by 1; a second residue failure aborts the kernel with `LANE_RESIDUE` and reports the
core for substitution. -/
def Sys2Proof.Machine.VectorOperationsStartAndComplete : Prop :=
  ∀ (s : State) (core id : Nat) (e : VqEnt) (k : KernSt), s.kern core = some k → k.launch = e.launch →
    (∀ x ∈ (s.core core).vq, x.id = id → x = e) → e ∈ (s.core core).vq → e.id = id →
    (e.started = false → vopCanStart (s.core core).vq e = true →
      (e.w0.toNat % 256 = 0x61 → kselOk (kselOf (s.core core) (vowOf e.w0.toNat e.w1.toNat)) = true) →
      ∃ u, exec (.vectorOpStart core id) s = .next u ∧
        (u.core core).vq = (s.core core).vq.map (fun x => if x.id = id then { e with started := true } else x) ∧
        u.mem = s.mem ∧ (u.core core).lm = (s.core core).lm) ∧
    (e.started = false → vopCanStart (s.core core).vq e = true → e.w0.toNat % 256 = 0x61 →
      kselOk (kselOf (s.core core) (vowOf e.w0.toNat e.w1.toNat)) = false →
      ∃ u, exec (.vectorOpStart core id) s = .next u ∧
        StoppedWith s u k { code := 0x0282, core := core, group := e.group, pc := e.pc, lanes := e.lanes.toNat,
                            info := e.w0.toNat }) ∧
    (e.started = false → vopCanStart (s.core core).vq e = false → exec (.vectorOpStart core id) s = .next s) ∧
    (e.started = true → 2 ≤ (e.w0.toNat % 256) → e.w0.toNat % 256 ≤ 0x24 → e.group < k.nGroups →
      ∃ u g, exec (.vectorOpComplete core id 0) s = .next u ∧ (u.core core).vq = (s.core core).vq.filter (fun x => x.id != id) ∧
        u.group ⟨core, e.group⟩ = some g ∧ tkAfter (tget k.groups {} e.group) g e.tk 255 ∧ u.mem = s.mem ∧
        (u.core core).lm = (s.core core).lm) ∧
    (∀ n, 2 ≤ n → e.started = true →
      ∃ u, exec (.vectorOpComplete core id n) s = .next u ∧
        u.defects.subst = s.defects.subst ++ [(core, 2, 0x0281)] ∧
        StoppedWith s u k { code := 0x0281, core := core, group := e.group, pc := e.pc, lanes := e.lanes.toNat,
                            info := e.w0.toNat })

/-- Vector operations run: the parts together. -/
def Obligations.VectorOperationsRun : Prop := VectorOperationsIssue ∧ VectorOperationsStartAndComplete

/-- R163, R166: an integer or bit operation on one row of registers leaves in every 32-bit element of its destination what the
opcode makes of the elements of A and B, and `VBCAST` its immediate; no other register changes. -/
def Obligations.VectorIntegerResults : Prop :=
  ∀ (s : State) (core id : Nat) (e : VqEnt) (opc d a b : Nat), (s.core core).vq = [e] → e.id = id → e.started = true →
    opc = e.w0.toNat % 256 → d < 32 → a < 32 → b < 32 → bitsOf e.w0.toNat 24 16 = d → bitsOf e.w0.toNat 33 25 = a →
    bitsOf e.w0.toNat 42 34 = b → bitsOf e.w0.toNat 59 52 = 0 → (s.core core).vrMark = [] →
    ∃ u, exec (.vectorOpComplete core id 0) s = .next u ∧
      (0x10 ≤ opc → opc ≤ 0x1A → ∀ i < 256,
        word32 (tget (u.core core).vr 0 d) i =
          intWord opc (word32 (tget (s.core core).vr 0 a) i) (word32 (tget (s.core core).vr 0 b) i)) ∧
      (opc = 0x09 → ∀ i < 256, word32 (tget (u.core core).vr 0 d) i = BitVec.ofNat 32 (e.w1.toNat % 2 ^ 32)) ∧
      ((opc = 0x09 ∨ (0x10 ≤ opc ∧ opc ≤ 0x1A)) → ∀ j, j ≠ d → tget (u.core core).vr 0 j = tget (s.core core).vr 0 j)

/-- R88, R199, R211, 04 R117, R132: `MISS`. A full queue makes the group wait; a descriptor at a misaligned or absent address
fails with `DESC_ADDRESS`, one that fails another check with the lowest code, the record's `INFO` holding the address; a valid
one that is not skipped enters the queue and its counter rises by 1. -/
def Sys2Proof.Machine.MatrixIssueEntersTheQueue : Prop :=
  ∀ (s : State) (t : At) (a : BitVec 8) (tk : BitVec 3) (i : Issue) (addr : Nat), a.getLsbD 7 = true →
    s.ready t [a.toNat] = some i → addr = (srcScalar i.g a).toNat →
    (64 ≤ (s.core t.core).aq.length → exec (.miss t a tk) s = .next s) ∧
    ((s.core t.core).aq.length < 64 → (addr % 64 ≠ 0 ∨ 0x400000 ≤ addr) →
      ∃ u, exec (.miss t a tk) s = .next u ∧ StoppedWith s u i.k
        { code := 0x0100, core := t.core, group := t.group, pc := i.cur.pc, lanes := i.cur.mask.toNat, info := addr }) ∧
    ((s.core t.core).aq.length < 64 → addr % 64 = 0 → addr < 0x400000 →
      (∀ code r, missCodes s t i addr = code :: r →
        ∃ u, exec (.miss t a tk) s = .next u ∧ StoppedWith s u i.k
          { code := code, core := t.core, group := t.group, pc := i.cur.pc, lanes := i.cur.mask.toNat, info := addr }) ∧
      (missCodes s t i addr = [] → (descOf (descWords (s.core t.core).lm addr)).rowMaskEn = false →
        (descOf (descWords (s.core t.core).lm addr)).blkMaskEn = false → i.g.chain = none →
        (descOf (descWords (s.core t.core).lm addr)).gather = false → i.cur.pc + 8 < i.k.codeBytes →
        ∃ u g e, exec (.miss t a tk) s = .next u ∧ u.group t = some g ∧ tkAfter i.g g tk.toNat 1 ∧
          g.stack = i.above ++ { i.cur with pc := i.cur.pc + 8 } :: i.below ∧ g.v = i.g.v ∧ g.sreg = i.g.sreg ∧
          (u.core t.core).aq = (s.core t.core).aq ++ [e] ∧ e.descAddr = addr ∧ e.tk = tk.toNat ∧ e.bank = none ∧
          u.mem = s.mem ∧ (u.core t.core).lm = (s.core t.core).lm))

/-- R77, R82, R86, R88, R96, R102: a queued matrix instruction takes the bank that it finds, and waits where it finds none; a
head becomes the bank's owner; a ring segment filled is counted and local memory outside the ring stays; the gather wait closes
its fill. -/
def Sys2Proof.Machine.MatrixArrayProceeds : Prop :=
  ∀ (s : State) (core id : Nat) (e : AqEnt), (s.core core).aqEnt id = some e →
    (bankFor (s.core core) e = none → exec (.matrixStart core id) s = .next s) ∧
    (∀ b, bankFor (s.core core) e = some b →
      ∃ u f, exec (.matrixStart core id) s = .next u ∧ (u.core core).aqEnt id = some f ∧ f.bank = some b ∧
        ((descOf e.words).accInit ≠ 2 → (tget (u.core core).banks {} b).owner = some e.chain ∧ (u.core core).lastBank = b) ∧
        u.mem = s.mem ∧ (u.core core).lm = (s.core core).lm) ∧
    (streamsOp (descOf e.words) = true → (aqBefore (s.core core) e).any (fun x => ringsMeet x e) = false →
      ∃ u f, exec (.ringSegmentFilled core id) s = .next u ∧ (u.core core).aqEnt id = some f ∧
        f.segments = e.segments + 1 ∧ u.mem = s.mem) ∧
    (∀ fill f, f ∈ (s.core core).fills → f.id = fill → f.isOpen = true →
      ∃ u, exec (.gatherWaitExpiry core fill) s = .next u ∧ (∀ g ∈ (u.core core).fills, g.id = fill → g.isOpen = false) ∧
        u.mem = s.mem)

/-- R80, R84, R112, R197: an instruction that has run leaves the queue and its counter falls by 1; without `DRAIN` no byte of
memory changes and its bank keeps its owner; with it the bank is free; a second residue failure aborts the kernel with
`CUBE_RESIDUE` and reports the core for substitution. -/
def Sys2Proof.Machine.MatrixInstructionsComplete : Prop :=
  ∀ (s : State) (core id bank : Nat) (e : AqEnt) (k : KernSt), s.kern core = some k → k.launch = e.launch →
    (s.core core).aqEnt id = some e → e.bank = some bank → e.fill = none → e.group < k.nGroups →
    (∀ n, n < 2 → (descOf e.words).drain = false →
      ∃ u g, exec (.matrixComplete core id n) s = .next u ∧ (u.core core).aqEnt id = none ∧
        u.group ⟨core, e.group⟩ = some g ∧ tkAfter (tget k.groups {} e.group) g e.tk 255 ∧ u.mem = s.mem ∧
        (tget (u.core core).banks {} bank).owner = (tget (s.core core).banks {} bank).owner ∧
        (u.core core).residues = (s.core core).residues + n) ∧
    (∀ n, n < 2 → (descOf e.words).drain = true →
      ∃ u, exec (.matrixComplete core id n) s = .next u ∧ (u.core core).aqEnt id = none ∧
        tget (u.core core).banks {} bank = {}) ∧
    (∀ n, 2 ≤ n →
      ∃ u, exec (.matrixComplete core id n) s = .next u ∧ u.defects.subst = s.defects.subst ++ [(core, 2, 0x0182)] ∧
        StoppedWith s u k { code := 0x0182, core := core, group := e.group, pc := e.pc, lanes := e.lanes.toNat,
                            info := e.descAddr })

/-- Matrix instructions run: the parts together. -/
def Obligations.MatrixInstructionsRun : Prop := MatrixIssueEntersTheQueue ∧ MatrixArrayProceeds ∧ MatrixInstructionsComplete

namespace Sys2Proof.Machine

/-- Unknown symbols corrected and always detected, by the number of dead pins (09 R259). -/
def codeBounds : List (Nat × Nat) := [(4, 12), (3, 12), (3, 11), (2, 11), (2, 10), (1, 10), (1, 9), (0, 9), (0, 8)]

/-- A channel that answers reads of a line: the line's home, neither stalled nor of a stack out of service. -/
def Serves (s : State) (line n l : Nat) : Prop :=
  chanAt (64 * line) = some (n, l) ∧ (s.chan n l).mode ≠ .stalled ∧ (s.stack n).outOfService = false

/-- A channel that a spare may be taken for now: it is queued, and no copy runs in its group (R272). -/
def MayTakeSpare (s : State) (n l : Nat) : Prop :=
  n < 24 ∧ l < 1024 ∧ (s.chan n l).mode = .normal ∧ (s.chan n l).leaving = false ∧ s.groupCopies n (l / 64) = false ∧
    (((s.chan n l).needSpare = true ∧ s.lk.active ≠ none) ∨ (s.chan n l).needRetrain = true)

end Sys2Proof.Machine

/-- R185, R188, R219, R233: a launch's kernel starts on a core with `GROUPS` groups at the entry address, all 32 lanes active,
every register zero, and the L1 empty. R200: it ends once every lane has exited and its work is done, and the core is free. -/
def Obligations.KernelsStartAndEnd : Prop :=
  ∀ (s : State) (core : Nat) (k : KernSt), s.kern core = some k →
    (∀ h, h = imgHdr (s.nextFree.engineRead core k.berth (s.berth k.berth).maps 1 k.image 128).1 → k.started = false →
      s.launchLive k.launch = true →
      ∃ u m, exec (.kernelStart core) s = .next u ∧ u.kern core = some m ∧ m.started = true ∧ m.nGroups = h.groups ∧
        m.codeBytes = h.codeBytes ∧ m.launch = k.launch ∧ m.barriers = [] ∧ (u.core core).l1 = [] ∧
        ∀ g < h.groups, u.group ⟨core, g⟩ = some
          { stack := [{ join := false, pc := h.entry, rpc := none, mask := BitVec.allOnes 32, fence := none }],
            v := [], sreg := [], tk := [], chain := none }) ∧
    (k.started = true → (∀ g < k.nGroups, ∀ e ∈ (tget k.groups {} g).stack, e.mask = 0) →
      (∀ e ∈ (s.core core).aq, e.launch ≠ k.launch) → (∀ e ∈ (s.core core).vq, e.launch ≠ k.launch) →
      (∀ a ∈ (s.core core).acc, a.launch = k.launch → a.kind = .load ∨ a.done ≠ none) →
      ∃ u, exec (.kernelEnd core) s = .next u ∧ u.kern core = none ∧ (∀ a ∈ (u.core core).acc, a.launch ≠ k.launch) ∧
        (∀ l, tfind s.launches k.launch = some l →
          ∃ m, tfind u.launches k.launch = some m ∧ core ∉ m.running ∧ ∀ c ∈ l.running, c ≠ core → c ∈ m.running) ∧
        u.mem = s.mem) ∧
    ((∃ a ∈ (s.core core).acc, a.launch = k.launch ∧ a.kind ≠ .load ∧ a.done = none) →
      exec (.kernelEnd core) s = .next s)

/-- R259, R260, R262, R264, R279: a read by a unit or by the scrub. A clean word changes nothing, a word within the correction
bound counts one corrected read and leaves memory as it is, and one beyond it but within the detection bound, in no segment, is
stored poisoned and counted as uncorrectable. -/
def Sys2Proof.Machine.ChannelReadsDecode : Prop :=
  ∀ (s : State) (line reader n l e t d : Nat) (syms twin : List Nat), Serves s line n l → e = (s.chan n l).dead.length →
    codeBounds[e]? = some (t, d) → s.mem.marked (64 * line) = false →
    ∀ i ∈ [Instr.channelRead line reader syms twin, Instr.patrolScrub line syms twin],
      ((∀ j ∈ syms, 80 ≤ j ∧ j ∉ (s.chan n l).dead) →
        ∃ u, exec i s = .next u ∧ u.mem = s.mem ∧ u.chan n l = s.chan n l) ∧
      (1 ≤ (unknownSyms (s.chan n l).dead syms).length → (unknownSyms (s.chan n l).dead syms).length ≤ t →
        (s.chan n l).recent.length < 15 →
        ∃ u, exec i s = .next u ∧ u.mem = s.mem ∧ (u.chan n l).corr = min 0xFFFFFF ((s.chan n l).corr + 1) ∧
          (u.chan n l).dead = (s.chan n l).dead ∧ (u.chan n l).uncorr = (s.chan n l).uncorr) ∧
      (t < (unknownSyms (s.chan n l).dead syms).length → (unknownSyms (s.chan n l).dead syms).length ≤ d →
        s.segOf (64 * line) = none →
        ∃ u, exec i s = .next u ∧ u.mem = s.mem.mark line ∧ (u.chan n l).uncorr = min 255 ((s.chan n l).uncorr + 1) ∧
          (u.chan n l).corr = (s.chan n l).corr)

/-- R263: a write of a whole line stores it and clears a poison mark; marked data leaves the line poisoned; a part of a poisoned
line is discarded; a part of a clean line replaces its bytes. No other line changes. -/
def Sys2Proof.Machine.ChannelWritesStore : Prop :=
  ∀ (s : State) (line n l : Nat) (data : BitVec 512) (mask : BitVec 64), s.canonical → chanAt (64 * line) = some (n, l) →
    mask ≠ 0 →
    ∀ marked : Bool, ∃ u, exec (.channelWrite line data mask marked) s = .next u ∧
      (∀ a, a / 64 ≠ line → u.mem.byte a = s.mem.byte a ∧ u.mem.marked a = s.mem.marked a) ∧
      (marked = true → u.mem.marked (64 * line) = true) ∧
      (marked = false → mask = BitVec.allOnes 64 → u.mem.marked (64 * line) = false ∧
        ∀ i < 64, u.mem.byte (64 * line + i) = data.extractLsb' (8 * i) 8) ∧
      (marked = false → mask ≠ BitVec.allOnes 64 → s.mem.marked (64 * line) = true → u.mem = s.mem) ∧
      (marked = false → mask ≠ BitVec.allOnes 64 → s.mem.marked (64 * line) = false →
        u.mem.marked (64 * line) = false ∧ ∀ i < 64,
          u.mem.byte (64 * line + i) = if mask.getLsbD i then data.extractLsb' (8 * i) 8 else s.mem.byte (64 * line + i))

/-- R255, R266, R267: a memory-side add of each class leaves at its element what the operation makes of the value found and
nothing else of memory changes; entries drain without changing what memory holds; a refresh changes nothing. -/
def Sys2Proof.Machine.AddersAndBuffersKeepMemory : Prop :=
  ∀ (s : State) (n l line addr : Nat),
    exec (.refresh n l) s = .next s ∧
    (∃ u, exec (.wcbWriteRun n l) s = .next u ∧ u.mem = s.mem ∧
      ((s.chan n l).wcb.countP (fun e => e.st != .partly) ≤ 32 → ∀ e ∈ (u.chan n l).wcb, e.st = .partly)) ∧
    (∀ m k, Serves s line m k → s.mem.marked (64 * line) = false → (∃ e ∈ (s.chan n l).wcb, e.line = line ∧ e.st = .partly) →
      ∃ u, exec (.wcbPartialDrain n l line [] []) s = .next u ∧ u.mem = s.mem ∧ ∀ e ∈ (u.chan n l).wcb, e.line ≠ line) ∧
    (∀ op fmt data berth, fmt = 4 ∨ fmt = 8 → op ≤ 9 → homeDie addr ≠ none → addr % fmt = 0 → s.wcbRoom addr = true →
      s.mem.marked addr = false → data < 2 ^ (8 * fmt) →
      ∃ u, exec (.memsideAdd addr 0 op fmt 0 data berth) s = .next u ∧
        u.mem = s.mem.write addr (leBytes fmt (aopValue op fmt 0 (s.mem.num addr fmt) data 0)) false) ∧
    (∀ f code scale data berth, (code, f) ∈ [(0xB, Fmt.fp32), (0x8, Fmt.fp16), (0x9, Fmt.bf16)] → homeDie addr ≠ none →
      addr % (fmtBits f / 8) = 0 → s.wcbRoom addr = true → s.mem.marked addr = false →
      ∃ u, exec (.memsideAdd addr 1 0 code scale data berth) s = .next u ∧
        u.mem = s.mem.write addr (leBytes (fmtBits f / 8)
          (arithOut (addVal (decodeElem f (s.mem.num addr (fmtBits f / 8))) (decodeElem f data)) f false false)) false) ∧
    (∀ f code scale data berth, (code, f) ∈ [(0x0, Fmt.e4m3), (0x1, .e5m2), (0x7, .int8), (0x8, .fp16), (0xA, .g16)] →
      homeDie addr ≠ none → addr % 16 = 0 → s.wcbRoom addr = true → s.mem.marked addr = false →
      ∃ u, exec (.memsideAdd addr 2 0 code scale data berth) s = .next u ∧
        u.mem = s.mem.write addr (leBytes 16 (laAdd (s.mem.num addr 16) (decodeElem f data) (signedOf 8 scale))) false)

/-- Channels read write and add: the parts together. -/
def Obligations.ChannelsReadWriteAndAdd : Prop := ChannelReadsDecode ∧ ChannelWritesStore ∧ AddersAndBuffersKeepMemory

/-- R272-R276: a queued channel takes the lowest free spare of its group; after the copy the spare serves and the original is
retrained, or stays out where a rule took it out of service; an original that passes takes its data back, and the spare is free
again; without a spare in the group the channel stalls for its retrain, and serves again at its end. -/
def Sys2Proof.Machine.SparesStandIn : Prop :=
  ∀ (s : State) (n l p : Nat),
    (∀ r, MayTakeSpare s n l → s.groupFree n (l / 64) = p :: r →
      ∃ u, exec (.spareCopyStart n l) s = .next u ∧ (u.chan n l).mode = .copying ∧
        (u.chan n l).spare = some (72 * (l / 64) + p) ∧ (u.chan n l).phys = (s.chan n l).phys ∧
        u.groupFree n (l / 64) = r ∧ u.mem = s.mem) ∧
    ((s.chan n l).mode = .copying → (s.chan n l).spare = some p → (s.chan n l).why = none → (s.chan n l).passed = false →
      ∃ u, exec (.spareCopyDone n l true) s = .next u ∧ (u.chan n l).phys = p ∧
        (u.chan n l).original = some (s.chan n l).phys ∧ u.mem = s.mem) ∧
    ((s.chan n l).mode = .onSpare → (s.chan n l).original = some p → (s.chan n l).passed = false → s.listedPins n p = [] →
      ∃ u, exec (.retrainDone n l true) s = .next u ∧ u.mem = s.mem ∧
        ((u.chan n l).mode = .copyingBack ∨ (u.chan n l).passed = true)) ∧
    ((s.chan n l).mode = .copyingBack → (s.chan n l).original = some p → (s.chan n l).phys / 72 = l / 64 → (s.chan n l).passed = false →
      ∃ u, exec (.copyBackDone n l) s = .next u ∧ (u.chan n l).phys = p ∧ (u.chan n l).mode = .normal ∧
        (s.chan n l).phys % 72 ∈ u.groupFree n (l / 64) ∧ u.mem = s.mem) ∧
    (n < 24 → l < 1024 → (s.chan n l).mode = .normal → s.groupHas n (l / 64) = true →
      ∃ u, exec (.retrainDue n l) s = .next u ∧ (u.chan n l).needRetrain = true ∧ (u.chan n l).mode = .normal) ∧
    (n < 24 → l < 1024 → (s.chan n l).mode = .normal → s.groupHas n (l / 64) = false →
      (∀ k < 1024, (s.chan n k).mode ≠ .stalled) →
      ∃ u, exec (.retrainDue n l) s = .next u ∧ (u.chan n l).mode = .stalled) ∧
    ((s.chan n l).mode = .stalled →
      ∃ u, exec (.retrainDone n l true) s = .next u ∧ (u.chan n l).mode = .normal ∧ u.mem = s.mem)

/-- R277, R279: a relocated channel lowers its die's usable window to 64 GiB less 128 MiB for each relocated channel; reading a
channel's status register answers it and clears its two counts. -/
def Sys2Proof.Machine.ChannelsRelocateAndReport : Prop :=
  ∀ (s : State) (n l : Nat),
    ((s.chan n l).leaving = true → s.lk.active ≠ none → s.withdrawn n (windowAfter ((s.stack n).relocated + 1)) = true →
      ∃ u, exec (.channelRelocationDone n l) s = .next u ∧ (u.chan n l).mode = .relocated ∧ (u.chan n l).leaving = false ∧
        (u.stack n).relocated = (s.stack n).relocated + 1 ∧
        (u.stack n).limit = min (s.stack n).limit (64 * 2 ^ 30 - ((s.stack n).relocated + 1) * (128 * 2 ^ 20)) ∧
        u.mem = s.mem) ∧
    (n < 24 → l < 1024 →
      ∃ u o, exec (.channelStatusRead n l) s = .next u ∧ u.out = s.out ++ [o] ∧ o.args = [s.chanStatus n l] ∧
        o.port = 0x030000000000 + n * 0x01000000 + 0x100000 + 8 * l ∧ (u.chan n l).corr = 0 ∧ (u.chan n l).uncorr = 0 ∧
        (u.chan n l).phys = (s.chan n l).phys ∧ (u.chan n l).dead = (s.chan n l).dead)

/-- Channels are spared and relocated: the parts together. -/
def Obligations.ChannelsAreSparedAndRelocated : Prop := SparesStandIn ∧ ChannelsRelocateAndReport

namespace Sys2Proof.Machine

/-- The dictionary answers: a lockkeeper is active, the module is powered and no start runs (16 R511, 17 R514). -/
def DictUp (s : State) : Prop := s.lk.active ≠ none ∧ s.up = true

/-- The last thing that left the module answers a write of entry `ix:sub` with an item code. -/
def Answers (u : State) (ix sub code : Nat) : Prop :=
  u.out.getLast? = some { kind := .answer, port := entryKey ix sub, args := [code] }

/-- Between `s` and `u` the module raised an event. -/
def Raises (s u : State) (code : Nat) (args : List Nat) : Prop :=
  ∃ l, u.out = s.out ++ l ∧ ∃ o ∈ l, o.kind = .event ∧ o.port = code ∧ o.args = args

/-- A packet stands in the inbox of a die's engine, and the engine works for a berth that is not being reset. -/
def EngineHas (s : State) (die idx b : Nat) (p : Bytes) : Prop :=
  (s.exch die).inbox[idx]? = some p ∧ s.berthOfDie die = some b ∧ (s.berth b).life ≠ .resetting

/-- The state with that packet taken out of the inbox. -/
def Unboxed (s : State) (die idx : Nat) : State := s.modExch die fun x => { x with inbox := x.inbox.eraseIdx idx }

end Sys2Proof.Machine

/-- R294, R300: what a scale record's derivation makes of a step. No contribution leaves scale, window and history; a
non-finite step holds the scale or backs off; a finite one takes the scale from the history's maximum; a fixed policy keeps
`FIXED`; a window overflow raises the window by 32, held at 160. -/
def Obligations.ScalesAreDerived : Prop :=
  ∀ (c : ScaleCfg) (r : ScaleRec) (x : Contrib),
    (x.c = false → x.wovf = false → c.policy ≠ 2 →
      derive c r x = { r with nfLast := false, wovfLast := false, idleLast := true }) ∧
    (x.c = true → x.nf = true → c.policy ≠ 2 → x.wovf = false →
      (derive c r x).nfSteps = min 4095 (r.nfSteps + 1) ∧ (derive c r x).lastAmax = x.a ∧ (derive c r x).win = r.win ∧
      (derive c r x).scale = (if c.ovf = 0 then r.scale else scaleClamp c (r.scale + c.backoff)) ∧
      (derive c r x).histN = (if c.ovf = 2 then 0 else r.histN)) ∧
    (x.c = true → x.nf = false → x.wovf = false →
      (derive c r x).histN = min (r.histN + 1) (c.depth + 1) ∧
      (derive c r x).hist.head? = some (unsignedOf 16 (amaxExpo x.a)) ∧
      ∀ xm, histMax (derive c r x).hist = some xm →
        (c.policy = 0 → (derive c r x).scale = scaleClamp c (xm - scaleEmax c.fmt + c.margin)) ∧
        (c.policy = 1 → x.a ≠ 0 → (derive c r x).scale = scaleClamp c (amaxExpo x.a - scaleEmax c.fmt + c.margin)) ∧
        (derive c r x).win = min (max (xm + c.winHead - 126) (-320)) 160) ∧
    (c.policy = 2 → (derive c r x).scale = c.fixed) ∧
    (x.wovf = true → (derive c r x).wovfSteps = min 4095 (r.wovfSteps + 1) ∧ min 160 (r.win + 32) ≤ (derive c r x).win ∧
      (derive c r x).win ≤ 160)

/-- R37, R305, R413, R467, R468: a boundary with no timetable and no lockage opens the queues again; a held berth owes its
actions until a write of 0 to the hold entry releases it; a command whose work has ended retires, and the host finds the count
of retired commands. -/
def Sys2Proof.Machine.BoundariesAndRetirement : Prop :=
  ∀ (s : State) (b q : Nat),
    ((s.berth b).boundary = true → (tget s.snaps {} b).phase = 0 → s.setting 0x8011 (b + 1) 0 = 0 →
      ((s.berth b).held = false → ∃ u, exec (.stepBoundary b) s = .next u ∧ (u.berth b).boundary = false ∧ u.mem = s.mem ∧
        (u.berth b).stepSeq = (s.berth b).stepSeq) ∧
      ((s.berth b).held = true → ∃ u, exec (.stepBoundary b) s = .next u ∧ (u.berth b).boundary = true ∧
        (u.berth b).holdDue = true ∧ u.mem = s.mem) ∧
      ((s.berth b).held = true → DictUp s → ∃ u, exec (.holdRelease b) s = .next u ∧ (u.berth b).held = false ∧
        (u.berth b).boundary = false ∧ (u.berth b).holdDue = false ∧ Answers u 0x9004 (b + 1) 0 ∧ u.mem = s.mem)) ∧
    ((s.berth b).held = false → DictUp s → ∃ u, exec (.holdRelease b) s = .next u ∧ Answers u 0x9004 (b + 1) 0 ∧
      u.berth b = s.berth b ∧ u.mem = s.mem) ∧
    (∀ x r code, s.queue b q = some x → x.run = some r → r.done = some code → s.endsStep b x = false →
      s.ctxGone x.ctx = false → x.destroying = false →
      ∃ u y, exec (.commandRetire b q) s = .next u ∧ u.queue b q = some y ∧ y.retired = x.retired + 1 ∧
        y.admitted = x.admitted ∧ y.run = none ∧ u.mem = s.mem ∧ (u.berth b).boundary = (s.berth b).boundary ∧
        (s.canonical → s.hostUp = true → u.hostRead x.cplRing 8 = leBytes 8 (x.retired + 1)))

/-- R36, R291, R292: the step-end command of a berth retires with the keeper's work: the step sequence number rises by 1, and
the boundary's actions are owed. -/
def Sys2Proof.Machine.StepEndsAreCounted : Prop :=
  ∀ (s : State) (b q : Nat) (x : QueueSt) (r : RunSt) (code : Nat), s.queue b q = some x → x.run = some r →
    r.done = some code → s.endsStep b x = true → s.ctxGone x.ctx = false → x.destroying = false →
    ∃ u, exec (.commandRetire b q) s = .next u ∧ (u.berth b).stepSeq = (s.berth b).stepSeq + 1 ∧
      (u.berth b).boundary = true ∧ (u.berth b).tally = (s.berth b).tally

/-- Steps end at boundaries: the parts together. -/
def Obligations.StepsEndAtBoundaries : Prop := BoundariesAndRetirement ∧ StepEndsAreCounted

/-- R317, R318: the shards of a bucket follow one another without gap or overlap and hold all its elements; each has one owner,
and each rank owns one shard. -/
def Sys2Proof.Machine.ShardsCoverTheBucket : Prop :=
  ∀ (elems p i : Nat), 1 ≤ p →
    ((List.range p).map (shardElems elems p)).foldl (· + ·) 0 = elems ∧
    (∀ sh < p, shardElems elems p sh ≤ shardLen elems p ∧
      (shardElems elems p sh ≠ 0 → sh * shardLen elems p + shardElems elems p sh ≤ elems)) ∧
    (∀ o < p, ownShard p o i < p ∧ shardOwner p (ownShard p o i) i = o) ∧
    (∀ sh < p, ownShard p (shardOwner p sh i) i = sh)

/-- R321, R323, R324, R329, R334, R339, R341: a post waits in its die's queue; the
first post whose bucket's previous round is complete starts a round, or is refused with a code; a contribution or a result
packet that breaks its checks is dropped and counted and changes no memory, any other is taken; a passed deadline is reported
once. -/
def Sys2Proof.Machine.ExchangeEnginesRun : Prop :=
  ∀ (s : State) (die idx b : Nat),
    (∀ v, s.berthOfDie die = some b →
      ∃ u, exec (.postRegisterWrite die v) s = .next u ∧ (u.exch die).posts = (s.exch die).posts ++ [v] ∧
        (u.exch die).rounds = (s.exch die).rounds ∧ u.mem = s.mem) ∧
    (∀ v l, s.berthOfDie die = some b → (s.exch die).posts = v :: l → s.postWaits die v = false → v.toNat < 4096 →
      (∀ c, s.exchCtx b die v.toNat = .ok c →
        ∃ u, exec (.exchPostTake die) s = .next u ∧ u = (s.modExch die fun x => { x with posts := l }).startRound c) ∧
      (∀ code, s.exchCtx b die v.toNat = .error code →
        ∃ u, exec (.exchPostTake die) s = .next u ∧ (u.exch die).posts = l ∧ (u.exch die).rounds = (s.exch die).rounds ∧
          Raises s u code [b, v.toNat, die])) ∧
    (∀ p c, EngineHas s die idx b p → leAt p 0 1 ≠ 4 → s.exchCtx b die (pktHdr p).bucket = .ok c →
      (s.contribFault c p = 0 →
        ∃ u, exec (.exchPacketArrival die idx) s = .next u ∧ u = (Unboxed s die idx).takeContrib c p) ∧
      (∀ r, s.contribFault c p ≠ 0 → s.round die (pktHdr p).bucket = some r →
        ∃ u m, exec (.exchPacketArrival die idx) s = .next u ∧ u.round die (pktHdr p).bucket = some m ∧
          m.pktDrop = r.pktDrop + 1 ∧ m.accepted = r.accepted ∧ m.dRecv = r.dRecv ∧ u.mem = s.mem ∧
          (s.contribFault c p ∉ r.raised → Raises s u (s.contribFault c p) [b, (pktHdr p).bucket, die]))) ∧
    (∀ p c r, EngineHas s die idx b p → leAt p 0 1 = 4 → s.exchCtx b die (pktHdr p).bucket = .ok c →
      s.round die (pktHdr p).bucket = some r →
      (s.resultFault c p = 0 → (r.posted = true → r.owned = true →
          ∃ x ∈ resultsDue c, x ∉ r.got ∧ x ≠ ((pktHdr p).shard, (pktHdr p).offset)) →
        ∃ u m, exec (.exchResultArrival die idx) s = .next u ∧ u.round die (pktHdr p).bucket = some m ∧
          m.got = r.got ++ [((pktHdr p).shard, (pktHdr p).offset)] ∧ m.dGin = r.dGin + pktHash p) ∧
      (s.resultFault c p = 0 → r.posted = true → r.owned = true →
        (∀ x ∈ resultsDue c, x ∈ r.got ∨ x = ((pktHdr p).shard, (pktHdr p).offset)) →
        ∃ u, exec (.exchResultArrival die idx) s = .next u ∧ u.round die (pktHdr p).bucket = none) ∧
      (s.resultFault c p ≠ 0 →
        ∃ u m, exec (.exchResultArrival die idx) s = .next u ∧ u.round die (pktHdr p).bucket = some m ∧
          m.pktDrop = r.pktDrop + 1 ∧ m.got = r.got ∧ m.dGin = r.dGin ∧ u.mem = s.mem)) ∧
    (∀ i r c, s.berthOfDie die = some b → s.round die i = some r → r.inFlight = true → s.exchCtx b die i = .ok c →
      (0x05D0 ∉ r.raised → ∃ u m, exec (.exchDeadline die i) s = .next u ∧ u.round die i = some m ∧ 0x05D0 ∈ m.raised ∧
        m.posted = r.posted ∧ Raises s u 0x05D0 [b, i, die] ∧ u.mem = s.mem) ∧
      (0x05D0 ∈ r.raised → exec (.exchDeadline die i) s = .next s))

/-- Gradients are exchanged: the parts together. -/
def Obligations.GradientsAreExchanged : Prop := ShardsCoverTheBucket ∧ ExchangeEnginesRun

namespace Sys2Proof.Machine

/-- A control flit of a type that a port takes: the port is on and the CRC holds (12 R346). -/
def CtlIn (s : State) (p t : Nat) (flit : Bytes) : Prop :=
  (s.link p).on = true ∧ flitOk flit = true ∧ flitType flit = t

/-- A discovery frame of a subtype that has arrived whole, with a CRC and a layout that hold (12 R358). -/
def DiscIn (s : State) (idx p sub : Nat) (pl : Bytes) : Prop :=
  ∃ b, s.fabric.inbox[idx]? = some (p, b) ∧ leAt b 0 1 = 0x10 ∧ payloadOf b = pl ∧ leAt pl 0 1 = sub ∧ frameOk b = true ∧
    discFormOk pl = true

/-- A frame of a kind for this node that has arrived whole, with a CRC that holds. -/
def FrameIn (s : State) (idx kind : Nat) (b : Bytes) : Prop :=
  (∃ p, s.fabric.inbox[idx]? = some (p, b)) ∧ (hdrOf b).kind = kind ∧ (hdrOf b).dst = s.nodeId ∧ frameOk b = true

/-- The state with an arrived frame taken. -/
def Unframed (s : State) (idx : Nat) : State := s.modFabric fun x => { x with inbox := x.inbox.eraseIdx idx }

end Sys2Proof.Machine

/-- R345, R346: a data flit in sequence extends its frame and ends an outstanding replay; one with a bad CRC, in an
uncorrectable codeword or out of sequence is discarded, and `REPLAY` names the first sequence that is lacking. A whole
discovery frame is left for the step that handles it. -/
def Sys2Proof.Machine.DataFlitsArriveInOrder : Prop :=
  ∀ (s : State) (p : Nat) (flit : Bytes), (s.link p).on = true →
    (flitOk flit = true → flitType flit = 2 → leAt flit 60 2 % 4096 = (s.link p).rxSeq % 4096 → 2 ≤ (s.link p).rxLeft →
      ∃ u, exec (.dataFlitReceive p flit false) s = .next u ∧ (u.link p).rxSeq = (s.link p).rxSeq + 1 ∧
        (u.link p).replay = none ∧ (u.link p).rxFrame = (s.link p).rxFrame ++ flit.take 60 ∧
        (u.link p).rxLeft = (s.link p).rxLeft - 1 ∧ u.fabric.inbox = s.fabric.inbox) ∧
    (flitOk flit = true → flitType flit = 1 → leAt flit 60 2 % 4096 = (s.link p).rxSeq % 4096 →
      2 ≤ leAt (flit.take 60) 3 1 →
      ∃ u, exec (.dataFlitReceive p flit false) s = .next u ∧ (u.link p).rxSeq = (s.link p).rxSeq + 1 ∧
        (u.link p).replay = none ∧ (u.link p).rxFrame = flit.take 60 ∧
        (u.link p).rxLeft = (32 + 16 * leAt (flit.take 60) 3 1 + 59) / 60 - 1 ∧ u.fabric.inbox = s.fabric.inbox) ∧
    (flitOk flit = true → flitType flit = 1 → leAt flit 60 2 % 4096 = (s.link p).rxSeq % 4096 →
      leAt (flit.take 60) 3 1 ≤ 1 → leAt flit 0 1 = 0x10 →
      ∃ u, exec (.dataFlitReceive p flit false) s = .next u ∧ (u.link p).rxSeq = (s.link p).rxSeq + 1 ∧
        (u.link p).rxFrame = [] ∧ (u.link p).rxLeft = 0 ∧
        u.fabric.inbox = s.fabric.inbox ++ [(p, (flit.take 60).take (32 + 16 * leAt (flit.take 60) 3 1))]) ∧
    (∀ bad : Bool, (bad = true ∨ flitOk flit = false ∨
        ((flitType flit = 1 ∨ flitType flit = 2) ∧ leAt flit 60 2 % 4096 ≠ (s.link p).rxSeq % 4096)) →
      ∃ u, exec (.dataFlitReceive p flit bad) s = .next u ∧ (u.link p).rxSeq = (s.link p).rxSeq ∧
        (u.link p).rxFrame = (s.link p).rxFrame ∧ u.fabric.inbox = s.fabric.inbox ∧
        ((s.link p).replay ≠ none → u = s) ∧
        ((s.link p).replay = none →
          (u.link p).replay = some (if bad then 2 else if flitOk flit = false then 1 else 3) ∧
          ∃ o, u.out = s.out ++ [o] ∧ o.port = p ∧ o.data = flitBytes 0xA 0 (leBytes 2 ((s.link p).rxSeq % 4096) ++
            leBytes 1 (if bad then 2 else if flitOk flit = false then 1 else 3))))

/-- R346, R367: `ACK` frees the replay buffer up to the sequence it names, `CREDIT` raises the peer's counts to values that
agree with it modulo 2^16, `REPLAY` brings every flit from a sequence on again, in order. -/
def Sys2Proof.Machine.ControlFlitsAct : Prop :=
  ∀ (s : State) (p : Nat) (flit : Bytes),
    (∀ i, CtlIn s p 8 flit → (s.link p).unacked.findIdx? (fun f => f.seq == leAt flit 0 2 % 4096) = some i →
      ∃ u l, exec (.ackFlit p flit) s = .next u ∧ (u.link p).unacked = (s.link p).unacked.drop (i + 1) ++ l ∧
        ((s.link p).waitq = [] → l = []) ∧ (u.link p).life = (s.link p).life) ∧
    (CtlIn s p 9 flit →
      ∃ u, exec (.creditFlit p flit) s = .next u ∧ ∀ i < 8,
        tget (u.link p).peerFreed 0 i % 65536 = leAt flit (2 * i) 2 ∧
        tget (s.link p).peerFreed 0 i ≤ tget (u.link p).peerFreed 0 i ∧
        tget (u.link p).peerFreed 0 i < tget (s.link p).peerFreed 0 i + 65536) ∧
    (∀ i, CtlIn s p 0xA flit → (s.link p).unacked.findIdx? (fun f => f.seq == leAt flit 0 2 % 4096) = some i →
      ∃ u, exec (.replayFlit p flit) s = .next u ∧ u = { s with out := u.out } ∧
        u.out = s.out ++ ((s.link p).unacked.drop i).map fun f =>
          { kind := .flit, port := p, args := [f.ftype, f.seq], data := flitBytes f.ftype f.seq f.body }) ∧
    (∀ c : LaneChange, CtlIn s p 0xB flit → c.leaving = leAt flit 1 1 → c.taking = leAt flit 2 1 →
      c.codeword = leAt flit 4 2 →
      (leAt flit 0 1 = 1 → c.agreed = true → (s.link p).changes = [] →
        ∃ u, exec (.laneCtl p flit) s = .next u ∧ (u.link p).changes = [c] ∧ (u.link p).lanes = (s.link p).lanes ∧
          ∃ o, u.out = s.out ++ [o] ∧ o.kind = .flit ∧ o.port = p ∧ o.data = flitBytes 0xB 0
            (leBytes 1 2 ++ leBytes 1 c.leaving ++ leBytes 1 c.taking ++ [0] ++ leBytes 2 c.codeword)) ∧
      (leAt flit 0 1 = 2 → c.agreed = false → (s.link p).changes = [c] →
        ∃ u, exec (.laneCtl p flit) s = .next u ∧ (u.link p).changes = [{ c with agreed := true }] ∧
          (u.link p).lanes = (s.link p).lanes ∧ u.out = s.out)) ∧
    ((s.link p).on = true →
      ∃ u l, exec (.linkControlTimer p) s = .next u ∧ u = { s with out := s.out ++ l } ∧
        (∀ o ∈ l, o.kind = .flit ∧ o.port = p) ∧
        ((s.link p).rxSeq ≠ 0 → ∃ o ∈ l, o.data = flitBytes 8 0 (leBytes 2 (((s.link p).rxSeq + 4095) % 4096))) ∧
        (∃ o ∈ l, o.data = flitBytes 9 0 ((List.range 8).flatMap fun i => leBytes 2 (tget (s.link p).freed 0 i))) ∧
        ∀ r, (s.link p).replay = some r →
          ∃ o ∈ l, o.data = flitBytes 0xA 0 (leBytes 2 ((s.link p).rxSeq % 4096) ++ leBytes 1 r))

/-- Flits arrive and act: the parts together. -/
def Obligations.FlitsArriveAndAct : Prop := DataFlitsArriveInOrder ∧ ControlFlitsAct

/-- R346-R348, R357, R382: lane S takes a retired lane's place at the codeword that both ends agreed on; with S in use the
port narrows, and below four data lanes it goes down; a port that trains forgets its link sequences and starts discovery. -/
def Sys2Proof.Machine.LanesAreRetired : Prop :=
  ∀ (s : State) (p lane codeword : Nat),
    (∀ c, (s.link p).changes = [c] → c.agreed = true →
      ∃ u, exec (.laneSwitch p c.codeword) s = .next u ∧ (u.link p).changes = [] ∧
        (c.taking = 8 → (u.link p).spare = some c.leaving ∧ (u.link p).lanes = (s.link p).lanes) ∧
        (c.taking ≠ 8 → (u.link p).lanes = (s.link p).lanes.erase c.leaving)) ∧
    (p < 24 → lane < 8 → lane ∉ (s.link p).retired → (s.link p).changes = [] → (s.link p).on = true →
      (8 ∉ (s.link p).retired → (s.link p).spare = none →
        ∃ u, exec (.laneRetire p lane codeword) s = .next u ∧ (u.link p).retired = (s.link p).retired ++ [lane] ∧
          (u.link p).changes = [{ leaving := lane, taking := 8, codeword := codeword % 65536 }] ∧
          (u.link p).lanes = (s.link p).lanes ∧ Raises s u 0x0584 [0xFF, p, lane]) ∧
      (∀ x, (s.link p).spare = some x → 4 ≤ ((s.link p).lanes.filter fun y => y != lane).length →
        ∃ u, exec (.laneRetire p lane codeword) s = .next u ∧ (u.link p).retired = (s.link p).retired ++ [lane] ∧
          (u.link p).changes = [{ leaving := lane, taking := 0xFF, codeword := codeword % 65536 }] ∧
          (u.link p).life = (s.link p).life ∧
          Raises s u 0x0585 [0xFF, p, ((s.link p).lanes.filter fun y => y != lane).length]) ∧
      (∀ x, (s.link p).spare = some x → ((s.link p).lanes.filter fun y => y != lane).length < 4 →
        ∃ u, exec (.laneRetire p lane codeword) s = .next u ∧ (u.link p).life = .down)) ∧
    (lane ∈ (s.link p).retired → exec (.laneRetire p lane codeword) s = .next s) ∧
    (s.portFree p = true → (s.link p).life ≠ .active →
      ∃ u, exec (.portLinkUp p []) s = .next u ∧ (u.link p).life = .discovery ∧ (u.link p).rxSeq = 0 ∧
        (u.link p).disc.peer = none ∧ (u.link p).disc.challengeSent = false ∧
        (u.link p).disc.nonce = leBytes 32 (Config.freeBits 256 s.free).toNat ∧ (u.link p).lanes = (s.link p).lanes) ∧
    (∀ bad, s.portFree p = false → exec (.portLinkUp p bad) s = .next s)

/-- R356-R360: what each discovery frame does. `HELLO` names the peer and brings the challenge; fragments are kept; a
challenge is answered with a proof over both nonces; a proof that holds makes the port active, and one that does not, or a
peer that is not the planned one, disables it. -/
def Sys2Proof.Machine.DiscoveryFindsThePeer : Prop :=
  ∀ (s : State) (idx p : Nat) (pl : Bytes),
    (DiscIn s idx p 1 pl → (s.link p).life ≠ .active →
      (∀ g, s.portGang p = some g → s.gangMask g = some (s.nodeId ^^^ leAt pl 4 2) → leAt pl 6 1 = p →
        ∃ u, exec (.hello idx) s = .next u ∧ (u.link p).disc.peer = some (leAt pl 4 2, p, (pl.drop 32).take 32) ∧
          (u.link p).peerNode = leAt pl 4 2 ∧ (u.link p).disc.challengeSent = true ∧ (u.link p).life = (s.link p).life) ∧
      (∀ g, s.portGang p = some g → (s.gangMask g ≠ some (s.nodeId ^^^ leAt pl 4 2) ∨ leAt pl 6 1 ≠ p) →
        ∃ u, exec (.hello idx) s = .next u ∧ (u.link p).life = .disabled ∧ Raises s u 0x0581 [0xFF, p, 0]) ∧
      (s.portGang p = none →
        ∃ u, exec (.hello idx) s = .next u ∧ (u.link p).life = .disabled ∧ Raises s u 0x0582 [0xFF, p, 0])) ∧
    (DiscIn s idx p 2 pl → (s.link p).life ≠ .active →
      ∃ u, exec (.cert idx) s = .next u ∧ tfind (u.link p).disc.frags (leAt pl 16 2) = some ((pl.drop 32).take (leAt pl 24 2)) ∧
        (u.link p).disc.nFrags = leAt pl 18 2 ∧ (∀ i ≠ leAt pl 16 2, tfind (u.link p).disc.frags i = tfind (s.link p).disc.frags i) ∧
        (u.link p).life = (s.link p).life ∧ u.fabric.inbox = s.fabric.inbox.eraseIdx idx) ∧
    (DiscIn s idx p 3 pl → s.lk.seFailed = false →
      ∃ u, exec (.discoveryChallenge idx) s = .next u ∧ u.free = s.free + 1 ∧
        u = (Unframed s idx).nextFree.sendDisc p 4 (zeros 16 ++ padTo 96 (Config.sign s.free
          (proofBlock (s.link p).disc.nonce ((pl.drop 32).take 32) s.nodeId p)))) ∧
    (DiscIn s idx p 3 pl → s.lk.seFailed = true → exec (.discoveryChallenge idx) s = .next (Unframed s idx)) ∧
    (∀ chain node nonce g, DiscIn s idx p 4 pl → (s.link p).life ≠ .active → (s.link p).disc.chain = some chain →
      (s.link p).disc.peer = some (node, p, nonce) → s.portGang p = some g →
      (Config.deviceChain chain = true → s.fprOk g (sha384 (firstCert chain)) = true →
        Config.verify (firstCert chain) (proofBlock nonce (s.link p).disc.nonce node p) ((pl.drop 32).take 96) = true →
        s.gangMask g = some (s.nodeId ^^^ node) →
        ∃ u, exec (.proof idx) s = .next u ∧ (u.link p).life = .active ∧ (u.link p).peerNode = node ∧
          (u.link p).seen = sha384 (firstCert chain)) ∧
      ((Config.deviceChain chain = false ∨ s.fprOk g (sha384 (firstCert chain)) = false ∨
          Config.verify (firstCert chain) (proofBlock nonce (s.link p).disc.nonce node p) ((pl.drop 32).take 96) = false) →
        ∃ u, exec (.proof idx) s = .next u ∧ (u.link p).life = .disabled ∧ Raises s u 0x0580 [0xFF, p, 0])) ∧
    (((s.link p).life = .discovery → exec (.discoveryResendTimer p) s = .next ((s.sendHello p).sendCerts p)) ∧
      ((s.link p).life ≠ .discovery → exec (.discoveryResendTimer p) s = .next s)) ∧
    ((s.link p).life = .disabled →
      ∃ u, exec (.discoveryRetryTimer p) s = .next u ∧ (u.link p).life = .discovery ∧ (u.link p).disc.peer = none ∧
        u.free = s.free + 1) ∧
    ((s.link p).life ≠ .disabled → exec (.discoveryRetryTimer p) s = .next s)

/-- Lanes and peers are managed: the parts together. -/
def Obligations.LanesAndPeersAreManaged : Prop := LanesAreRetired ∧ DiscoveryFindsThePeer

/-- R353-R356, R362: a plan is held, or refused with its code and not held; a write of 1 activates a held plan whose ports are
all active, or refuses it as unroutable; the end of the wait decides a waiting plan on routes built anew; a write of 2 empties
the slot. -/
def Sys2Proof.Machine.CutPlansAreHeldAndActivated : Prop :=
  ∀ (s : State) (slot : Nat) (b : Bytes),
    (DictUp s → 1 ≤ slot → slot ≤ 32 →
      ∃ u, exec (.cutPlanWrite slot b) s = .next u ∧ Answers u 0x5100 slot (s.planCode slot b) ∧
        (s.planCode slot b = 0 → u.plan slot = { bytes := b, st := 1 }) ∧
        (s.planCode slot b ≠ 0 → (u.plan slot).refusal = s.planCode slot b ∧
          ((s.plan slot).st = 1 ∨ (s.plan slot).st = 2 →
            (u.plan slot).bytes = (s.plan slot).bytes ∧ (u.plan slot).st = (s.plan slot).st) ∧
          ((s.plan slot).st ≠ 1 → (s.plan slot).st ≠ 2 → (u.plan slot).st = 3 ∧ (u.plan slot).bytes = [])) ∧
        u.fabric.routes = s.fabric.routes) ∧
    (DictUp s → (s.plan slot).st = 1 →
      ((∀ p ∈ planPorts (s.plan slot).bytes, (s.link p).life = .active) →
        ∃ u, exec (.cutPlanActivate slot) s = .next u ∧ Answers u 0x5101 slot 0 ∧ (u.plan slot).waiting = false ∧
          ((u.plan slot).st = 2 ∨ ((u.plan slot).st = 3 ∧ (u.plan slot).refusal = 0x0542))) ∧
      ((∃ p ∈ planPorts (s.plan slot).bytes, (s.link p).life ≠ .active) →
        ∃ u, exec (.cutPlanActivate slot) s = .next u ∧ Answers u 0x5101 slot 0 ∧ (u.plan slot).waiting = true ∧
          (u.plan slot).st = 1)) ∧
    (DictUp s → ((s.plan slot).st = 1 ∨ (s.plan slot).st = 2) →
      ∃ u, exec (.cutPlanWithdraw slot) s = .next u ∧ Answers u 0x5101 slot 0 ∧ u.plan slot = {} ∧
        u.fabric.routesDue = true) ∧
    (DictUp s → (s.plan slot).st ≠ 1 → (s.plan slot).st ≠ 2 →
      ∃ u, exec (.cutPlanWithdraw slot) s = .next u ∧ Answers u 0x5101 slot 0x080C ∧ u.fabric = s.fabric) ∧
    ((s.plan slot).waiting = true → (s.plan slot).st = 1 →
      ∃ u, exec (.discoveryWaitExpiry slot) s = .next u ∧ (u.plan slot).waiting = false ∧ u.fabric.routes = s.routeTable ∧
        (((u.plan slot).st = 2 ∧ u.planRoutable (s.plan slot).bytes = true) ∨
          ((u.plan slot).st = 3 ∧ (u.plan slot).refusal = 0x0542 ∧
            (u.plan slot).missing = (planPorts (s.plan slot).bytes).filter fun p => (s.link p).life != .active))) ∧
    ((s.plan slot).waiting = false → exec (.discoveryWaitExpiry slot) s = .next s) ∧
    (s.fabric.routesDue = true →
      ∃ u, exec .routeBuild s = .next u ∧ u.fabric.routes = s.routeTable ∧ u.fabric.routesDue = false ∧
        (s.routeTable ≠ s.fabric.routes → Raises s u 0x0587 [0xFF, 0, 0])) ∧
    (s.fabric.routesDue = false → exec .routeBuild s = .next s)

/-- R363, R364, R371, R373, R374, R528: a frame for another node goes on by its route with `TTL` one lower, and is dropped
with an event when its `TTL` has run out; a fenced unit's frame is counted as ghost traffic; a window entry is taken as
written, but one that would be valid against its form is made invalid, with an event. -/
def Sys2Proof.Machine.TransitAndWindows : Prop :=
  ∀ (s : State) (idx p w : Nat) (f : Bytes) (e : BitVec 128),
    (s.fabric.inbox[idx]? = some (p, f) → (hdrOf f).kind ≠ 0x10 → (hdrOf f).dst ≠ s.nodeId →
      ((hdrOf f).ttl = 0 →
        ∃ u, exec (.frameTransit idx none) s = .next u ∧ u.fabric = (Unframed s idx).fabric ∧
          Raises s u 0x0588 [0xFF, (hdrOf f).dst, p]) ∧
      (∀ pos g q, (hdrOf f).ttl ≠ 0 →
        s.exitFor (hdrOf f).job (hdrOf f).dst (s.portGang p) (hdrOf f).ttl = some (pos, g) →
        s.pickPort g (hdrOf f).job (hdrOf f) = some q →
        ∃ u pool, exec (.frameTransit idx none) s = .next u ∧ (pool = 0 ∨ pool = 4) ∧
          u = (Unframed s idx).sendOnPort q (mkFrame
            { hdrOf f with ttl := (hdrOf f).ttl - 1, cls := (hdrOf f).cls % 4 + pool } (payloadOf f))) ∧
      ((hdrOf f).ttl ≠ 0 → s.exitFor (hdrOf f).job (hdrOf f).dst (s.portGang p) (hdrOf f).ttl = none →
        ∃ u, exec (.frameTransit idx none) s = .next u ∧ u.fabric.noExit = s.fabric.noExit + 1 ∧
          u.fabric.ports = s.fabric.ports ∧ u.fabric.inbox = s.fabric.inbox.eraseIdx idx)) ∧
    (∀ d, d ∈ s.defects.fenced →
      ∃ u, exec (.frameTransit idx (some d)) s = .next u ∧ u.fabric.ghost = s.fabric.ghost + 1 ∧
        Raises s u 0x058B [0xFF, 0, 0]) ∧
    (w < 131072 →
      ((e.getLsbD 0 = false ∨ s.windowFormOk w e = true) →
        ∃ u, exec (.windowEntryWrite w e) s = .next u ∧ tget u.fabric.windows 0 w = e ∧
          (∀ v ≠ w, tget u.fabric.windows 0 v = tget s.fabric.windows 0 v) ∧ u.out = s.out) ∧
      (e.getLsbD 0 = true → s.windowFormOk w e = false →
        ∃ u, exec (.windowEntryWrite w e) s = .next u ∧ (tget u.fabric.windows 0 w).getLsbD 0 = false ∧
          (∀ v ≠ w, tget u.fabric.windows 0 v = tget s.fabric.windows 0 v) ∧ Raises s u 0x0544 [0xFF, w, 0]))

/-- R375, R378, R379: a request for this node is performed once, inside a window alone, and answered. A read takes what the
lines hold, a write stores its bytes, an atomic performs its operation; outside a window, or above the usable limit, memory
stays and the status tells why; a request ahead of an earlier one to its line is held; a repeated one is not performed again. -/
def Sys2Proof.Machine.RemoteRequestsArePerformed : Prop :=
  ∀ (s : State) (idx : Nat) (b : Bytes) (h : FrameHdr), h = hdrOf b →
    (∀ st, FrameIn s idx 1 b → s.requestStatus h 1 (reqBytes h) = st →
      ∃ u, exec (.readRequest idx false) s = .next u ∧ u.mem = s.mem ∧ (u.histOf h).performed.head? = some h.seq ∧
        (st = 0 → (u.histOf h).saved.head? = some (h.seq, s.responseTo h 4
          (if s.mem.anyMarked h.addr (reqBytes h) then 128 else 0) (s.memRead h.addr (reqBytes h)))) ∧
        (st ≠ 0 → (u.histOf h).saved.head? = some (h.seq, s.responseTo h 4 st []))) ∧
    (∀ st, FrameIn s idx 2 b → s.wcbRoom h.addr = true → h.seq ∉ (s.histOf h).performed →
      s.requestStatus h 2 (reqBytes h) = st →
      ∃ u, exec (.writeRequest idx false) s = .next u ∧ (u.histOf h).performed.head? = some h.seq ∧
        (st = 0 → u.mem = (s.homeStore h.addr ((payloadOf b).take (reqBytes h))).mem ∧
          (u.histOf h).saved.head? = some (h.seq, s.responseTo h 5 0 [])) ∧
        (st ≠ 0 → u.mem = s.mem ∧ (u.histOf h).saved.head? = some (h.seq, s.responseTo h 5 st []))) ∧
    (∀ st op, FrameIn s idx 3 b → s.wcbRoom h.addr = true → h.seq ∉ (s.histOf h).performed →
      op = remoteAtomic h (payloadOf b) → s.requestStatus h 3 (remoteAtomic h []).bytes = st →
      ∃ u, exec (.atomicRequest idx false) s = .next u ∧ (u.histOf h).performed.head? = some h.seq ∧
        (st = 0 → u.mem = (s.homeAdd none 0xFFFD h.addr op).1.mem ∧
          (u.histOf h).saved.head? = some (h.seq, s.responseTo h 5 (if s.mem.anyMarked h.addr op.bytes then 128 else 0)
            (if h.op.testBit 7 then leBytes op.bytes (s.homeAdd none 0xFFFD h.addr op).2 else []))) ∧
        (st ≠ 0 → u.mem = s.mem ∧ (u.histOf h).saved.head? = some (h.seq, s.responseTo h 5 st []))) ∧
    (∀ kind i (ahead : Bool), (kind, i) ∈ [(2, Instr.writeRequest idx ahead), (3, Instr.atomicRequest idx ahead)] →
      FrameIn s idx kind b → s.wcbRoom h.addr = true →
      (h.seq ∈ (s.histOf h).performed → ∃ u, exec i s = .next u ∧ u.mem = s.mem ∧ u.fabric.hist = s.fabric.hist) ∧
      (h.seq ∉ (s.histOf h).performed → ahead = true →
        ∃ u, exec i s = .next u ∧ u.mem = s.mem ∧ (u.histOf h).held = (s.histOf h).held ++ [b] ∧
          (u.histOf h).performed = (s.histOf h).performed ∧ u.out = s.out))

/-- R375, R379, R380, R382: a response ends its request: data reach the waiting load, an acknowledgement ends a store, a
denial fails it, and a response that nobody waits for is counted; a request is sent again unchanged, fails at its timeout,
and what is kept of a source lapses. -/
def Sys2Proof.Machine.RemoteResponsesReachTheSource : Prop :=
  ∀ (s : State) (idx : Nat) (b : Bytes) (h : FrameHdr), h = hdrOf b →
    (∀ kind i, (kind, i) ∈ [(4, Instr.readResponse idx), (5, Instr.writeAtomicResponse idx)] → FrameIn s idx kind b →
      (s.waitingFor h = none →
        ∃ u, exec i s = .next u ∧ u.fabric.orphan = s.fabric.orphan + 1 ∧ u.cores = s.cores ∧
          Raises s u 0x058C [0xFF, h.src, h.unit]) ∧
      (∀ r, s.waitingFor h = some r → h.status = 1 →
        ∃ u, exec i s = .next u ∧ u = ((Unframed s idx).modFabric fun x =>
          { x with reqs := x.reqs.filter fun y => y != r }).failRequest r 0x0502) ∧
      (∀ r a, s.waitingFor h = some r → r.unit < 0x200 → h.status = 0 → (s.core r.core).access r.access = some a →
        ∃ u, exec i s = .next u ∧ r ∉ u.fabric.reqs ∧
          (a.kind = .load → (u.core r.core).access r.access =
            some { a with done := some [leAt (payloadOf b) 0 (a.parts.head?.elim 0 fun x => x.size)] }) ∧
          (a.kind = .store → (u.core r.core).access r.access = none) ∧
          (a.kind = .atomic → a.ret = false → (u.core r.core).access r.access = none))) ∧
    (∀ r unit node seq, s.fabric.reqs.find? (fun r => r.unit == unit && r.node == node && r.seq == seq) = some r →
      (r.die ∉ s.defects.fenced →
        exec (.remoteRetransmit unit node seq) s = .next (s.sendFrame r.frame)) ∧
      (∃ u, exec (.remoteTimeout unit node seq) s = .next u ∧
        u = (s.modFabric fun x => { x with reqs := x.reqs.filter fun y => y != r }).failRequest r 0x0503)) ∧
    (∀ node unit, ∃ u, exec (.remoteHistoryExpiry node unit) s = .next u ∧
      (tget u.fabric.hist {} (node * 65536 + unit)).performed = [] ∧ (tget u.fabric.hist {} (node * 65536 + unit)).saved = [] ∧
      (tget u.fabric.hist {} (node * 65536 + unit)).held = (tget s.fabric.hist {} (node * 65536 + unit)).held ∧
      u.fabric.reqs = s.fabric.reqs)

/-- Remote accesses are served: the parts together. -/
def Obligations.RemoteAccessesAreServed : Prop := RemoteRequestsArePerformed ∧ RemoteResponsesReachTheSource

/-- R20, R382, R528: a fabric die that fails takes its link ports down and counts a restart; it returns with an event, or is
fenced for good after its third failure. -/
def Sys2Proof.Machine.FabricDiesRestart : Prop :=
  ∀ (s : State) (k : Nat), k < 8 →
    ((tget s.fabric.fds {} k).up = true →
      ∃ u, exec (.fdFailure k) s = .next u ∧ (tget u.fabric.fds {} k).up = false ∧
        (tget u.fabric.fds {} k).restarts = (tget s.fabric.fds {} k).restarts + 1 ∧
        (∀ p ∈ fdLinks k, (u.link p).life = .down) ∧ (∀ p ∈ fdBasins k, (u.basin p).up = false) ∧
        ∀ j, j ≠ k → tget u.fabric.fds {} j = tget s.fabric.fds {} j) ∧
    ((tget s.fabric.fds {} k).up = false → k ∉ s.defects.fencedFds →
      ∃ u, exec (.fdRestart k true) s = .next u ∧ (tget u.fabric.fds {} k).up = true ∧ u.fabric.routes = s.routeTable ∧
        (∀ p ∈ fdBasins k, (u.basin p).up = true) ∧ Raises s u 0x058A [0xFF, 24 + k, 0]) ∧
    ((tget s.fabric.fds {} k).up = false → k ∉ s.defects.fencedFds → s.lk.active ≠ none →
      ∃ u, exec (.fdRestart k false) s = .next u ∧ u.defects.fencedFds = s.defects.fencedFds ++ [k] ∧
        (tget u.fabric.fds {} k).up = false ∧ Raises s u 0x098E [0xFF, 24 + k, 0])

/-- Plans route transit: the parts together. -/
def Obligations.PlansRouteTransit : Prop := CutPlansAreHeldAndActivated ∧ TransitAndWindows ∧ FabricDiesRestart

namespace Sys2Proof.Machine

/-- A UDP payload at a basin port belongs to stream `st` of berth `b` (13 R386, R393). -/
def FrameOf (s : State) (port : Nat) (src : Bytes) (srcPort dstPort b st : Nat) : Prop :=
  (s.basin port).up = true ∧ st < 16 ∧ b < 24 ∧ dstPort = s.udpBase + 16 * b + st ∧ (s.strm b st).enable = 1 ∧
    (s.strmCfg b st).ports.testBit port = true ∧ (s.strmCfg b st).srcAddr = src ∧ (s.strmCfg b st).srcPort = srcPort

/-- A sluice message of a stream left the module between `s` and `u` (13 R396). -/
def Sluices (s u : State) (b st cmd : Nat) : Prop :=
  ∃ l, u.out = s.out ++ l ∧ ∃ o ∈ l, o.kind = .stream ∧ o.args = [cmd, b, st] ∧ o.data.length = 48

/-- A queue's command of an opcode starts: it may, and it is not refused for its words or its barges (15 R466, R473). -/
def Starts (s : State) (b q opc : Nat) (w : List Nat) : Prop :=
  ∃ x, s.startable b q opc = some (x, w) ∧ (s.beginCmd b q w).cmdCode b x w = 0 ∧ (s.beginCmd b q w).bargeCode b w = 0

end Sys2Proof.Machine

/-- R386, R390, R392, R393: a frame of a stream lands in the slot of its sequence, or is dropped and counted by the first
check that it fails; a payload that belongs to no stream is counted at its port. -/
def Sys2Proof.Machine.StreamFramesLand : Prop :=
  ∀ (s : State) (port : Nat) (src : Bytes) (srcPort dstPort : Nat) (udpOk : Bool) (f : Bytes) (b st : Nat),
    (FrameOf s port src srcPort dstPort b st →
      (s.frameFate b st udpOk f = .land →
        ∃ u own, exec (.streamFrameArrival port src srcPort dstPort udpOk f) s = .next u ∧ own.length = 16 ∧
          (u.strm b st).high = max (s.strm b st).high (beAt f 16 8 + 1) ∧ (u.strm b st).port = some port ∧
          (u.strm b st).dropCrc = (s.strm b st).dropCrc ∧ (u.strm b st).dropOther = (s.strm b st).dropOther ∧
          (u.strm b st).breach = (s.strm b st).breach ∧
          u.mem = ((s.unitWrite b ((s.strmCfg b st).va + 8192 * (beAt f 16 8 % (s.strmCfg b st).slots)) (f.drop 48)).unitWrite b
            ((s.strmCfg b st).va + 8192 * (s.strmCfg b st).slots + 64 * (beAt f 16 8 % (s.strmCfg b st).slots))
            (f.take 48 ++ own)).mem) ∧
      (s.frameFate b st udpOk f = .crc →
        ∃ u, exec (.streamFrameArrival port src srcPort dstPort udpOk f) s = .next u ∧ u.mem = s.mem ∧
          u.strm b st = { s.strm b st with port := some port, dropCrc := (s.strm b st).dropCrc + 1 }) ∧
      (s.frameFate b st udpOk f = .other →
        ∃ u, exec (.streamFrameArrival port src srcPort dstPort udpOk f) s = .next u ∧ u.mem = s.mem ∧
          u.strm b st = { s.strm b st with port := some port, dropOther := (s.strm b st).dropOther + 1 }) ∧
      (s.frameFate b st udpOk f = .breach →
        ∃ u, exec (.streamFrameArrival port src srcPort dstPort udpOk f) s = .next u ∧ u.mem = s.mem ∧
          u.strm b st = { s.strm b st with port := some port, breach := (s.strm b st).breach + 1, breachSaid := true } ∧
          ((s.strm b st).breachSaid = false → Raises s u 0x0681 [b, st, 0]))) ∧
    ((s.basin port).up = true → (dstPort < s.udpBase ∨ s.udpBase + 384 ≤ dstPort) →
      ∃ u, exec (.streamFrameArrival port src srcPort dstPort udpOk f) s = .next u ∧
        (u.basin port).unmatched = (s.basin port).unmatched + 1 ∧ u.mem = s.mem ∧ u.streams = s.streams) ∧
    (∀ up, ∃ u, exec (.basinPortLinkChange port up) s = .next u ∧ (u.basin port).up = up ∧
      (u.basin port).unmatched = (s.basin port).unmatched ∧ ∀ p ≠ port, u.basin p = s.basin p)

/-- R388, R389, R395-R397: a write to `ENABLE` restarts the stream in a new epoch with its basin empty, or empties and disables
it, or is refused with its code; a gap that stays is asked for again and reported the 16th time; an ACK period with a landed
frame sends its ACK; the repeats of REWIND, STOP and GO go out while they are due. -/
def Sys2Proof.Machine.StreamsAreRunAndRepeated : Prop :=
  ∀ (s : State) (b st v seq p : Nat), st < 16 →
    (DictUp s → v ≠ 0 → s.enableCode b st v = 0 →
      ∃ u, exec (.streamEnable b st v) s = .next u ∧ (u.strm b st).enable = v ∧ (u.strm b st).st = 1 ∧
        (u.strm b st).epoch = ((s.strm b st).epoch + 1) % 2 ^ 32 ∧ (u.strm b st).landed = [] ∧ (u.strm b st).low = 0 ∧
        (u.strm b st).nextSeq = 0 ∧ Answers u (strmIx b st) 1 0 ∧ u.mem = s.mem) ∧
    (DictUp s → v ≠ 0 → s.enableCode b st v ≠ 0 →
      ∃ u, exec (.streamEnable b st v) s = .next u ∧ Answers u (strmIx b st) 1 (s.enableCode b st v) ∧
        u.streams = s.streams ∧ u.mem = s.mem) ∧
    (DictUp s → ∃ u, exec (.streamDisable b st) s = .next u ∧ (u.strm b st).enable = 0 ∧ (u.strm b st).st = 0 ∧
      (u.strm b st).landed = [] ∧ (u.strm b st).ready = [] ∧ (u.strm b st).epoch = (s.strm b st).epoch ∧
      Answers u (strmIx b st) 1 0) ∧
    ((s.strm b st).enable = 1 → s.strmPort b st = some p →
      ((s.strm b st).low ≤ seq → emptyRun (s.strm b st) seq ≠ 0 →
        (seq = (s.strm b st).low ∨ tfind (s.strm b st).landed (seq - 1) ≠ none) → (s.strm b st).bad = none →
        ∃ u, exec (.gapWaitExpiry b st seq) s = .next u ∧
          tget (u.strm b st).gaps 0 seq = tget (s.strm b st).gaps 0 seq + 1 ∧
          (u.strm b st).resends = (s.strm b st).resends + 1 ∧ Sluices s u b st 4 ∧
          (tget (s.strm b st).gaps 0 seq = 15 → Raises s u 0x0680 [b, st, seq])) ∧
      ((s.strm b st).ackOpen = true →
        ((s.strm b st).ackDue = true → ∃ u, exec (.ackPeriodEnd b st) s = .next u ∧ (u.strm b st).ackDue = false ∧
          (u.strm b st).ackOpen = true ∧ Sluices s u b st 1) ∧
        ((s.strm b st).ackDue = false → ∃ u, exec (.ackPeriodEnd b st) s = .next u ∧ (u.strm b st).ackOpen = false ∧
          u.out = s.out)) ∧
      ((s.strm b st).rewindLeft ≠ 0 → ∃ u, exec (.sluiceRepeatTimer b st) s = .next u ∧
        (u.strm b st).rewindLeft = (s.strm b st).rewindLeft - 1 ∧ Sluices s u b st 5) ∧
      ((s.strm b st).stopped = true → freeSlots (s.strmCfg b st) (s.strm b st) ≤ (s.strmCfg b st).drift + 8 →
        ∃ u, exec (.sluiceRepeatTimer b st) s = .next u ∧ Sluices s u b st 2 ∧ (u.strm b st).stopped = true) ∧
      ((s.strm b st).stopped = false → (s.strm b st).goLeft ≠ 0 →
        ∃ u, exec (.sluiceRepeatTimer b st) s = .next u ∧ Sluices s u b st 3 ∧
          (u.strm b st).goLeft = (s.strm b st).goLeft - 1))

/-- Streams land and run: the parts together. -/
def Obligations.StreamsLandAndRun : Prop := StreamFramesLand ∧ StreamsAreRunAndRepeated

/-- R400-R403, R406, R414, R416: what a turn of a take does: it ends at its count, passes a skip window, or delivers the record
of the tally; a take and a feed start and go on as far as they can; a long wait is reported once. -/
def Sys2Proof.Machine.TakesDeliverRecords : Prop :=
  ∀ (s : State) (b q : Nat),
    (∀ t, (s.berth b).take = some t → t.taken < t.count →
      (∀ past, s.skipPast b (s.berth b).tally.toNat = some past → past < 2 ^ 64 →
        ((s.takeTurn b).berth b).tally.toNat = past ∧
        ((s.takeTurn b).berth b).take = some { t with skipped := t.skipped + (past - (s.berth b).tally.toNat) }) ∧
      (∀ st r, s.skipPast b (s.berth b).tally.toNat = none → s.recordAt b (s.berth b).tally.toNat = some (st, r) →
        t.off + round64 r.len ≤ t.dstBytes →
        ((s.takeTurn b).berth b).tally = (s.berth b).tally + 1 ∧
        ((s.takeTurn b).berth b).take =
          some { t with taken := t.taken + 1, off := t.off + round64 r.len, waited := false }) ∧
      (s.skipPast b (s.berth b).tally.toNat = none → s.recordAt b (s.berth b).tally.toNat = none → s.takeTurn b = s)) ∧
    (∀ t, (s.berth b).take = some t → t.count ≤ t.taken → ((s.takeTurn b).berth b).take = none ∧
      ((s.takeTurn b).berth b).tally = (s.berth b).tally) ∧
    (∀ w, Starts s b q 5 w → (s.berth b).take = none → (s.beginCmd b q w).takeCode b w = 0 →
      ∃ u, exec (.takeCmd b q) s = .next u ∧ u = (s.beginCmd b q w).takeStart b q w) ∧
    ((s.berth b).held = false → ∀ t, (s.berth b).take = some t → ∃ u, exec (.takeContinue b) s = .next u ∧
      u = (forN (17 * (t.count + 1 - t.taken)) s fun _ v => (v.takeTurn b).feedAll b).feedAll b) ∧
    (∀ t, (s.berth b).take = some t → t.waited = false →
      ∃ u, exec (.takeWait b) s = .next u ∧ (u.berth b).take = some { t with waited := true } ∧
        Raises s u 0x0684 [b, (s.berth b).tally.toNat, t.queue] ∧ u.mem = s.mem) ∧
    (∀ w, Starts s b q 6 w → ((s.beginCmd b q w).strm b (bitsOf (cw w 5) 35 32)).enable = 2 →
      ∃ u, exec (.feed b q) s = .next u ∧ u = (s.beginCmd b q w).feedAll b)

/-- R406, R407, R385, R490: a skip window is written; a rewind sets the tally of a held berth and is refused otherwise; a port
answers echo requests and solicitations for its own address. -/
def Sys2Proof.Machine.RewindsSkipsAndAnswers : Prop :=
  ∀ (s : State) (b w first last tally port : Nat) (src dst payload : Bytes) (tp : Bool),
    (DictUp s → 1 ≤ w → w ≤ 16 → (s.berth b).life ≠ .absent → ((s.berth b).take = none ∨ (s.berth b).held = true) →
      ∃ u, exec (.skipWindowWrite b w first last) s = .next u ∧ u.skipWin b w = (first % 2 ^ 64, last % 2 ^ 64) ∧
        Answers u (0x8040 + b) w 0 ∧ (u.berth b).tally = (s.berth b).tally) ∧
    (DictUp s → (s.berth b).held = true →
      ∃ u, exec (.berthRewind b tally) s = .next u ∧ (u.berth b).tally = BitVec.ofNat 64 tally ∧
        Answers u 0x8002 (b + 1) 0 ∧ u.mem = s.mem ∧
        ∀ st < 16, (s.strm b st).enable ≠ 0 → (u.strm b st).landed = [] ∧
          (u.strm b st).epoch = ((s.strm b st).epoch + 1) % 2 ^ 32) ∧
    (DictUp s → (s.berth b).held = false → (tget s.snaps {} b).phase ≠ 3 →
      ∃ u, exec (.berthRewind b tally) s = .next u ∧ Answers u 0x8002 (b + 1) 0x0642 ∧ u.berths = s.berths) ∧
    (s.ipOf tp port = some dst →
      exec (.icmpv6EchoRequest tp port src dst payload) s =
        .next (s.emit { kind := .icmp, port := port, args := [if tp then 1 else 0, 129], data := dst ++ src ++ payload }) ∧
      exec (.neighborSolicitation tp port src dst) s =
        .next (s.emit { kind := .icmp, port := port, args := [if tp then 1 else 0, 136], data := dst ++ src })) ∧
    (s.ipOf tp port ≠ some dst →
      exec (.icmpv6EchoRequest tp port src dst payload) s = .next s ∧
      exec (.neighborSolicitation tp port src dst) s = .next s)

/-- Takes follow the tally: the parts together. -/
def Obligations.TakesFollowTheTally : Prop := TakesDeliverRecords ∧ RewindsSkipsAndAnswers

/-- R422, R423, R425, R426, R441: a write of 1 to `CMD` claims the dies of a berth that passes the checks, and its end leaves
the berth active with every line of its dies zero and unmarked, segment copies apart; a write of 2 begins a resize, whose end
leaves the new dies; a refused write changes no berth. -/
def Sys2Proof.Machine.BerthsAreCreatedAndResized : Prop :=
  ∀ (s : State) (b : Nat),
    (DictUp s → s.createCode b = 0 →
      ∃ u, exec (.berthCreate b) s = .next u ∧ (u.berth b).life = .creating ∧
        (u.berth b).dies = maskDies (s.setting 0x4003 (b + 1) 0) ∧ (u.berth b).job = s.setting 0x4006 (b + 1) 0 ∧
        (u.berth b).tally = 0 ∧ (u.berth b).stepSeq = 0 ∧ Answers u 0x4001 (b + 1) 0 ∧ u.mem = s.mem) ∧
    (DictUp s → s.createCode b ≠ 0 →
      ∃ u, exec (.berthCreate b) s = .next u ∧ Answers u 0x4001 (b + 1) (s.createCode b) ∧ u.berths = s.berths) ∧
    ((s.berth b).life = .creating → (s.berth b).wantReset = false → (s.berth b).wantDusk = false →
      ∃ u, exec (.berthCreateDone b) s = .next u ∧ (u.berth b).life = .active ∧ (u.berth b).dies = (s.berth b).dies ∧
        (u.berth b).tally = 0 ∧ (u.berth b).stepSeq = 0 ∧ (u.fn (b + 1)).enabled = true ∧
        (∀ d ∈ (s.berth b).dies,
          (∀ l, homeDie (64 * l) = some d → s.segOf (64 * l) = none → u.mem.marked (64 * l) = false) ∧
          ∀ a, homeDie a = some d → s.segOf a = none → u.mem.marked a = false → u.mem.byte a = 0) ∧
        ∀ a, (∀ d ∈ (s.berth b).dies, homeDie a ≠ some d ∧ homeDie (64 * (a / 64)) ≠ some d) → u.mem.byte a = s.mem.byte a) ∧
    ((s.berth b).life ≠ .creating → exec (.berthCreateDone b) s = .next s) ∧
    (DictUp s → s.resizeCode b = 0 →
      ∃ u, exec (.berthResize b) s = .next u ∧ (u.berth b).life = .resizing ∧
        (u.berth b).newDies = maskDies (s.setting 0x4004 (b + 1) 0) ∧ Answers u 0x4001 (b + 1) 0) ∧
    (DictUp s → s.resizeCode b ≠ 0 →
      ∃ u, exec (.berthResize b) s = .next u ∧ Answers u 0x4001 (b + 1) (s.resizeCode b) ∧ u.berths = s.berths ∧
        u.mem = s.mem) ∧
    ((s.berth b).life = .resizing → (s.berth b).wantReset = false → (s.berth b).wantDusk = false →
      ∃ u, exec (.berthResizeDone b) s = .next u ∧ (u.berth b).life = .active ∧ (u.berth b).dies = (s.berth b).newDies ∧
        (u.berth b).tally = (s.berth b).tally ∧ (tget u.snaps {} b).slots = [] ∧
        ∀ d ∈ (s.berth b).dies, d ∉ (s.berth b).newDies → ∀ a, homeDie a = some d → s.segOf a = none →
          u.mem.marked a = false → u.mem.byte a = 0)

/-- R427-R430, R439: a reset of an active berth begins at once, merges into one that runs, waits for a creation or resizing, and
is refused in a berth that is absent, in dusk or faulted; its end clears local memory and leaves the berth active, with an
event. A dusk begins unless an active plan holds the berth; its end leaves the berth absent and its dies zero. A shrink lowers
each limit that no translation passes. -/
def Sys2Proof.Machine.BerthsAreResetAndEnded : Prop :=
  ∀ (s : State) (b : Nat),
    (DictUp s → (s.berth b).life = .active →
      ∃ u, exec (.berthResetRequest b) s = .next u ∧ (u.berth b).life = .resetting ∧ (u.berth b).wantReset = false ∧
        Answers u 0x4001 (b + 1) 0) ∧
    (DictUp s → (s.berth b).life = .resetting →
      ∃ u, exec (.berthResetRequest b) s = .next u ∧ u.berths = s.berths ∧ Answers u 0x4001 (b + 1) 0) ∧
    (DictUp s → ((s.berth b).life = .creating ∨ (s.berth b).life = .resizing) →
      ∃ u, exec (.berthResetRequest b) s = .next u ∧ (u.berth b).life = (s.berth b).life ∧ (u.berth b).wantReset = true ∧
        Answers u 0x4001 (b + 1) 0) ∧
    (DictUp s → ((s.berth b).life = .absent ∨ (s.berth b).life = .dusk ∨ (s.berth b).life = .faulted) →
      ∃ u, exec (.berthResetRequest b) s = .next u ∧ u.berths = s.berths ∧ Answers u 0x4001 (b + 1) 0x07C0) ∧
    ((s.berth b).life = .resetting → (s.berth b).wantReset = false → (s.berth b).wantDusk = false →
      ∃ u, exec (.berthResetDone b) s = .next u ∧ (u.berth b).life = .active ∧ (u.berth b).tally = (s.berth b).tally ∧
        (∀ d ∈ (s.berth b).dies, ∀ c < 16, (u.core (16 * d + c)).lm = {}) ∧ u.mem = s.mem ∧ Raises s u 0x07E0 [b, 0, 0]) ∧
    (DictUp s → (s.berth b).life ≠ .absent → (s.berth b).life ≠ .dusk → s.planned b = true →
      ∃ u, exec (.berthDusk b) s = .next u ∧ u.berths = s.berths ∧ Answers u 0x4001 (b + 1) 0x07C7) ∧
    (DictUp s → ((s.berth b).life = .active ∨ (s.berth b).life = .faulted) → (s.berth b).wantReset = false →
      s.planned b = false → (tget s.snaps {} b).phase = 0 →
      ∃ u, exec (.berthDusk b) s = .next u ∧ (u.berth b).life = .dusk ∧ Answers u 0x4001 (b + 1) 0 ∧
        ∀ w ∈ u.fabric.windows, bitsOf w.2.toNat 8 4 = b → w.2.getLsbD 0 = false) ∧
    ((s.berth b).life = .dusk →
      ∃ u, exec (.duskGraceExpiry b) s = .next u ∧
        ∀ p ∈ u.launches, p.2.berth = b → p.2.fault = []) ∧
    ((s.berth b).life = .dusk → (s.berth b).queues = [] →
      ∃ u, exec (.duskDone b) s = .next u ∧ u.berth b = {} ∧ Raises s u 0x07E2 [b, 0, 0] ∧
        (∀ c ∈ u.ctxs, c.2.berth ≠ b) ∧
        ∀ d ∈ (s.berth b).dies, ∀ a, homeDie a = some d → s.segOf a = none → u.mem.marked a = false → u.mem.byte a = 0) ∧
    ((s.berth b).life = .dusk → (s.berth b).queues ≠ [] → exec (.duskDone b) s = .next s) ∧
    (DictUp s → (s.berth b).life ≠ .absent →
      (∀ d ∈ (s.berth b).dies, ∀ p, (s.stack d).pending = some p → s.carvedAbove d p = false ∧
        ∀ m ∈ (s.berth b).maps, s.mapsRange m (stackBase d + p) (0x1000000000 - p) = false) →
      ∃ u, exec (.shrinkAcknowledge b) s = .next u ∧ Answers u 0x4001 (b + 1) 0 ∧
        (∀ d ∈ (s.berth b).dies, ∀ p, (s.stack d).pending = some p → (u.stack d).limit = min (s.stack d).limit p) ∧
        ∀ d ∉ (s.berth b).dies, u.stack d = s.stack d)

/-- Berths come and go: the parts together. -/
def Obligations.BerthsComeAndGo : Prop := BerthsAreCreatedAndResized ∧ BerthsAreResetAndEnded

/-- R431-R435: a segment is defined on two dies, sealed, joined and left, deleted when no berth holds it, and copied anew from
its survivor; each refusal has its code and changes nothing. -/
def Sys2Proof.Machine.SegmentsAreSharedAndRestored : Prop :=
  ∀ (s : State) (k b n p w : Nat) (bits : BitVec 64), DictUp s →
    ((s.seg k).st = 0 → s.setting (0x4200 + k) 3 0 = n → s.setting (0x4200 + k) 4 0 = p → s.setting (0x4200 + k) 5 0 = w →
      n ≠ 0 → n ≤ 2 ^ 35 → n % 0x200000 = 0 → s.segPlace p n = true → s.segPlace w n = true →
      p / 0x1000000000 ≠ w / 0x1000000000 →
      ∃ u, exec (.segDefine k) s = .next u ∧ u.seg k = { st := 1, bytes := n, primary := p, shadow := w } ∧
        Answers u (0x4200 + k) 2 0 ∧ u.mem = s.mem) ∧
    ((s.seg k).st ≠ 0 → ∃ u, exec (.segDefine k) s = .next u ∧ u.segs = s.segs ∧ Answers u (0x4200 + k) 2 0x07C0) ∧
    ((s.seg k).st = 1 → ∃ u, exec (.segSeal k) s = .next u ∧ u.seg k = { s.seg k with st := 2 } ∧
      Answers u (0x4200 + k) 2 0) ∧
    ((s.seg k).st ≠ 1 → ∃ u, exec (.segSeal k) s = .next u ∧ u.segs = s.segs ∧ Answers u (0x4200 + k) 2 0x07C0) ∧
    ((s.seg k).st ≠ 0 → s.segJoined k = false → ∃ u, exec (.segDelete k) s = .next u ∧ u.seg k = {} ∧
      Answers u (0x4200 + k) 2 0) ∧
    ((s.seg k).st ≠ 0 → s.segJoined k = true → ∃ u, exec (.segDelete k) s = .next u ∧ u.segs = s.segs ∧
      Answers u (0x4200 + k) 2 0x07C9) ∧
    ((s.seg k).st = 3 → (s.seg k).reshadow = none → s.setting (0x4200 + k) 5 0 = w → s.segPlace w (s.seg k).bytes = true →
      w / 0x1000000000 ≠ (s.seg k).survivor / 0x1000000000 →
      ∃ u, exec (.segReshadow k) s = .next u ∧ (u.seg k).reshadow = some w ∧ (u.seg k).st = 3 ∧
        Answers u (0x4200 + k) 2 0) ∧
    ((s.seg k).st = 3 → (s.seg k).reshadow = some w →
      ∃ u, exec (.reshadowDone k []) s = .next u ∧ (u.seg k).st = 2 ∧ (u.seg k).primary = (s.seg k).survivor ∧
        (u.seg k).shadow = w ∧ (u.seg k).reshadow = none ∧
        (∀ a, a < w ∨ w + (s.seg k).bytes ≤ a → cellGet u.mem.cells a = cellGet s.mem.cells a)) ∧
    (((s.seg k).reshadow = none) → exec (.reshadowDone k []) s = .next s) ∧
    ((s.berth b).life ≠ .absent →
      (∀ i < 64, bits.getLsbD i = true → (s.berth b).segs.getLsbD i = false → (s.seg i).st = 2 ∨ (s.seg i).st = 3) →
      (∀ i < 64, (s.berth b).segs.getLsbD i = true → bits.getLsbD i = false → ∀ m ∈ (s.berth b).maps,
        s.mapsRange m (s.seg i).primary (s.seg i).bytes = false ∧ s.mapsRange m (s.seg i).shadow (s.seg i).bytes = false) →
      ∃ u, exec (.segmentJoinWrite b bits) s = .next u ∧ (u.berth b).segs = bits ∧ Answers u 0x400A (b + 1) 0)

/-- R440, R528: fencing takes a compute die, a fabric die or a standby lockkeeper out of every access table, with its events;
the berth of a fenced die stops and is faulted. -/
def Sys2Proof.Machine.FencesTakeUnitsOut : Prop :=
  ∀ (s : State) (die cause detail : Nat), s.lk.active ≠ none →
    (die < 24 → die ∉ s.defects.fenced →
      ∃ u, exec (.dieFence 9 die cause detail) s = .next u ∧ die ∈ u.defects.fenced ∧ Raises s u 0x0984 [0xFF, die, 9] ∧
        ∀ b, s.berthOfDie die = some b → (u.berth b).life = .faulted ∨ (u.berth b).life = .dusk) ∧
    (die < 24 → die ∈ s.defects.fenced → exec (.dieFence 9 die cause detail) s = .next s) ∧
    (24 ≤ die → die < 32 → die - 24 ∉ s.defects.fencedFds →
      ∃ u, exec (.dieFence 0xC die cause detail) s = .next u ∧ die - 24 ∈ u.defects.fencedFds ∧
        (tget u.fabric.fds {} (die - 24)).up = false ∧ (∀ p ∈ fdLinks (die - 24), (u.link p).life = .down) ∧
        Raises s u 0x098E [0xFF, die, 0]) ∧
    ((die = 27 ∨ die = 31) → s.lk.active ≠ some die → die ∉ s.lk.fenced →
      ∃ u, exec (.dieFence 0xB die cause detail) s = .next u ∧ u.lk.fenced = s.lk.fenced ++ [die] ∧ u.lk.standby = 0 ∧
        u.lk.active = s.lk.active ∧ Raises s u 0x0988 [0xFF, die, 0])

/-- Segments and fences: the parts together. -/
def Obligations.SegmentsAndFences : Prop := SegmentsAreSharedAndRestored ∧ FencesTakeUnitsOut

namespace Sys2Proof.Machine

/-- A control request stands in a service mailbox that its server reads: its number, its berth, its reserved bits zero, its
role (15 R455, R457). -/
def Request (s : State) (m req b : Nat) : Prop :=
  m % 4 = 0 ∧ m ≤ 96 ∧ (s.mb m).busy = true ∧ s.reqWord m 0 % 256 = req ∧ s.reqBerth m = b ∧
    s.reqWord m 0 < (if m = 96 then 2 ^ 13 else 2 ^ 8) ∧ (m = 96 → s.lk.active ≠ none) ∧ (0x20 ≤ req → m = 96)

/-- A mailbox has been answered with a code and words (15 R458, R459). -/
def Replied (u : State) (m code : Nat) (words : List Nat) : Prop :=
  (u.mb m).busy = false ∧ (u.mb m).code = code ∧ (u.mb m).outWords = words.length - 1 ∧
    ∀ (i w : Nat), words[i]? = some w → tget (u.mb m).outp 0 i = BitVec.ofNat 32 w

end Sys2Proof.Machine

/-- R448, R463, R473: a doorbell admits the commands up to `TAIL`, or is ignored and counted; the host gives barges of its
window; reading a counter answers it and clears it. -/
def Obligations.FunctionRegistersWork : Prop :=
  ∀ (s : State) (f q tail reg : Nat) (bits : BitVec 64) (head : Option Nat), 1 ≤ f → f ≤ 24 → s.fnLive f = true →
    (∃ u, exec (.qdbQueueWrite f q) s = .next u ∧ (u.fn f).queue = q % 2 ^ 14 ∧ (u.fn f).qdbBad = (s.fn f).qdbBad ∧
      u.berths = s.berths) ∧
    (s.queue (f - 1) ((s.fn f).queue) = none →
      ∃ u, exec (.qdbDoorbell f none tail) s = .next u ∧ (u.fn f).qdbBad = ((s.fn f).qdbBad + 1) % 2 ^ 32 ∧
        u.berths = s.berths) ∧
    (∀ x n, s.queue (f - 1) ((s.fn f).queue) = some x →
      n = (tail % 2 ^ 32 + 2 ^ 32 - x.admitted % 2 ^ 32) % 2 ^ 32 →
      (2 ^ x.log2 - (x.admitted - x.retired) < n ∨ s.ctxGone x.ctx = true →
        ∃ u, exec (.qdbDoorbell f none tail) s = .next u ∧ (u.fn f).qdbBad = ((s.fn f).qdbBad + 1) % 2 ^ 32 ∧
          u.berths = s.berths) ∧
      (n ≤ 2 ^ x.log2 - (x.admitted - x.retired) → s.ctxGone x.ctx = false → s.hostUp = true →
        ∃ u y, exec (.qdbDoorbell f none tail) s = .next u ∧ u.queue (f - 1) ((s.fn f).queue) = some y ∧
          y.admitted = x.admitted + n ∧ y.retired = x.retired ∧ y.run = x.run ∧ (u.fn f).qdbBad = (s.fn f).qdbBad)) ∧
    (∃ u, exec (.bargeGive f bits) s = .next u ∧ (u.fn f).bargeOwn = (s.fn f).bargeOwn |||
        (bits &&& BitVec.ofNat 64 ((s.fn f).barge.elim 0 fun w => 2 ^ w.2.2 - 1)) ∧ (u.fn f).barge = (s.fn f).barge) ∧
    (∃ u v, exec (.functionCounterRead f reg head) s = .next u ∧
      u.out = s.out ++ [{ kind := .answer, port := f, args := [reg, v] }] ∧
      (reg = 0 → v = (s.fn f).qdbBad ∧ (u.fn f).qdbBad = 0) ∧ (reg = 1 → v = (s.fn f).ntcLost ∧ (u.fn f).ntcLost = 0) ∧
      (reg = 2 → v = (s.fn f).cplLost ∧ (u.fn f).cplLost = 0) ∧ (∀ h, head = some h → (u.fn f).ntcHead = h % 2 ^ 32) ∧
      (reg ≠ 1 → (u.fn f).ntcLost = (s.fn f).ntcLost))

/-- R458-R461: a mailbox takes one request at a time: writes to a busy one are discarded, marked and counted; a kernel of its
berth answers it and sets doorbell bits 1 to 31; the vector fires when a bit rises with its mask 0, and when a mask falls over
a set bit. -/
def Obligations.MailboxesTakeOneRequest : Prop :=
  ∀ (s : State) (m port nwords tag b code : Nat) (words : List Nat) (bits : BitVec 32), m < 128 →
    (s.fnLive (mbFunction m) = true → (s.mb m).busy = true → ∃ u, exec (.mailboxSubmit m port words nwords tag) s = .next u ∧
      (u.mb m).collide = true ∧ (u.mb m).collisions = min 0xFFFF ((s.mb m).collisions + (words.take 16).length + 1) ∧
      (u.mb m).inp = (s.mb m).inp ∧ (u.mb m).tag = (s.mb m).tag ∧ (u.mb m).busy = true) ∧
    (s.fnLive (mbFunction m) = true → (s.mb m).busy = false → m = 97 →
      ∃ u x, exec (.mailboxSubmit m port words nwords tag) s = .next u ∧ u.dict.inbox = s.dict.inbox ++ [x] ∧ x.port = 97 ∧
        x.msg.length = 4 * (nwords % 16 + 1) ∧ (u.mb m).busy = true) ∧
    (∀ w r, s.fnLive (mbFunction m) = true → (s.mb m).busy = false → m % 4 = 0 → m ≤ 96 → words = w :: r →
      ∃ u, exec (.mailboxSubmit m port words nwords tag) s = .next u ∧ u.reqWord m 0 = w % 2 ^ 32 ∧
        (u.fn (mbFunction m)).port = port % 2 ∧ (u.mb m).busy = reqKnown (w % 256) ∧
        (reqKnown (w % 256) = false → (u.mb m).code = 0x0740)) ∧
    (s.fnLive (mbFunction m) = true → (s.mb m).busy = false → ¬ (m % 4 = 0 ∧ m ≤ 96) → m ≠ 97 →
      (s.mbServed m = true → ∃ u, exec (.mailboxSubmit m port words nwords tag) s = .next u ∧ (u.mb m).busy = true ∧
        (u.mb m).nwords = nwords % 16 ∧ (u.mb m).tag = tag % 256 ∧
        ∀ (i w : Nat), i < 16 → words[i]? = some w → tget (u.mb m).inp 0 i = BitVec.ofNat 32 w) ∧
      (s.mbServed m = false → ∃ u, exec (.mailboxSubmit m port words nwords tag) s = .next u ∧ (u.mb m).busy = false ∧
        (u.mb m).code = 0x0748 ∧ (u.mb m).ackTag = tag % 256)) ∧
    (s.mbBerth m = some b →
      ((s.mb m).busy = true → ∃ u, exec (.mailboxAnswer b m code nwords) s = .next u ∧ (u.mb m).busy = false ∧
        (u.mb m).code = code % 2 ^ 16 ∧ (u.mb m).outWords = nwords % 16 ∧ (u.mb m).ackTag = (s.mb m).tag ∧
        (u.mb m).dbl = (s.mb m).dbl ||| 1) ∧
      (∃ u, exec (.dblSet b m bits) s = .next u ∧ (u.mb m).dbl = (s.mb m).dbl ||| (bits &&& 0xFFFFFFFE) ∧
        (bits &&& 0xFFFFFFFE &&& ~~~(s.mb m).dbl &&& ~~~(s.mb m).dblMask ≠ 0 →
          u.out = s.out ++ [{ kind := .msix, port := m }]) ∧
        (bits &&& 0xFFFFFFFE &&& ~~~(s.mb m).dbl &&& ~~~(s.mb m).dblMask = 0 → u.out = s.out))) ∧
    (s.mbBerth m ≠ some b → exec (.mailboxAnswer b m code nwords) s = .next s ∧ exec (.dblSet b m bits) s = .next s) ∧
    (s.fnLive (mbFunction m) = true →
      (∃ u, exec (.dblClear m bits) s = .next u ∧ (u.mb m).dbl = (s.mb m).dbl &&& ~~~bits ∧ u.out = s.out ∧
        (u.mb m).busy = (s.mb m).busy) ∧
      (∃ u, exec (.dblMaskWrite m bits) s = .next u ∧ (u.mb m).dblMask = bits ∧ (u.mb m).dbl = (s.mb m).dbl ∧
        ((s.mb m).dblMask &&& ~~~bits &&& (s.mb m).dbl ≠ 0 → u.out = s.out ++ [{ kind := .msix, port := m }]) ∧
        ((s.mb m).dblMask &&& ~~~bits &&& (s.mb m).dbl = 0 → u.out = s.out)) ∧
      (∃ u, exec (.collideClear m) s = .next u ∧ (u.mb m).collide = false ∧ (u.mb m).collisions = (s.mb m).collisions) ∧
      (∃ u, exec (.collisionsRead m) s = .next u ∧ (u.mb m).collisions = 0 ∧ (u.mb m).collide = (s.mb m).collide ∧
        u.out = s.out ++ [{ kind := .answer, port := m, args := [s.mbStatus m] }]))

/-- R449, R450, R452-R455, R462, R475, R477: the host's requests about contexts, queues and memory objects: each is done and
answered with what it made, and one that names nothing known is refused. -/
def Sys2Proof.Machine.ContextsQueuesAndObjects : Prop :=
  ∀ (s : State) (m b c : Nat), (s.berth b).life ≠ .absent →
    (Request s m 0x01 b → ∀ i, firstBelow 65536 (fun c => (s.ctx c).isNone) = some i →
      ∃ u, exec (.ctxCreate m) s = .next u ∧ Replied u m 0 [i] ∧ u.ctx i = some { berth := b }) ∧
    (Request s m 0x02 b → s.reqWord m 1 = c → s.ctxOk b c = true →
      ∃ u, exec (.ctxAbandon m) s = .next u ∧ Replied u m 0 [] ∧ u.ctxGone c = true) ∧
    (Request s m 0x02 b → s.ctxOk b (s.reqWord m 1) = false →
      ∃ u, exec (.ctxAbandon m) s = .next u ∧ Replied u m 0x0743 [] ∧ u.ctxs = s.ctxs) ∧
    (Request s m 0x03 b → s.ctxOk b (s.reqWord m 1) = true → ∀ w q, s.reqWord m 2 = w → w < 2 ^ 21 → bitsOf w 7 5 = 0 →
      bitsOf w 15 9 = 0 → 4 ≤ bitsOf w 20 16 → bitsOf w 20 16 ≤ 16 → w % 32 < (s.berth b).dies.length →
      (bitOf w 8 = true → ∀ p ∈ (s.berth b).queues, p.2.step = false) →
      firstBelow 16384 (fun q => (s.queue b q).isNone) = some q →
      ∃ u, exec (.queueCreate m) s = .next u ∧ Replied u m 0 [q] ∧ u.queue b q = some
        { ctx := s.reqWord m 1, pos := w % 32, step := bitOf w 8, log2 := bitsOf w 20 16, hostRing := s.reqLong m 3,
          cplRing := s.reqLong m 5, staging := s.reqLong m 7 }) ∧
    (∀ x, s.queue b (s.reqWord m 1) = some x →
      (Request s m 0x04 b → s.ctxGone x.ctx = false → x.retired ≠ x.admitted →
        ∃ u, exec (.queueDestroy m) s = .next u ∧ Replied u m 0 [] ∧
          u.queue b (s.reqWord m 1) = some { x with destroying := true }) ∧
      (Request s m 0x04 b → s.ctxGone x.ctx = false → x.retired = x.admitted → x.run = none →
        ∃ u, exec (.queueDestroy m) s = .next u ∧ Replied u m 0 [] ∧ u.queue b (s.reqWord m 1) = none) ∧
      (Request s m 0x05 b → s.reqWord m 2 = 0 →
        ∃ u, exec (.queueStop m) s = .next u ∧ Replied u m 0 [] ∧ u.queue b (s.reqWord m 1) = some { x with stopped := true }) ∧
      (Request s m 0x06 b →
        ∃ u, exec (.queueStart m) s = .next u ∧ Replied u m 0 [] ∧
          u.queue b (s.reqWord m 1) = some { x with stopped := false })) ∧
    (s.queue b (s.reqWord m 1) = none → ∀ r i, (r, i) ∈ [(0x04, Instr.queueDestroy m), (0x05, Instr.queueStop m),
        (0x06, Instr.queueStart m)] → Request s m r b →
      ∃ u, exec i s = .next u ∧ Replied u m 0x0742 [] ∧ u.berths = s.berths) ∧
    (Request s m 0x07 b → s.ctxOk b (s.reqWord m 1) = true →
      allMapped (s.berth b).maps (s.reqLong m 2) (s.reqLong m 4) = true → (s.berth b).objFree = [] →
      (s.berth b).objNext < 2 ^ 20 → ∀ h g, g = (tget (s.berth b).objs {} (s.berth b).objNext).gen →
      h = (s.berth b).objNext + 2 ^ 20 * g →
      ∃ u, exec (.objCreate m) s = .next u ∧ Replied u m 0 [h] ∧ u.objAt b h = some
        { gen := g, live := true, va := s.reqLong m 2, bytes := s.reqLong m 4, holders := [s.reqWord m 1] }) ∧
    (∀ o, s.ctxOk b (s.reqWord m 1) = true → s.objAt b (s.reqWord m 2) = some o →
      (Request s m 0x08 b → ∃ u p, exec (.objImport m) s = .next u ∧ Replied u m 0 [] ∧ u.objAt b (s.reqWord m 2) = some p ∧
        s.reqWord m 1 ∈ p.holders ∧ p.dref = o.dref ∧ p.va = o.va) ∧
      (Request s m 0x09 b → s.reqWord m 1 ∈ o.holders → (∃ x ∈ o.holders, x ≠ s.reqWord m 1) →
        ∃ u p, exec (.objRelease m) s = .next u ∧ Replied u m 0 [] ∧ u.objAt b (s.reqWord m 2) = some p ∧
          s.reqWord m 1 ∉ p.holders ∧ p.dref = o.dref) ∧
      (Request s m 0x09 b → s.reqWord m 1 ∈ o.holders → (∀ x ∈ o.holders, x = s.reqWord m 1) → o.dref = 0 →
        ∃ u, exec (.objRelease m) s = .next u ∧ Replied u m 0 [] ∧ u.objAt b (s.reqWord m 2) = none ∧
          Raises s u 0x07E5 [b, s.reqWord m 2, o.va]))

/-- R454-R456, R473, R474, R305, R428, R432, R460: the host's requests about events, barges, notices, resumption, reset, pages,
assignments and segment loads: each is done and answered. -/
def Sys2Proof.Machine.EventsPagesAndSetup : Prop :=
  ∀ (s : State) (m b c h : Nat), (s.berth b).life ≠ .absent → s.reqWord m 1 = c →
    (Request s m 0x0A b → s.ctxOk b c = true → s.reqWord m 4 ≤ 1 → (s.berth b).evtFree = [] →
      (s.berth b).evtNext < 2 ^ 18 → h = (s.berth b).evtNext + 2 ^ 18 * (tget (s.berth b).evts {} (s.berth b).evtNext).gen →
      ∃ u e, exec (.evtCreate m) s = .next u ∧ Replied u m 0 [h] ∧ u.evtAt b h = some e ∧ e.status = 0 ∧
        e.value = BitVec.ofNat 64 (s.reqLong m 2) ∧ e.notify = decide (s.reqWord m 4 = 1) ∧ e.creator = c) ∧
    (∀ e, s.ctxOk b c = true → s.reqWord m 2 = h → s.evtAt b h = some e →
      (Request s m 0x0B b → ∃ u p, exec (.evtImport m) s = .next u ∧ Replied u m 0 [] ∧ u.evtAt b h = some p ∧
        c ∈ p.holders ∧ p.value = e.value ∧ p.status = e.status) ∧
      (Request s m 0x0C b → c ∈ e.holders → (∃ x ∈ e.holders, x ≠ c) →
        ∃ u p, exec (.evtRelease m) s = .next u ∧ Replied u m 0 [] ∧ u.evtAt b h = some p ∧ c ∉ p.holders) ∧
      (Request s m 0x0C b → c ∈ e.holders → (∀ x ∈ e.holders, x = c) → e.dref = 0 →
        ∃ u, exec (.evtRelease m) s = .next u ∧ Replied u m 0 [] ∧ u.evtAt b h = none)) ∧
    (∀ e, s.evtAt b c = some e →
      (Request s m 0x0D b → ∃ u, exec (.evtQuery m) s = .next u ∧
        Replied u m 0 [e.value.toNat % 2 ^ 32, e.value.toNat / 2 ^ 32, e.status] ∧ u.berths = s.berths) ∧
      (Request s m 0x0E b → e.status = 0 → s.reqLong m 2 < 2 ^ 64 → ∃ u p, exec (.evtSignal m) s = .next u ∧ Replied u m 0 [] ∧
        u.evtAt b c = some p ∧ p.status = 0 ∧ p.value.toNat = max e.value.toNat (s.reqLong m 2)) ∧
      (Request s m 0x0E b → e.status ≠ 0 → ∃ u, exec (.evtSignal m) s = .next u ∧ Replied u m 0 [] ∧
        u.berths = s.berths)) ∧
    (Request s m 0x10 b → s.reqLong m 1 % 4096 = 0 → s.reqWord m 3 < 2 ^ 15 → bitsOf (s.reqWord m 3) 7 5 = 0 →
      16 ≤ s.reqWord m 3 % 32 → s.reqWord m 3 % 32 ≤ 26 → bitsOf (s.reqWord m 3) 14 8 ≠ 0 →
      bitsOf (s.reqWord m 3) 14 8 ≤ 64 → (s.fn (mbFunction m)).bargeOwn = 0 →
      ∃ u, exec (.bargeSetup m) s = .next u ∧ Replied u m 0 [] ∧
        (u.fn (mbFunction m)).barge = some (s.reqLong m 1, s.reqWord m 3 % 32, bitsOf (s.reqWord m 3) 14 8)) ∧
    (Request s m 0x11 b → s.reqLong m 1 % 64 = 0 → 6 ≤ s.reqWord m 3 → s.reqWord m 3 ≤ 16 →
      ∃ u, exec (.noticeSetup m) s = .next u ∧ Replied u m 0 [] ∧
        (u.fn (mbFunction m)).ring = some (s.reqLong m 1, s.reqWord m 3)) ∧
    (Request s m 0x12 b → (s.berth b).boundary = false →
      ∃ u, exec (.resumeBerth m) s = .next u ∧ Replied u m 0 [] ∧ (u.berth b).held = false) ∧
    (Request s m 0x13 b → (s.berth b).life = .active →
      ∃ u, exec (.resetBerth m) s = .next u ∧ Replied u m 0 [] ∧ (u.berth b).life = .resetting) ∧
    (Request s m 0x20 b → ∀ sh n w, s.reqWord m 6 = w → w < 16 → w % 4 ≠ 3 → sh = pageShift (w % 4) → s.reqWord m 5 = n →
      n ≠ 0 → s.reqLong m 1 % 2 ^ sh = 0 → s.reqLong m 3 % 2 ^ sh = 0 → s.reqLong m 1 + n * 2 ^ sh ≤ 2 ^ 57 →
      (∀ x ∈ (s.berth b).maps, s.reqLong m 1 + n * 2 ^ sh ≤ x.va ∨ x.va + x.pages * 2 ^ x.shift ≤ s.reqLong m 1) →
      ∃ u, exec (.mapPages m) s = .next u ∧ Replied u m 0 [] ∧ (u.berth b).maps = (s.berth b).maps ++
        [{ va := s.reqLong m 1, pa := s.reqLong m 3, shift := sh, pages := n, read := bitOf w 2, write := bitOf w 3 }]) ∧
    (Request s m 0x21 b → ∀ sh n w, s.reqWord m 4 = w → w < 3 → sh = pageShift (w % 4) → s.reqWord m 3 = n → n ≠ 0 →
      s.reqLong m 1 % 2 ^ sh = 0 →
      (∀ i < n, ∃ e, findMap (s.berth b).maps (s.reqLong m 1 + i * 2 ^ sh) = some e ∧ e.shift = sh) →
      (∀ x ∈ s.objHandles b, ∀ o, s.objAt b x = some o →
        o.va + o.bytes ≤ s.reqLong m 1 ∨ s.reqLong m 1 + n * 2 ^ sh ≤ o.va) →
      ∃ u, exec (.unmapPages m) s = .next u ∧ Replied u m 0 [] ∧ (u.berth b).maps =
        (s.berth b).maps.flatMap fun e => e.cut (s.reqLong m 1) (s.reqLong m 1 + n * 2 ^ sh)) ∧
    (Request s m 0x22 b → 98 ≤ c → c ≤ 127 → ∀ w, s.reqWord m 2 = w → w < 2 ^ 9 → bitsOf w 7 5 = 0 →
      (bitOf w 8 = true → (s.berth (w % 32)).life ≠ .absent →
        ∃ u, exec (.mbAssign m) s = .next u ∧ Replied u m 0 [] ∧ (u.mb c).assigned = some (w % 32)) ∧
      (bitOf w 8 = false → ∃ u, exec (.mbAssign m) s = .next u ∧ Replied u m 0 [] ∧ (u.mb c).assigned = none ∧
        ((s.mb c).busy = true → (u.mb c).busy = false ∧ (u.mb c).code = 0x0748))) ∧
    (Request s m 0x23 b → c ≤ 63 → s.reqLong m 4 % 64 = 0 → (s.seg c).st = 1 → s.reqLong m 2 % 64 = 0 →
      s.reqWord m 6 % 64 = 0 → s.reqWord m 6 ≠ 0 → s.reqWord m 6 ≤ 2 ^ 30 →
      s.reqLong m 2 + s.reqWord m 6 ≤ (s.seg c).bytes → s.hostUp = true →
      ∃ u, exec (.segLoad m) s = .next u ∧ Replied u m 0 [] ∧ u.mem =
        (forN (s.reqWord m 6 / 64) s fun i v =>
          (v.homeStore ((s.seg c).primary + s.reqLong m 2 + 64 * i) (v.hostRead (s.reqLong m 4 + 64 * i) 64)).homeStore
            ((s.seg c).shadow + s.reqLong m 2 + 64 * i) (v.hostRead (s.reqLong m 4 + 64 * i) 64)).mem)

/-- Requests are served: the parts together. -/
def Obligations.RequestsAreServed : Prop := ContextsQueuesAndObjects ∧ EventsPagesAndSetup

namespace Sys2Proof.Machine

/-- The command that a queue runs has ended with a status and waits to retire. -/
def Ended (u : State) (b q code : Nat) : Prop :=
  ∃ y r, u.queue b q = some y ∧ y.run = some r ∧ r.done = some code

end Sys2Proof.Machine

/-- R465, R470, R472, R466: a queue with a released command gets a slot; a mark, copy, fill, add and wait start, do their work
and end with status 0; one whose extents do not translate ends with `CMD_RANGE` and touches no memory; a wait for a round that
is not done yet goes on waiting. -/
def Obligations.QueueCommandsRun : Prop :=
  ∀ (s : State) (b q : Nat) (w : List Nat) (t : State), t = s.beginCmd b q w →
    (∀ x, s.queue b q = some x → x.resident = false → x.waiting = true → s.waitOver b (s.frontWords b x) = true →
      ((s.residents b (s.queueDie b x)).length < 48 →
        ∃ u, exec (.slotGrant b q) s = .next u ∧ u.queue b q = some { x with resident := true } ∧ u.free = s.free) ∧
      (48 ≤ (s.residents b (s.queueDie b x)).length → s.evictable b (s.queueDie b x) ≠ [] →
        (∀ p ∈ (s.berth b).queues, p.1 = q → p.2.resident = false) →
        ∃ u v y, exec (.slotGrant b q) s = .next u ∧ u.queue b q = some { x with resident := true } ∧
          v ∈ s.evictable b (s.queueDie b x) ∧ u.queue b v = some y ∧ y.resident = false)) ∧
    (Starts s b q 0 w → ∃ u, exec (.mark b q) s = .next u ∧ Ended u b q 0 ∧ u.mem = s.mem ∧ u.host = s.host) ∧
    (Starts s b q 2 w →
      (t.extentCode b w = 0 → ∃ u, exec (.copyMem b q) s = .next u ∧ Ended u b q 0 ∧
        u.mem = (t.runCopy b (cw w 4) (cw w 5) (cw w 6 % 2 ^ 40)).mem) ∧
      (t.extentCode b w ≠ 0 → ∃ u, exec (.copyMem b q) s = .next u ∧ Ended u b q 0x0702 ∧ u.mem = s.mem ∧ u.host = s.host)) ∧
    (Starts s b q 3 w →
      (t.extentCode b w = 0 → ∃ u, exec (.fillMem b q) s = .next u ∧ Ended u b q 0 ∧
        u.mem = (forL (lineCuts (cw w 4) (cw w 6 % 2 ^ 40)) t fun p v => v.unitWrite b (cw w 4 + p.1)
          ((List.range p.2).map fun i => BitVec.ofNat 8 (cw w 5 / 2 ^ (8 * ((p.1 + i) % 4))))).mem) ∧
      (t.extentCode b w ≠ 0 → ∃ u, exec (.fillMem b q) s = .next u ∧ Ended u b q 0x0702 ∧ u.mem = s.mem)) ∧
    (Starts s b q 4 w →
      (t.extentCode b w = 0 → (cw w 4).testBit 63 = true → ∃ u, exec (.madd b q) s = .next u ∧ Ended u b q 0 ∧
        u.mem = (forN (cw w 6 % 2 ^ 32) t fun i v => v.maddOne b (cw w 4) (cw w 5) i (bitsOf (cw w 6) 35 32)
          (bitsOf (cw w 6) 39 36) (signedOf 8 (bitsOf (cw w 6) 47 40))).mem) ∧
      (t.extentCode b w = 0 → ∃ u, exec (.madd b q) s = .next u ∧ Ended u b q 0) ∧
      (t.extentCode b w ≠ 0 → ∃ u, exec (.madd b q) s = .next u ∧ Ended u b q 0x0702 ∧ u.mem = s.mem)) ∧
    (Starts s b q 7 w →
      (cw w 5 ≤ t.bucketDone b (cw w 4 % 2 ^ 12) → ∃ u, exec (.xwait b q) s = .next u ∧ Ended u b q 0 ∧ u.mem = s.mem) ∧
      (t.bucketDone b (cw w 4 % 2 ^ 12) < cw w 5 → ∃ u y r, exec (.xwait b q) s = .next u ∧ u.queue b q = some y ∧
        y.run = some r ∧ r.done = none ∧ r.words = w ∧ u.mem = s.mem))

/-- R190, R218, R222, R471: a launch with room takes the next launch number and stands ready, ranks ascending, on every present
core it names; an image that fails its checks ends it with the lowest code; without room it waits, and after 1 ms it
reserves; a launch over its limit stops with a fault record. -/
def Obligations.LaunchesAreGrantedCores : Prop :=
  ∀ (s : State) (b q : Nat) (w : List Nat) (t : State), t = s.beginCmd b q w →
    (∀ o cores, Starts s b q 1 w → s.launchRoom b q w = true → t.launchCode b w = 0 → t.objAt b (cw w 4 % 2 ^ 32) = some o →
      cores = (launchCores w).filter s.corePresent →
      (t.imageCode b o.va (s.fwOf b) = none →
        ∃ u, exec (.launch b q) s = .next u ∧ u.launchNext = s.launchNext + 1 ∧ u.mem = s.mem ∧
          (∃ l, tfind u.launches s.launchNext = some l ∧ l.berth = b ∧ l.queue = q ∧ l.cores = cores ∧ l.running = cores ∧
            l.image = o.va ∧ l.limitMs = cw w 6 / 2 ^ 40 ∧ l.kseq = (s.berth b).kseq) ∧
          (u.berth b).kseq = (s.berth b).kseq + 1 ∧
          ∀ (i c : Nat), cores[i]? = some c → ∃ k, u.kern c = some k ∧ k.launch = s.launchNext ∧ k.rank = i ∧
            k.nCores = cores.length ∧ k.started = false ∧ k.argVa = cw w 5) ∧
      (∀ code pc, t.imageCode b o.va (s.fwOf b) = some (code, pc) →
        ∃ u, exec (.launch b q) s = .next u ∧ Ended u b q code ∧ u.launches = s.launches ∧ u.cores = s.cores)) ∧
    (∀ x, s.startable b q 1 = some (x, w) → s.launchRoom b q w = false → exec (.launch b q) s = .next s) ∧
    (∀ x, s.startable b q 1 = some (x, w) →
      ((∀ p ∈ (s.berth b).queues, p.2.reserving = false) → ∃ u y, exec (.launchReserveTimer b q) s = .next u ∧
        u.queue b q = some y ∧ y.reserving = true ∧ y.admitted = x.admitted ∧ u.mem = s.mem) ∧
      ((∃ p ∈ (s.berth b).queues, p.2.reserving = true) → exec (.launchReserveTimer b q) s = .next s)) ∧
    (∀ n l, tfind s.launches n = some l → l.limitMs ≠ 0 → l.stopped = false → l.running ≠ [] →
      ∃ u m, exec (.kernelLimit n) s = .next u ∧ tfind u.launches n = some m ∧ m.stopped = true ∧ m.status = 0x070A ∧
        m.fault.length = 32 ∧ m.running = l.running) ∧
    (∀ n l, tfind s.launches n = some l → l.limitMs = 0 → exec (.kernelLimit n) s = .next s)

/-- R475, R476, R478, R480, R514, R582: what an abandoned context still runs is stopped at the end of its grace; a reset of a
function abandons its contexts and clears its rings, the PF's touches no berth; the host's ports go down and come back, and the
host is lost when both are down; a configuration request is answered, with a retry status during a start. -/
def Obligations.HostFunctionsAndPorts : Prop :=
  ∀ (s : State) (c f port width rate reg : Nat),
    (∀ x p r l a, s.ctx c = some x → x.abandoned = true → (s.berth x.berth).queues = [p] → p.2.ctx = c → p.2.run = some r →
      r.done = none → r.launch = some l → tfind s.launches l = some a → a.stopped = false →
      ∃ u m, exec (.abandonGraceExpiry c) s = .next u ∧ tfind u.launches l = some m ∧ m.stopped = true ∧ m.status = 0x0708) ∧
    (s.ctxGone c = false → exec (.abandonGraceExpiry c) s = .next s) ∧
    (1 ≤ f → f ≤ 24 → s.fnLive f = true → (∀ p ∈ (s.berth (f - 1)).queues, p.2.run = none) →
      ∃ u, exec (.vfFlr f) s = .next u ∧ (u.fn f).ring = none ∧ (u.fn f).barge = none ∧ (u.fn f).bargeOwn = 0 ∧
        ∀ k x, s.ctx k = some x → x.berth = f - 1 → u.ctxGone k = true) ∧
    (∃ u, exec .pfFlr s = .next u ∧ u.fn 0 = {} ∧ u.berths = s.berths ∧
      (∀ m, 96 ≤ m → m < 128 → u.mb m = { assigned := (s.mb m).assigned }) ∧ ∀ m < 96, u.mb m = s.mb m) ∧
    (∃ u, exec (.hostLinkDown port) s = .next u ∧ (u.hostPort (port % 2)).up = false ∧
      (u.hostPort (1 - port % 2)) = s.hostPort (1 - port % 2) ∧ u.mbox = s.mbox) ∧
    ((s.hostPort 0).up = false → (s.hostPort 1).up = false → ∃ u, exec .hostLoss s = .next u ∧ u.host.lost = true ∧
      u.hostUp = false) ∧
    ((s.hostPort 0).up = true ∨ (s.hostPort 1).up = true → exec .hostLoss s = .next s) ∧
    (∃ u, exec (.hostLinkUp port width rate) s = .next u ∧ (u.hostPort (port % 2)).up = true ∧
      (u.hostPort (port % 2)).rate = rate ∧ u.host.lost = false ∧ u.hostUp = true) ∧
    (port < 2 → ∃ u, exec (.hostPerstAsserted port) s = .next u ∧ (u.hostPort port).perst = true ∧
      (u.hostPort port).up = false ∧ u.boot = s.boot) ∧
    (s.power.on = true → port < 2 →
      ∃ u o, exec (.configurationRequest port f reg) s = .next u ∧ u.out = s.out ++ [o] ∧ o.kind = .pcie ∧ o.port = port ∧
        o.args.head? = some (if s.boot.running = 0 then 0 else 2))

namespace Sys2Proof.Machine

/-- A message of an open session: type, session, `SEQ`, body, in the transport's limit, on the session's own connection of a
towpath port (16 R490, R493). -/
structure Spoken (s : State) (m : ThnMsg) (typ sid seq : Nat) (body : Bytes) (x : SessSt) : Prop where
  msg : m.msg = thnMsg typ sid seq 0 body
  sid_lt : sid < 2 ^ 32
  seq_lt : seq < 2 ^ 32
  short : body.length ≤ 1184
  towpath : m.port < 2
  conn : ∃ c, tfind s.dict.conns m.conn = some c
  session : tfind s.dict.sessions sid = some x
  own : x.port = m.port ∧ x.conn = m.conn
  alone : s.dict.inbox = [m]
  up : s.lk.active ≠ none ∧ s.up = true

/-- The same with a `SEQ` above all that the session has kept (16 R496). -/
def Fresh (s : State) (m : ThnMsg) (typ sid seq : Nat) (body : Bytes) (x : SessSt) : Prop :=
  Spoken s m typ sid seq body x ∧ ∀ p ∈ x.kept, p.1 < seq

/-- The state in which a tick's messages are handled. -/
def InTick (s : State) : State := { s with dict := { s.dict with inbox := [], tick := s.dict.tick + 1 } }

/-- The last thing that left the module is an answer on the message's connection. -/
def Told (u : State) (m : ThnMsg) (ans : Bytes) : Prop :=
  u.out.getLast? = some { kind := .thinil, port := m.port, args := [m.conn], data := ans }

/-- An item's head: index, subindex, a zero byte (16 R493). -/
def itemHead (ix sub : Nat) : Bytes := beBytes 2 ix ++ beBytes 1 sub ++ [0]

end Sys2Proof.Machine

/-- R490, R493, R494, R496, R497: messages reach the tick's inbox; `OPEN` gives a session the next number, `CLOSE` ends it,
`PING` is answered; a repeated `SEQ` gets the kept answer, a stale one `THN_SEQ`, an unknown session `THN_SESSION`. -/
def Obligations.SessionsExchangeMessages : Prop :=
  ∀ (s : State) (m : ThnMsg) (sid seq : Nat) (x : SessSt),
    (∀ c, tfind s.dict.conns m.conn = some c → c.port = m.port → s.tpServes m.port = true →
      ∀ p ∈ [(0x01, Instr.openSession m.port m.conn m.msg), (0x02, Instr.closeSession m.port m.conn m.msg),
        (0x03, Instr.ping m.port m.conn m.msg), (0x10, Instr.readEntry m.port m.conn m.msg),
        (0x11, Instr.writeEntry m.port m.conn m.msg), (0x12, Instr.readSeg m.port m.conn m.msg),
        (0x13, Instr.writeSeg m.port m.conn m.msg)],
        beAt m.msg 1 1 = p.1 → ∃ u, exec p.2 s = .next u ∧ u.dict.inbox = s.dict.inbox ++ [m] ∧ u.out = s.out ∧
          u.dict.sessions = s.dict.sessions) ∧
    (∀ role sub g b, m.msg = [1, 1, 0] ++ beBytes 1 sub ++ zeros 4 ++ beBytes 4 seq ++ [0, 4, 0, 0] ++ beBytes 1 role ++ zeros 3 →
      seq < 2 ^ 32 → sub ≤ 1 → 1 ≤ role → role ≤ 4 → s.dict.inbox = [m] → m.port < 2 →
      (∃ c, tfind s.dict.conns m.conn = some c) → DictUp s → s.grantOf m.port m.conn = (g, b) →
      (role ≤ g → (role = 2 → g = 2) → s.dict.sessions.length < 32 →
        ∃ u y, exec (.dictionaryTick false) s = .next u ∧ tfind u.dict.sessions s.dict.sessNext = some y ∧
          y.port = m.port ∧ y.conn = m.conn ∧ y.role = role ∧ y.subscribe = decide (sub = 1) ∧ (role = 2 → y.berth = b) ∧
          u.dict.sessNext = s.dict.sessNext + 1 ∧
          Told u m (thnMsg 0x81 s.dict.sessNext seq 0 (beBytes 2 1184 ++ beBytes 2 100))) ∧
      (g < role → ∃ u, exec (.dictionaryTick false) s = .next u ∧ u.dict.sessions = s.dict.sessions ∧
        Told u m (thnMsg 0x81 0 seq 0x0806 [])) ∧
      (role ≤ g → (role = 2 → g = 2) → 32 ≤ s.dict.sessions.length →
        ∃ u, exec (.dictionaryTick false) s = .next u ∧ u.dict.sessions = s.dict.sessions ∧
          Told u m (thnMsg 0x81 0 seq 0x0804 []))) ∧
    (Fresh s m 0x02 sid seq [] x → x.role ≠ 2 → ∃ u, exec (.dictionaryTick false) s = .next u ∧
      tfind u.dict.sessions sid = none ∧ u.lk.service ≠ some sid ∧ Told u m (thnMsg 0x82 sid seq 0 [])) ∧
    (Fresh s m 0x03 sid seq [] x → x.role ≠ 2 → ∃ u y, exec (.dictionaryTick false) s = .next u ∧
      tfind u.dict.sessions sid = some y ∧ y.kept.getLast? = some (seq, thnMsg 0x83 sid seq 0 []) ∧ y.kept.length ≤ max 64 x.kept.length ∧
      Told u m (thnMsg 0x83 sid seq 0 [])) ∧
    (∀ typ body p, Spoken s m typ sid seq body x → typ ∈ [2, 3, 0x10, 0x11, 0x12, 0x13] →
      x.kept.find? (fun p => p.1 == seq) = some p →
      ∃ u, exec (.dictionaryTick false) s = .next u ∧ Told u m p.2 ∧ u.dict.sessions = s.dict.sessions ∧ u.mem = s.mem) ∧
    (∀ typ body, Spoken s m typ sid seq body x → typ ∈ [2, 3, 0x10, 0x11, 0x12, 0x13] → x.kept ≠ [] →
      (∀ p ∈ x.kept, seq < p.1) → ∃ u, exec (.dictionaryTick false) s = .next u ∧
        Told u m (thnMsg (typ ||| 0x80) sid seq 0x0803 []) ∧ u.dict.sessions = s.dict.sessions) ∧
    (∀ c, DictUp s → s.dict.inbox = [m] → m.port < 2 → tfind s.dict.conns m.conn = some c → sid < 2 ^ 32 → seq < 2 ^ 32 →
      tfind s.dict.sessions sid = none → m.msg = thnMsg 0x03 sid seq 0 [] →
      ∃ u, exec (.dictionaryTick false) s = .next u ∧ Told u m (thnMsg 0x83 sid seq 0x0802 []))

/-- R482, R493, R495, R499: a read answers the entry's bytes or its code; a write does what writing the entry does and answers
its code; a segment is read from its offset; staged segments become one write when the last is there. -/
def Obligations.EntriesAreReadAndWritten : Prop :=
  ∀ (s : State) (m : ThnMsg) (sid seq ix sub : Nat) (x : SessSt) (v : Bytes), ix < 2 ^ 16 → sub < 2 ^ 8 →
    (Fresh s m 0x10 sid seq ([0, 1, 0, 0] ++ itemHead ix sub) x →
      ((InTick s).readEntry x ix sub = (0, v) → v.length ≤ 1172 →
        ∃ u, exec (.dictionaryTick false) s = .next u ∧ u.berths = s.berths ∧ Told u m (thnMsg 0x90 sid seq 0
          ([0, 1, 0, 0] ++ itemHead ix sub ++ beBytes 2 0 ++ beBytes 2 v.length ++ padded v))) ∧
      (∀ c l, (InTick s).readEntry x ix sub = (c, l) → c ≠ 0 →
        ∃ u, exec (.dictionaryTick false) s = .next u ∧ Told u m (thnMsg 0x90 sid seq 0
          ([0, 1, 0, 0] ++ itemHead ix sub ++ beBytes 2 c ++ beBytes 2 0)))) ∧
    (v.length ≤ 1172 → Fresh s m 0x11 sid seq ([0, 1, 0, 0] ++ itemHead ix sub ++ beBytes 2 v.length ++ [0, 0] ++ padded v) x →
      ∀ c t, (InTick s).writeEntry sid x ix sub v = (c, t) →
        ∃ u, exec (.dictionaryTick false) s = .next u ∧ u.berths = t.berths ∧ u.lk = t.lk ∧ u.dict.sets = t.dict.sets ∧
          u.mem = t.mem ∧ u.dict.gen = t.dict.gen + (if t.dict.changed then 2 else 0) ∧
          Told u m (thnMsg 0x91 sid seq 0 ([0, 1, 0, 0] ++ itemHead ix sub ++ beBytes 2 c ++ [0, 0]))) ∧
    (∀ off len, Fresh s m 0x12 sid seq (itemHead ix sub ++ beBytes 4 off ++ beBytes 2 len ++ [0, 0]) x → len ≤ 1168 →
      off < 2 ^ 32 → (InTick s).readEntry x ix sub = (0, v) → off + len ≤ v.length →
      ∃ u, exec (.dictionaryTick false) s = .next u ∧ Told u m (thnMsg 0x92 sid seq 0
        (itemHead ix sub ++ beBytes 2 0 ++ [0, 0] ++ beBytes 4 v.length ++ beBytes 2 len ++ [0, 0] ++
          padded ((v.drop off).take len)))) ∧
    (∀ e, entryRow ix sub = some e → (InTick s).mayReach x ix sub e true (some (.n 3)) = 0 → x.staged = none →
      (v.length ≤ 1168 → e.lmin ≤ v.length → v.length ≤ e.lmax →
        Fresh s m 0x13 sid seq (itemHead ix sub ++ zeros 4 ++ beBytes 4 v.length ++ beBytes 2 v.length ++ [0, 1] ++ padded v) x →
        ∀ c t, ((InTick s).modSession sid fun y => { y with staged := none }).writeEntry sid x ix sub v = (c, t) →
          ∃ u, exec (.dictionaryTick false) s = .next u ∧ u.berths = t.berths ∧ u.fw = t.fw ∧ u.mem = t.mem ∧
            Told u m (thnMsg 0x93 sid seq 0 (itemHead ix sub ++ beBytes 2 c ++ [0, 0]))) ∧
      (∀ off total, v.length ≤ 1168 → off + v.length ≤ total → e.lmin ≤ total → total ≤ e.lmax → total < 2 ^ 32 →
        Fresh s m 0x13 sid seq (itemHead ix sub ++ beBytes 4 off ++ beBytes 4 total ++ beBytes 2 v.length ++ [0, 0] ++ padded v) x →
        ∃ u y, exec (.dictionaryTick false) s = .next u ∧ tfind u.dict.sessions sid = some y ∧
          y.staged = some (entryKey ix sub, total, [(off, v)]) ∧ u.berths = s.berths ∧
          Told u m (thnMsg 0x93 sid seq 0 (itemHead ix sub ++ beBytes 2 0 ++ [0, 0]))))

/-- R485: service state, whole: its entry, who may write it, when it ends, and what it permits. -/
def Obligations.ServiceStateGuardsRepairs : Prop :=
  ∀ (s : State) (sid v ix sub : Nat) (x : SessSt) (value : Bytes), v ≤ 1 → DictUp s → tfind s.dict.sessions sid = some x →
    ((s.readEntry x 0x1201 0).1 = 0 → (s.readEntry x 0x1201 0).2 = beBytes 1 (if s.lk.service = none then 0 else 1)) ∧
    (x.role = 4 → ∃ u, exec (.serviceStateWrite sid v) s = .next u ∧ u.lk.service = (if v = 1 then some sid else none) ∧
      Answers u 0x1201 0 0 ∧ u.berths = s.berths ∧ u.cores = s.cores ∧ u.mem = s.mem ∧
      (v = 1 → s.lk.service = none → Raises s u 0x0883 [0xFF, 1, 0]) ∧
      (v = 0 → s.lk.service ≠ none → Raises s u 0x0883 [0xFF, 0, 0])) ∧
    (x.role ≠ 4 → x.role ≤ 3 → ∃ u c, exec (.serviceStateWrite sid v) s = .next u ∧ u.lk = s.lk ∧ c ≠ 0 ∧
      Answers u 0x1201 0 c ∧ u.dict = s.dict) ∧
    (s.lk.service = some sid → ∃ u, exec (.sessionIdleTimeout sid) s = .next u ∧ u.lk.service = none ∧
      Raises s u 0x0883 [0xFF, 0, 0] ∧ u.berths = s.berths) ∧
    (s.lk.service = some sid → x.port < 2 → x.port ∉ s.dict.tpDown →
      ∃ u, exec (.towpathPortLinkChange x.port false) s = .next u ∧ u.lk.service = none ∧ u.berths = s.berths) ∧
    (∀ e, entryRow ix sub = some e → 0x2001 ≤ ix → ix ≤ 0x2007 → value.length = e.lmax → x.role = 4 →
      (s.lk.service = none → ∃ u, exec (.calibrationWrite sid ix sub value) s = .next u ∧ Answers u ix sub 0x0809 ∧
        u.dict = s.dict) ∧
      (s.lk.service ≠ none → ∃ u, exec (.calibrationWrite sid ix sub value) s = .next u ∧ Answers u ix sub 0 ∧
        tfind u.dict.blobs (entryKey ix sub) = some value ∧ u.dict.calWrites = (s.dict.calWrites + 1) % 2 ^ 32 ∧
        Raises s u 0x0880 [0xFF, entryKey ix sub, 0] ∧ u.berths = s.berths)) ∧
    (∀ e w y k, e.acc ≠ .rws → ({ s with lk := { s.lk with service := k } }).mayReach x ix sub e w y = s.mayReach x ix sub e w y)

/-- R489, R490, R494, R495, R504, R509, R511: the mirror changes with a tick that brought a change; an idle session and a
forgotten staged value go; a handshake opens a connection to a client that proves its key and its chain, and to none once the
secure element has failed; a port that goes down takes its connections and sessions with it. -/
def Obligations.TicksTimersAndHandshakes : Prop :=
  ∀ (s : State) (sid port conn : Nat) (leaf chain : Bytes) (proof changed : Bool),
    (DictUp s → s.dict.inbox = [] → ∃ u, exec (.dictionaryTick changed) s = .next u ∧ u.dict.tick = s.dict.tick + 1 ∧
      u.dict.changed = false ∧ u.out = s.out ∧
      u.dict.gen = (if changed = true ∨ s.dict.changed = true then s.dict.gen + 2 else s.dict.gen)) ∧
    (∀ x, tfind s.dict.sessions sid = some x → s.lk.service ≠ some sid →
      ∃ u, exec (.sessionIdleTimeout sid) s = .next u ∧ tfind u.dict.sessions sid = none ∧ u.lk = s.lk ∧ u.out = s.out ∧
        ∀ k ≠ sid, tfind u.dict.sessions k = tfind s.dict.sessions k) ∧
    (∀ x, tfind s.dict.sessions sid = some x → ∃ u, exec (.stageTimeout sid) s = .next u ∧
      tfind u.dict.sessions sid = some { x with staged := none } ∧ u.out = s.out ∧
      ∀ k ≠ sid, tfind u.dict.sessions k = tfind s.dict.sessions k) ∧
    (s.tpServes port = true → tfind s.dict.conns conn = none → s.lk.seFailed = false → s.dict.conns.length < 32 →
      (proof = true → Config.clientChain (leaf ++ chain) (padTo 2048 (Config.identity (entryKey 0x1301 0))) = true →
        ∃ u, exec (.towpathHandshake port conn leaf chain proof) s = .next u ∧
          tfind u.dict.conns conn = some { port := port, leaf := leaf, chain := chain } ∧
          u.out = s.out ++ [{ kind := .dtls, port := port, args := [conn, 1] }]) ∧
      (proof = false → ∃ u, exec (.towpathHandshake port conn leaf chain proof) s = .next u ∧ u.dict = s.dict ∧
        Raises s u 0x0881 [0xFF, port, 0] ∧ u.out.getLast? = some { kind := .dtls, port := port, args := [conn, 0] })) ∧
    (s.tpServes port = true → tfind s.dict.conns conn = none → s.lk.seFailed = true →
      ∃ u, exec (.towpathHandshake port conn leaf chain proof) s = .next u ∧ u.dict = s.dict ∧
        u.out = s.out ++ [{ kind := .dtls, port := port, args := [conn, 0] }]) ∧
    (s.lk.seFailed = false → ∃ u, exec .secureElement s = .next u ∧ u.lk.seFailed = true ∧ Raises s u 0x0882 [0xFF, 0, 0]) ∧
    (s.lk.seFailed = true → exec .secureElement s = .next s) ∧
    (port < 2 → port ∉ s.dict.tpDown →
      ∃ u, exec (.towpathPortLinkChange port false) s = .next u ∧ u.tpServes port = false ∧
        (∀ p ∈ u.dict.conns, p.2.port ≠ port) ∧ (∀ p ∈ u.dict.sessions, p.2.port ≠ port) ∧
        ∀ p ∈ s.dict.sessions, (∀ q ∈ s.dict.sessions, q.1 = p.1 → q.2.port ≠ port) → p ∈ u.dict.sessions) ∧
    (port < 2 → ∃ u, exec (.towpathPortLinkChange port true) s = .next u ∧ port ∉ u.dict.tpDown ∧
      u.dict.sessions = s.dict.sessions ∧ u.out = s.out)

namespace Sys2Proof.Machine

/-- One thing more has left the module: an answer on the MCTP endpoint of a host port. -/
def Mctp (s u : State) (port : Nat) (args : List Nat) (data : Bytes) : Prop :=
  u.out = s.out ++ [{ kind := .mctp, port := port, args := args, data := data }]

end Sys2Proof.Machine

/-- R506: the MCTP endpoint of a host port holds the ID that the bus owner sets, and answers the control requests that the
manual lists; a port that is down answers nothing. -/
def Sys2Proof.Machine.EndpointsAnswerControl : Prop :=
  ∀ (s : State) (port op eid typ : Nat),
    (s.mctpUp port = true →
      (op ≤ 1 → 0 < eid → eid < 0xFF → ∃ u, exec (.setEndpointId port op eid) s = .next u ∧ (u.hostPort port).eid = eid ∧
        (u.hostPort port).spdm = (s.hostPort port).spdm ∧ Mctp s u port [0x01, 0, eid] []) ∧
      (1 < op ∨ eid = 0 ∨ 0xFF ≤ eid → ∃ u, exec (.setEndpointId port op eid) s = .next u ∧ u.host = s.host ∧
        Mctp s u port [0x01, 2] []) ∧
      (∃ u, exec (.getEndpointId port) s = .next u ∧ u.host = s.host ∧ Mctp s u port [0x02, 0, (s.hostPort port).eid] []) ∧
      (typ = 0 ∨ typ = 5 ∨ typ = 0xFF → ∃ u, exec (.getMctpVersionSupport port typ) s = .next u ∧
        Mctp s u port [0x04, 0] (Config.mctpVersions typ)) ∧
      (typ ≠ 0 → typ ≠ 5 → typ ≠ 0xFF → ∃ u, exec (.getMctpVersionSupport port typ) s = .next u ∧
        Mctp s u port [0x04, 0x80] []) ∧
      (∃ u, exec (.getMessageTypeSupport port) s = .next u ∧ Mctp s u port [0x05, 0] [0, 5])) ∧
    (s.mctpUp port = false →
      ∀ c ∈ [Instr.setEndpointId port op eid, .getEndpointId port, .getMctpVersionSupport port typ, .getMessageTypeSupport port,
        .getVersion port, .getCapabilities port typ, .negotiateAlgorithms port op eid, .getDigests port,
        .getCertificate port op eid typ, .challenge port op [], .getMeasurements port op true []], exec c s = .next s)

/-- R506, R507, R511: the SPDM responder speaks version 1.3 alone, and a request out of turn is an error; once negotiated it
gives its chain's digest, the chain in portions, and signed answers that hold the requester's nonce; with the secure element
failed nothing is signed. -/
def Sys2Proof.Machine.ResponderProvesIdentity : Prop :=
  ∀ (s : State) (port version asym hash slot off len op : Nat) (sign : Bool) (nonce : Bytes), s.spdmUp port = true →
    (∃ u, exec (.getVersion port) s = .next u ∧ u.spdm port = { version := true } ∧ Mctp s u port [0x04] (leBytes 2 0x1300)) ∧
    (version ≠ 0x13 → ∃ u, exec (.getCapabilities port version) s = .next u ∧ u.host = s.host ∧ Mctp s u port [0x7F, 0x41] []) ∧
    ((s.spdm port).version = true → ∃ u l, exec (.getCapabilities port 0x13) s = .next u ∧ (u.spdm port).caps = true ∧
      Mctp s u port (0x61 :: l) []) ∧
    ((s.spdm port).caps = true → ∃ u, exec (.negotiateAlgorithms port asym hash) s = .next u ∧
      ((u.spdm port).algs = true ↔ asym.testBit 7 = true ∧ hash.testBit 1 = true) ∧
      Mctp s u port [0x63, asym &&& 0x80, hash &&& 2] []) ∧
    ((s.spdm port).algs = false → ∀ c ∈ [Instr.getDigests port, .getCertificate port slot off len, .challenge port slot nonce,
      .getMeasurements port op sign nonce], ∃ u, exec c s = .next u ∧ u.host = s.host ∧ Mctp s u port [0x7F, 4] []) ∧
    ((s.spdm port).algs = true →
      (∃ u, exec (.getDigests port) s = .next u ∧ Mctp s u port [0x01, 1] (sha384 spdmChain)) ∧
      (off < spdmChain.length → ∃ u d, exec (.getCertificate port 0 off len) s = .next u ∧ d = (spdmChain.drop off).take len ∧
        Mctp s u port [0x02, 0, d.length, spdmChain.length - off - d.length] d) ∧
      (slot ≠ 0 ∨ spdmChain.length ≤ off → ∃ u, exec (.getCertificate port slot off len) s = .next u ∧
        Mctp s u port [0x7F, 1] []) ∧
      (slot ≠ 0 → ∃ u, exec (.challenge port slot nonce) s = .next u ∧ Mctp s u port [0x7F, 1] []) ∧
      (s.lk.seFailed = false → ∃ u own n, exec (.challenge port 0 nonce) s = .next u ∧ own.length = 32 ∧
        Mctp s u port [0x03] (own ++ sha384 spdmChain ++ Config.sign n (nonce ++ own ++ sha384 spdmChain))) ∧
      (s.lk.seFailed = true → ∃ u, exec (.challenge port 0 nonce) s = .next u ∧ Mctp s u port [0x7F, 5] []) ∧
      (∃ u, exec (.getMeasurements port 0 false nonce) s = .next u ∧ Mctp s u port [0x60] [6]) ∧
      (∀ i t v, s.measurements[i]? = some (t, v) → ∃ u, exec (.getMeasurements port (i + 1) false nonce) s = .next u ∧
        Mctp s u port [0x60] ([1] ++ (leBytes 1 (i + 1) ++ leBytes 1 t ++ leBytes 2 v.length ++ v))) ∧
      (s.lk.seFailed = false → op ≤ 6 → ∃ u own body n, exec (.getMeasurements port op true nonce) s = .next u ∧
        own.length = 32 ∧ Mctp s u port [0x60] (own ++ body ++ Config.sign n (nonce ++ own ++ body)) ∧
        exec (.getMeasurements port op false nonce) s = .next (s.mctpSay port [0x60] body)) ∧
      (6 < op → op ≠ 0xFF → ∃ u, exec (.getMeasurements port op sign nonce) s = .next u ∧ Mctp s u port [0x7F, 1] []))

/-- R490, R491, R511: the clock follows the master of the configured domain alone; a locked clock that loses its master leaves
the locked state with its event. -/
def Sys2Proof.Machine.ClockFollowsTheMaster : Prop :=
  ∀ (s : State) (port typ domain ns : Nat) (locked : Bool),
    (domain ≠ s.setting 0x1232 0 0 ∨ s.tpServes port = false → exec (.ptpMessage port typ domain ns locked) s = .next s) ∧
    (s.tpServes port = true → domain = s.setting 0x1232 0 0 →
      (s.lk.ptp = 0 → ∃ u, exec (.ptpMessage port 0xB domain ns locked) s = .next u ∧ u.lk.ptp = 1 ∧ u.out = s.out) ∧
      (s.lk.ptp = 1 → typ = 0 ∨ typ = 8 ∨ typ = 9 → ∃ u, exec (.ptpMessage port typ domain ns locked) s = .next u ∧
        u.lk.ptp = (if locked then 2 else 1) ∧ u.lk.ptpNs = ns ∧ u.ptpTime = (if locked then ns else 0) ∧
        u.dict = s.dict ∧ u.berths = s.berths) ∧
      (s.lk.ptp = 2 → locked = false → typ = 0 ∨ typ = 8 ∨ typ = 9 →
        ∃ u, exec (.ptpMessage port typ domain ns locked) s = .next u ∧ u.lk.ptp = 1 ∧ Raises s u 0x0884 [0xFF, 0, 0])) ∧
    (s.lk.ptp = 2 → ∃ u, exec .ptpMasterLost s = .next u ∧ u.lk.ptp = 0 ∧ u.ptpTime = 0 ∧ Raises s u 0x0884 [0xFF, 0, 0]) ∧
    (s.lk.ptp ≠ 2 → ∃ u, exec .ptpMasterLost s = .next u ∧ u.lk.ptp = 0 ∧ u.out = s.out)

/-- Identity is proved and timed: the parts together. -/
def Obligations.IdentityIsProvedAndTimed : Prop := EndpointsAnswerControl ∧ ResponderProvesIdentity ∧ ClockFollowsTheMaster

/-- R512-R517, R539: a start clears every memory, berth and session, keeps the defect list and the settings that outlive it,
and counts its dawns; its end reports how long it took; without power nothing starts. -/
def Obligations.StartsClearTheModule : Prop :=
  ∀ (s : State) (ms key d c : Nat) (failed : List (Nat × Nat × Nat × Nat)),
    (∃ u, exec .dawn s = .next u ∧ u.boot.running = 1 ∧ u.boot.dawns = s.boot.dawns + 1 ∧ u.berths = [] ∧ u.cores = [] ∧
      u.mem = {} ∧ u.dict.sessions = [] ∧ u.dict.sessNext = 1 ∧ u.power.on = true ∧ u.power.level = 0 ∧
      u.defects.list = s.defects.list ∧ u.up = false ∧
      tget u.dict.sets d key = if survives key then tget s.dict.sets d key else d) ∧
    (DictUp s → ∃ u, exec .dawnRequest s = .next u ∧ u.boot.running = 1 ∧ u.boot.dawns = s.boot.dawns + 1 ∧ u.berths = [] ∧
      u.mem = {} ∧ u.defects.list = s.defects.list ∧ Answers u 0x7001 0 0) ∧
    (DictUp s → ∃ u, exec .firstLight s = .next u ∧ u.boot.running = 2 ∧ u.boot.dawns = s.boot.dawns ∧ u.berths = [] ∧
      u.mem = {} ∧ u.dict.sessions = [] ∧ u.power.level = s.power.level ∧ u.defects.list = s.defects.list ∧
      Answers u 0x7001 0 0) ∧
    (s.boot.running ≠ 0 → s.power.on = true →
      (∃ u, exec (.startEnd ms failed) s = .next u ∧ u.boot.running = 0 ∧ u.boot.durationMs = ms % 2 ^ 32 ∧
        u.boot.dawns = s.boot.dawns) ∧
      (∃ u, exec (.startEnd ms []) s = .next u ∧
        Raises s u (if s.boot.running = 1 then 0x0980 else 0x0981) [0xFF, ms % 2 ^ 32, 0] ∧ u.defects = s.defects) ∧
      (s.boot.running = 1 → s.power.offCause = some c → ∃ u, exec (.startEnd ms []) s = .next u ∧ u.power.offCause = none ∧
        Raises s u 0x0B8A [0xFF, c, 0])) ∧
    (s.boot.running = 0 → exec (.startEnd ms failed) s = .next s)

/-- R27, R525-R527, R541: a measure that crosses a level is warned of once, and at its second level a core awaits a spare; the
spare takes the core's index over once no launch holds it, with its entry; without a spare the core is absent. -/
def Sys2Proof.Machine.FailedCoresAreSubstituted : Prop :=
  ∀ (s : State) (kind die unit sub measure c cause detail n : Nat) (bad : List Nat),
    (measureKind measure kind = true → s.unitIn kind die unit sub = true → s.lk.active ≠ none →
      (kind = 4 → (s.link unit).life ≠ .instrument) → n = unitKey kind die unit sub →
      ((2 * measure + 1, n) ∉ s.defects.warned → ∃ u, exec (.wearSample kind die unit sub measure 1) s = .next u ∧
        Raises s u 0x0986 [0xFF, n, measure] ∧ u.defects.list = s.defects.list ∧ (2 * measure + 1, n) ∈ u.defects.warned) ∧
      ((2 * measure + 1, n) ∈ s.defects.warned → ∃ u, exec (.wearSample kind die unit sub measure 1) s = .next u ∧
        u.out = s.out ∧ u.defects.list = s.defects.list) ∧
      (∀ j, kind = 1 → s.coreOf die unit = some j → (∀ x ∈ s.defects.subst, x.1 ≠ 16 * die + j) →
        ∃ u, exec (.wearSample kind die unit sub measure 2) s = .next u ∧
          u.defects.subst = s.defects.subst ++ [(16 * die + j, 3, 0x0986 + measure * 2 ^ 16)])) ∧
    ((∀ x ∈ s.defects.subst, x.1 = c → x = (c, cause, detail)) → (c, cause, detail) ∈ s.defects.subst → s.lk.active ≠ none →
      s.kern c = none → cause ≠ 3 →
      (∀ p r, ((s.freeCores (c / 16)).filter fun p => !bad.contains p) = p :: r → s.defects.list.length < 4096 →
        ∃ u, exec (.coreSubstitution c bad) s = .next u ∧ u.physCore c = p ∧ p ∉ u.freeCores (c / 16) ∧
          (∀ x ∈ u.defects.subst, x.1 ≠ c) ∧ Raises s u 0x0982 [0xFF, s.defectNo, 0] ∧
          (∀ e ≠ c, u.physCore e = s.physCore e) ∧
          u.defects.list = s.defects.list ++ [{
            kind := 1, die := c / 16, unit := s.physCore c, cause := cause, st := 1, spare := p, dawnNo := s.boot.dawns,
            ptpNs := s.ptpTime, detail := detail }]) ∧
      (((s.freeCores (c / 16)).filter fun p => !bad.contains p) = [] →
        ∃ u, exec (.coreSubstitution c bad) s = .next u ∧ u.physCore c = 0xFF ∧ Raises s u 0x0985 [0xFF, c, 0])) ∧
    (s.kern c ≠ none → exec (.coreSubstitution c bad) s = .next s)

/-- R528-R530: a keeper in service state has a listed unit tested: one that passes is marked readmitted, one that fails stays;
a unit in service that the keeper declares failed is taken out as if it had failed. -/
def Sys2Proof.Machine.KeepersReadmitAndDeclare : Prop :=
  ∀ (s : State) (kind die unit sub i : Nat) (e : DefectEnt),
    (DictUp s →
      (s.lk.service = none →
        (∃ u, exec (.readmissionRequest kind die unit sub) s = .next u ∧ Answers u 0x7200 0 0x0809 ∧ u.defects = s.defects) ∧
        ∃ u, exec (.declareFailed kind die unit sub) s = .next u ∧ Answers u 0x7202 0 0x0809 ∧ u.defects = s.defects) ∧
      (s.lk.service ≠ none →
        (s.defects.readmit = 1 → ∃ u, exec (.readmissionRequest kind die unit sub) s = .next u ∧ Answers u 0x7200 0 0x0907 ∧
          u.defects = s.defects) ∧
        (s.defects.readmit ≠ 1 → s.readmitEntry kind die unit sub = none →
          ∃ u, exec (.readmissionRequest kind die unit sub) s = .next u ∧ Answers u 0x7200 0 0x0905 ∧ u.defects = s.defects) ∧
        (s.defects.readmit ≠ 1 → s.readmitEntry kind die unit sub = some i → s.readmitOk kind die unit = true →
          ∃ u, exec (.readmissionRequest kind die unit sub) s = .next u ∧ Answers u 0x7200 0 0 ∧ u.defects.readmit = 1 ∧
            u.defects.readmitUnit = s.defects.list[i]? ∧ u.defects.list = s.defects.list) ∧
        (s.unitIn kind die unit sub = false → ∃ u, exec (.declareFailed kind die unit sub) s = .next u ∧
          Answers u 0x7202 0 0x0906 ∧ u.defects = s.defects) ∧
        (∀ j, kind = 1 → s.unitIn kind die unit sub = true → s.coreOf die unit = some j →
          (∀ x ∈ s.defects.subst, x.1 ≠ 16 * die + j) →
          ∃ u detail, exec (.declareFailed kind die unit sub) s = .next u ∧ Answers u 0x7202 0 0 ∧
            u.defects.subst = s.defects.subst ++ [(16 * die + j, 5, detail)]))) ∧
    (s.defects.readmitUnit = some e →
      (∃ u, exec (.readmitDone false) s = .next u ∧ u.defects.readmit = 3 ∧ u.defects.list = s.defects.list ∧
        u.defects.coreFree = s.defects.coreFree ∧ Raises s u 0x098D [0xFF, 0, 0]) ∧
      (s.readmitEntry e.kind e.die e.unit e.sub = some i →
        ∃ u, exec (.readmitDone true) s = .next u ∧ u.defects.readmit = 2 ∧ Raises s u 0x098D [0xFF, 1, 0] ∧
          (∀ x, s.defects.list[i]? = some x → u.defects.list[i]? = some { x with st := 5 }) ∧
          (∀ j ≠ i, u.defects.list[j]? = s.defects.list[j]?) ∧
          (e.kind = 1 → e.unit < 18 → e.unit ∈ u.freeCores e.die) ∧
          (e.kind = 9 → e.die ∉ u.defects.fenced))) ∧
    (s.defects.readmitUnit = none → ∀ p, exec (.readmitDone p) s = .next s)

/-- Units are replaced and readmitted: the parts together. -/
def Obligations.UnitsAreReplacedAndReadmitted : Prop := FailedCoresAreSubstituted ∧ KeepersReadmitAndDeclare

/-- R22, R511, R531, R532, R538, R541: a standby that mirrors takes over when the active lockkeeper falls silent, and no berth
stops; without one dictionary access ends; a lockkeeper that restarts catches up or is fenced. -/
def Obligations.StandbyTakesOver : Prop :=
  ∀ (s : State) (die a : Nat),
    (s.lk.standby = 1 → s.lk.active = some a → ∃ u, exec .heartbeatMiss s = .next u ∧ u.lk.active = some (58 - a) ∧
      u.lk.standby = 0 ∧ a ∈ u.lk.cut ∧ u.dict.sessions = [] ∧ u.lk.service = none ∧ Raises s u 0x0987 [0xFF, 58 - a, 0] ∧
      u.berths = s.berths ∧ u.cores = s.cores ∧ u.mem = s.mem ∧ (s.fw.st = 2 → u.fw.st = 0)) ∧
    (s.lk.standby ≠ 1 → ∃ u, exec .heartbeatMiss s = .next u ∧ u.lk.active = none ∧ u.dict.sessions = [] ∧
      u.berths = s.berths ∧ u.cores = s.cores) ∧
    (die = 27 ∨ die = 31 → die ∉ s.lk.fenced → s.lk.active ≠ some die →
      (∀ x ∈ s.defects.waiting, x.kind = 0xB → x.die ≠ die) →
      (s.lk.active = some a → s.lk.standby = 0 → ∃ u, exec (.lkRestart die true) s = .next u ∧ u.lk.standby = 2 ∧
        u.lk.active = some a ∧ die ∉ u.lk.cut) ∧
      (s.lk.active = none → ∃ u, exec (.lkRestart die true) s = .next u ∧ u.lk.active = some die ∧ u.defects.waiting = []) ∧
      (s.lk.active = some a → ∃ u, exec (.lkRestart die false) s = .next u ∧ die ∈ u.lk.fenced ∧
        Raises s u 0x0984 [0xFF, die, 0xB] ∧ Raises s u 0x0988 [0xFF, die, 0] ∧ u.lk.active = some a)) ∧
    (s.lk.active = some die → exec (.lkRestart die true) s = .next s) ∧
    (s.lk.standby = 2 → s.lk.active = some a →
      (s.lk.installing = false → ∃ u, exec .standbyCatchUpDone s = .next u ∧ u.lk.standby = 1 ∧ u.lk.active = some a ∧
        (s.fw.st = 4 → u.fw.st = 0 ∧ u.fw.staged = none) ∧ (s.fw.st ≠ 4 → u.fw = s.fw)) ∧
      (s.lk.installing = true → ∃ u, exec .standbyCatchUpDone s = .next u ∧ u.lk.active = some (58 - a) ∧
        u.lk.version = s.stagedVersion ∧ u.lk.installing = false ∧ Raises s u 0x0987 [0xFF, 58 - a, 0])) ∧
    (s.lk.active = some a → s.lk.standby ≠ 0 → ∃ u, exec .standbyFailure s = .next u ∧ u.lk.standby = 0 ∧
      u.lk.active = some a ∧ Raises s u 0x0988 [0xFF, 58 - a, 0] ∧ (s.fw.st = 4 → u.fw.st = 1)) ∧
    (s.lk.active = none → exec .standbyFailure s = .next s)

/-- R533-R538: an image that passes its checks is staged, and refused by its code otherwise; a broadcast gives every receiver
every chunk, ends when none lacks one or after eight rounds, and reports what stays incomplete; a lockkeeper's image has the
standby restart; a berth hands over at its point. -/
def Obligations.FirmwareIsRolledOut : Prop :=
  ∀ (s : State) (image i : Bytes) (gaps : List (Nat × List Nat)) (b : Nat),
    (DictUp s →
      (s.fwImageCode image = 0 → ∃ u, exec (.imageStaging image) s = .next u ∧ u.fw.staged = some image ∧
        Answers u 0xA010 0 0) ∧
      (s.fwImageCode image ≠ 0 → ∃ u, exec (.imageStaging image) s = .next u ∧ u.fw = s.fw ∧
        Answers u 0xA010 0 (s.fwImageCode image)) ∧
      (image.length ≠ 4096 + leAt image 8 4 → s.fwImageCode image = 0x0900) ∧
      (s.fw.staged = none → ∃ u, exec .fwBroadcast s = .next u ∧ u.fw = s.fw ∧ Answers u 0xA011 0 0x0904) ∧
      (s.fw.staged = none → ∃ u, exec .fwInstallLockkeeper s = .next u ∧ u.fw = s.fw ∧ Answers u 0xA011 0 0x0904) ∧
      (s.fw.staged = some i → s.fw.st ≠ 2 → s.fw.st ≠ 4 →
        (leAt i 4 1 = 2 → s.lk.seFailed = false → s.flaggedList = [] →
          ∃ u, exec .fwBroadcast s = .next u ∧ u.fw.st = 2 ∧ u.fw.rounds = 0 ∧ u.fw.target = leAt i 6 2 ∧
            (∀ d < 24, ∀ k < 19, tget u.fw.gaps [] (32 * d + k) = List.range (i.length / 4096)) ∧ Answers u 0xA011 0 0) ∧
        (leAt i 4 1 ≠ 2 → ∃ u, exec .fwBroadcast s = .next u ∧ u.fw = s.fw ∧ Answers u 0xA011 0 0x0900) ∧
        (leAt i 4 1 = 1 → s.lk.standby = 1 → ∃ u, exec .fwInstallLockkeeper s = .next u ∧ u.fw.st = 4 ∧ u.lk.standby = 2 ∧
          u.lk.installing = true ∧ Answers u 0xA011 0 0)) ∧
      (s.fw.st = 2 → ∃ u, exec .fwAbort s = .next u ∧ u.fw.st = (if s.anyHandOver then 3 else 1) ∧ u.fw.gaps = [] ∧ u.fw.held = s.fw.held ∧
        Answers u 0xA011 0 0)) ∧
    (s.fw.st = 2 →
      ((∀ p ∈ s.fw.gaps, tget gaps [] p.1 = []) → ∃ u, exec (.fwRoundEnd gaps) s = .next u ∧ u.fw.gaps = [] ∧
        u.fw.base = s.fw.target ∧ u.fw.flagged = [] ∧
        u.fw.staged = (if s.stagedVersion = s.fw.target then none else s.fw.staged) ∧
        (∀ p ∈ s.fw.gaps, tget u.fw.held 0 p.1 = s.fw.target) ∧
        ((∀ k < 24, (s.berth k).life = .absent ∧ (s.berth k).handOver = false) → s.stagedVersion = s.fw.target →
          u.fw.st = 0)) ∧
      ((∃ p ∈ s.fw.gaps, tget gaps [] p.1 ≠ []) → s.fw.rounds < 7 → ∃ u, exec (.fwRoundEnd gaps) s = .next u ∧ u.fw.st = 2 ∧
        u.fw.rounds = s.fw.rounds + 1 ∧ u.berths = s.berths ∧ u.fw.base = s.fw.base) ∧
      ((∃ p ∈ s.fw.gaps, tget gaps [] p.1 ≠ []) → s.fw.rounds = 7 → ∃ u n, exec (.fwRoundEnd gaps) s = .next u ∧
        u.fw.base = s.fw.target ∧ u.fw.gaps = [] ∧ 0 < n ∧ Raises s u 0x0989 [0xFF, n, 0])) ∧
    ((s.berth b).handOver = true → (s.berth b).withhold = true ∨ (s.berth b).held = true → (s.berth b).life = .active →
      s.cmdRuns b = false → (s.snap b).phase ≠ 1 → (s.snap b).phase ≠ 2 →
      ∃ u, exec (.fwHandover b) s = .next u ∧ u.fwOf b = s.fw.base ∧ (u.berth b).handOver = false ∧
        (u.berth b).withhold = false ∧ Raises s u 0x098A [b, b, 0] ∧ u.mem = s.mem) ∧
    ((s.berth b).handOver = false → exec (.fwHandover b) s = .next s ∧ exec (.handoverDelayExpiry b) s = .next s) ∧
    ((s.berth b).handOver = true → ∃ u, exec (.handoverDelayExpiry b) s = .next u ∧ Raises s u 0x098B [b, b, 0] ∧
      u.berths = s.berths ∧ u.fw = s.fw)

namespace Sys2Proof.Machine

/-- No reset or dusk of a berth waits (14 R439). -/
def Unasked (s : State) (b : Nat) : Prop := (s.berth b).wantReset = false ∧ (s.berth b).wantDusk = false

/-- The slot that a berth's snapshot commands name (18 R558). -/
def State.named (s : State) (b : Nat) : Nat := s.snapSet b 7

/-- The state values block that a slot holds (18 R545). -/
def State.slotValues (s : State) (b k : Nat) : Bytes := s.memRead (s.slotBase b k (headDie (s.berth b)) + 128) 384

end Sys2Proof.Machine

/-- R542-R547, R558: the snapshot area takes values that fit and refuses others; a lockage that breaks a check is refused with
its lowest code, one that breaks none captures the berth's state in the slot's record; its release ends the stop. -/
def Sys2Proof.Machine.LockagesCaptureState : Prop :=
  ∀ (s : State) (b k sub v : Nat),
    (DictUp s → 3 ≤ sub → sub ≤ 5 → (s.berth b).life ≠ .absent →
      (s.areaCode b sub v = 0 → ∃ u, exec (.snapshotAreaWrite b sub v) s = .next u ∧ u.snapSet b sub = v ∧
        (u.snap b).slots = [] ∧ Answers u (0x4300 + b) sub 0) ∧
      (s.areaCode b sub v ≠ 0 → ∃ u, exec (.snapshotAreaWrite b sub v) s = .next u ∧ u.dict = s.dict ∧ u.snaps = s.snaps ∧
        Answers u (0x4300 + b) sub 0x0A00)) ∧
    ((s.snap b).lockage = some k → (s.snap b).phase = 1 → (s.snap b).copied = false →
      (s.cmdRuns b = true → exec (.lockageCopy b) s = .next s) ∧
      (s.cmdRuns b = false →
        (∀ c, (s.lockageCodes b k).min? = some c → ∃ u, exec (.lockageCopy b) s = .next u ∧ Raises s u 0x0A41 [b, k, c] ∧
          (Unasked s b → (u.snap b).phase = 0 ∧ (u.snap b).lockage = none ∧ u.slot b k = s.slot b k ∧
            (u.berth b).boundary = false ∧ u.mem = s.mem)) ∧
        (s.lockageCodes b k = [] → ∃ u x, exec (.lockageCopy b) s = .next u ∧ u.slot b k = x ∧ (u.snap b).copied = true ∧
          (u.snap b).phase = 1 ∧ x.st = 1 ∧ x.tally = (s.berth b).tally.toNat ∧ x.stepSeq = (s.berth b).stepSeq.toNat ∧
          x.ingest = (s.berth b).ingest ∧ x.inflight = s.exchBusy b ∧ x.fw = s.fwOf b ∧ x.drained = false ∧
          x.draining = false))) ∧
    ((s.snap b).lockage = some k → (s.snap b).phase = 1 → (s.snap b).copied = true →
      ∃ u, exec (.lockageRelease b v) s = .next u ∧ Raises s u 0x0A40 [b, k, v % 2 ^ 32] ∧
        (Unasked s b → (u.snap b).phase = 0 ∧ (u.snap b).lockage = none ∧ u.slot b k = { s.slot b k with stopUs := v % 2 ^ 32 } ∧
          (u.berth b).boundary = false)) ∧
    ((s.snap b).lockage = none → exec (.lockageCopy b) s = .next s ∧ exec (.lockageRelease b v) s = .next s)

/-- R548-R551, R560: a slot whose digests are complete is invalid if an exchange was in flight, else complete, compared with a
replica's digest once one is there, and drained where that is asked for. -/
def Sys2Proof.Machine.SlotsAreDigestedAndCompared : Prop :=
  ∀ (s : State) (b k step : Nat) (digest : BitVec 128),
    ((s.slot b k).st = 1 → ¬ ((s.snap b).phase = 1 ∧ (s.snap b).lockage = some k) →
      ((s.slot b k).inflight = true → ∃ u, exec (.snapshotDigestDone b k) s = .next u ∧ (u.slot b k).st = 5 ∧
        Raises s u 0x0A44 [b, k, 0]) ∧
      ((s.slot b k).inflight = false → s.snapSet b 0xE ≠ 1 →
        ((s.slot b k).replica = none → ∃ u, exec (.snapshotDigestDone b k) s = .next u ∧ (u.slot b k).st = 2 ∧
          (u.slot b k).tensor = s.tensorDigest b k (s.slot b k).compare ∧ (u.slot b k).state = s.stateDigest b k ∧
          u.out = s.out) ∧
        (∀ n d, (s.slot b k).replica = some (n, d) → s.lk.active ≠ none →
          ∃ u, exec (.snapshotDigestDone b k) s = .next u ∧
            if d = s.tensorDigest b k (s.slot b k).compare then (u.slot b k).st = 3 ∧ Raises s u 0x0A42 [b, k, 0]
            else (u.slot b k).st = 4 ∧ Raises s u 0x0A43 [b, k, 0])) ∧
      ((s.slot b k).inflight = false → (s.slot b k).replica = none → s.snapSet b 0xE = 1 →
        ∃ u, exec (.snapshotDigestDone b k) s = .next u ∧ (u.slot b k).st = 2 ∧ (u.slot b k).draining = true)) ∧
    (DictUp s → k < 4 → (s.berth b).life ≠ .absent → step < 2 ^ 64 →
      (s.snapSet b 5 ≤ k ∨ (s.slot b k).st = 0 ∨ 5 ≤ (s.slot b k).st ∨ (s.slot b k).stepSeq ≠ step →
        ∃ u, exec (.replicaDigestWrite b k step digest) s = .next u ∧ u.snaps = s.snaps ∧
          Answers u (0x4300 + b) (0x18 + k) 0x0A02) ∧
      (k < s.snapSet b 5 → (s.slot b k).stepSeq = step →
        ((s.slot b k).st = 1 → ∃ u, exec (.replicaDigestWrite b k step digest) s = .next u ∧ (u.slot b k).st = 1 ∧
          (u.slot b k).replica = some (step, digest.toNat) ∧ Answers u (0x4300 + b) (0x18 + k) 0) ∧
        (2 ≤ (s.slot b k).st → (s.slot b k).st ≤ 4 → ∃ u, exec (.replicaDigestWrite b k step digest) s = .next u ∧
          Answers u (0x4300 + b) (0x18 + k) 0 ∧
          if digest.toNat = (s.slot b k).tensor then (u.slot b k).st = 3 ∧ Raises s u 0x0A42 [b, k, 0]
          else (u.slot b k).st = 4 ∧ Raises s u 0x0A43 [b, k, 0])))

/-- Lockages are taken and digested: the parts together. -/
def Obligations.LockagesAreTakenAndDigested : Prop := LockagesCaptureState ∧ SlotsAreDigestedAndCompared

/-- R551-R553, R558, R559: a finished slot drains and an acknowledge of every die's whole run ends its drain; frames without an
acknowledge are sent anew, a drain without progress is reported; a slot that fills takes its bytes in order and acknowledges
them; a slot in use is not emptied. -/
def Obligations.SlotsDrainAndFill : Prop :=
  ∀ (s : State) (b k pos port : Nat) (frame : Bytes),
    (DictUp s → k = s.named b → k < s.snapSet b 5 →
      (2 ≤ (s.slot b k).st → (s.slot b k).st ≤ 4 → (s.slot b k).draining = false →
        ∃ u, exec (.snapshotDrain b) s = .next u ∧ (u.slot b k).draining = true ∧ (u.slot b k).acked = [] ∧
          (u.slot b k).st = (s.slot b k).st ∧ Answers u (0x4300 + b) 6 0) ∧
      ((s.slot b k).st < 2 ∨ 4 < (s.slot b k).st → ∃ u, exec (.snapshotDrain b) s = .next u ∧ u.snaps = s.snaps ∧
        Answers u (0x4300 + b) 6 0x0A02) ∧
      ((s.slot b k).draining = true →
        (∃ u, exec (.drainAbort b) s = .next u ∧ (u.slot b k).draining = false ∧ (u.slot b k).drained = (s.slot b k).drained ∧
          Answers u (0x4300 + b) 6 0) ∧
        ∃ u, exec (.slotEmpty b) s = .next u ∧ u.snaps = s.snaps ∧ Answers u (0x4300 + b) 6 0x0A01) ∧
      ((s.slot b k).draining = false →
        (∃ u, exec (.drainAbort b) s = .next u ∧ u.snaps = s.snaps ∧ Answers u (0x4300 + b) 6 0x0A01) ∧
        ((s.snap b).phase = 0 ∨ (s.snap b).phase = 3 →
          (∃ u, exec (.slotEmpty b) s = .next u ∧ tfind (u.snap b).slots k = none ∧ Answers u (0x4300 + b) 6 0 ∧
            u.mem = s.mem) ∧
          ((s.berth b).life = .active → (s.slot b k).st ≠ 6 → ∃ u, exec (.snapshotFill b) s = .next u ∧
            u.slot b k = { st := 6 } ∧ Answers u (0x4300 + b) 6 0 ∧ u.mem = s.mem)))) ∧
    ((s.slot b k).draining = true →
      (∃ u, exec (.drainStalled b k) s = .next u ∧ Raises s u 0x0A46 [b, k, 0] ∧ u.snaps = s.snaps) ∧
      (pos < (s.berth b).dies.length → s.drainPorts ≠ [] → ∃ u l, exec (.drainResendTimer b k pos) s = .next u ∧
        u.out = s.out ++ l ∧ l.length = (s.runReach b k pos - tget (s.slot b k).acked 0 pos + 8191) / 8192 ∧
        (∀ o ∈ l, o.kind = .stream) ∧ u.snaps = s.snaps)) ∧
    ((s.slot b k).draining = false → exec (.drainStalled b k) s = .next s ∧ exec (.drainResendTimer b k pos) s = .next s) ∧
    (∀ off done, s.drainOk port 2 frame = true → frame.length = 48 → beAt frame 12 1 = b → beAt frame 13 1 = k →
      beAt frame 14 1 = pos → beAt frame 24 8 = off → beAt frame 16 8 = (s.slot b k).stepSeq → (s.slot b k).draining = true →
      tget (s.slot b k).acked 0 pos < off → off ≤ s.runReach b k pos →
      done = (∀ i, i < (s.berth b).dies.length →
        (if i = pos then off else tget (s.slot b k).acked 0 i) = s.runTotal b k ((s.berth b).dies.getD i 0)) →
      (done → ∃ u, exec (.drainAcknowledge port frame) s = .next u ∧ (u.slot b k).drained = true ∧
        (u.slot b k).draining = false ∧ Raises s u 0x0A45 [b, k, 0]) ∧
      (¬ done → ∃ u, exec (.drainAcknowledge port frame) s = .next u ∧ tget (u.slot b k).acked 0 pos = off ∧
        (u.slot b k).draining = true ∧ u.mem = s.mem)) ∧
    (∀ off total n, s.drainOk port 1 frame = true → frame.length = 48 + n → 0 < n → n ≤ 8192 → beAt frame 12 1 = b →
      beAt frame 13 1 = k → beAt frame 14 1 = pos → beAt frame 24 8 = off → beAt frame 32 8 = total → (s.slot b k).st = 6 →
      beAt frame 16 8 = (s.slot b k).stepSeq → tget (s.slot b k).total total pos = total → slotHeader ≤ total →
      total ≤ s.snapSet b 4 → off = tget (s.slot b k).filled 0 pos → 0 < off → off + n < total →
      ∃ u, exec (.fillDataFrame port frame) s = .next u ∧ tget (u.slot b k).filled 0 pos = off + n ∧ (u.slot b k).st = 6 ∧
        u.mem = s.mem.put (s.slotBase b k ((s.berth b).dies.getD pos 0) + off) (frame.drop 48)) ∧
    ((s.slot b k).st = 6 → pos < (s.berth b).dies.length → tget (s.slot b k).filled 0 pos = 0 → s.drainPorts ≠ [] →
      ∃ u o, exec (.fillAckTimer b k pos) s = .next u ∧ u.out = s.out ++ [o] ∧ o.kind = .stream ∧ o.args = [0x102, b, k, pos] ∧
        u.snaps = s.snaps) ∧
    ((s.slot b k).st ≠ 6 → exec (.fillAckTimer b k pos) s = .next s)

/-- R554-R557, R560: a restore that breaks a check is refused with its code; else it starts, releases the hold and takes the
saved step sequence number; at its end the tally is the saved one, and the berth goes on when it is told to resume. -/
def Obligations.RestoresBringStateBack : Prop :=
  ∀ (s : State) (b k : Nat),
    (DictUp s → k = s.named b →
      (s.restoreCode b k ≠ 0 → ∃ u, exec (.snapshotRestore b) s = .next u ∧ u.berths = s.berths ∧ u.snaps = s.snaps ∧
        u.mem = s.mem ∧ Answers u (0x4300 + b) 6 (s.restoreCode b k)) ∧
      (s.restoreCode b k = 0 → ∃ u, exec (.snapshotRestore b) s = .next u ∧ (u.snap b).phase = 2 ∧
        (u.snap b).restoring = some k ∧ (u.berth b).held = false ∧ (u.berth b).boundary = false ∧
        (u.berth b).stepSeq = BitVec.ofNat 64 (leAt (s.slotValues b k) 8 8) ∧
        (u.berth b).ingest = leAt (s.slotValues b k) 16 16 ∧ Answers u (0x4300 + b) 6 0) ∧
      ((s.berth b).life ≠ .active ∨ s.cmdRuns b = true ∨ (s.snap b).phase ≠ 0 → s.restoreCode b k = 0x0A01) ∧
      ((s.snap b).phase = 3 → ∃ u, exec (.snapshotResume b) s = .next u ∧ (u.snap b).phase = 0 ∧
        Answers u (0x4300 + b) 6 0) ∧
      ((s.snap b).phase ≠ 3 → ∃ u, exec (.snapshotResume b) s = .next u ∧ u.snaps = s.snaps ∧ u.berths = s.berths ∧
        Answers u (0x4300 + b) 6 0x0A01)) ∧
    ((s.snap b).phase = 2 → (s.snap b).restoring = some k →
      ∃ u, exec (.restoreEnd b) s = .next u ∧ Raises s u 0x0A48 [b, k, 0] ∧
        (Unasked s b → (u.snap b).phase = 3 ∧ (u.snap b).restoring = none ∧
          (u.berth b).tally = BitVec.ofNat 64 (leAt (s.slotValues b k) 0 8))) ∧
    ((s.snap b).restoring = none → exec (.restoreEnd b) s = .next s)

/-- R556: which skip windows a restore writes back. -/
def Obligations.RestoresWriteSkipWindows : Prop :=
  ∀ (s : State) (b k w : Nat), DictUp s → k = s.named b → s.restoreCode b k = 0 → 1 ≤ w → w ≤ 16 →
    ∃ u, exec (.snapshotRestore b) s = .next u ∧
      (leAt (s.slotValues b k) (80 + 16 * w) 8 ≤ leAt (s.slotValues b k) (88 + 16 * w) 8 →
        u.skipWin b w = (leAt (s.slotValues b k) (80 + 16 * w) 8, leAt (s.slotValues b k) (88 + 16 * w) 8)) ∧
      (leAt (s.slotValues b k) (88 + 16 * w) 8 < leAt (s.slotValues b k) (80 + 16 * w) 8 → u.skipWin b w = s.skipWin b w) ∧
      ∀ t, (u.skipWin b w).1 ≤ t → t ≤ (u.skipWin b w).2 → ∃ n, u.skipPast b t = some n ∧ t < n

namespace Sys2Proof.Machine

/-- A lane count ends with what was compared: the bits of a run that reached its target. -/
def Counted (u : State) (p lane n : Nat) : Prop := (tget (u.instOf p).cnt {} lane).bits = n

end Sys2Proof.Machine

/-- R561-R567: a port enters instrument use when it may, and trains anew when it leaves it; a run clears and fills the counters
of its lanes, a scan their margins; lost locks are counted and reported once a run. -/
def Obligations.InstrumentTestsLanes : Prop :=
  ∀ (s : State) (p v lane n : Nat), p < 24 →
    (DictUp s →
      (4 < v ∨ (1 < v ∧ s.instPattern p = 5) → ∃ u, exec (.instrModeWrite p v) s = .next u ∧ u.inst = s.inst ∧
        u.fabric = s.fabric ∧ Answers u (0x5800 + p) 1 0x0C00) ∧
      (1 ≤ v → v ≤ 4 → (1 < v → s.instPattern p ≠ 5) → (s.instOf p).st = 0 →
        (s.lastPort p = true → ∃ u, exec (.instrModeWrite p v) s = .next u ∧ u.inst = s.inst ∧ u.fabric = s.fabric ∧
          Answers u (0x5800 + p) 1 0x0C01) ∧
        (s.lastPort p = false → s.portFree p = true → ∃ u, exec (.instrModeWrite p v) s = .next u ∧ (u.instOf p).st = 2 ∧
          u.instMode p = v ∧ Answers u (0x5800 + p) 1 0 ∧
          ((s.link p).life ≠ .active → (u.link p).life = .instrument ∧ (u.link p).lanes = (s.link p).lanes))) ∧
      ((s.instOf p).st ≠ 0 → ∃ u, exec (.instrModeWrite p 0) s = .next u ∧ (u.instOf p).st = 0 ∧ u.instMode p = 0 ∧
        (u.link p).life = .training ∧ (u.link p).unacked = [] ∧ Answers u (0x5800 + p) 1 0) ∧
      (s.instMode p = 2 ∨ s.instMode p = 3 → (s.instOf p).st ≠ 4 →
        (∃ u, exec (.instrRunStart p) s = .next u ∧ (u.instOf p).st = 3 ∧ (u.instOf p).cnt = [] ∧
          Answers u (0x5800 + p) 5 0) ∧
        ((s.instOf p).st = 3 → ∃ u, exec (.instrRunStop p) s = .next u ∧ (u.instOf p).st = 5 ∧ Answers u (0x5800 + p) 5 0 ∧
          (∀ l, (tget (u.instOf p).cnt {} l).lockLoss = (tget (s.instOf p).cnt {} l).lockLoss) ∧ u.dict = s.dict) ∧
        ((s.instOf p).st ≠ 3 → ∃ u, exec (.instrScan p) s = .next u ∧ (u.instOf p).st = 4 ∧ Answers u (0x5800 + p) 6 0)) ∧
      (s.instMode p ≠ 2 → s.instMode p ≠ 3 →
        (∃ u, exec (.instrRunStart p) s = .next u ∧ u.inst = s.inst ∧ Answers u (0x5800 + p) 5 0x0C02) ∧
        (∃ u, exec (.instrRunStop p) s = .next u ∧ u.inst = s.inst ∧ Answers u (0x5800 + p) 5 0x0C02) ∧
        ∃ u, exec (.instrScan p) s = .next u ∧ u.inst = s.inst ∧
          Answers u (0x5800 + p) 6 (if s.instMode p = 0 then 0x0C02 else 0x0C00))) ∧
    ((s.instOf p).st = 4 → ∃ u, exec (.instrScanDone p) s = .next u ∧ (u.instOf p).st = 5 ∧ (u.instOf p).cnt = [] ∧
      Raises s u 0x0C40 [0xFF, p, 0] ∧ ∀ l ∈ s.instLanes p, (tget (u.instOf p).margins [] l).length = 8 ∧
        (leAt (tget (u.instOf p).margins [] l) 0 1 < 32 ∨ 224 ≤ leAt (tget (u.instOf p).margins [] l) 0 1)) ∧
    ((s.instOf p).st ≠ 4 → exec (.instrScanDone p) s = .next s) ∧
    ((s.instOf p).st = 3 → s.setting (0x5800 + p) 4 0 = n → n ≠ 0 → ∃ u, exec (.instrTargetReached p) s = .next u ∧
      (u.instOf p).st = 5 ∧ Raises s u 0x0C40 [0xFF, p, 0] ∧ ∀ l ∈ s.instLanes p, Counted u p l n) ∧
    ((s.instOf p).st = 3 → lane ∈ s.instLanes p → ∃ u, exec (.instrLockLost p lane) s = .next u ∧
      (tget (u.instOf p).cnt {} lane).lockLoss = min 65535 ((tget (s.instOf p).cnt {} lane).lockLoss + 1) ∧
      (tget (u.instOf p).cnt {} lane).errors = (tget (s.instOf p).cnt {} lane).errors ∧
      ((s.instOf p).lostSaid = true → u.out = s.out) ∧
      ((s.instOf p).lostSaid = false → Raises s u 0x0C41 [0xFF, p, lane]))

/-- R570-R574, R579: the voltage bands are reported as the input enters them; beyond its limits the module powers off, and
beyond the ratings nothing is claimed; a protective power-off loses what the memories held and stays latched. -/
def Sys2Proof.Machine.PowerIsProtected : Prop :=
  ∀ (s : State) (mv : Int) (us cause rail phase : Nat),
    (mv < -60000 ∨ 64000 < mv ∨ (60000 < mv ∧ 10000 < us) → exec (.inputVoltageChange mv us) s = .fault .beyondAbsoluteMaximum) ∧
    (s.power.on = true →
      (48000 ≤ mv → mv ≤ 58000 → ∃ u, exec (.inputVoltageChange mv us) s = .next u ∧ u.power.band = 0 ∧ u.power.on = true ∧
        u.out = s.out ∧ tget u.power.sensors 0 (entryKey 0x3000 1) = mv) ∧
      (44000 ≤ mv → mv < 48000 → ∃ u, exec (.inputVoltageChange mv us) s = .next u ∧ u.power.band = 1 ∧ u.power.on = true ∧
        (s.power.band ≠ 1 → Raises s u 0x0B82 [0xFF, mv.toNat, 0]) ∧ (s.power.band = 1 → u.out = s.out)) ∧
      (58000 < mv → mv ≤ 60000 → ∃ u, exec (.inputVoltageChange mv us) s = .next u ∧ u.power.band = 2 ∧
        (s.power.band ≠ 2 → Raises s u 0x0B83 [0xFF, mv.toNat, 0])) ∧
      (-60000 ≤ mv → mv < 44000 → 2000 < us → ∃ u, exec (.inputVoltageChange mv us) s = .next u ∧ u.power.on = false ∧
        u.power.latched = true ∧ u.power.offCause = some 0 ∧ u.mem = {} ∧ u.berths = []) ∧
      (cause ≤ 3 → (cause = 3 → s.power.level = 48) → ∃ u, exec (.protectiveOff cause) s = .next u ∧ u.power.on = false ∧
        u.power.latched = true ∧ u.power.offCause = some cause ∧ u.mem = {} ∧ u.cores = [] ∧ u.berths = [] ∧
        u.defects.list = s.defects.list ∧ u.hostUp = false) ∧
      (railOk rail = true → phase < (railSpec rail).1 → phase ∉ s.phasesOutOf rail →
        ∃ u, exec (.phaseLost rail phase) s = .next u ∧ u.phasesOutOf rail = phase :: s.phasesOutOf rail ∧
          Raises s u 0x0B88 [0xFF, rail, phase] ∧
          ((railSpec rail).1 < (railSpec rail).2 + (s.phasesOutOf rail).length + 1 → u.power.limited = true ∧
            Raises s u 0x0B89 [0xFF, rail, (railSpec rail).1 - ((s.phasesOutOf rail).length + 1)]))) ∧
    (s.power.on = false → exec (.protectiveOff cause) s = .next s ∧ exec (.phaseLost rail phase) s = .next s)

/-- R575-R577, R580, R585: the reduction level rises by at most 4 in a tick and falls by 1 in ten; the fast limit takes it to
48 at once; a sensor that fails is reported, and an alarm is raised once while its condition holds. -/
def Sys2Proof.Machine.ReductionFollowsTheMeasures : Prop :=
  ∀ (s : State) (power current key d : Nat) (v : Int),
    (s.up = true → s.lk.active ≠ none →
      (s.power.level < 48 → s.powerStart.1 < power * s.powerStart.2 →
        ∃ u, exec (.powerControllerTick power current) s = .next u ∧ u.power.level = min 48 (s.power.level + 4) ∧
          u.power.causes.testBit 0 = true ∧ u.power.sinceDown = min 9 (s.power.sinceDown + 1) ∧
          (s.power.level = 0 → Raises s u 0x0B80 [0xFF, 4, 0]) ∧
          tget u.power.sensors 0 (entryKey 0x3000 3) = (power : Int)) ∧
      (1 ≤ s.power.level → s.power.level ≤ 48 → power * s.powerStart.2 * 100 < s.powerStart.1 * 97 → current < 272000 →
        s.hottest 0x3001 32 < (s.setting 0x3013 0 10000 : Int) - 300 → s.hottest 0x3002 24 < 8900 →
        (s.power.sinceDown < 9 → ∃ u, exec (.powerControllerTick power current) s = .next u ∧
          u.power.level = s.power.level ∧ u.power.sinceDown = s.power.sinceDown + 1) ∧
        (9 ≤ s.power.sinceDown → ∃ u, exec (.powerControllerTick power current) s = .next u ∧
          u.power.level = s.power.level - 1 ∧ u.power.sinceDown = 0 ∧
          (s.power.level = 1 → Raises s u 0x0B81 [0xFF, 0, 0]))) ∧
      (∃ u, exec (.powerControllerTick power current) s = .next u ∧ u.power.level ≤ max s.power.level (min 48 (s.power.level + 4)) ∧
        s.power.level ≤ u.power.level + 1)) ∧
    (s.lk.active = none → exec (.powerControllerTick power current) s = .next s) ∧
    (s.power.on = true →
      (∃ u, exec .fastCurrentLimit s = .next u ∧ u.power.level = 48 ∧ u.power.causes.testBit 5 = true ∧
        (s.power.level = 0 → Raises s u 0x0B80 [0xFF, 48, 0]) ∧ u.berths = s.berths) ∧
      ((∀ x ∈ s.power.failed, x.1 ≠ key) → ∃ u, exec (.sensorRefresh [(key, v)] []) s = .next u ∧
        tget u.power.sensors 0 key = v ∧ u.power.failed = s.power.failed) ∧
      ((key, d) ∉ s.power.failed → ∃ u, exec (.sensorRefresh [] [(key, d)]) s = .next u ∧ (key, d) ∈ u.power.failed ∧
        Raises s u 0x0B8B [0xFF, key, 0]) ∧
      (d < 32 → s.power.failed = [] → (0x0B86, d) ∉ s.power.alarms →
        (s.setting 0x3013 0 10000 : Int) ≤ s.sensor 0x3001 (d + 1) 0 → ∃ u, exec (.sensorRefresh [] []) s = .next u ∧
          (0x0B86, d) ∈ u.power.alarms ∧ Raises s u 0x0B86 [0xFF, d, 0]) ∧
      (s.sensor 0x3004 3 20000 < (s.setting 0x3014 0 20000 : Int) → (0x0B84, 0) ∉ s.power.alarms →
        ∃ u, exec (.coolantAlarmTimer false) s = .next u ∧ (0x0B84, 0) ∈ u.power.alarms ∧ Raises s u 0x0B84 [0xFF, 0, 0]) ∧
      (4000 < s.sensor 0x3004 1 0 → (0x0B85, 0) ∉ s.power.alarms →
        ∃ u, exec (.coolantAlarmTimer true) s = .next u ∧ (0x0B85, 0) ∈ u.power.alarms ∧ Raises s u 0x0B85 [0xFF, 0, 0]) ∧
      ((0x0B84, 0) ∈ s.power.alarms → exec (.coolantAlarmTimer false) s = .next s))

/-- Power is protected and reduced: the parts together. -/
def Obligations.PowerIsProtectedAndReduced : Prop := PowerIsProtected ∧ ReductionFollowsTheMeasures

/-- The front command of the queue runs on the state with the rest of the queue; an empty queue leaves the module idle (the
model's choice, log entry 2). -/
def Obligations.StepRunsTheFrontCommand : Prop :=
  ∀ (c : Instr) (rest : List Instr) (s : State),
    step { s with pending := c :: rest } = exec c { s with pending := rest } ∧ step { s with pending := [] } = .next { s with pending := [] }

/-- The state after reset meets the invariants that every step keeps, and its banks come in the order of R82. -/
def Obligations.ResetMeetsTheInvariants : Prop :=
  State.reset.canonical ∧ State.reset.gensOk ∧ State.reset.dict.sessionsOk ∧ State.reset.pending = [] ∧
    State.reset.lk.active = some 27 ∧ State.reset.lk.standby = 1 ∧ State.reset.dict.sessNext = 1 ∧ State.reset.berths = []

/-- R207-R216: words of kernel instructions read as the manual's examples say. -/
def Obligations.ExampleWordsRead : Prop :=
  ∀ t : At,
    decodePvk t 0 0x000A0006000500A2 = some (.brc t 5 false 6 10) ∧
    decodePvk t 0 0x00000001008A0040 = some (.miss t 0x8A 1) ∧
    decodePvk t 0x70 0x0000000295940050 = some (.vldr t 0x94 0x95 2) ∧
    decodePvk t 0 0x0040000903840860 = some (.ld t
      { dst := 8, a := 0x84, b := 3, space := 1, size := 2, vol := false, sext := false, off := 0x40 } []) ∧
    decodePvk t 0 0x0000000200000080 = some (.fence t 2) ∧
    decodePvk t 0 0x0080002000000090 = some (.bar t 0 0 false true 128) ∧
    decodePvk t 0 0x00000001000000A4 = some (.waitc t 1 0) ∧
    decodePvk t 0 0x00000000000000FF = none ∧ decodePvk t 0 0x00000001000000A5 = none

/-- R207-R218: no bit of a kernel instruction's word is dropped: a word that passes the checks reads as an instruction whose
word it is, and the word of an instruction that passes them reads as that instruction. -/
def Obligations.InstructionWordsRoundTrip : Prop :=
  (∀ (t : At) (opc w : Nat) (i : Instr), w < 2 ^ 64 → decodePvk t opc w = some i → ∃ n, encodePvk i = some (n, w)) ∧
  ∀ (i : Instr) (opc w : Nat), encodePvk i = some (opc, w) → wordFieldOk w = true → wordRegOk w = true →
    (∀ t o l, i = .ld t o l ∨ i = .lds t o l → l = []) → ∃ t, decodePvk t opc w = some i

/-- Every command answers a next state, whatever the state and the operands, but one: an input voltage beyond the absolute
maximum ratings, of which the manual says nothing (R570). -/
def Obligations.EveryCommandCompletes : Prop :=
  ∀ (c : Instr) (s : State), (∃ t, exec c s = .next t) ∨
    ∃ mv us, c = .inputVoltageChange mv us ∧ (mv < -60000 ∨ 64000 < mv ∨ (60000 < mv ∧ 10000 < us)) ∧
      exec c s = .fault .beyondAbsoluteMaximum

/-- What a command leaves alone: every part of the state that the table does not name for it, and the queue always. -/
def Obligations.CommandsKeepTheirFrames : Prop :=
  ∀ (c : Instr) (s t : State), exec c s = .next t → Frame (touches c) s t ∧ t.pending = s.pending

/-- Memory keeps its canonical form: the module's, the host's as the module sees it, and every core's local memory. -/
def Obligations.MemoriesStayCanonical : Prop := ∀ (s t : State), s.canonical → step s = .next t → t.canonical

/-- R450, R494, R522: generations stay other than 0, at most 32 sessions are open, entries of the defect list stay at their
places and change in `STATE` alone, to readmitted, and what has left the module stays sent. -/
def Obligations.RecordsAreKept : Prop :=
  ∀ (s t : State), step s = .next t →
    (s.gensOk → t.gensOk) ∧ (s.dict.sessionsOk → t.dict.sessionsOk) ∧ listGrows s.defects.list t.defects.list ∧
      ∃ l, t.out = s.out ++ l

/-- R82, R86: the bank that a matrix instruction takes. -/
def Obligations.InstructionsTakeBanks : Prop :=
  ∀ (s : State) (core id : Nat) (e : AqEnt) (k : CoreSt), k = s.core core → k.aqEnt id = some e → e.bank = none →
    heldByFill k e = false → (aqBefore k e).any (fun x => ringsMeet x e) = false →
    ((descOf e.words).accInit = 0 ∨ (descOf e.words).accInit = 1 → (aqBefore k e).any (blocksHead k) = false →
      (∀ b, (tget k.banks {} 0).owner = none → (tget k.banks {} 1).owner = none → b = (k.lastBank + 1) % 2 →
        ∃ u f, exec (.matrixStart core id) s = .next u ∧ (u.core core).aqEnt id = some f ∧ f.bank = some b ∧
          (tget (u.core core).banks {} b).owner = some e.chain ∧ (u.core core).lastBank = b) ∧
      (∀ b, b < 2 → (tget k.banks {} b).owner = none → (tget k.banks {} (1 - b)).owner ≠ none →
        ∃ u f, exec (.matrixStart core id) s = .next u ∧ (u.core core).aqEnt id = some f ∧ f.bank = some b ∧
          (tget (u.core core).banks {} b).owner = some e.chain ∧ (u.core core).lastBank = b) ∧
      ((tget k.banks {} 0).owner ≠ none → (tget k.banks {} 1).owner ≠ none → exec (.matrixStart core id) s = .next s)) ∧
    ((State.reset.core core).lastBank + 1) % 2 = 0 ∧
    (∀ b, (descOf e.words).accInit = 2 → (∀ x ∈ aqBefore k e, x.chain ≠ e.chain) → b < 2 →
      (tget k.banks {} b).owner = some e.chain → (tget k.banks {} (1 - b)).owner ≠ some e.chain →
      ∃ u f, exec (.matrixStart core id) s = .next u ∧ (u.core core).aqEnt id = some f ∧ f.bank = some b ∧
        (u.core core).lastBank = k.lastBank)

namespace Sys2Proof.Machine

/-- What a product adds to a cell, in units of its lowest bit: nothing where it is beyond the cell (02 R58). -/
def cellUnits (w : Int) (p : Val) : Int :=
  match p with
  | .fin m e => if 2 ^ 127 ≤ (truncAt m e w).natAbs then 0 else truncAt m e w
  | _ => 0

/-- The cell that products are added to, one after the other. -/
def cellSum (c : AccCell) (w : Int) (ps : List Val) : AccCell := ps.foldl (fun a p => cellAddVal a w p) c

/-- Addend formats of exact-float adds with the lowest and the highest scale that always convert exactly (09 R268). -/
def exactScales : List (Fmt × Int × Int) :=
  [(.e4m3, -55, 54), (.e5m2, -48, 47), (.int8, -64, 55), (.fp16, -40, 47), (.g16, -25, 30)]

/-- Whether an add of an element alone to a cell at 0 ends in the marker. -/
def Unconverted (f : Fmt) (b : Nat) (k : Int) : Prop := laAdd 0 (decodeElem f b) k = laMarker

end Sys2Proof.Machine

/-- R51, R52, R58, R60: a cell's sum does not depend on the order of its products; as many products as a chain may have add up
exactly, and whether the cell overflows is judged on that sum and on products beyond the cell, never on a partial sum. -/
def Obligations.CellSumsNeedNoOrder : Prop :=
  ∀ (w : Int) (c : AccCell) (ps qs : List Val), ps.Perm qs →
    cellSum c w ps = cellSum c w qs ∧
    (ps.length ≤ 16777215 → (cellInt c).natAbs < 2 ^ 127 →
      cellInt (cellSum c w ps) = cellInt c + (ps.map (cellUnits w)).sum ∧
      (cellOut (cellSum c w ps) = true ↔ c.ovf = true ∨ (∃ m e, Val.fin m e ∈ ps ∧ 2 ^ 127 ≤ (truncAt m e w).natAbs) ∨
        2 ^ 127 ≤ (cellInt c + (ps.map (cellUnits w)).sum).natAbs))

/-- R54, R268, R472: an exact-float add adds what its addend converts to, and stores the marker where the addend is not finite
or does not convert exactly, or the sum leaves the range; the marker stays; the scales of the table convert every element of
their format, and those beyond them do not; adds that leave no marker give the same cell in any order. -/
def Obligations.ExactAddsConvert : Prop :=
  (∀ (x : Nat) (k : Int), laAdd x .nan k = laMarker ∧ laAdd x (.inf false) k = laMarker ∧ laAdd x (.inf true) k = laMarker ∧
    ∀ v, laAdd laMarker v k = laMarker) ∧
  (∀ (x : Nat) (m e k : Int) (d : Nat), x < 2 ^ 128 → x ≠ laMarker →
    (e + k + (d : Int) = -64 → ¬ ((2 ^ d : Nat) : Int) ∣ m → laAdd x (.fin m e) k = laMarker) ∧
    (e + k = (d : Int) - 64 →
      (2 ^ 127 ≤ (m * (2 ^ d : Nat)).natAbs ∨ 2 ^ 127 ≤ (signedOf 128 x + m * (2 ^ d : Nat)).natAbs →
        laAdd x (.fin m e) k = laMarker) ∧
      ((m * (2 ^ d : Nat)).natAbs < 2 ^ 127 → (signedOf 128 x + m * (2 ^ d : Nat)).natAbs < 2 ^ 127 →
        signedOf 128 (laAdd x (.fin m e) k) = signedOf 128 x + m * (2 ^ d : Nat)))) ∧
  (∀ f lo hi, (f, lo, hi) ∈ exactScales →
    (∀ b k, b < 2 ^ fmtBits f → valNonFinite (decodeElem f b) = false → lo ≤ k → k ≤ hi → ¬ Unconverted f b k) ∧
    (∃ b, b < 2 ^ fmtBits f ∧ valNonFinite (decodeElem f b) = false ∧ Unconverted f b (lo - 1)) ∧
    ∃ b, b < 2 ^ fmtBits f ∧ valNonFinite (decodeElem f b) = false ∧ Unconverted f b (hi + 1)) ∧
  laAdd 0 (decodeElem .e5m2 0x3D) (-20) = 5 * 2 ^ 42 ∧ laAdd (5 * 2 ^ 42) (decodeElem .e5m2 0xBD) (-20) = 0 ∧
  laAdd 0 (decodeElem .g16 0x3E00) (-70) = laMarker ∧
  ∀ (x : Nat) (v v' : Val) (k k' : Int), x < 2 ^ 128 → laAdd (laAdd x v k) v' k' ≠ laMarker →
    laAdd (laAdd x v' k') v k ≠ laMarker → laAdd (laAdd x v k) v' k' = laAdd (laAdd x v' k') v k

/-- R212, R376, R377, R379: what an engine stores to another module's memory leaves as aligned requests of 1 to 64 bytes that
cover it, each byte once and in order, numbered for the engine's unit; one that fails aborts the kernel of the store. That
engines' stores are requests of their core or command engine is the model's reading (log entry 11). -/
def Obligations.EngineStoresLeaveAsRequests : Prop :=
  (∀ a n : Nat, ((requestCuts n a 0 n).flatMap fun p => (List.range p.2).map (p.1 + ·)) = List.range n ∧
    ∀ p ∈ requestCuts n a 0 n, p.2 ∈ [1, 2, 4, 8, 16, 32, 64] ∧ (a + p.1) % p.2 = 0) ∧
  (∀ (s : State) (r : ReqSt) (pa : Nat) (bs : Bytes), ∃ l, (s.remoteStore r pa bs).fabric.reqs = s.fabric.reqs ++ l ∧
    l.length = (requestCuts bs.length pa 0 bs.length).length ∧ (s.remoteStore r pa bs).mem = s.mem ∧
    ∀ q ∈ l, q.unit = r.unit ∧ q.node = r.node ∧ q.access = r.access ∧ q.launch = r.launch) ∧
  ∀ (s : State) (r : ReqSt) (l : LaunchSt),
    s.fabric.reqs.find? (fun x => x.unit == r.unit && x.node == r.node && x.seq == r.seq) = some r → r.unit < 0x200 →
    r.access = 0 → tfind s.launches r.launch = some l → l.stopped = false →
    ∃ u l', exec (.remoteTimeout r.unit r.node r.seq) s = .next u ∧
      tfind u.launches r.launch = some l' ∧ l'.stopped = true ∧ l'.status = 0x0503
end

