-- ==== Sys2Proof/Laws/Mem.lean ====
section
/-!
SUPPORT. The laws of memory: every operation keeps the canonical form, and what a byte reads as after one.
-/

namespace Sys2Proof.Machine

/-! The canonical form. -/

theorem cellsWfFrom_mono {a b : Nat} (h : a ≤ b) : ∀ {c : List Host.Cell}, cellsWfFrom b c = true → cellsWfFrom a c = true
  | [], _ => rfl
  | (k, v) :: r, w => by
    simp only [cellsWfFrom, Bool.and_eq_true, decide_eq_true_eq] at w ⊢
    exact ⟨⟨by omega, w.1.2⟩, w.2⟩

theorem cellDel_wf {lo : Nat} (a : Nat) : ∀ {c : List Host.Cell}, cellsWfFrom lo c = true → cellsWfFrom lo (cellDel c a) = true
  | [], _ => rfl
  | (k, v) :: r, w => by
    simp only [cellsWfFrom, Bool.and_eq_true, decide_eq_true_eq] at w
    simp only [cellDel]
    split
    · exact cellsWfFrom_mono (by omega) w.2
    · simp only [cellsWfFrom, Bool.and_eq_true, decide_eq_true_eq]
      exact ⟨w.1, cellDel_wf a w.2⟩

theorem cellIns_wf {lo a : Nat} {b : Byte} (n : b ≠ 0) (l : lo ≤ a) :
    ∀ {c : List Host.Cell}, cellsWfFrom lo c = true → cellsWfFrom lo (cellIns c a b) = true
  | [], _ => by
    simp only [cellIns, cellsWfFrom, Bool.and_eq_true, decide_eq_true_eq]
    exact ⟨⟨l, n⟩, trivial⟩
  | (k, v) :: r, w => by
    simp only [cellsWfFrom, Bool.and_eq_true, decide_eq_true_eq] at w
    simp only [cellIns]
    split
    · subst k
      simp only [cellsWfFrom, Bool.and_eq_true, decide_eq_true_eq]
      exact ⟨⟨l, n⟩, w.2⟩
    · split
      · simp only [cellsWfFrom, Bool.and_eq_true, decide_eq_true_eq]
        exact ⟨⟨l, n⟩, ⟨by omega, w.1.2⟩, w.2⟩
      · simp only [cellsWfFrom, Bool.and_eq_true, decide_eq_true_eq]
        exact ⟨w.1, cellIns_wf n (by omega) w.2⟩

theorem cellPut_wf {c : List Host.Cell} (a : Nat) (b : Byte) (h : Memory.wf c = true) : Memory.wf (cellPut c a b) = true := by
  unfold cellPut
  split
  · exact cellDel_wf a h
  · exact cellIns_wf ‹_› (Nat.zero_le _) h

theorem cellsPut_wf {c : List Host.Cell} (a : Nat) (bs : Bytes) (h : Memory.wf c = true) : Memory.wf (cellsPut c a bs) = true := by
  induction bs generalizing c a with
  | nil => exact h
  | cons b r ih => exact ih _ (cellPut_wf a b h)

theorem cellsFilter_wf {lo : Nat} (f : Host.Cell → Bool) :
    ∀ {c : List Host.Cell}, cellsWfFrom lo c = true → cellsWfFrom lo (c.filter f) = true
  | [], _ => rfl
  | (k, v) :: r, w => by
    simp only [cellsWfFrom, Bool.and_eq_true, decide_eq_true_eq] at w
    rw [List.filter_cons]
    split
    · simp only [cellsWfFrom, Bool.and_eq_true, decide_eq_true_eq]
      exact ⟨w.1, cellsFilter_wf f w.2⟩
    · exact cellsFilter_wf f (cellsWfFrom_mono (by omega) w.2)

theorem cellsClear_wf {c : List Host.Cell} (lo hi : Nat) (h : Memory.wf c = true) : Memory.wf (cellsClear c lo hi) = true :=
  cellsFilter_wf _ h

/-! What a byte reads as. -/

theorem cellGet_below {lo x : Nat} (h : x < lo) : ∀ {c : List Host.Cell}, cellsWfFrom lo c = true → cellGet c x = 0
  | [], _ => rfl
  | (k, v) :: r, w => by
    simp only [cellsWfFrom, Bool.and_eq_true, decide_eq_true_eq] at w
    simp only [cellGet]
    rw [if_neg (by omega)]
    exact cellGet_below (by omega) w.2

theorem cellGet_cellDel {lo : Nat} (a x : Nat) :
    ∀ {c : List Host.Cell}, cellsWfFrom lo c = true → cellGet (cellDel c a) x = if x = a then 0 else cellGet c x
  | [], _ => by simp [cellDel, cellGet]
  | (k, v) :: r, w => by
    simp only [cellsWfFrom, Bool.and_eq_true, decide_eq_true_eq] at w
    simp only [cellDel]
    split
    · subst k
      split
      · subst x; exact cellGet_below (Nat.lt_succ_self _) w.2
      · simp only [cellGet]; rw [if_neg (Ne.symm ‹_›)]
    · simp only [cellGet]
      rw [cellGet_cellDel a x w.2]
      split
      · subst k; rw [if_neg ‹_›]
      · rfl

theorem cellGet_cellIns (a x : Nat) (b : Byte) :
    ∀ c : List Host.Cell, cellGet (cellIns c a b) x = if x = a then b else cellGet c x
  | [] => by simp only [cellIns, cellGet, eq_comm]
  | (k, v) :: r => by
    simp only [cellIns]
    split
    · subst k
      simp only [cellGet, eq_comm (a := a)]
      split <;> rfl
    · split
      · simp only [cellGet, eq_comm (a := a)]
      · simp only [cellGet]
        rw [cellGet_cellIns a x b r]
        split
        · subst k; rw [if_neg ‹_›]
        · rfl

/-- A read after a write of one byte: the byte at its address, and elsewhere what was there. -/
theorem cellGet_cellPut {c : List Host.Cell} (a x : Nat) (b : Byte) (h : Memory.wf c = true) :
    cellGet (cellPut c a b) x = if x = a then b else cellGet c x := by
  unfold cellPut
  split
  · subst b; exact cellGet_cellDel a x h
  · exact cellGet_cellIns a x b c

/-- A read after a write of bytes: the byte written where the write covers the address, and elsewhere what was there. -/
theorem cellGet_cellsPut {c : List Host.Cell} (a x : Nat) (bs : Bytes) (h : Memory.wf c = true) :
    cellGet (cellsPut c a bs) x = if a ≤ x ∧ x < a + bs.length then bs.getD (x - a) 0 else cellGet c x := by
  induction bs generalizing c a with
  | nil => rw [if_neg (by simp)]; rfl
  | cons b r ih =>
    rw [cellsPut, ih _ (cellPut_wf a b h), cellGet_cellPut a x b h]
    by_cases e : x = a
    · subst e
      rw [if_neg (by omega), if_pos rfl, if_pos (by simp), Nat.sub_self]; rfl
    · by_cases l : a + 1 ≤ x ∧ x < a + 1 + r.length
      · have : x - a = (x - (a + 1)) + 1 := by omega
        rw [if_pos l, if_pos (by simp; omega), this]; simp
      · rw [if_neg l, if_neg e, if_neg (by simp; omega)]

/-- A store whose bytes are in canonical form. -/
def Store.ok (st : Store) : Prop := Memory.wf st.cells = true

theorem Store.ok_empty : Store.ok {} := rfl

theorem Store.ok_mark {st : Store} (p : Nat) (h : st.ok) : (st.mark p).ok := cellsClear_wf _ _ h

theorem Store.ok_writePiece {st : Store} (a : Nat) (bs : Bytes) (m : Bool) (h : st.ok) : (st.writePiece a bs m).ok := by
  unfold Store.writePiece
  split
  · exact h
  · split
    · exact Store.ok_mark _ h
    · split
      · split
        · exact cellsPut_wf a bs h
        · exact h
      · exact cellsPut_wf a bs h

theorem Store.ok_foldl {α : Type} {st : Store} {l : List α} {f : Store → α → Store} (h : st.ok)
    (k : ∀ a u, u.ok → (f u a).ok) : (l.foldl f st).ok := by
  induction l generalizing st with
  | nil => exact h
  | cons a r ih => exact ih (k a st h)

theorem Store.ok_write {st : Store} (a : Nat) (bs : Bytes) (m : Bool) (h : st.ok) : (st.write a bs m).ok :=
  Store.ok_foldl h fun p _ j => Store.ok_writePiece p.1 p.2 m j

theorem Store.ok_clear {st : Store} (lo hi : Nat) (h : st.ok) : (st.clear lo hi).ok := cellsClear_wf lo hi h

theorem Store.ok_put {st : Store} (a : Nat) (bs : Bytes) (h : st.ok) : (st.put a bs).ok := cellsPut_wf a bs h

theorem Store.ok_copy {st : Store} (src dst n : Nat) (h : st.ok) : (st.copy src dst n).ok := by
  unfold Store.copy
  extract_lets
  suffices ∀ (l c : List Host.Cell), Memory.wf c = true →
      Memory.wf (l.foldl (fun c p => cellPut c (p.1 - src + dst) p.2) c) = true from this _ _ (Store.ok_clear _ _ h)
  intro l
  induction l with
  | nil => exact fun _ h => h
  | cons p r ih => exact fun c h => ih _ (cellPut_wf _ _ h)

theorem Store.ok_copyRun {st : Store} (src dst n : Nat) (h : st.ok) : (st.copyRun src dst n).ok := by
  unfold Store.copyRun
  split
  · exact Store.ok_copy src dst n h
  · exact Store.ok_foldl h fun _ _ j => Store.ok_write _ _ _ j

end Sys2Proof.Machine
end

