-- ==== Sys2Proof/Laws/Cores.lean ====
section
/-!
SUPPORT. What the operations of the vector engine and the matrix array leave of a core's local memory.
-/

namespace Sys2Proof.Machine

theorem foldl_keeps {α β γ : Type} {g : β → γ} {f : β → α → β} (k : ∀ u a, g (f u a) = g u) (l : List α) (b : β) :
    g (l.foldl f b) = g b := by
  induction l generalizing b with
  | nil => rfl
  | cons a r ih => exact (ih _).trans (k b a)

@[simp] theorem putRow_lm (k x r m) : (putRow k x r m).lm = k.lm := by unfold putRow; split <;> rfl

@[simp] theorem putEls_lm (k x w lo es) : (putEls k x w lo es).lm = k.lm := by
  unfold putEls
  exact putRow_lm ..

@[simp] theorem foldAmax_lm (k r v) : (foldAmax k r v).lm = k.lm := rfl

@[simp] theorem amxAll_lm (v k vs) : (amxAll v k vs).lm = k.lm := by
  unfold amxAll
  split
  · exact foldl_keeps (g := CoreSt.lm) (fun u a => foldAmax_lm ..) _ _
  · rfl

@[simp] theorem putRun_lm (k sel row w per es) : (putRun k sel row w per es).lm = k.lm :=
  foldl_keeps (g := CoreSt.lm) (fun _ _ => putEls_lm ..) _ _

theorem floatRep_lm (v a j) : (floatRep v a j).core.lm = a.core.lm := by
  unfold floatRep
  extract_lets
  split
  · simp
  · split
    · simp
    · split <;> simp

theorem bitRep_lm (v a j) : (bitRep v a j).core.lm = a.core.lm := by unfold bitRep; exact putEls_lm ..

theorem gaccRep_lm (v a j) : (gaccRep v a j).core.lm = a.core.lm := by
  unfold gaccRep
  exact foldl_keeps (g := fun x : VAcc => x.core.lm) (fun _ _ => putEls_lm ..) _ _

theorem cvtRep_lm (v a j) : (cvtRep v a j).core.lm = a.core.lm := by
  unfold cvtRep
  exact (amxAll_lm ..).trans (putEls_lm ..)

theorem mxqRep_lm (v a j) : (mxqRep v a j).core.lm = a.core.lm := by
  unfold mxqRep
  extract_lets
  split
  · exact (amxAll_lm ..).trans ((putEls_lm ..).trans (putRun_lm ..))
  · exact (amxAll_lm ..).trans ((putRun_lm ..).trans (foldl_keeps (g := CoreSt.lm) (fun _ _ => putRun_lm ..) _ _))

theorem rstatRun_lm (v a n) : (rstatRun v a n).core.lm = a.core.lm := by
  unfold rstatRun
  exact (amxAll_lm ..).trans (putEls_lm ..)

theorem addrRep_lm (v a j) : (addrRep v a j).core.lm = a.core.lm := by
  unfold addrRep
  exact (amxAll_lm ..).trans ((putEls_lm ..).trans (putEls_lm ..))

theorem khistRep_lm (v a j) : (khistRep v a j).core.lm = a.core.lm := by
  unfold khistRep
  refine foldl_keeps (g := CoreSt.lm) (fun u b => ?_) _ _
  dsimp only
  split
  · rfl
  · exact putEls_lm ..

theorem vRep_lm (v a j) : (vRep v a j).core.lm = a.core.lm := by
  unfold vRep
  split
  · exact floatRep_lm ..
  · split
    · exact gaccRep_lm ..
    · exact cvtRep_lm ..
    · exact mxqRep_lm ..
    · exact addrRep_lm ..
    · exact khistRep_lm ..
    · exact bitRep_lm ..

/-- A row operation run over its first rows writes no local memory. -/
theorem vReps_lm (v a n) : ((List.range n).foldl (vRep v) a).core.lm = a.core.lm :=
  foldl_keeps (g := fun x : VAcc => x.core.lm) (fun _ _ => vRep_lm ..) _ _

theorem foldl_ok {α β : Type} {p : β → Prop} {f : β → α → β} (k : ∀ u a, p u → p (f u a)) (l : List α) (b : β) (h : p b) :
    p (l.foldl f b) := by
  induction l generalizing b with
  | nil => exact h
  | cons a r ih => exact ih _ (k b a h)

theorem kselStep_ok (v f j) (a : CoreSt × KselSt) (p) (h : a.1.lm.ok) : (kselStep v f j a p).1.lm.ok := by
  unfold kselStep
  extract_lets k x key tie pair k1 k2
  have h1 : k1.lm.ok := Store.ok_write _ _ _ h
  have h2 : k2.lm.ok := by
    dsimp only [k2]
    split
    · rw [putEls_lm]; exact h1
    · exact h1
  split
  · exact h
  · split
    · split
      · exact h
      · exact h2
    · exact h

theorem kselRun_ok (v k n) (h : k.lm.ok) : (kselRun v k n).1.lm.ok := by
  unfold kselRun
  extract_lets f w r x
  rw [putEls_lm]
  exact foldl_ok (p := fun a : CoreSt × KselSt => a.1.lm.ok) (fun u j hu =>
    foldl_ok (p := fun a : CoreSt × KselSt => a.1.lm.ok) (fun w p => kselStep_ok v f j w p) _ _ hu) _ _ h

@[simp] theorem closeFill_lm (k f) : (closeFill k f).lm = k.lm := rfl

theorem closeFills_lm {α : Type} (l : List α) (g : α → Nat) (k : CoreSt) : (l.foldl (fun k f => closeFill k (g f)) k).lm = k.lm :=
  foldl_keeps (g := CoreSt.lm) (fun _ _ => closeFill_lm ..) _ _

@[simp] theorem openFill_lm (k e m) : (openFill k e m).lm = k.lm := by
  unfold openFill
  extract_lets k1 
  have : k1.lm = k.lm := by dsimp only [k1]; split <;> rfl
  exact this

@[simp] theorem gatherIn_lm (k e w) : (gatherIn k e w).lm = k.lm := by
  unfold gatherIn
  extract_lets m
  split
  · split
    · extract_lets u
      split <;> rfl
    · exact openFill_lm ..
  · split
    · exact openFill_lm k e m
    · exact openFill_lm k e m

@[simp] theorem fillL1_lm (k a d v) : (fillL1 k a d v).lm = k.lm := by
  unfold fillL1
  extract_lets
  split <;> rfl

@[simp] theorem dropBad_lm (k l) : (dropBad k l).lm = k.lm := rfl

theorem lmAtomics_ok {lm} (aop x ps) (h : Store.ok lm) : (lmAtomics lm aop x ps).1.ok :=
  foldl_ok (p := fun r : Store × List Nat => r.1.ok) (fun _ _ j => Store.ok_write _ _ _ j) _ _ h

end Sys2Proof.Machine
end

