-- ==== Sys2Proof/Laws/Tbl.lean ====
section
/-!
SUPPORT. The laws of sparse tables: what an entry reads as after a change, and which entries a changed table has.
-/

namespace Sys2Proof.Machine

variable {α : Type}

theorem tget_tset_self (t : Tbl α) (d : α) (k : Nat) (v : α) : tget (tset t k v) d k = v := by
  induction t with
  | nil => simp [tset, tget]
  | cons p r ih =>
    obtain ⟨j, w⟩ := p
    simp only [tset]
    split
    · simp [tget]
    · split
      · simp [tget]
      · simp [tget, *]

theorem tget_tset_other (t : Tbl α) (d : α) {k j : Nat} (v : α) (h : j ≠ k) : tget (tset t k v) d j = tget t d j := by
  induction t with
  | nil => simp [tset, tget, h.symm]
  | cons p r ih =>
    obtain ⟨i, w⟩ := p
    simp only [tset]
    split
    · subst i; simp [tget, h.symm]
    · split
      · simp [tget, h.symm]
      · simp [tget, ih]

theorem tfind_tset_self (t : Tbl α) (k : Nat) (v : α) : tfind (tset t k v) k = some v := by
  induction t with
  | nil => simp [tset, tfind]
  | cons p r ih =>
    obtain ⟨j, w⟩ := p
    simp only [tset]
    split
    · simp [tfind]
    · split
      · simp [tfind]
      · simp [tfind, *]

theorem tfind_tset_other (t : Tbl α) {k j : Nat} (v : α) (h : j ≠ k) : tfind (tset t k v) j = tfind t j := by
  induction t with
  | nil => simp [tset, tfind, h.symm]
  | cons p r ih =>
    obtain ⟨i, w⟩ := p
    simp only [tset]
    split
    · subst i; simp [tfind, h.symm]
    · split
      · simp [tfind, h.symm]
      · simp [tfind, ih]

theorem mem_tset {t : Tbl α} {k : Nat} {v : α} {p : Nat × α} (h : p ∈ tset t k v) : p = (k, v) ∨ p ∈ t := by
  induction t with
  | nil => exact .inl (List.mem_singleton.mp h)
  | cons q r ih =>
    obtain ⟨j, w⟩ := q
    simp only [tset] at h
    split at h
    · exact (List.mem_cons.mp h).imp id fun h => List.mem_cons_of_mem _ h
    · split at h
      · exact List.mem_cons.mp h
      · cases List.mem_cons.mp h with
        | inl h => exact .inr (h ▸ List.mem_cons_self ..)
        | inr h => exact (ih h).imp id fun h => List.mem_cons_of_mem _ h

theorem tget_default_or_mem (t : Tbl α) (d : α) (k : Nat) : tget t d k = d ∨ (k, tget t d k) ∈ t := by
  induction t with
  | nil => exact .inl rfl
  | cons q r ih =>
    obtain ⟨j, w⟩ := q
    simp only [tget]
    split
    · subst j; exact .inr (List.mem_cons_self ..)
    · exact ih.imp id fun h => List.mem_cons_of_mem _ h

theorem mem_of_tfind {t : Tbl α} {k : Nat} {v : α} (h : tfind t k = some v) : (k, v) ∈ t := by
  induction t with
  | nil => simp [tfind] at h
  | cons q r ih =>
    obtain ⟨j, w⟩ := q
    simp only [tfind] at h
    split at h
    · subst j; cases h; exact List.mem_cons_self ..
    · exact List.mem_cons_of_mem _ (ih h)

theorem length_tset_le (t : Tbl α) (k : Nat) (v : α) : (tset t k v).length ≤ t.length + 1 := by
  induction t with
  | nil => simp [tset]
  | cons q r ih =>
    obtain ⟨j, w⟩ := q
    simp only [tset]
    split
    · simp
    · split
      · simp
      · simpa using ih

theorem rising_tset {t : Tbl α} (k : Nat) (v : α) (h : rising t) : rising (tset t k v) := by
  induction t with
  | nil => exact ⟨fun _ h => by simp at h, trivial⟩
  | cons q r ih =>
    obtain ⟨j, w⟩ := q
    simp only [tset]
    split
    · subst j; exact h
    · split
      · rename_i a b
        exact ⟨fun x hx => by
          cases List.mem_cons.mp hx with
          | inl e => rw [e]; exact b
          | inr e => exact Nat.lt_trans b (h.1 x e), h⟩
      · rename_i a b
        refine ⟨fun x hx => ?_, ih h.2⟩
        cases mem_tset hx with
        | inl e => rw [e]; simp only; omega
        | inr e => exact h.1 x e

theorem rising_filter {t : Tbl α} (f : Nat × α → Bool) (h : rising t) : rising (t.filter f) := by
  induction t with
  | nil => exact h
  | cons q r ih =>
    rw [List.filter_cons]
    split
    · exact ⟨fun x hx => h.1 x (List.mem_filter.mp hx |>.1), ih h.2⟩
    · exact ih h.2

theorem length_tset_found {t : Tbl α} {k : Nat} {v w : α} (h : rising t) (f : tfind t k = some w) :
    (tset t k v).length = t.length := by
  induction t with
  | nil => simp [tfind] at f
  | cons q r ih =>
    obtain ⟨j, u⟩ := q
    simp only [tset]
    split
    · simp
    · rename_i a
      simp only [tfind, if_neg a] at f
      have := h.1 _ (mem_of_tfind f)
      rw [if_neg (by simp only at this; omega)]
      simpa using ih h.2 f

theorem length_tdel_le (t : Tbl α) (k : Nat) : (tdel t k).length ≤ t.length := List.length_filter_le ..

end Sys2Proof.Machine
end

