-- ==== Sys2Proof/Laws/Change.lean ====
section
/-!
SUPPORT. How changes of the state compose: the parts that a change leaves alone, and what it keeps of the others
(canonical memories, generations, the number of sessions, the entries of the defect list, what has gone out).
-/

namespace Sys2Proof.Machine

/-! Keeping. -/

/-- A core whose memory is in canonical form. -/
def CoreSt.ok (k : CoreSt) : Prop := k.lm.ok

/-- A changed core keeps the canonical form. -/
def CoreKept (k n : CoreSt) : Prop := k.ok → n.ok

/-- A changed berth keeps its generations from 0. -/
def BerthKept (x y : BerthSt) : Prop := x.gensOk → y.gensOk

/-- What a change keeps of a part. -/
def Part.kept : Part → State → State → Prop
  | .mem, s, t => s.mem.ok → t.mem.ok
  | .host, s, t => Memory.wf s.host.mem = true → Memory.wf t.host.mem = true
  | .cores, s, t => (∀ p ∈ s.cores, p.2.ok) → ∀ p ∈ t.cores, p.2.ok
  | .berths, s, t => s.gensOk → t.gensOk
  | .dict, s, t => s.dict.sessionsOk → t.dict.sessionsOk
  | .defects, s, t => listGrows s.defects.list t.defects.list
  | .out, s, t => s.out <+: t.out
  | _, _, _ => True

/-- `t` differs from `s` in the parts of `l` at most, and keeps what is to be kept of each. -/
def Change (l : List Part) (s t : State) : Prop := ∀ p, (p ∉ l → p.same s t) ∧ p.kept s t

theorem listGrows.refl (l) : listGrows l l := fun _ e h => ⟨e, h, .inl rfl⟩

theorem listGrows.trans {l m n} (h : listGrows l m) (k : listGrows m n) : listGrows l n := fun i e he => by
  obtain ⟨f, hf, a⟩ := h i e he
  obtain ⟨g, hg, b⟩ := k i f hf
  exact ⟨g, hg, by rcases a with rfl | rfl <;> rcases b with rfl | rfl <;> simp⟩

theorem listGrows.append (l m) : listGrows l (l ++ m) := fun i e h =>
  ⟨e, by rw [List.getElem?_append_left (List.getElem?_eq_some_iff.mp h).1]; exact h, .inl rfl⟩

theorem listGrows.readmit (l : List DefectEnt) (i : Nat) : listGrows l (l.modify i fun x => { x with st := 5 }) := fun j e h => by
  rw [List.getElem?_modify]
  by_cases k : i = j
  · exact ⟨{ e with st := 5 }, by simp [k, h], .inr rfl⟩
  · exact ⟨e, by simp [k, h], .inl rfl⟩

theorem Part.kept_refl (p : Part) (s : State) : p.kept s s := by
  cases p <;> first | exact id | exact listGrows.refl _ | exact List.prefix_refl _ | trivial

theorem Part.kept_trans {p : Part} {s t u : State} (h : p.kept s t) (k : p.kept t u) : p.kept s u := by
  cases p <;> first | exact fun x => k (h x) | exact listGrows.trans h k | exact List.IsPrefix.trans h k | trivial

/-- A part that stays the same is kept. -/
theorem Part.kept_same {p : Part} {s t : State} (h : p.same s t) : p.kept s t := by
  cases p <;> first
    | exact trivial
    | (simp only [Part.same] at h; simp only [Part.kept, State.gensOk, h]; first | exact id | exact listGrows.refl _ | exact List.prefix_refl _)

theorem Part.kept_dict {s t : State} (h : t.dict.sessions = s.dict.sessions) : Part.kept .dict s t := by
  simp only [Part.kept, DictSt.sessionsOk, h]; exact id

theorem Part.kept_host {s t : State} (h : t.host.mem = s.host.mem) : Part.kept .host s t := by
  simp only [Part.kept, h]; exact id

theorem Part.kept_defects {s t : State} (h : t.defects.list = s.defects.list) : Part.kept .defects s t := by
  simp only [Part.kept, h]; exact listGrows.refl _

theorem BerthKept.of {x y : BerthSt} (h : y.objs = x.objs) (k : y.evts = x.evts) : BerthKept x y := by
  simp only [BerthKept, BerthSt.gensOk, h, k]; exact id

theorem BerthKept.fresh {x y : BerthSt} (h : y.objs = []) (k : y.evts = []) : BerthKept x y := by
  simp [BerthKept, BerthSt.gensOk, h, k]

theorem BerthKept.obj {x y : BerthSt} {i : Nat} {o : ObjSt} (h : o.gen = (tget x.objs {} i).gen) (e : y.objs = tset x.objs i o)
    (k : y.evts = x.evts) : BerthKept x y := fun ok => by
  refine ⟨fun p hp => ?_, by rw [k]; exact ok.2⟩
  rw [e] at hp
  cases mem_tset hp with
  | inl q =>
    rw [q, h]
    cases tget_default_or_mem x.objs {} i with
    | inl d => rw [d]; decide
    | inr m => exact ok.1 _ m
  | inr m => exact ok.1 p m

theorem BerthKept.evt {x y : BerthSt} {i : Nat} {o : EvtSt} (h : o.gen = (tget x.evts {} i).gen) (e : y.evts = tset x.evts i o)
    (k : y.objs = x.objs) : BerthKept x y := fun ok => by
  refine ⟨by rw [k]; exact ok.1, fun p hp => ?_⟩
  rw [e] at hp
  cases mem_tset hp with
  | inl q =>
    rw [q, h]
    cases tget_default_or_mem x.evts {} i with
    | inl d => rw [d]; decide
    | inr m => exact ok.2 _ m
  | inr m => exact ok.2 p m

theorem CoreKept.fresh {k n : CoreSt} (h : n.lm = {}) : CoreKept k n := by
  simp only [CoreKept, CoreSt.ok, h]; exact fun _ => Store.ok_empty

theorem CoreKept.of {k n : CoreSt} (h : n.lm = k.lm) : CoreKept k n := by
  simp only [CoreKept, CoreSt.ok, h]; exact id

theorem Part.same_refl (p : Part) (s : State) : p.same s s := by cases p <;> rfl

theorem Part.same_trans {p : Part} {s t u : State} (h : p.same s t) (k : p.same t u) : p.same s u := by
  cases p <;> exact k.trans h

theorem partsIn.id {a b : List Part} (h : partsIn a b = true) : partsIn a b = true := h

theorem partsIn.trans {a b c : List Part} (h : partsIn a b = true) (k : partsIn b c = true) : partsIn a c = true := by
  simp only [partsIn, List.all_eq_true, List.contains_iff_mem] at *
  exact fun p hp => k p (h p hp)

theorem CoreKept.mk {k n : CoreSt} (h : k.lm.ok → n.lm.ok) : CoreKept k n := h

/-! Composing. -/

theorem Change.refl {l s} : Change l s s := fun p => ⟨fun _ => p.same_refl s, p.kept_refl s⟩

theorem Change.tr {l n s t u} (h : Change l s t) (k : Change n t u) (w : partsIn n l = true) : Change l s u := fun p =>
  ⟨fun hp => Part.same_trans ((h p).1 hp) <| (k p).1 fun hn => hp <| by
    have := List.all_eq_true.mp w p hn
    simpa using this, Part.kept_trans (h p).2 (k p).2⟩

theorem Change.frame {l s t} (h : Change l s t) : Frame l s t := fun p hp => (h p).1 hp

theorem Change.upd {l s t a2 a3 a4 a5 a6 a7 a8 a9 a10 a11 a12 a13 a14 a15 a16 a17 a18 a19 a20 a21 a22 a23 a24 a25 a26}
    (k : ∀ p, (p ∉ l → p.same t (State.mk t.pending a2 a3 a4 a5 a6 a7 a8 a9 a10 a11 a12 a13 a14 a15 a16 a17 a18 a19 a20 a21
      a22 a23 a24 a25 a26)) ∧ p.kept t (State.mk t.pending a2 a3 a4 a5 a6 a7 a8 a9 a10 a11 a12 a13 a14 a15 a16 a17 a18 a19 a20 a21
      a22 a23 a24 a25 a26)) (h : Change l s t) :
    Change l s (State.mk t.pending a2 a3 a4 a5 a6 a7 a8 a9 a10 a11 a12 a13 a14 a15 a16 a17 a18 a19 a20 a21
      a22 a23 a24 a25 a26) := fun p => ⟨fun hp => Part.same_trans ((h p).1 hp) ((k p).1 hp), Part.kept_trans (h p).2 (k p).2⟩

theorem Change.setMany {l s t u} (h : Change l s t) (k : ∀ p, (p ∈ l ∨ p.same t u) ∧ p.kept t u) : Change l s u := fun p =>
  ⟨fun hp => Part.same_trans ((h p).1 hp) ((k p).1.resolve_left hp), Part.kept_trans (h p).2 (k p).2⟩

theorem Change.one {l s t u} (q : Part) (h : Change l s t) (k : ∀ p, p ≠ q → p.same t u) (v : q.kept t u) (w : partsIn [q] l = true) :
    Change l s u :=
  h.tr (n := [q]) (fun p => ⟨fun hp => k p fun e => hp (e ▸ List.mem_singleton.mpr rfl), by
    by_cases e : p = q
    · subst e; exact v
    · exact Part.kept_same (k p e)⟩) w

theorem Change.setFree {l s} {t : State} {x} (h : Change l s t) (w : partsIn [.free] l = true) : Change l s { t with free := x } :=
  h.one .free (fun p hp => by cases p <;> first | rfl | exact absurd rfl hp) trivial w

theorem Change.setOut {l s} {t : State} {x} (h : Change l s t) (w : partsIn [.out] l = true)
    (v : Part.kept .out t { t with out := x }) : Change l s { t with out := x } :=
  h.one .out (fun p hp => by cases p <;> first | rfl | exact absurd rfl hp) v w

theorem Change.setMem {l s} {t : State} {x} (h : Change l s t) (w : partsIn [.mem] l = true)
    (v : Part.kept .mem t { t with mem := x }) : Change l s { t with mem := x } :=
  h.one .mem (fun p hp => by cases p <;> first | rfl | exact absurd rfl hp) v w

theorem Change.setChans {l s} {t : State} {x} (h : Change l s t) (w : partsIn [.chans] l = true) : Change l s { t with chans := x } :=
  h.one .chans (fun p hp => by cases p <;> first | rfl | exact absurd rfl hp) trivial w

theorem Change.setGroups {l s} {t : State} {x} (h : Change l s t) (w : partsIn [.groups] l = true) : Change l s { t with groups := x } :=
  h.one .groups (fun p hp => by cases p <;> first | rfl | exact absurd rfl hp) trivial w

theorem Change.setHbm {l s} {t : State} {x} (h : Change l s t) (w : partsIn [.hbm] l = true) : Change l s { t with hbm := x } :=
  h.one .hbm (fun p hp => by cases p <;> first | rfl | exact absurd rfl hp) trivial w

theorem Change.setCores {l s} {t : State} {x} (h : Change l s t) (w : partsIn [.cores] l = true)
    (v : Part.kept .cores t { t with cores := x }) : Change l s { t with cores := x } :=
  h.one .cores (fun p hp => by cases p <;> first | rfl | exact absurd rfl hp) v w

theorem Change.setBerths {l s} {t : State} {x} (h : Change l s t) (w : partsIn [.berths] l = true)
    (v : Part.kept .berths t { t with berths := x }) : Change l s { t with berths := x } :=
  h.one .berths (fun p hp => by cases p <;> first | rfl | exact absurd rfl hp) v w

theorem Change.setSegs {l s} {t : State} {x} (h : Change l s t) (w : partsIn [.segs] l = true) : Change l s { t with segs := x } :=
  h.one .segs (fun p hp => by cases p <;> first | rfl | exact absurd rfl hp) trivial w

theorem Change.setHost {l s} {t : State} {x} (h : Change l s t) (w : partsIn [.host] l = true)
    (v : Part.kept .host t { t with host := x }) : Change l s { t with host := x } :=
  h.one .host (fun p hp => by cases p <;> first | rfl | exact absurd rfl hp) v w

theorem Change.setMbox {l s} {t : State} {x} (h : Change l s t) (w : partsIn [.mbox] l = true) : Change l s { t with mbox := x } :=
  h.one .mbox (fun p hp => by cases p <;> first | rfl | exact absurd rfl hp) trivial w

theorem Change.setCtxs {l s} {t : State} {x} (h : Change l s t) (w : partsIn [.ctxs] l = true) : Change l s { t with ctxs := x } :=
  h.one .ctxs (fun p hp => by cases p <;> first | rfl | exact absurd rfl hp) trivial w

theorem Change.setLaunches {l s} {t : State} {x} (h : Change l s t) (w : partsIn [.launches] l = true) : Change l s { t with launches := x } :=
  h.one .launches (fun p hp => by cases p <;> first | rfl | exact absurd rfl hp) trivial w

theorem Change.setLaunchNext {l s} {t : State} {x} (h : Change l s t) (w : partsIn [.launchNext] l = true) : Change l s { t with launchNext := x } :=
  h.one .launchNext (fun p hp => by cases p <;> first | rfl | exact absurd rfl hp) trivial w

theorem Change.setFabric {l s} {t : State} {x} (h : Change l s t) (w : partsIn [.fabric] l = true) : Change l s { t with fabric := x } :=
  h.one .fabric (fun p hp => by cases p <;> first | rfl | exact absurd rfl hp) trivial w

theorem Change.setDict {l s} {t : State} {x} (h : Change l s t) (w : partsIn [.dict] l = true)
    (v : Part.kept .dict t { t with dict := x }) : Change l s { t with dict := x } :=
  h.one .dict (fun p hp => by cases p <;> first | rfl | exact absurd rfl hp) v w

theorem Change.setFw {l s} {t : State} {x} (h : Change l s t) (w : partsIn [.fw] l = true) : Change l s { t with fw := x } :=
  h.one .fw (fun p hp => by cases p <;> first | rfl | exact absurd rfl hp) trivial w

theorem Change.setDefects {l s} {t : State} {x} (h : Change l s t) (w : partsIn [.defects] l = true)
    (v : Part.kept .defects t { t with defects := x }) : Change l s { t with defects := x } :=
  h.one .defects (fun p hp => by cases p <;> first | rfl | exact absurd rfl hp) v w

theorem Change.setStreams {l s} {t : State} {x} (h : Change l s t) (w : partsIn [.streams] l = true) : Change l s { t with streams := x } :=
  h.one .streams (fun p hp => by cases p <;> first | rfl | exact absurd rfl hp) trivial w

theorem Change.setBasins {l s} {t : State} {x} (h : Change l s t) (w : partsIn [.basins] l = true) : Change l s { t with basins := x } :=
  h.one .basins (fun p hp => by cases p <;> first | rfl | exact absurd rfl hp) trivial w

theorem Change.setSnaps {l s} {t : State} {x} (h : Change l s t) (w : partsIn [.snaps] l = true) : Change l s { t with snaps := x } :=
  h.one .snaps (fun p hp => by cases p <;> first | rfl | exact absurd rfl hp) trivial w

theorem Change.setLk {l s} {t : State} {x} (h : Change l s t) (w : partsIn [.lk] l = true) : Change l s { t with lk := x } :=
  h.one .lk (fun p hp => by cases p <;> first | rfl | exact absurd rfl hp) trivial w

theorem Change.setBoot {l s} {t : State} {x} (h : Change l s t) (w : partsIn [.boot] l = true) : Change l s { t with boot := x } :=
  h.one .boot (fun p hp => by cases p <;> first | rfl | exact absurd rfl hp) trivial w

theorem Change.setPower {l s} {t : State} {x} (h : Change l s t) (w : partsIn [.power] l = true) : Change l s { t with power := x } :=
  h.one .power (fun p hp => by cases p <;> first | rfl | exact absurd rfl hp) trivial w

theorem Change.setInst {l s} {t : State} {x} (h : Change l s t) (w : partsIn [.inst] l = true) : Change l s { t with inst := x } :=
  h.one .inst (fun p hp => by cases p <;> first | rfl | exact absurd rfl hp) trivial w

theorem Change.ite {l s x y} {c : Prop} [Decidable c] (h : Change l s x) (k : Change l s y) :
    Change l s (if c then x else y) := by split <;> assumption

theorem Change.forL {α l s} {xs : List α} {t : State} {f : α → State → State} (h : Change l s t)
    (k : ∀ a u, Change l s u → Change l s (f a u)) : Change l s (Machine.forL xs t f) := by
  unfold Machine.forL
  induction xs generalizing t with
  | nil => exact h
  | cons a r ih => exact ih (k a t h)

theorem Change.forN {l s} {n : Nat} {t : State} {f : Nat → State → State} (h : Change l s t)
    (k : ∀ a u, Change l s u → Change l s (f a u)) : Change l s (Machine.forN n t f) := Change.forL h k

theorem Change.foldl {α l s} {xs : List α} {t : State} {f : State → α → State} (h : Change l s t)
    (k : ∀ a u, Change l s u → Change l s (f u a)) : Change l s (xs.foldl f t) := by
  induction xs generalizing t with
  | nil => exact h
  | cons a r ih => exact ih (k a t h)

theorem Change.foldlP {α β l s} (proj : β → State) {xs : List α} {t : β} {f : β → α → β} (h : Change l s (proj t))
    (k : ∀ a u, Change l s (proj u) → Change l s (proj (f u a))) : Change l s (proj (xs.foldl f t)) := by
  induction xs generalizing t with
  | nil => exact h
  | cons a r ih => exact ih (k a t h)

/-- The change by an operation that answers a code or bytes with its state. -/
def Change2 {α : Type} (l : List Part) (s : State) (p : α × State) : Prop := Change l s p.2

/-- The change by an operation that answers a state with something. -/
def Change1 {α : Type} (l : List Part) (s : State) (p : State × α) : Prop := Change l s p.1

/-- The change by a control request's service. -/
def Change3 (l : List Part) (s : State) (p : Reply) : Prop := Change l s p.2.2

/-- The change by an operation that may answer no state. -/
def ChangeQ (l : List Part) (s : State) (p : Option State) : Prop := ∀ t, p = some t → Change l s t

/-- The change by a meaning. -/
def ChangeO (l : List Part) (s : State) (r : Result) : Prop := ∀ t, r = .next t → Change l s t

/-- The change by a message's handling. -/
def ChangeT (l : List Part) (s : State) (r : ThnRes) : Prop := Change l s r.state

theorem Change2.mk {α l s t} {a : α} (h : Change l s t) : Change2 l s (a, t) := h
theorem Change1.mk {α l s t} {a : α} (h : Change l s t) : Change1 l s (t, a) := h
theorem ChangeT.mk {l s t c b} (h : Change l s t) : ChangeT l s { code := c, body := b, state := t } := h
theorem ChangeO.mk {l s t} (h : Change l s t) : ChangeO l s (.next t) := fun u e => by cases e; exact h
theorem ChangeQ.mk {l s t} (h : Change l s t) : ChangeQ l s (some t) := fun u e => by cases e; exact h
theorem ChangeQ.none {l s} : ChangeQ l s Option.none := fun _ e => by simp at e
theorem ChangeO.stop {l s f} : ChangeO l s (.fault f) := fun _ e => by simp at e

theorem Change3.mk {l s t c w} (h : Change l s t) : Change3 l s (c, w, t) := h
theorem Change3.of {l n s t p} (h : Change l s t) (k : Change3 n t p) (w : partsIn n l = true) : Change3 l s p := Change.tr h k w
theorem Change3.ite {l s x y} {c : Prop} [Decidable c] (h : Change3 l s x) (k : Change3 l s y) :
    Change3 l s (if c then x else y) := by split <;> assumption
theorem Change2.tr {α l n s t} {p : α × State} (h : Change l s t) (k : Change2 n t p) (w : partsIn n l = true) : Change l s p.2 :=
  Change.tr h k w
theorem Change1.tr {α l n s t} {p : State × α} (h : Change l s t) (k : Change1 n t p) (w : partsIn n l = true) : Change l s p.1 :=
  Change.tr h k w
theorem ChangeT.tr {l n s t p} (h : Change l s t) (k : ChangeT n t p) (w : partsIn n l = true) : Change l s p.state :=
  Change.tr h k w
theorem Change2.of {α l n s t} {p : α × State} (h : Change l s t) (k : Change2 n t p) (w : partsIn n l = true) : Change2 l s p :=
  Change.tr h k w
theorem Change1.of {α l n s t} {p : State × α} (h : Change l s t) (k : Change1 n t p) (w : partsIn n l = true) : Change1 l s p :=
  Change.tr h k w
theorem ChangeT.of {l n s t p} (h : Change l s t) (k : ChangeT n t p) (w : partsIn n l = true) : ChangeT l s p :=
  Change.tr h k w
theorem ChangeO.of {l n s t r} (h : Change l s t) (k : ChangeO n t r) (w : partsIn n l = true) : ChangeO l s r :=
  fun u e => Change.tr h (k u e) w
theorem ChangeQ.getD {l n s t q x} (h : Change l s t) (k : ChangeQ n t q) (w : partsIn n l = true) (d : Change l s x) :
    Change l s (q.getD x) := by
  cases q with
  | none => exact d
  | some u => exact Change.tr h (k u rfl) w

theorem Change.iteFst {α l s} {x y : State × α} {c : Prop} [Decidable c] (h : Change l s x.1) (k : Change l s y.1) :
    Change l s (if c then x else y).1 := by split <;> assumption
theorem Change.iteSnd {α l s} {x y : α × State} {c : Prop} [Decidable c] (h : Change l s x.2) (k : Change l s y.2) :
    Change l s (if c then x else y).2 := by split <;> assumption
theorem Change.elim {α l s x} {o : Option α} {f : α → State} (h : Change l s x) (k : ∀ a, Change l s (f a)) :
    Change l s (o.elim x f) := by cases o with
  | none => exact h
  | some a => exact k a

theorem Change2.ite {α l s} {x y : α × State} {c : Prop} [Decidable c] (h : Change2 l s x) (k : Change2 l s y) :
    Change2 l s (if c then x else y) := by split <;> assumption
theorem Change1.ite {α l s} {x y : State × α} {c : Prop} [Decidable c] (h : Change1 l s x) (k : Change1 l s y) :
    Change1 l s (if c then x else y) := by split <;> assumption
theorem ChangeT.ite {l s x y} {c : Prop} [Decidable c] (h : ChangeT l s x) (k : ChangeT l s y) :
    ChangeT l s (if c then x else y) := by split <;> assumption
theorem ChangeO.ite {l s x y} {c : Prop} [Decidable c] (h : ChangeO l s x) (k : ChangeO l s y) :
    ChangeO l s (if c then x else y) := by split <;> assumption
theorem ChangeQ.ite {l s x y} {c : Prop} [Decidable c] (h : ChangeQ l s x) (k : ChangeQ l s y) :
    ChangeQ l s (if c then x else y) := by split <;> assumption
theorem Change2.out {α l s} {p : α × State} (h : Change2 l s p) : Change l s p.2 := h
theorem Change1.out {α l s} {p : State × α} (h : Change1 l s p) : Change l s p.1 := h

end Sys2Proof.Machine
end

