-- ==== Sys2Proof/Laws/ChangeBase.lean ====
section
/-!
SUPPORT. What each operation changes and keeps: the shared operations of Ops, the engines' calculations, aborts and operands.
-/

namespace Sys2Proof.Machine

theorem State.setCore_frame (s c k) (h : CoreKept (s.core c) k) : Change [.cores] s (State.setCore s c k) := by
  refine Change.refl.setCores rfl fun a p hp => ?_
  cases mem_tset hp with
  | inl e =>
    rw [e]
    exact h (by
      cases tget_default_or_mem s.cores {} c with
      | inl d => rw [State.core, d]; rfl
      | inr m => exact a _ m)
  | inr m => exact a p m

theorem State.modCore_frame (s c f) (h : CoreKept (s.core c) (f (s.core c))) : Change [.cores] s (State.modCore s c f) :=
  State.setCore_frame _ _ _ h

theorem State.setBerth_frame (s b k) (h : BerthKept (s.berth b) k) : Change [.berths] s (State.setBerth s b k) := by
  refine Change.refl.setBerths rfl fun a p hp => ?_
  cases mem_tset hp with
  | inl e =>
    rw [e]
    exact h (by
      cases tget_default_or_mem s.berths {} b with
      | inl d => rw [State.berth, d]; exact ⟨fun _ h => by simp at h, fun _ h => by simp at h⟩
      | inr m => exact a _ m)
  | inr m => exact a p m

theorem State.modBerth_frame (s b f) (h : BerthKept (s.berth b) (f (s.berth b))) : Change [.berths] s (State.modBerth s b f) :=
  State.setBerth_frame _ _ _ h

theorem State.modFn_frame (s i f) : Change [.host] s (State.modFn s i f) := by
  unfold State.modFn
  with_reducible repeat' first
    | apply Change.refl
    | apply Change.ite ?_ ?_
    | extract_lets
    | apply Change.forL ?_ fun _ _ _ => ?_
    | apply Change.forN ?_ fun _ _ _ => ?_
    | apply Change.foldl ?_ fun _ _ _ => ?_
    | assumption
    | split
    | apply Change.setHost ?_ (by with_unfolding_all rfl) (by apply Part.kept_host; rfl)

theorem State.modMb_frame (s m f) : Change [.mbox] s (State.modMb s m f) := by
  unfold State.modMb
  with_reducible repeat' first
    | apply Change.refl
    | apply Change.ite ?_ ?_
    | extract_lets
    | apply Change.forL ?_ fun _ _ _ => ?_
    | apply Change.forN ?_ fun _ _ _ => ?_
    | apply Change.foldl ?_ fun _ _ _ => ?_
    | assumption
    | split
    | apply Change.setMbox ?_ (by with_unfolding_all rfl)

theorem State.modChan_frame (s n l f) : Change [.chans] s (State.modChan s n l f) := by
  unfold State.modChan
  with_reducible repeat' first
    | apply Change.refl
    | apply Change.ite ?_ ?_
    | extract_lets
    | apply Change.forL ?_ fun _ _ _ => ?_
    | apply Change.forN ?_ fun _ _ _ => ?_
    | apply Change.foldl ?_ fun _ _ _ => ?_
    | assumption
    | split
    | apply Change.setChans ?_ (by with_unfolding_all rfl)

theorem State.modStack_frame (s n f) : Change [.hbm] s (State.modStack s n f) := by
  unfold State.modStack
  with_reducible repeat' first
    | apply Change.refl
    | apply Change.ite ?_ ?_
    | extract_lets
    | apply Change.forL ?_ fun _ _ _ => ?_
    | apply Change.forN ?_ fun _ _ _ => ?_
    | apply Change.foldl ?_ fun _ _ _ => ?_
    | assumption
    | split
    | apply Change.setHbm ?_ (by with_unfolding_all rfl)

theorem State.modSeg_frame (s k f) : Change [.segs] s (State.modSeg s k f) := by
  unfold State.modSeg
  with_reducible repeat' first
    | apply Change.refl
    | apply Change.ite ?_ ?_
    | extract_lets
    | apply Change.forL ?_ fun _ _ _ => ?_
    | apply Change.forN ?_ fun _ _ _ => ?_
    | apply Change.foldl ?_ fun _ _ _ => ?_
    | assumption
    | split
    | apply Change.setSegs ?_ (by with_unfolding_all rfl)

theorem State.modLink_frame (s p f) : Change [.fabric] s (State.modLink s p f) := by
  unfold State.modLink
  with_reducible repeat' first
    | apply Change.refl
    | apply Change.ite ?_ ?_
    | extract_lets
    | apply Change.forL ?_ fun _ _ _ => ?_
    | apply Change.forN ?_ fun _ _ _ => ?_
    | apply Change.foldl ?_ fun _ _ _ => ?_
    | assumption
    | split
    | apply Change.setFabric ?_ (by with_unfolding_all rfl)

theorem State.modLaunch_frame (s l f) : Change [.launches] s (State.modLaunch s l f) := by
  unfold State.modLaunch
  with_reducible repeat' first
    | apply Change.refl
    | apply Change.ite ?_ ?_
    | extract_lets
    | apply Change.forL ?_ fun _ _ _ => ?_
    | apply Change.forN ?_ fun _ _ _ => ?_
    | apply Change.foldl ?_ fun _ _ _ => ?_
    | assumption
    | split
    | apply Change.setLaunches ?_ (by with_unfolding_all rfl)

theorem State.modExch_frame (s d f) : Change [.fabric] s (State.modExch s d f) := by
  unfold State.modExch
  with_reducible repeat' first
    | apply Change.refl
    | apply Change.ite ?_ ?_
    | extract_lets
    | apply Change.forL ?_ fun _ _ _ => ?_
    | apply Change.forN ?_ fun _ _ _ => ?_
    | apply Change.foldl ?_ fun _ _ _ => ?_
    | assumption
    | split
    | apply Change.setFabric ?_ (by with_unfolding_all rfl)

theorem State.modFabric_frame (s f) : Change [.fabric] s (State.modFabric s f) := by
  unfold State.modFabric
  with_reducible repeat' first
    | apply Change.refl
    | apply Change.ite ?_ ?_
    | extract_lets
    | apply Change.forL ?_ fun _ _ _ => ?_
    | apply Change.forN ?_ fun _ _ _ => ?_
    | apply Change.foldl ?_ fun _ _ _ => ?_
    | assumption
    | split
    | apply Change.setFabric ?_ (by with_unfolding_all rfl)

theorem State.putSetting_frame (s index sub v) : Change [.dict] s (State.putSetting s index sub v) := by
  unfold State.putSetting
  with_reducible repeat' first
    | apply Change.refl
    | apply Change.ite ?_ ?_
    | extract_lets
    | apply Change.forL ?_ fun _ _ _ => ?_
    | apply Change.forN ?_ fun _ _ _ => ?_
    | apply Change.foldl ?_ fun _ _ _ => ?_
    | assumption
    | split
    | apply Change.setDict ?_ (by with_unfolding_all rfl) (by apply Part.kept_dict; rfl)

theorem State.nextFree_frame (s) : Change [.free] s (State.nextFree s) := by
  unfold State.nextFree
  with_reducible repeat' first
    | apply Change.refl
    | apply Change.ite ?_ ?_
    | extract_lets
    | apply Change.forL ?_ fun _ _ _ => ?_
    | apply Change.forN ?_ fun _ _ _ => ?_
    | apply Change.foldl ?_ fun _ _ _ => ?_
    | assumption
    | split
    | apply Change.setFree ?_ (by with_unfolding_all rfl)

theorem State.emit_frame (s o) : Change [.out] s (State.emit s o) := Change.refl.setOut rfl (List.prefix_append ..)

theorem State.ring_frame (s m bits) : Change [.out, .mbox] s (State.ring s m bits) := by
  unfold State.ring
  with_reducible repeat' first
    | (apply partsIn.id; with_unfolding_all rfl)
    | apply Change.refl
    | apply Change.ite ?_ ?_
    | apply Change.tr ?_ (State.modMb_frame ..) ?_
    | apply Change.tr ?_ (State.emit_frame ..) ?_

theorem State.hostWrite_frame (s a b) : Change [.host] s (State.hostWrite s a b) :=
  Change.refl.setHost rfl fun h => cellsPut_wf _ _ h

theorem State.noticeTo_frame (s f code berth tally arg0 arg1 payload) :
    Change [.out, .host, .mbox] s (State.noticeTo s f code berth tally arg0 arg1 payload) := by
  unfold State.noticeTo
  with_reducible repeat' first
    | (apply partsIn.id; with_unfolding_all rfl)
    | apply Change.refl
    | extract_lets
    | apply Change.tr ?_ (State.ring_frame ..) ?_
    | apply Change.tr ?_ (State.modFn_frame ..) ?_
    | apply Change.tr ?_ (State.hostWrite_frame ..) ?_
    | split

theorem State.emits_frame (s l) : Change [.out] s (State.emits s l) := Change.refl.setOut rfl (List.prefix_append ..)

theorem State.moduleEvent_frame (s code arg0 arg1 payload) :
    Change [.out, .host, .mbox] s (State.moduleEvent s code arg0 arg1 payload) := by
  unfold State.moduleEvent
  with_reducible repeat' first
    | (apply partsIn.id; with_unfolding_all rfl)
    | apply Change.refl
    | apply Change.tr ?_ (State.emits_frame ..) ?_
    | apply Change.tr ?_ (State.emit_frame ..) ?_
    | apply Change.tr ?_ (State.noticeTo_frame ..) ?_

theorem State.berthEvent_frame (s b code arg0 arg1 payload) :
    Change [.out, .host, .mbox] s (State.berthEvent s b code arg0 arg1 payload) := by
  unfold State.berthEvent
  with_reducible repeat' first
    | (apply partsIn.id; with_unfolding_all rfl)
    | apply Change.refl
    | apply Change.tr ?_ (State.emits_frame ..) ?_
    | apply Change.tr ?_ (State.emit_frame ..) ?_
    | apply Change.tr ?_ (State.noticeTo_frame ..) ?_

theorem State.operatorEvent_frame (s b code arg0 arg1) :
    Change [.out, .host, .mbox] s (State.operatorEvent s b code arg0 arg1) := by
  unfold State.operatorEvent
  with_reducible repeat' first
    | (apply partsIn.id; with_unfolding_all rfl)
    | apply Change.refl
    | apply Change.tr ?_ (State.emits_frame ..) ?_
    | apply Change.tr ?_ (State.emit_frame ..) ?_
    | apply Change.tr ?_ (State.noticeTo_frame ..) ?_

theorem State.count_frame (s b i n) : Change [.berths] s (State.count s b i n) := by
  unfold State.count
  with_reducible repeat' first
    | (apply partsIn.id; with_unfolding_all rfl)
    | apply Change.refl
    | apply Change.ite ?_ ?_
    | apply Change.tr ?_ (State.modBerth_frame _ _ _ ?_) ?_
    | (apply BerthKept.of <;> rfl)

theorem State.poisonNew_frame (s reader pa) : Change [.out, .host, .mbox] s (State.poisonNew s reader pa) := by
  unfold State.poisonNew
  with_reducible repeat' first
    | (apply partsIn.id; with_unfolding_all rfl)
    | apply Change.refl
    | apply Change.tr ?_ (State.berthEvent_frame ..) ?_
    | apply Change.forL ?_ fun _ _ _ => ?_
    | assumption

theorem State.poisonRead_frame (s berth reader pa) :
    Change [.out, .berths, .host, .mbox] s (State.poisonRead s berth reader pa) := by
  unfold State.poisonRead
  extract_lets t
  have h : Change [.out, .berths, .host, .mbox] s t := by
    dsimp only [t]
    split
    · exact Change.refl.tr (State.count_frame _ _ _ _) rfl
    · exact Change.refl
  clear_value t
  refine Change.forL h fun b u j => Change.ite j ?_
  refine Change.tr ?_ (State.berthEvent_frame _ _ _ _ _ _) rfl
  exact j.tr (State.modBerth_frame _ _ _ (BerthKept.of rfl rfl)) rfl

theorem State.poisonReads_frame (s berth reader pa n) :
    Change [.out, .berths, .host, .mbox] s (State.poisonReads s berth reader pa n) := by
  unfold State.poisonReads
  with_reducible repeat' first
    | (apply partsIn.id; with_unfolding_all rfl)
    | apply Change.refl
    | apply Change.tr ?_ (State.poisonRead_frame ..) ?_
    | apply Change.forL ?_ fun _ _ _ => ?_
    | assumption

theorem State.memWrite_frame (s pa bs marked) : Change [.out, .mem, .host, .mbox] s (State.memWrite s pa bs marked) := by
  unfold State.memWrite
  extract_lets lost
  refine Change.forL (Change.refl.setMem rfl fun h => Store.ok_write _ _ _ h) fun p u j => ?_
  exact Change.forL j fun b v k => k.tr (State.berthEvent_frame _ _ _ _ _ _) rfl

theorem State.writeVirt_frame (s b va bs marked) : Change [.out, .mem, .host, .mbox] s (State.writeVirt s b va bs marked) := by
  unfold State.writeVirt
  split
  · exact Change.refl
  · exact Change.foldlP Prod.fst Change.refl fun a u h => h.tr (State.memWrite_frame _ _ _ _) rfl

theorem State.modKern_frame (s c f) : Change [.cores] s (State.modKern s c f) := by
  unfold State.modKern
  with_reducible repeat' first
    | (apply partsIn.id; with_unfolding_all rfl)
    | apply Change.refl
    | apply Change.tr ?_ (State.modCore_frame _ _ _ ?_) ?_
    | split
    | (apply CoreKept.of; rfl)

theorem State.setGroup_frame (s t g) : Change [.cores] s (State.setGroup s t g) := by
  unfold State.setGroup
  with_reducible repeat' first
    | (apply partsIn.id; with_unfolding_all rfl)
    | apply Change.refl
    | apply Change.tr ?_ (State.modKern_frame ..) ?_

theorem State.signal_frame (s c launch group tk) : Change [.cores] s (State.signal s c launch group tk) := by
  unfold State.signal
  with_reducible repeat' first
    | (apply partsIn.id; with_unfolding_all rfl)
    | apply Change.refl
    | apply Change.tr ?_ (State.modKern_frame ..) ?_
    | split

theorem State.pushFlit_frame (s p ftype body whole) : Change [.out, .fabric] s (State.pushFlit s p ftype body whole) := by
  unfold State.pushFlit
  with_reducible repeat' first
    | (apply partsIn.id; with_unfolding_all rfl)
    | apply Change.refl
    | apply Change.tr ?_ (State.emit_frame ..) ?_
    | apply Change.tr ?_ (State.modLink_frame ..) ?_

theorem State.pushFrame_frame (s p f) : Change [.out, .fabric] s (State.pushFrame s p f) := by
  unfold State.pushFrame
  with_reducible repeat' first
    | (apply partsIn.id; with_unfolding_all rfl)
    | apply Change.refl
    | apply Change.tr ?_ (State.modLink_frame ..) ?_
    | apply Change.tr ?_ (State.pushFlit_frame ..) ?_
    | apply Change.forL ?_ fun _ _ _ => ?_
    | assumption

theorem State.drainWaiting_frame (s p n) : Change [.out, .fabric] s (State.drainWaiting s p n) := by
  induction n generalizing s with
  | zero => exact Change.refl
  | succ n ih =>
    unfold State.drainWaiting
    split
    · exact Change.refl
    · exact ((Change.refl.tr (State.modLink_frame _ _ _) rfl).tr (State.pushFrame_frame _ _ _) rfl).tr (ih _) rfl

theorem State.sendOnPort_frame (s p f) : Change [.out, .fabric] s (State.sendOnPort s p f) := by
  unfold State.sendOnPort
  with_reducible repeat' first
    | (apply partsIn.id; with_unfolding_all rfl)
    | apply Change.refl
    | apply Change.tr ?_ (State.drainWaiting_frame ..) ?_
    | apply Change.tr ?_ (State.modLink_frame ..) ?_

theorem State.routeFrame_frame (s f from_) : ChangeQ [.out, .fabric] s (State.routeFrame s f from_) := by
  unfold State.routeFrame
  with_reducible repeat' first
    | (apply partsIn.id; with_unfolding_all rfl)
    | apply Change.refl
    | extract_lets
    | apply ChangeQ.mk ?_
    | apply ChangeQ.none
    | apply Change.tr ?_ (State.sendOnPort_frame ..) ?_
    | split

theorem State.ghostDrop_frame (s) : Change [.out, .host, .mbox, .fabric] s (State.ghostDrop s) := by
  unfold State.ghostDrop
  with_reducible repeat' first
    | (apply partsIn.id; with_unfolding_all rfl)
    | apply Change.refl
    | apply Change.tr ?_ (State.moduleEvent_frame ..) ?_
    | apply Change.tr ?_ (State.modFabric_frame ..) ?_

theorem State.sendNumbered_frame (s r kind tc job dstDie pa op payload) :
    Change [.out, .host, .mbox, .fabric] s (State.sendNumbered s r kind tc job dstDie pa op payload) := by
  unfold State.sendNumbered
  with_reducible repeat' first
    | (apply partsIn.id; with_unfolding_all rfl)
    | apply Change.refl
    | apply Change.ite ?_ ?_
    | apply Change.tr ?_ (State.modFabric_frame ..) ?_
    | apply Change.tr ?_ (State.ghostDrop_frame ..) ?_
    | apply ChangeQ.getD ?_ (State.routeFrame_frame ..) ?_ ?_

theorem State.sendRequest_frame (s r kind job pa op payload) :
    Change [.out, .host, .mbox, .fabric] s (State.sendRequest s r kind job pa op payload) := by
  unfold State.sendRequest
  with_reducible repeat' first
    | (apply partsIn.id; with_unfolding_all rfl)
    | apply Change.refl
    | apply Change.tr ?_ (State.sendNumbered_frame ..) ?_

theorem State.remoteStore_frame (s r pa bs) : Change [.out, .host, .mbox, .fabric] s (State.remoteStore s r pa bs) := by
  unfold State.remoteStore
  with_reducible repeat' first
    | (apply partsIn.id; with_unfolding_all rfl)
    | apply Change.refl
    | apply Change.tr ?_ (State.sendRequest_frame ..) ?_
    | apply Change.forL ?_ fun _ _ _ => ?_
    | assumption

theorem State.engineStore_frame (s r maps addr bs marked) :
    Change [.out, .mem, .cores, .host, .mbox, .fabric] s (State.engineStore s r maps addr bs marked) := by
  unfold State.engineStore
  with_reducible repeat' first
    | (apply partsIn.id; with_unfolding_all rfl)
    | apply Change.refl
    | apply Change.tr ?_ (State.modCore_frame _ _ _ ?_) ?_
    | apply Change.tr ?_ (State.memWrite_frame ..) ?_
    | apply Change.tr ?_ (State.remoteStore_frame ..) ?_
    | apply Change.foldl ?_ fun _ _ _ => ?_
    | assumption
    | split
    | (apply CoreKept.of; rfl)

theorem State.engineWrite_frame (s r maps loc addr bs marked) :
    Change [.out, .mem, .cores, .host, .mbox, .fabric] s (State.engineWrite s r maps loc addr bs marked) := by
  unfold State.engineWrite
  with_reducible repeat' first
    | (apply partsIn.id; with_unfolding_all rfl)
    | apply Change.refl
    | apply Change.ite ?_ ?_
    | apply Change.tr ?_ (State.modCore_frame _ _ _ ?_) ?_
    | apply Change.tr ?_ (State.engineStore_frame ..) ?_
    | (apply CoreKept.mk; intro h; exact Store.ok_write _ _ _ h)

theorem State.matrixDrain_frame (s c b e old fold) :
    Change [.out, .mem, .cores, .berths, .host, .mbox, .fabric] s (State.matrixDrain s c b e old fold) := by
  unfold State.matrixDrain
  with_reducible repeat' first
    | (apply partsIn.id; with_unfolding_all rfl)
    | apply Change.refl
    | apply Change.ite ?_ ?_
    | apply Change.tr ?_ (State.poisonRead_frame ..) ?_
    | apply Change.tr ?_ (State.engineWrite_frame ..) ?_
    | apply Change.tr ?_ (State.modCore_frame _ _ _ ?_) ?_
    | apply Change.tr ?_ (State.count_frame ..) ?_
    | apply Change.forL ?_ fun _ _ _ => ?_
    | assumption
    | (apply CoreKept.mk; intro h; exact Store.ok_write _ _ _ h)

theorem State.ldrRow_frame (s c b e v j) : Change [.out, .cores, .berths, .host, .mbox] s (State.ldrRow s c b e v j) := by
  unfold State.ldrRow
  extract_lets a bs lines t
  refine Change.tr ?_ (State.modCore_frame _ _ _ (CoreKept.of (putEls_lm ..))) rfl
  exact Change.forL Change.refl fun p u j => j.tr (State.poisonRead_frame _ _ _ _) rfl

theorem State.strRow_frame (s c b e v j) : Change [.out, .mem, .cores, .host, .mbox, .fabric] s (State.strRow s c b e v j) := by
  unfold State.strRow
  with_reducible repeat' first
    | (apply partsIn.id; with_unfolding_all rfl)
    | apply Change.refl
    | apply Change.tr ?_ (State.engineWrite_frame ..) ?_
    | apply Change.foldl ?_ fun _ _ _ => ?_
    | assumption

theorem State.tieRun_frame (s c b e n) : Change1 [.out, .mem, .cores, .berths, .host, .mbox, .fabric] s (State.tieRun s c b e n) := by
  unfold State.tieRun
  refine Change.foldlP Prod.fst Change.refl fun a u h => ?_
  refine Change.tr ?_ (State.engineStore_frame _ _ _ _ _ _) rfl
  exact Change.forL h fun p v j => j.tr (State.poisonRead_frame _ _ _ _) rfl

theorem State.vopRun_frame (s c b e rows) :
    Change1 [.out, .mem, .cores, .berths, .host, .mbox, .fabric] s (State.vopRun s c b e rows) := by
  unfold State.vopRun
  extract_lets v
  split
  · exact Change.forN Change.refl fun j u h => h.tr (State.ldrRow_frame _ _ _ _ _ _) rfl
  · exact Change.forN Change.refl fun j u h => h.tr (State.strRow_frame _ _ _ _ _ _) rfl
  · exact Change.refl.tr (State.setCore_frame _ _ _ (CoreKept.mk (kselRun_ok _ _ _))) rfl
  · exact (Change.refl.tr (State.setCore_frame _ _ _ (CoreKept.of (rstatRun_lm ..))) rfl).tr (State.count_frame _ _ _ _) rfl
  · exact Change.refl
  · exact Change.refl
  · exact (Change.refl.tr (State.setCore_frame _ _ _ (CoreKept.of (vReps_lm ..))) rfl).tr (State.count_frame _ _ _ _) rfl

theorem State.amaxPut_frame (s b i r wovf) : Change [.berths] s (State.amaxPut s b i r wovf) := by
  unfold State.amaxPut
  with_reducible repeat' first
    | (apply partsIn.id; with_unfolding_all rfl)
    | apply Change.refl
    | apply Change.tr ?_ (State.modBerth_frame _ _ _ ?_) ?_
    | apply Change.tr ?_ (State.count_frame ..) ?_
    | split
    | (apply BerthKept.of <;> rfl)

theorem State.runAmaxPut_frame (s c b e) : Change [.cores, .berths] s (State.runAmaxPut s c b e) := by
  unfold State.runAmaxPut
  with_reducible repeat' first
    | (apply partsIn.id; with_unfolding_all rfl)
    | apply Change.refl
    | apply Change.tr ?_ (State.amaxPut_frame ..) ?_
    | apply Change.tr ?_ (State.modCore_frame _ _ _ ?_) ?_
    | (apply CoreKept.of; rfl)

theorem State.vopPart_frame (s c b e n) : Change [.out, .mem, .cores, .berths, .host, .mbox, .fabric] s (State.vopPart s c b e n) := by
  unfold State.vopPart
  with_reducible repeat' first
    | (apply partsIn.id; with_unfolding_all rfl)
    | apply Change.refl
    | apply Change.ite ?_ ?_
    | apply Change.tr ?_ (State.runAmaxPut_frame ..) ?_
    | apply Change1.tr ?_ (State.tieRun_frame ..) ?_
    | apply Change1.tr ?_ (State.vopRun_frame ..) ?_
    | apply Change.tr ?_ (State.ldrRow_frame ..) ?_
    | apply Change.tr ?_ (State.strRow_frame ..) ?_

theorem State.arrayAbort_frame (s c b) :
    Change [.free, .out, .mem, .cores, .berths, .host, .mbox, .fabric] s (State.arrayAbort s c b) := by
  unfold State.arrayAbort
  with_reducible repeat' first
    | (apply partsIn.id; with_unfolding_all rfl)
    | apply Change.refl
    | apply Change.ite ?_ ?_
    | apply Change.tr ?_ (State.nextFree_frame ..) ?_
    | apply Change.tr ?_ (State.matrixDrain_frame ..) ?_
    | apply Change.tr ?_ (State.modCore_frame _ _ _ ?_) ?_
    | apply Change.forL ?_ fun _ _ _ => ?_
    | assumption
    | (apply CoreKept.of; rfl)

theorem State.vectorAbort_frame (s c b) :
    Change [.free, .out, .mem, .cores, .berths, .host, .mbox, .fabric] s (State.vectorAbort s c b) := by
  unfold State.vectorAbort
  with_reducible repeat' first
    | (apply partsIn.id; with_unfolding_all rfl)
    | apply Change.refl
    | apply Change.tr ?_ (State.vopPart_frame ..) ?_
    | apply Change.tr ?_ (State.nextFree_frame ..) ?_
    | apply Change.tr ?_ (State.modCore_frame _ _ _ ?_) ?_
    | apply Change.forL ?_ fun _ _ _ => ?_
    | assumption
    | (apply CoreKept.of; rfl)

theorem State.amaxDiscard_frame (s c b) : Change [.cores, .berths] s (State.amaxDiscard s c b) := by
  unfold State.amaxDiscard
  with_reducible repeat' first
    | (apply partsIn.id; with_unfolding_all rfl)
    | apply Change.refl
    | apply Change.tr ?_ (State.modCore_frame _ _ _ ?_) ?_
    | apply Change.tr ?_ (State.count_frame ..) ?_
    | (apply CoreKept.of; rfl)

theorem State.stopCore_frame (s launch c) :
    Change [.free, .out, .mem, .cores, .berths, .host, .mbox, .fabric] s (State.stopCore s launch c) := by
  unfold State.stopCore
  with_reducible repeat' first
    | (apply partsIn.id; with_unfolding_all rfl)
    | apply Change.refl
    | apply Change.tr ?_ (State.modKern_frame ..) ?_
    | apply Change.tr ?_ (State.amaxDiscard_frame ..) ?_
    | apply Change.tr ?_ (State.vectorAbort_frame ..) ?_
    | apply Change.tr ?_ (State.arrayAbort_frame ..) ?_
    | split

theorem State.abortLaunch_frame (s launch f) :
    Change [.free, .out, .mem, .cores, .berths, .host, .mbox, .launches, .fabric] s (State.abortLaunch s launch f) := by
  unfold State.abortLaunch
  with_reducible repeat' first
    | (apply partsIn.id; with_unfolding_all rfl)
    | apply Change.refl
    | apply Change.tr ?_ (State.modLaunch_frame ..) ?_
    | apply Change.tr ?_ (State.stopCore_frame ..) ?_
    | apply Change.forL ?_ fun _ _ _ => ?_
    | assumption
    | split

theorem State.abortGroup_frame (s t pc lanes code info detail) :
        Change [.free, .out, .mem, .cores, .berths, .host, .mbox, .launches, .fabric]
      s (State.abortGroup s t pc lanes code info detail) := by
  unfold State.abortGroup
  with_reducible repeat' first
    | (apply partsIn.id; with_unfolding_all rfl)
    | apply Change.refl
    | apply Change.tr ?_ (State.abortLaunch_frame ..) ?_
    | split

theorem State.stopLaunch_frame (s launch code) :
    Change [.free, .out, .mem, .cores, .berths, .host, .mbox, .launches, .fabric] s (State.stopLaunch s launch code) := by
  unfold State.stopLaunch
  with_reducible repeat' first
    | (apply partsIn.id; with_unfolding_all rfl)
    | apply Change.refl
    | apply Change.tr ?_ (State.abortLaunch_frame ..) ?_
    | split

theorem Change.issue {l s} {t :
    State} {a : At} {srcs : List Nat} {f : Issue → State} (h : Change l s t) (k : ∀ i, Change l s (f i)) :
    Change l s (t.issue a srcs f) := by
  unfold State.issue
  split
  · exact h
  · exact k _

theorem State.goto_frame (s t i g pc) :
    Change [.free, .out, .mem, .cores, .berths, .host, .mbox, .launches, .fabric] s (State.goto s t i g pc) := by
  unfold State.goto
  with_reducible repeat' first
    | (apply partsIn.id; with_unfolding_all rfl)
    | apply Change.refl
    | apply Change.ite ?_ ?_
    | apply Change.tr ?_ (State.setGroup_frame ..) ?_
    | apply Change.tr ?_ (State.abortGroup_frame ..) ?_

theorem State.next_frame (s t i g) :
    Change [.free, .out, .mem, .cores, .berths, .host, .mbox, .launches, .fabric] s (State.next s t i g) := by
  unfold State.next
  with_reducible repeat' first
    | (apply partsIn.id; with_unfolding_all rfl)
    | apply Change.refl
    | apply Change.tr ?_ (State.goto_frame ..) ?_

theorem State.arith_frame (s t op o f) :
    Change [.free, .out, .mem, .cores, .berths, .host, .mbox, .launches, .fabric] s (State.arith s t op o f) := by
  unfold State.arith
  with_reducible repeat' first
    | (apply partsIn.id; with_unfolding_all rfl)
    | apply Change.refl
    | apply Change.ite ?_ ?_
    | apply Change.issue ?_ fun _ => ?_
    | apply Change.tr ?_ (State.next_frame ..) ?_

end Sys2Proof.Machine
end

