-- ==== Sys2Proof/Laws/State.lean ====
section
/-!
SUPPORT. The fields of the state after each named update: those it leaves alone, and what reading back what it wrote gives.
-/

namespace Sys2Proof.Machine

variable (s : State)

@[simp] theorem State.setCore_pending (c : Nat) (k : CoreSt) : (s.setCore c k).pending = s.pending := rfl
@[simp] theorem State.setCore_free (c : Nat) (k : CoreSt) : (s.setCore c k).free = s.free := rfl
@[simp] theorem State.setCore_out (c : Nat) (k : CoreSt) : (s.setCore c k).out = s.out := rfl
@[simp] theorem State.setCore_mem (c : Nat) (k : CoreSt) : (s.setCore c k).mem = s.mem := rfl
@[simp] theorem State.setCore_chans (c : Nat) (k : CoreSt) : (s.setCore c k).chans = s.chans := rfl
@[simp] theorem State.setCore_groups (c : Nat) (k : CoreSt) : (s.setCore c k).groups = s.groups := rfl
@[simp] theorem State.setCore_hbm (c : Nat) (k : CoreSt) : (s.setCore c k).hbm = s.hbm := rfl
@[simp] theorem State.setCore_berths (c : Nat) (k : CoreSt) : (s.setCore c k).berths = s.berths := rfl
@[simp] theorem State.setCore_segs (c : Nat) (k : CoreSt) : (s.setCore c k).segs = s.segs := rfl
@[simp] theorem State.setCore_host (c : Nat) (k : CoreSt) : (s.setCore c k).host = s.host := rfl
@[simp] theorem State.setCore_mbox (c : Nat) (k : CoreSt) : (s.setCore c k).mbox = s.mbox := rfl
@[simp] theorem State.setCore_ctxs (c : Nat) (k : CoreSt) : (s.setCore c k).ctxs = s.ctxs := rfl
@[simp] theorem State.setCore_launches (c : Nat) (k : CoreSt) : (s.setCore c k).launches = s.launches := rfl
@[simp] theorem State.setCore_launchNext (c : Nat) (k : CoreSt) : (s.setCore c k).launchNext = s.launchNext := rfl
@[simp] theorem State.setCore_fabric (c : Nat) (k : CoreSt) : (s.setCore c k).fabric = s.fabric := rfl
@[simp] theorem State.setCore_dict (c : Nat) (k : CoreSt) : (s.setCore c k).dict = s.dict := rfl
@[simp] theorem State.setCore_fw (c : Nat) (k : CoreSt) : (s.setCore c k).fw = s.fw := rfl
@[simp] theorem State.setCore_defects (c : Nat) (k : CoreSt) : (s.setCore c k).defects = s.defects := rfl
@[simp] theorem State.setCore_streams (c : Nat) (k : CoreSt) : (s.setCore c k).streams = s.streams := rfl
@[simp] theorem State.setCore_basins (c : Nat) (k : CoreSt) : (s.setCore c k).basins = s.basins := rfl
@[simp] theorem State.setCore_snaps (c : Nat) (k : CoreSt) : (s.setCore c k).snaps = s.snaps := rfl
@[simp] theorem State.setCore_lk (c : Nat) (k : CoreSt) : (s.setCore c k).lk = s.lk := rfl
@[simp] theorem State.setCore_boot (c : Nat) (k : CoreSt) : (s.setCore c k).boot = s.boot := rfl
@[simp] theorem State.setCore_power (c : Nat) (k : CoreSt) : (s.setCore c k).power = s.power := rfl
@[simp] theorem State.setCore_inst (c : Nat) (k : CoreSt) : (s.setCore c k).inst = s.inst := rfl

@[simp] theorem State.setBerth_pending (b : Nat) (k : BerthSt) : (s.setBerth b k).pending = s.pending := rfl
@[simp] theorem State.setBerth_free (b : Nat) (k : BerthSt) : (s.setBerth b k).free = s.free := rfl
@[simp] theorem State.setBerth_out (b : Nat) (k : BerthSt) : (s.setBerth b k).out = s.out := rfl
@[simp] theorem State.setBerth_mem (b : Nat) (k : BerthSt) : (s.setBerth b k).mem = s.mem := rfl
@[simp] theorem State.setBerth_chans (b : Nat) (k : BerthSt) : (s.setBerth b k).chans = s.chans := rfl
@[simp] theorem State.setBerth_groups (b : Nat) (k : BerthSt) : (s.setBerth b k).groups = s.groups := rfl
@[simp] theorem State.setBerth_hbm (b : Nat) (k : BerthSt) : (s.setBerth b k).hbm = s.hbm := rfl
@[simp] theorem State.setBerth_cores (b : Nat) (k : BerthSt) : (s.setBerth b k).cores = s.cores := rfl
@[simp] theorem State.setBerth_segs (b : Nat) (k : BerthSt) : (s.setBerth b k).segs = s.segs := rfl
@[simp] theorem State.setBerth_host (b : Nat) (k : BerthSt) : (s.setBerth b k).host = s.host := rfl
@[simp] theorem State.setBerth_mbox (b : Nat) (k : BerthSt) : (s.setBerth b k).mbox = s.mbox := rfl
@[simp] theorem State.setBerth_ctxs (b : Nat) (k : BerthSt) : (s.setBerth b k).ctxs = s.ctxs := rfl
@[simp] theorem State.setBerth_launches (b : Nat) (k : BerthSt) : (s.setBerth b k).launches = s.launches := rfl
@[simp] theorem State.setBerth_launchNext (b : Nat) (k : BerthSt) : (s.setBerth b k).launchNext = s.launchNext := rfl
@[simp] theorem State.setBerth_fabric (b : Nat) (k : BerthSt) : (s.setBerth b k).fabric = s.fabric := rfl
@[simp] theorem State.setBerth_dict (b : Nat) (k : BerthSt) : (s.setBerth b k).dict = s.dict := rfl
@[simp] theorem State.setBerth_fw (b : Nat) (k : BerthSt) : (s.setBerth b k).fw = s.fw := rfl
@[simp] theorem State.setBerth_defects (b : Nat) (k : BerthSt) : (s.setBerth b k).defects = s.defects := rfl
@[simp] theorem State.setBerth_streams (b : Nat) (k : BerthSt) : (s.setBerth b k).streams = s.streams := rfl
@[simp] theorem State.setBerth_basins (b : Nat) (k : BerthSt) : (s.setBerth b k).basins = s.basins := rfl
@[simp] theorem State.setBerth_snaps (b : Nat) (k : BerthSt) : (s.setBerth b k).snaps = s.snaps := rfl
@[simp] theorem State.setBerth_lk (b : Nat) (k : BerthSt) : (s.setBerth b k).lk = s.lk := rfl
@[simp] theorem State.setBerth_boot (b : Nat) (k : BerthSt) : (s.setBerth b k).boot = s.boot := rfl
@[simp] theorem State.setBerth_power (b : Nat) (k : BerthSt) : (s.setBerth b k).power = s.power := rfl
@[simp] theorem State.setBerth_inst (b : Nat) (k : BerthSt) : (s.setBerth b k).inst = s.inst := rfl

@[simp] theorem State.modCore_pending (c : Nat) (f : CoreSt → CoreSt) : (s.modCore c f).pending = s.pending := rfl
@[simp] theorem State.modCore_free (c : Nat) (f : CoreSt → CoreSt) : (s.modCore c f).free = s.free := rfl
@[simp] theorem State.modCore_out (c : Nat) (f : CoreSt → CoreSt) : (s.modCore c f).out = s.out := rfl
@[simp] theorem State.modCore_mem (c : Nat) (f : CoreSt → CoreSt) : (s.modCore c f).mem = s.mem := rfl
@[simp] theorem State.modCore_chans (c : Nat) (f : CoreSt → CoreSt) : (s.modCore c f).chans = s.chans := rfl
@[simp] theorem State.modCore_groups (c : Nat) (f : CoreSt → CoreSt) : (s.modCore c f).groups = s.groups := rfl
@[simp] theorem State.modCore_hbm (c : Nat) (f : CoreSt → CoreSt) : (s.modCore c f).hbm = s.hbm := rfl
@[simp] theorem State.modCore_berths (c : Nat) (f : CoreSt → CoreSt) : (s.modCore c f).berths = s.berths := rfl
@[simp] theorem State.modCore_segs (c : Nat) (f : CoreSt → CoreSt) : (s.modCore c f).segs = s.segs := rfl
@[simp] theorem State.modCore_host (c : Nat) (f : CoreSt → CoreSt) : (s.modCore c f).host = s.host := rfl
@[simp] theorem State.modCore_mbox (c : Nat) (f : CoreSt → CoreSt) : (s.modCore c f).mbox = s.mbox := rfl
@[simp] theorem State.modCore_ctxs (c : Nat) (f : CoreSt → CoreSt) : (s.modCore c f).ctxs = s.ctxs := rfl
@[simp] theorem State.modCore_launches (c : Nat) (f : CoreSt → CoreSt) : (s.modCore c f).launches = s.launches := rfl
@[simp] theorem State.modCore_launchNext (c : Nat) (f : CoreSt → CoreSt) : (s.modCore c f).launchNext = s.launchNext := rfl
@[simp] theorem State.modCore_fabric (c : Nat) (f : CoreSt → CoreSt) : (s.modCore c f).fabric = s.fabric := rfl
@[simp] theorem State.modCore_dict (c : Nat) (f : CoreSt → CoreSt) : (s.modCore c f).dict = s.dict := rfl
@[simp] theorem State.modCore_fw (c : Nat) (f : CoreSt → CoreSt) : (s.modCore c f).fw = s.fw := rfl
@[simp] theorem State.modCore_defects (c : Nat) (f : CoreSt → CoreSt) : (s.modCore c f).defects = s.defects := rfl
@[simp] theorem State.modCore_streams (c : Nat) (f : CoreSt → CoreSt) : (s.modCore c f).streams = s.streams := rfl
@[simp] theorem State.modCore_basins (c : Nat) (f : CoreSt → CoreSt) : (s.modCore c f).basins = s.basins := rfl
@[simp] theorem State.modCore_snaps (c : Nat) (f : CoreSt → CoreSt) : (s.modCore c f).snaps = s.snaps := rfl
@[simp] theorem State.modCore_lk (c : Nat) (f : CoreSt → CoreSt) : (s.modCore c f).lk = s.lk := rfl
@[simp] theorem State.modCore_boot (c : Nat) (f : CoreSt → CoreSt) : (s.modCore c f).boot = s.boot := rfl
@[simp] theorem State.modCore_power (c : Nat) (f : CoreSt → CoreSt) : (s.modCore c f).power = s.power := rfl
@[simp] theorem State.modCore_inst (c : Nat) (f : CoreSt → CoreSt) : (s.modCore c f).inst = s.inst := rfl

@[simp] theorem State.modBerth_pending (b : Nat) (f : BerthSt → BerthSt) : (s.modBerth b f).pending = s.pending := rfl
@[simp] theorem State.modBerth_free (b : Nat) (f : BerthSt → BerthSt) : (s.modBerth b f).free = s.free := rfl
@[simp] theorem State.modBerth_out (b : Nat) (f : BerthSt → BerthSt) : (s.modBerth b f).out = s.out := rfl
@[simp] theorem State.modBerth_mem (b : Nat) (f : BerthSt → BerthSt) : (s.modBerth b f).mem = s.mem := rfl
@[simp] theorem State.modBerth_chans (b : Nat) (f : BerthSt → BerthSt) : (s.modBerth b f).chans = s.chans := rfl
@[simp] theorem State.modBerth_groups (b : Nat) (f : BerthSt → BerthSt) : (s.modBerth b f).groups = s.groups := rfl
@[simp] theorem State.modBerth_hbm (b : Nat) (f : BerthSt → BerthSt) : (s.modBerth b f).hbm = s.hbm := rfl
@[simp] theorem State.modBerth_cores (b : Nat) (f : BerthSt → BerthSt) : (s.modBerth b f).cores = s.cores := rfl
@[simp] theorem State.modBerth_segs (b : Nat) (f : BerthSt → BerthSt) : (s.modBerth b f).segs = s.segs := rfl
@[simp] theorem State.modBerth_host (b : Nat) (f : BerthSt → BerthSt) : (s.modBerth b f).host = s.host := rfl
@[simp] theorem State.modBerth_mbox (b : Nat) (f : BerthSt → BerthSt) : (s.modBerth b f).mbox = s.mbox := rfl
@[simp] theorem State.modBerth_ctxs (b : Nat) (f : BerthSt → BerthSt) : (s.modBerth b f).ctxs = s.ctxs := rfl
@[simp] theorem State.modBerth_launches (b : Nat) (f : BerthSt → BerthSt) : (s.modBerth b f).launches = s.launches := rfl
@[simp] theorem State.modBerth_launchNext (b : Nat) (f : BerthSt → BerthSt) : (s.modBerth b f).launchNext = s.launchNext := rfl
@[simp] theorem State.modBerth_fabric (b : Nat) (f : BerthSt → BerthSt) : (s.modBerth b f).fabric = s.fabric := rfl
@[simp] theorem State.modBerth_dict (b : Nat) (f : BerthSt → BerthSt) : (s.modBerth b f).dict = s.dict := rfl
@[simp] theorem State.modBerth_fw (b : Nat) (f : BerthSt → BerthSt) : (s.modBerth b f).fw = s.fw := rfl
@[simp] theorem State.modBerth_defects (b : Nat) (f : BerthSt → BerthSt) : (s.modBerth b f).defects = s.defects := rfl
@[simp] theorem State.modBerth_streams (b : Nat) (f : BerthSt → BerthSt) : (s.modBerth b f).streams = s.streams := rfl
@[simp] theorem State.modBerth_basins (b : Nat) (f : BerthSt → BerthSt) : (s.modBerth b f).basins = s.basins := rfl
@[simp] theorem State.modBerth_snaps (b : Nat) (f : BerthSt → BerthSt) : (s.modBerth b f).snaps = s.snaps := rfl
@[simp] theorem State.modBerth_lk (b : Nat) (f : BerthSt → BerthSt) : (s.modBerth b f).lk = s.lk := rfl
@[simp] theorem State.modBerth_boot (b : Nat) (f : BerthSt → BerthSt) : (s.modBerth b f).boot = s.boot := rfl
@[simp] theorem State.modBerth_power (b : Nat) (f : BerthSt → BerthSt) : (s.modBerth b f).power = s.power := rfl
@[simp] theorem State.modBerth_inst (b : Nat) (f : BerthSt → BerthSt) : (s.modBerth b f).inst = s.inst := rfl

@[simp] theorem State.modFn_pending (i : Nat) (f : FnSt → FnSt) : (s.modFn i f).pending = s.pending := rfl
@[simp] theorem State.modFn_free (i : Nat) (f : FnSt → FnSt) : (s.modFn i f).free = s.free := rfl
@[simp] theorem State.modFn_out (i : Nat) (f : FnSt → FnSt) : (s.modFn i f).out = s.out := rfl
@[simp] theorem State.modFn_mem (i : Nat) (f : FnSt → FnSt) : (s.modFn i f).mem = s.mem := rfl
@[simp] theorem State.modFn_chans (i : Nat) (f : FnSt → FnSt) : (s.modFn i f).chans = s.chans := rfl
@[simp] theorem State.modFn_groups (i : Nat) (f : FnSt → FnSt) : (s.modFn i f).groups = s.groups := rfl
@[simp] theorem State.modFn_hbm (i : Nat) (f : FnSt → FnSt) : (s.modFn i f).hbm = s.hbm := rfl
@[simp] theorem State.modFn_cores (i : Nat) (f : FnSt → FnSt) : (s.modFn i f).cores = s.cores := rfl
@[simp] theorem State.modFn_berths (i : Nat) (f : FnSt → FnSt) : (s.modFn i f).berths = s.berths := rfl
@[simp] theorem State.modFn_segs (i : Nat) (f : FnSt → FnSt) : (s.modFn i f).segs = s.segs := rfl
@[simp] theorem State.modFn_mbox (i : Nat) (f : FnSt → FnSt) : (s.modFn i f).mbox = s.mbox := rfl
@[simp] theorem State.modFn_ctxs (i : Nat) (f : FnSt → FnSt) : (s.modFn i f).ctxs = s.ctxs := rfl
@[simp] theorem State.modFn_launches (i : Nat) (f : FnSt → FnSt) : (s.modFn i f).launches = s.launches := rfl
@[simp] theorem State.modFn_launchNext (i : Nat) (f : FnSt → FnSt) : (s.modFn i f).launchNext = s.launchNext := rfl
@[simp] theorem State.modFn_fabric (i : Nat) (f : FnSt → FnSt) : (s.modFn i f).fabric = s.fabric := rfl
@[simp] theorem State.modFn_dict (i : Nat) (f : FnSt → FnSt) : (s.modFn i f).dict = s.dict := rfl
@[simp] theorem State.modFn_fw (i : Nat) (f : FnSt → FnSt) : (s.modFn i f).fw = s.fw := rfl
@[simp] theorem State.modFn_defects (i : Nat) (f : FnSt → FnSt) : (s.modFn i f).defects = s.defects := rfl
@[simp] theorem State.modFn_streams (i : Nat) (f : FnSt → FnSt) : (s.modFn i f).streams = s.streams := rfl
@[simp] theorem State.modFn_basins (i : Nat) (f : FnSt → FnSt) : (s.modFn i f).basins = s.basins := rfl
@[simp] theorem State.modFn_snaps (i : Nat) (f : FnSt → FnSt) : (s.modFn i f).snaps = s.snaps := rfl
@[simp] theorem State.modFn_lk (i : Nat) (f : FnSt → FnSt) : (s.modFn i f).lk = s.lk := rfl
@[simp] theorem State.modFn_boot (i : Nat) (f : FnSt → FnSt) : (s.modFn i f).boot = s.boot := rfl
@[simp] theorem State.modFn_power (i : Nat) (f : FnSt → FnSt) : (s.modFn i f).power = s.power := rfl
@[simp] theorem State.modFn_inst (i : Nat) (f : FnSt → FnSt) : (s.modFn i f).inst = s.inst := rfl

@[simp] theorem State.modMb_pending (m : Nat) (f : MboxSt → MboxSt) : (s.modMb m f).pending = s.pending := rfl
@[simp] theorem State.modMb_free (m : Nat) (f : MboxSt → MboxSt) : (s.modMb m f).free = s.free := rfl
@[simp] theorem State.modMb_out (m : Nat) (f : MboxSt → MboxSt) : (s.modMb m f).out = s.out := rfl
@[simp] theorem State.modMb_mem (m : Nat) (f : MboxSt → MboxSt) : (s.modMb m f).mem = s.mem := rfl
@[simp] theorem State.modMb_chans (m : Nat) (f : MboxSt → MboxSt) : (s.modMb m f).chans = s.chans := rfl
@[simp] theorem State.modMb_groups (m : Nat) (f : MboxSt → MboxSt) : (s.modMb m f).groups = s.groups := rfl
@[simp] theorem State.modMb_hbm (m : Nat) (f : MboxSt → MboxSt) : (s.modMb m f).hbm = s.hbm := rfl
@[simp] theorem State.modMb_cores (m : Nat) (f : MboxSt → MboxSt) : (s.modMb m f).cores = s.cores := rfl
@[simp] theorem State.modMb_berths (m : Nat) (f : MboxSt → MboxSt) : (s.modMb m f).berths = s.berths := rfl
@[simp] theorem State.modMb_segs (m : Nat) (f : MboxSt → MboxSt) : (s.modMb m f).segs = s.segs := rfl
@[simp] theorem State.modMb_host (m : Nat) (f : MboxSt → MboxSt) : (s.modMb m f).host = s.host := rfl
@[simp] theorem State.modMb_ctxs (m : Nat) (f : MboxSt → MboxSt) : (s.modMb m f).ctxs = s.ctxs := rfl
@[simp] theorem State.modMb_launches (m : Nat) (f : MboxSt → MboxSt) : (s.modMb m f).launches = s.launches := rfl
@[simp] theorem State.modMb_launchNext (m : Nat) (f : MboxSt → MboxSt) : (s.modMb m f).launchNext = s.launchNext := rfl
@[simp] theorem State.modMb_fabric (m : Nat) (f : MboxSt → MboxSt) : (s.modMb m f).fabric = s.fabric := rfl
@[simp] theorem State.modMb_dict (m : Nat) (f : MboxSt → MboxSt) : (s.modMb m f).dict = s.dict := rfl
@[simp] theorem State.modMb_fw (m : Nat) (f : MboxSt → MboxSt) : (s.modMb m f).fw = s.fw := rfl
@[simp] theorem State.modMb_defects (m : Nat) (f : MboxSt → MboxSt) : (s.modMb m f).defects = s.defects := rfl
@[simp] theorem State.modMb_streams (m : Nat) (f : MboxSt → MboxSt) : (s.modMb m f).streams = s.streams := rfl
@[simp] theorem State.modMb_basins (m : Nat) (f : MboxSt → MboxSt) : (s.modMb m f).basins = s.basins := rfl
@[simp] theorem State.modMb_snaps (m : Nat) (f : MboxSt → MboxSt) : (s.modMb m f).snaps = s.snaps := rfl
@[simp] theorem State.modMb_lk (m : Nat) (f : MboxSt → MboxSt) : (s.modMb m f).lk = s.lk := rfl
@[simp] theorem State.modMb_boot (m : Nat) (f : MboxSt → MboxSt) : (s.modMb m f).boot = s.boot := rfl
@[simp] theorem State.modMb_power (m : Nat) (f : MboxSt → MboxSt) : (s.modMb m f).power = s.power := rfl
@[simp] theorem State.modMb_inst (m : Nat) (f : MboxSt → MboxSt) : (s.modMb m f).inst = s.inst := rfl

@[simp] theorem State.modChan_pending (n l : Nat) (f : ChanSt → ChanSt) : (s.modChan n l f).pending = s.pending := rfl
@[simp] theorem State.modChan_free (n l : Nat) (f : ChanSt → ChanSt) : (s.modChan n l f).free = s.free := rfl
@[simp] theorem State.modChan_out (n l : Nat) (f : ChanSt → ChanSt) : (s.modChan n l f).out = s.out := rfl
@[simp] theorem State.modChan_mem (n l : Nat) (f : ChanSt → ChanSt) : (s.modChan n l f).mem = s.mem := rfl
@[simp] theorem State.modChan_groups (n l : Nat) (f : ChanSt → ChanSt) : (s.modChan n l f).groups = s.groups := rfl
@[simp] theorem State.modChan_hbm (n l : Nat) (f : ChanSt → ChanSt) : (s.modChan n l f).hbm = s.hbm := rfl
@[simp] theorem State.modChan_cores (n l : Nat) (f : ChanSt → ChanSt) : (s.modChan n l f).cores = s.cores := rfl
@[simp] theorem State.modChan_berths (n l : Nat) (f : ChanSt → ChanSt) : (s.modChan n l f).berths = s.berths := rfl
@[simp] theorem State.modChan_segs (n l : Nat) (f : ChanSt → ChanSt) : (s.modChan n l f).segs = s.segs := rfl
@[simp] theorem State.modChan_host (n l : Nat) (f : ChanSt → ChanSt) : (s.modChan n l f).host = s.host := rfl
@[simp] theorem State.modChan_mbox (n l : Nat) (f : ChanSt → ChanSt) : (s.modChan n l f).mbox = s.mbox := rfl
@[simp] theorem State.modChan_ctxs (n l : Nat) (f : ChanSt → ChanSt) : (s.modChan n l f).ctxs = s.ctxs := rfl
@[simp] theorem State.modChan_launches (n l : Nat) (f : ChanSt → ChanSt) : (s.modChan n l f).launches = s.launches := rfl
@[simp] theorem State.modChan_launchNext (n l : Nat) (f : ChanSt → ChanSt) : (s.modChan n l f).launchNext = s.launchNext := rfl
@[simp] theorem State.modChan_fabric (n l : Nat) (f : ChanSt → ChanSt) : (s.modChan n l f).fabric = s.fabric := rfl
@[simp] theorem State.modChan_dict (n l : Nat) (f : ChanSt → ChanSt) : (s.modChan n l f).dict = s.dict := rfl
@[simp] theorem State.modChan_fw (n l : Nat) (f : ChanSt → ChanSt) : (s.modChan n l f).fw = s.fw := rfl
@[simp] theorem State.modChan_defects (n l : Nat) (f : ChanSt → ChanSt) : (s.modChan n l f).defects = s.defects := rfl
@[simp] theorem State.modChan_streams (n l : Nat) (f : ChanSt → ChanSt) : (s.modChan n l f).streams = s.streams := rfl
@[simp] theorem State.modChan_basins (n l : Nat) (f : ChanSt → ChanSt) : (s.modChan n l f).basins = s.basins := rfl
@[simp] theorem State.modChan_snaps (n l : Nat) (f : ChanSt → ChanSt) : (s.modChan n l f).snaps = s.snaps := rfl
@[simp] theorem State.modChan_lk (n l : Nat) (f : ChanSt → ChanSt) : (s.modChan n l f).lk = s.lk := rfl
@[simp] theorem State.modChan_boot (n l : Nat) (f : ChanSt → ChanSt) : (s.modChan n l f).boot = s.boot := rfl
@[simp] theorem State.modChan_power (n l : Nat) (f : ChanSt → ChanSt) : (s.modChan n l f).power = s.power := rfl
@[simp] theorem State.modChan_inst (n l : Nat) (f : ChanSt → ChanSt) : (s.modChan n l f).inst = s.inst := rfl

@[simp] theorem State.modStack_pending (n : Nat) (f : StackSt → StackSt) : (s.modStack n f).pending = s.pending := rfl
@[simp] theorem State.modStack_free (n : Nat) (f : StackSt → StackSt) : (s.modStack n f).free = s.free := rfl
@[simp] theorem State.modStack_out (n : Nat) (f : StackSt → StackSt) : (s.modStack n f).out = s.out := rfl
@[simp] theorem State.modStack_mem (n : Nat) (f : StackSt → StackSt) : (s.modStack n f).mem = s.mem := rfl
@[simp] theorem State.modStack_chans (n : Nat) (f : StackSt → StackSt) : (s.modStack n f).chans = s.chans := rfl
@[simp] theorem State.modStack_groups (n : Nat) (f : StackSt → StackSt) : (s.modStack n f).groups = s.groups := rfl
@[simp] theorem State.modStack_cores (n : Nat) (f : StackSt → StackSt) : (s.modStack n f).cores = s.cores := rfl
@[simp] theorem State.modStack_berths (n : Nat) (f : StackSt → StackSt) : (s.modStack n f).berths = s.berths := rfl
@[simp] theorem State.modStack_segs (n : Nat) (f : StackSt → StackSt) : (s.modStack n f).segs = s.segs := rfl
@[simp] theorem State.modStack_host (n : Nat) (f : StackSt → StackSt) : (s.modStack n f).host = s.host := rfl
@[simp] theorem State.modStack_mbox (n : Nat) (f : StackSt → StackSt) : (s.modStack n f).mbox = s.mbox := rfl
@[simp] theorem State.modStack_ctxs (n : Nat) (f : StackSt → StackSt) : (s.modStack n f).ctxs = s.ctxs := rfl
@[simp] theorem State.modStack_launches (n : Nat) (f : StackSt → StackSt) : (s.modStack n f).launches = s.launches := rfl
@[simp] theorem State.modStack_launchNext (n : Nat) (f : StackSt → StackSt) : (s.modStack n f).launchNext = s.launchNext := rfl
@[simp] theorem State.modStack_fabric (n : Nat) (f : StackSt → StackSt) : (s.modStack n f).fabric = s.fabric := rfl
@[simp] theorem State.modStack_dict (n : Nat) (f : StackSt → StackSt) : (s.modStack n f).dict = s.dict := rfl
@[simp] theorem State.modStack_fw (n : Nat) (f : StackSt → StackSt) : (s.modStack n f).fw = s.fw := rfl
@[simp] theorem State.modStack_defects (n : Nat) (f : StackSt → StackSt) : (s.modStack n f).defects = s.defects := rfl
@[simp] theorem State.modStack_streams (n : Nat) (f : StackSt → StackSt) : (s.modStack n f).streams = s.streams := rfl
@[simp] theorem State.modStack_basins (n : Nat) (f : StackSt → StackSt) : (s.modStack n f).basins = s.basins := rfl
@[simp] theorem State.modStack_snaps (n : Nat) (f : StackSt → StackSt) : (s.modStack n f).snaps = s.snaps := rfl
@[simp] theorem State.modStack_lk (n : Nat) (f : StackSt → StackSt) : (s.modStack n f).lk = s.lk := rfl
@[simp] theorem State.modStack_boot (n : Nat) (f : StackSt → StackSt) : (s.modStack n f).boot = s.boot := rfl
@[simp] theorem State.modStack_power (n : Nat) (f : StackSt → StackSt) : (s.modStack n f).power = s.power := rfl
@[simp] theorem State.modStack_inst (n : Nat) (f : StackSt → StackSt) : (s.modStack n f).inst = s.inst := rfl

@[simp] theorem State.modSeg_pending (k : Nat) (f : SegSt → SegSt) : (s.modSeg k f).pending = s.pending := rfl
@[simp] theorem State.modSeg_free (k : Nat) (f : SegSt → SegSt) : (s.modSeg k f).free = s.free := rfl
@[simp] theorem State.modSeg_out (k : Nat) (f : SegSt → SegSt) : (s.modSeg k f).out = s.out := rfl
@[simp] theorem State.modSeg_mem (k : Nat) (f : SegSt → SegSt) : (s.modSeg k f).mem = s.mem := rfl
@[simp] theorem State.modSeg_chans (k : Nat) (f : SegSt → SegSt) : (s.modSeg k f).chans = s.chans := rfl
@[simp] theorem State.modSeg_groups (k : Nat) (f : SegSt → SegSt) : (s.modSeg k f).groups = s.groups := rfl
@[simp] theorem State.modSeg_hbm (k : Nat) (f : SegSt → SegSt) : (s.modSeg k f).hbm = s.hbm := rfl
@[simp] theorem State.modSeg_cores (k : Nat) (f : SegSt → SegSt) : (s.modSeg k f).cores = s.cores := rfl
@[simp] theorem State.modSeg_berths (k : Nat) (f : SegSt → SegSt) : (s.modSeg k f).berths = s.berths := rfl
@[simp] theorem State.modSeg_host (k : Nat) (f : SegSt → SegSt) : (s.modSeg k f).host = s.host := rfl
@[simp] theorem State.modSeg_mbox (k : Nat) (f : SegSt → SegSt) : (s.modSeg k f).mbox = s.mbox := rfl
@[simp] theorem State.modSeg_ctxs (k : Nat) (f : SegSt → SegSt) : (s.modSeg k f).ctxs = s.ctxs := rfl
@[simp] theorem State.modSeg_launches (k : Nat) (f : SegSt → SegSt) : (s.modSeg k f).launches = s.launches := rfl
@[simp] theorem State.modSeg_launchNext (k : Nat) (f : SegSt → SegSt) : (s.modSeg k f).launchNext = s.launchNext := rfl
@[simp] theorem State.modSeg_fabric (k : Nat) (f : SegSt → SegSt) : (s.modSeg k f).fabric = s.fabric := rfl
@[simp] theorem State.modSeg_dict (k : Nat) (f : SegSt → SegSt) : (s.modSeg k f).dict = s.dict := rfl
@[simp] theorem State.modSeg_fw (k : Nat) (f : SegSt → SegSt) : (s.modSeg k f).fw = s.fw := rfl
@[simp] theorem State.modSeg_defects (k : Nat) (f : SegSt → SegSt) : (s.modSeg k f).defects = s.defects := rfl
@[simp] theorem State.modSeg_streams (k : Nat) (f : SegSt → SegSt) : (s.modSeg k f).streams = s.streams := rfl
@[simp] theorem State.modSeg_basins (k : Nat) (f : SegSt → SegSt) : (s.modSeg k f).basins = s.basins := rfl
@[simp] theorem State.modSeg_snaps (k : Nat) (f : SegSt → SegSt) : (s.modSeg k f).snaps = s.snaps := rfl
@[simp] theorem State.modSeg_lk (k : Nat) (f : SegSt → SegSt) : (s.modSeg k f).lk = s.lk := rfl
@[simp] theorem State.modSeg_boot (k : Nat) (f : SegSt → SegSt) : (s.modSeg k f).boot = s.boot := rfl
@[simp] theorem State.modSeg_power (k : Nat) (f : SegSt → SegSt) : (s.modSeg k f).power = s.power := rfl
@[simp] theorem State.modSeg_inst (k : Nat) (f : SegSt → SegSt) : (s.modSeg k f).inst = s.inst := rfl

@[simp] theorem State.modLink_pending (p : Nat) (f : LinkSt → LinkSt) : (s.modLink p f).pending = s.pending := rfl
@[simp] theorem State.modLink_free (p : Nat) (f : LinkSt → LinkSt) : (s.modLink p f).free = s.free := rfl
@[simp] theorem State.modLink_out (p : Nat) (f : LinkSt → LinkSt) : (s.modLink p f).out = s.out := rfl
@[simp] theorem State.modLink_mem (p : Nat) (f : LinkSt → LinkSt) : (s.modLink p f).mem = s.mem := rfl
@[simp] theorem State.modLink_chans (p : Nat) (f : LinkSt → LinkSt) : (s.modLink p f).chans = s.chans := rfl
@[simp] theorem State.modLink_groups (p : Nat) (f : LinkSt → LinkSt) : (s.modLink p f).groups = s.groups := rfl
@[simp] theorem State.modLink_hbm (p : Nat) (f : LinkSt → LinkSt) : (s.modLink p f).hbm = s.hbm := rfl
@[simp] theorem State.modLink_cores (p : Nat) (f : LinkSt → LinkSt) : (s.modLink p f).cores = s.cores := rfl
@[simp] theorem State.modLink_berths (p : Nat) (f : LinkSt → LinkSt) : (s.modLink p f).berths = s.berths := rfl
@[simp] theorem State.modLink_segs (p : Nat) (f : LinkSt → LinkSt) : (s.modLink p f).segs = s.segs := rfl
@[simp] theorem State.modLink_host (p : Nat) (f : LinkSt → LinkSt) : (s.modLink p f).host = s.host := rfl
@[simp] theorem State.modLink_mbox (p : Nat) (f : LinkSt → LinkSt) : (s.modLink p f).mbox = s.mbox := rfl
@[simp] theorem State.modLink_ctxs (p : Nat) (f : LinkSt → LinkSt) : (s.modLink p f).ctxs = s.ctxs := rfl
@[simp] theorem State.modLink_launches (p : Nat) (f : LinkSt → LinkSt) : (s.modLink p f).launches = s.launches := rfl
@[simp] theorem State.modLink_launchNext (p : Nat) (f : LinkSt → LinkSt) : (s.modLink p f).launchNext = s.launchNext := rfl
@[simp] theorem State.modLink_dict (p : Nat) (f : LinkSt → LinkSt) : (s.modLink p f).dict = s.dict := rfl
@[simp] theorem State.modLink_fw (p : Nat) (f : LinkSt → LinkSt) : (s.modLink p f).fw = s.fw := rfl
@[simp] theorem State.modLink_defects (p : Nat) (f : LinkSt → LinkSt) : (s.modLink p f).defects = s.defects := rfl
@[simp] theorem State.modLink_streams (p : Nat) (f : LinkSt → LinkSt) : (s.modLink p f).streams = s.streams := rfl
@[simp] theorem State.modLink_basins (p : Nat) (f : LinkSt → LinkSt) : (s.modLink p f).basins = s.basins := rfl
@[simp] theorem State.modLink_snaps (p : Nat) (f : LinkSt → LinkSt) : (s.modLink p f).snaps = s.snaps := rfl
@[simp] theorem State.modLink_lk (p : Nat) (f : LinkSt → LinkSt) : (s.modLink p f).lk = s.lk := rfl
@[simp] theorem State.modLink_boot (p : Nat) (f : LinkSt → LinkSt) : (s.modLink p f).boot = s.boot := rfl
@[simp] theorem State.modLink_power (p : Nat) (f : LinkSt → LinkSt) : (s.modLink p f).power = s.power := rfl
@[simp] theorem State.modLink_inst (p : Nat) (f : LinkSt → LinkSt) : (s.modLink p f).inst = s.inst := rfl

@[simp] theorem State.modExch_pending (d : Nat) (f : ExchSt → ExchSt) : (s.modExch d f).pending = s.pending := rfl
@[simp] theorem State.modExch_free (d : Nat) (f : ExchSt → ExchSt) : (s.modExch d f).free = s.free := rfl
@[simp] theorem State.modExch_out (d : Nat) (f : ExchSt → ExchSt) : (s.modExch d f).out = s.out := rfl
@[simp] theorem State.modExch_mem (d : Nat) (f : ExchSt → ExchSt) : (s.modExch d f).mem = s.mem := rfl
@[simp] theorem State.modExch_chans (d : Nat) (f : ExchSt → ExchSt) : (s.modExch d f).chans = s.chans := rfl
@[simp] theorem State.modExch_groups (d : Nat) (f : ExchSt → ExchSt) : (s.modExch d f).groups = s.groups := rfl
@[simp] theorem State.modExch_hbm (d : Nat) (f : ExchSt → ExchSt) : (s.modExch d f).hbm = s.hbm := rfl
@[simp] theorem State.modExch_cores (d : Nat) (f : ExchSt → ExchSt) : (s.modExch d f).cores = s.cores := rfl
@[simp] theorem State.modExch_berths (d : Nat) (f : ExchSt → ExchSt) : (s.modExch d f).berths = s.berths := rfl
@[simp] theorem State.modExch_segs (d : Nat) (f : ExchSt → ExchSt) : (s.modExch d f).segs = s.segs := rfl
@[simp] theorem State.modExch_host (d : Nat) (f : ExchSt → ExchSt) : (s.modExch d f).host = s.host := rfl
@[simp] theorem State.modExch_mbox (d : Nat) (f : ExchSt → ExchSt) : (s.modExch d f).mbox = s.mbox := rfl
@[simp] theorem State.modExch_ctxs (d : Nat) (f : ExchSt → ExchSt) : (s.modExch d f).ctxs = s.ctxs := rfl
@[simp] theorem State.modExch_launches (d : Nat) (f : ExchSt → ExchSt) : (s.modExch d f).launches = s.launches := rfl
@[simp] theorem State.modExch_launchNext (d : Nat) (f : ExchSt → ExchSt) : (s.modExch d f).launchNext = s.launchNext := rfl
@[simp] theorem State.modExch_dict (d : Nat) (f : ExchSt → ExchSt) : (s.modExch d f).dict = s.dict := rfl
@[simp] theorem State.modExch_fw (d : Nat) (f : ExchSt → ExchSt) : (s.modExch d f).fw = s.fw := rfl
@[simp] theorem State.modExch_defects (d : Nat) (f : ExchSt → ExchSt) : (s.modExch d f).defects = s.defects := rfl
@[simp] theorem State.modExch_streams (d : Nat) (f : ExchSt → ExchSt) : (s.modExch d f).streams = s.streams := rfl
@[simp] theorem State.modExch_basins (d : Nat) (f : ExchSt → ExchSt) : (s.modExch d f).basins = s.basins := rfl
@[simp] theorem State.modExch_snaps (d : Nat) (f : ExchSt → ExchSt) : (s.modExch d f).snaps = s.snaps := rfl
@[simp] theorem State.modExch_lk (d : Nat) (f : ExchSt → ExchSt) : (s.modExch d f).lk = s.lk := rfl
@[simp] theorem State.modExch_boot (d : Nat) (f : ExchSt → ExchSt) : (s.modExch d f).boot = s.boot := rfl
@[simp] theorem State.modExch_power (d : Nat) (f : ExchSt → ExchSt) : (s.modExch d f).power = s.power := rfl
@[simp] theorem State.modExch_inst (d : Nat) (f : ExchSt → ExchSt) : (s.modExch d f).inst = s.inst := rfl

@[simp] theorem State.modFabric_pending (f : FabricSt → FabricSt) : (s.modFabric f).pending = s.pending := rfl
@[simp] theorem State.modFabric_free (f : FabricSt → FabricSt) : (s.modFabric f).free = s.free := rfl
@[simp] theorem State.modFabric_out (f : FabricSt → FabricSt) : (s.modFabric f).out = s.out := rfl
@[simp] theorem State.modFabric_mem (f : FabricSt → FabricSt) : (s.modFabric f).mem = s.mem := rfl
@[simp] theorem State.modFabric_chans (f : FabricSt → FabricSt) : (s.modFabric f).chans = s.chans := rfl
@[simp] theorem State.modFabric_groups (f : FabricSt → FabricSt) : (s.modFabric f).groups = s.groups := rfl
@[simp] theorem State.modFabric_hbm (f : FabricSt → FabricSt) : (s.modFabric f).hbm = s.hbm := rfl
@[simp] theorem State.modFabric_cores (f : FabricSt → FabricSt) : (s.modFabric f).cores = s.cores := rfl
@[simp] theorem State.modFabric_berths (f : FabricSt → FabricSt) : (s.modFabric f).berths = s.berths := rfl
@[simp] theorem State.modFabric_segs (f : FabricSt → FabricSt) : (s.modFabric f).segs = s.segs := rfl
@[simp] theorem State.modFabric_host (f : FabricSt → FabricSt) : (s.modFabric f).host = s.host := rfl
@[simp] theorem State.modFabric_mbox (f : FabricSt → FabricSt) : (s.modFabric f).mbox = s.mbox := rfl
@[simp] theorem State.modFabric_ctxs (f : FabricSt → FabricSt) : (s.modFabric f).ctxs = s.ctxs := rfl
@[simp] theorem State.modFabric_launches (f : FabricSt → FabricSt) : (s.modFabric f).launches = s.launches := rfl
@[simp] theorem State.modFabric_launchNext (f : FabricSt → FabricSt) : (s.modFabric f).launchNext = s.launchNext := rfl
@[simp] theorem State.modFabric_dict (f : FabricSt → FabricSt) : (s.modFabric f).dict = s.dict := rfl
@[simp] theorem State.modFabric_fw (f : FabricSt → FabricSt) : (s.modFabric f).fw = s.fw := rfl
@[simp] theorem State.modFabric_defects (f : FabricSt → FabricSt) : (s.modFabric f).defects = s.defects := rfl
@[simp] theorem State.modFabric_streams (f : FabricSt → FabricSt) : (s.modFabric f).streams = s.streams := rfl
@[simp] theorem State.modFabric_basins (f : FabricSt → FabricSt) : (s.modFabric f).basins = s.basins := rfl
@[simp] theorem State.modFabric_snaps (f : FabricSt → FabricSt) : (s.modFabric f).snaps = s.snaps := rfl
@[simp] theorem State.modFabric_lk (f : FabricSt → FabricSt) : (s.modFabric f).lk = s.lk := rfl
@[simp] theorem State.modFabric_boot (f : FabricSt → FabricSt) : (s.modFabric f).boot = s.boot := rfl
@[simp] theorem State.modFabric_power (f : FabricSt → FabricSt) : (s.modFabric f).power = s.power := rfl
@[simp] theorem State.modFabric_inst (f : FabricSt → FabricSt) : (s.modFabric f).inst = s.inst := rfl

@[simp] theorem State.putSetting_pending (i b v : Nat) : (s.putSetting i b v).pending = s.pending := rfl
@[simp] theorem State.putSetting_free (i b v : Nat) : (s.putSetting i b v).free = s.free := rfl
@[simp] theorem State.putSetting_out (i b v : Nat) : (s.putSetting i b v).out = s.out := rfl
@[simp] theorem State.putSetting_mem (i b v : Nat) : (s.putSetting i b v).mem = s.mem := rfl
@[simp] theorem State.putSetting_chans (i b v : Nat) : (s.putSetting i b v).chans = s.chans := rfl
@[simp] theorem State.putSetting_groups (i b v : Nat) : (s.putSetting i b v).groups = s.groups := rfl
@[simp] theorem State.putSetting_hbm (i b v : Nat) : (s.putSetting i b v).hbm = s.hbm := rfl
@[simp] theorem State.putSetting_cores (i b v : Nat) : (s.putSetting i b v).cores = s.cores := rfl
@[simp] theorem State.putSetting_berths (i b v : Nat) : (s.putSetting i b v).berths = s.berths := rfl
@[simp] theorem State.putSetting_segs (i b v : Nat) : (s.putSetting i b v).segs = s.segs := rfl
@[simp] theorem State.putSetting_host (i b v : Nat) : (s.putSetting i b v).host = s.host := rfl
@[simp] theorem State.putSetting_mbox (i b v : Nat) : (s.putSetting i b v).mbox = s.mbox := rfl
@[simp] theorem State.putSetting_ctxs (i b v : Nat) : (s.putSetting i b v).ctxs = s.ctxs := rfl
@[simp] theorem State.putSetting_launches (i b v : Nat) : (s.putSetting i b v).launches = s.launches := rfl
@[simp] theorem State.putSetting_launchNext (i b v : Nat) : (s.putSetting i b v).launchNext = s.launchNext := rfl
@[simp] theorem State.putSetting_fabric (i b v : Nat) : (s.putSetting i b v).fabric = s.fabric := rfl
@[simp] theorem State.putSetting_fw (i b v : Nat) : (s.putSetting i b v).fw = s.fw := rfl
@[simp] theorem State.putSetting_defects (i b v : Nat) : (s.putSetting i b v).defects = s.defects := rfl
@[simp] theorem State.putSetting_streams (i b v : Nat) : (s.putSetting i b v).streams = s.streams := rfl
@[simp] theorem State.putSetting_basins (i b v : Nat) : (s.putSetting i b v).basins = s.basins := rfl
@[simp] theorem State.putSetting_snaps (i b v : Nat) : (s.putSetting i b v).snaps = s.snaps := rfl
@[simp] theorem State.putSetting_lk (i b v : Nat) : (s.putSetting i b v).lk = s.lk := rfl
@[simp] theorem State.putSetting_boot (i b v : Nat) : (s.putSetting i b v).boot = s.boot := rfl
@[simp] theorem State.putSetting_power (i b v : Nat) : (s.putSetting i b v).power = s.power := rfl
@[simp] theorem State.putSetting_inst (i b v : Nat) : (s.putSetting i b v).inst = s.inst := rfl

@[simp] theorem State.nextFree_pending : (s.nextFree).pending = s.pending := rfl
@[simp] theorem State.nextFree_out : (s.nextFree).out = s.out := rfl
@[simp] theorem State.nextFree_mem : (s.nextFree).mem = s.mem := rfl
@[simp] theorem State.nextFree_chans : (s.nextFree).chans = s.chans := rfl
@[simp] theorem State.nextFree_groups : (s.nextFree).groups = s.groups := rfl
@[simp] theorem State.nextFree_hbm : (s.nextFree).hbm = s.hbm := rfl
@[simp] theorem State.nextFree_cores : (s.nextFree).cores = s.cores := rfl
@[simp] theorem State.nextFree_berths : (s.nextFree).berths = s.berths := rfl
@[simp] theorem State.nextFree_segs : (s.nextFree).segs = s.segs := rfl
@[simp] theorem State.nextFree_host : (s.nextFree).host = s.host := rfl
@[simp] theorem State.nextFree_mbox : (s.nextFree).mbox = s.mbox := rfl
@[simp] theorem State.nextFree_ctxs : (s.nextFree).ctxs = s.ctxs := rfl
@[simp] theorem State.nextFree_launches : (s.nextFree).launches = s.launches := rfl
@[simp] theorem State.nextFree_launchNext : (s.nextFree).launchNext = s.launchNext := rfl
@[simp] theorem State.nextFree_fabric : (s.nextFree).fabric = s.fabric := rfl
@[simp] theorem State.nextFree_dict : (s.nextFree).dict = s.dict := rfl
@[simp] theorem State.nextFree_fw : (s.nextFree).fw = s.fw := rfl
@[simp] theorem State.nextFree_defects : (s.nextFree).defects = s.defects := rfl
@[simp] theorem State.nextFree_streams : (s.nextFree).streams = s.streams := rfl
@[simp] theorem State.nextFree_basins : (s.nextFree).basins = s.basins := rfl
@[simp] theorem State.nextFree_snaps : (s.nextFree).snaps = s.snaps := rfl
@[simp] theorem State.nextFree_lk : (s.nextFree).lk = s.lk := rfl
@[simp] theorem State.nextFree_boot : (s.nextFree).boot = s.boot := rfl
@[simp] theorem State.nextFree_power : (s.nextFree).power = s.power := rfl
@[simp] theorem State.nextFree_inst : (s.nextFree).inst = s.inst := rfl

@[simp] theorem State.emit_pending (o : Out) : (s.emit o).pending = s.pending := rfl
@[simp] theorem State.emit_free (o : Out) : (s.emit o).free = s.free := rfl
@[simp] theorem State.emit_mem (o : Out) : (s.emit o).mem = s.mem := rfl
@[simp] theorem State.emit_chans (o : Out) : (s.emit o).chans = s.chans := rfl
@[simp] theorem State.emit_groups (o : Out) : (s.emit o).groups = s.groups := rfl
@[simp] theorem State.emit_hbm (o : Out) : (s.emit o).hbm = s.hbm := rfl
@[simp] theorem State.emit_cores (o : Out) : (s.emit o).cores = s.cores := rfl
@[simp] theorem State.emit_berths (o : Out) : (s.emit o).berths = s.berths := rfl
@[simp] theorem State.emit_segs (o : Out) : (s.emit o).segs = s.segs := rfl
@[simp] theorem State.emit_host (o : Out) : (s.emit o).host = s.host := rfl
@[simp] theorem State.emit_mbox (o : Out) : (s.emit o).mbox = s.mbox := rfl
@[simp] theorem State.emit_ctxs (o : Out) : (s.emit o).ctxs = s.ctxs := rfl
@[simp] theorem State.emit_launches (o : Out) : (s.emit o).launches = s.launches := rfl
@[simp] theorem State.emit_launchNext (o : Out) : (s.emit o).launchNext = s.launchNext := rfl
@[simp] theorem State.emit_fabric (o : Out) : (s.emit o).fabric = s.fabric := rfl
@[simp] theorem State.emit_dict (o : Out) : (s.emit o).dict = s.dict := rfl
@[simp] theorem State.emit_fw (o : Out) : (s.emit o).fw = s.fw := rfl
@[simp] theorem State.emit_defects (o : Out) : (s.emit o).defects = s.defects := rfl
@[simp] theorem State.emit_streams (o : Out) : (s.emit o).streams = s.streams := rfl
@[simp] theorem State.emit_basins (o : Out) : (s.emit o).basins = s.basins := rfl
@[simp] theorem State.emit_snaps (o : Out) : (s.emit o).snaps = s.snaps := rfl
@[simp] theorem State.emit_lk (o : Out) : (s.emit o).lk = s.lk := rfl
@[simp] theorem State.emit_boot (o : Out) : (s.emit o).boot = s.boot := rfl
@[simp] theorem State.emit_power (o : Out) : (s.emit o).power = s.power := rfl
@[simp] theorem State.emit_inst (o : Out) : (s.emit o).inst = s.inst := rfl

@[simp] theorem State.emits_pending (l : List Out) : (s.emits l).pending = s.pending := rfl
@[simp] theorem State.emits_free (l : List Out) : (s.emits l).free = s.free := rfl
@[simp] theorem State.emits_mem (l : List Out) : (s.emits l).mem = s.mem := rfl
@[simp] theorem State.emits_chans (l : List Out) : (s.emits l).chans = s.chans := rfl
@[simp] theorem State.emits_groups (l : List Out) : (s.emits l).groups = s.groups := rfl
@[simp] theorem State.emits_hbm (l : List Out) : (s.emits l).hbm = s.hbm := rfl
@[simp] theorem State.emits_cores (l : List Out) : (s.emits l).cores = s.cores := rfl
@[simp] theorem State.emits_berths (l : List Out) : (s.emits l).berths = s.berths := rfl
@[simp] theorem State.emits_segs (l : List Out) : (s.emits l).segs = s.segs := rfl
@[simp] theorem State.emits_host (l : List Out) : (s.emits l).host = s.host := rfl
@[simp] theorem State.emits_mbox (l : List Out) : (s.emits l).mbox = s.mbox := rfl
@[simp] theorem State.emits_ctxs (l : List Out) : (s.emits l).ctxs = s.ctxs := rfl
@[simp] theorem State.emits_launches (l : List Out) : (s.emits l).launches = s.launches := rfl
@[simp] theorem State.emits_launchNext (l : List Out) : (s.emits l).launchNext = s.launchNext := rfl
@[simp] theorem State.emits_fabric (l : List Out) : (s.emits l).fabric = s.fabric := rfl
@[simp] theorem State.emits_dict (l : List Out) : (s.emits l).dict = s.dict := rfl
@[simp] theorem State.emits_fw (l : List Out) : (s.emits l).fw = s.fw := rfl
@[simp] theorem State.emits_defects (l : List Out) : (s.emits l).defects = s.defects := rfl
@[simp] theorem State.emits_streams (l : List Out) : (s.emits l).streams = s.streams := rfl
@[simp] theorem State.emits_basins (l : List Out) : (s.emits l).basins = s.basins := rfl
@[simp] theorem State.emits_snaps (l : List Out) : (s.emits l).snaps = s.snaps := rfl
@[simp] theorem State.emits_lk (l : List Out) : (s.emits l).lk = s.lk := rfl
@[simp] theorem State.emits_boot (l : List Out) : (s.emits l).boot = s.boot := rfl
@[simp] theorem State.emits_power (l : List Out) : (s.emits l).power = s.power := rfl
@[simp] theorem State.emits_inst (l : List Out) : (s.emits l).inst = s.inst := rfl

@[simp] theorem State.hostWrite_pending (a : Nat) (b : Bytes) : (s.hostWrite a b).pending = s.pending := rfl
@[simp] theorem State.hostWrite_free (a : Nat) (b : Bytes) : (s.hostWrite a b).free = s.free := rfl
@[simp] theorem State.hostWrite_out (a : Nat) (b : Bytes) : (s.hostWrite a b).out = s.out := rfl
@[simp] theorem State.hostWrite_mem (a : Nat) (b : Bytes) : (s.hostWrite a b).mem = s.mem := rfl
@[simp] theorem State.hostWrite_chans (a : Nat) (b : Bytes) : (s.hostWrite a b).chans = s.chans := rfl
@[simp] theorem State.hostWrite_groups (a : Nat) (b : Bytes) : (s.hostWrite a b).groups = s.groups := rfl
@[simp] theorem State.hostWrite_hbm (a : Nat) (b : Bytes) : (s.hostWrite a b).hbm = s.hbm := rfl
@[simp] theorem State.hostWrite_cores (a : Nat) (b : Bytes) : (s.hostWrite a b).cores = s.cores := rfl
@[simp] theorem State.hostWrite_berths (a : Nat) (b : Bytes) : (s.hostWrite a b).berths = s.berths := rfl
@[simp] theorem State.hostWrite_segs (a : Nat) (b : Bytes) : (s.hostWrite a b).segs = s.segs := rfl
@[simp] theorem State.hostWrite_mbox (a : Nat) (b : Bytes) : (s.hostWrite a b).mbox = s.mbox := rfl
@[simp] theorem State.hostWrite_ctxs (a : Nat) (b : Bytes) : (s.hostWrite a b).ctxs = s.ctxs := rfl
@[simp] theorem State.hostWrite_launches (a : Nat) (b : Bytes) : (s.hostWrite a b).launches = s.launches := rfl
@[simp] theorem State.hostWrite_launchNext (a : Nat) (b : Bytes) : (s.hostWrite a b).launchNext = s.launchNext := rfl
@[simp] theorem State.hostWrite_fabric (a : Nat) (b : Bytes) : (s.hostWrite a b).fabric = s.fabric := rfl
@[simp] theorem State.hostWrite_dict (a : Nat) (b : Bytes) : (s.hostWrite a b).dict = s.dict := rfl
@[simp] theorem State.hostWrite_fw (a : Nat) (b : Bytes) : (s.hostWrite a b).fw = s.fw := rfl
@[simp] theorem State.hostWrite_defects (a : Nat) (b : Bytes) : (s.hostWrite a b).defects = s.defects := rfl
@[simp] theorem State.hostWrite_streams (a : Nat) (b : Bytes) : (s.hostWrite a b).streams = s.streams := rfl
@[simp] theorem State.hostWrite_basins (a : Nat) (b : Bytes) : (s.hostWrite a b).basins = s.basins := rfl
@[simp] theorem State.hostWrite_snaps (a : Nat) (b : Bytes) : (s.hostWrite a b).snaps = s.snaps := rfl
@[simp] theorem State.hostWrite_lk (a : Nat) (b : Bytes) : (s.hostWrite a b).lk = s.lk := rfl
@[simp] theorem State.hostWrite_boot (a : Nat) (b : Bytes) : (s.hostWrite a b).boot = s.boot := rfl
@[simp] theorem State.hostWrite_power (a : Nat) (b : Bytes) : (s.hostWrite a b).power = s.power := rfl
@[simp] theorem State.hostWrite_inst (a : Nat) (b : Bytes) : (s.hostWrite a b).inst = s.inst := rfl

/-! Reading back. -/

@[simp] theorem State.core_setCore (c : Nat) (k : CoreSt) : (s.setCore c k).core c = k := tget_tset_self ..
theorem State.core_setCore_other {c d : Nat} (k : CoreSt) (h : d ≠ c) : (s.setCore c k).core d = s.core d :=
  tget_tset_other _ _ _ h
@[simp] theorem State.core_modCore (c : Nat) (f : CoreSt → CoreSt) : (s.modCore c f).core c = f (s.core c) := tget_tset_self ..
theorem State.core_modCore_other {c d : Nat} (f : CoreSt → CoreSt) (h : d ≠ c) : (s.modCore c f).core d = s.core d :=
  tget_tset_other _ _ _ h
@[simp] theorem State.berth_setBerth (b : Nat) (k : BerthSt) : (s.setBerth b k).berth b = k := tget_tset_self ..
@[simp] theorem State.berth_modBerth (b : Nat) (f : BerthSt → BerthSt) : (s.modBerth b f).berth b = f (s.berth b) :=
  tget_tset_self ..
theorem State.berth_modBerth_other {b d : Nat} (f : BerthSt → BerthSt) (h : d ≠ b) : (s.modBerth b f).berth d = s.berth d :=
  tget_tset_other _ _ _ h
@[simp] theorem State.fn_modFn (i : Nat) (f : FnSt → FnSt) : (s.modFn i f).fn i = f (s.fn i) := tget_tset_self ..
theorem State.fn_modFn_other {i j : Nat} (f : FnSt → FnSt) (h : j ≠ i) : (s.modFn i f).fn j = s.fn j := tget_tset_other _ _ _ h
@[simp] theorem State.mb_modMb (m : Nat) (f : MboxSt → MboxSt) : (s.modMb m f).mb m = f (s.mb m) := tget_tset_self ..
theorem State.mb_modMb_other {m n : Nat} (f : MboxSt → MboxSt) (h : n ≠ m) : (s.modMb m f).mb n = s.mb n :=
  tget_tset_other _ _ _ h
@[simp] theorem State.chan_modChan (n l : Nat) (f : ChanSt → ChanSt) : (s.modChan n l f).chan n l = f (s.chan n l) :=
  tget_tset_self ..
@[simp] theorem State.stack_modStack (n : Nat) (f : StackSt → StackSt) : (s.modStack n f).stack n = f (s.stack n) :=
  tget_tset_self ..
@[simp] theorem State.seg_modSeg (k : Nat) (f : SegSt → SegSt) : (s.modSeg k f).seg k = f (s.seg k) := tget_tset_self ..
@[simp] theorem State.link_modLink (p : Nat) (f : LinkSt → LinkSt) : (s.modLink p f).link p = f (s.link p) := tget_tset_self ..
theorem State.link_modLink_other {p q : Nat} (f : LinkSt → LinkSt) (h : q ≠ p) : (s.modLink p f).link q = s.link q :=
  tget_tset_other _ _ _ h
@[simp] theorem State.exch_modExch (d : Nat) (f : ExchSt → ExchSt) : (s.modExch d f).exch d = f (s.exch d) := tget_tset_self ..
@[simp] theorem State.setting_putSetting (i b v d : Nat) : (s.putSetting i b v).setting i b d = v := tget_tset_self ..

end Sys2Proof.Machine
end

