-- ==== Sys2Proof/Laws/Groups.lean ====
section
/-!
SUPPORT. Reading back what was written: cores, kernels, thread groups and their registers, and what an issue leads to.
-/

namespace Sys2Proof.Machine

theorem State.kern_modKern {s : State} {c : Nat} {k : KernSt} (f : KernSt → KernSt) (h : s.kern c = some k) :
    (s.modKern c f).kern c = some (f k) := by
  simp [State.modKern, h]; simp [State.kern]

theorem State.kern_modKern_other (s : State) {c d : Nat} (f : KernSt → KernSt) (h : d ≠ c) :
    (s.modKern c f).kern d = s.kern d := by
  unfold State.modKern
  split
  · rfl
  · simp [State.kern, State.core_modCore_other _ _ h]

/-- A group of a running kernel. -/
theorem State.group_some {s : State} {t : At} {g : GroupSt} (h : s.group t = some g) :
    ∃ k, s.kern t.core = some k ∧ t.group < k.nGroups ∧ tget k.groups {} t.group = g := by
  unfold State.group at h
  split at h
  · simp at h
  · rename_i k hk
    split at h
    · exact ⟨k, hk, by assumption, by simpa using h⟩
    · simp at h

theorem State.group_setGroup {s : State} {t : At} {g : GroupSt} (n : GroupSt) (h : s.group t = some g) :
    (s.setGroup t n).group t = some n := by
  obtain ⟨k, hk, hl, -⟩ := State.group_some h
  simp [State.setGroup, State.group, State.kern_modKern _ hk, hl, tget_tset_self]

theorem State.group_setGroup_other (s : State) {t u : At} (n : GroupSt) (h : u ≠ t) : (s.setGroup t n).group u = s.group u := by
  unfold State.setGroup State.group
  by_cases c : u.core = t.core
  · have hg : u.group ≠ t.group := fun e => h (by cases u; cases t; simp_all)
    rw [c]
    cases hk : s.kern t.core with
    | none => simp [State.modKern, hk]
    | some k => simp [State.kern_modKern _ hk, tget_tset_other _ _ _ hg]
  · simp [State.kern_modKern_other _ _ c]

/-! Registers. -/

theorem GroupSt.vreg_setV (g : GroupSt) (i l j m : Nat) (x : BitVec 32) :
    (g.setV i l x).vreg j m = if 32 * j + m = 32 * i + l then x else g.vreg j m := by
  unfold GroupSt.setV GroupSt.vreg
  split
  · rename_i e; simp [e, tget_tset_self]
  · rename_i e; simp [tget_tset_other _ _ _ e]

theorem GroupSt.sregAt_setS (g : GroupSt) (i j : Nat) (x : BitVec 64) :
    (g.setS i x).sregAt j = if j = i ∧ j ≠ 0 then x else g.sregAt j := by
  unfold GroupSt.setS GroupSt.sregAt
  by_cases hi : i = 0
  · by_cases hj : j = 0 <;> simp [hi, hj]
  · by_cases hj : j = 0
    · simp [hj]
    · by_cases e : j = i
      · simp [hi, e, tget_tset_self]
      · simp [hi, hj, e, tget_tset_other _ _ _ e]

@[simp] theorem GroupSt.setS_v (g : GroupSt) (i x) : (g.setS i x).v = g.v := by unfold GroupSt.setS; split <;> rfl
@[simp] theorem GroupSt.setS_stack (g : GroupSt) (i x) : (g.setS i x).stack = g.stack := by unfold GroupSt.setS; split <;> rfl
@[simp] theorem GroupSt.setS_tk (g : GroupSt) (i x) : (g.setS i x).tk = g.tk := by unfold GroupSt.setS; split <;> rfl
@[simp] theorem GroupSt.setS_chain (g : GroupSt) (i x) : (g.setS i x).chain = g.chain := by unfold GroupSt.setS; split <;> rfl
@[simp] theorem GroupSt.setS_vreg (g : GroupSt) (i x j l) : (g.setS i x).vreg j l = g.vreg j l := by simp [GroupSt.vreg]

theorem mem_lanesOf (m : BitVec 32) (l : Nat) : l ∈ lanesOf m ↔ l < 32 ∧ m.getLsbD l = true := by simp [lanesOf]

theorem GroupSt.vreg_putList (ls : List Nat) (g : GroupSt) (i j n : Nat) (f : Nat → Nat) (hl : ∀ l ∈ ls, l < 32) (hn : n < 32) :
    (forL ls g fun l h => h.setV i l (BitVec.ofNat 32 (f l))).vreg j n =
      if j = i ∧ n ∈ ls then BitVec.ofNat 32 (f n) else g.vreg j n := by
  induction ls generalizing g with
  | nil => simp [forL]
  | cons a r ih =>
    rw [show forL (a :: r) g (fun l h => h.setV i l (BitVec.ofNat 32 (f l))) =
      forL r (g.setV i a (BitVec.ofNat 32 (f a))) (fun l h => h.setV i l (BitVec.ofNat 32 (f l))) from rfl,
      ih _ (fun l h => hl l (List.mem_cons_of_mem _ h)), GroupSt.vreg_setV]
    have ha := hl a List.mem_cons_self
    by_cases e : 32 * j + n = 32 * i + a
    · have : j = i := by omega
      have : n = a := by omega
      subst_vars; simp
    · by_cases k : j = i
      · have : n ≠ a := by omega
        simp [k, this]
      · simp [k, e]

/-- What a per-thread result leaves in a register of a lane. -/
theorem GroupSt.vreg_putLanes (g : GroupSt) (i j n : Nat) (m : BitVec 32) (f : Nat → Nat) (hn : n < 32) :
    (g.putLanes i m f).vreg j n = if j = i ∧ m.getLsbD n = true then BitVec.ofNat 32 (f n) else g.vreg j n := by
  rw [GroupSt.putLanes, GroupSt.vreg_putList _ _ _ _ _ _ (fun l h => ((mem_lanesOf _ _).1 h).1) hn]
  simp [mem_lanesOf, hn]

theorem GroupSt.putLanes_keeps {β : Type} (p : GroupSt → β) (h : ∀ g i l x, p (GroupSt.setV g i l x) = p g) (g : GroupSt) (i m f) :
    p (g.putLanes i m f) = p g := by
  unfold GroupSt.putLanes forL
  induction lanesOf m generalizing g with
  | nil => rfl
  | cons a r ih => rw [List.foldl_cons, ih, h]

@[simp] theorem GroupSt.putLanes_sreg (g : GroupSt) (i m f) : (g.putLanes i m f).sreg = g.sreg :=
  GroupSt.putLanes_keeps (·.sreg) (fun _ _ _ _ => rfl) g i m f
@[simp] theorem GroupSt.putLanes_stack (g : GroupSt) (i m f) : (g.putLanes i m f).stack = g.stack :=
  GroupSt.putLanes_keeps (·.stack) (fun _ _ _ _ => rfl) g i m f
@[simp] theorem GroupSt.putLanes_tk (g : GroupSt) (i m f) : (g.putLanes i m f).tk = g.tk :=
  GroupSt.putLanes_keeps (·.tk) (fun _ _ _ _ => rfl) g i m f
@[simp] theorem GroupSt.putLanes_chain (g : GroupSt) (i m f) : (g.putLanes i m f).chain = g.chain :=
  GroupSt.putLanes_keeps (·.chain) (fun _ _ _ _ => rfl) g i m f
@[simp] theorem GroupSt.putLanes_sregAt (g : GroupSt) (i m f j) : (g.putLanes i m f).sregAt j = g.sregAt j := by simp [GroupSt.sregAt]

/-! Issuing. -/

/-- What a group that runs looks like. -/
theorem State.running_some {s : State} {t : At} {i : Issue} (h : s.running t = some i) :
    s.kern t.core = some i.k ∧ s.group t = some i.g ∧ settle i.g.stack = i.above ++ i.cur :: i.below ∧
      runnable (waitingLanes i.k t.group) i.cur = true := by
  unfold State.running at h
  split at h
  · rename_i k g hk hg
    simp only at h
    split at h
    · simp at h
    · rename_i e r he
      simp only [Option.some.injEq] at h
      subst h
      refine ⟨hk, hg, ?_, ?_⟩
      · rw [← he, List.takeWhile_append_dropWhile]
      · have := List.head_dropWhile_not (fun e => !runnable (waitingLanes k t.group) e) (l := settle g.stack) (by simp [he])
        simpa [he] using this
  · simp at h

theorem State.ready_some {s : State} {t : At} {l : List Nat} {i : Issue} (h : s.ready t l = some i) :
    s.running t = some i ∧ i.cur.fence = none ∧ s.awaits t i.k.launch l = false := by
  unfold State.ready at h
  split at h
  · simp at h
  · rename_i j hj
    split at h
    · simp at h
    · rename_i c
      simp only [Option.some.injEq] at h
      subst h
      simp only [Bool.or_eq_true, not_or, Bool.not_eq_true, Option.isSome_eq_false_iff, Option.isNone_iff_eq_none] at c
      exact ⟨hj, c.1, c.2⟩

theorem State.issue_ready {s : State} {t : At} {l : List Nat} {i : Issue} (f : Issue → State) (h : s.ready t l = some i) :
    s.issue t l f = f i := by simp [State.issue, h]

/-- A group that is not ready waits. -/
theorem State.issue_waits {s : State} {t : At} {l : List Nat} (f : Issue → State) (h : s.ready t l = none) :
    s.issue t l f = s := by simp [State.issue, h]

/-- A path that stays in the code only moves. -/
theorem State.goto_in {s : State} {t : At} {i : Issue} {g : GroupSt} {pc : Int} (h : 0 ≤ pc ∧ pc < i.k.codeBytes) :
    s.goto t i g pc = s.setGroup t (i.at pc.toNat g) := by simp [State.goto, h]

theorem State.next_in {s : State} {t : At} {i : Issue} {g : GroupSt} (h : i.cur.pc + 8 < i.k.codeBytes) :
    s.next t i g = s.setGroup t (i.at (i.cur.pc + 8) g) := by
  rw [State.next, State.goto_in (by omega)]
  congr

end Sys2Proof.Machine
end

