-- ==== Sys2Proof/Laws/Abort.lean ====
section
/-!
SUPPORT. What an abort leaves in its launch.
-/

namespace Sys2Proof.Machine

/-- The launch that an abort stops: its record, and nothing of the other launches. -/
theorem State.abortLaunch_launches {s : State} {n : Nat} {l : LaunchSt} (f : FaultRec) (h : tfind s.launches n = some l)
    (r : l.stopped = false) :
    (s.abortLaunch n f).launches = tset s.launches n { l with
      stopped := true, status := f.code, fault := faultBytes { f with tally := (s.berth l.berth).tally.toNat } } := by
  simp only [State.abortLaunch, h, r, Bool.false_eq_true, if_false]
  have k := (Change.forL (l := [.free, .out, .mem, .cores, .berths, .host, .mbox, .fabric]) (s := s.modLaunch n fun x => { x with
      stopped := true, fault := faultBytes { f with tally := (s.berth l.berth).tally.toNat }, status := f.code })
    (f := fun c t => t.stopCore n c) (xs := l.running) Change.refl
      fun c t hc => hc.tr (State.stopCore_frame t n c) (by decide)).frame .launches (by decide)
  exact k.trans (by simp [State.modLaunch, h])

/-- A stopped launch only learns that more faults arose. -/
theorem State.abortLaunch_again {s : State} {n : Nat} {l : LaunchSt} (f : FaultRec) (h : tfind s.launches n = some l)
    (r : l.stopped = true) :
    s.abortLaunch n f = { s with launches := tset s.launches n { l with fault := setMore l.fault } } := by
  simp [State.abortLaunch, h, r, State.modLaunch]

theorem State.abortGroup_eq {s : State} {t : At} {k : KernSt} (pc : Nat) (lanes : BitVec 32) (code info detail : Nat)
    (h : s.kern t.core = some k) :
    s.abortGroup t pc lanes code info detail = s.abortLaunch k.launch
      { code := code, core := t.core, group := t.group, pc := pc, lanes := lanes.toNat, info := info, detail := detail } := by
  simp [State.abortGroup, h]

end Sys2Proof.Machine
end

