-- ==== Sys2Proof/Laws/Arith.lean ====
section
/-!
SUPPORT. Ordinary arithmetic instructions: what a ready one leads to, and its sources as bit vectors.
-/

namespace Sys2Proof.Machine

theorem State.arith_ready {s : State} {t : At} {op : Nat} {o : ArithOp} {i : Issue} (f : Alu) (ok : arithOk op o = true)
    (h : s.ready t (arithSrcs op o) = some i) (pc : i.cur.pc + 8 < i.k.codeBytes) :
    s.arith t op o f = s.setGroup t (i.at (i.cur.pc + 8) (arithWrite i.g i.cur.mask op o f)) := by
  rw [State.arith, if_pos ok, State.issue_ready _ h, State.next_in pc]

theorem unsignedOf_toInt {v : Nat} (w : Nat) (x : BitVec v) : unsignedOf w x.toInt = (x.signExtend w).toNat := by
  rw [BitVec.signExtend, BitVec.toNat_ofInt, unsignedOf]

theorem signedOf_toNat {w : Nat} (x : BitVec w) : signedOf w x.toNat = x.toInt := by
  unfold signedOf
  rw [Nat.mod_eq_of_lt x.isLt]
  cases w with
  | zero => simp [BitVec.toInt, BitVec.of_length_zero]
  | succ n =>
    have e : 2 ^ (n + 1) = 2 * 2 ^ n := by rw [Nat.pow_succ, Nat.mul_comm]
    rw [BitVec.toInt_eq_toNat_cond, Nat.add_sub_cancel]
    by_cases h : x.toNat < 2 ^ n
    · rw [if_pos h, if_pos (by omega)]
    · rw [if_neg h, if_neg (by omega)]

theorem immOperand_int {op : Nat} (w : Nat) (imm : BitVec 16) (h : ¬(0x20 ≤ op ∧ op < 0x30)) :
    immOperand op w imm = (imm.signExtend w).toNat := by
  rw [immOperand, if_neg h, unsignedOf_toInt]

theorem immOperand_float {op : Nat} (w : Nat) (imm : BitVec 16) (h : 0x20 ≤ op ∧ op < 0x30) :
    immOperand op w imm = imm.toNat * 2 ^ 16 := by rw [immOperand, if_pos h]

end Sys2Proof.Machine
end

