-- ==== Sys2Proof/Laws/ChangeArith.lean ====
section
/-!
SUPPORT. What each operation changes and keeps: register instructions, homes, control spaces, objects and events.
-/

namespace Sys2Proof.Machine

theorem execNop_frame (t o s) : ChangeO [.free, .out, .mem, .cores, .berths, .host, .mbox, .launches, .fabric] s (execNop t o s) := by
  unfold execNop
  with_reducible repeat' first
    | (apply partsIn.id; with_unfolding_all rfl)
    | apply Change.refl
    | apply Change.ite ?_ ?_
    | apply ChangeO.mk ?_
    | apply Change.issue ?_ fun _ => ?_
    | apply Change.tr ?_ (State.next_frame ..) ?_

theorem execMov_frame (t o s) : ChangeO [.free, .out, .mem, .cores, .berths, .host, .mbox, .launches, .fabric] s (execMov t o s) := by
  unfold execMov
  with_reducible repeat' first
    | (apply partsIn.id; with_unfolding_all rfl)
    | apply Change.refl
    | apply ChangeO.mk ?_
    | apply Change.tr ?_ (State.arith_frame ..) ?_

theorem execMovi_frame (t dst imm s) :
    ChangeO [.free, .out, .mem, .cores, .berths, .host, .mbox, .launches, .fabric] s (execMovi t dst imm s) := by
  unfold execMovi
  with_reducible repeat' first
    | (apply partsIn.id; with_unfolding_all rfl)
    | apply Change.refl
    | apply Change.ite ?_ ?_
    | apply ChangeO.mk ?_
    | apply Change.issue ?_ fun _ => ?_
    | apply Change.tr ?_ (State.next_frame ..) ?_

theorem execMovhi_frame (t dst imm s) :
    ChangeO [.free, .out, .mem, .cores, .berths, .host, .mbox, .launches, .fabric] s (execMovhi t dst imm s) := by
  unfold execMovhi
  with_reducible repeat' first
    | (apply partsIn.id; with_unfolding_all rfl)
    | apply Change.refl
    | apply Change.ite ?_ ?_
    | apply ChangeO.mk ?_
    | apply Change.issue ?_ fun _ => ?_
    | apply Change.tr ?_ (State.next_frame ..) ?_

theorem execMovsp_frame (t o s) :
    ChangeO [.free, .out, .mem, .cores, .berths, .host, .mbox, .launches, .fabric] s (execMovsp t o s) := by
  unfold execMovsp
  with_reducible repeat' first
    | (apply partsIn.id; with_unfolding_all rfl)
    | apply Change.refl
    | apply Change.ite ?_ ?_
    | apply ChangeO.mk ?_
    | apply Change.issue ?_ fun _ => ?_
    | apply Change.tr ?_ (State.next_frame ..) ?_
    | apply Change.tr ?_ (State.nextFree_frame ..) ?_

theorem execIadd_frame (t o s) : ChangeO [.free, .out, .mem, .cores, .berths, .host, .mbox, .launches, .fabric] s (execIadd t o s) := by
  unfold execIadd
  with_reducible repeat' first
    | (apply partsIn.id; with_unfolding_all rfl)
    | apply Change.refl
    | apply ChangeO.mk ?_
    | apply Change.tr ?_ (State.arith_frame ..) ?_

theorem execIsub_frame (t o s) : ChangeO [.free, .out, .mem, .cores, .berths, .host, .mbox, .launches, .fabric] s (execIsub t o s) := by
  unfold execIsub
  with_reducible repeat' first
    | (apply partsIn.id; with_unfolding_all rfl)
    | apply Change.refl
    | apply ChangeO.mk ?_
    | apply Change.tr ?_ (State.arith_frame ..) ?_

theorem execImul_frame (t o s) : ChangeO [.free, .out, .mem, .cores, .berths, .host, .mbox, .launches, .fabric] s (execImul t o s) := by
  unfold execImul
  with_reducible repeat' first
    | (apply partsIn.id; with_unfolding_all rfl)
    | apply Change.refl
    | apply ChangeO.mk ?_
    | apply Change.tr ?_ (State.arith_frame ..) ?_

theorem execImulhu_frame (t o s) :
    ChangeO [.free, .out, .mem, .cores, .berths, .host, .mbox, .launches, .fabric] s (execImulhu t o s) := by
  unfold execImulhu
  with_reducible repeat' first
    | (apply partsIn.id; with_unfolding_all rfl)
    | apply Change.refl
    | apply ChangeO.mk ?_
    | apply Change.tr ?_ (State.arith_frame ..) ?_

theorem execImad_frame (t o s) : ChangeO [.free, .out, .mem, .cores, .berths, .host, .mbox, .launches, .fabric] s (execImad t o s) := by
  unfold execImad
  with_reducible repeat' first
    | (apply partsIn.id; with_unfolding_all rfl)
    | apply Change.refl
    | apply ChangeO.mk ?_
    | apply Change.tr ?_ (State.arith_frame ..) ?_

theorem execImin_frame (t o s) : ChangeO [.free, .out, .mem, .cores, .berths, .host, .mbox, .launches, .fabric] s (execImin t o s) := by
  unfold execImin
  with_reducible repeat' first
    | (apply partsIn.id; with_unfolding_all rfl)
    | apply Change.refl
    | apply ChangeO.mk ?_
    | apply Change.tr ?_ (State.arith_frame ..) ?_

theorem execImax_frame (t o s) : ChangeO [.free, .out, .mem, .cores, .berths, .host, .mbox, .launches, .fabric] s (execImax t o s) := by
  unfold execImax
  with_reducible repeat' first
    | (apply partsIn.id; with_unfolding_all rfl)
    | apply Change.refl
    | apply ChangeO.mk ?_
    | apply Change.tr ?_ (State.arith_frame ..) ?_

theorem execAndb_frame (t o s) : ChangeO [.free, .out, .mem, .cores, .berths, .host, .mbox, .launches, .fabric] s (execAndb t o s) := by
  unfold execAndb
  with_reducible repeat' first
    | (apply partsIn.id; with_unfolding_all rfl)
    | apply Change.refl
    | apply ChangeO.mk ?_
    | apply Change.tr ?_ (State.arith_frame ..) ?_

theorem execOrb_frame (t o s) : ChangeO [.free, .out, .mem, .cores, .berths, .host, .mbox, .launches, .fabric] s (execOrb t o s) := by
  unfold execOrb
  with_reducible repeat' first
    | (apply partsIn.id; with_unfolding_all rfl)
    | apply Change.refl
    | apply ChangeO.mk ?_
    | apply Change.tr ?_ (State.arith_frame ..) ?_

theorem execXorb_frame (t o s) : ChangeO [.free, .out, .mem, .cores, .berths, .host, .mbox, .launches, .fabric] s (execXorb t o s) := by
  unfold execXorb
  with_reducible repeat' first
    | (apply partsIn.id; with_unfolding_all rfl)
    | apply Change.refl
    | apply ChangeO.mk ?_
    | apply Change.tr ?_ (State.arith_frame ..) ?_

theorem execShl_frame (t o s) : ChangeO [.free, .out, .mem, .cores, .berths, .host, .mbox, .launches, .fabric] s (execShl t o s) := by
  unfold execShl
  with_reducible repeat' first
    | (apply partsIn.id; with_unfolding_all rfl)
    | apply Change.refl
    | apply ChangeO.mk ?_
    | apply Change.tr ?_ (State.arith_frame ..) ?_

theorem execShr_frame (t o s) : ChangeO [.free, .out, .mem, .cores, .berths, .host, .mbox, .launches, .fabric] s (execShr t o s) := by
  unfold execShr
  with_reducible repeat' first
    | (apply partsIn.id; with_unfolding_all rfl)
    | apply Change.refl
    | apply ChangeO.mk ?_
    | apply Change.tr ?_ (State.arith_frame ..) ?_

theorem execSar_frame (t o s) : ChangeO [.free, .out, .mem, .cores, .berths, .host, .mbox, .launches, .fabric] s (execSar t o s) := by
  unfold execSar
  with_reducible repeat' first
    | (apply partsIn.id; with_unfolding_all rfl)
    | apply Change.refl
    | apply ChangeO.mk ?_
    | apply Change.tr ?_ (State.arith_frame ..) ?_

theorem execPopc_frame (t o s) : ChangeO [.free, .out, .mem, .cores, .berths, .host, .mbox, .launches, .fabric] s (execPopc t o s) := by
  unfold execPopc
  with_reducible repeat' first
    | (apply partsIn.id; with_unfolding_all rfl)
    | apply Change.refl
    | apply ChangeO.mk ?_
    | apply Change.tr ?_ (State.arith_frame ..) ?_

theorem execClz_frame (t o s) : ChangeO [.free, .out, .mem, .cores, .berths, .host, .mbox, .launches, .fabric] s (execClz t o s) := by
  unfold execClz
  with_reducible repeat' first
    | (apply partsIn.id; with_unfolding_all rfl)
    | apply Change.refl
    | apply ChangeO.mk ?_
    | apply Change.tr ?_ (State.arith_frame ..) ?_

theorem execIset_frame (t o s) : ChangeO [.free, .out, .mem, .cores, .berths, .host, .mbox, .launches, .fabric] s (execIset t o s) := by
  unfold execIset
  with_reducible repeat' first
    | (apply partsIn.id; with_unfolding_all rfl)
    | apply Change.refl
    | apply ChangeO.mk ?_
    | apply Change.tr ?_ (State.arith_frame ..) ?_

theorem execSel_frame (t o s) : ChangeO [.free, .out, .mem, .cores, .berths, .host, .mbox, .launches, .fabric] s (execSel t o s) := by
  unfold execSel
  with_reducible repeat' first
    | (apply partsIn.id; with_unfolding_all rfl)
    | apply Change.refl
    | apply ChangeO.mk ?_
    | apply Change.tr ?_ (State.arith_frame ..) ?_

theorem execFadd_frame (t o s) : ChangeO [.free, .out, .mem, .cores, .berths, .host, .mbox, .launches, .fabric] s (execFadd t o s) := by
  unfold execFadd
  with_reducible repeat' first
    | (apply partsIn.id; with_unfolding_all rfl)
    | apply Change.refl
    | apply ChangeO.mk ?_
    | apply Change.tr ?_ (State.arith_frame ..) ?_

theorem execFsub_frame (t o s) : ChangeO [.free, .out, .mem, .cores, .berths, .host, .mbox, .launches, .fabric] s (execFsub t o s) := by
  unfold execFsub
  with_reducible repeat' first
    | (apply partsIn.id; with_unfolding_all rfl)
    | apply Change.refl
    | apply ChangeO.mk ?_
    | apply Change.tr ?_ (State.arith_frame ..) ?_

theorem execFmul_frame (t o s) : ChangeO [.free, .out, .mem, .cores, .berths, .host, .mbox, .launches, .fabric] s (execFmul t o s) := by
  unfold execFmul
  with_reducible repeat' first
    | (apply partsIn.id; with_unfolding_all rfl)
    | apply Change.refl
    | apply ChangeO.mk ?_
    | apply Change.tr ?_ (State.arith_frame ..) ?_

theorem execFfma_frame (t o s) : ChangeO [.free, .out, .mem, .cores, .berths, .host, .mbox, .launches, .fabric] s (execFfma t o s) := by
  unfold execFfma
  with_reducible repeat' first
    | (apply partsIn.id; with_unfolding_all rfl)
    | apply Change.refl
    | apply ChangeO.mk ?_
    | apply Change.tr ?_ (State.arith_frame ..) ?_

theorem execFmin_frame (t o s) : ChangeO [.free, .out, .mem, .cores, .berths, .host, .mbox, .launches, .fabric] s (execFmin t o s) := by
  unfold execFmin
  with_reducible repeat' first
    | (apply partsIn.id; with_unfolding_all rfl)
    | apply Change.refl
    | apply ChangeO.mk ?_
    | apply Change.tr ?_ (State.arith_frame ..) ?_

theorem execFmax_frame (t o s) : ChangeO [.free, .out, .mem, .cores, .berths, .host, .mbox, .launches, .fabric] s (execFmax t o s) := by
  unfold execFmax
  with_reducible repeat' first
    | (apply partsIn.id; with_unfolding_all rfl)
    | apply Change.refl
    | apply ChangeO.mk ?_
    | apply Change.tr ?_ (State.arith_frame ..) ?_

theorem execFset_frame (t o s) : ChangeO [.free, .out, .mem, .cores, .berths, .host, .mbox, .launches, .fabric] s (execFset t o s) := by
  unfold execFset
  with_reducible repeat' first
    | (apply partsIn.id; with_unfolding_all rfl)
    | apply Change.refl
    | apply ChangeO.mk ?_
    | apply Change.tr ?_ (State.arith_frame ..) ?_

theorem execI2f_frame (t o s) : ChangeO [.free, .out, .mem, .cores, .berths, .host, .mbox, .launches, .fabric] s (execI2f t o s) := by
  unfold execI2f
  with_reducible repeat' first
    | (apply partsIn.id; with_unfolding_all rfl)
    | apply Change.refl
    | apply ChangeO.mk ?_
    | apply Change.tr ?_ (State.arith_frame ..) ?_

theorem execF2i_frame (t o s) : ChangeO [.free, .out, .mem, .cores, .berths, .host, .mbox, .launches, .fabric] s (execF2i t o s) := by
  unfold execF2i
  with_reducible repeat' first
    | (apply partsIn.id; with_unfolding_all rfl)
    | apply Change.refl
    | apply ChangeO.mk ?_
    | apply Change.tr ?_ (State.arith_frame ..) ?_

theorem execVote_frame (t o s) : ChangeO [.free, .out, .mem, .cores, .berths, .host, .mbox, .launches, .fabric] s (execVote t o s) := by
  unfold execVote
  with_reducible repeat' first
    | (apply partsIn.id; with_unfolding_all rfl)
    | apply Change.refl
    | apply Change.ite ?_ ?_
    | apply ChangeO.mk ?_
    | apply Change.issue ?_ fun _ => ?_
    | apply Change.tr ?_ (State.next_frame ..) ?_

theorem execV2s_frame (t o s) : ChangeO [.free, .out, .mem, .cores, .berths, .host, .mbox, .launches, .fabric] s (execV2s t o s) := by
  unfold execV2s
  with_reducible repeat' first
    | (apply partsIn.id; with_unfolding_all rfl)
    | apply Change.refl
    | apply Change.ite ?_ ?_
    | apply ChangeO.mk ?_
    | apply Change.issue ?_ fun _ => ?_
    | apply Change.tr ?_ (State.next_frame ..) ?_

theorem execShfl_frame (t o s) : ChangeO [.free, .out, .mem, .cores, .berths, .host, .mbox, .launches, .fabric] s (execShfl t o s) := by
  unfold execShfl
  with_reducible repeat' first
    | (apply partsIn.id; with_unfolding_all rfl)
    | apply Change.refl
    | apply Change.ite ?_ ?_
    | apply ChangeO.mk ?_
    | apply Change.issue ?_ fun _ => ?_
    | apply Change.tr ?_ (State.next_frame ..) ?_

theorem State.wcbNote_frame (s pa n add) : Change [.chans] s (State.wcbNote s pa n add) := by
  unfold State.wcbNote
  with_reducible repeat' first
    | (apply partsIn.id; with_unfolding_all rfl)
    | apply Change.refl
    | apply Change.tr ?_ (State.modChan_frame ..) ?_
    | split

theorem State.homeStore_frame (s pa bs marked) :
    Change [.out, .mem, .chans, .host, .mbox] s (State.homeStore s pa bs marked) := by
  unfold State.homeStore
  with_reducible repeat' first
    | (apply partsIn.id; with_unfolding_all rfl)
    | apply Change.refl
    | apply Change.tr ?_ (State.wcbNote_frame ..) ?_
    | apply Change.tr ?_ (State.memWrite_frame ..) ?_

theorem State.homeAdd_frame (s berth reader pa op) :
    Change1 [.out, .mem, .chans, .berths, .host, .mbox] s (State.homeAdd s berth reader pa op) := by
  unfold State.homeAdd
  extract_lets old new s1 s2
  have h1 : Change [.out, .mem, .chans, .berths, .host, .mbox] s s1 :=
    (Change.refl.setMem rfl fun h => Store.ok_write _ _ _ h).tr (State.wcbNote_frame _ _ _ _) rfl
  have h2 : Change [.out, .mem, .chans, .berths, .host, .mbox] s s2 := by
    dsimp only [s2]
    split
    · exact Change.ite (h1.tr (State.count_frame _ _ _ _) rfl) h1
    · exact h1
  split
  · exact Change.refl.tr (State.poisonRead_frame _ _ _ _) rfl
  · exact h2

theorem State.mbAnswer_frame (s m code outWords) : Change [.out, .mbox] s (State.mbAnswer s m code outWords) := by
  unfold State.mbAnswer
  with_reducible repeat' first
    | (apply partsIn.id; with_unfolding_all rfl)
    | apply Change.refl
    | apply Change.ite ?_ ?_
    | apply Change.tr ?_ (State.ring_frame ..) ?_
    | apply Change.tr ?_ (State.modMb_frame ..) ?_

theorem State.mbReply_frame (s m code words) : Change [.out, .mbox] s (State.mbReply s m code words) := by
  unfold State.mbReply
  with_reducible repeat' first
    | (apply partsIn.id; with_unfolding_all rfl)
    | apply Change.refl
    | apply Change.tr ?_ (State.mbAnswer_frame ..) ?_
    | apply Change.tr ?_ (State.modMb_frame ..) ?_

theorem State.mbKernelWrite_frame (s m i v) : Change [.out, .mbox] s (State.mbKernelWrite s m i v) := by
  unfold State.mbKernelWrite
  with_reducible repeat' first
    | (apply partsIn.id; with_unfolding_all rfl)
    | apply Change.refl
    | apply Change.ite ?_ ?_
    | apply Change.tr ?_ (State.modMb_frame ..) ?_
    | apply Change.tr ?_ (State.mbAnswer_frame ..) ?_
    | apply Change.tr ?_ (State.ring_frame ..) ?_

theorem State.post_frame (s die v) : Change [.fabric] s (State.post s die v) := by
  unfold State.post
  with_reducible repeat' first
    | (apply partsIn.id; with_unfolding_all rfl)
    | apply Change.refl
    | apply Change.ite ?_ ?_
    | apply Change.tr ?_ (State.modExch_frame ..) ?_

theorem State.controlWrite_frame (s b die off bs) : Change [.out, .mbox, .fabric] s (State.controlWrite s b die off bs) := by
  unfold State.controlWrite
  with_reducible repeat' first
    | (apply partsIn.id; with_unfolding_all rfl)
    | apply Change.refl
    | extract_lets
    | apply Change.tr ?_ (State.mbKernelWrite_frame ..) ?_
    | apply Change.tr ?_ (State.post_frame ..) ?_
    | apply Change.forL ?_ fun _ _ _ => ?_
    | assumption
    | split

theorem State.modObj_frame (s b hd f) (k : ∀ o, o.gen ≠ 0 → (f o).gen ≠ 0) : Change [.berths] s (State.modObj s b hd f) := by
  refine State.modBerth_frame _ _ _ fun h => ⟨fun p hp => ?_, h.2⟩
  cases mem_tset hp with
  | inl e =>
    rw [e]
    exact k _ (by
      cases tget_default_or_mem (s.berth b).objs {} _ with
      | inl d => rw [d]; decide
      | inr m => exact h.1 _ m)
  | inr m => exact h.1 p m

theorem State.modEvt_frame (s b hd f) (k : ∀ o, o.gen ≠ 0 → (f o).gen ≠ 0) : Change [.berths] s (State.modEvt s b hd f) := by
  refine State.modBerth_frame _ _ _ fun h => ⟨h.1, fun p hp => ?_⟩
  cases mem_tset hp with
  | inl e =>
    rw [e]
    exact k _ (by
      cases tget_default_or_mem (s.berth b).evts {} _ with
      | inl d => rw [d]; decide
      | inr m => exact h.2 _ m)
  | inr m => exact h.2 p m

theorem State.objSweep_frame (s b h) : Change [.out, .berths, .host, .mbox] s (State.objSweep s b h) := by
  unfold State.objSweep
  split
  · exact Change.refl
  · split
    · refine Change.tr ?_ (State.berthEvent_frame _ _ _ _ _ _) rfl
      refine Change.refl.tr (State.modBerth_frame _ _ _ ?_) rfl
      refine fun h => ⟨fun p hp => ?_, h.2⟩
      cases mem_tset hp with
      | inl e => rw [e]; exact Nat.succ_ne_zero _
      | inr m => exact h.1 p m
    · exact Change.refl

theorem State.evtSweep_frame (s b h) : Change [.berths] s (State.evtSweep s b h) := by
  unfold State.evtSweep
  split
  · exact Change.refl
  · split
    · refine State.modBerth_frame _ _ _ ?_
      refine fun h => ⟨h.1, fun p hp => ?_⟩
      cases mem_tset hp with
      | inl e => rw [e]; exact Nat.succ_ne_zero _
      | inr m => exact h.2 p m
    · exact Change.refl

theorem State.evtSet_frame (s b h value status) : Change [.out, .berths, .host, .mbox] s (State.evtSet s b h value status) := by
  unfold State.evtSet
  with_reducible repeat' first
    | (apply partsIn.id; with_unfolding_all rfl)
    | apply Change.refl
    | apply Change.ite ?_ ?_
    | apply Change.tr ?_ (State.modEvt_frame _ _ _ _ ?_) ?_
    | apply Change.tr ?_ (State.berthEvent_frame ..) ?_
    | split
    | exact fun _ h => h

theorem State.dropRefs_frame (s b a) : Change [.out, .berths, .host, .mbox] s (State.dropRefs s b a) := by
  unfold State.dropRefs
  with_reducible repeat' first
    | (apply partsIn.id; with_unfolding_all rfl)
    | apply Change.refl
    | apply Change.tr ?_ (State.objSweep_frame ..) ?_
    | apply Change.tr ?_ (State.modObj_frame _ _ _ _ ?_) ?_
    | apply Change.tr ?_ (State.evtSweep_frame ..) ?_
    | apply Change.tr ?_ (State.modEvt_frame _ _ _ _ ?_) ?_
    | apply Change.forL ?_ fun _ _ _ => ?_
    | assumption
    | exact fun _ h => h

theorem State.dropHolder_frame (s b c) : Change [.out, .berths, .host, .mbox] s (State.dropHolder s b c) := by
  unfold State.dropHolder
  with_reducible repeat' first
    | (apply partsIn.id; with_unfolding_all rfl)
    | apply Change.refl
    | apply Change.tr ?_ (State.objSweep_frame ..) ?_
    | apply Change.tr ?_ (State.modObj_frame _ _ _ _ ?_) ?_
    | apply Change.tr ?_ (State.evtSweep_frame ..) ?_
    | apply Change.tr ?_ (State.modEvt_frame _ _ _ _ ?_) ?_
    | apply Change.forL ?_ fun _ _ _ => ?_
    | assumption
    | exact fun _ h => h

theorem State.unitPoison_frame (s b reader va n) :
    Change [.out, .berths, .host, .mbox] s (State.unitPoison s b reader va n) := by
  unfold State.unitPoison
  with_reducible repeat' first
    | (apply partsIn.id; with_unfolding_all rfl)
    | apply Change.refl
    | apply Change.tr ?_ (State.poisonRead_frame ..) ?_
    | apply Change.forL ?_ fun _ _ _ => ?_
    | assumption

theorem State.unitWrite_frame (s b va bs marked) :
    Change [.out, .mem, .chans, .host, .mbox, .fabric] s (State.unitWrite s b va bs marked) := by
  unfold State.unitWrite
  with_reducible repeat' first
    | (apply partsIn.id; with_unfolding_all rfl)
    | apply Change.refl
    | apply Change.tr ?_ (State.controlWrite_frame ..) ?_
    | apply Change.tr ?_ (State.homeStore_frame ..) ?_
    | apply Change.tr ?_ (State.remoteStore_frame ..) ?_
    | apply Change.forL ?_ fun _ _ _ => ?_
    | assumption
    | split

end Sys2Proof.Machine
end

