-- ==== Sys2Proof/Laws/ChangeStreams.lean ====
section
/-!
SUPPORT. What each operation changes and keeps: streams, the fabric and exchange.
-/

namespace Sys2Proof.Machine

theorem State.putBlob_frame (s index sub v) : Change [.dict] s (State.putBlob s index sub v) := by
  unfold State.putBlob
  with_reducible repeat' first
    | apply Change.refl
    | apply Change.ite ?_ ?_
    | extract_lets
    | apply Change.forL ?_ fun _ _ _ => ?_
    | apply Change.forN ?_ fun _ _ _ => ?_
    | apply Change.foldl ?_ fun _ _ _ => ?_
    | assumption
    | split
    | apply Change.setDict ?_ (by with_unfolding_all rfl) (by apply Part.kept_dict; rfl)

theorem State.modStrm_frame (s b st f) : Change [.streams] s (State.modStrm s b st f) := by
  unfold State.modStrm
  with_reducible repeat' first
    | apply Change.refl
    | apply Change.ite ?_ ?_
    | extract_lets
    | apply Change.forL ?_ fun _ _ _ => ?_
    | apply Change.forN ?_ fun _ _ _ => ?_
    | apply Change.foldl ?_ fun _ _ _ => ?_
    | assumption
    | split
    | apply Change.setStreams ?_ (by with_unfolding_all rfl)

theorem State.sluice_frame (s b st cmd arg arg2) : Change [.out, .streams] s (State.sluice s b st cmd arg arg2) := by
  unfold State.sluice
  with_reducible repeat' first
    | (apply partsIn.id; with_unfolding_all rfl)
    | apply Change.refl
    | apply Change.ite ?_ ?_
    | apply Change.tr ?_ (State.emit_frame ..) ?_
    | apply Change.tr ?_ (State.modStrm_frame ..) ?_
    | split

theorem State.sluiceCheck_frame (s b st) : Change [.out, .streams] s (State.sluiceCheck s b st) := by
  unfold State.sluiceCheck
  with_reducible repeat' first
    | (apply partsIn.id; with_unfolding_all rfl)
    | apply Change.refl
    | apply Change.ite ?_ ?_
    | apply Change.tr ?_ (State.sluice_frame ..) ?_
    | apply Change.tr ?_ (State.modStrm_frame ..) ?_

theorem State.recordBad_frame (s b st r n) : Change [.out, .host, .mbox, .streams] s (State.recordBad s b st r n) := by
  unfold State.recordBad
  with_reducible repeat' first
    | (apply partsIn.id; with_unfolding_all rfl)
    | apply Change.refl
    | apply Change.ite ?_ ?_
    | apply Change.tr ?_ (State.modStrm_frame ..) ?_
    | apply Change.tr ?_ (State.sluice_frame ..) ?_
    | apply Change.tr ?_ (State.berthEvent_frame ..) ?_

theorem State.checkRecord_frame (s b st) : Change [.out, .host, .mbox, .streams] s (State.checkRecord s b st) := by
  unfold State.checkRecord
  extract_lets x
  split
  · exact Change.refl
  · extract_lets r len n
    split
    · exact Change.refl
    · split
      · exact Change.refl
      · split
        · exact (Change.refl.tr (State.modStrm_frame _ _ _ _) rfl).tr (State.berthEvent_frame _ _ _ _ _ _) rfl
        · split
          · exact Change.refl.tr (State.modStrm_frame _ _ _ _) rfl
          · exact Change.refl.tr (State.recordBad_frame _ _ _ _ _) rfl

theorem State.dropStale_frame (s b st) : Change [.streams] s (State.dropStale s b st) := by
  unfold State.dropStale
  with_reducible repeat' first
    | (apply partsIn.id; with_unfolding_all rfl)
    | apply Change.refl
    | extract_lets
    | apply Change.tr ?_ (State.modStrm_frame ..) ?_
    | split

theorem State.settleStrm_frame (s b st) : Change [.out, .host, .mbox, .streams] s (State.settleStrm s b st) := by
  unfold State.settleStrm
  with_reducible repeat' first
    | (apply partsIn.id; with_unfolding_all rfl)
    | apply Change.refl
    | apply Change.tr ?_ (State.sluiceCheck_frame ..) ?_
    | apply Change.tr ?_ (State.dropStale_frame ..) ?_
    | apply Change.tr ?_ (State.checkRecord_frame ..) ?_
    | apply Change.forN ?_ fun _ _ _ => ?_
    | assumption

theorem State.settleStrms_frame (s b) : Change [.out, .host, .mbox, .streams] s (State.settleStrms s b) := by
  unfold State.settleStrms
  with_reducible repeat' first
    | (apply partsIn.id; with_unfolding_all rfl)
    | apply Change.refl
    | apply Change.ite ?_ ?_
    | apply Change.tr ?_ (State.settleStrm_frame ..) ?_
    | apply Change.forN ?_ fun _ _ _ => ?_
    | assumption

theorem State.landFrame_frame (s b st f) :
    Change [.free, .out, .mem, .chans, .host, .mbox, .fabric, .streams] s (State.landFrame s b st f) := by
  unfold State.landFrame
  with_reducible repeat' first
    | (apply partsIn.id; with_unfolding_all rfl)
    | apply Change.refl
    | apply Change.ite ?_ ?_
    | apply Change.tr ?_ (State.unitWrite_frame ..) ?_
    | apply Change.tr ?_ (State.modStrm_frame ..) ?_
    | apply Change.tr ?_ (State.nextFree_frame ..) ?_
    | apply Change.tr ?_ (State.settleStrm_frame ..) ?_
    | apply Change.tr ?_ (State.sluice_frame ..) ?_

theorem State.dropFrame_frame (s b st k) : Change [.out, .host, .mbox, .streams] s (State.dropFrame s b st k) := by
  unfold State.dropFrame
  with_reducible repeat' first
    | (apply partsIn.id; with_unfolding_all rfl)
    | apply Change.refl
    | apply Change.ite ?_ ?_
    | apply Change.tr ?_ (State.modStrm_frame ..) ?_
    | apply Change.tr ?_ (State.berthEvent_frame ..) ?_
    | split

theorem execStreamFrameArrival_frame (port src srcPort dstPort udpOk payload s) :
    ChangeO [.free, .out, .mem, .chans, .host, .mbox, .fabric, .streams, .basins]
      s (execStreamFrameArrival port src srcPort dstPort udpOk payload s) := by
  unfold execStreamFrameArrival
  with_reducible repeat' first
    | (apply partsIn.id; with_unfolding_all rfl)
    | apply Change.refl
    | apply ChangeO.ite ?_ ?_
    | apply Change.ite ?_ ?_
    | extract_lets
    | apply ChangeO.mk ?_
    | apply ChangeO.stop
    | apply Change.tr ?_ (State.modStrm_frame ..) ?_
    | apply Change.tr ?_ (State.landFrame_frame ..) ?_
    | apply Change.tr ?_ (State.dropFrame_frame ..) ?_
    | apply Change.forL ?_ fun _ _ _ => ?_
    | apply Change.forN ?_ fun _ _ _ => ?_
    | apply Change.foldl ?_ fun _ _ _ => ?_
    | assumption
    | split
    | apply Change.setBasins ?_ (by with_unfolding_all rfl)

theorem execGapWaitExpiry_frame (b st seq s) : ChangeO [.out, .host, .mbox, .streams] s (execGapWaitExpiry b st seq s) := by
  unfold execGapWaitExpiry
  with_reducible repeat' first
    | (apply partsIn.id; with_unfolding_all rfl)
    | apply Change.refl
    | apply Change.ite ?_ ?_
    | apply ChangeO.mk ?_
    | apply Change.tr ?_ (State.modStrm_frame ..) ?_
    | apply Change.tr ?_ (State.sluice_frame ..) ?_
    | apply Change.tr ?_ (State.berthEvent_frame ..) ?_

theorem execAckPeriodEnd_frame (b st s) : ChangeO [.out, .streams] s (execAckPeriodEnd b st s) := by
  unfold execAckPeriodEnd
  with_reducible repeat' first
    | (apply partsIn.id; with_unfolding_all rfl)
    | apply Change.refl
    | apply Change.ite ?_ ?_
    | apply ChangeO.mk ?_
    | apply Change.tr ?_ (State.modStrm_frame ..) ?_
    | apply Change.tr ?_ (State.sluice_frame ..) ?_

theorem execSluiceRepeatTimer_frame (b st s) : ChangeO [.out, .streams] s (execSluiceRepeatTimer b st s) := by
  unfold execSluiceRepeatTimer
  with_reducible repeat' first
    | (apply partsIn.id; with_unfolding_all rfl)
    | apply Change.refl
    | apply Change.ite ?_ ?_
    | apply ChangeO.mk ?_
    | apply Change.tr ?_ (State.modStrm_frame ..) ?_
    | apply Change.tr ?_ (State.sluice_frame ..) ?_

theorem State.restartStrm_frame (s b st v) : Change [.out, .streams] s (State.restartStrm s b st v) := by
  unfold State.restartStrm
  with_reducible repeat' first
    | (apply partsIn.id; with_unfolding_all rfl)
    | apply Change.refl
    | apply Change.tr ?_ (State.modStrm_frame ..) ?_
    | apply Change.tr ?_ (State.sluice_frame ..) ?_

theorem State.restartStrms_frame (s b) : Change [.out, .streams] s (State.restartStrms s b) := by
  unfold State.restartStrms
  with_reducible repeat' first
    | (apply partsIn.id; with_unfolding_all rfl)
    | apply Change.refl
    | apply Change.ite ?_ ?_
    | apply Change.tr ?_ (State.restartStrm_frame ..) ?_
    | apply Change.forN ?_ fun _ _ _ => ?_
    | assumption

theorem State.disableStrm_frame (s b st) : Change [.streams] s (State.disableStrm s b st) := by
  unfold State.disableStrm
  with_reducible repeat' first
    | (apply partsIn.id; with_unfolding_all rfl)
    | apply Change.refl
    | apply Change.tr ?_ (State.modStrm_frame ..) ?_

theorem State.writeEnable_frame (s b st v) : Change2 [.out, .streams] s (State.writeEnable s b st v) := by
  unfold State.writeEnable
  with_reducible repeat' first
    | (apply partsIn.id; with_unfolding_all rfl)
    | apply Change.refl
    | apply Change.ite ?_ ?_
    | apply Change.tr ?_ (State.disableStrm_frame ..) ?_
    | apply Change.tr ?_ (State.restartStrm_frame ..) ?_
    | apply Change2.mk ?_

theorem Change.byDict {l s} {t :
    State} {index sub : Nat} {f : State → Nat × State} (h : Change l s t) (w : partsIn [.out] l = true)
    (k : Change l s t → Change l s (f t).2) : Change l s (t.byDict index sub f) := by
  unfold State.byDict
  split
  · exact h
  · exact (k h).tr (State.emit_frame _ _) w

theorem execStreamEnable_frame (b st v s) : ChangeO [.out, .streams] s (execStreamEnable b st v s) := by
  unfold execStreamEnable
  with_reducible repeat' first
    | (apply partsIn.id; with_unfolding_all rfl)
    | apply Change.refl
    | apply Change.ite ?_ ?_
    | apply ChangeO.mk ?_
    | apply Change.byDict ?_ ?_ fun _ => ?_
    | apply Change2.tr ?_ (State.writeEnable_frame ..) ?_

theorem execStreamDisable_frame (b st s) : ChangeO [.out, .streams] s (execStreamDisable b st s) := by
  unfold execStreamDisable
  with_reducible repeat' first
    | (apply partsIn.id; with_unfolding_all rfl)
    | apply Change.refl
    | apply ChangeO.mk ?_
    | apply Change.byDict ?_ ?_ fun _ => ?_
    | apply Change2.tr ?_ (State.writeEnable_frame ..) ?_

theorem execBasinPortLinkChange_frame (port up s) : ChangeO [.basins] s (execBasinPortLinkChange port up s) := by
  unfold execBasinPortLinkChange
  with_reducible repeat' first
    | apply Change.refl
    | apply ChangeO.ite ?_ ?_
    | apply Change.ite ?_ ?_
    | extract_lets
    | apply ChangeO.mk ?_
    | apply ChangeO.stop
    | apply Change.forL ?_ fun _ _ _ => ?_
    | apply Change.forN ?_ fun _ _ _ => ?_
    | apply Change.foldl ?_ fun _ _ _ => ?_
    | assumption
    | split
    | apply Change.setBasins ?_ (by with_unfolding_all rfl)

theorem State.modRound_frame (s d i r f) : Change [.fabric] s (State.modRound s d i r f) := by
  unfold State.modRound
  with_reducible repeat' first
    | (apply partsIn.id; with_unfolding_all rfl)
    | apply Change.refl
    | apply Change.tr ?_ (State.modExch_frame ..) ?_

theorem State.exchEvent_frame (s b d i r code names) :
    Change [.out, .host, .mbox, .fabric] s (State.exchEvent s b d i r code names) := by
  unfold State.exchEvent
  with_reducible repeat' first
    | (apply partsIn.id; with_unfolding_all rfl)
    | apply Change.refl
    | apply Change.ite ?_ ?_
    | apply Change.tr ?_ (State.berthEvent_frame ..) ?_
    | apply Change.tr ?_ (State.modRound_frame ..) ?_
    | apply Change.tr ?_ (State.emit_frame ..) ?_

theorem State.exchDrop_frame (s b d i r code) : Change [.out, .host, .mbox, .fabric] s (State.exchDrop s b d i r code) := by
  unfold State.exchDrop
  with_reducible repeat' first
    | (apply partsIn.id; with_unfolding_all rfl)
    | apply Change.refl
    | apply Change.tr ?_ (State.exchEvent_frame ..) ?_
    | apply Change.tr ?_ (State.modRound_frame ..) ?_

theorem State.exchSend_frame (s c rank pkt) : Change [.out, .host, .mbox, .fabric] s (State.exchSend s c rank pkt) := by
  unfold State.exchSend
  with_reducible repeat' first
    | (apply partsIn.id; with_unfolding_all rfl)
    | apply Change.refl
    | apply Change.ite ?_ ?_
    | apply Change.tr ?_ (State.modExch_frame ..) ?_
    | apply Change.tr ?_ (State.sendNumbered_frame ..) ?_

theorem State.addCell_frame (s c sc e g) : Change [.out, .mem, .chans, .berths, .host, .mbox] s (State.addCell s c sc e g) := by
  unfold State.addCell
  with_reducible repeat' first
    | (apply partsIn.id; with_unfolding_all rfl)
    | apply Change.refl
    | apply Change1.tr ?_ (State.homeAdd_frame ..) ?_
    | split

theorem State.trackSender_frame (s c m total) : Change [.out, .mem, .host, .mbox] s (State.trackSender s c m total) := by
  unfold State.trackSender
  with_reducible repeat' first
    | (apply partsIn.id; with_unfolding_all rfl)
    | apply Change.refl
    | apply Change.ite ?_ ?_
    | apply Change.tr ?_ (State.writeVirt_frame ..) ?_

theorem State.endRound_frame (s c) : Change [.out, .mem, .host, .mbox, .fabric] s (State.endRound s c) := by
  unfold State.endRound
  with_reducible repeat' first
    | (apply partsIn.id; with_unfolding_all rfl)
    | apply Change.refl
    | apply Change.tr ?_ (State.writeVirt_frame ..) ?_
    | apply Change.tr ?_ (State.modExch_frame ..) ?_
    | split

theorem State.endShard_frame (s c round) :
    Change [.out, .mem, .berths, .host, .mbox, .fabric] s (State.endShard s c round) := by
  unfold State.endShard
  with_reducible repeat' first
    | (apply partsIn.id; with_unfolding_all rfl)
    | apply Change.refl
    | apply Change.ite ?_ ?_
    | apply Change.tr ?_ (State.writeVirt_frame ..) ?_
    | apply Change.tr ?_ (State.count_frame ..) ?_
    | apply Change.tr ?_ (State.modRound_frame ..) ?_
    | apply Change.tr ?_ (State.exchSend_frame ..) ?_
    | apply Change.tr ?_ (State.endRound_frame ..) ?_
    | apply Change.forL ?_ fun _ _ _ => ?_
    | assumption

theorem State.takeContrib_frame (s c p) :
    Change [.out, .mem, .chans, .berths, .host, .mbox, .fabric] s (State.takeContrib s c p) := by
  unfold State.takeContrib
  with_reducible repeat' first
    | (apply partsIn.id; with_unfolding_all rfl)
    | apply Change.refl
    | apply Change.ite ?_ ?_
    | apply Change.tr ?_ (State.addCell_frame ..) ?_
    | apply Change.tr ?_ (State.modRound_frame ..) ?_
    | apply Change.tr ?_ (State.trackSender_frame ..) ?_
    | apply Change.tr ?_ (State.endShard_frame ..) ?_
    | apply Change.forL ?_ fun _ _ _ => ?_
    | assumption

theorem State.contribIn_frame (s b d p) :
    Change [.out, .mem, .chans, .berths, .host, .mbox, .fabric] s (State.contribIn s b d p) := by
  unfold State.contribIn
  with_reducible repeat' first
    | (apply partsIn.id; with_unfolding_all rfl)
    | apply Change.refl
    | extract_lets
    | apply Change.tr ?_ (State.exchDrop_frame ..) ?_
    | apply Change.tr ?_ (State.takeContrib_frame ..) ?_
    | split

theorem State.resultIn_frame (s b d p) : Change [.out, .mem, .host, .mbox, .fabric] s (State.resultIn s b d p) := by
  unfold State.resultIn
  with_reducible repeat' first
    | (apply partsIn.id; with_unfolding_all rfl)
    | apply Change.refl
    | extract_lets
    | apply Change.tr ?_ (State.exchDrop_frame ..) ?_
    | apply Change.tr ?_ (State.writeVirt_frame ..) ?_
    | apply Change.tr ?_ (State.endRound_frame ..) ?_
    | apply Change.tr ?_ (State.modRound_frame ..) ?_
    | split

theorem State.poisonRange_frame (s b reader va n) :
    Change [.out, .berths, .host, .mbox] s (State.poisonRange s b reader va n) := by
  unfold State.poisonRange
  with_reducible repeat' first
    | (apply partsIn.id; with_unfolding_all rfl)
    | apply Change.refl
    | apply Change.tr ?_ (State.poisonReads_frame ..) ?_
    | apply Change.forL ?_ fun _ _ _ => ?_
    | assumption
    | split

theorem State.sendShard_frame (s c round sh) :
    Change [.out, .mem, .chans, .berths, .host, .mbox, .fabric] s (State.sendShard s c round sh) := by
  unfold State.sendShard
  with_reducible repeat' first
    | (apply partsIn.id; with_unfolding_all rfl)
    | apply Change.refl
    | apply Change.tr ?_ (State.poisonRange_frame ..) ?_
    | apply Change.tr ?_ (State.writeVirt_frame ..) ?_
    | apply Change.tr ?_ (State.modRound_frame ..) ?_
    | apply Change.tr ?_ (State.contribIn_frame ..) ?_
    | apply Change.tr ?_ (State.exchSend_frame ..) ?_
    | apply Change.forL ?_ fun _ _ _ => ?_
    | assumption
    | split
    | dsimp +zetaDelta only

theorem State.startRound_frame (s c) :
    Change [.out, .mem, .chans, .berths, .host, .mbox, .fabric] s (State.startRound s c) := by
  unfold State.startRound
  with_reducible repeat' first
    | (apply partsIn.id; with_unfolding_all rfl)
    | apply Change.refl
    | apply Change.ite ?_ ?_
    | apply Change.tr ?_ (State.modRound_frame ..) ?_
    | apply Change.tr ?_ (State.sendShard_frame ..) ?_
    | apply Change.tr ?_ (State.endShard_frame ..) ?_
    | apply Change.tr ?_ (State.endRound_frame ..) ?_
    | apply Change.forL ?_ fun _ _ _ => ?_
    | assumption

theorem State.refusePost_frame (s b d i code) : Change [.out, .mem, .host, .mbox] s (State.refusePost s b d i code) := by
  unfold State.refusePost
  with_reducible repeat' first
    | (apply partsIn.id; with_unfolding_all rfl)
    | apply Change.refl
    | apply Change.tr ?_ (State.writeVirt_frame ..) ?_
    | apply Change.tr ?_ (State.berthEvent_frame ..) ?_
    | split
    | dsimp +zetaDelta only

theorem State.runPost_frame (s b d v) :
    Change [.out, .mem, .chans, .berths, .host, .mbox, .fabric] s (State.runPost s b d v) := by
  unfold State.runPost
  with_reducible repeat' first
    | (apply partsIn.id; with_unfolding_all rfl)
    | apply Change.refl
    | apply Change.ite ?_ ?_
    | apply Change.tr ?_ (State.refusePost_frame ..) ?_
    | apply Change.tr ?_ (State.startRound_frame ..) ?_
    | split

theorem execPostRegisterWrite_frame (die value s) : ChangeO [.fabric] s (execPostRegisterWrite die value s) := by
  unfold execPostRegisterWrite
  with_reducible repeat' first
    | (apply partsIn.id; with_unfolding_all rfl)
    | apply Change.refl
    | apply ChangeO.mk ?_
    | apply Change.tr ?_ (State.post_frame ..) ?_
    | split

theorem execExchPostTake_frame (die s) :
    ChangeO [.out, .mem, .chans, .berths, .host, .mbox, .fabric] s (execExchPostTake die s) := by
  unfold execExchPostTake
  with_reducible repeat' first
    | (apply partsIn.id; with_unfolding_all rfl)
    | apply Change.refl
    | apply ChangeO.mk ?_
    | apply Change.tr ?_ (State.runPost_frame ..) ?_
    | apply Change.tr ?_ (State.modExch_frame ..) ?_
    | split

theorem Change.engineIn {l s} {t : State} {die idx : Nat} {result : Bool} {f : Nat → Bytes → State → State} (h : Change l s t)
    (w : partsIn [.out, .host, .mbox, .fabric] l = true) (k : ∀ a b u, Change l s u → Change l s (f a b u)) : Change l s (t.engineIn die idx result f) := by
  unfold State.engineIn
  split
  · exact h
  · split
    · exact h
    · extract_lets u
      have j : Change l s u := h.tr (State.modExch_frame _ _ _) (partsIn.trans rfl w)
      split
      · exact j.tr (State.ghostDrop_frame _) (partsIn.trans rfl w)
      · split
        · exact j.tr (State.ghostDrop_frame _) (partsIn.trans rfl w)
        · exact k _ _ _ j

theorem execExchPacketArrival_frame (die idx s) :
    ChangeO [.out, .mem, .chans, .berths, .host, .mbox, .fabric] s (execExchPacketArrival die idx s) := by
  unfold execExchPacketArrival
  with_reducible repeat' first
    | (apply partsIn.id; with_unfolding_all rfl)
    | apply Change.refl
    | apply ChangeO.mk ?_
    | apply Change.engineIn ?_ ?_ fun _ _ _ _ => ?_
    | apply Change.tr ?_ (State.contribIn_frame ..) ?_
    | assumption

theorem execExchResultArrival_frame (die idx s) :
    ChangeO [.out, .mem, .host, .mbox, .fabric] s (execExchResultArrival die idx s) := by
  unfold execExchResultArrival
  with_reducible repeat' first
    | (apply partsIn.id; with_unfolding_all rfl)
    | apply Change.refl
    | apply ChangeO.mk ?_
    | apply Change.engineIn ?_ ?_ fun _ _ _ _ => ?_
    | apply Change.tr ?_ (State.resultIn_frame ..) ?_
    | assumption

theorem execExchDeadline_frame (die bucket s) : ChangeO [.out, .host, .mbox, .fabric] s (execExchDeadline die bucket s) := by
  unfold execExchDeadline
  with_reducible repeat' first
    | (apply partsIn.id; with_unfolding_all rfl)
    | apply Change.refl
    | apply ChangeO.mk ?_
    | apply Change.tr ?_ (State.exchEvent_frame ..) ?_
    | split

end Sys2Proof.Machine
end

