-- ==== Sys2Proof/Laws/ChangeThreads.lean ====
section
/-!
SUPPORT. What each operation changes and keeps: the matrix array, thread accesses, control flow and kernels.
-/

namespace Sys2Proof.Machine

theorem State.enterArray_frame (s t i addr tk) :
    Change [.free, .out, .mem, .cores, .berths, .host, .mbox, .launches, .fabric] s (State.enterArray s t i addr tk) := by
  unfold State.enterArray
  extract_lets k abort words d maskRec conv maps skipped src g u e k1 k2
  refine Change.ite (Change.refl.tr (State.abortGroup_frame _ _ _ _ _ _ _) rfl) ?_
  split
  · exact Change.refl.tr (State.abortGroup_frame _ _ _ _ _ _ _) rfl
  · refine Change.ite (Change.tr ?_ (State.next_frame _ _ _ _) rfl) ?_
    · exact Change.ite Change.refl (Change.refl.tr (State.modCore_frame _ _ _ (CoreKept.mk fun h => Store.ok_write _ _ _ h)) rfl)
    · refine Change.tr (Change.refl.tr (State.setCore_frame _ _ _ (CoreKept.of ?_)) rfl) (State.next_frame _ _ _ _) rfl
      dsimp only [k2]
      split
      · exact gatherIn_lm ..
      · rfl

theorem execMiss_frame (t a tk s) :
    ChangeO [.free, .out, .mem, .cores, .berths, .host, .mbox, .launches, .fabric] s (execMiss t a tk s) := by
  unfold execMiss
  with_reducible repeat' first
    | (apply partsIn.id; with_unfolding_all rfl)
    | apply Change.refl
    | apply Change.ite ?_ ?_
    | apply ChangeO.mk ?_
    | apply Change.issue ?_ fun _ => ?_
    | apply Change.tr ?_ (State.enterArray_frame ..) ?_

theorem execMatrixStart_frame (core id s) : ChangeO [.cores] s (execMatrixStart core id s) := by
  unfold execMatrixStart
  with_reducible repeat' first
    | (apply partsIn.id; with_unfolding_all rfl)
    | apply Change.refl
    | apply ChangeO.mk ?_
    | apply Change.tr ?_ (State.setCore_frame _ _ _ ?_) ?_
    | split
    | (apply CoreKept.of; rfl)

theorem execRingSegmentFilled_frame (core id s) : ChangeO [.free, .cores] s (execRingSegmentFilled core id s) := by
  unfold execRingSegmentFilled
  refine ChangeO.mk ?_
  split
  · exact Change.refl
  · refine Change.ite ?_ Change.refl
    exact Change.tr (Change.refl.tr (State.nextFree_frame _) rfl)
      (State.setCore_frame _ _ _ (CoreKept.mk fun h => Store.ok_write _ _ _ h)) rfl

theorem execGatherWaitExpiry_frame (core fill s) : ChangeO [.cores] s (execGatherWaitExpiry core fill s) := by
  unfold execGatherWaitExpiry
  exact ChangeO.mk (Change.ite (Change.refl.tr (State.setCore_frame _ _ _ (CoreKept.of rfl)) rfl) Change.refl)

theorem State.reportOperands_frame (s c b e) : Change [.out, .berths, .host, .mbox] s (State.reportOperands s c b e) := by
  unfold State.reportOperands
  with_reducible repeat' first
    | (apply partsIn.id; with_unfolding_all rfl)
    | apply Change.refl
    | apply Change.tr ?_ (State.poisonRead_frame ..) ?_
    | apply Change.forL ?_ fun _ _ _ => ?_
    | assumption

theorem State.matrixFinish_frame (s core e bank) :
    Change [.free, .out, .mem, .cores, .berths, .host, .mbox, .fabric] s (State.matrixFinish s core e bank) := by
  unfold State.matrixFinish
  extract_lets k b n es fold old drain t ids u
  have h0 : Change [.free, .out, .mem, .cores, .berths, .host, .mbox, .fabric] s n := Change.refl.tr (State.nextFree_frame _) rfl
  refine Change.forL ?_ fun x v j => j.tr (State.signal_frame _ _ _ _ _) rfl
  refine Change.tr ?_ (State.modCore_frame _ _ _ (CoreKept.of rfl)) rfl
  refine Change.ite (Change.forL h0 fun x v j => j.tr (State.matrixDrain_frame _ _ _ _ _ _) rfl) ?_
  exact (h0.tr (State.reportOperands_frame _ _ _ _) rfl).tr (State.modCore_frame _ _ _ (CoreKept.of rfl)) rfl

theorem execMatrixComplete_frame (core id residues s) :
    ChangeO [.free, .out, .mem, .cores, .berths, .host, .mbox, .launches, .defects, .fabric]
      s (execMatrixComplete core id residues s) := by
  unfold execMatrixComplete
  with_reducible repeat' first
    | (apply partsIn.id; with_unfolding_all rfl)
    | apply Change.refl
    | apply ChangeO.ite ?_ ?_
    | apply Change.ite ?_ ?_
    | extract_lets
    | apply ChangeO.mk ?_
    | apply ChangeO.stop
    | apply Change.tr ?_ (State.matrixFinish_frame ..) ?_
    | apply Change.tr ?_ (State.modCore_frame _ _ _ ?_) ?_
    | apply Change.tr ?_ (State.abortLaunch_frame ..) ?_
    | apply Change.forL ?_ fun _ _ _ => ?_
    | apply Change.forN ?_ fun _ _ _ => ?_
    | apply Change.foldl ?_ fun _ _ _ => ?_
    | assumption
    | split
    | (apply CoreKept.of; rfl)
    | apply Change.setDefects ?_ (by with_unfolding_all rfl) (by apply Part.kept_defects; rfl)

theorem State.sendAccess_frame (s core a) : Change [.out, .host, .mbox, .fabric] s (State.sendAccess s core a) := by
  unfold State.sendAccess
  with_reducible repeat' first
    | (apply partsIn.id; with_unfolding_all rfl)
    | apply Change.refl
    | apply Change.tr ?_ (State.sendRequest_frame ..) ?_
    | split

theorem State.openAccesses_frame (s core as) :
    Change [.out, .cores, .host, .mbox, .fabric] s (State.openAccesses s core as) := by
  unfold State.openAccesses
  with_reducible repeat' first
    | (apply partsIn.id; with_unfolding_all rfl)
    | apply Change.refl
    | apply Change.tr ?_ (State.setCore_frame _ _ _ ?_) ?_
    | apply Change.tr ?_ (State.sendAccess_frame ..) ?_
    | apply Change.forL ?_ fun _ _ _ => ?_
    | assumption
    | (apply CoreKept.of; rfl)

theorem State.loadIssue_frame (s t o scalar l1bad) :
    Change [.free, .out, .mem, .cores, .berths, .host, .mbox, .launches, .fabric] s (State.loadIssue s t o scalar l1bad) := by
  unfold State.loadIssue
  with_reducible repeat' first
    | (apply partsIn.id; with_unfolding_all rfl)
    | apply Change.refl
    | extract_lets
    | apply Change.issue ?_ fun _ => ?_
    | apply Change.tr ?_ (State.abortGroup_frame ..) ?_
    | apply Change.tr ?_ (State.next_frame ..) ?_
    | apply Change.tr ?_ (State.openAccesses_frame ..) ?_
    | apply Change.tr ?_ (State.setCore_frame _ _ _ ?_) ?_
    | split
    | (apply CoreKept.of; apply dropBad_lm)

theorem execLd_frame (t o l1bad s) :
    ChangeO [.free, .out, .mem, .cores, .berths, .host, .mbox, .launches, .fabric] s (execLd t o l1bad s) := by
  unfold execLd
  with_reducible repeat' first
    | (apply partsIn.id; with_unfolding_all rfl)
    | apply Change.refl
    | apply Change.ite ?_ ?_
    | apply ChangeO.mk ?_
    | apply Change.tr ?_ (State.loadIssue_frame ..) ?_

theorem execLds_frame (t o l1bad s) :
    ChangeO [.free, .out, .mem, .cores, .berths, .host, .mbox, .launches, .fabric] s (execLds t o l1bad s) := by
  unfold execLds
  with_reducible repeat' first
    | (apply partsIn.id; with_unfolding_all rfl)
    | apply Change.refl
    | apply Change.ite ?_ ?_
    | apply ChangeO.mk ?_
    | apply Change.tr ?_ (State.loadIssue_frame ..) ?_

theorem State.storeIssue_frame (s t o scalar) :
    Change [.free, .out, .mem, .cores, .berths, .host, .mbox, .launches, .fabric] s (State.storeIssue s t o scalar) := by
  unfold State.storeIssue
  refine Change.issue Change.refl fun i => ?_
  split
  · exact Change.refl.tr (State.abortGroup_frame _ _ _ _ _ _ _) rfl
  · extract_lets u
    refine Change.ite ?_ Change.refl
    refine Change.tr (Change.tr ?_ (State.openAccesses_frame _ _ _) rfl) (State.next_frame _ _ _ _) rfl
    exact Change.refl.tr (State.modCore_frame _ _ _ (CoreKept.mk fun h => Store.ok_foldl h fun _ _ j => Store.ok_write _ _ _ j)) rfl

theorem execSt_frame (t o s) :
    ChangeO [.free, .out, .mem, .cores, .berths, .host, .mbox, .launches, .fabric] s (execSt t o s) := by
  unfold execSt
  with_reducible repeat' first
    | (apply partsIn.id; with_unfolding_all rfl)
    | apply Change.refl
    | apply Change.ite ?_ ?_
    | apply ChangeO.mk ?_
    | apply Change.tr ?_ (State.storeIssue_frame ..) ?_

theorem execSts_frame (t o s) :
    ChangeO [.free, .out, .mem, .cores, .berths, .host, .mbox, .launches, .fabric] s (execSts t o s) := by
  unfold execSts
  with_reducible repeat' first
    | (apply partsIn.id; with_unfolding_all rfl)
    | apply Change.refl
    | apply Change.ite ?_ ?_
    | apply ChangeO.mk ?_
    | apply Change.tr ?_ (State.storeIssue_frame ..) ?_

theorem State.atomIssue_frame (s t aop o) :
    Change [.free, .out, .mem, .cores, .berths, .host, .mbox, .launches, .fabric] s (State.atomIssue s t aop o) := by
  unfold State.atomIssue
  refine Change.issue Change.refl fun i => ?_
  split
  · exact Change.refl.tr (State.abortGroup_frame _ _ _ _ _ _ _) rfl
  · extract_lets lm r u near
    refine Change.ite ?_ Change.refl
    refine Change.tr (Change.tr ?_ (State.openAccesses_frame _ _ _) rfl) (State.next_frame _ _ _ _) rfl
    exact Change.refl.tr (State.modCore_frame _ _ _ (CoreKept.mk fun h => lmAtomics_ok _ _ _ h)) rfl

theorem execAtomAdd_frame (t o s) :
    ChangeO [.free, .out, .mem, .cores, .berths, .host, .mbox, .launches, .fabric] s (execAtomAdd t o s) := by
  unfold execAtomAdd
  with_reducible repeat' first
    | (apply partsIn.id; with_unfolding_all rfl)
    | apply Change.refl
    | apply Change.ite ?_ ?_
    | apply ChangeO.mk ?_
    | apply Change.tr ?_ (State.atomIssue_frame ..) ?_

theorem execAtomSmin_frame (t o s) :
    ChangeO [.free, .out, .mem, .cores, .berths, .host, .mbox, .launches, .fabric] s (execAtomSmin t o s) := by
  unfold execAtomSmin
  with_reducible repeat' first
    | (apply partsIn.id; with_unfolding_all rfl)
    | apply Change.refl
    | apply Change.ite ?_ ?_
    | apply ChangeO.mk ?_
    | apply Change.tr ?_ (State.atomIssue_frame ..) ?_

theorem execAtomSmax_frame (t o s) :
    ChangeO [.free, .out, .mem, .cores, .berths, .host, .mbox, .launches, .fabric] s (execAtomSmax t o s) := by
  unfold execAtomSmax
  with_reducible repeat' first
    | (apply partsIn.id; with_unfolding_all rfl)
    | apply Change.refl
    | apply Change.ite ?_ ?_
    | apply ChangeO.mk ?_
    | apply Change.tr ?_ (State.atomIssue_frame ..) ?_

theorem execAtomUmin_frame (t o s) :
    ChangeO [.free, .out, .mem, .cores, .berths, .host, .mbox, .launches, .fabric] s (execAtomUmin t o s) := by
  unfold execAtomUmin
  with_reducible repeat' first
    | (apply partsIn.id; with_unfolding_all rfl)
    | apply Change.refl
    | apply Change.ite ?_ ?_
    | apply ChangeO.mk ?_
    | apply Change.tr ?_ (State.atomIssue_frame ..) ?_

theorem execAtomUmax_frame (t o s) :
    ChangeO [.free, .out, .mem, .cores, .berths, .host, .mbox, .launches, .fabric] s (execAtomUmax t o s) := by
  unfold execAtomUmax
  with_reducible repeat' first
    | (apply partsIn.id; with_unfolding_all rfl)
    | apply Change.refl
    | apply Change.ite ?_ ?_
    | apply ChangeO.mk ?_
    | apply Change.tr ?_ (State.atomIssue_frame ..) ?_

theorem execAtomAnd_frame (t o s) :
    ChangeO [.free, .out, .mem, .cores, .berths, .host, .mbox, .launches, .fabric] s (execAtomAnd t o s) := by
  unfold execAtomAnd
  with_reducible repeat' first
    | (apply partsIn.id; with_unfolding_all rfl)
    | apply Change.refl
    | apply Change.ite ?_ ?_
    | apply ChangeO.mk ?_
    | apply Change.tr ?_ (State.atomIssue_frame ..) ?_

theorem execAtomOr_frame (t o s) :
    ChangeO [.free, .out, .mem, .cores, .berths, .host, .mbox, .launches, .fabric] s (execAtomOr t o s) := by
  unfold execAtomOr
  with_reducible repeat' first
    | (apply partsIn.id; with_unfolding_all rfl)
    | apply Change.refl
    | apply Change.ite ?_ ?_
    | apply ChangeO.mk ?_
    | apply Change.tr ?_ (State.atomIssue_frame ..) ?_

theorem execAtomXor_frame (t o s) :
    ChangeO [.free, .out, .mem, .cores, .berths, .host, .mbox, .launches, .fabric] s (execAtomXor t o s) := by
  unfold execAtomXor
  with_reducible repeat' first
    | (apply partsIn.id; with_unfolding_all rfl)
    | apply Change.refl
    | apply Change.ite ?_ ?_
    | apply ChangeO.mk ?_
    | apply Change.tr ?_ (State.atomIssue_frame ..) ?_

theorem execAtomExch_frame (t o s) :
    ChangeO [.free, .out, .mem, .cores, .berths, .host, .mbox, .launches, .fabric] s (execAtomExch t o s) := by
  unfold execAtomExch
  with_reducible repeat' first
    | (apply partsIn.id; with_unfolding_all rfl)
    | apply Change.refl
    | apply Change.ite ?_ ?_
    | apply ChangeO.mk ?_
    | apply Change.tr ?_ (State.atomIssue_frame ..) ?_

theorem execAtomCas_frame (t o s) :
    ChangeO [.free, .out, .mem, .cores, .berths, .host, .mbox, .launches, .fabric] s (execAtomCas t o s) := by
  unfold execAtomCas
  with_reducible repeat' first
    | (apply partsIn.id; with_unfolding_all rfl)
    | apply Change.refl
    | apply Change.ite ?_ ?_
    | apply ChangeO.mk ?_
    | apply Change.tr ?_ (State.atomIssue_frame ..) ?_

theorem execAtomFadd_frame (t o s) :
    ChangeO [.free, .out, .mem, .cores, .berths, .host, .mbox, .launches, .fabric] s (execAtomFadd t o s) := by
  unfold execAtomFadd
  with_reducible repeat' first
    | (apply partsIn.id; with_unfolding_all rfl)
    | apply Change.refl
    | apply Change.ite ?_ ?_
    | apply ChangeO.mk ?_
    | apply Change.tr ?_ (State.atomIssue_frame ..) ?_

theorem execAtomXadd_frame (t o s) :
    ChangeO [.free, .out, .mem, .cores, .berths, .host, .mbox, .launches, .fabric] s (execAtomXadd t o s) := by
  unfold execAtomXadd
  with_reducible repeat' first
    | (apply partsIn.id; with_unfolding_all rfl)
    | apply Change.refl
    | apply Change.ite ?_ ?_
    | apply ChangeO.mk ?_
    | apply Change.tr ?_ (State.atomIssue_frame ..) ?_

theorem State.dropAccess_frame (s core id) : Change [.cores] s (State.dropAccess s core id) := by
  unfold State.dropAccess
  with_reducible repeat' first
    | (apply partsIn.id; with_unfolding_all rfl)
    | apply Change.refl
    | apply Change.tr ?_ (State.modCore_frame _ _ _ ?_) ?_
    | (apply CoreKept.of; rfl)

theorem State.modAccess_frame (s core id f) : Change [.cores] s (State.modAccess s core id f) := by
  unfold State.modAccess
  with_reducible repeat' first
    | (apply partsIn.id; with_unfolding_all rfl)
    | apply Change.refl
    | apply Change.tr ?_ (State.modCore_frame _ _ _ ?_) ?_
    | (apply CoreKept.of; rfl)

theorem State.returnAccess_frame (s core a vals) : Change [.cores] s (State.returnAccess s core a vals) := by
  unfold State.returnAccess
  with_reducible repeat' first
    | (apply partsIn.id; with_unfolding_all rfl)
    | apply Change.refl
    | extract_lets
    | apply Change.tr ?_ (State.dropAccess_frame ..) ?_
    | apply Change.tr ?_ (State.modKern_frame ..) ?_
    | split

theorem State.homeLoad_frame (s core a victim) :
    Change1 [.free, .out, .cores, .berths, .host, .mbox] s (State.homeLoad s core a victim) := by
  unfold State.homeLoad
  extract_lets b line s1 s2
  split
  · exact Change.refl.tr (State.nextFree_frame _) rfl
  · have h1 : Change [.free, .out, .cores, .berths, .host, .mbox] s s1 := Change.refl.tr (State.poisonReads_frame _ _ _ _ _) rfl
    exact Change.ite h1 (h1.tr (State.modCore_frame _ _ _ (CoreKept.of (fillL1_lm ..))) rfl)

theorem execLoadDataReturn_frame (core id victim s) :
    ChangeO [.free, .out, .cores, .berths, .host, .mbox] s (execLoadDataReturn core id victim s) := by
  unfold execLoadDataReturn
  with_reducible repeat' first
    | (apply partsIn.id; with_unfolding_all rfl)
    | apply Change.refl
    | apply ChangeO.mk ?_
    | apply Change.tr ?_ (State.returnAccess_frame ..) ?_
    | apply Change1.tr ?_ (State.homeLoad_frame ..) ?_
    | split

theorem execAtomicReturn_frame (core id s) : ChangeO [.cores] s (execAtomicReturn core id s) := by
  unfold execAtomicReturn
  with_reducible repeat' first
    | (apply partsIn.id; with_unfolding_all rfl)
    | apply Change.refl
    | apply ChangeO.mk ?_
    | apply Change.tr ?_ (State.returnAccess_frame ..) ?_
    | split

theorem State.performPart_frame (s core b a p) :
    Change1 [.free, .out, .mem, .chans, .berths, .host, .mbox, .fabric] s (State.performPart s core b a p) := by
  unfold State.performPart
  with_reducible repeat' first
    | (apply partsIn.id; with_unfolding_all rfl)
    | apply Change.refl
    | apply Change.tr ?_ (State.controlWrite_frame ..) ?_
    | apply Change.tr ?_ (State.nextFree_frame ..) ?_
    | apply Change.tr ?_ (State.homeStore_frame ..) ?_
    | apply Change1.tr ?_ (State.homeAdd_frame ..) ?_
    | split
    | apply Change1.mk ?_

theorem State.perform_frame (s core a) :
    Change [.free, .out, .mem, .chans, .cores, .berths, .host, .mbox, .fabric] s (State.perform s core a) := by
  unfold State.perform
  extract_lets b r
  have h : Change [.free, .out, .mem, .chans, .cores, .berths, .host, .mbox, .fabric] s r.1 :=
    Change.foldlP Prod.fst Change.refl fun p u j => j.tr (State.performPart_frame _ _ _ _ _) rfl
  split
  · exact h.tr (State.modAccess_frame _ _ _ _) rfl
  · exact h.tr (State.dropAccess_frame _ _ _) rfl

theorem execHomeAccept_frame (core id s) :
    ChangeO [.free, .out, .mem, .chans, .cores, .berths, .host, .mbox, .fabric] s (execHomeAccept core id s) := by
  unfold execHomeAccept
  with_reducible repeat' first
    | (apply partsIn.id; with_unfolding_all rfl)
    | apply Change.refl
    | apply ChangeO.mk ?_
    | apply Change.tr ?_ (State.perform_frame ..) ?_
    | split

theorem State.putStack_frame (s t l) : Change [.cores] s (State.putStack s t l) := by
  unfold State.putStack
  with_reducible repeat' first
    | (apply partsIn.id; with_unfolding_all rfl)
    | apply Change.refl
    | apply Change.tr ?_ (State.setGroup_frame ..) ?_
    | split

theorem State.passed_frame (s t e) :
    Change [.free, .out, .mem, .cores, .berths, .host, .mbox, .launches, .fabric] s (State.passed s t e) := by
  unfold State.passed
  with_reducible repeat' first
    | (apply partsIn.id; with_unfolding_all rfl)
    | apply Change.refl
    | apply Change.tr ?_ (State.abortGroup_frame ..) ?_
    | split

theorem State.passPaths_frame (s t p) :
    Change [.free, .out, .mem, .cores, .berths, .host, .mbox, .launches, .fabric] s (State.passPaths s t p) := by
  unfold State.passPaths
  with_reducible repeat' first
    | (apply partsIn.id; with_unfolding_all rfl)
    | apply Change.refl
    | apply Change.tr ?_ (State.putStack_frame ..) ?_
    | apply Change.tr ?_ (State.passed_frame ..) ?_
    | apply Change.forL ?_ fun _ _ _ => ?_
    | assumption
    | split

theorem execFence_frame (t scope s) : ChangeO [.cores] s (execFence t scope s) := by
  unfold execFence
  with_reducible repeat' first
    | (apply partsIn.id; with_unfolding_all rfl)
    | apply Change.refl
    | apply ChangeO.mk ?_
    | apply Change.issue ?_ fun _ => ?_
    | apply Change.tr ?_ (State.setGroup_frame ..) ?_

theorem execFenceComplete_frame (t s) :
    ChangeO [.free, .out, .mem, .cores, .berths, .host, .mbox, .launches, .fabric] s (execFenceComplete t s) := by
  unfold execFenceComplete
  with_reducible repeat' first
    | (apply partsIn.id; with_unfolding_all rfl)
    | apply Change.refl
    | apply ChangeO.mk ?_
    | apply Change.tr ?_ (State.modCore_frame _ _ _ ?_) ?_
    | apply Change.tr ?_ (State.passPaths_frame ..) ?_
    | split
    | (apply CoreKept.of; rfl)

theorem State.releaseBarrier_frame (s core bid) :
    Change [.free, .out, .mem, .cores, .berths, .host, .mbox, .launches, .fabric] s (State.releaseBarrier s core bid) := by
  unfold State.releaseBarrier
  with_reducible repeat' first
    | (apply partsIn.id; with_unfolding_all rfl)
    | apply Change.refl
    | apply Change.tr ?_ (State.modKern_frame ..) ?_
    | apply Change.tr ?_ (State.passPaths_frame ..) ?_
    | apply Change.forL ?_ fun _ _ _ => ?_
    | assumption
    | split

theorem execBar_frame (t a bid arriveOnly cnti imm s) :
    ChangeO [.free, .out, .mem, .cores, .berths, .host, .mbox, .launches, .fabric] s (execBar t a bid arriveOnly cnti imm s) := by
  unfold execBar
  with_reducible repeat' first
    | (apply partsIn.id; with_unfolding_all rfl)
    | apply Change.refl
    | apply Change.ite ?_ ?_
    | apply ChangeO.mk ?_
    | apply Change.issue ?_ fun _ => ?_
    | apply Change.tr ?_ (State.abortGroup_frame ..) ?_
    | apply Change.tr ?_ (State.setGroup_frame ..) ?_
    | apply Change.tr ?_ (State.modKern_frame ..) ?_
    | apply Change.tr ?_ (State.next_frame ..) ?_
    | apply Change.tr ?_ (State.releaseBarrier_frame ..) ?_

theorem State.jump_frame (s t i off) :
    Change [.free, .out, .mem, .cores, .berths, .host, .mbox, .launches, .fabric] s (State.jump s t i off) := by
  unfold State.jump
  with_reducible repeat' first
    | (apply partsIn.id; with_unfolding_all rfl)
    | apply Change.refl
    | apply Change.tr ?_ (State.goto_frame ..) ?_

theorem execBra_frame (t tgt s) :
    ChangeO [.free, .out, .mem, .cores, .berths, .host, .mbox, .launches, .fabric] s (execBra t tgt s) := by
  unfold execBra
  with_reducible repeat' first
    | (apply partsIn.id; with_unfolding_all rfl)
    | apply Change.refl
    | apply Change.ite ?_ ?_
    | apply ChangeO.mk ?_
    | apply Change.issue ?_ fun _ => ?_
    | apply Change.tr ?_ (State.jump_frame ..) ?_

theorem execBrs_frame (t a cond tgt s) :
    ChangeO [.free, .out, .mem, .cores, .berths, .host, .mbox, .launches, .fabric] s (execBrs t a cond tgt s) := by
  unfold execBrs
  with_reducible repeat' first
    | (apply partsIn.id; with_unfolding_all rfl)
    | apply Change.refl
    | apply Change.ite ?_ ?_
    | apply ChangeO.mk ?_
    | apply Change.issue ?_ fun _ => ?_
    | apply Change.tr ?_ (State.jump_frame ..) ?_
    | apply Change.tr ?_ (State.next_frame ..) ?_

theorem execBrc_frame (t a cond tgt join s) :
    ChangeO [.free, .out, .mem, .cores, .berths, .host, .mbox, .launches, .fabric] s (execBrc t a cond tgt join s) := by
  unfold execBrc
  with_reducible repeat' first
    | (apply partsIn.id; with_unfolding_all rfl)
    | apply Change.refl
    | apply Change.ite ?_ ?_
    | apply ChangeO.mk ?_
    | apply Change.issue ?_ fun _ => ?_
    | apply Change.tr ?_ (State.next_frame ..) ?_
    | apply Change.tr ?_ (State.jump_frame ..) ?_
    | apply Change.tr ?_ (State.abortGroup_frame ..) ?_
    | apply Change.tr ?_ (State.setGroup_frame ..) ?_

theorem execJmps_frame (t a s) : ChangeO [.free, .out, .mem, .cores, .berths, .host, .mbox, .launches, .fabric] s (execJmps t a s) := by
  unfold execJmps
  with_reducible repeat' first
    | (apply partsIn.id; with_unfolding_all rfl)
    | apply Change.refl
    | apply Change.ite ?_ ?_
    | apply ChangeO.mk ?_
    | apply Change.issue ?_ fun _ => ?_
    | apply Change.tr ?_ (State.goto_frame ..) ?_
    | apply Change.tr ?_ (State.abortGroup_frame ..) ?_

theorem execWaitc_frame (t tk thr s) :
    ChangeO [.free, .out, .mem, .cores, .berths, .host, .mbox, .launches, .fabric] s (execWaitc t tk thr s) := by
  unfold execWaitc
  refine ChangeO.mk (Change.ite (Change.issue Change.refl fun i => Change.ite ?_ ?_) Change.refl)
  · exact Change.refl.tr (State.next_frame _ _ _ _) rfl
  · exact Change.refl.tr (State.modCore_frame _ _ _ (CoreKept.of (closeFills_lm ..))) rfl

theorem execExitPath_frame (t s) :
    ChangeO [.free, .out, .mem, .cores, .berths, .host, .mbox, .launches, .fabric] s (execExitPath t s) := by
  unfold execExitPath
  with_reducible repeat' first
    | (apply partsIn.id; with_unfolding_all rfl)
    | apply Change.refl
    | extract_lets
    | apply ChangeO.mk ?_
    | apply Change.issue ?_ fun _ => ?_
    | apply Change.tr ?_ (State.abortGroup_frame ..) ?_
    | apply Change.tr ?_ (State.setGroup_frame ..) ?_
    | split

theorem execTrap_frame (t imm s) :
    ChangeO [.free, .out, .mem, .cores, .berths, .host, .mbox, .launches, .fabric] s (execTrap t imm s) := by
  unfold execTrap
  with_reducible repeat' first
    | (apply partsIn.id; with_unfolding_all rfl)
    | apply Change.refl
    | apply ChangeO.mk ?_
    | apply Change.issue ?_ fun _ => ?_
    | apply Change.tr ?_ (State.abortGroup_frame ..) ?_

theorem execForwardProgressCheck_frame (core s) :
    ChangeO [.free, .out, .mem, .cores, .berths, .host, .mbox, .launches, .fabric] s (execForwardProgressCheck core s) := by
  unfold execForwardProgressCheck
  with_reducible repeat' first
    | (apply partsIn.id; with_unfolding_all rfl)
    | apply Change.refl
    | apply ChangeO.mk ?_
    | apply Change.tr ?_ (State.modKern_frame ..) ?_
    | apply Change.tr ?_ (State.abortGroup_frame ..) ?_
    | split

theorem State.copyToLm_frame (s c b va lm n) :
    Change [.out, .cores, .berths, .host, .mbox] s (State.copyToLm s c b va lm n) := by
  unfold State.copyToLm
  with_reducible repeat' first
    | (apply partsIn.id; with_unfolding_all rfl)
    | apply Change.refl
    | apply Change.tr ?_ (State.poisonRead_frame ..) ?_
    | apply Change.tr ?_ (State.modCore_frame _ _ _ ?_) ?_
    | apply Change.forL ?_ fun _ _ _ => ?_
    | assumption
    | (apply CoreKept.mk; intro h; exact Store.ok_write _ _ _ h)

theorem execKernelStart_frame (core s) : ChangeO
    [.free, .out, .cores, .berths, .host, .mbox] s (execKernelStart core s) := by
  unfold execKernelStart
  refine ChangeO.mk ?_
  split
  · exact Change.refl
  · refine Change.ite Change.refl ?_
    refine Change.tr ?_ (State.modKern_frame _ _ _) rfl
    refine Change.tr ?_ (State.copyToLm_frame _ _ _ _ _ _) rfl
    refine Change.tr ?_ (State.copyToLm_frame _ _ _ _ _ _) rfl
    refine (Change.refl.tr (State.nextFree_frame _) rfl).tr (State.modCore_frame _ _ _ (CoreKept.mk fun h => ?_)) rfl
    dsimp only
    split
    · exact Store.ok_empty
    · exact h

theorem State.leaveLaunch_frame (s core launch) : Change [.launches] s (State.leaveLaunch s core launch) := by
  unfold State.leaveLaunch
  with_reducible repeat' first
    | (apply partsIn.id; with_unfolding_all rfl)
    | apply Change.refl
    | apply Change.tr ?_ (State.modLaunch_frame ..) ?_

theorem execKernelEnd_frame (core s) : ChangeO [.cores, .berths, .launches] s (execKernelEnd core s) := by
  unfold execKernelEnd
  with_reducible repeat' first
    | (apply partsIn.id; with_unfolding_all rfl)
    | apply Change.refl
    | apply ChangeO.mk ?_
    | apply Change.tr ?_ (State.amaxDiscard_frame ..) ?_
    | apply Change.tr ?_ (State.leaveLaunch_frame ..) ?_
    | apply Change.tr ?_ (State.modCore_frame _ _ _ ?_) ?_
    | split
    | (apply CoreKept.of; rfl)

end Sys2Proof.Machine
end

