-- ==== Sys2Proof/Laws/ChangeQueues.lean ====
section
/-!
SUPPORT. What each operation changes and keeps: queues, their commands and step boundaries.
-/

namespace Sys2Proof.Machine

theorem State.modQueue_frame (s b q f) : Change [.berths] s (State.modQueue s b q f) := by
  unfold State.modQueue
  with_reducible repeat' first
    | (apply partsIn.id; with_unfolding_all rfl)
    | apply Change.refl
    | apply Change.tr ?_ (State.modBerth_frame _ _ _ ?_) ?_
    | split
    | (apply BerthKept.of <;> rfl)

theorem State.admitOne_frame (s b q) :
    Change [.out, .mem, .chans, .berths, .host, .mbox, .fabric] s (State.admitOne s b q) := by
  unfold State.admitOne
  with_reducible repeat' first
    | (apply partsIn.id; with_unfolding_all rfl)
    | apply Change.refl
    | apply Change.tr ?_ (State.modObj_frame _ _ _ _ ?_) ?_
    | apply Change.tr ?_ (State.modEvt_frame _ _ _ _ ?_) ?_
    | apply Change.tr ?_ (State.unitWrite_frame ..) ?_
    | apply Change.tr ?_ (State.modQueue_frame ..) ?_
    | apply Change.forL ?_ fun _ _ _ => ?_
    | assumption
    | split
    | exact fun _ h => h

theorem execQdbQueueWrite_frame (f queue s) : ChangeO [.host] s (execQdbQueueWrite f queue s) := by
  unfold execQdbQueueWrite
  with_reducible repeat' first
    | (apply partsIn.id; with_unfolding_all rfl)
    | apply Change.refl
    | apply Change.ite ?_ ?_
    | apply ChangeO.mk ?_
    | apply Change.tr ?_ (State.modFn_frame ..) ?_

theorem execQdbDoorbell_frame (f queue tail s) :
    ChangeO [.out, .mem, .chans, .berths, .host, .mbox, .fabric] s (execQdbDoorbell f queue tail s) := by
  unfold execQdbDoorbell
  with_reducible repeat' first
    | (apply partsIn.id; with_unfolding_all rfl)
    | apply Change.refl
    | apply ChangeO.mk ?_
    | apply Change.tr ?_ (State.modFn_frame ..) ?_
    | apply Change.tr ?_ (State.admitOne_frame ..) ?_
    | apply Change.forN ?_ fun _ _ _ => ?_
    | assumption
    | split
    | dsimp +zetaDelta only

theorem State.beginCmd_frame (s b q w) : Change [.free, .berths] s (State.beginCmd s b q w) := by
  unfold State.beginCmd
  with_reducible repeat' first
    | (apply partsIn.id; with_unfolding_all rfl)
    | apply Change.refl
    | apply Change.tr ?_ (State.nextFree_frame ..) ?_
    | apply Change.tr ?_ (State.modQueue_frame ..) ?_

theorem State.modRun_frame (s b q f) : Change [.berths] s (State.modRun s b q f) := by
  unfold State.modRun
  with_reducible repeat' first
    | (apply partsIn.id; with_unfolding_all rfl)
    | apply Change.refl
    | apply Change.tr ?_ (State.modQueue_frame ..) ?_

theorem State.endCmd_frame (s b q status count aux fault) : Change [.berths] s (State.endCmd s b q status count aux fault) := by
  unfold State.endCmd
  with_reducible repeat' first
    | (apply partsIn.id; with_unfolding_all rfl)
    | apply Change.refl
    | apply Change.tr ?_ (State.modRun_frame ..) ?_

theorem Change.startCmd {l s} {t : State} {b q opc : Nat} {room : List Nat → Bool} {own : State → List Nat → Nat}
    {run : List Nat → State → State} (h : Change l s t) (w : partsIn [.free, .berths] l = true)
    (k : ∀ a u, Change l s u → Change l s (run a u)) : Change l s (t.startCmd b q opc room own run) := by
  unfold State.startCmd
  split
  · exact h
  · split
    · exact h
    · extract_lets u c
      have wb : partsIn [.berths] l = true := partsIn.trans (by decide) w
      have j : Change l s u := h.tr (State.beginCmd_frame _ _ _ _) w
      split
      · exact j.tr (State.endCmd_frame _ _ _ _ _ _ _) wb
      · exact k _ _ j

theorem State.flrClear_frame (s f) : Change [.host] s (State.flrClear s f) := by
  unfold State.flrClear
  with_reducible repeat' first
    | (apply partsIn.id; with_unfolding_all rfl)
    | apply Change.refl
    | apply Change.ite ?_ ?_
    | apply Change.tr ?_ (State.modFn_frame ..) ?_

theorem State.retireFront_frame (s b q status count aux step fault) :
    Change [.out, .berths, .host, .mbox] s (State.retireFront s b q status count aux step fault) := by
  unfold State.retireFront
  with_reducible repeat' first
    | (apply partsIn.id; with_unfolding_all rfl)
    | apply Change.refl
    | apply Change.ite ?_ ?_
    | apply Change.tr ?_ (State.modFn_frame ..) ?_
    | apply Change.tr ?_ (State.evtSet_frame ..) ?_
    | apply Change.tr ?_ (State.modQueue_frame ..) ?_
    | apply Change.tr ?_ (State.flrClear_frame ..) ?_
    | apply Change.tr ?_ (State.dropRefs_frame ..) ?_
    | apply Change.tr ?_ (State.ring_frame ..) ?_
    | apply Change.tr ?_ (State.hostWrite_frame ..) ?_
    | split

theorem State.retireRest_frame (s b q status) : Change [.out, .berths, .host, .mbox] s (State.retireRest s b q status) := by
  unfold State.retireRest
  with_reducible repeat' first
    | (apply partsIn.id; with_unfolding_all rfl)
    | apply Change.refl
    | apply Change.tr ?_ (State.retireFront_frame ..) ?_
    | apply Change.forN ?_ fun _ _ _ => ?_
    | assumption
    | split

theorem State.freeCtx_frame (s b c) : Change [.out, .host, .mbox, .ctxs] s (State.freeCtx s b c) := by
  unfold State.freeCtx
  with_reducible repeat' first
    | (apply partsIn.id; with_unfolding_all rfl)
    | apply Change.refl
    | apply Change.ite ?_ ?_
    | extract_lets
    | apply Change.tr ?_ (State.berthEvent_frame ..) ?_
    | apply Change.forL ?_ fun _ _ _ => ?_
    | apply Change.forN ?_ fun _ _ _ => ?_
    | apply Change.foldl ?_ fun _ _ _ => ?_
    | assumption
    | split
    | apply Change.setCtxs ?_ (by with_unfolding_all rfl)

theorem State.sweepQueue_frame (s b q) : Change [.out, .berths, .host, .mbox, .ctxs] s (State.sweepQueue s b q) := by
  unfold State.sweepQueue
  with_reducible repeat' first
    | (apply partsIn.id; with_unfolding_all rfl)
    | apply Change.refl
    | apply Change.ite ?_ ?_
    | extract_lets
    | apply Change.tr ?_ (State.retireRest_frame ..) ?_
    | apply Change.tr ?_ (State.freeCtx_frame ..) ?_
    | apply Change.tr ?_ (State.modBerth_frame _ _ _ ?_) ?_
    | split
    | (apply BerthKept.of <;> rfl)

theorem State.finishRun_frame (s b q) : Change [.berths, .launches] s (State.finishRun s b q) := by
  unfold State.finishRun
  with_reducible repeat' first
    | (apply partsIn.id; with_unfolding_all rfl)
    | apply Change.refl
    | apply Change.ite ?_ ?_
    | extract_lets
    | apply Change.tr ?_ (State.endCmd_frame ..) ?_
    | apply Change.forL ?_ fun _ _ _ => ?_
    | apply Change.forN ?_ fun _ _ _ => ?_
    | apply Change.foldl ?_ fun _ _ _ => ?_
    | assumption
    | split
    | apply Change.setLaunches ?_ (by with_unfolding_all rfl)

theorem execSlotGrant_frame (b q s) : ChangeO [.free, .berths] s (execSlotGrant b q s) := by
  unfold execSlotGrant
  with_reducible repeat' first
    | (apply partsIn.id; with_unfolding_all rfl)
    | apply Change.refl
    | extract_lets
    | apply ChangeO.mk ?_
    | apply Change.tr ?_ (State.modQueue_frame ..) ?_
    | apply Change.tr ?_ (State.nextFree_frame ..) ?_
    | split

theorem execMark_frame (b q s) : ChangeO [.free, .berths] s (execMark b q s) := by
  unfold execMark
  with_reducible repeat' first
    | (apply partsIn.id; with_unfolding_all rfl)
    | apply Change.refl
    | apply ChangeO.mk ?_
    | apply Change.startCmd ?_ ?_ fun _ _ _ => ?_
    | apply Change.tr ?_ (State.endCmd_frame ..) ?_
    | assumption

theorem State.locWrite_frame (s b loc off bs marked) :
    Change [.out, .mem, .chans, .host, .mbox, .fabric] s (State.locWrite s b loc off bs marked) := by
  unfold State.locWrite
  with_reducible repeat' first
    | (apply partsIn.id; with_unfolding_all rfl)
    | apply Change.refl
    | apply Change.ite ?_ ?_
    | apply Change.tr ?_ (State.hostWrite_frame ..) ?_
    | apply Change.tr ?_ (State.unitWrite_frame ..) ?_

theorem State.runCopy_frame (s b src dst n) :
    Change [.out, .mem, .chans, .berths, .host, .mbox, .fabric] s (State.runCopy s b src dst n) := by
  unfold State.runCopy
  with_reducible repeat' first
    | (apply partsIn.id; with_unfolding_all rfl)
    | apply Change.refl
    | apply Change.ite ?_ ?_
    | apply Change.tr ?_ (State.unitPoison_frame ..) ?_
    | apply Change.tr ?_ (State.locWrite_frame ..) ?_
    | apply Change.forL ?_ fun _ _ _ => ?_
    | assumption

theorem execCopyMem_frame (b q s) : ChangeO [.free, .out, .mem, .chans, .berths, .host, .mbox, .fabric] s (execCopyMem b q s) := by
  unfold execCopyMem
  with_reducible repeat' first
    | (apply partsIn.id; with_unfolding_all rfl)
    | apply Change.refl
    | apply ChangeO.mk ?_
    | apply Change.startCmd ?_ ?_ fun _ _ _ => ?_
    | apply Change.tr ?_ (State.endCmd_frame ..) ?_
    | apply Change.tr ?_ (State.runCopy_frame ..) ?_
    | assumption

theorem execFillMem_frame (b q s) : ChangeO [.free, .out, .mem, .chans, .berths, .host, .mbox, .fabric] s (execFillMem b q s) := by
  unfold execFillMem
  with_reducible repeat' first
    | (apply partsIn.id; with_unfolding_all rfl)
    | apply Change.refl
    | apply ChangeO.mk ?_
    | apply Change.startCmd ?_ ?_ fun _ _ _ => ?_
    | apply Change.tr ?_ (State.endCmd_frame ..) ?_
    | apply Change.tr ?_ (State.unitWrite_frame ..) ?_
    | apply Change.forL ?_ fun _ _ _ => ?_
    | assumption

theorem State.maddOne_frame (s b src dst i cls xf scale) :
    Change [.out, .mem, .chans, .berths, .host, .mbox, .fabric] s (State.maddOne s b src dst i cls xf scale) := by
  unfold State.maddOne
  with_reducible repeat' first
    | (apply partsIn.id; with_unfolding_all rfl)
    | apply Change.refl
    | extract_lets
    | apply Change1.tr ?_ (State.homeAdd_frame ..) ?_
    | apply Change.tr ?_ (State.sendRequest_frame ..) ?_
    | apply Change.tr ?_ (State.emit_frame ..) ?_
    | split

theorem execMadd_frame (b q s) : ChangeO [.free, .out, .mem, .chans, .berths, .host, .mbox, .fabric] s (execMadd b q s) := by
  unfold execMadd
  with_reducible repeat' first
    | (apply partsIn.id; with_unfolding_all rfl)
    | apply Change.refl
    | apply Change.ite ?_ ?_
    | apply ChangeO.mk ?_
    | apply Change.startCmd ?_ ?_ fun _ _ _ => ?_
    | apply Change.tr ?_ (State.unitPoison_frame ..) ?_
    | apply Change.tr ?_ (State.endCmd_frame ..) ?_
    | apply Change.tr ?_ (State.maddOne_frame ..) ?_
    | apply Change.forN ?_ fun _ _ _ => ?_
    | assumption

theorem execXwait_frame (b q s) : ChangeO [.free, .berths, .launches] s (execXwait b q s) := by
  unfold execXwait
  with_reducible repeat' first
    | (apply partsIn.id; with_unfolding_all rfl)
    | apply Change.refl
    | apply ChangeO.mk ?_
    | apply Change.startCmd ?_ ?_ fun _ _ _ => ?_
    | apply Change.tr ?_ (State.finishRun_frame ..) ?_
    | assumption

theorem State.runLaunch_frame (s b q w) : Change [.cores, .berths, .launches, .launchNext] s (State.runLaunch s b q w) := by
  unfold State.runLaunch
  extract_lets cores
  split
  · exact Change.refl.tr (State.endCmd_frame _ _ _ _ _ _ _) rfl
  · split
    · exact Change.refl.tr (State.endCmd_frame _ _ _ _ _ _ _) rfl
    · extract_lets l k t u v
      refine Change.forL ?_ fun p x j => j.tr (State.modCore_frame _ _ _ (by exact CoreKept.of rfl)) rfl
      refine Change.tr ?_ (State.modRun_frame _ _ _ _) rfl
      refine Change.tr ?_ (State.modBerth_frame _ _ _ (by exact BerthKept.of rfl rfl)) rfl
      exact Change.refl.setMany fun p => by
        cases p <;> constructor <;> first | exact trivial | exact .inl (by decide) | exact .inr rfl | exact Part.kept_same rfl | exact Part.kept_dict rfl | exact Part.kept_host rfl | exact Part.kept_defects rfl

theorem execLaunch_frame (b q s) : ChangeO [.free, .cores, .berths, .launches, .launchNext] s (execLaunch b q s) := by
  unfold execLaunch
  with_reducible repeat' first
    | (apply partsIn.id; with_unfolding_all rfl)
    | apply Change.refl
    | apply ChangeO.mk ?_
    | apply Change.startCmd ?_ ?_ fun _ _ _ => ?_
    | apply Change.tr ?_ (State.runLaunch_frame ..) ?_
    | assumption

theorem execLaunchReserveTimer_frame (b q s) : ChangeO [.berths] s (execLaunchReserveTimer b q s) := by
  unfold execLaunchReserveTimer
  with_reducible repeat' first
    | (apply partsIn.id; with_unfolding_all rfl)
    | apply Change.refl
    | apply ChangeO.mk ?_
    | apply Change.tr ?_ (State.modQueue_frame ..) ?_
    | split

theorem execKernelLimit_frame (launch s) :
    ChangeO [.free, .out, .mem, .cores, .berths, .host, .mbox, .launches, .fabric] s (execKernelLimit launch s) := by
  unfold execKernelLimit
  with_reducible repeat' first
    | (apply partsIn.id; with_unfolding_all rfl)
    | apply Change.refl
    | apply ChangeO.mk ?_
    | apply Change.tr ?_ (State.stopLaunch_frame ..) ?_
    | split

theorem State.takeRecord_frame (s b t st r) :
    Change [.out, .mem, .chans, .berths, .host, .mbox, .fabric, .streams] s (State.takeRecord s b t st r) := by
  unfold State.takeRecord
  with_reducible repeat' first
    | (apply partsIn.id; with_unfolding_all rfl)
    | apply Change.refl
    | apply Change.tr ?_ (State.unitPoison_frame ..) ?_
    | apply Change.tr ?_ (State.unitWrite_frame ..) ?_
    | apply Change.tr ?_ (State.modBerth_frame _ _ _ ?_) ?_
    | apply Change.tr ?_ (State.settleStrms_frame ..) ?_
    | apply Change.forL ?_ fun _ _ _ => ?_
    | apply Change.forN ?_ fun _ _ _ => ?_
    | assumption
    | (apply BerthKept.of <;> rfl)

theorem State.takeEnd_frame (s b t status) :
    Change [.out, .mem, .chans, .berths, .host, .mbox, .fabric] s (State.takeEnd s b t status) := by
  unfold State.takeEnd
  with_reducible repeat' first
    | (apply partsIn.id; with_unfolding_all rfl)
    | apply Change.refl
    | apply Change.tr ?_ (State.unitWrite_frame ..) ?_
    | apply Change.tr ?_ (State.endCmd_frame ..) ?_
    | apply Change.tr ?_ (State.modBerth_frame _ _ _ ?_) ?_
    | (apply BerthKept.of <;> rfl)

theorem State.takeTurn_frame (s b) :
    Change [.out, .mem, .chans, .berths, .host, .mbox, .fabric, .streams] s (State.takeTurn s b) := by
  unfold State.takeTurn
  with_reducible repeat' first
    | (apply partsIn.id; with_unfolding_all rfl)
    | apply Change.refl
    | extract_lets
    | apply Change.tr ?_ (State.takeEnd_frame ..) ?_
    | apply Change.tr ?_ (State.settleStrms_frame ..) ?_
    | apply Change.tr ?_ (State.modBerth_frame _ _ _ ?_) ?_
    | apply Change.tr ?_ (State.berthEvent_frame ..) ?_
    | apply Change.tr ?_ (State.takeRecord_frame ..) ?_
    | split
    | (apply BerthKept.of <;> rfl)

theorem State.feedTurn_frame (s b q) :
    Change [.free, .out, .mem, .chans, .berths, .host, .mbox, .fabric, .streams] s (State.feedTurn s b q) := by
  unfold State.feedTurn
  with_reducible repeat' first
    | (apply partsIn.id; with_unfolding_all rfl)
    | apply Change.refl
    | apply Change.ite ?_ ?_
    | apply Change.tr ?_ (State.endCmd_frame ..) ?_
    | apply Change.tr ?_ (State.modRun_frame ..) ?_
    | apply Change.tr ?_ (State.dropFrame_frame ..) ?_
    | apply Change.tr ?_ (State.landFrame_frame ..) ?_
    | split

theorem State.feedAll_frame (s b) :
    Change [.free, .out, .mem, .chans, .berths, .host, .mbox, .fabric, .streams] s (State.feedAll s b) := by
  unfold State.feedAll
  with_reducible repeat' first
    | (apply partsIn.id; with_unfolding_all rfl)
    | apply Change.refl
    | apply Change.tr ?_ (State.feedTurn_frame ..) ?_
    | apply Change.forL ?_ fun _ _ _ => ?_
    | apply Change.forN ?_ fun _ _ _ => ?_
    | assumption

theorem State.takeRun_frame (s b) :
    Change [.free, .out, .mem, .chans, .berths, .host, .mbox, .fabric, .streams] s (State.takeRun s b) := by
  unfold State.takeRun
  with_reducible repeat' first
    | (apply partsIn.id; with_unfolding_all rfl)
    | apply Change.refl
    | apply Change.tr ?_ (State.feedAll_frame ..) ?_
    | apply Change.tr ?_ (State.takeTurn_frame ..) ?_
    | apply Change.forN ?_ fun _ _ _ => ?_
    | assumption
    | split

theorem execFeed_frame (b q s) :
    ChangeO [.free, .out, .mem, .chans, .berths, .host, .mbox, .fabric, .streams] s (execFeed b q s) := by
  unfold execFeed
  with_reducible repeat' first
    | (apply partsIn.id; with_unfolding_all rfl)
    | apply Change.refl
    | apply ChangeO.mk ?_
    | apply Change.startCmd ?_ ?_ fun _ _ _ => ?_
    | apply Change.tr ?_ (State.feedAll_frame ..) ?_
    | assumption

theorem State.takeStart_frame (s b q w) :
    Change [.free, .out, .mem, .chans, .berths, .host, .mbox, .fabric, .streams] s (State.takeStart s b q w) := by
  unfold State.takeStart
  with_reducible repeat' first
    | (apply partsIn.id; with_unfolding_all rfl)
    | apply Change.refl
    | apply Change.tr ?_ (State.takeRun_frame ..) ?_
    | apply Change.tr ?_ (State.modBerth_frame _ _ _ ?_) ?_
    | (apply BerthKept.of <;> rfl)

theorem execTakeCmd_frame (b q s) :
    ChangeO [.free, .out, .mem, .chans, .berths, .host, .mbox, .fabric, .streams] s (execTakeCmd b q s) := by
  unfold execTakeCmd
  with_reducible repeat' first
    | (apply partsIn.id; with_unfolding_all rfl)
    | apply Change.refl
    | apply ChangeO.mk ?_
    | apply Change.startCmd ?_ ?_ fun _ _ _ => ?_
    | apply Change.tr ?_ (State.takeStart_frame ..) ?_
    | assumption

theorem execTakeContinue_frame (b s) :
    ChangeO [.free, .out, .mem, .chans, .berths, .host, .mbox, .fabric, .streams] s (execTakeContinue b s) := by
  unfold execTakeContinue
  with_reducible repeat' first
    | (apply partsIn.id; with_unfolding_all rfl)
    | apply Change.refl
    | apply ChangeO.mk ?_
    | apply Change.tr ?_ (State.feedAll_frame ..) ?_
    | apply Change.tr ?_ (State.takeRun_frame ..) ?_

theorem execTakeWait_frame (b s) : ChangeO [.out, .berths, .host, .mbox] s (execTakeWait b s) := by
  unfold execTakeWait
  with_reducible repeat' first
    | (apply partsIn.id; with_unfolding_all rfl)
    | apply Change.refl
    | apply ChangeO.mk ?_
    | apply Change.tr ?_ (State.berthEvent_frame ..) ?_
    | apply Change.tr ?_ (State.modBerth_frame _ _ _ ?_) ?_
    | split
    | (apply BerthKept.of <;> rfl)

theorem State.writeSkip_frame (s b w first last) :
    Change2 [.free, .out, .mem, .chans, .berths, .host, .mbox, .fabric, .streams] s (State.writeSkip s b w first last) := by
  unfold State.writeSkip
  with_reducible repeat' first
    | (apply partsIn.id; with_unfolding_all rfl)
    | apply Change.refl
    | apply Change.tr ?_ (State.takeRun_frame ..) ?_
    | apply Change.tr ?_ (State.modBerth_frame _ _ _ ?_) ?_
    | apply Change2.mk ?_
    | (apply BerthKept.of <;> rfl)

theorem execSkipWindowWrite_frame (b w first last s) :
    ChangeO [.free, .out, .mem, .chans, .berths, .host, .mbox, .fabric, .streams] s (execSkipWindowWrite b w first last s) := by
  unfold execSkipWindowWrite
  with_reducible repeat' first
    | (apply partsIn.id; with_unfolding_all rfl)
    | apply Change.refl
    | apply Change.ite ?_ ?_
    | apply ChangeO.mk ?_
    | apply Change.byDict ?_ ?_ fun _ => ?_
    | apply Change2.tr ?_ (State.writeSkip_frame ..) ?_

theorem State.rewind_frame (s b t) : Change [.out, .berths, .streams] s (State.rewind s b t) := by
  unfold State.rewind
  with_reducible repeat' first
    | (apply partsIn.id; with_unfolding_all rfl)
    | apply Change.refl
    | apply Change.tr ?_ (State.restartStrms_frame ..) ?_
    | apply Change.tr ?_ (State.modBerth_frame _ _ _ ?_) ?_
    | (apply BerthKept.of <;> rfl)

theorem State.writeRewind_frame (s b t) : Change2 [.out, .berths, .streams] s (State.writeRewind s b t) := by
  unfold State.writeRewind
  with_reducible repeat' first
    | (apply partsIn.id; with_unfolding_all rfl)
    | apply Change.refl
    | apply Change2.ite ?_ ?_
    | apply Change.tr ?_ (State.rewind_frame ..) ?_
    | apply Change2.mk ?_

theorem execBerthRewind_frame (b tally s) : ChangeO [.out, .berths, .streams] s (execBerthRewind b tally s) := by
  unfold execBerthRewind
  with_reducible repeat' first
    | (apply partsIn.id; with_unfolding_all rfl)
    | apply Change.refl
    | apply ChangeO.mk ?_
    | apply Change.byDict ?_ ?_ fun _ => ?_
    | apply Change2.tr ?_ (State.writeRewind_frame ..) ?_

theorem State.combAccess_frame (s b va aop x) :
    Change1 [.free, .out, .mem, .chans, .berths, .host, .mbox, .fabric] s (State.combAccess s b va aop x) := by
  unfold State.combAccess
  with_reducible repeat' first
    | (apply partsIn.id; with_unfolding_all rfl)
    | apply Change.refl
    | apply Change.tr ?_ (State.nextFree_frame ..) ?_
    | apply Change.tr ?_ (State.sendRequest_frame ..) ?_
    | apply Change.tr ?_ (State.poisonRead_frame ..) ?_
    | apply Change1.tr ?_ (State.homeAdd_frame ..) ?_
    | split
    | apply Change1.mk ?_

theorem State.combine_frame (s b n comb x) :
    Change1 [.free, .out, .mem, .chans, .berths, .host, .mbox, .fabric] s (State.combine s b n comb x) := by
  unfold State.combine
  with_reducible repeat' first
    | (apply partsIn.id; with_unfolding_all rfl)
    | apply Change.refl
    | apply Change.iteFst ?_ ?_
    | apply Change1.tr ?_ (State.combAccess_frame ..) ?_
    | apply Change1.mk ?_

theorem State.putScaleRec_frame (s b i r) :
    Change [.out, .mem, .chans, .host, .mbox, .fabric] s (State.putScaleRec s b i r) := by
  unfold State.putScaleRec
  with_reducible repeat' first
    | (apply partsIn.id; with_unfolding_all rfl)
    | apply Change.refl
    | apply Change.tr ?_ (State.unitWrite_frame ..) ?_

theorem State.clearAcc_frame (s b i) : Change [.berths] s (State.clearAcc s b i) := by
  unfold State.clearAcc
  with_reducible repeat' first
    | (apply partsIn.id; with_unfolding_all rfl)
    | apply Change.refl
    | apply Change.tr ?_ (State.modBerth_frame _ _ _ ?_) ?_
    | (apply BerthKept.of <;> rfl)

theorem State.scaleStep_frame (s b n i) :
    Change [.free, .out, .mem, .chans, .berths, .host, .mbox, .fabric] s (State.scaleStep s b n i) := by
  unfold State.scaleStep
  with_reducible repeat' first
    | (apply partsIn.id; with_unfolding_all rfl)
    | apply Change.refl
    | apply Change.iteFst ?_ ?_
    | apply Change.tr ?_ (State.count_frame ..) ?_
    | apply Change.tr ?_ (State.poisonRead_frame ..) ?_
    | apply Change.tr ?_ (State.putScaleRec_frame ..) ?_
    | apply Change.tr ?_ (State.unitWrite_frame ..) ?_
    | apply Change1.tr ?_ (State.combine_frame ..) ?_
    | apply Change.tr ?_ (State.clearAcc_frame ..) ?_
    | split

theorem State.hold_frame (s b) : Change [.berths] s (State.hold s b) := by
  unfold State.hold
  with_reducible repeat' first
    | (apply partsIn.id; with_unfolding_all rfl)
    | apply Change.refl
    | apply Change.tr ?_ (State.modBerth_frame _ _ _ ?_) ?_
    | (apply BerthKept.of <;> rfl)

theorem State.trip_frame (s b source action loss value) :
    Change [.out, .mem, .chans, .berths, .host, .mbox, .fabric] s (State.trip s b source action loss value) := by
  unfold State.trip
  with_reducible repeat' first
    | (apply partsIn.id; with_unfolding_all rfl)
    | apply Change.refl
    | apply Change.ite ?_ ?_
    | apply Change.tr ?_ (State.unitWrite_frame ..) ?_
    | apply Change.tr ?_ (State.berthEvent_frame ..) ?_
    | apply Change.tr ?_ (State.hold_frame ..) ?_

theorem State.tripStep_frame (s b k) :
    Change [.out, .mem, .chans, .berths, .host, .mbox, .fabric] s (State.tripStep s b k) := by
  unfold State.tripStep
  with_reducible repeat' first
    | (apply partsIn.id; with_unfolding_all rfl)
    | apply Change.refl
    | apply Change.ite ?_ ?_
    | apply Change.tr ?_ (State.unitWrite_frame ..) ?_
    | apply Change.tr ?_ (State.trip_frame ..) ?_

theorem State.lossWatch_frame (s b) : Change [.out, .mem, .chans, .berths, .host, .mbox, .fabric] s (State.lossWatch s b) := by
  unfold State.lossWatch
  with_reducible repeat' first
    | (apply partsIn.id; with_unfolding_all rfl)
    | apply Change.refl
    | apply Change.ite ?_ ?_
    | apply Change.tr ?_ (State.berthEvent_frame ..) ?_
    | apply Change.tr ?_ (State.count_frame ..) ?_
    | apply Change.tr ?_ (State.trip_frame ..) ?_
    | apply Change.tr ?_ (State.unitWrite_frame ..) ?_

theorem State.sentinels_frame (s b) : Change [.out, .mem, .chans, .berths, .host, .mbox, .fabric] s (State.sentinels s b) := by
  unfold State.sentinels
  with_reducible repeat' first
    | (apply partsIn.id; with_unfolding_all rfl)
    | apply Change.refl
    | apply Change.ite ?_ ?_
    | apply Change.tr ?_ (State.berthEvent_frame ..) ?_
    | apply Change.tr ?_ (State.unitWrite_frame ..) ?_
    | apply Change.tr ?_ (State.modBerth_frame _ _ _ ?_) ?_
    | apply Change.tr ?_ (State.lossWatch_frame ..) ?_
    | apply Change.tr ?_ (State.tripStep_frame ..) ?_
    | apply Change.forN ?_ fun _ _ _ => ?_
    | assumption
    | (apply BerthKept.of <;> rfl)

theorem State.adopt_frame (s b) : Change [.berths] s (State.adopt s b) := by
  unfold State.adopt
  with_reducible repeat' first
    | (apply partsIn.id; with_unfolding_all rfl)
    | apply Change.refl
    | apply Change.tr ?_ (State.modBerth_frame _ _ _ ?_) ?_
    | (apply BerthKept.of <;> rfl)

theorem State.keeperWork_frame (s b) :
    Change [.free, .out, .mem, .chans, .berths, .host, .mbox, .fabric] s (State.keeperWork s b) := by
  unfold State.keeperWork
  with_reducible repeat' first
    | (apply partsIn.id; with_unfolding_all rfl)
    | apply Change.refl
    | apply Change.tr ?_ (State.modBerth_frame _ _ _ ?_) ?_
    | apply Change.tr ?_ (State.scaleStep_frame ..) ?_
    | apply Change.tr ?_ (State.adopt_frame ..) ?_
    | apply Change.tr ?_ (State.sentinels_frame ..) ?_
    | apply Change.forN ?_ fun _ _ _ => ?_
    | assumption
    | (apply BerthKept.of <;> rfl)

theorem State.ttWrite_frame (s b base i x) :
    Change [.out, .mem, .chans, .host, .mbox, .fabric] s (State.ttWrite s b base i x) := by
  unfold State.ttWrite
  with_reducible repeat' first
    | (apply partsIn.id; with_unfolding_all rfl)
    | apply Change.refl
    | apply Change.tr ?_ (State.unitWrite_frame ..) ?_

theorem State.ttSwitch_frame (s b arg) : Change2 [.out, .streams] s (State.ttSwitch s b arg) := by
  unfold State.ttSwitch
  with_reducible repeat' first
    | (apply partsIn.id; with_unfolding_all rfl)
    | apply Change.refl
    | apply Change2.ite ?_ ?_
    | apply Change2.tr ?_ (State.writeEnable_frame ..) ?_
    | apply Change2.mk ?_

theorem State.askLockage_frame (s b slot) : Change [.out, .host, .mbox, .snaps] s (State.askLockage s b slot) := by
  unfold State.askLockage
  with_reducible repeat' first
    | (apply partsIn.id; with_unfolding_all rfl)
    | apply Change.refl
    | apply Change.ite ?_ ?_
    | extract_lets
    | apply Change.tr ?_ (State.berthEvent_frame ..) ?_
    | apply Change.forL ?_ fun _ _ _ => ?_
    | apply Change.forN ?_ fun _ _ _ => ?_
    | apply Change.foldl ?_ fun _ _ _ => ?_
    | assumption
    | split
    | apply Change.setSnaps ?_ (by with_unfolding_all rfl)

theorem State.ttAct_frame (s b i x) :
    Change [.out, .mem, .chans, .berths, .host, .mbox, .fabric, .streams, .snaps] s (State.ttAct s b i x) := by
  unfold State.ttAct
  with_reducible repeat' first
    | (apply partsIn.id; with_unfolding_all rfl)
    | apply Change.refl
    | apply Change.ite ?_ ?_
    | apply Change.tr ?_ (State.askLockage_frame ..) ?_
    | apply Change.tr ?_ (State.unitWrite_frame ..) ?_
    | apply Change.tr ?_ (State.hold_frame ..) ?_
    | apply Change2.tr ?_ (State.ttSwitch_frame ..) ?_
    | apply Change.tr ?_ (State.berthEvent_frame ..) ?_
    | split

theorem State.ttFire_frame (s b base t i) :
    Change [.out, .mem, .chans, .berths, .host, .mbox, .fabric, .streams, .snaps] s (State.ttFire s b base t i) := by
  unfold State.ttFire
  with_reducible repeat' first
    | (apply partsIn.id; with_unfolding_all rfl)
    | apply Change.refl
    | apply Change.ite ?_ ?_
    | apply Change.tr ?_ (State.berthEvent_frame ..) ?_
    | apply Change.tr ?_ (State.ttWrite_frame ..) ?_
    | apply Change.tr ?_ (State.ttAct_frame ..) ?_

theorem State.timetable_frame (s b) :
    Change [.out, .mem, .chans, .berths, .host, .mbox, .fabric, .streams, .snaps] s (State.timetable s b) := by
  unfold State.timetable
  with_reducible repeat' first
    | (apply partsIn.id; with_unfolding_all rfl)
    | apply Change.refl
    | apply Change.ite ?_ ?_
    | apply Change.tr ?_ (State.berthEvent_frame ..) ?_
    | apply Change.tr ?_ (State.ttFire_frame ..) ?_
    | apply Change.forL ?_ fun _ _ _ => ?_
    | assumption

theorem State.boundaryActions_frame (s b) :
    Change [.out, .mem, .chans, .berths, .host, .mbox, .fabric, .streams, .snaps] s (State.boundaryActions s b) := by
  unfold State.boundaryActions
  with_reducible repeat' first
    | (apply partsIn.id; with_unfolding_all rfl)
    | apply Change.refl
    | apply Change.ite ?_ ?_
    | apply Change.tr ?_ (State.modBerth_frame _ _ _ ?_) ?_
    | apply Change.tr ?_ (State.timetable_frame ..) ?_
    | (apply BerthKept.of <;> rfl)

theorem State.retireOne_frame (s b q) :
    Change [.free, .out, .mem, .chans, .berths, .host, .mbox, .ctxs, .launches, .fabric] s (State.retireOne s b q) := by
  unfold State.retireOne
  with_reducible repeat' first
    | (apply partsIn.id; with_unfolding_all rfl)
    | apply Change.refl
    | apply Change.ite ?_ ?_
    | extract_lets
    | apply Change.tr ?_ (State.finishRun_frame ..) ?_
    | apply Change.tr ?_ (State.modBerth_frame _ _ _ ?_) ?_
    | apply Change.tr ?_ (State.keeperWork_frame ..) ?_
    | apply Change.tr ?_ (State.sweepQueue_frame ..) ?_
    | apply Change.tr ?_ (State.retireFront_frame ..) ?_
    | split
    | (apply BerthKept.of <;> rfl)

theorem execCommandRetire_frame (b q s) :
    ChangeO [.free, .out, .mem, .chans, .berths, .host, .mbox, .ctxs, .launches, .fabric] s (execCommandRetire b q s) := by
  unfold execCommandRetire
  with_reducible repeat' first
    | (apply partsIn.id; with_unfolding_all rfl)
    | apply Change.refl
    | apply ChangeO.mk ?_
    | apply Change.tr ?_ (State.retireOne_frame ..) ?_

theorem execStepBoundary_frame (b s) :
    ChangeO [.free, .out, .mem, .chans, .berths, .host, .mbox, .ctxs, .launches, .fabric, .streams, .snaps]
      s (execStepBoundary b s) := by
  unfold execStepBoundary
  with_reducible repeat' first
    | (apply partsIn.id; with_unfolding_all rfl)
    | apply Change.refl
    | apply ChangeO.mk ?_
    | apply Change.tr ?_ (State.retireOne_frame ..) ?_
    | apply Change.tr ?_ (State.boundaryActions_frame ..) ?_
    | split

theorem State.release_frame (s b) :
    Change [.out, .mem, .chans, .berths, .host, .mbox, .fabric, .streams, .snaps] s (State.release s b) := by
  unfold State.release
  with_reducible repeat' first
    | (apply partsIn.id; with_unfolding_all rfl)
    | apply Change.refl
    | apply Change.ite ?_ ?_
    | apply Change.tr ?_ (State.boundaryActions_frame ..) ?_
    | apply Change.tr ?_ (State.modBerth_frame _ _ _ ?_) ?_
    | (apply BerthKept.of <;> rfl)

theorem execHoldRelease_frame (b s) :
    ChangeO [.out, .mem, .chans, .berths, .host, .mbox, .fabric, .streams, .snaps] s (execHoldRelease b s) := by
  unfold execHoldRelease
  with_reducible repeat' first
    | (apply partsIn.id; with_unfolding_all rfl)
    | apply Change.refl
    | apply ChangeO.mk ?_
    | apply Change.byDict ?_ ?_ fun _ => ?_
    | apply Change.tr ?_ (State.release_frame ..) ?_

end Sys2Proof.Machine
end

