-- ==== Sys2Proof/Laws/ChangeHost.lean ====
section
/-!
SUPPORT. What each operation changes and keeps: defects, requests of the host and berths.
-/

namespace Sys2Proof.Machine

theorem State.addDefect_frame (s e) : Change [.out, .host, .mbox, .defects] s (State.addDefect s e) := by
  unfold State.addDefect
  extract_lets x d
  refine Change.ite (Change.refl.setDefects rfl (by exact Part.kept_defects rfl)) (Change.ite ?_ ?_)
  · exact Change.refl.setDefects rfl (listGrows.append _ _)
  · exact (Change.refl.setDefects rfl (by exact Part.kept_defects rfl)).tr (State.moduleEvent_frame _ _ _ _ _) rfl

theorem State.spareIn_frame (s n kind die last) : Change [.out, .host, .mbox] s (State.spareIn s n kind die last) := by
  unfold State.spareIn
  with_reducible repeat' first
    | (apply partsIn.id; with_unfolding_all rfl)
    | apply Change.refl
    | apply Change.ite ?_ ?_
    | apply Change.tr ?_ (State.moduleEvent_frame ..) ?_

theorem State.coreFails_frame (s c cause detail) : Change [.defects] s (State.coreFails s c cause detail) := by
  unfold State.coreFails
  with_reducible repeat' first
    | apply Change.refl
    | apply Change.ite ?_ ?_
    | extract_lets
    | apply Change.iteFst ?_ ?_
    | apply Change.forL ?_ fun _ _ _ => ?_
    | apply Change.forN ?_ fun _ _ _ => ?_
    | apply Change.foldl ?_ fun _ _ _ => ?_
    | assumption
    | split
    | apply Change.setDefects ?_ (by with_unfolding_all rfl) (by apply Part.kept_defects; rfl)

theorem State.substituteCore_frame (s c cause detail bad) :
    Change [.out, .cores, .host, .mbox, .defects] s (State.substituteCore s c cause detail bad) := by
  unfold State.substituteCore
  extract_lets d old free n src t e
  have h : Change [.out, .cores, .host, .mbox, .defects] s t := Change.refl.setDefects rfl (by exact Part.kept_defects rfl)
  clear_value free t
  split
  · refine Change.tr ?_ (State.spareIn_frame _ _ _ _ _) rfl
    refine Change.tr ?_ (State.modCore_frame _ _ _ (CoreKept.of rfl)) rfl
    exact (h.tr (State.addDefect_frame _ _) rfl).setDefects rfl (by exact Part.kept_defects rfl)
  · refine Change.tr ?_ (State.moduleEvent_frame _ _ _ _ _) rfl
    refine Change.tr ?_ (State.setCore_frame _ _ _ (CoreKept.mk fun _ => Store.ok_empty)) rfl
    exact (h.tr (State.addDefect_frame _ _) rfl).setDefects rfl (by exact Part.kept_defects rfl)

theorem execCoreSubstitution_frame (core bad s) :
    ChangeO [.out, .cores, .berths, .host, .mbox, .defects] s (execCoreSubstitution core bad s) := by
  unfold execCoreSubstitution
  with_reducible repeat' first
    | (apply partsIn.id; with_unfolding_all rfl)
    | apply Change.refl
    | extract_lets
    | apply ChangeO.mk ?_
    | apply Change.tr ?_ (State.substituteCore_frame ..) ?_
    | apply Change.tr ?_ (State.berthEvent_frame ..) ?_
    | apply Change.tr ?_ (State.modBerth_frame _ _ _ ?_) ?_
    | split
    | (apply BerthKept.of <;> rfl)

theorem State.attachmentLost_frame (s d a cause detail) :
    Change [.out, .host, .mbox, .defects] s (State.attachmentLost s d a cause detail) := by
  unfold State.attachmentLost
  with_reducible repeat' first
    | (apply partsIn.id; with_unfolding_all rfl)
    | apply Change.refl
    | apply Change.ite ?_ ?_
    | extract_lets
    | apply Change.tr ?_ (State.moduleEvent_frame ..) ?_
    | apply Change.tr ?_ (State.addDefect_frame ..) ?_
    | apply Change.forL ?_ fun _ _ _ => ?_
    | apply Change.forN ?_ fun _ _ _ => ?_
    | apply Change.foldl ?_ fun _ _ _ => ?_
    | assumption
    | split
    | apply Change.setDefects ?_ (by with_unfolding_all rfl) (by apply Part.kept_defects; rfl)

theorem execBargeGive_frame (f bits s) : ChangeO [.host] s (execBargeGive f bits s) := by
  unfold execBargeGive
  with_reducible repeat' first
    | (apply partsIn.id; with_unfolding_all rfl)
    | apply Change.refl
    | apply Change.ite ?_ ?_
    | apply ChangeO.mk ?_
    | apply Change.tr ?_ (State.modFn_frame ..) ?_

theorem execFunctionCounterRead_frame (f reg head s) : ChangeO [.out, .host] s (execFunctionCounterRead f reg head s) := by
  unfold execFunctionCounterRead
  with_reducible repeat' first
    | (apply partsIn.id; with_unfolding_all rfl)
    | apply Change.refl
    | apply Change.ite ?_ ?_
    | apply ChangeO.mk ?_
    | apply Change.tr ?_ (State.emit_frame ..) ?_
    | apply Change.tr ?_ (State.modFn_frame ..) ?_

theorem execMailboxSubmit_frame (m port words nwords tag s) :
    ChangeO [.out, .host, .mbox, .dict] s (execMailboxSubmit m port words nwords tag s) := by
  unfold execMailboxSubmit
  with_reducible repeat' first
    | (apply partsIn.id; with_unfolding_all rfl)
    | apply Change.refl
    | apply ChangeO.ite ?_ ?_
    | apply Change.ite ?_ ?_
    | extract_lets
    | apply ChangeO.mk ?_
    | apply ChangeO.stop
    | apply Change.iteFst ?_ ?_
    | apply Change.tr ?_ (State.modMb_frame ..) ?_
    | apply Change.tr ?_ (State.modFn_frame ..) ?_
    | apply Change.tr ?_ (State.mbReply_frame ..) ?_
    | apply Change.tr ?_ (State.mbAnswer_frame ..) ?_
    | apply Change.forL ?_ fun _ _ _ => ?_
    | apply Change.forN ?_ fun _ _ _ => ?_
    | apply Change.foldl ?_ fun _ _ _ => ?_
    | assumption
    | split
    | apply Change.setDict ?_ (by with_unfolding_all rfl) (by apply Part.kept_dict; rfl)

theorem execMailboxAnswer_frame (b m code outWords s) : ChangeO [.out, .mbox] s (execMailboxAnswer b m code outWords s) := by
  unfold execMailboxAnswer
  with_reducible repeat' first
    | (apply partsIn.id; with_unfolding_all rfl)
    | apply Change.refl
    | apply Change.ite ?_ ?_
    | apply ChangeO.mk ?_
    | apply Change.tr ?_ (State.mbAnswer_frame ..) ?_

theorem execDblSet_frame (b m bits s) : ChangeO [.out, .mbox] s (execDblSet b m bits s) := by
  unfold execDblSet
  with_reducible repeat' first
    | (apply partsIn.id; with_unfolding_all rfl)
    | apply Change.refl
    | apply Change.ite ?_ ?_
    | apply ChangeO.mk ?_
    | apply Change.tr ?_ (State.ring_frame ..) ?_

theorem execDblClear_frame (m bits s) : ChangeO [.mbox] s (execDblClear m bits s) := by
  unfold execDblClear
  with_reducible repeat' first
    | (apply partsIn.id; with_unfolding_all rfl)
    | apply Change.refl
    | apply Change.ite ?_ ?_
    | apply ChangeO.mk ?_
    | apply Change.tr ?_ (State.modMb_frame ..) ?_

theorem execDblMaskWrite_frame (m mask s) : ChangeO [.out, .mbox] s (execDblMaskWrite m mask s) := by
  unfold execDblMaskWrite
  with_reducible repeat' first
    | (apply partsIn.id; with_unfolding_all rfl)
    | apply Change.refl
    | apply Change.ite ?_ ?_
    | apply ChangeO.mk ?_
    | apply Change.tr ?_ (State.modMb_frame ..) ?_
    | apply Change.tr ?_ (State.emit_frame ..) ?_

theorem execCollideClear_frame (m s) : ChangeO [.mbox] s (execCollideClear m s) := by
  unfold execCollideClear
  with_reducible repeat' first
    | (apply partsIn.id; with_unfolding_all rfl)
    | apply Change.refl
    | apply Change.ite ?_ ?_
    | apply ChangeO.mk ?_
    | apply Change.tr ?_ (State.modMb_frame ..) ?_

theorem execCollisionsRead_frame (m s) : ChangeO [.out, .mbox] s (execCollisionsRead m s) := by
  unfold execCollisionsRead
  with_reducible repeat' first
    | (apply partsIn.id; with_unfolding_all rfl)
    | apply Change.refl
    | apply Change.ite ?_ ?_
    | apply ChangeO.mk ?_
    | apply Change.tr ?_ (State.emit_frame ..) ?_
    | apply Change.tr ?_ (State.modMb_frame ..) ?_

theorem Change.serve {l s} {t : State} {m req : Nat} {named : Bool} {f : Nat → State → Reply} (h : Change l s t)
    (w : partsIn [.out, .mbox] l = true) (k : ∀ b u, Change l s u → Change3 l s (f b u)) : Change l s (t.serve m req named f) := by
  unfold State.serve
  extract_lets w0 r
  refine Change.ite h (Change.ite (h.tr (State.mbReply_frame _ _ _ _) w) (Change.ite (h.tr (State.mbReply_frame _ _ _ _) w)
    (Change.ite (h.tr (State.mbReply_frame _ _ _ _) w) (Change.tr ?_ (State.mbReply_frame _ _ _ _) w))))
  exact k _ _ h

theorem refuse_frame (code s) : Change3 [] s (refuse code s) := by
  unfold refuse
  with_reducible repeat' first
    | apply Change.refl
    | apply Change3.mk ?_

theorem done_frame (s) : Change3 [] s (done s) := by
  unfold done
  with_reducible repeat' first
    | apply Change.refl
    | apply Change3.mk ?_

theorem execCtxCreate_frame (m s) : ChangeO [.out, .mbox, .ctxs] s (execCtxCreate m s) := by
  unfold execCtxCreate
  with_reducible repeat' first
    | (apply partsIn.id; with_unfolding_all rfl)
    | apply Change.refl
    | apply ChangeO.ite ?_ ?_
    | apply Change.ite ?_ ?_
    | extract_lets
    | apply ChangeO.mk ?_
    | apply ChangeO.stop
    | apply Change.serve ?_ ?_ fun _ _ _ => ?_
    | apply Change3.ite ?_ ?_
    | apply Change3.of ?_ (refuse_frame ..) ?_
    | apply Change.forL ?_ fun _ _ _ => ?_
    | apply Change.forN ?_ fun _ _ _ => ?_
    | apply Change.foldl ?_ fun _ _ _ => ?_
    | assumption
    | split
    | apply Change3.mk
    | apply Change.setCtxs ?_ (by with_unfolding_all rfl)

theorem State.abandonQueue_frame (s b q) :
    Change [.out, .mem, .chans, .berths, .host, .mbox, .ctxs, .fabric] s (State.abandonQueue s b q) := by
  unfold State.abandonQueue
  split
  · exact Change.refl
  · extract_lets t
    refine Change.tr ?_ (State.sweepQueue_frame _ _ _) rfl
    dsimp only [t]
    split
    · exact Change.refl.tr (State.retireRest_frame _ _ _ _) rfl
    · exact Change.ite Change.refl (Change.ite (Change.refl.tr (State.endCmd_frame _ _ _ _ _ _ _) rfl)
        (Change.ite (Change.elim Change.refl fun _ => Change.refl.tr (State.takeEnd_frame _ _ _ _) rfl) Change.refl))

theorem State.abandonCtx_frame (s b c) :
    Change [.out, .mem, .chans, .berths, .host, .mbox, .ctxs, .fabric] s (State.abandonCtx s b c) := by
  unfold State.abandonCtx
  with_reducible repeat' first
    | (apply partsIn.id; with_unfolding_all rfl)
    | apply Change.refl
    | apply Change.ite ?_ ?_
    | extract_lets
    | apply Change.elim ?_ fun _ => ?_
    | apply Change.tr ?_ (State.retireRest_frame ..) ?_
    | apply Change.tr ?_ (State.evtSet_frame ..) ?_
    | apply Change.tr ?_ (State.dropHolder_frame ..) ?_
    | apply Change.tr ?_ (State.freeCtx_frame ..) ?_
    | apply Change.tr ?_ (State.abandonQueue_frame ..) ?_
    | apply Change.forL ?_ fun _ _ _ => ?_
    | apply Change.forN ?_ fun _ _ _ => ?_
    | apply Change.foldl ?_ fun _ _ _ => ?_
    | assumption
    | split
    | apply Change.setCtxs ?_ (by with_unfolding_all rfl)

theorem execCtxAbandon_frame (m s) :
    ChangeO [.out, .mem, .chans, .berths, .host, .mbox, .ctxs, .fabric] s (execCtxAbandon m s) := by
  unfold execCtxAbandon
  with_reducible repeat' first
    | (apply partsIn.id; with_unfolding_all rfl)
    | apply Change.refl
    | apply ChangeO.mk ?_
    | apply Change.serve ?_ ?_ fun _ _ _ => ?_
    | apply Change3.ite ?_ ?_
    | apply Change3.of ?_ (done_frame ..) ?_
    | apply Change.tr ?_ (State.abandonCtx_frame ..) ?_
    | apply Change3.of ?_ (refuse_frame ..) ?_
    | assumption

theorem State.graceOver_frame (s b c) :
    Change [.free, .out, .mem, .chans, .cores, .berths, .host, .mbox, .launches, .fabric] s (State.graceOver s b c) := by
  unfold State.graceOver
  with_reducible repeat' first
    | (apply partsIn.id; with_unfolding_all rfl)
    | apply Change.refl
    | apply Change.elim ?_ fun _ => ?_
    | apply Change.tr ?_ (State.stopLaunch_frame ..) ?_
    | apply Change.tr ?_ (State.takeEnd_frame ..) ?_
    | apply Change.forL ?_ fun _ _ _ => ?_
    | assumption
    | split

theorem execAbandonGraceExpiry_frame (ctx s) :
    ChangeO [.free, .out, .mem, .chans, .cores, .berths, .host, .mbox, .launches, .fabric]
      s (execAbandonGraceExpiry ctx s) := by
  unfold execAbandonGraceExpiry
  with_reducible repeat' first
    | (apply partsIn.id; with_unfolding_all rfl)
    | apply Change.refl
    | apply ChangeO.mk ?_
    | apply Change.tr ?_ (State.graceOver_frame ..) ?_
    | split

theorem execQueueCreate_frame (m s) : ChangeO [.out, .berths, .mbox] s (execQueueCreate m s) := by
  unfold execQueueCreate
  with_reducible repeat' first
    | (apply partsIn.id; with_unfolding_all rfl)
    | apply Change.refl
    | extract_lets
    | apply ChangeO.mk ?_
    | apply Change.serve ?_ ?_ fun _ _ _ => ?_
    | apply Change3.of ?_ (refuse_frame ..) ?_
    | apply Change.tr ?_ (State.modBerth_frame _ _ _ ?_) ?_
    | assumption
    | split
    | apply Change3.mk
    | (apply BerthKept.of <;> rfl)

theorem execQueueDestroy_frame (m s) : ChangeO [.out, .berths, .host, .mbox, .ctxs] s (execQueueDestroy m s) := by
  unfold execQueueDestroy
  with_reducible repeat' first
    | (apply partsIn.id; with_unfolding_all rfl)
    | apply Change.refl
    | apply ChangeO.mk ?_
    | apply Change.serve ?_ ?_ fun _ _ _ => ?_
    | apply Change3.ite ?_ ?_
    | apply Change3.of ?_ (refuse_frame ..) ?_
    | apply Change3.of ?_ (done_frame ..) ?_
    | apply Change.tr ?_ (State.sweepQueue_frame ..) ?_
    | apply Change.tr ?_ (State.modQueue_frame ..) ?_
    | assumption

theorem execQueueStop_frame (m s) :
    ChangeO [.free, .out, .mem, .cores, .berths, .host, .mbox, .launches, .fabric] s (execQueueStop m s) := by
  unfold execQueueStop
  with_reducible repeat' first
    | (apply partsIn.id; with_unfolding_all rfl)
    | apply Change.refl
    | extract_lets
    | apply ChangeO.mk ?_
    | apply Change.serve ?_ ?_ fun _ _ _ => ?_
    | apply Change3.of ?_ (refuse_frame ..) ?_
    | apply Change.tr ?_ (State.modQueue_frame ..) ?_
    | apply Change3.of ?_ (done_frame ..) ?_
    | apply Change.tr ?_ (State.stopLaunch_frame ..) ?_
    | assumption
    | split

theorem execQueueStart_frame (m s) : ChangeO [.out, .berths, .mbox] s (execQueueStart m s) := by
  unfold execQueueStart
  with_reducible repeat' first
    | (apply partsIn.id; with_unfolding_all rfl)
    | apply Change.refl
    | apply ChangeO.mk ?_
    | apply Change.serve ?_ ?_ fun _ _ _ => ?_
    | apply Change3.ite ?_ ?_
    | apply Change3.of ?_ (refuse_frame ..) ?_
    | apply Change3.of ?_ (done_frame ..) ?_
    | apply Change.tr ?_ (State.modQueue_frame ..) ?_
    | assumption

theorem execObjCreate_frame (m s) : ChangeO [.out, .berths, .mbox] s (execObjCreate m s) := by
  unfold execObjCreate
  with_reducible repeat' first
    | (apply partsIn.id; with_unfolding_all rfl)
    | apply Change.refl
    | extract_lets
    | apply ChangeO.mk ?_
    | apply Change.serve ?_ ?_ fun _ _ _ => ?_
    | apply Change3.of ?_ (refuse_frame ..) ?_
    | apply Change.tr ?_ (State.modBerth_frame _ _ _ ?_) ?_
    | assumption
    | split
    | apply Change3.mk
    | (refine BerthKept.obj ?_ rfl rfl; rfl)

theorem execObjImport_frame (m s) : ChangeO [.out, .berths, .mbox] s (execObjImport m s) := by
  unfold execObjImport
  with_reducible repeat' first
    | (apply partsIn.id; with_unfolding_all rfl)
    | apply Change.refl
    | apply ChangeO.mk ?_
    | apply Change.serve ?_ ?_ fun _ _ _ => ?_
    | apply Change3.ite ?_ ?_
    | apply Change3.of ?_ (refuse_frame ..) ?_
    | apply Change3.of ?_ (done_frame ..) ?_
    | apply Change.tr ?_ (State.modObj_frame _ _ _ _ ?_) ?_
    | assumption
    | exact fun _ h => h

theorem execObjRelease_frame (m s) : ChangeO [.out, .berths, .host, .mbox] s (execObjRelease m s) := by
  unfold execObjRelease
  with_reducible repeat' first
    | (apply partsIn.id; with_unfolding_all rfl)
    | apply Change.refl
    | extract_lets
    | apply ChangeO.mk ?_
    | apply Change.serve ?_ ?_ fun _ _ _ => ?_
    | apply Change3.of ?_ (refuse_frame ..) ?_
    | apply Change3.of ?_ (done_frame ..) ?_
    | apply Change.tr ?_ (State.objSweep_frame ..) ?_
    | apply Change.tr ?_ (State.modObj_frame _ _ _ _ ?_) ?_
    | assumption
    | split
    | exact fun _ h => h

theorem execEvtCreate_frame (m s) : ChangeO [.out, .berths, .mbox] s (execEvtCreate m s) := by
  unfold execEvtCreate
  with_reducible repeat' first
    | (apply partsIn.id; with_unfolding_all rfl)
    | apply Change.refl
    | extract_lets
    | apply ChangeO.mk ?_
    | apply Change.serve ?_ ?_ fun _ _ _ => ?_
    | apply Change3.of ?_ (refuse_frame ..) ?_
    | apply Change.tr ?_ (State.modBerth_frame _ _ _ ?_) ?_
    | assumption
    | split
    | apply Change3.mk
    | (refine BerthKept.evt ?_ rfl rfl; rfl)

theorem execEvtImport_frame (m s) : ChangeO [.out, .berths, .mbox] s (execEvtImport m s) := by
  unfold execEvtImport
  with_reducible repeat' first
    | (apply partsIn.id; with_unfolding_all rfl)
    | apply Change.refl
    | apply ChangeO.mk ?_
    | apply Change.serve ?_ ?_ fun _ _ _ => ?_
    | apply Change3.ite ?_ ?_
    | apply Change3.of ?_ (refuse_frame ..) ?_
    | apply Change3.of ?_ (done_frame ..) ?_
    | apply Change.tr ?_ (State.modEvt_frame _ _ _ _ ?_) ?_
    | assumption
    | exact fun _ h => h

theorem execEvtRelease_frame (m s) : ChangeO [.out, .berths, .mbox] s (execEvtRelease m s) := by
  unfold execEvtRelease
  with_reducible repeat' first
    | (apply partsIn.id; with_unfolding_all rfl)
    | apply Change.refl
    | extract_lets
    | apply ChangeO.mk ?_
    | apply Change.serve ?_ ?_ fun _ _ _ => ?_
    | apply Change3.of ?_ (refuse_frame ..) ?_
    | apply Change3.of ?_ (done_frame ..) ?_
    | apply Change.tr ?_ (State.evtSweep_frame ..) ?_
    | apply Change.tr ?_ (State.modEvt_frame _ _ _ _ ?_) ?_
    | assumption
    | split
    | exact fun _ h => h

theorem execEvtQuery_frame (m s) : ChangeO [.out, .mbox] s (execEvtQuery m s) := by
  unfold execEvtQuery
  with_reducible repeat' first
    | (apply partsIn.id; with_unfolding_all rfl)
    | apply Change.refl
    | apply ChangeO.mk ?_
    | apply Change.serve ?_ ?_ fun _ _ _ => ?_
    | apply Change3.of ?_ (refuse_frame ..) ?_
    | assumption
    | split
    | apply Change3.mk

theorem execEvtSignal_frame (m s) : ChangeO [.out, .berths, .host, .mbox] s (execEvtSignal m s) := by
  unfold execEvtSignal
  with_reducible repeat' first
    | (apply partsIn.id; with_unfolding_all rfl)
    | apply Change.refl
    | apply ChangeO.mk ?_
    | apply Change.serve ?_ ?_ fun _ _ _ => ?_
    | apply Change3.ite ?_ ?_
    | apply Change3.of ?_ (refuse_frame ..) ?_
    | apply Change3.of ?_ (done_frame ..) ?_
    | apply Change.tr ?_ (State.evtSet_frame ..) ?_
    | assumption

theorem execBargeSetup_frame (m s) : ChangeO [.out, .host, .mbox] s (execBargeSetup m s) := by
  unfold execBargeSetup
  with_reducible repeat' first
    | (apply partsIn.id; with_unfolding_all rfl)
    | apply Change.refl
    | apply ChangeO.mk ?_
    | apply Change.serve ?_ ?_ fun _ _ _ => ?_
    | apply Change3.ite ?_ ?_
    | apply Change3.of ?_ (refuse_frame ..) ?_
    | apply Change3.of ?_ (done_frame ..) ?_
    | apply Change.tr ?_ (State.modFn_frame ..) ?_
    | assumption

theorem execNoticeSetup_frame (m s) : ChangeO [.out, .host, .mbox] s (execNoticeSetup m s) := by
  unfold execNoticeSetup
  with_reducible repeat' first
    | (apply partsIn.id; with_unfolding_all rfl)
    | apply Change.refl
    | apply ChangeO.mk ?_
    | apply Change.serve ?_ ?_ fun _ _ _ => ?_
    | apply Change3.ite ?_ ?_
    | apply Change3.of ?_ (refuse_frame ..) ?_
    | apply Change3.of ?_ (done_frame ..) ?_
    | apply Change.tr ?_ (State.modFn_frame ..) ?_
    | assumption

theorem execResumeBerth_frame (m s) :
    ChangeO [.out, .mem, .chans, .berths, .host, .mbox, .fabric, .streams, .snaps] s (execResumeBerth m s) := by
  unfold execResumeBerth
  with_reducible repeat' first
    | (apply partsIn.id; with_unfolding_all rfl)
    | apply Change.refl
    | apply ChangeO.mk ?_
    | apply Change.serve ?_ ?_ fun _ _ _ => ?_
    | apply Change3.of ?_ (done_frame ..) ?_
    | apply Change.tr ?_ (State.release_frame ..) ?_
    | assumption

theorem execMapPages_frame (m s) : ChangeO [.out, .berths, .mbox] s (execMapPages m s) := by
  unfold execMapPages
  with_reducible repeat' first
    | (apply partsIn.id; with_unfolding_all rfl)
    | apply Change.refl
    | apply ChangeO.mk ?_
    | apply Change.serve ?_ ?_ fun _ _ _ => ?_
    | apply Change3.ite ?_ ?_
    | apply Change3.of ?_ (refuse_frame ..) ?_
    | apply Change3.of ?_ (done_frame ..) ?_
    | apply Change.tr ?_ (State.modBerth_frame _ _ _ ?_) ?_
    | assumption
    | (apply BerthKept.of <;> rfl)

theorem execUnmapPages_frame (m s) : ChangeO [.out, .berths, .mbox] s (execUnmapPages m s) := by
  unfold execUnmapPages
  with_reducible repeat' first
    | (apply partsIn.id; with_unfolding_all rfl)
    | apply Change.refl
    | apply ChangeO.mk ?_
    | apply Change.serve ?_ ?_ fun _ _ _ => ?_
    | apply Change3.ite ?_ ?_
    | apply Change3.of ?_ (refuse_frame ..) ?_
    | apply Change3.of ?_ (done_frame ..) ?_
    | apply Change.tr ?_ (State.modBerth_frame _ _ _ ?_) ?_
    | assumption
    | (apply BerthKept.of <;> rfl)

theorem execMbAssign_frame (m s) : ChangeO [.out, .mbox] s (execMbAssign m s) := by
  unfold execMbAssign
  with_reducible repeat' first
    | (apply partsIn.id; with_unfolding_all rfl)
    | apply Change.refl
    | apply ChangeO.mk ?_
    | apply Change.serve ?_ ?_ fun _ _ _ => ?_
    | apply Change3.ite ?_ ?_
    | apply Change3.of ?_ (refuse_frame ..) ?_
    | apply Change3.of ?_ (done_frame ..) ?_
    | apply Change.tr ?_ (State.modMb_frame ..) ?_
    | apply Change.tr ?_ (State.mbAnswer_frame ..) ?_
    | assumption

theorem execSegLoad_frame (m s) : ChangeO [.out, .mem, .chans, .host, .mbox] s (execSegLoad m s) := by
  unfold execSegLoad
  with_reducible repeat' first
    | (apply partsIn.id; with_unfolding_all rfl)
    | apply Change.refl
    | apply ChangeO.mk ?_
    | apply Change.serve ?_ ?_ fun _ _ _ => ?_
    | apply Change3.ite ?_ ?_
    | apply Change3.of ?_ (refuse_frame ..) ?_
    | apply Change3.of ?_ (done_frame ..) ?_
    | apply Change.tr ?_ (State.homeStore_frame ..) ?_
    | apply Change.forN ?_ fun _ _ _ => ?_
    | assumption

theorem execVfFlr_frame (f s) : ChangeO [.out, .mem, .chans, .berths, .host, .mbox, .ctxs, .fabric] s (execVfFlr f s) := by
  unfold execVfFlr
  with_reducible repeat' first
    | (apply partsIn.id; with_unfolding_all rfl)
    | apply Change.refl
    | apply Change.ite ?_ ?_
    | apply ChangeO.mk ?_
    | apply Change.tr ?_ (State.flrClear_frame ..) ?_
    | apply Change.tr ?_ (State.modFn_frame ..) ?_
    | apply Change.tr ?_ (State.abandonCtx_frame ..) ?_
    | apply Change.forL ?_ fun _ _ _ => ?_
    | assumption

theorem execPfFlr_frame (s) : ChangeO [.host, .mbox] s (execPfFlr s) := by
  unfold execPfFlr
  with_reducible repeat' first
    | (apply partsIn.id; with_unfolding_all rfl)
    | apply Change.refl
    | apply ChangeO.ite ?_ ?_
    | apply Change.ite ?_ ?_
    | extract_lets
    | apply ChangeO.mk ?_
    | apply ChangeO.stop
    | apply Change.tr ?_ (State.modMb_frame ..) ?_
    | apply Change.forL ?_ fun _ _ _ => ?_
    | apply Change.forN ?_ fun _ _ _ => ?_
    | apply Change.foldl ?_ fun _ _ _ => ?_
    | assumption
    | split
    | apply Change.setHost ?_ (by with_unfolding_all rfl) (by apply Part.kept_host; rfl)

theorem State.modPort_frame (s p f) : Change [.host] s (State.modPort s p f) := by
  unfold State.modPort
  with_reducible repeat' first
    | apply Change.refl
    | apply Change.ite ?_ ?_
    | extract_lets
    | apply Change.forL ?_ fun _ _ _ => ?_
    | apply Change.forN ?_ fun _ _ _ => ?_
    | apply Change.foldl ?_ fun _ _ _ => ?_
    | assumption
    | split
    | apply Change.setHost ?_ (by with_unfolding_all rfl) (by apply Part.kept_host; rfl)

theorem execHostLinkDown_frame (port s) : ChangeO [.host] s (execHostLinkDown port s) := by
  unfold execHostLinkDown
  with_reducible repeat' first
    | (apply partsIn.id; with_unfolding_all rfl)
    | apply Change.refl
    | apply ChangeO.mk ?_
    | apply Change.tr ?_ (State.modPort_frame ..) ?_

theorem execHostLoss_frame (s) :
    ChangeO [.free, .out, .mem, .chans, .berths, .host, .mbox, .fabric, .streams] s (execHostLoss s) := by
  unfold execHostLoss
  with_reducible repeat' first
    | (apply partsIn.id; with_unfolding_all rfl)
    | apply Change.refl
    | apply ChangeO.ite ?_ ?_
    | apply Change.ite ?_ ?_
    | extract_lets
    | apply ChangeO.mk ?_
    | apply ChangeO.stop
    | apply Change.tr ?_ (State.feedAll_frame ..) ?_
    | apply Change.forL ?_ fun _ _ _ => ?_
    | apply Change.forN ?_ fun _ _ _ => ?_
    | apply Change.foldl ?_ fun _ _ _ => ?_
    | assumption
    | split
    | apply Change.setHost ?_ (by with_unfolding_all rfl) (by apply Part.kept_host; rfl)

theorem execHostLinkUp_frame (port width rate s) : ChangeO [.host] s (execHostLinkUp port width rate s) := by
  unfold execHostLinkUp
  with_reducible repeat' first
    | (apply partsIn.id; with_unfolding_all rfl)
    | apply Change.refl
    | apply ChangeO.ite ?_ ?_
    | apply Change.ite ?_ ?_
    | extract_lets
    | apply ChangeO.mk ?_
    | apply ChangeO.stop
    | apply Change.tr ?_ (State.modPort_frame ..) ?_
    | apply Change.forL ?_ fun _ _ _ => ?_
    | apply Change.forN ?_ fun _ _ _ => ?_
    | apply Change.foldl ?_ fun _ _ _ => ?_
    | assumption
    | split
    | apply Change.setHost ?_ (by with_unfolding_all rfl) (by apply Part.kept_host; rfl)

theorem State.clearDie_frame (s d) : Change [.mem, .chans, .cores] s (State.clearDie s d) := by
  unfold State.clearDie
  extract_lets keep t
  have h : Change [.mem, .chans, .cores] s t := Change.forN Change.refl fun c u j =>
    j.tr (State.setCore_frame _ _ _ (CoreKept.fresh rfl)) rfl
  clear_value t
  refine h.setMany fun p => ?_
  cases p <;> constructor <;> first
    | exact trivial
    | exact .inl (by decide)
    | exact .inr rfl
    | exact Part.kept_same rfl
    | exact fun j => cellsFilter_wf _ j

theorem State.berthDefaults_frame (s b but) : Change [.dict] s (State.berthDefaults s b but) := by
  unfold State.berthDefaults
  with_reducible repeat' first
    | apply Change.refl
    | apply Change.ite ?_ ?_
    | extract_lets
    | apply Change.iteFst ?_ ?_
    | apply Change.forL ?_ fun _ _ _ => ?_
    | apply Change.forN ?_ fun _ _ _ => ?_
    | apply Change.foldl ?_ fun _ _ _ => ?_
    | assumption
    | split
    | apply Change.setDict ?_ (by with_unfolding_all rfl) (by apply Part.kept_dict; rfl)

theorem State.berthBlank_frame (s b) : Change [.host, .mbox, .fabric, .streams, .snaps] s (State.berthBlank s b) := by
  unfold State.berthBlank
  extract_lets t u v src
  have h : Change [.host, .mbox, .fabric, .streams, .snaps] s t := Change.forN Change.refl fun j x k => k.setStreams rfl
  have h1 : Change [.host, .mbox, .fabric, .streams, .snaps] s u := Change.forN h fun j x k => k.setMbox rfl
  have h2 : Change [.host, .mbox, .fabric, .streams, .snaps] s v := Change.forL h1 fun d x k => k.tr (State.modExch_frame _ _ _) rfl
  clear_value v
  exact h2.setMany fun p => by
    cases p <;> constructor <;> first | exact trivial | exact .inl (by decide) | exact .inr rfl | exact Part.kept_same rfl | exact Part.kept_dict rfl | exact Part.kept_host rfl | exact Part.kept_defects rfl

theorem State.writeCreate_frame (s b) : Change2 [.berths] s (State.writeCreate s b) := by
  unfold State.writeCreate
  with_reducible repeat' first
    | (apply partsIn.id; with_unfolding_all rfl)
    | apply Change.refl
    | apply Change.ite ?_ ?_
    | apply Change.tr ?_ (State.setBerth_frame _ _ _ ?_) ?_
    | apply Change2.mk ?_
    | (apply BerthKept.fresh <;> rfl)

theorem execBerthCreate_frame (b s) : ChangeO [.out, .berths] s (execBerthCreate b s) := by
  unfold execBerthCreate
  with_reducible repeat' first
    | (apply partsIn.id; with_unfolding_all rfl)
    | apply Change.refl
    | apply ChangeO.mk ?_
    | apply Change.byDict ?_ ?_ fun _ => ?_
    | apply Change2.tr ?_ (State.writeCreate_frame ..) ?_

theorem State.dropCore_frame (s launch c) :
    Change [.free, .out, .mem, .chans, .cores, .berths, .host, .mbox, .fabric] s (State.dropCore s launch c) := by
  unfold State.dropCore
  with_reducible repeat' first
    | (apply partsIn.id; with_unfolding_all rfl)
    | apply Change.refl
    | apply Change.ite ?_ ?_
    | apply Change.tr ?_ (State.stopCore_frame ..) ?_
    | apply Change.tr ?_ (State.perform_frame ..) ?_
    | apply Change.tr ?_ (State.modCore_frame _ _ _ ?_) ?_
    | apply Change.forL ?_ fun _ _ _ => ?_
    | assumption
    | (apply CoreKept.of; rfl)

theorem State.dropLaunches_frame (s b) :
    Change [.free, .out, .mem, .chans, .cores, .berths, .host, .mbox, .launches, .fabric] s (State.dropLaunches s b) := by
  unfold State.dropLaunches
  with_reducible repeat' first
    | (apply partsIn.id; with_unfolding_all rfl)
    | apply Change.refl
    | apply Change.ite ?_ ?_
    | extract_lets
    | apply Change.iteFst ?_ ?_
    | apply Change.tr ?_ (State.dropCore_frame ..) ?_
    | apply Change.forL ?_ fun _ _ _ => ?_
    | apply Change.forN ?_ fun _ _ _ => ?_
    | apply Change.foldl ?_ fun _ _ _ => ?_
    | assumption
    | split
    | apply Change.setLaunches ?_ (by with_unfolding_all rfl)

theorem State.resetQueue_frame (s b q) : Change [.out, .berths, .host, .mbox, .ctxs] s (State.resetQueue s b q) := by
  unfold State.resetQueue
  with_reducible repeat' first
    | (apply partsIn.id; with_unfolding_all rfl)
    | apply Change.refl
    | apply Change.tr ?_ (State.retireFront_frame ..) ?_
    | apply Change.tr ?_ (State.sweepQueue_frame ..) ?_
    | apply Change.tr ?_ (State.modQueue_frame ..) ?_
    | apply Change.forN ?_ fun _ _ _ => ?_
    | assumption
    | split

theorem State.voidSlot_frame (s b slot) : Change [.out, .host, .mbox, .snaps] s (State.voidSlot s b slot) := by
  unfold State.voidSlot
  with_reducible repeat' first
    | (apply partsIn.id; with_unfolding_all rfl)
    | apply Change.refl
    | apply Change.ite ?_ ?_
    | extract_lets
    | apply Change.tr ?_ (State.berthEvent_frame ..) ?_
    | apply Change.forL ?_ fun _ _ _ => ?_
    | apply Change.forN ?_ fun _ _ _ => ?_
    | apply Change.foldl ?_ fun _ _ _ => ?_
    | assumption
    | split
    | apply Change.setSnaps ?_ (by with_unfolding_all rfl)

theorem State.dropSnap_frame (s b) : Change [.out, .host, .mbox, .snaps] s (State.dropSnap s b) := by
  unfold State.dropSnap
  with_reducible repeat' first
    | (apply partsIn.id; with_unfolding_all rfl)
    | apply Change.refl
    | apply Change.ite ?_ ?_
    | extract_lets
    | apply Change.tr ?_ (State.voidSlot_frame ..) ?_
    | apply Change.forL ?_ fun _ _ _ => ?_
    | apply Change.forN ?_ fun _ _ _ => ?_
    | apply Change.foldl ?_ fun _ _ _ => ?_
    | assumption
    | split
    | apply Change.setSnaps ?_ (by with_unfolding_all rfl)

theorem State.stopBerth_frame (s b) :
        Change [.free, .out, .mem, .chans, .cores, .berths, .host, .mbox, .ctxs, .launches, .fabric, .streams, .snaps]
      s (State.stopBerth s b) := by
  unfold State.stopBerth
  with_reducible repeat' first
    | (apply partsIn.id; with_unfolding_all rfl)
    | apply Change.refl
    | apply Change.tr ?_ (State.dropLaunches_frame ..) ?_
    | apply Change.tr ?_ (State.modBerth_frame _ _ _ ?_) ?_
    | apply Change.tr ?_ (State.resetQueue_frame ..) ?_
    | apply Change.tr ?_ (State.dropSnap_frame ..) ?_
    | apply Change.tr ?_ (State.modExch_frame ..) ?_
    | apply Change.tr ?_ (State.modFabric_frame ..) ?_
    | apply Change.tr ?_ (State.restartStrms_frame ..) ?_
    | apply Change.forL ?_ fun _ _ _ => ?_
    | assumption
    | (apply BerthKept.of <;> rfl)

theorem State.resetBoxes_frame (s b) : Change [.out, .mbox] s (State.resetBoxes s b) := by
  unfold State.resetBoxes
  with_reducible repeat' first
    | (apply partsIn.id; with_unfolding_all rfl)
    | apply Change.refl
    | apply Change.ite ?_ ?_
    | apply Change.tr ?_ (State.mbAnswer_frame ..) ?_
    | apply Change.forN ?_ fun _ _ _ => ?_
    | assumption

theorem State.startReset_frame (s b) :
        Change [.free, .out, .mem, .chans, .cores, .berths, .host, .mbox, .ctxs, .launches, .fabric, .streams, .snaps]
      s (State.startReset s b) := by
  unfold State.startReset
  with_reducible repeat' first
    | (apply partsIn.id; with_unfolding_all rfl)
    | apply Change.refl
    | apply Change.tr ?_ (State.modBerth_frame _ _ _ ?_) ?_
    | apply Change.tr ?_ (State.resetBoxes_frame ..) ?_
    | apply Change.tr ?_ (State.stopBerth_frame ..) ?_
    | (apply BerthKept.of <;> rfl)

theorem State.startDusk_frame (s b) :
    Change [.out, .mem, .chans, .berths, .host, .mbox, .ctxs, .fabric, .streams] s (State.startDusk s b) := by
  unfold State.startDusk
  with_reducible repeat' first
    | (apply partsIn.id; with_unfolding_all rfl)
    | apply Change.refl
    | apply Change.ite ?_ ?_
    | apply Change.tr ?_ (State.modBerth_frame _ _ _ ?_) ?_
    | apply Change.tr ?_ (State.abandonCtx_frame ..) ?_
    | apply Change.tr ?_ (State.disableStrm_frame ..) ?_
    | apply Change.tr ?_ (State.modExch_frame ..) ?_
    | apply Change.tr ?_ (State.modFabric_frame ..) ?_
    | apply Change.forL ?_ fun _ _ _ => ?_
    | apply Change.forN ?_ fun _ _ _ => ?_
    | assumption
    | (apply BerthKept.of <;> rfl)

theorem State.nextMode_frame (s b) :
        Change [.free, .out, .mem, .chans, .cores, .berths, .host, .mbox, .ctxs, .launches, .fabric, .streams, .snaps]
      s (State.nextMode s b) := by
  unfold State.nextMode
  with_reducible repeat' first
    | (apply partsIn.id; with_unfolding_all rfl)
    | apply Change.refl
    | apply Change.ite ?_ ?_
    | apply Change.tr ?_ (State.startReset_frame ..) ?_
    | apply Change.tr ?_ (State.startDusk_frame ..) ?_

theorem State.askReset_frame (s b) :
        Change2 [.free, .out, .mem, .chans, .cores, .berths, .host, .mbox, .ctxs, .launches, .fabric, .streams, .snaps]
      s (State.askReset s b) := by
  unfold State.askReset
  with_reducible repeat' first
    | (apply partsIn.id; with_unfolding_all rfl)
    | apply Change.refl
    | apply Change.tr ?_ (State.nextMode_frame ..) ?_
    | apply Change.tr ?_ (State.modBerth_frame _ _ _ ?_) ?_
    | split
    | apply Change2.mk ?_
    | (apply BerthKept.of <;> rfl)

theorem execBerthResetRequest_frame (b s) :
    ChangeO [.free, .out, .mem, .chans, .cores, .berths, .host, .mbox, .ctxs, .launches, .fabric, .streams, .snaps]
      s (execBerthResetRequest b s) := by
  unfold execBerthResetRequest
  with_reducible repeat' first
    | (apply partsIn.id; with_unfolding_all rfl)
    | apply Change.refl
    | apply ChangeO.mk ?_
    | apply Change.byDict ?_ ?_ fun _ => ?_
    | apply Change2.tr ?_ (State.askReset_frame ..) ?_

theorem execResetBerth_frame (m s) :
    ChangeO [.free, .out, .mem, .chans, .cores, .berths, .host, .mbox, .ctxs, .launches, .fabric, .streams, .snaps]
      s (execResetBerth m s) := by
  unfold execResetBerth
  with_reducible repeat' first
    | (apply partsIn.id; with_unfolding_all rfl)
    | apply Change.refl
    | apply ChangeO.mk ?_
    | apply Change.serve ?_ ?_ fun _ _ _ => ?_
    | apply Change3.ite ?_ ?_
    | apply Change2.tr ?_ (State.askReset_frame ..) ?_
    | apply Change3.of ?_ (done_frame ..) ?_
    | apply Change3.of ?_ (refuse_frame ..) ?_
    | assumption

theorem execBerthResetDone_frame (b s) :
    ChangeO [.free, .out, .mem, .chans, .cores, .berths, .host, .mbox, .ctxs, .launches, .fabric, .streams, .snaps]
      s (execBerthResetDone b s) := by
  unfold execBerthResetDone
  with_reducible repeat' first
    | (apply partsIn.id; with_unfolding_all rfl)
    | apply Change.refl
    | apply Change.ite ?_ ?_
    | apply ChangeO.mk ?_
    | apply Change.tr ?_ (State.modCore_frame _ _ _ ?_) ?_
    | apply Change.tr ?_ (State.nextMode_frame ..) ?_
    | apply Change.tr ?_ (State.berthEvent_frame ..) ?_
    | apply Change.tr ?_ (State.modBerth_frame _ _ _ ?_) ?_
    | apply Change.forL ?_ fun _ _ _ => ?_
    | apply Change.forN ?_ fun _ _ _ => ?_
    | assumption
    | (apply BerthKept.of <;> rfl)
    | (apply CoreKept.fresh; rfl)

theorem execBerthCreateDone_frame (b s) :
    ChangeO [.free, .out, .mem, .chans, .cores, .berths, .host, .mbox, .ctxs, .launches, .fabric, .dict, .streams,
      .snaps] s (execBerthCreateDone b s) := by
  unfold execBerthCreateDone
  with_reducible repeat' first
    | (apply partsIn.id; with_unfolding_all rfl)
    | apply Change.refl
    | apply Change.ite ?_ ?_
    | apply ChangeO.mk ?_
    | apply Change.tr ?_ (State.clearDie_frame ..) ?_
    | apply Change.tr ?_ (State.berthDefaults_frame ..) ?_
    | apply Change.tr ?_ (State.berthBlank_frame ..) ?_
    | apply Change.tr ?_ (State.setBerth_frame _ _ _ ?_) ?_
    | apply Change.tr ?_ (State.nextMode_frame ..) ?_
    | apply Change.tr ?_ (State.modFn_frame ..) ?_
    | apply Change.forL ?_ fun _ _ _ => ?_
    | assumption
    | (apply BerthKept.fresh <;> rfl)

theorem State.writeDusk_frame (s b) :
        Change2 [.free, .out, .mem, .chans, .cores, .berths, .host, .mbox, .ctxs, .launches, .fabric, .streams, .snaps]
      s (State.writeDusk s b) := by
  unfold State.writeDusk
  with_reducible repeat' first
    | (apply partsIn.id; with_unfolding_all rfl)
    | apply Change.refl
    | apply Change2.ite ?_ ?_
    | apply Change.tr ?_ (State.nextMode_frame ..) ?_
    | apply Change.tr ?_ (State.modBerth_frame _ _ _ ?_) ?_
    | apply Change2.mk ?_
    | (apply BerthKept.of <;> rfl)

theorem execBerthDusk_frame (b s) :
    ChangeO [.free, .out, .mem, .chans, .cores, .berths, .host, .mbox, .ctxs, .launches, .fabric, .streams, .snaps]
      s (execBerthDusk b s) := by
  unfold execBerthDusk
  with_reducible repeat' first
    | (apply partsIn.id; with_unfolding_all rfl)
    | apply Change.refl
    | apply ChangeO.mk ?_
    | apply Change.byDict ?_ ?_ fun _ => ?_
    | apply Change2.tr ?_ (State.writeDusk_frame ..) ?_

theorem execDuskGraceExpiry_frame (b s) :
    ChangeO [.free, .out, .mem, .chans, .cores, .berths, .host, .mbox, .launches, .fabric] s (execDuskGraceExpiry b s) := by
  unfold execDuskGraceExpiry
  with_reducible repeat' first
    | (apply partsIn.id; with_unfolding_all rfl)
    | apply Change.refl
    | apply ChangeO.ite ?_ ?_
    | apply Change.ite ?_ ?_
    | extract_lets
    | apply ChangeO.mk ?_
    | apply ChangeO.stop
    | apply Change.iteFst ?_ ?_
    | apply Change.tr ?_ (State.graceOver_frame ..) ?_
    | apply Change.tr ?_ (State.endCmd_frame ..) ?_
    | split
    | apply Change.forL ?_ fun _ _ _ => ?_
    | apply Change.forN ?_ fun _ _ _ => ?_
    | apply Change.foldl ?_ fun _ _ _ => ?_
    | assumption
    | split
    | apply Change.setLaunches ?_ (by with_unfolding_all rfl)

theorem execDuskDone_frame (b s) :
    ChangeO [.out, .mem, .chans, .cores, .berths, .host, .mbox, .ctxs, .fabric, .dict, .fw, .streams, .snaps]
      s (execDuskDone b s) := by
  unfold execDuskDone
  refine ChangeO.mk ?_
  extract_lets x t u v f
  refine Change.ite Change.refl ?_
  have h : Change [.out, .mem, .chans, .cores, .berths, .host, .mbox, .ctxs, .fabric, .dict, .fw, .streams, .snaps] s t := Change.forL Change.refl fun p w j => j.tr (State.clearDie_frame _ _) rfl
  have k : Change [.out, .mem, .chans, .cores, .berths, .host, .mbox, .ctxs, .fabric, .dict, .fw, .streams, .snaps] s u := Change.forN h fun p w j =>
    Change.ite ((j.tr (State.modMb_frame _ _ _) rfl).tr (State.mbAnswer_frame _ _ _ _) rfl) j
  have q : Change [.out, .mem, .chans, .cores, .berths, .host, .mbox, .ctxs, .fabric, .dict, .fw, .streams, .snaps] s v :=
    ((k.tr (State.operatorEvent_frame _ _ _ _ _) rfl).tr (State.berthBlank_frame _ _) rfl).tr (State.berthDefaults_frame _ _ _) rfl
  clear_value v
  refine q.setMany fun p => ?_
  cases p <;> constructor <;> first
    | exact trivial
    | exact .inl (by decide)
    | exact .inr rfl
    | exact Part.kept_same rfl
    | exact fun j p hp => j p (List.mem_filter.mp hp).1

theorem State.emptySlots_frame (s b) : Change [.snaps] s (State.emptySlots s b) := by
  unfold State.emptySlots
  with_reducible repeat' first
    | apply Change.refl
    | apply Change.ite ?_ ?_
    | extract_lets
    | apply Change.forL ?_ fun _ _ _ => ?_
    | apply Change.forN ?_ fun _ _ _ => ?_
    | apply Change.foldl ?_ fun _ _ _ => ?_
    | assumption
    | split
    | apply Change.setSnaps ?_ (by with_unfolding_all rfl)

theorem State.writeResize_frame (s b) : Change2 [.mem, .chans, .cores, .berths] s (State.writeResize s b) := by
  unfold State.writeResize
  with_reducible repeat' first
    | (apply partsIn.id; with_unfolding_all rfl)
    | apply Change.refl
    | apply Change2.ite ?_ ?_
    | apply Change.tr ?_ (State.clearDie_frame ..) ?_
    | apply Change.tr ?_ (State.modBerth_frame _ _ _ ?_) ?_
    | apply Change.forL ?_ fun _ _ _ => ?_
    | assumption
    | apply Change2.mk ?_
    | (apply BerthKept.of <;> rfl)

theorem execBerthResize_frame (b s) : ChangeO [.out, .mem, .chans, .cores, .berths] s (execBerthResize b s) := by
  unfold execBerthResize
  with_reducible repeat' first
    | (apply partsIn.id; with_unfolding_all rfl)
    | apply Change.refl
    | apply ChangeO.mk ?_
    | apply Change.byDict ?_ ?_ fun _ => ?_
    | apply Change2.tr ?_ (State.writeResize_frame ..) ?_

theorem execBerthResizeDone_frame (b s) :
    ChangeO [.free, .out, .mem, .chans, .cores, .berths, .host, .mbox, .ctxs, .launches, .fabric, .dict, .streams,
      .snaps] s (execBerthResizeDone b s) := by
  unfold execBerthResizeDone
  with_reducible repeat' first
    | (apply partsIn.id; with_unfolding_all rfl)
    | apply Change.refl
    | apply Change.ite ?_ ?_
    | apply ChangeO.mk ?_
    | apply Change.tr ?_ (State.modExch_frame ..) ?_
    | apply Change.tr ?_ (State.clearDie_frame ..) ?_
    | apply Change.tr ?_ (State.modBerth_frame _ _ _ ?_) ?_
    | apply Change.tr ?_ (State.nextMode_frame ..) ?_
    | apply Change.tr ?_ (State.emptySlots_frame ..) ?_
    | apply Change.tr ?_ (State.putSetting_frame ..) ?_
    | apply Change.forL ?_ fun _ _ _ => ?_
    | assumption
    | (apply BerthKept.of <;> rfl)

theorem State.writeShrink_frame (s b) : Change2 [.hbm, .snaps] s (State.writeShrink s b) := by
  unfold State.writeShrink
  with_reducible repeat' first
    | (apply partsIn.id; with_unfolding_all rfl)
    | apply Change.refl
    | apply Change2.ite ?_ ?_
    | apply Change.ite ?_ ?_
    | apply Change.tr ?_ (State.emptySlots_frame ..) ?_
    | apply Change.tr ?_ (State.modStack_frame ..) ?_
    | apply Change.forL ?_ fun _ _ _ => ?_
    | assumption
    | apply Change2.mk ?_

theorem execShrinkAcknowledge_frame (b s) : ChangeO [.out, .hbm, .snaps] s (execShrinkAcknowledge b s) := by
  unfold execShrinkAcknowledge
  with_reducible repeat' first
    | (apply partsIn.id; with_unfolding_all rfl)
    | apply Change.refl
    | apply ChangeO.mk ?_
    | apply Change.byDict ?_ ?_ fun _ => ?_
    | apply Change2.tr ?_ (State.writeShrink_frame ..) ?_

theorem State.writeBerthCmd_frame (s b v) :
        Change2 [.free, .out, .mem, .chans, .hbm, .cores, .berths, .host, .mbox, .ctxs, .launches, .fabric, .streams, .snaps]
      s (State.writeBerthCmd s b v) := by
  unfold State.writeBerthCmd
  with_reducible repeat' first
    | (apply partsIn.id; with_unfolding_all rfl)
    | apply Change.refl
    | apply Change2.tr ?_ (State.writeCreate_frame ..) ?_
    | apply Change2.tr ?_ (State.writeResize_frame ..) ?_
    | apply Change2.tr ?_ (State.askReset_frame ..) ?_
    | apply Change2.tr ?_ (State.writeDusk_frame ..) ?_
    | apply Change2.tr ?_ (State.writeShrink_frame ..) ?_
    | split
    | apply Change2.mk ?_

theorem State.segDefine_frame (s k) : Change2 [.segs] s (State.segDefine s k) := by
  unfold State.segDefine
  with_reducible repeat' first
    | (apply partsIn.id; with_unfolding_all rfl)
    | apply Change.refl
    | apply Change2.ite ?_ ?_
    | apply Change.tr ?_ (State.modSeg_frame ..) ?_
    | apply Change2.mk ?_

theorem execSegDefine_frame (k s) : ChangeO [.out, .segs] s (execSegDefine k s) := by
  unfold execSegDefine
  with_reducible repeat' first
    | (apply partsIn.id; with_unfolding_all rfl)
    | apply Change.refl
    | apply ChangeO.mk ?_
    | apply Change.byDict ?_ ?_ fun _ => ?_
    | apply Change2.tr ?_ (State.segDefine_frame ..) ?_

theorem State.segSeal_frame (s k) : Change2 [.segs] s (State.segSeal s k) := by
  unfold State.segSeal
  with_reducible repeat' first
    | (apply partsIn.id; with_unfolding_all rfl)
    | apply Change.refl
    | apply Change2.ite ?_ ?_
    | apply Change.tr ?_ (State.modSeg_frame ..) ?_
    | apply Change2.mk ?_

theorem execSegSeal_frame (k s) : ChangeO [.out, .segs] s (execSegSeal k s) := by
  unfold execSegSeal
  with_reducible repeat' first
    | (apply partsIn.id; with_unfolding_all rfl)
    | apply Change.refl
    | apply ChangeO.mk ?_
    | apply Change.byDict ?_ ?_ fun _ => ?_
    | apply Change2.tr ?_ (State.segSeal_frame ..) ?_

theorem State.segDelete_frame (s k) : Change2 [.segs] s (State.segDelete s k) := by
  unfold State.segDelete
  with_reducible repeat' first
    | apply Change.refl
    | apply Change2.ite ?_ ?_
    | apply Change.ite ?_ ?_
    | extract_lets
    | apply Change.forL ?_ fun _ _ _ => ?_
    | apply Change.forN ?_ fun _ _ _ => ?_
    | apply Change.foldl ?_ fun _ _ _ => ?_
    | assumption
    | split
    | apply Change2.mk ?_
    | apply Change.setSegs ?_ (by with_unfolding_all rfl)

theorem execSegDelete_frame (k s) : ChangeO [.out, .segs] s (execSegDelete k s) := by
  unfold execSegDelete
  with_reducible repeat' first
    | (apply partsIn.id; with_unfolding_all rfl)
    | apply Change.refl
    | apply ChangeO.mk ?_
    | apply Change.byDict ?_ ?_ fun _ => ?_
    | apply Change2.tr ?_ (State.segDelete_frame ..) ?_

theorem State.segReshadow_frame (s k) : Change2 [.segs] s (State.segReshadow s k) := by
  unfold State.segReshadow
  with_reducible repeat' first
    | (apply partsIn.id; with_unfolding_all rfl)
    | apply Change.refl
    | apply Change2.ite ?_ ?_
    | apply Change.tr ?_ (State.modSeg_frame ..) ?_
    | apply Change2.mk ?_

theorem execSegReshadow_frame (k s) : ChangeO [.out, .segs] s (execSegReshadow k s) := by
  unfold execSegReshadow
  with_reducible repeat' first
    | (apply partsIn.id; with_unfolding_all rfl)
    | apply Change.refl
    | apply ChangeO.mk ?_
    | apply Change.byDict ?_ ?_ fun _ => ?_
    | apply Change2.tr ?_ (State.segReshadow_frame ..) ?_

theorem State.writeSegCmd_frame (s k v) : Change2 [.segs] s (State.writeSegCmd s k v) := by
  unfold State.writeSegCmd
  with_reducible repeat' first
    | (apply partsIn.id; with_unfolding_all rfl)
    | apply Change.refl
    | apply Change2.tr ?_ (State.segDefine_frame ..) ?_
    | apply Change2.tr ?_ (State.segSeal_frame ..) ?_
    | apply Change2.tr ?_ (State.segDelete_frame ..) ?_
    | apply Change2.tr ?_ (State.segReshadow_frame ..) ?_
    | split
    | apply Change2.mk ?_

theorem State.segLineLost_frame (s k off reader) :
    Change [.out, .mem, .segs, .host, .mbox] s (State.segLineLost s k off reader) := by
  unfold State.segLineLost
  extract_lets g a w t
  refine Change.tr (Change.tr ?_ (State.modSeg_frame _ _ _) rfl) (State.poisonNew_frame _ _ _) rfl
  exact Change.refl.setMem rfl fun h => Store.ok_mark _ (Store.ok_mark _ h)

theorem execReshadowDone_frame (k bad s) : ChangeO [.out, .mem, .segs, .host, .mbox, .dict] s (execReshadowDone k bad s) := by
  unfold execReshadowDone
  refine ChangeO.mk ?_
  extract_lets g
  split
  · exact Change.refl
  · refine Change.ite Change.refl ?_
    extract_lets t u v
    refine Change.forL ?_ fun o x j => j.tr (State.segLineLost_frame _ _ _ _) rfl
    refine Change.tr (Change.tr (Change.tr ?_ (State.modSeg_frame _ _ _) rfl) (State.putSetting_frame _ _ _ _) rfl) (State.putSetting_frame _ _ _ _) rfl
    exact Change.refl.setMem rfl fun h => Store.ok_copy _ _ _ h

theorem State.writeJoin_frame (s b bits) : Change2 [.berths, .dict] s (State.writeJoin s b bits) := by
  unfold State.writeJoin
  with_reducible repeat' first
    | (apply partsIn.id; with_unfolding_all rfl)
    | apply Change.refl
    | apply Change2.ite ?_ ?_
    | apply Change.tr ?_ (State.putSetting_frame ..) ?_
    | apply Change.tr ?_ (State.modBerth_frame _ _ _ ?_) ?_
    | apply Change2.mk ?_
    | (apply BerthKept.of <;> rfl)

theorem execSegmentJoinWrite_frame (b bits s) : ChangeO [.out, .berths, .dict] s (execSegmentJoinWrite b bits s) := by
  unfold execSegmentJoinWrite
  with_reducible repeat' first
    | (apply partsIn.id; with_unfolding_all rfl)
    | apply Change.refl
    | apply ChangeO.mk ?_
    | apply Change.byDict ?_ ?_ fun _ => ?_
    | apply Change2.tr ?_ (State.writeJoin_frame ..) ?_

theorem State.segsLost_frame (s d) : Change [.out, .mem, .segs, .host, .mbox] s (State.segsLost s d) := by
  unfold State.segsLost
  refine Change.forN Change.refl fun k x h => ?_
  extract_lets g p w t lines src t2
  refine Change.ite (Change.ite (h.tr (State.modSeg_frame _ _ _) rfl) h) (Change.ite ?_ (Change.ite (h.tr (State.modSeg_frame _ _ _) rfl) h))
  refine Change.forL ?_ fun b y j => j.tr (State.berthEvent_frame _ _ _ _ _ _) rfl
  exact (h.tr (State.modSeg_frame _ _ _) rfl).setMem rfl fun j => cellsClear_wf _ _ (cellsClear_wf _ _ j)

end Sys2Proof.Machine
end

