-- ==== Sys2Proof/Laws/ChangeUnits.lean ====
section
/-!
SUPPORT. What each operation changes and keeps: links, fences, lockages, lockkeepers, stacked memory and spares.
-/

namespace Sys2Proof.Machine

theorem State.controlFlit_frame (s p ftype body) : Change [.out] s (State.controlFlit s p ftype body) := by
  unfold State.controlFlit
  with_reducible repeat' first
    | (apply partsIn.id; with_unfolding_all rfl)
    | apply Change.refl
    | apply Change.tr ?_ (State.emit_frame ..) ?_

theorem State.sendAck_frame (s p) : Change [.out] s (State.sendAck s p) := by
  unfold State.sendAck
  with_reducible repeat' first
    | (apply partsIn.id; with_unfolding_all rfl)
    | apply Change.refl
    | apply Change.ite ?_ ?_
    | apply Change.tr ?_ (State.controlFlit_frame ..) ?_

theorem State.sendCredit_frame (s p) : Change [.out] s (State.sendCredit s p) := by
  unfold State.sendCredit
  with_reducible repeat' first
    | (apply partsIn.id; with_unfolding_all rfl)
    | apply Change.refl
    | apply Change.tr ?_ (State.controlFlit_frame ..) ?_

theorem State.sendReplay_frame (s p) : Change [.out] s (State.sendReplay s p) := by
  unfold State.sendReplay
  with_reducible repeat' first
    | (apply partsIn.id; with_unfolding_all rfl)
    | apply Change.refl
    | apply Change.tr ?_ (State.controlFlit_frame ..) ?_
    | split

theorem State.sendLaneCtl_frame (s p op c) : Change [.out] s (State.sendLaneCtl s p op c) := by
  unfold State.sendLaneCtl
  with_reducible repeat' first
    | (apply partsIn.id; with_unfolding_all rfl)
    | apply Change.refl
    | apply Change.tr ?_ (State.controlFlit_frame ..) ?_

theorem State.askReplay_frame (s p reason) : Change [.out, .fabric] s (State.askReplay s p reason) := by
  unfold State.askReplay
  with_reducible repeat' first
    | (apply partsIn.id; with_unfolding_all rfl)
    | apply Change.refl
    | apply Change.ite ?_ ?_
    | apply Change.tr ?_ (State.sendReplay_frame ..) ?_
    | apply Change.tr ?_ (State.modLink_frame ..) ?_

theorem State.modHist_frame (s h f) : Change [.fabric] s (State.modHist s h f) := by
  unfold State.modHist
  with_reducible repeat' first
    | (apply partsIn.id; with_unfolding_all rfl)
    | apply Change.refl
    | apply Change.tr ?_ (State.modFabric_frame ..) ?_

theorem State.performed_frame (s h response) : Change [.fabric] s (State.performed s h response) := by
  unfold State.performed
  with_reducible repeat' first
    | (apply partsIn.id; with_unfolding_all rfl)
    | apply Change.refl
    | apply Change.tr ?_ (State.modHist_frame ..) ?_

theorem State.sendFrame_frame (s f) : Change [.out, .fabric] s (State.sendFrame s f) := by
  unfold State.sendFrame
  with_reducible repeat' first
    | (apply partsIn.id; with_unfolding_all rfl)
    | apply Change.refl
    | apply ChangeQ.getD ?_ (State.routeFrame_frame ..) ?_ ?_

theorem State.exchangeIn_frame (s f) : Change [.out, .fabric] s (State.exchangeIn s f) := by
  unfold State.exchangeIn
  with_reducible repeat' first
    | (apply partsIn.id; with_unfolding_all rfl)
    | apply Change.refl
    | apply Change.ite ?_ ?_
    | apply Change.tr ?_ (State.modFabric_frame ..) ?_
    | apply Change.tr ?_ (State.sendFrame_frame ..) ?_
    | apply Change.tr ?_ (State.performed_frame ..) ?_
    | apply Change.tr ?_ (State.modExch_frame ..) ?_

theorem State.frameIn_frame (s p f) : Change [.out, .host, .mbox, .fabric] s (State.frameIn s p f) := by
  unfold State.frameIn
  with_reducible repeat' first
    | (apply partsIn.id; with_unfolding_all rfl)
    | apply Change.refl
    | apply Change.ite ?_ ?_
    | apply Change.tr ?_ (State.modLink_frame ..) ?_
    | apply Change.tr ?_ (State.modFabric_frame ..) ?_
    | apply Change.tr ?_ (State.moduleEvent_frame ..) ?_
    | apply Change.tr ?_ (State.exchangeIn_frame ..) ?_

theorem State.acceptFlit_frame (s p flit) : Change [.out, .host, .mbox, .fabric] s (State.acceptFlit s p flit) := by
  unfold State.acceptFlit
  with_reducible repeat' first
    | (apply partsIn.id; with_unfolding_all rfl)
    | apply Change.refl
    | apply Change.ite ?_ ?_
    | apply Change.tr ?_ (State.modLink_frame ..) ?_
    | apply Change.tr ?_ (State.frameIn_frame ..) ?_

theorem State.flitIn_frame (s p flit uncorrectable) :
    Change [.out, .host, .mbox, .fabric] s (State.flitIn s p flit uncorrectable) := by
  unfold State.flitIn
  with_reducible repeat' first
    | (apply partsIn.id; with_unfolding_all rfl)
    | apply Change.refl
    | apply Change.ite ?_ ?_
    | apply Change.tr ?_ (State.askReplay_frame ..) ?_
    | apply Change.tr ?_ (State.acceptFlit_frame ..) ?_

theorem State.resendFrame_frame (s g f) : Change [.out, .fabric] s (State.resendFrame s g f) := by
  unfold State.resendFrame
  with_reducible repeat' first
    | (apply partsIn.id; with_unfolding_all rfl)
    | apply Change.refl
    | apply Change.ite ?_ ?_
    | apply Change.tr ?_ (State.sendOnPort_frame ..) ?_
    | apply Change.tr ?_ (State.sendFrame_frame ..) ?_
    | split

theorem State.portLost_frame (s p life quiet) : Change [.out, .host, .mbox, .fabric] s (State.portLost s p life quiet) := by
  unfold State.portLost
  with_reducible repeat' first
    | (apply partsIn.id; with_unfolding_all rfl)
    | apply Change.refl
    | apply Change.ite ?_ ?_
    | extract_lets
    | apply Change.tr ?_ (State.modLink_frame ..) ?_
    | apply Change.tr ?_ (State.moduleEvent_frame ..) ?_
    | apply Change.tr ?_ (State.modFabric_frame ..) ?_
    | apply Change.tr ?_ (State.resendFrame_frame ..) ?_
    | apply Change.forL ?_ fun _ _ _ => ?_
    | assumption
    | split

theorem State.retireLane_frame (s p lane cause detail codeword) :
    Change [.out, .host, .mbox, .fabric, .defects] s (State.retireLane s p lane cause detail codeword) := by
  unfold State.retireLane
  with_reducible repeat' first
    | (apply partsIn.id; with_unfolding_all rfl)
    | apply Change.refl
    | apply Change.ite ?_ ?_
    | apply Change.tr ?_ (State.sendLaneCtl_frame ..) ?_
    | apply Change.tr ?_ (State.modLink_frame ..) ?_
    | apply Change.tr ?_ (State.addDefect_frame ..) ?_
    | apply Change.tr ?_ (State.moduleEvent_frame ..) ?_
    | apply Change.tr ?_ (State.spareIn_frame ..) ?_
    | apply Change.tr ?_ (State.portLost_frame ..) ?_

theorem execDataFlitReceive_frame (port flit uncorrectable s) :
    ChangeO [.out, .host, .mbox, .fabric] s (execDataFlitReceive port flit uncorrectable s) := by
  unfold execDataFlitReceive
  with_reducible repeat' first
    | (apply partsIn.id; with_unfolding_all rfl)
    | apply Change.refl
    | apply ChangeO.mk ?_
    | apply Change.tr ?_ (State.flitIn_frame ..) ?_

theorem execAckFlit_frame (port flit s) : ChangeO [.out, .fabric] s (execAckFlit port flit s) := by
  unfold execAckFlit
  with_reducible repeat' first
    | (apply partsIn.id; with_unfolding_all rfl)
    | apply Change.refl
    | apply ChangeO.mk ?_
    | apply Change.tr ?_ (State.drainWaiting_frame ..) ?_
    | apply Change.tr ?_ (State.modLink_frame ..) ?_
    | split

theorem execCreditFlit_frame (port flit s) : ChangeO [.out, .fabric] s (execCreditFlit port flit s) := by
  unfold execCreditFlit
  with_reducible repeat' first
    | (apply partsIn.id; with_unfolding_all rfl)
    | apply Change.refl
    | apply Change.ite ?_ ?_
    | apply ChangeO.mk ?_
    | apply Change.tr ?_ (State.drainWaiting_frame ..) ?_
    | apply Change.tr ?_ (State.modLink_frame ..) ?_

theorem execReplayFlit_frame (port flit s) : ChangeO [.out] s (execReplayFlit port flit s) := by
  unfold execReplayFlit
  with_reducible repeat' first
    | (apply partsIn.id; with_unfolding_all rfl)
    | apply Change.refl
    | apply ChangeO.mk ?_
    | apply Change.tr ?_ (State.emit_frame ..) ?_
    | apply Change.forL ?_ fun _ _ _ => ?_
    | assumption
    | split

theorem execLaneCtl_frame (port flit s) : ChangeO [.out, .fabric] s (execLaneCtl port flit s) := by
  unfold execLaneCtl
  with_reducible repeat' first
    | (apply partsIn.id; with_unfolding_all rfl)
    | apply Change.refl
    | apply Change.ite ?_ ?_
    | apply ChangeO.mk ?_
    | apply Change.tr ?_ (State.sendLaneCtl_frame ..) ?_
    | apply Change.tr ?_ (State.modLink_frame ..) ?_

theorem execLinkControlTimer_frame (port s) : ChangeO [.out] s (execLinkControlTimer port s) := by
  unfold execLinkControlTimer
  with_reducible repeat' first
    | (apply partsIn.id; with_unfolding_all rfl)
    | apply Change.refl
    | apply Change.ite ?_ ?_
    | apply ChangeO.mk ?_
    | apply Change.tr ?_ (State.sendReplay_frame ..) ?_
    | apply Change.tr ?_ (State.sendCredit_frame ..) ?_
    | apply Change.tr ?_ (State.sendAck_frame ..) ?_
    | apply Change.tr ?_ (State.sendLaneCtl_frame ..) ?_
    | apply Change.forL ?_ fun _ _ _ => ?_
    | assumption

theorem execLaneSwitch_frame (port codeword s) : ChangeO [.fabric] s (execLaneSwitch port codeword s) := by
  unfold execLaneSwitch
  with_reducible repeat' first
    | (apply partsIn.id; with_unfolding_all rfl)
    | apply Change.refl
    | apply ChangeO.mk ?_
    | apply Change.tr ?_ (State.modLink_frame ..) ?_

theorem execLaneRetire_frame (port lane codeword s) :
    ChangeO [.out, .host, .mbox, .fabric, .defects] s (execLaneRetire port lane codeword s) := by
  unfold execLaneRetire
  with_reducible repeat' first
    | (apply partsIn.id; with_unfolding_all rfl)
    | apply Change.refl
    | apply Change.ite ?_ ?_
    | apply ChangeO.mk ?_
    | apply Change.tr ?_ (State.retireLane_frame ..) ?_

theorem State.faultBerth_frame (s b d) :
        Change [.free, .out, .mem, .chans, .cores, .berths, .host, .mbox, .ctxs, .launches, .fabric, .streams, .snaps]
      s (State.faultBerth s b d) := by
  unfold State.faultBerth
  with_reducible repeat' first
    | (apply partsIn.id; with_unfolding_all rfl)
    | apply Change.refl
    | apply Change.ite ?_ ?_
    | extract_lets
    | apply Change.tr ?_ (State.resetBoxes_frame ..) ?_
    | apply Change.tr ?_ (State.stopBerth_frame ..) ?_
    | apply Change.tr ?_ (State.modCore_frame _ _ _ ?_) ?_
    | apply Change.tr ?_ (State.modBerth_frame _ _ _ ?_) ?_
    | apply Change.tr ?_ (State.berthEvent_frame ..) ?_
    | apply Change.forL ?_ fun _ _ _ => ?_
    | apply Change.forN ?_ fun _ _ _ => ?_
    | apply Change.foldl ?_ fun _ _ _ => ?_
    | assumption
    | split
    | (apply BerthKept.of <;> rfl)
    | (apply BerthKept.fresh <;> rfl)
    | (apply CoreKept.of; rfl)
    | (apply CoreKept.fresh; rfl)
    | apply Change.setCtxs ?_ (by with_unfolding_all rfl)

theorem State.memberLost_frame (s d) : Change [.out, .host, .mbox, .fabric] s (State.memberLost s d) := by
  unfold State.memberLost
  with_reducible repeat' first
    | (apply partsIn.id; with_unfolding_all rfl)
    | apply Change.refl
    | apply Change.ite ?_ ?_
    | apply Change.tr ?_ (State.exchEvent_frame ..) ?_
    | apply Change.forL ?_ fun _ _ _ => ?_
    | apply Change.forN ?_ fun _ _ _ => ?_
    | assumption
    | split

theorem State.fenceDie_frame (s d) :
        Change [.free, .out, .mem, .chans, .cores, .berths, .segs, .host, .mbox, .ctxs, .launches, .fabric, .defects,
      .streams, .snaps] s (State.fenceDie s d) := by
  unfold State.fenceDie
  split
  · exact Change.refl
  · extract_lets owner src t v u
    have h : Change [.free, .out, .mem, .chans, .cores, .berths, .segs, .host, .mbox, .ctxs, .launches, .fabric, .defects, .streams, .snaps] s t := (Change.refl.setDefects rfl (by exact Part.kept_defects rfl)).tr (State.moduleEvent_frame _ _ _ _ _) rfl
    have h := h.tr (State.memberLost_frame t d) rfl
    refine Change.tr (Change.tr ?_ (State.segsLost_frame _ _) rfl) (State.nextMode_frame _ _) rfl
    clear_value owner
    dsimp only [u]
    split
    · exact h.tr (State.faultBerth_frame _ _ _) rfl
    · exact h

theorem State.fdDown_frame (s k) : Change [.out, .host, .mbox, .fabric, .basins] s (State.fdDown s k) := by
  unfold State.fdDown
  with_reducible repeat' first
    | (apply partsIn.id; with_unfolding_all rfl)
    | apply Change.refl
    | apply Change.ite ?_ ?_
    | extract_lets
    | apply Change.tr ?_ (State.portLost_frame ..) ?_
    | apply Change.tr ?_ (State.modPort_frame ..) ?_
    | apply Change.tr ?_ (State.modFabric_frame ..) ?_
    | apply Change.forL ?_ fun _ _ _ => ?_
    | apply Change.forN ?_ fun _ _ _ => ?_
    | apply Change.foldl ?_ fun _ _ _ => ?_
    | assumption
    | split
    | apply Change.setBasins ?_ (by with_unfolding_all rfl)

theorem State.fenceFd_frame (s k) : Change [.out, .host, .mbox, .fabric, .defects, .basins] s (State.fenceFd s k) := by
  unfold State.fenceFd
  with_reducible repeat' first
    | (apply partsIn.id; with_unfolding_all rfl)
    | apply Change.refl
    | apply Change.ite ?_ ?_
    | extract_lets
    | apply Change.iteFst ?_ ?_
    | apply Change.tr ?_ (State.fdDown_frame ..) ?_
    | apply Change.tr ?_ (State.moduleEvent_frame ..) ?_
    | apply Change.forL ?_ fun _ _ _ => ?_
    | apply Change.forN ?_ fun _ _ _ => ?_
    | apply Change.foldl ?_ fun _ _ _ => ?_
    | assumption
    | split
    | apply Change.setDefects ?_ (by with_unfolding_all rfl) (by apply Part.kept_defects; rfl)

theorem State.fenceLk_frame (s die) : Change [.out, .host, .mbox, .lk] s (State.fenceLk s die) := by
  unfold State.fenceLk
  with_reducible repeat' first
    | (apply partsIn.id; with_unfolding_all rfl)
    | apply Change.refl
    | apply Change.ite ?_ ?_
    | extract_lets
    | apply Change.tr ?_ (State.moduleEvent_frame ..) ?_
    | apply Change.forL ?_ fun _ _ _ => ?_
    | apply Change.forN ?_ fun _ _ _ => ?_
    | apply Change.foldl ?_ fun _ _ _ => ?_
    | assumption
    | split
    | apply Change.setLk ?_ (by with_unfolding_all rfl)

theorem State.applyFence_frame (s e) :
        Change [.free, .out, .mem, .chans, .cores, .berths, .segs, .host, .mbox, .ctxs, .launches, .fabric, .defects,
      .streams, .basins, .snaps, .lk] s (State.applyFence s e) := by
  unfold State.applyFence
  with_reducible repeat' first
    | (apply partsIn.id; with_unfolding_all rfl)
    | apply Change.refl
    | apply Change.ite ?_ ?_
    | apply Change.tr ?_ (State.fenceDie_frame ..) ?_
    | apply Change.tr ?_ (State.fenceFd_frame ..) ?_
    | apply Change.tr ?_ (State.fenceLk_frame ..) ?_

theorem State.fence_frame (s e) :
        Change [.free, .out, .mem, .chans, .cores, .berths, .segs, .host, .mbox, .ctxs, .launches, .fabric, .defects,
      .streams, .basins, .snaps, .lk] s (State.fence s e) := by
  unfold State.fence
  with_reducible repeat' first
    | (apply partsIn.id; with_unfolding_all rfl)
    | apply Change.refl
    | apply Change.ite ?_ ?_
    | apply Change.tr ?_ (State.addDefect_frame ..) ?_
    | apply Change.tr ?_ (State.applyFence_frame ..) ?_

theorem State.lkReturned_frame (s) :
        Change [.free, .out, .mem, .chans, .cores, .berths, .segs, .host, .mbox, .ctxs, .launches, .fabric, .defects,
      .streams, .basins, .snaps, .lk] s (State.lkReturned s) := by
  unfold State.lkReturned
  with_reducible repeat' first
    | (apply partsIn.id; with_unfolding_all rfl)
    | apply Change.refl
    | apply Change.ite ?_ ?_
    | extract_lets
    | apply Change.tr ?_ (State.fence_frame ..) ?_
    | apply Change.forL ?_ fun _ _ _ => ?_
    | apply Change.forN ?_ fun _ _ _ => ?_
    | apply Change.foldl ?_ fun _ _ _ => ?_
    | assumption
    | split
    | apply Change.setDefects ?_ (by with_unfolding_all rfl) (by apply Part.kept_defects; rfl)

theorem execDieFence_frame (kind die cause detail s) :
    ChangeO [.free, .out, .mem, .chans, .cores, .berths, .segs, .host, .mbox, .ctxs, .launches, .fabric, .defects,
      .streams, .basins, .snaps, .lk] s (execDieFence kind die cause detail s) := by
  unfold execDieFence
  with_reducible repeat' first
    | (apply partsIn.id; with_unfolding_all rfl)
    | apply Change.refl
    | apply Change.ite ?_ ?_
    | apply ChangeO.mk ?_
    | apply Change.tr ?_ (State.fence_frame ..) ?_

theorem State.modSnap_frame (s b f) : Change [.snaps] s (State.modSnap s b f) := by
  unfold State.modSnap
  with_reducible repeat' first
    | apply Change.refl
    | apply Change.ite ?_ ?_
    | extract_lets
    | apply Change.forL ?_ fun _ _ _ => ?_
    | apply Change.forN ?_ fun _ _ _ => ?_
    | apply Change.foldl ?_ fun _ _ _ => ?_
    | assumption
    | split
    | apply Change.setSnaps ?_ (by with_unfolding_all rfl)

theorem State.writeArea_frame (s b sub v) : Change2 [.dict, .snaps] s (State.writeArea s b sub v) := by
  unfold State.writeArea
  with_reducible repeat' first
    | (apply partsIn.id; with_unfolding_all rfl)
    | apply Change.refl
    | apply Change.ite ?_ ?_
    | apply Change.tr ?_ (State.emptySlots_frame ..) ?_
    | apply Change.tr ?_ (State.putSetting_frame ..) ?_
    | apply Change2.mk ?_

theorem execSnapshotAreaWrite_frame (b sub v s) : ChangeO [.out, .dict, .snaps] s (execSnapshotAreaWrite b sub v s) := by
  unfold execSnapshotAreaWrite
  with_reducible repeat' first
    | (apply partsIn.id; with_unfolding_all rfl)
    | apply Change.refl
    | apply Change.ite ?_ ?_
    | apply ChangeO.mk ?_
    | apply Change.byDict ?_ ?_ fun _ => ?_
    | apply Change2.tr ?_ (State.writeArea_frame ..) ?_

theorem State.putSlot_frame (s b k x) : Change [.mem, .snaps] s (State.putSlot s b k x) := by
  unfold State.putSlot
  extract_lets t
  exact Change.forL (Change.refl.tr (State.modSnap_frame _ _ _) rfl) fun d u j => j.setMem rfl fun h => Store.ok_put _ _ h

theorem State.copyDie_frame (s b k d x values l) :
    Change [.out, .mem, .berths, .host, .mbox] s (State.copyDie s b k d x values l) := by
  unfold State.copyDie
  extract_lets base header t
  have h : Change [.out, .mem, .berths, .host, .mbox] s t := Change.refl.setMem rfl fun h => Store.ok_put _ _ (Store.ok_clear _ _ h)
  refine Change.foldlP (t := (t, base + slotHeader)) Prod.fst h fun p u j => ?_
  have q := State.poisonReads_frame u.1 (some b) (0x400 + d) p.pa p.len
  refine (j.tr q rfl).setMem rfl fun h => ?_
  have e : (u.1.poisonReads (some b) (0x400 + d) p.pa p.len).mem = u.1.mem := (q .mem).1 (by decide)
  rw [e] at h
  exact Store.ok_copyRun _ _ _ h

theorem State.endLockage_frame (s b) : Change [.berths, .snaps] s (State.endLockage s b) := by
  unfold State.endLockage
  with_reducible repeat' first
    | (apply partsIn.id; with_unfolding_all rfl)
    | apply Change.refl
    | apply Change.tr ?_ (State.modBerth_frame _ _ _ ?_) ?_
    | apply Change.tr ?_ (State.modSnap_frame ..) ?_
    | (apply BerthKept.of <;> rfl)

theorem execLockageCopy_frame (b s) :
    ChangeO [.free, .out, .mem, .chans, .cores, .berths, .host, .mbox, .ctxs, .launches, .fabric, .streams, .snaps]
      s (execLockageCopy b s) := by
  unfold execLockageCopy
  with_reducible repeat' first
    | (apply partsIn.id; with_unfolding_all rfl)
    | apply Change.refl
    | extract_lets
    | apply ChangeO.mk ?_
    | apply Change.tr ?_ (State.nextMode_frame ..) ?_
    | apply Change.tr ?_ (State.berthEvent_frame ..) ?_
    | apply Change.tr ?_ (State.endLockage_frame ..) ?_
    | apply Change.tr ?_ (State.putSlot_frame ..) ?_
    | apply Change.tr ?_ (State.modSnap_frame ..) ?_
    | apply Change.tr ?_ (State.copyDie_frame ..) ?_
    | apply Change.forL ?_ fun _ _ _ => ?_
    | assumption
    | split

theorem execLockageRelease_frame (b stopUs s) :
    ChangeO [.free, .out, .mem, .chans, .cores, .berths, .host, .mbox, .ctxs, .launches, .fabric, .streams, .snaps]
      s (execLockageRelease b stopUs s) := by
  unfold execLockageRelease
  with_reducible repeat' first
    | (apply partsIn.id; with_unfolding_all rfl)
    | apply Change.refl
    | extract_lets
    | apply ChangeO.mk ?_
    | apply Change.tr ?_ (State.putSlot_frame ..) ?_
    | apply Change.tr ?_ (State.nextMode_frame ..) ?_
    | apply Change.tr ?_ (State.berthEvent_frame ..) ?_
    | apply Change.tr ?_ (State.endLockage_frame ..) ?_
    | split

theorem State.compareSlot_frame (s b k) : Change [.out, .mem, .host, .mbox, .snaps] s (State.compareSlot s b k) := by
  unfold State.compareSlot
  with_reducible repeat' first
    | (apply partsIn.id; with_unfolding_all rfl)
    | apply Change.refl
    | extract_lets
    | apply Change.tr ?_ (State.berthEvent_frame ..) ?_
    | apply Change.tr ?_ (State.putSlot_frame ..) ?_
    | split

theorem State.writeReplica_frame (s b k step digest) :
    Change2 [.out, .mem, .host, .mbox, .snaps] s (State.writeReplica s b k step digest) := by
  unfold State.writeReplica
  with_reducible repeat' first
    | (apply partsIn.id; with_unfolding_all rfl)
    | apply Change.refl
    | apply Change2.ite ?_ ?_
    | apply Change.tr ?_ (State.compareSlot_frame ..) ?_
    | apply Change.tr ?_ (State.modSnap_frame ..) ?_
    | apply Change2.mk ?_

theorem execReplicaDigestWrite_frame (b slot step digest s) :
    ChangeO [.out, .mem, .host, .mbox, .snaps] s (execReplicaDigestWrite b slot step digest s) := by
  unfold execReplicaDigestWrite
  with_reducible repeat' first
    | (apply partsIn.id; with_unfolding_all rfl)
    | apply Change.refl
    | apply Change.ite ?_ ?_
    | apply ChangeO.mk ?_
    | apply Change.byDict ?_ ?_ fun _ => ?_
    | apply Change2.tr ?_ (State.writeReplica_frame ..) ?_

theorem State.sendDrain_frame (s b k pos kind off total payload) :
    Change [.out] s (State.sendDrain s b k pos kind off total payload) := by
  unfold State.sendDrain
  with_reducible repeat' first
    | (apply partsIn.id; with_unfolding_all rfl)
    | apply Change.refl
    | extract_lets
    | apply Change.tr ?_ (State.emit_frame ..) ?_
    | split

theorem State.sendRun_frame (s b k pos lo hi) : Change [.out] s (State.sendRun s b k pos lo hi) := by
  unfold State.sendRun
  with_reducible repeat' first
    | (apply partsIn.id; with_unfolding_all rfl)
    | apply Change.refl
    | apply Change.tr ?_ (State.sendDrain_frame ..) ?_
    | apply Change.forN ?_ fun _ _ _ => ?_
    | assumption

theorem State.startDrain_frame (s b k) : Change [.out, .mem, .snaps] s (State.startDrain s b k) := by
  unfold State.startDrain
  with_reducible repeat' first
    | (apply partsIn.id; with_unfolding_all rfl)
    | apply Change.refl
    | apply Change.tr ?_ (State.putSlot_frame ..) ?_
    | apply Change.tr ?_ (State.sendRun_frame ..) ?_
    | apply Change.forN ?_ fun _ _ _ => ?_
    | assumption

theorem execSnapshotDigestDone_frame (b slot s) :
    ChangeO [.out, .mem, .host, .mbox, .snaps] s (execSnapshotDigestDone b slot s) := by
  unfold execSnapshotDigestDone
  with_reducible repeat' first
    | (apply partsIn.id; with_unfolding_all rfl)
    | apply Change.refl
    | apply Change.ite ?_ ?_
    | apply ChangeO.mk ?_
    | apply Change.tr ?_ (State.berthEvent_frame ..) ?_
    | apply Change.tr ?_ (State.putSlot_frame ..) ?_
    | apply Change.tr ?_ (State.compareSlot_frame ..) ?_
    | apply Change.tr ?_ (State.startDrain_frame ..) ?_

theorem State.snapDrain_frame (s b) : Change2 [.out, .mem, .snaps] s (State.snapDrain s b) := by
  unfold State.snapDrain
  with_reducible repeat' first
    | (apply partsIn.id; with_unfolding_all rfl)
    | apply Change.refl
    | apply Change2.ite ?_ ?_
    | apply Change.tr ?_ (State.startDrain_frame ..) ?_
    | apply Change2.mk ?_

theorem execSnapshotDrain_frame (b s) : ChangeO [.out, .mem, .snaps] s (execSnapshotDrain b s) := by
  unfold execSnapshotDrain
  with_reducible repeat' first
    | (apply partsIn.id; with_unfolding_all rfl)
    | apply Change.refl
    | apply ChangeO.mk ?_
    | apply Change.byDict ?_ ?_ fun _ => ?_
    | apply Change2.tr ?_ (State.snapDrain_frame ..) ?_

theorem State.snapAbort_frame (s b) : Change2 [.mem, .snaps] s (State.snapAbort s b) := by
  unfold State.snapAbort
  with_reducible repeat' first
    | (apply partsIn.id; with_unfolding_all rfl)
    | apply Change.refl
    | apply Change2.ite ?_ ?_
    | apply Change.tr ?_ (State.putSlot_frame ..) ?_
    | apply Change2.mk ?_

theorem execDrainAbort_frame (b s) : ChangeO [.out, .mem, .snaps] s (execDrainAbort b s) := by
  unfold execDrainAbort
  with_reducible repeat' first
    | (apply partsIn.id; with_unfolding_all rfl)
    | apply Change.refl
    | apply ChangeO.mk ?_
    | apply Change.byDict ?_ ?_ fun _ => ?_
    | apply Change2.tr ?_ (State.snapAbort_frame ..) ?_

theorem execDrainAcknowledge_frame (port frame s) :
    ChangeO [.out, .mem, .host, .mbox, .snaps] s (execDrainAcknowledge port frame s) := by
  unfold execDrainAcknowledge
  with_reducible repeat' first
    | (apply partsIn.id; with_unfolding_all rfl)
    | apply Change.refl
    | apply Change.ite ?_ ?_
    | apply ChangeO.mk ?_
    | apply Change.tr ?_ (State.modSnap_frame ..) ?_
    | apply Change.tr ?_ (State.berthEvent_frame ..) ?_
    | apply Change.tr ?_ (State.putSlot_frame ..) ?_
    | apply Change.tr ?_ (State.sendRun_frame ..) ?_

theorem execDrainResendTimer_frame (b slot pos s) : ChangeO [.out] s (execDrainResendTimer b slot pos s) := by
  unfold execDrainResendTimer
  with_reducible repeat' first
    | (apply partsIn.id; with_unfolding_all rfl)
    | apply Change.refl
    | apply Change.ite ?_ ?_
    | apply ChangeO.mk ?_
    | apply Change.tr ?_ (State.sendRun_frame ..) ?_

theorem execDrainStalled_frame (b slot s) : ChangeO [.out, .host, .mbox] s (execDrainStalled b slot s) := by
  unfold execDrainStalled
  with_reducible repeat' first
    | (apply partsIn.id; with_unfolding_all rfl)
    | apply Change.refl
    | apply Change.ite ?_ ?_
    | apply ChangeO.mk ?_
    | apply Change.tr ?_ (State.berthEvent_frame ..) ?_

theorem State.snapFill_frame (s b) : Change2 [.snaps] s (State.snapFill s b) := by
  unfold State.snapFill
  with_reducible repeat' first
    | (apply partsIn.id; with_unfolding_all rfl)
    | apply Change.refl
    | apply Change2.ite ?_ ?_
    | apply Change.tr ?_ (State.modSnap_frame ..) ?_
    | apply Change2.mk ?_

theorem execSnapshotFill_frame (b s) : ChangeO [.out, .snaps] s (execSnapshotFill b s) := by
  unfold execSnapshotFill
  with_reducible repeat' first
    | (apply partsIn.id; with_unfolding_all rfl)
    | apply Change.refl
    | apply ChangeO.mk ?_
    | apply Change.byDict ?_ ?_ fun _ => ?_
    | apply Change2.tr ?_ (State.snapFill_frame ..) ?_

theorem State.endFill_frame (s b k) : Change [.out, .mem, .host, .mbox, .snaps] s (State.endFill s b k) := by
  unfold State.endFill
  with_reducible repeat' first
    | (apply partsIn.id; with_unfolding_all rfl)
    | apply Change.refl
    | apply Change.tr ?_ (State.berthEvent_frame ..) ?_
    | apply Change.tr ?_ (State.putSlot_frame ..) ?_

theorem execFillDataFrame_frame (port frame s) :
    ChangeO [.out, .mem, .host, .mbox, .snaps] s (execFillDataFrame port frame s) := by
  unfold execFillDataFrame
  refine ChangeO.mk ?_
  extract_lets b k pos off total n x have_ d fresh m t y u
  refine Change.ite Change.refl ?_
  have h : Change [.out, .mem, .host, .mbox, .snaps] s t := by
    refine Change.ite (Change.refl.setMem rfl fun h => Store.ok_put _ _ ?_) Change.refl
    dsimp only [m]
    split
    · exact Store.ok_clear _ _ h
    · exact h
  have h1 : Change [.out, .mem, .host, .mbox, .snaps] s u := (h.tr (State.modSnap_frame _ _ _) rfl).tr (State.sendDrain_frame _ _ _ _ _ _ _ _) rfl
  exact Change.ite (h1.tr (State.endFill_frame _ _ _) rfl) h1

theorem execFillAckTimer_frame (b slot pos s) : ChangeO [.out] s (execFillAckTimer b slot pos s) := by
  unfold execFillAckTimer
  with_reducible repeat' first
    | (apply partsIn.id; with_unfolding_all rfl)
    | apply Change.refl
    | apply Change.ite ?_ ?_
    | apply ChangeO.mk ?_
    | apply Change.tr ?_ (State.sendDrain_frame ..) ?_

theorem State.snapEmpty_frame (s b) : Change2 [.snaps] s (State.snapEmpty s b) := by
  unfold State.snapEmpty
  with_reducible repeat' first
    | (apply partsIn.id; with_unfolding_all rfl)
    | apply Change.refl
    | apply Change2.ite ?_ ?_
    | apply Change.tr ?_ (State.modSnap_frame ..) ?_
    | apply Change2.mk ?_

theorem execSlotEmpty_frame (b s) : ChangeO [.out, .snaps] s (execSlotEmpty b s) := by
  unfold execSlotEmpty
  with_reducible repeat' first
    | (apply partsIn.id; with_unfolding_all rfl)
    | apply Change.refl
    | apply ChangeO.mk ?_
    | apply Change.byDict ?_ ?_ fun _ => ?_
    | apply Change2.tr ?_ (State.snapEmpty_frame ..) ?_

theorem State.copyBack_frame (s b k) : Change [.mem] s (State.copyBack s b k) := by
  unfold State.copyBack
  refine Change.forL Change.refl fun d t h => ?_
  exact Change.forL h fun p u j => j.setMem rfl fun k => Store.ok_copyRun _ _ _ k

theorem State.valuesBack_frame (s b v) : Change [.berths, .fabric, .dict] s (State.valuesBack s b v) := by
  unfold State.valuesBack
  with_reducible repeat' first
    | (apply partsIn.id; with_unfolding_all rfl)
    | apply Change.refl
    | apply Change.tr ?_ (State.modBerth_frame _ _ _ ?_) ?_
    | apply Change.tr ?_ (State.modExch_frame ..) ?_
    | apply Change.tr ?_ (State.putSetting_frame ..) ?_
    | apply Change.forL ?_ fun _ _ _ => ?_
    | assumption
    | (apply BerthKept.of <;> rfl)

theorem State.reloadCounters_frame (s b) : Change [.berths] s (State.reloadCounters s b) := by
  unfold State.reloadCounters
  with_reducible repeat' first
    | (apply partsIn.id; with_unfolding_all rfl)
    | apply Change.refl
    | apply Change.ite ?_ ?_
    | apply Change.tr ?_ (State.modBerth_frame _ _ _ ?_) ?_
    | (apply BerthKept.of <;> rfl)

theorem State.snapRestore_frame (s b) : Change2 [.mem, .berths, .fabric, .dict, .snaps] s (State.snapRestore s b) := by
  unfold State.snapRestore
  extract_lets k code zero v t u w
  refine Change2.ite Change.refl ?_
  refine Change2.mk (Change.forL ?_ fun p x j => j.setMem rfl fun h => Store.ok_clear _ _ h)
  refine Change.tr (Change.tr (Change.tr (Change.tr (Change.tr Change.refl (State.modBerth_frame _ _ _ (by exact BerthKept.of rfl rfl)) rfl)
    (State.modSnap_frame _ _ _) rfl) (State.copyBack_frame _ _ _) rfl) (State.valuesBack_frame _ _ _) rfl) (State.reloadCounters_frame _ _) rfl

theorem execSnapshotRestore_frame (b s) :
    ChangeO [.out, .mem, .berths, .fabric, .dict, .snaps] s (execSnapshotRestore b s) := by
  unfold execSnapshotRestore
  with_reducible repeat' first
    | (apply partsIn.id; with_unfolding_all rfl)
    | apply Change.refl
    | apply ChangeO.mk ?_
    | apply Change.byDict ?_ ?_ fun _ => ?_
    | apply Change2.tr ?_ (State.snapRestore_frame ..) ?_

theorem execRestoreEnd_frame (b s) :
    ChangeO [.free, .out, .mem, .chans, .cores, .berths, .host, .mbox, .ctxs, .launches, .fabric, .streams, .snaps]
      s (execRestoreEnd b s) := by
  unfold execRestoreEnd
  with_reducible repeat' first
    | (apply partsIn.id; with_unfolding_all rfl)
    | apply Change.refl
    | apply ChangeO.mk ?_
    | apply Change.tr ?_ (State.rewind_frame ..) ?_
    | apply Change.tr ?_ (State.modSnap_frame ..) ?_
    | apply Change.tr ?_ (State.nextMode_frame ..) ?_
    | apply Change.tr ?_ (State.berthEvent_frame ..) ?_
    | split

theorem State.combAgain_frame (s b i) :
    Change [.free, .out, .mem, .chans, .berths, .host, .mbox, .fabric] s (State.combAgain s b i) := by
  unfold State.combAgain
  with_reducible repeat' first
    | (apply partsIn.id; with_unfolding_all rfl)
    | apply Change.refl
    | apply Change.ite ?_ ?_
    | apply Change1.tr ?_ (State.combAccess_frame ..) ?_
    | apply Change.tr ?_ (State.count_frame ..) ?_
    | apply Change.tr ?_ (State.putScaleRec_frame ..) ?_
    | split

theorem State.snapResume_frame (s b) :
    Change2 [.free, .out, .mem, .chans, .berths, .host, .mbox, .fabric, .snaps] s (State.snapResume s b) := by
  unfold State.snapResume
  with_reducible repeat' first
    | (apply partsIn.id; with_unfolding_all rfl)
    | apply Change.refl
    | apply Change2.ite ?_ ?_
    | apply Change.tr ?_ (State.combAgain_frame ..) ?_
    | apply Change.tr ?_ (State.modSnap_frame ..) ?_
    | apply Change.forN ?_ fun _ _ _ => ?_
    | assumption
    | apply Change2.mk ?_

theorem execSnapshotResume_frame (b s) :
    ChangeO [.free, .out, .mem, .chans, .berths, .host, .mbox, .fabric, .snaps] s (execSnapshotResume b s) := by
  unfold execSnapshotResume
  with_reducible repeat' first
    | (apply partsIn.id; with_unfolding_all rfl)
    | apply Change.refl
    | apply ChangeO.mk ?_
    | apply Change.byDict ?_ ?_ fun _ => ?_
    | apply Change2.tr ?_ (State.snapResume_frame ..) ?_

theorem State.writeSnap_frame (s b v) :
    Change2 [.free, .out, .mem, .chans, .berths, .host, .mbox, .fabric, .dict, .snaps] s (State.writeSnap s b v) := by
  unfold State.writeSnap
  with_reducible repeat' first
    | (apply partsIn.id; with_unfolding_all rfl)
    | apply Change.refl
    | apply Change2.tr ?_ (State.snapRestore_frame ..) ?_
    | apply Change2.tr ?_ (State.snapResume_frame ..) ?_
    | apply Change2.tr ?_ (State.snapDrain_frame ..) ?_
    | apply Change2.tr ?_ (State.snapAbort_frame ..) ?_
    | apply Change2.tr ?_ (State.snapFill_frame ..) ?_
    | apply Change2.tr ?_ (State.snapEmpty_frame ..) ?_
    | split
    | apply Change2.mk ?_

theorem State.dropSessions_frame (s) : Change [.out, .host, .mbox, .dict, .lk] s (State.dropSessions s) := by
  unfold State.dropSessions
  extract_lets src t
  have h : Change [.out, .host, .mbox, .dict, .lk] s t := Change.refl.setDict rfl fun _ => ⟨trivial, Nat.zero_le _⟩
  exact Change.ite ((h.setLk rfl).tr (State.moduleEvent_frame _ _ _ _ _) rfl) h

theorem State.dropBroadcast_frame (s) : Change [.fw] s (State.dropBroadcast s) := by
  unfold State.dropBroadcast
  with_reducible repeat' first
    | apply Change.refl
    | apply Change.ite ?_ ?_
    | extract_lets
    | apply Change.forL ?_ fun _ _ _ => ?_
    | apply Change.forN ?_ fun _ _ _ => ?_
    | apply Change.foldl ?_ fun _ _ _ => ?_
    | assumption
    | split
    | apply Change.setFw ?_ (by with_unfolding_all rfl)

theorem State.takeOver_frame (s) : Change [.out, .host, .mbox, .dict, .fw, .lk] s (State.takeOver s) := by
  unfold State.takeOver
  with_reducible repeat' first
    | (apply partsIn.id; with_unfolding_all rfl)
    | apply Change.refl
    | apply Change.ite ?_ ?_
    | extract_lets
    | apply Change.tr ?_ (State.dropBroadcast_frame ..) ?_
    | apply Change.tr ?_ (State.dropSessions_frame ..) ?_
    | apply Change.tr ?_ (State.moduleEvent_frame ..) ?_
    | apply Change.forL ?_ fun _ _ _ => ?_
    | apply Change.forN ?_ fun _ _ _ => ?_
    | apply Change.foldl ?_ fun _ _ _ => ?_
    | assumption
    | split
    | apply Change.setLk ?_ (by with_unfolding_all rfl)

theorem State.lkLost_frame (s) : Change [.out, .host, .mbox, .dict, .fw, .lk] s (State.lkLost s) := by
  unfold State.lkLost
  with_reducible repeat' first
    | (apply partsIn.id; with_unfolding_all rfl)
    | apply Change.refl
    | apply Change.ite ?_ ?_
    | extract_lets
    | apply Change.tr ?_ (State.dropBroadcast_frame ..) ?_
    | apply Change.tr ?_ (State.dropSessions_frame ..) ?_
    | apply Change.forL ?_ fun _ _ _ => ?_
    | apply Change.forN ?_ fun _ _ _ => ?_
    | apply Change.foldl ?_ fun _ _ _ => ?_
    | assumption
    | split
    | apply Change.setLk ?_ (by with_unfolding_all rfl)

theorem execHeartbeatMiss_frame (s) : ChangeO [.out, .host, .mbox, .dict, .fw, .lk] s (execHeartbeatMiss s) := by
  unfold execHeartbeatMiss
  with_reducible repeat' first
    | (apply partsIn.id; with_unfolding_all rfl)
    | apply Change.refl
    | apply Change.ite ?_ ?_
    | apply ChangeO.mk ?_
    | apply Change.tr ?_ (State.takeOver_frame ..) ?_
    | apply Change.tr ?_ (State.lkLost_frame ..) ?_

theorem State.lkBack_frame (s) :
        Change [.free, .out, .mem, .chans, .cores, .berths, .segs, .host, .mbox, .ctxs, .launches, .fabric, .defects,
      .streams, .basins, .snaps, .lk] s (State.lkBack s) := by
  unfold State.lkBack
  with_reducible repeat' first
    | (apply partsIn.id; with_unfolding_all rfl)
    | apply Change.refl
    | apply Change.tr ?_ (State.lkReturned_frame ..) ?_
    | apply Change.tr ?_ (State.compareSlot_frame ..) ?_
    | apply Change.forL ?_ fun _ _ _ => ?_
    | apply Change.forN ?_ fun _ _ _ => ?_
    | assumption

theorem State.lkAlone_frame (s die) :
        Change [.free, .out, .mem, .chans, .cores, .berths, .segs, .host, .mbox, .ctxs, .launches, .fabric, .defects,
      .streams, .basins, .snaps, .lk] s (State.lkAlone s die) := by
  unfold State.lkAlone
  with_reducible repeat' first
    | (apply partsIn.id; with_unfolding_all rfl)
    | apply Change.refl
    | apply Change.ite ?_ ?_
    | extract_lets
    | apply Change.tr ?_ (State.lkBack_frame ..) ?_
    | apply Change.forL ?_ fun _ _ _ => ?_
    | apply Change.forN ?_ fun _ _ _ => ?_
    | apply Change.foldl ?_ fun _ _ _ => ?_
    | assumption
    | split
    | apply Change.setLk ?_ (by with_unfolding_all rfl)

theorem execLkRestart_frame (die pass s) :
    ChangeO [.free, .out, .mem, .chans, .cores, .berths, .segs, .host, .mbox, .ctxs, .launches, .fabric, .defects,
      .streams, .basins, .snaps, .lk] s (execLkRestart die pass s) := by
  unfold execLkRestart
  with_reducible repeat' first
    | (apply partsIn.id; with_unfolding_all rfl)
    | apply Change.refl
    | apply ChangeO.ite ?_ ?_
    | apply Change.ite ?_ ?_
    | extract_lets
    | apply ChangeO.mk ?_
    | apply ChangeO.stop
    | apply Change.tr ?_ (State.fence_frame ..) ?_
    | apply Change.tr ?_ (State.lkAlone_frame ..) ?_
    | apply Change.forL ?_ fun _ _ _ => ?_
    | apply Change.forN ?_ fun _ _ _ => ?_
    | apply Change.foldl ?_ fun _ _ _ => ?_
    | assumption
    | split
    | apply Change.setLk ?_ (by with_unfolding_all rfl)

theorem execStandbyCatchUpDone_frame (s) :
    ChangeO [.free, .out, .mem, .chans, .cores, .berths, .segs, .host, .mbox, .ctxs, .launches, .fabric, .dict, .fw,
      .defects, .streams, .basins, .snaps, .lk] s (execStandbyCatchUpDone s) := by
  unfold execStandbyCatchUpDone
  with_reducible repeat' first
    | (apply partsIn.id; with_unfolding_all rfl)
    | apply Change.refl
    | apply ChangeO.ite ?_ ?_
    | apply Change.ite ?_ ?_
    | extract_lets
    | apply ChangeO.mk ?_
    | apply ChangeO.stop
    | apply Change.tr ?_ (State.lkAlone_frame ..) ?_
    | apply Change.tr ?_ (State.takeOver_frame ..) ?_
    | apply Change.forL ?_ fun _ _ _ => ?_
    | apply Change.forN ?_ fun _ _ _ => ?_
    | apply Change.foldl ?_ fun _ _ _ => ?_
    | assumption
    | split
    | apply Change.setFw ?_ (by with_unfolding_all rfl)
    | apply Change.setLk ?_ (by with_unfolding_all rfl)

theorem execStandbyFailure_frame (s) : ChangeO [.out, .host, .mbox, .fw, .lk] s (execStandbyFailure s) := by
  unfold execStandbyFailure
  with_reducible repeat' first
    | (apply partsIn.id; with_unfolding_all rfl)
    | apply ChangeO.mk ?_
    | apply Change.tr ?_ (State.moduleEvent_frame ..) ?_
    | split
    | (apply Change.setMany (t := s)
       · apply Change.refl
       · intro p
         cases p <;> constructor <;> with_unfolding_all first | exact trivial | exact .inl (by decide) | exact .inr rfl | exact Part.kept_same rfl | exact Part.kept_dict rfl | exact Part.kept_host rfl | exact Part.kept_defects rfl)

theorem State.openDetail_frame (s) : Change2 [.free] s (State.openDetail s) := by
  unfold State.openDetail
  with_reducible repeat' first
    | (apply partsIn.id; with_unfolding_all rfl)
    | apply Change.refl
    | apply Change.tr ?_ (State.nextFree_frame ..) ?_
    | apply Change2.mk ?_

theorem State.startLeaving_frame (s n l) :
        Change [.free, .out, .mem, .chans, .hbm, .cores, .berths, .segs, .host, .mbox, .ctxs, .launches, .fabric, .defects,
      .streams, .basins, .snaps, .lk] s (State.startLeaving s n l) := by
  unfold State.startLeaving
  with_reducible repeat' first
    | (apply partsIn.id; with_unfolding_all rfl)
    | apply Change.refl
    | apply Change.ite ?_ ?_
    | apply Change.tr ?_ (State.moduleEvent_frame ..) ?_
    | apply Change.tr ?_ (State.modStack_frame ..) ?_
    | apply Change.tr ?_ (State.modChan_frame ..) ?_
    | apply Change.tr ?_ (State.fence_frame ..) ?_
    | apply Change.tr ?_ (State.addDefect_frame ..) ?_

theorem State.leaveIfNone_frame (s n l) :
        Change [.free, .out, .mem, .chans, .hbm, .cores, .berths, .segs, .host, .mbox, .ctxs, .launches, .fabric, .defects,
      .streams, .basins, .snaps, .lk] s (State.leaveIfNone s n l) := by
  unfold State.leaveIfNone
  with_reducible repeat' first
    | (apply partsIn.id; with_unfolding_all rfl)
    | apply Change.refl
    | apply Change.ite ?_ ?_
    | apply Change.tr ?_ (State.startLeaving_frame ..) ?_

theorem State.queueSpare_frame (s n l why) :
        Change [.free, .out, .mem, .chans, .hbm, .cores, .berths, .segs, .host, .mbox, .ctxs, .launches, .fabric, .defects,
      .streams, .basins, .snaps, .lk] s (State.queueSpare s n l why) := by
  unfold State.queueSpare
  with_reducible repeat' first
    | (apply partsIn.id; with_unfolding_all rfl)
    | apply Change.refl
    | apply Change.ite ?_ ?_
    | apply Change.tr ?_ (State.leaveIfNone_frame ..) ?_
    | apply Change.tr ?_ (State.modChan_frame ..) ?_

theorem State.corrected_frame (s n l syms) :
        Change [.free, .out, .mem, .chans, .hbm, .cores, .berths, .segs, .host, .mbox, .ctxs, .launches, .fabric, .defects,
      .streams, .basins, .snaps, .lk] s (State.corrected s n l syms) := by
  unfold State.corrected
  with_reducible repeat' first
    | (apply partsIn.id; with_unfolding_all rfl)
    | apply Change.refl
    | apply Change.ite ?_ ?_
    | apply Change.tr ?_ (State.modChan_frame ..) ?_
    | apply Change2.tr ?_ (State.openDetail_frame ..) ?_
    | apply Change.tr ?_ (State.addDefect_frame ..) ?_
    | apply Change.tr ?_ (State.queueSpare_frame ..) ?_
    | apply Change.forL ?_ fun _ _ _ => ?_
    | assumption

theorem State.uncorrectable_frame (s pa reader twinSyms) :
    Change [.free, .out, .mem, .chans, .berths, .segs, .host, .mbox] s (State.uncorrectable s pa reader twinSyms) := by
  unfold State.uncorrectable
  extract_lets bad k
  have hb : ∀ t a, Change [.chans] t (bad t a) := fun t a => by
    dsimp only [bad]
    split
    · exact Change.refl.tr (State.modChan_frame _ _ _ _) rfl
    · exact Change.refl
  clear_value bad
  split
  · extract_lets dead t u g off
    have ht : Change [.free, .out, .mem, .chans, .berths, .segs, .host, .mbox] s t := by
      refine Change.tr ?_ (State.memWrite_frame _ _ _ _) rfl
      exact (Change.refl.tr (State.nextFree_frame s) rfl).setMem rfl fun h => h
    have hu : Change [.free, .out, .mem, .chans, .berths, .segs, .host, .mbox] s u := (ht.tr (State.modSeg_frame _ _ _) rfl).tr (State.moduleEvent_frame _ _ _ _ _) rfl
    refine Change.ite ?_ ?_
    · split
      · exact hu.tr (State.count_frame _ _ _ _) rfl
      · exact hu
    · refine Change.tr (Change.tr ?_ (State.moduleEvent_frame _ _ _ _ _) rfl) (State.segLineLost_frame _ _ _ _) rfl
      exact ((Change.refl.tr (State.nextFree_frame s) rfl).tr (hb _ _) rfl).tr (hb _ _) rfl
  · refine Change.tr (Change.tr ?_ (State.moduleEvent_frame _ _ _ _ _) rfl) (State.poisonNew_frame _ _ _) rfl
    exact (Change.refl.setMem rfl fun h => Store.ok_mark _ h).tr (hb _ _) rfl

theorem State.channelRead_frame (s line reader syms twin scrub) :
        Change [.free, .out, .mem, .chans, .hbm, .cores, .berths, .segs, .host, .mbox, .ctxs, .launches, .fabric, .defects,
      .streams, .basins, .snaps, .lk] s (State.channelRead s line reader syms twin scrub) := by
  unfold State.channelRead
  with_reducible repeat' first
    | (apply partsIn.id; with_unfolding_all rfl)
    | apply Change.refl
    | apply Change.ite ?_ ?_
    | extract_lets
    | apply Change.tr ?_ (State.nextFree_frame ..) ?_
    | apply Change.tr ?_ (State.corrected_frame ..) ?_
    | apply Change.tr ?_ (State.uncorrectable_frame ..) ?_
    | apply Change.tr ?_ (State.poisonRead_frame ..) ?_
    | apply Change.tr ?_ (State.memWrite_frame ..) ?_
    | split

theorem execChannelRead_frame (line reader syms twin s) :
    ChangeO [.free, .out, .mem, .chans, .hbm, .cores, .berths, .segs, .host, .mbox, .ctxs, .launches, .fabric, .defects,
      .streams, .basins, .snaps, .lk] s (execChannelRead line reader syms twin s) := by
  unfold execChannelRead
  with_reducible repeat' first
    | (apply partsIn.id; with_unfolding_all rfl)
    | apply Change.refl
    | apply ChangeO.mk ?_
    | apply Change.tr ?_ (State.channelRead_frame ..) ?_

theorem execPatrolScrub_frame (line syms twin s) :
    ChangeO [.free, .out, .mem, .chans, .hbm, .cores, .berths, .segs, .host, .mbox, .ctxs, .launches, .fabric, .defects,
      .streams, .basins, .snaps, .lk] s (execPatrolScrub line syms twin s) := by
  unfold execPatrolScrub
  with_reducible repeat' first
    | (apply partsIn.id; with_unfolding_all rfl)
    | apply Change.refl
    | apply ChangeO.mk ?_
    | apply Change.tr ?_ (State.channelRead_frame ..) ?_

theorem execChannelWrite_frame (line data mask marked s) :
    ChangeO [.out, .mem, .host, .mbox] s (execChannelWrite line data mask marked s) := by
  unfold execChannelWrite
  with_reducible repeat' first
    | (apply partsIn.id; with_unfolding_all rfl)
    | apply Change.refl
    | apply Change.ite ?_ ?_
    | apply ChangeO.mk ?_
    | apply Change.tr ?_ (State.memWrite_frame ..) ?_

theorem execRefresh_frame (n l s) : ChangeO [] s (execRefresh n l s) := by
  unfold execRefresh
  with_reducible repeat' first
    | apply Change.refl
    | apply ChangeO.mk ?_

theorem execWcbPartialDrain_frame (n l line syms twin s) :
    ChangeO [.free, .out, .mem, .chans, .hbm, .cores, .berths, .segs, .host, .mbox, .ctxs, .launches, .fabric, .defects,
      .streams, .basins, .snaps, .lk] s (execWcbPartialDrain n l line syms twin s) := by
  unfold execWcbPartialDrain
  with_reducible repeat' first
    | (apply partsIn.id; with_unfolding_all rfl)
    | apply Change.refl
    | apply Change.ite ?_ ?_
    | apply ChangeO.mk ?_
    | apply Change.tr ?_ (State.channelRead_frame ..) ?_
    | apply Change.tr ?_ (State.memWrite_frame ..) ?_
    | apply Change.tr ?_ (State.modChan_frame ..) ?_

theorem execWcbWriteRun_frame (n l s) : ChangeO [.chans] s (execWcbWriteRun n l s) := by
  unfold execWcbWriteRun
  with_reducible repeat' first
    | (apply partsIn.id; with_unfolding_all rfl)
    | apply Change.refl
    | apply Change.ite ?_ ?_
    | apply ChangeO.mk ?_
    | apply Change.tr ?_ (State.modChan_frame ..) ?_

theorem execMemsideAdd_frame (addr cls op fmt scale data berth s) :
    ChangeO [.out, .mem, .chans, .berths, .host, .mbox] s (execMemsideAdd addr cls op fmt scale data berth s) := by
  unfold execMemsideAdd
  with_reducible repeat' first
    | (apply partsIn.id; with_unfolding_all rfl)
    | apply Change.refl
    | apply ChangeO.mk ?_
    | apply Change1.tr ?_ (State.homeAdd_frame ..) ?_
    | split

theorem State.groupNext_frame (s n g) : Change [.chans] s (State.groupNext s n g) := by
  unfold State.groupNext
  with_reducible repeat' first
    | (apply partsIn.id; with_unfolding_all rfl)
    | apply Change.refl
    | apply Change.tr ?_ (State.modChan_frame ..) ?_
    | split

theorem execSpareCopyStart_frame (n l s) :
    ChangeO [.free, .out, .mem, .chans, .groups, .hbm, .cores, .berths, .segs, .host, .mbox, .ctxs, .launches, .fabric,
      .defects, .streams, .basins, .snaps, .lk] s (execSpareCopyStart n l s) := by
  unfold execSpareCopyStart
  with_reducible repeat' first
    | (apply partsIn.id; with_unfolding_all rfl)
    | apply Change.refl
    | apply ChangeO.ite ?_ ?_
    | apply Change.ite ?_ ?_
    | extract_lets
    | apply ChangeO.mk ?_
    | apply ChangeO.stop
    | apply Change.tr ?_ (State.modChan_frame ..) ?_
    | apply Change.tr ?_ (State.leaveIfNone_frame ..) ?_
    | apply Change.forL ?_ fun _ _ _ => ?_
    | apply Change.forN ?_ fun _ _ _ => ?_
    | apply Change.foldl ?_ fun _ _ _ => ?_
    | assumption
    | split
    | apply Change.setGroups ?_ (by with_unfolding_all rfl)

theorem State.spareStays_frame (s n l old new cause detail) :
    Change [.out, .chans, .host, .mbox, .defects] s (State.spareStays s n l old new cause detail) := by
  unfold State.spareStays
  with_reducible repeat' first
    | (apply partsIn.id; with_unfolding_all rfl)
    | apply Change.refl
    | apply Change.tr ?_ (State.addDefect_frame ..) ?_
    | apply Change.tr ?_ (State.modChan_frame ..) ?_
    | apply Change.tr ?_ (State.spareIn_frame ..) ?_

theorem execSpareCopyDone_frame (n l ok s) :
    ChangeO [.free, .out, .mem, .chans, .groups, .hbm, .cores, .berths, .segs, .host, .mbox, .ctxs, .launches, .fabric,
      .defects, .streams, .basins, .snaps, .lk] s (execSpareCopyDone n l ok s) := by
  unfold execSpareCopyDone
  with_reducible repeat' first
    | (apply partsIn.id; with_unfolding_all rfl)
    | apply Change.refl
    | apply ChangeO.ite ?_ ?_
    | apply Change.ite ?_ ?_
    | extract_lets
    | apply ChangeO.mk ?_
    | apply ChangeO.stop
    | apply Change.iteFst ?_ ?_
    | apply Change.tr ?_ (State.groupNext_frame ..) ?_
    | apply Change.tr ?_ (State.spareStays_frame ..) ?_
    | apply Change.tr ?_ (State.modChan_frame ..) ?_
    | apply Change2.tr ?_ (State.openDetail_frame ..) ?_
    | apply Change2.of ?_ (State.openDetail_frame ..) ?_
    | apply Change.tr ?_ (State.addDefect_frame ..) ?_
    | apply Change.tr ?_ (State.leaveIfNone_frame ..) ?_
    | apply Change.forL ?_ fun _ _ _ => ?_
    | apply Change.forN ?_ fun _ _ _ => ?_
    | apply Change.foldl ?_ fun _ _ _ => ?_
    | assumption
    | split
    | apply Change.setGroups ?_ (by with_unfolding_all rfl)

theorem execRetrainDue_frame (n l s) : ChangeO [.chans] s (execRetrainDue n l s) := by
  unfold execRetrainDue
  with_reducible repeat' first
    | (apply partsIn.id; with_unfolding_all rfl)
    | apply Change.refl
    | apply Change.ite ?_ ?_
    | apply ChangeO.mk ?_
    | apply Change.tr ?_ (State.modChan_frame ..) ?_

theorem execRetrainDone_frame (n l pass s) :
    ChangeO [.free, .out, .mem, .chans, .hbm, .cores, .berths, .segs, .host, .mbox, .ctxs, .launches, .fabric, .defects,
      .streams, .basins, .snaps, .lk] s (execRetrainDone n l pass s) := by
  unfold execRetrainDone
  with_reducible repeat' first
    | (apply partsIn.id; with_unfolding_all rfl)
    | apply Change.refl
    | apply ChangeO.mk ?_
    | apply Change.tr ?_ (State.groupNext_frame ..) ?_
    | apply Change.tr ?_ (State.modChan_frame ..) ?_
    | apply Change2.tr ?_ (State.openDetail_frame ..) ?_
    | apply Change.tr ?_ (State.spareStays_frame ..) ?_
    | apply Change.tr ?_ (State.queueSpare_frame ..) ?_
    | split

theorem execCopyBackDone_frame (n l s) : ChangeO [.chans, .groups] s (execCopyBackDone n l s) := by
  unfold execCopyBackDone
  with_reducible repeat' first
    | (apply partsIn.id; with_unfolding_all rfl)
    | apply Change.refl
    | apply ChangeO.ite ?_ ?_
    | apply Change.ite ?_ ?_
    | extract_lets
    | apply ChangeO.mk ?_
    | apply ChangeO.stop
    | apply Change.tr ?_ (State.groupNext_frame ..) ?_
    | apply Change.tr ?_ (State.modChan_frame ..) ?_
    | apply Change.forL ?_ fun _ _ _ => ?_
    | apply Change.forN ?_ fun _ _ _ => ?_
    | apply Change.foldl ?_ fun _ _ _ => ?_
    | assumption
    | split
    | apply Change.setGroups ?_ (by with_unfolding_all rfl)

theorem execChannelRelocationDone_frame (n l s) :
    ChangeO [.free, .out, .chans, .hbm, .host, .mbox, .defects] s (execChannelRelocationDone n l s) := by
  unfold execChannelRelocationDone
  with_reducible repeat' first
    | (apply partsIn.id; with_unfolding_all rfl)
    | apply Change.refl
    | apply Change.ite ?_ ?_
    | apply ChangeO.mk ?_
    | apply Change2.tr ?_ (State.openDetail_frame ..) ?_
    | apply Change.tr ?_ (State.modStack_frame ..) ?_
    | apply Change.tr ?_ (State.modChan_frame ..) ?_
    | apply Change.tr ?_ (State.moduleEvent_frame ..) ?_
    | apply Change.tr ?_ (State.addDefect_frame ..) ?_

theorem execChannelStatusRead_frame (n l s) : ChangeO [.out, .chans] s (execChannelStatusRead n l s) := by
  unfold execChannelStatusRead
  with_reducible repeat' first
    | (apply partsIn.id; with_unfolding_all rfl)
    | apply Change.refl
    | apply Change.ite ?_ ?_
    | apply ChangeO.mk ?_
    | apply Change.tr ?_ (State.modChan_frame ..) ?_
    | apply Change.tr ?_ (State.emit_frame ..) ?_

theorem State.phaseLost_frame (s rail phase cause detail) :
    Change [.out, .host, .mbox, .defects, .power] s (State.phaseLost s rail phase cause detail) := by
  unfold State.phaseLost
  with_reducible repeat' first
    | (apply partsIn.id; with_unfolding_all rfl)
    | apply Change.refl
    | apply Change.ite ?_ ?_
    | extract_lets
    | apply Change.iteFst ?_ ?_
    | apply Change.tr ?_ (State.addDefect_frame ..) ?_
    | apply Change.tr ?_ (State.spareIn_frame ..) ?_
    | apply Change.tr ?_ (State.moduleEvent_frame ..) ?_
    | apply Change.forL ?_ fun _ _ _ => ?_
    | apply Change.forN ?_ fun _ _ _ => ?_
    | apply Change.foldl ?_ fun _ _ _ => ?_
    | assumption
    | split
    | apply Change.setPower ?_ (by with_unfolding_all rfl)

theorem State.failUnit_frame (s e) :
        Change [.free, .out, .mem, .chans, .groups, .hbm, .cores, .berths, .segs, .host, .mbox, .ctxs, .launches, .fabric,
      .dict, .fw, .defects, .streams, .basins, .snaps, .lk, .power] s (State.failUnit s e) := by
  unfold State.failUnit
  with_reducible repeat' first
    | (apply partsIn.id; with_unfolding_all rfl)
    | apply Change.refl
    | apply Change.ite ?_ ?_
    | extract_lets
    | apply Change.iteFst ?_ ?_
    | apply Change.tr ?_ (State.coreFails_frame ..) ?_
    | apply Change.tr ?_ (State.addDefect_frame ..) ?_
    | apply Change.tr ?_ (State.moduleEvent_frame ..) ?_
    | apply Change.tr ?_ (State.queueSpare_frame ..) ?_
    | apply Change.tr ?_ (State.modChan_frame ..) ?_
    | apply Change.tr ?_ (State.retireLane_frame ..) ?_
    | apply Change.tr ?_ (State.attachmentLost_frame ..) ?_
    | apply Change.tr ?_ (State.phaseLost_frame ..) ?_
    | apply Change.tr ?_ (State.modStack_frame ..) ?_
    | apply Change.tr ?_ (State.takeOver_frame ..) ?_
    | apply Change.tr ?_ (State.lkLost_frame ..) ?_
    | apply Change.tr ?_ (State.fence_frame ..) ?_
    | apply Change.forL ?_ fun _ _ _ => ?_
    | apply Change.forN ?_ fun _ _ _ => ?_
    | apply Change.foldl ?_ fun _ _ _ => ?_
    | assumption
    | split
    | apply Change.setGroups ?_ (by with_unfolding_all rfl)
    | apply Change.setDefects ?_ (by with_unfolding_all rfl) (by apply Part.kept_defects; rfl)

theorem execWearSample_frame (kind die unit sub measure level s) :
    ChangeO [.free, .out, .mem, .chans, .groups, .hbm, .cores, .berths, .segs, .host, .mbox, .ctxs, .launches, .fabric,
      .dict, .fw, .defects, .streams, .basins, .snaps, .lk, .power] s (execWearSample kind die unit sub measure level s) := by
  unfold execWearSample
  with_reducible repeat' first
    | (apply partsIn.id; with_unfolding_all rfl)
    | apply Change.refl
    | apply ChangeO.ite ?_ ?_
    | apply Change.ite ?_ ?_
    | extract_lets
    | apply ChangeO.mk ?_
    | apply ChangeO.stop
    | apply Change.tr ?_ (State.moduleEvent_frame ..) ?_
    | apply Change.tr ?_ (State.failUnit_frame ..) ?_
    | apply Change.forL ?_ fun _ _ _ => ?_
    | apply Change.forN ?_ fun _ _ _ => ?_
    | apply Change.foldl ?_ fun _ _ _ => ?_
    | assumption
    | split
    | apply Change.setDefects ?_ (by with_unfolding_all rfl) (by apply Part.kept_defects; rfl)

theorem State.writeReadmit_frame (s kind die unit sub) : Change2 [.defects] s (State.writeReadmit s kind die unit sub) := by
  unfold State.writeReadmit
  with_reducible repeat' first
    | apply Change.refl
    | apply Change2.ite ?_ ?_
    | apply Change.ite ?_ ?_
    | extract_lets
    | apply Change.forL ?_ fun _ _ _ => ?_
    | apply Change.forN ?_ fun _ _ _ => ?_
    | apply Change.foldl ?_ fun _ _ _ => ?_
    | assumption
    | split
    | apply Change2.mk ?_
    | apply Change.setDefects ?_ (by with_unfolding_all rfl) (by apply Part.kept_defects; rfl)

theorem execReadmissionRequest_frame (kind die unit sub s) :
    ChangeO [.out, .defects] s (execReadmissionRequest kind die unit sub s) := by
  unfold execReadmissionRequest
  with_reducible repeat' first
    | (apply partsIn.id; with_unfolding_all rfl)
    | apply Change.refl
    | apply ChangeO.ite ?_ ?_
    | apply Change.ite ?_ ?_
    | extract_lets
    | apply ChangeO.mk ?_
    | apply ChangeO.stop
    | apply Change.byDict ?_ ?_ fun _ => ?_
    | apply Change2.tr ?_ (State.writeReadmit_frame ..) ?_
    | apply Change2.of ?_ (State.writeReadmit_frame ..) ?_
    | apply Change.forL ?_ fun _ _ _ => ?_
    | apply Change.forN ?_ fun _ _ _ => ?_
    | apply Change.foldl ?_ fun _ _ _ => ?_
    | assumption
    | split

theorem State.readmit_frame (s e) : Change [.groups, .host, .fabric, .defects, .basins, .lk, .power] s (State.readmit s e) := by
  unfold State.readmit
  with_reducible repeat' first
    | (apply partsIn.id; with_unfolding_all rfl)
    | apply Change.refl
    | apply Change.ite ?_ ?_
    | extract_lets
    | apply Change.iteFst ?_ ?_
    | apply Change.tr ?_ (State.modLink_frame ..) ?_
    | apply Change.tr ?_ (State.modFabric_frame ..) ?_
    | apply Change.tr ?_ (State.modPort_frame ..) ?_
    | apply Change.forL ?_ fun _ _ _ => ?_
    | apply Change.forN ?_ fun _ _ _ => ?_
    | apply Change.foldl ?_ fun _ _ _ => ?_
    | assumption
    | split
    | apply Change.setGroups ?_ (by with_unfolding_all rfl)
    | apply Change.setDefects ?_ (by with_unfolding_all rfl) (by apply Part.kept_defects; rfl)
    | apply Change.setBasins ?_ (by with_unfolding_all rfl)
    | apply Change.setLk ?_ (by with_unfolding_all rfl)
    | apply Change.setPower ?_ (by with_unfolding_all rfl)

theorem execReadmitDone_frame (pass s) :
    ChangeO [.out, .groups, .host, .mbox, .fabric, .defects, .basins, .lk, .power] s (execReadmitDone pass s) := by
  unfold execReadmitDone
  refine ChangeO.mk ?_
  split
  · exact Change.refl
  · extract_lets src t src2 u v
    refine Change.tr ?_ (State.moduleEvent_frame _ _ _ _ _) rfl
    have h : Change [.out, .groups, .host, .mbox, .fabric, .defects, .basins, .lk, .power] s t := Change.refl.setDefects rfl (by exact Part.kept_defects rfl)
    refine Change.ite h ?_
    refine Change.tr ?_ (State.readmit_frame _ _) rfl
    dsimp only [u]
    split
    · exact h.setDefects rfl (listGrows.readmit _ _)
    · exact h

theorem State.writeDeclare_frame (s kind die unit sub) :
        Change2 [.free, .out, .mem, .chans, .groups, .hbm, .cores, .berths, .segs, .host, .mbox, .ctxs, .launches, .fabric,
      .dict, .fw, .defects, .streams, .basins, .snaps, .lk, .power] s (State.writeDeclare s kind die unit sub) := by
  unfold State.writeDeclare
  with_reducible repeat' first
    | (apply partsIn.id; with_unfolding_all rfl)
    | apply Change.refl
    | apply Change2.ite ?_ ?_
    | apply Change.ite ?_ ?_
    | extract_lets
    | apply Change.iteFst ?_ ?_
    | apply Change2.tr ?_ (State.openDetail_frame ..) ?_
    | apply Change2.of ?_ (State.openDetail_frame ..) ?_
    | apply Change.tr ?_ (State.failUnit_frame ..) ?_
    | apply Change.forL ?_ fun _ _ _ => ?_
    | apply Change.forN ?_ fun _ _ _ => ?_
    | apply Change.foldl ?_ fun _ _ _ => ?_
    | assumption
    | split
    | apply Change2.mk ?_

theorem execDeclareFailed_frame (kind die unit sub s) :
    ChangeO [.free, .out, .mem, .chans, .groups, .hbm, .cores, .berths, .segs, .host, .mbox, .ctxs, .launches, .fabric,
      .dict, .fw, .defects, .streams, .basins, .snaps, .lk, .power] s (execDeclareFailed kind die unit sub s) := by
  unfold execDeclareFailed
  with_reducible repeat' first
    | (apply partsIn.id; with_unfolding_all rfl)
    | apply Change.refl
    | apply ChangeO.ite ?_ ?_
    | apply Change.ite ?_ ?_
    | extract_lets
    | apply ChangeO.mk ?_
    | apply ChangeO.stop
    | apply Change.byDict ?_ ?_ fun _ => ?_
    | apply Change2.tr ?_ (State.writeDeclare_frame ..) ?_
    | apply Change2.of ?_ (State.writeDeclare_frame ..) ?_
    | apply Change.forL ?_ fun _ _ _ => ?_
    | apply Change.forN ?_ fun _ _ _ => ?_
    | apply Change.foldl ?_ fun _ _ _ => ?_
    | assumption
    | split

end Sys2Proof.Machine
end

