-- ==== Sys2Proof/Laws/ChangeModule.lean ====
section
/-!
SUPPORT. What each operation changes and keeps: firmware, remote requests, discovery, the instrument, starts and power.
-/

namespace Sys2Proof.Machine

theorem State.stageImage_frame (s i) : Change2 [.fw] s (State.stageImage s i) := by
  unfold State.stageImage
  with_reducible repeat' first
    | apply Change.refl
    | apply Change2.ite ?_ ?_
    | apply Change.ite ?_ ?_
    | extract_lets
    | apply Change.forL ?_ fun _ _ _ => ?_
    | apply Change.forN ?_ fun _ _ _ => ?_
    | apply Change.foldl ?_ fun _ _ _ => ?_
    | assumption
    | split
    | apply Change2.mk ?_
    | apply Change.setFw ?_ (by with_unfolding_all rfl)

theorem execImageStaging_frame (image s) : ChangeO [.out, .fw] s (execImageStaging image s) := by
  unfold execImageStaging
  with_reducible repeat' first
    | (apply partsIn.id; with_unfolding_all rfl)
    | apply Change.refl
    | apply ChangeO.mk ?_
    | apply Change.byDict ?_ ?_ fun _ => ?_
    | apply Change2.tr ?_ (State.stageImage_frame ..) ?_

theorem State.fwBroadcast_frame (s) : Change2 [.fw] s (State.fwBroadcast s) := by
  unfold State.fwBroadcast
  with_reducible repeat' first
    | apply Change.refl
    | apply Change2.ite ?_ ?_
    | apply Change.ite ?_ ?_
    | extract_lets
    | apply Change.forL ?_ fun _ _ _ => ?_
    | apply Change.forN ?_ fun _ _ _ => ?_
    | apply Change.foldl ?_ fun _ _ _ => ?_
    | assumption
    | split
    | apply Change2.mk ?_
    | apply Change.setFw ?_ (by with_unfolding_all rfl)

theorem execFwBroadcast_frame (s) : ChangeO [.out, .fw] s (execFwBroadcast s) := by
  unfold execFwBroadcast
  with_reducible repeat' first
    | (apply partsIn.id; with_unfolding_all rfl)
    | apply Change.refl
    | apply ChangeO.mk ?_
    | apply Change.byDict ?_ ?_ fun _ => ?_
    | apply Change2.tr ?_ (State.fwBroadcast_frame ..) ?_

theorem State.handOverDue_frame (s b) : Change [.out, .berths, .host, .mbox] s (State.handOverDue s b) := by
  unfold State.handOverDue
  with_reducible repeat' first
    | (apply partsIn.id; with_unfolding_all rfl)
    | apply Change.refl
    | apply Change.ite ?_ ?_
    | apply Change.tr ?_ (State.modBerth_frame _ _ _ ?_) ?_
    | apply Change.tr ?_ (State.berthEvent_frame ..) ?_
    | (apply BerthKept.of <;> rfl)

theorem State.endBroadcast_frame (s) : Change [.out, .berths, .host, .mbox, .fw] s (State.endBroadcast s) := by
  unfold State.endBroadcast
  with_reducible repeat' first
    | (apply partsIn.id; with_unfolding_all rfl)
    | apply Change.refl
    | apply Change.ite ?_ ?_
    | extract_lets
    | apply Change.tr ?_ (State.moduleEvent_frame ..) ?_
    | apply Change.tr ?_ (State.handOverDue_frame ..) ?_
    | apply Change.forL ?_ fun _ _ _ => ?_
    | apply Change.forN ?_ fun _ _ _ => ?_
    | apply Change.foldl ?_ fun _ _ _ => ?_
    | assumption
    | split
    | apply Change.setFw ?_ (by with_unfolding_all rfl)

theorem execFwRoundEnd_frame (gaps s) : ChangeO [.out, .berths, .host, .mbox, .fw] s (execFwRoundEnd gaps s) := by
  unfold execFwRoundEnd
  with_reducible repeat' first
    | (apply partsIn.id; with_unfolding_all rfl)
    | apply Change.refl
    | apply ChangeO.ite ?_ ?_
    | apply Change.ite ?_ ?_
    | extract_lets
    | apply ChangeO.mk ?_
    | apply ChangeO.stop
    | apply Change.iteFst ?_ ?_
    | apply Change.tr ?_ (State.endBroadcast_frame ..) ?_
    | apply Change.forL ?_ fun _ _ _ => ?_
    | apply Change.forN ?_ fun _ _ _ => ?_
    | apply Change.foldl ?_ fun _ _ _ => ?_
    | assumption
    | split
    | apply Change.setFw ?_ (by with_unfolding_all rfl)

theorem State.fwInstall_frame (s) : Change2 [.fw, .lk] s (State.fwInstall s) := by
  unfold State.fwInstall
  with_reducible repeat' first
    | split
    | apply Change2.mk ?_
    | (apply Change.setMany (t := s)
       · apply Change.refl
       · intro p
         cases p <;> constructor <;> with_unfolding_all first | exact trivial | exact .inl (by decide) | exact .inr rfl | exact Part.kept_same rfl | exact Part.kept_dict rfl | exact Part.kept_host rfl | exact Part.kept_defects rfl)

theorem execFwInstallLockkeeper_frame (s) : ChangeO [.out, .fw, .lk] s (execFwInstallLockkeeper s) := by
  unfold execFwInstallLockkeeper
  with_reducible repeat' first
    | (apply partsIn.id; with_unfolding_all rfl)
    | apply Change.refl
    | apply ChangeO.mk ?_
    | apply Change.byDict ?_ ?_ fun _ => ?_
    | apply Change2.tr ?_ (State.fwInstall_frame ..) ?_

theorem State.fwAbort_frame (s) : Change2 [.fw] s (State.fwAbort s) := by
  unfold State.fwAbort
  with_reducible repeat' first
    | apply Change.refl
    | apply Change2.ite ?_ ?_
    | apply Change.ite ?_ ?_
    | extract_lets
    | apply Change.forL ?_ fun _ _ _ => ?_
    | apply Change.forN ?_ fun _ _ _ => ?_
    | apply Change.foldl ?_ fun _ _ _ => ?_
    | assumption
    | split
    | apply Change2.mk ?_
    | apply Change.setFw ?_ (by with_unfolding_all rfl)

theorem execFwAbort_frame (s) : ChangeO [.out, .fw] s (execFwAbort s) := by
  unfold execFwAbort
  with_reducible repeat' first
    | (apply partsIn.id; with_unfolding_all rfl)
    | apply Change.refl
    | apply ChangeO.mk ?_
    | apply Change.byDict ?_ ?_ fun _ => ?_
    | apply Change2.tr ?_ (State.fwAbort_frame ..) ?_

theorem State.writeFw_frame (s v) : Change2 [.fw, .lk] s (State.writeFw s v) := by
  unfold State.writeFw
  with_reducible repeat' first
    | (apply partsIn.id; with_unfolding_all rfl)
    | apply Change.refl
    | apply Change2.tr ?_ (State.fwBroadcast_frame ..) ?_
    | apply Change2.tr ?_ (State.fwInstall_frame ..) ?_
    | apply Change2.tr ?_ (State.fwAbort_frame ..) ?_
    | split
    | apply Change2.mk ?_

theorem execFwHandover_frame (b s) : ChangeO [.out, .berths, .host, .mbox, .fw] s (execFwHandover b s) := by
  unfold execFwHandover
  with_reducible repeat' first
    | (apply partsIn.id; with_unfolding_all rfl)
    | apply Change.refl
    | apply ChangeO.ite ?_ ?_
    | apply Change.ite ?_ ?_
    | extract_lets
    | apply ChangeO.mk ?_
    | apply ChangeO.stop
    | apply Change.tr ?_ (State.modBerth_frame _ _ _ ?_) ?_
    | apply Change.tr ?_ (State.berthEvent_frame ..) ?_
    | apply Change.forL ?_ fun _ _ _ => ?_
    | apply Change.forN ?_ fun _ _ _ => ?_
    | apply Change.foldl ?_ fun _ _ _ => ?_
    | assumption
    | split
    | (apply BerthKept.of <;> rfl)
    | apply Change.setFw ?_ (by with_unfolding_all rfl)

theorem execHandoverDelayExpiry_frame (b s) : ChangeO [.out, .host, .mbox] s (execHandoverDelayExpiry b s) := by
  unfold execHandoverDelayExpiry
  with_reducible repeat' first
    | (apply partsIn.id; with_unfolding_all rfl)
    | apply Change.refl
    | apply Change.ite ?_ ?_
    | apply ChangeO.mk ?_
    | apply Change.tr ?_ (State.berthEvent_frame ..) ?_

theorem execWindowEntryWrite_frame (w entry s) : ChangeO [.out, .host, .mbox, .fabric] s (execWindowEntryWrite w entry s) := by
  unfold execWindowEntryWrite
  with_reducible repeat' first
    | (apply partsIn.id; with_unfolding_all rfl)
    | apply Change.refl
    | apply Change.ite ?_ ?_
    | apply ChangeO.mk ?_
    | apply Change.tr ?_ (State.moduleEvent_frame ..) ?_
    | apply Change.tr ?_ (State.modFabric_frame ..) ?_

theorem Change.takeFrame {l s} {t : State} {idx kind : Nat} {f : FrameHdr → Bytes → State → State} (h : Change l s t)
    (w : partsIn [.fabric] l = true) (k : ∀ a b u, Change l s u → Change l s (f a b u)) : Change l s (t.takeFrame idx kind f) := by
  unfold State.takeFrame
  split
  · exact h
  · extract_lets hd u
    have j : Change l s u := h.tr (State.modFabric_frame _ _) w
    exact Change.ite h (Change.ite (k _ _ _ j) (j.tr (State.modFabric_frame _ _) w))

theorem State.unhold_frame (s h) : Change [.fabric] s (State.unhold s h) := by
  unfold State.unhold
  with_reducible repeat' first
    | (apply partsIn.id; with_unfolding_all rfl)
    | apply Change.refl
    | apply Change.tr ?_ (State.modHist_frame ..) ?_
    | apply Change.tr ?_ (State.modFabric_frame ..) ?_

theorem Change.serveRequest {l s} {t : State} {idx kind perm : Nat} {ahead : Bool} {n : FrameHdr → Nat}
    {perform : FrameHdr → Bytes → State → State × Nat × Bytes} (h : Change l s t) (w : partsIn [.out, .fabric] l = true)
    (k : ∀ a b u, Change l s u → Change1 l s (perform a b u)) : Change l s (t.serveRequest idx kind perm ahead n perform) := by
  unfold State.serveRequest
  refine Change.takeFrame h (partsIn.trans rfl w) fun a b u j => ?_
  extract_lets
  split
  · split
    · exact j.tr (State.sendFrame_frame _ _) (partsIn.trans rfl w)
    · exact j
  · split
    · exact j.tr (State.modHist_frame _ _ _) (partsIn.trans rfl w)
    · rename_i _ st r f _ _
      have q : Change l s r.1 := by
        dsimp only [r]
        split
        · exact k _ _ _ j
        · exact j
      exact ((q.tr (State.performed_frame _ _ _) (partsIn.trans rfl w)).tr (State.unhold_frame _ _) (partsIn.trans rfl w)).tr
        (State.sendFrame_frame _ _) (partsIn.trans rfl w)

theorem execReadRequest_frame (idx ahead s) :
    ChangeO [.out, .berths, .host, .mbox, .fabric] s (execReadRequest idx ahead s) := by
  unfold execReadRequest
  with_reducible repeat' first
    | (apply partsIn.id; with_unfolding_all rfl)
    | apply Change.refl
    | apply ChangeO.mk ?_
    | apply Change.serveRequest ?_ ?_ fun _ _ _ _ => ?_
    | apply Change.tr ?_ (State.poisonReads_frame ..) ?_
    | assumption
    | apply Change1.mk

theorem execWriteRequest_frame (idx ahead s) :
    ChangeO [.out, .mem, .chans, .host, .mbox, .fabric] s (execWriteRequest idx ahead s) := by
  unfold execWriteRequest
  with_reducible repeat' first
    | (apply partsIn.id; with_unfolding_all rfl)
    | apply Change.refl
    | apply Change.ite ?_ ?_
    | apply ChangeO.mk ?_
    | apply Change.serveRequest ?_ ?_ fun _ _ _ _ => ?_
    | apply Change.tr ?_ (State.homeStore_frame ..) ?_
    | assumption
    | apply Change1.mk

theorem execAtomicRequest_frame (idx ahead s) :
    ChangeO [.out, .mem, .chans, .berths, .host, .mbox, .fabric] s (execAtomicRequest idx ahead s) := by
  unfold execAtomicRequest
  with_reducible repeat' first
    | (apply partsIn.id; with_unfolding_all rfl)
    | apply Change.refl
    | apply Change.ite ?_ ?_
    | apply ChangeO.mk ?_
    | apply Change.serveRequest ?_ ?_ fun _ _ _ _ => ?_
    | apply Change1.tr ?_ (State.homeAdd_frame ..) ?_
    | assumption
    | apply Change1.mk

theorem State.failAccess_frame (s r code) :
    Change [.free, .out, .mem, .cores, .berths, .host, .mbox, .launches, .fabric] s (State.failAccess s r code) := by
  unfold State.failAccess
  with_reducible repeat' first
    | (apply partsIn.id; with_unfolding_all rfl)
    | apply Change.refl
    | apply Change.ite ?_ ?_
    | apply Change.tr ?_ (State.abortLaunch_frame ..) ?_
    | apply Change.tr ?_ (State.dropAccess_frame ..) ?_
    | split

theorem State.failComb_frame (s r) : Change [.out, .mem, .chans, .berths, .host, .mbox, .fabric] s (State.failComb s r) := by
  unfold State.failComb
  with_reducible repeat' first
    | (apply partsIn.id; with_unfolding_all rfl)
    | apply Change.refl
    | extract_lets
    | apply Change.tr ?_ (State.count_frame ..) ?_
    | apply Change.tr ?_ (State.putScaleRec_frame ..) ?_
    | split

theorem State.failRequest_frame (s r code) :
    Change [.free, .out, .mem, .chans, .cores, .berths, .host, .mbox, .launches, .fabric] s (State.failRequest s r code) := by
  unfold State.failRequest
  with_reducible repeat' first
    | (apply partsIn.id; with_unfolding_all rfl)
    | apply Change.refl
    | apply Change.ite ?_ ?_
    | apply Change.tr ?_ (State.failAccess_frame ..) ?_
    | apply Change.tr ?_ (State.exchEvent_frame ..) ?_
    | apply Change.tr ?_ (State.failComb_frame ..) ?_

theorem State.coreResponse_frame (s r p) : Change [.cores] s (State.coreResponse s r p) := by
  unfold State.coreResponse
  with_reducible repeat' first
    | (apply partsIn.id; with_unfolding_all rfl)
    | apply Change.refl
    | apply Change.tr ?_ (State.modAccess_frame ..) ?_
    | apply Change.tr ?_ (State.dropAccess_frame ..) ?_
    | split

theorem State.responseIn_frame (s idx kind) :
    Change [.free, .out, .mem, .chans, .cores, .berths, .host, .mbox, .launches, .fabric] s (State.responseIn s idx kind) := by
  unfold State.responseIn
  with_reducible repeat' first
    | (apply partsIn.id; with_unfolding_all rfl)
    | apply Change.refl
    | apply Change.takeFrame ?_ ?_ fun _ _ _ _ => ?_
    | apply Change.tr ?_ (State.moduleEvent_frame ..) ?_
    | apply Change.tr ?_ (State.modFabric_frame ..) ?_
    | apply Change.tr ?_ (State.failRequest_frame ..) ?_
    | apply Change.tr ?_ (State.count_frame ..) ?_
    | apply Change.tr ?_ (State.coreResponse_frame ..) ?_
    | assumption
    | split

theorem execReadResponse_frame (idx s) :
    ChangeO [.free, .out, .mem, .chans, .cores, .berths, .host, .mbox, .launches, .fabric] s (execReadResponse idx s) := by
  unfold execReadResponse
  with_reducible repeat' first
    | (apply partsIn.id; with_unfolding_all rfl)
    | apply Change.refl
    | apply ChangeO.mk ?_
    | apply Change.tr ?_ (State.responseIn_frame ..) ?_

theorem execWriteAtomicResponse_frame (idx s) :
    ChangeO [.free, .out, .mem, .chans, .cores, .berths, .host, .mbox, .launches, .fabric]
      s (execWriteAtomicResponse idx s) := by
  unfold execWriteAtomicResponse
  with_reducible repeat' first
    | (apply partsIn.id; with_unfolding_all rfl)
    | apply Change.refl
    | apply ChangeO.mk ?_
    | apply Change.tr ?_ (State.responseIn_frame ..) ?_

theorem execRemoteRetransmit_frame (unit node seq s) :
    ChangeO [.out, .host, .mbox, .fabric] s (execRemoteRetransmit unit node seq s) := by
  unfold execRemoteRetransmit
  with_reducible repeat' first
    | (apply partsIn.id; with_unfolding_all rfl)
    | apply Change.refl
    | apply ChangeO.mk ?_
    | apply Change.tr ?_ (State.ghostDrop_frame ..) ?_
    | apply Change.tr ?_ (State.sendFrame_frame ..) ?_
    | split

theorem execRemoteTimeout_frame (unit node seq s) :
    ChangeO [.free, .out, .mem, .chans, .cores, .berths, .host, .mbox, .launches, .fabric]
      s (execRemoteTimeout unit node seq s) := by
  unfold execRemoteTimeout
  with_reducible repeat' first
    | (apply partsIn.id; with_unfolding_all rfl)
    | apply Change.refl
    | apply ChangeO.mk ?_
    | apply Change.tr ?_ (State.modFabric_frame ..) ?_
    | apply Change.tr ?_ (State.failRequest_frame ..) ?_
    | split

theorem execRemoteHistoryExpiry_frame (node unit s) : ChangeO [.fabric] s (execRemoteHistoryExpiry node unit s) := by
  unfold execRemoteHistoryExpiry
  with_reducible repeat' first
    | (apply partsIn.id; with_unfolding_all rfl)
    | apply Change.refl
    | apply ChangeO.mk ?_
    | apply Change.tr ?_ (State.modFabric_frame ..) ?_

theorem State.forward_frame (s idx) : Change [.out, .host, .mbox, .fabric] s (State.forward s idx) := by
  unfold State.forward
  with_reducible repeat' first
    | (apply partsIn.id; with_unfolding_all rfl)
    | apply Change.refl
    | apply Change.ite ?_ ?_
    | apply Change.tr ?_ (State.modFabric_frame ..) ?_
    | apply Change.tr ?_ (State.moduleEvent_frame ..) ?_
    | apply ChangeQ.getD ?_ (State.routeFrame_frame ..) ?_ ?_
    | split

theorem execFrameTransit_frame (idx die s) : ChangeO [.out, .host, .mbox, .fabric] s (execFrameTransit idx die s) := by
  unfold execFrameTransit
  with_reducible repeat' first
    | (apply partsIn.id; with_unfolding_all rfl)
    | apply Change.refl
    | apply ChangeO.mk ?_
    | apply Change.tr ?_ (State.ghostDrop_frame ..) ?_
    | apply Change.tr ?_ (State.forward_frame ..) ?_
    | split

theorem State.buildRoutes_frame (s) : Change [.out, .host, .mbox, .fabric] s (State.buildRoutes s) := by
  unfold State.buildRoutes
  with_reducible repeat' first
    | (apply partsIn.id; with_unfolding_all rfl)
    | apply Change.refl
    | apply Change.ite ?_ ?_
    | apply Change.tr ?_ (State.modFabric_frame ..) ?_
    | apply Change.tr ?_ (State.moduleEvent_frame ..) ?_

theorem execRouteBuild_frame (s) : ChangeO [.out, .host, .mbox, .fabric] s (execRouteBuild s) := by
  unfold execRouteBuild
  with_reducible repeat' first
    | (apply partsIn.id; with_unfolding_all rfl)
    | apply Change.refl
    | apply Change.ite ?_ ?_
    | apply ChangeO.mk ?_
    | apply Change.tr ?_ (State.buildRoutes_frame ..) ?_

theorem State.modPlan_frame (s slot f) : Change [.fabric] s (State.modPlan s slot f) := by
  unfold State.modPlan
  with_reducible repeat' first
    | (apply partsIn.id; with_unfolding_all rfl)
    | apply Change.refl
    | apply Change.tr ?_ (State.modFabric_frame ..) ?_

theorem State.writePlan_frame (s slot b) : Change2 [.fabric] s (State.writePlan s slot b) := by
  unfold State.writePlan
  with_reducible repeat' first
    | (apply partsIn.id; with_unfolding_all rfl)
    | apply Change.refl
    | apply Change.ite ?_ ?_
    | apply Change.tr ?_ (State.modPlan_frame ..) ?_
    | apply Change2.mk ?_

theorem execCutPlanWrite_frame (slot plan s) : ChangeO [.out, .fabric] s (execCutPlanWrite slot plan s) := by
  unfold execCutPlanWrite
  with_reducible repeat' first
    | (apply partsIn.id; with_unfolding_all rfl)
    | apply Change.refl
    | apply Change.ite ?_ ?_
    | apply ChangeO.mk ?_
    | apply Change.byDict ?_ ?_ fun _ => ?_
    | apply Change2.tr ?_ (State.writePlan_frame ..) ?_

theorem State.decidePlan_frame (s slot) : Change [.out, .host, .mbox, .fabric] s (State.decidePlan s slot) := by
  unfold State.decidePlan
  with_reducible repeat' first
    | (apply partsIn.id; with_unfolding_all rfl)
    | apply Change.refl
    | apply Change.ite ?_ ?_
    | apply Change.tr ?_ (State.buildRoutes_frame ..) ?_
    | apply Change.tr ?_ (State.modPlan_frame ..) ?_

theorem State.settlePlans_frame (s) : Change [.out, .host, .mbox, .fabric] s (State.settlePlans s) := by
  unfold State.settlePlans
  with_reducible repeat' first
    | (apply partsIn.id; with_unfolding_all rfl)
    | apply Change.refl
    | apply Change.ite ?_ ?_
    | apply Change.tr ?_ (State.decidePlan_frame ..) ?_
    | apply Change.forL ?_ fun _ _ _ => ?_
    | assumption

theorem State.activatePlan_frame (s slot) : Change2 [.out, .host, .mbox, .fabric] s (State.activatePlan s slot) := by
  unfold State.activatePlan
  with_reducible repeat' first
    | (apply partsIn.id; with_unfolding_all rfl)
    | apply Change.refl
    | apply Change2.ite ?_ ?_
    | apply Change.tr ?_ (State.settlePlans_frame ..) ?_
    | apply Change.tr ?_ (State.modPlan_frame ..) ?_
    | apply Change2.mk ?_

theorem execCutPlanActivate_frame (slot s) : ChangeO [.out, .host, .mbox, .fabric] s (execCutPlanActivate slot s) := by
  unfold execCutPlanActivate
  with_reducible repeat' first
    | (apply partsIn.id; with_unfolding_all rfl)
    | apply Change.refl
    | apply ChangeO.mk ?_
    | apply Change.byDict ?_ ?_ fun _ => ?_
    | apply Change2.tr ?_ (State.activatePlan_frame ..) ?_

theorem State.flushJob_frame (s job) : Change [.out, .host, .mbox, .fabric] s (State.flushJob s job) := by
  unfold State.flushJob
  with_reducible repeat' first
    | (apply partsIn.id; with_unfolding_all rfl)
    | apply Change.refl
    | apply Change.ite ?_ ?_
    | apply Change.tr ?_ (State.forward_frame ..) ?_
    | apply Change.forN ?_ fun _ _ _ => ?_
    | assumption

theorem State.withdrawPlan_frame (s slot) : Change2 [.out, .host, .mbox, .fabric] s (State.withdrawPlan s slot) := by
  unfold State.withdrawPlan
  with_reducible repeat' first
    | (apply partsIn.id; with_unfolding_all rfl)
    | apply Change.refl
    | apply Change2.ite ?_ ?_
    | apply Change.tr ?_ (State.modFabric_frame ..) ?_
    | apply Change.tr ?_ (State.modPlan_frame ..) ?_
    | apply Change.tr ?_ (State.flushJob_frame ..) ?_
    | apply Change2.mk ?_

theorem execCutPlanWithdraw_frame (slot s) : ChangeO [.out, .host, .mbox, .fabric] s (execCutPlanWithdraw slot s) := by
  unfold execCutPlanWithdraw
  with_reducible repeat' first
    | (apply partsIn.id; with_unfolding_all rfl)
    | apply Change.refl
    | apply ChangeO.mk ?_
    | apply Change.byDict ?_ ?_ fun _ => ?_
    | apply Change2.tr ?_ (State.withdrawPlan_frame ..) ?_

theorem execDiscoveryWaitExpiry_frame (slot s) : ChangeO [.out, .host, .mbox, .fabric] s (execDiscoveryWaitExpiry slot s) := by
  unfold execDiscoveryWaitExpiry
  with_reducible repeat' first
    | (apply partsIn.id; with_unfolding_all rfl)
    | apply Change.refl
    | apply Change.ite ?_ ?_
    | apply ChangeO.mk ?_
    | apply Change.tr ?_ (State.moduleEvent_frame ..) ?_
    | apply Change.tr ?_ (State.decidePlan_frame ..) ?_
    | apply Change.forL ?_ fun _ _ _ => ?_
    | assumption

theorem State.sendDisc_frame (s p sub body) : Change [.out, .fabric] s (State.sendDisc s p sub body) := by
  unfold State.sendDisc
  with_reducible repeat' first
    | (apply partsIn.id; with_unfolding_all rfl)
    | apply Change.refl
    | apply Change.tr ?_ (State.sendOnPort_frame ..) ?_

theorem State.sendHello_frame (s p) : Change [.out, .fabric] s (State.sendHello s p) := by
  unfold State.sendHello
  with_reducible repeat' first
    | (apply partsIn.id; with_unfolding_all rfl)
    | apply Change.refl
    | apply Change.tr ?_ (State.sendDisc_frame ..) ?_

theorem State.sendCerts_frame (s p) : Change [.out, .fabric] s (State.sendCerts s p) := by
  unfold State.sendCerts
  with_reducible repeat' first
    | (apply partsIn.id; with_unfolding_all rfl)
    | apply Change.refl
    | apply Change.tr ?_ (State.sendDisc_frame ..) ?_
    | apply Change.forN ?_ fun _ _ _ => ?_
    | assumption

theorem State.sendChallenge_frame (s p) : Change [.out, .fabric] s (State.sendChallenge s p) := by
  unfold State.sendChallenge
  with_reducible repeat' first
    | (apply partsIn.id; with_unfolding_all rfl)
    | apply Change.refl
    | apply Change.ite ?_ ?_
    | apply Change.tr ?_ (State.modLink_frame ..) ?_
    | apply Change.tr ?_ (State.sendDisc_frame ..) ?_

theorem State.startDisc_frame (s p) : Change [.free, .out, .fabric] s (State.startDisc s p) := by
  unfold State.startDisc
  with_reducible repeat' first
    | (apply partsIn.id; with_unfolding_all rfl)
    | apply Change.refl
    | apply Change.tr ?_ (State.modLink_frame ..) ?_
    | apply Change.tr ?_ (State.nextFree_frame ..) ?_
    | apply Change.tr ?_ (State.sendCerts_frame ..) ?_
    | apply Change.tr ?_ (State.sendHello_frame ..) ?_

theorem execPortLinkUp_frame (port bad s) :
    ChangeO [.free, .out, .host, .mbox, .fabric, .defects] s (execPortLinkUp port bad s) := by
  unfold execPortLinkUp
  with_reducible repeat' first
    | (apply partsIn.id; with_unfolding_all rfl)
    | apply Change.refl
    | apply Change.ite ?_ ?_
    | apply ChangeO.mk ?_
    | apply Change.tr ?_ (State.portLost_frame ..) ?_
    | apply Change.tr ?_ (State.retireLane_frame ..) ?_
    | apply Change.tr ?_ (State.startDisc_frame ..) ?_
    | apply Change.forL ?_ fun _ _ _ => ?_
    | assumption

theorem State.disablePort_frame (s p code) : Change [.out, .host, .mbox, .fabric] s (State.disablePort s p code) := by
  unfold State.disablePort
  extract_lets was g t
  have h : Change [.out, .host, .mbox, .fabric] s t := (Change.refl.tr (State.modLink_frame _ _ _) rfl).tr (State.moduleEvent_frame _ _ _ _ _) rfl
  clear_value g
  split
  · exact Change.ite ((h.tr (State.moduleEvent_frame _ _ _ _ _) rfl).tr (State.modFabric_frame _ _) rfl) h
  · exact h

theorem Change.takeDisc {l s} {t : State} {idx sub : Nat} {f : Nat → Bytes → State → State} (h : Change l s t)
    (w : partsIn [.out, .host, .mbox, .fabric] l = true) (k : ∀ a b u, Change l s u → Change l s (f a b u)) : Change l s (t.takeDisc idx sub f) := by
  unfold State.takeDisc
  split
  · exact h
  · extract_lets pl u
    have j : Change l s u := h.tr (State.modFabric_frame _ _) (partsIn.trans rfl w)
    exact Change.ite h (Change.ite h (Change.ite (j.tr (State.modFabric_frame _ _) (partsIn.trans rfl w))
      (Change.ite (j.tr (State.disablePort_frame _ _ _) (partsIn.trans rfl w)) (Change.ite j (k _ _ _ j)))))

theorem execHello_frame (idx s) : ChangeO [.out, .host, .mbox, .fabric] s (execHello idx s) := by
  unfold execHello
  with_reducible repeat' first
    | (apply partsIn.id; with_unfolding_all rfl)
    | apply Change.refl
    | extract_lets
    | apply ChangeO.mk ?_
    | apply Change.takeDisc ?_ ?_ fun _ _ _ _ => ?_
    | apply Change.tr ?_ (State.modLink_frame ..) ?_
    | apply Change.tr ?_ (State.sendChallenge_frame ..) ?_
    | apply Change.tr ?_ (State.disablePort_frame ..) ?_
    | assumption
    | split

theorem execCert_frame (idx s) : ChangeO [.out, .host, .mbox, .fabric] s (execCert idx s) := by
  unfold execCert
  with_reducible repeat' first
    | (apply partsIn.id; with_unfolding_all rfl)
    | apply Change.refl
    | apply ChangeO.mk ?_
    | apply Change.takeDisc ?_ ?_ fun _ _ _ _ => ?_
    | apply Change.tr ?_ (State.modLink_frame ..) ?_
    | assumption

theorem execDiscoveryChallenge_frame (idx s) :
    ChangeO [.free, .out, .host, .mbox, .fabric] s (execDiscoveryChallenge idx s) := by
  unfold execDiscoveryChallenge
  with_reducible repeat' first
    | (apply partsIn.id; with_unfolding_all rfl)
    | apply Change.refl
    | apply Change.ite ?_ ?_
    | apply ChangeO.mk ?_
    | apply Change.takeDisc ?_ ?_ fun _ _ _ _ => ?_
    | apply Change.tr ?_ (State.sendDisc_frame ..) ?_
    | apply Change.tr ?_ (State.nextFree_frame ..) ?_
    | assumption

theorem execProof_frame (idx s) : ChangeO [.out, .host, .mbox, .fabric] s (execProof idx s) := by
  unfold execProof
  with_reducible repeat' first
    | (apply partsIn.id; with_unfolding_all rfl)
    | apply Change.refl
    | extract_lets
    | apply ChangeO.mk ?_
    | apply Change.takeDisc ?_ ?_ fun _ _ _ _ => ?_
    | apply Change.tr ?_ (State.modLink_frame ..) ?_
    | apply Change.tr ?_ (State.disablePort_frame ..) ?_
    | apply Change.tr ?_ (State.settlePlans_frame ..) ?_
    | apply Change.tr ?_ (State.modFabric_frame ..) ?_
    | assumption
    | split

theorem execDiscoveryResendTimer_frame (port s) : ChangeO [.out, .fabric] s (execDiscoveryResendTimer port s) := by
  unfold execDiscoveryResendTimer
  with_reducible repeat' first
    | (apply partsIn.id; with_unfolding_all rfl)
    | apply Change.refl
    | apply Change.ite ?_ ?_
    | apply ChangeO.mk ?_
    | apply Change.tr ?_ (State.sendCerts_frame ..) ?_
    | apply Change.tr ?_ (State.sendHello_frame ..) ?_

theorem execDiscoveryRetryTimer_frame (port s) : ChangeO [.free, .out, .fabric] s (execDiscoveryRetryTimer port s) := by
  unfold execDiscoveryRetryTimer
  with_reducible repeat' first
    | (apply partsIn.id; with_unfolding_all rfl)
    | apply Change.refl
    | apply Change.ite ?_ ?_
    | apply ChangeO.mk ?_
    | apply Change.tr ?_ (State.startDisc_frame ..) ?_

theorem State.instAbort_frame (s p) : Change [.out, .host, .mbox, .dict, .inst] s (State.instAbort s p) := by
  unfold State.instAbort
  with_reducible repeat' first
    | (apply partsIn.id; with_unfolding_all rfl)
    | apply Change.refl
    | apply Change.ite ?_ ?_
    | extract_lets
    | apply Change.tr ?_ (State.moduleEvent_frame ..) ?_
    | apply Change.tr ?_ (State.putSetting_frame ..) ?_
    | apply Change.forL ?_ fun _ _ _ => ?_
    | apply Change.forN ?_ fun _ _ _ => ?_
    | apply Change.foldl ?_ fun _ _ _ => ?_
    | assumption
    | split
    | apply Change.setInst ?_ (by with_unfolding_all rfl)

theorem execFdFailure_frame (k s) : ChangeO [.out, .host, .mbox, .fabric, .dict, .basins, .inst] s (execFdFailure k s) := by
  unfold execFdFailure
  refine ChangeO.mk (Change.ite Change.refl ?_)
  extract_lets t
  refine Change.tr (Change.tr ?_ (State.fdDown_frame _ _) rfl) (State.modFabric_frame _ _) rfl
  exact Change.forL Change.refl fun p u j => j.tr (State.instAbort_frame _ _) rfl

theorem execFdRestart_frame (k ok s) :
    ChangeO [.free, .out, .mem, .chans, .cores, .berths, .segs, .host, .mbox, .ctxs, .launches, .fabric, .defects,
      .streams, .basins, .snaps, .lk] s (execFdRestart k ok s) := by
  unfold execFdRestart
  with_reducible repeat' first
    | (apply partsIn.id; with_unfolding_all rfl)
    | apply Change.refl
    | apply ChangeO.ite ?_ ?_
    | apply Change.ite ?_ ?_
    | extract_lets
    | apply ChangeO.mk ?_
    | apply ChangeO.stop
    | apply Change.tr ?_ (State.fence_frame ..) ?_
    | apply Change.tr ?_ (State.modFabric_frame ..) ?_
    | apply Change.tr ?_ (State.modPort_frame ..) ?_
    | apply Change.tr ?_ (State.moduleEvent_frame ..) ?_
    | apply Change.tr ?_ (State.buildRoutes_frame ..) ?_
    | apply Change.forL ?_ fun _ _ _ => ?_
    | apply Change.forN ?_ fun _ _ _ => ?_
    | apply Change.foldl ?_ fun _ _ _ => ?_
    | assumption
    | split
    | apply Change.setBasins ?_ (by with_unfolding_all rfl)

theorem State.modInst_frame (s p f) : Change [.inst] s (State.modInst s p f) := by
  unfold State.modInst
  with_reducible repeat' first
    | apply Change.refl
    | apply Change.ite ?_ ?_
    | extract_lets
    | apply Change.forL ?_ fun _ _ _ => ?_
    | apply Change.forN ?_ fun _ _ _ => ?_
    | apply Change.foldl ?_ fun _ _ _ => ?_
    | assumption
    | split
    | apply Change.setInst ?_ (by with_unfolding_all rfl)

theorem State.laneEnds_frame (s p lane bits) : Change [.free, .inst] s (State.laneEnds s p lane bits) := by
  unfold State.laneEnds
  with_reducible repeat' first
    | (apply partsIn.id; with_unfolding_all rfl)
    | apply Change.refl
    | apply Change.tr ?_ (State.nextFree_frame ..) ?_
    | apply Change.tr ?_ (State.modInst_frame ..) ?_

theorem State.runEnds_frame (s p st) : Change [.free, .inst] s (State.runEnds s p st) := by
  unfold State.runEnds
  with_reducible repeat' first
    | (apply partsIn.id; with_unfolding_all rfl)
    | apply Change.refl
    | apply Change.ite ?_ ?_
    | apply Change.tr ?_ (State.modInst_frame ..) ?_
    | apply Change.tr ?_ (State.laneEnds_frame ..) ?_
    | apply Change.forL ?_ fun _ _ _ => ?_
    | assumption

theorem State.writeInstMode_frame (s p v) :
    Change2 [.free, .out, .host, .mbox, .fabric, .dict, .inst] s (State.writeInstMode s p v) := by
  unfold State.writeInstMode
  with_reducible repeat' first
    | (apply partsIn.id; with_unfolding_all rfl)
    | apply Change.refl
    | apply Change2.ite ?_ ?_
    | apply Change.ite ?_ ?_
    | apply Change.tr ?_ (State.modLink_frame ..) ?_
    | apply Change.tr ?_ (State.putSetting_frame ..) ?_
    | apply Change.tr ?_ (State.runEnds_frame ..) ?_
    | apply Change.tr ?_ (State.modInst_frame ..) ?_
    | apply Change.tr ?_ (State.portLost_frame ..) ?_
    | apply Change2.mk ?_

theorem execInstrModeWrite_frame (port v s) :
    ChangeO [.free, .out, .host, .mbox, .fabric, .dict, .inst] s (execInstrModeWrite port v s) := by
  unfold execInstrModeWrite
  with_reducible repeat' first
    | (apply partsIn.id; with_unfolding_all rfl)
    | apply Change.refl
    | apply Change.ite ?_ ?_
    | apply ChangeO.mk ?_
    | apply Change.byDict ?_ ?_ fun _ => ?_
    | apply Change2.tr ?_ (State.writeInstMode_frame ..) ?_

theorem State.writeInstSet_frame (s p sub v) : Change2 [.dict] s (State.writeInstSet s p sub v) := by
  unfold State.writeInstSet
  with_reducible repeat' first
    | (apply partsIn.id; with_unfolding_all rfl)
    | apply Change.refl
    | apply Change2.ite ?_ ?_
    | apply Change.tr ?_ (State.putSetting_frame ..) ?_
    | apply Change2.mk ?_

theorem State.instStart_frame (s p) : Change2 [.inst] s (State.instStart s p) := by
  unfold State.instStart
  with_reducible repeat' first
    | (apply partsIn.id; with_unfolding_all rfl)
    | apply Change.refl
    | apply Change2.ite ?_ ?_
    | apply Change.tr ?_ (State.modInst_frame ..) ?_
    | apply Change2.mk ?_

theorem State.instStop_frame (s p) : Change2 [.free, .inst] s (State.instStop s p) := by
  unfold State.instStop
  with_reducible repeat' first
    | (apply partsIn.id; with_unfolding_all rfl)
    | apply Change.refl
    | apply Change2.ite ?_ ?_
    | apply Change.tr ?_ (State.runEnds_frame ..) ?_
    | apply Change2.mk ?_

theorem State.instScan_frame (s p) : Change2 [.inst] s (State.instScan s p) := by
  unfold State.instScan
  with_reducible repeat' first
    | (apply partsIn.id; with_unfolding_all rfl)
    | apply Change.refl
    | apply Change2.ite ?_ ?_
    | apply Change.tr ?_ (State.modInst_frame ..) ?_
    | apply Change2.mk ?_

theorem State.writeInst_frame (s p sub v) :
    Change2 [.free, .out, .host, .mbox, .fabric, .dict, .inst] s (State.writeInst s p sub v) := by
  unfold State.writeInst
  with_reducible repeat' first
    | (apply partsIn.id; with_unfolding_all rfl)
    | apply Change.refl
    | apply Change2.tr ?_ (State.writeInstMode_frame ..) ?_
    | apply Change2.tr ?_ (State.instStart_frame ..) ?_
    | apply Change2.tr ?_ (State.instStop_frame ..) ?_
    | apply Change2.tr ?_ (State.instScan_frame ..) ?_
    | apply Change2.tr ?_ (State.writeInstSet_frame ..) ?_
    | split
    | apply Change2.mk ?_

theorem execInstrRunStart_frame (port s) : ChangeO [.out, .inst] s (execInstrRunStart port s) := by
  unfold execInstrRunStart
  with_reducible repeat' first
    | (apply partsIn.id; with_unfolding_all rfl)
    | apply Change.refl
    | apply Change.ite ?_ ?_
    | apply ChangeO.mk ?_
    | apply Change.byDict ?_ ?_ fun _ => ?_
    | apply Change2.tr ?_ (State.instStart_frame ..) ?_

theorem execInstrRunStop_frame (port s) : ChangeO [.free, .out, .inst] s (execInstrRunStop port s) := by
  unfold execInstrRunStop
  with_reducible repeat' first
    | (apply partsIn.id; with_unfolding_all rfl)
    | apply Change.refl
    | apply Change.ite ?_ ?_
    | apply ChangeO.mk ?_
    | apply Change.byDict ?_ ?_ fun _ => ?_
    | apply Change2.tr ?_ (State.instStop_frame ..) ?_

theorem execInstrScan_frame (port s) : ChangeO [.out, .inst] s (execInstrScan port s) := by
  unfold execInstrScan
  with_reducible repeat' first
    | (apply partsIn.id; with_unfolding_all rfl)
    | apply Change.refl
    | apply Change.ite ?_ ?_
    | apply ChangeO.mk ?_
    | apply Change.byDict ?_ ?_ fun _ => ?_
    | apply Change2.tr ?_ (State.instScan_frame ..) ?_

theorem execInstrScanDone_frame (port s) : ChangeO [.free, .out, .host, .mbox, .inst] s (execInstrScanDone port s) := by
  unfold execInstrScanDone
  with_reducible repeat' first
    | (apply partsIn.id; with_unfolding_all rfl)
    | apply Change.refl
    | apply Change.ite ?_ ?_
    | apply ChangeO.mk ?_
    | apply Change.tr ?_ (State.nextFree_frame ..) ?_
    | apply Change.tr ?_ (State.modInst_frame ..) ?_
    | apply Change.tr ?_ (State.moduleEvent_frame ..) ?_
    | apply Change.forL ?_ fun _ _ _ => ?_
    | assumption

theorem execInstrTargetReached_frame (port s) :
    ChangeO [.free, .out, .host, .mbox, .inst] s (execInstrTargetReached port s) := by
  unfold execInstrTargetReached
  with_reducible repeat' first
    | (apply partsIn.id; with_unfolding_all rfl)
    | apply Change.refl
    | apply Change.ite ?_ ?_
    | apply ChangeO.mk ?_
    | apply Change.tr ?_ (State.moduleEvent_frame ..) ?_
    | apply Change.tr ?_ (State.modInst_frame ..) ?_
    | apply Change.tr ?_ (State.laneEnds_frame ..) ?_
    | apply Change.forL ?_ fun _ _ _ => ?_
    | assumption

theorem execInstrLockLost_frame (port lane s) : ChangeO [.out, .host, .mbox, .inst] s (execInstrLockLost port lane s) := by
  unfold execInstrLockLost
  with_reducible repeat' first
    | (apply partsIn.id; with_unfolding_all rfl)
    | apply Change.refl
    | apply Change.ite ?_ ?_
    | apply ChangeO.mk ?_
    | apply Change.tr ?_ (State.modInst_frame ..) ?_
    | apply Change.tr ?_ (State.moduleEvent_frame ..) ?_

theorem State.allocEntry_frame (s e) :
    Change [.out, .chans, .groups, .hbm, .host, .mbox, .fabric, .defects, .basins, .lk, .power] s (State.allocEntry s e) := by
  unfold State.allocEntry
  with_reducible repeat' first
    | (apply partsIn.id; with_unfolding_all rfl)
    | apply Change.refl
    | apply Change.ite ?_ ?_
    | extract_lets
    | apply Change.iteFst ?_ ?_
    | apply Change.tr ?_ (State.modStack_frame ..) ?_
    | apply Change.tr ?_ (State.modChan_frame ..) ?_
    | apply Change.tr ?_ (State.modLink_frame ..) ?_
    | apply Change.tr ?_ (State.fdDown_frame ..) ?_
    | apply Change.forL ?_ fun _ _ _ => ?_
    | apply Change.forN ?_ fun _ _ _ => ?_
    | apply Change.foldl ?_ fun _ _ _ => ?_
    | assumption
    | split
    | apply Change.setGroups ?_ (by with_unfolding_all rfl)
    | apply Change.setDefects ?_ (by with_unfolding_all rfl) (by apply Part.kept_defects; rfl)
    | apply Change.setLk ?_ (by with_unfolding_all rfl)
    | apply Change.setPower ?_ (by with_unfolding_all rfl)
    | dsimp +zetaDelta only

theorem State.allocPins_frame (s) : Change [.chans] s (State.allocPins s) := by
  unfold State.allocPins
  with_reducible repeat' first
    | (apply partsIn.id; with_unfolding_all rfl)
    | apply Change.refl
    | apply Change.ite ?_ ?_
    | apply Change.tr ?_ (State.modChan_frame ..) ?_
    | apply Change.forL ?_ fun _ _ _ => ?_
    | assumption
    | split

theorem State.beginStart_frame (s kind) :
        Change [.out, .mem, .chans, .groups, .hbm, .cores, .berths, .segs, .host, .mbox, .ctxs, .launches, .launchNext,
      .fabric, .dict, .fw, .defects, .streams, .basins, .snaps, .lk, .boot, .power, .inst] s (State.beginStart s kind) := by
  unfold State.beginStart
  extract_lets dawn d f l b p s1 s2 q s3
  have h1 : Change [.out, .mem, .chans, .groups, .hbm, .cores, .berths, .segs, .host, .mbox, .ctxs, .launches, .launchNext, .fabric, .dict, .fw, .defects, .streams, .basins, .snaps, .lk, .boot, .power, .inst] s s1 := by
    refine Change.refl.setMany fun p => ?_
    cases p <;> constructor <;> first
      | exact trivial
      | exact .inl (by decide)
      | exact .inr rfl
      | exact Part.kept_same rfl
      | exact Part.kept_host rfl
      | exact Part.kept_defects rfl
      | exact fun _ => Store.ok_empty
      | exact fun _ => ⟨trivial, Nat.zero_le _⟩
      | exact fun _ _ h => absurd h List.not_mem_nil
  have h2 : Change [.out, .mem, .chans, .groups, .hbm, .cores, .berths, .segs, .host, .mbox, .ctxs, .launches, .launchNext, .fabric, .dict, .fw, .defects, .streams, .basins, .snaps, .lk, .boot, .power, .inst] s s2 :=
    (Change.foldl h1 fun e u j => j.tr (State.allocEntry_frame _ _) rfl).tr (State.allocPins_frame _) rfl
  have h3 : Change [.out, .mem, .chans, .groups, .hbm, .cores, .berths, .segs, .host, .mbox, .ctxs, .launches, .launchNext, .fabric, .dict, .fw, .defects, .streams, .basins, .snaps, .lk, .boot, .power, .inst] s s3 := h2.setPower rfl
  exact Change.ite (h3.setLk rfl) h3

theorem State.failAtStart_frame (s kind die unit sub cause) :
        Change [.free, .out, .mem, .chans, .groups, .hbm, .cores, .berths, .segs, .host, .mbox, .ctxs, .launches, .fabric,
      .dict, .fw, .defects, .streams, .basins, .snaps, .lk, .power] s (State.failAtStart s kind die unit sub cause) := by
  unfold State.failAtStart
  with_reducible repeat' first
    | (apply partsIn.id; with_unfolding_all rfl)
    | apply Change.refl
    | apply Change.ite ?_ ?_
    | extract_lets
    | apply Change.iteFst ?_ ?_
    | apply Change2.tr ?_ (State.openDetail_frame ..) ?_
    | apply Change2.of ?_ (State.openDetail_frame ..) ?_
    | apply Change.tr ?_ (State.failUnit_frame ..) ?_
    | apply Change.tr ?_ (State.substituteCore_frame ..) ?_
    | apply Change.tr ?_ (State.spareStays_frame ..) ?_
    | apply Change.tr ?_ (State.modChan_frame ..) ?_
    | apply Change.forL ?_ fun _ _ _ => ?_
    | apply Change.forN ?_ fun _ _ _ => ?_
    | apply Change.foldl ?_ fun _ _ _ => ?_
    | assumption
    | split
    | apply Change.setGroups ?_ (by with_unfolding_all rfl)

theorem execDawn_frame (s) :
    ChangeO [.out, .mem, .chans, .groups, .hbm, .cores, .berths, .segs, .host, .mbox, .ctxs, .launches, .launchNext,
      .fabric, .dict, .fw, .defects, .streams, .basins, .snaps, .lk, .boot, .power, .inst] s (execDawn s) := by
  unfold execDawn
  with_reducible repeat' first
    | (apply partsIn.id; with_unfolding_all rfl)
    | apply Change.refl
    | apply ChangeO.ite ?_ ?_
    | apply Change.ite ?_ ?_
    | extract_lets
    | apply ChangeO.mk ?_
    | apply ChangeO.stop
    | apply Change.tr ?_ (State.beginStart_frame ..) ?_
    | apply Change.forL ?_ fun _ _ _ => ?_
    | apply Change.forN ?_ fun _ _ _ => ?_
    | apply Change.foldl ?_ fun _ _ _ => ?_
    | assumption
    | split
    | apply Change.setLk ?_ (by with_unfolding_all rfl)

theorem State.writeStart_frame (s v) :
        Change2 [.out, .mem, .chans, .groups, .hbm, .cores, .berths, .segs, .host, .mbox, .ctxs, .launches, .launchNext,
      .fabric, .dict, .fw, .defects, .streams, .basins, .snaps, .lk, .boot, .power, .inst] s (State.writeStart s v) := by
  unfold State.writeStart
  with_reducible repeat' first
    | (apply partsIn.id; with_unfolding_all rfl)
    | apply Change.refl
    | apply Change.tr ?_ (State.beginStart_frame ..) ?_
    | apply Change.tr ?_ (State.dropSessions_frame ..) ?_
    | split
    | apply Change2.mk ?_

theorem execDawnRequest_frame (s) :
    ChangeO [.out, .mem, .chans, .groups, .hbm, .cores, .berths, .segs, .host, .mbox, .ctxs, .launches, .launchNext,
      .fabric, .dict, .fw, .defects, .streams, .basins, .snaps, .lk, .boot, .power, .inst] s (execDawnRequest s) := by
  unfold execDawnRequest
  with_reducible repeat' first
    | (apply partsIn.id; with_unfolding_all rfl)
    | apply Change.refl
    | apply ChangeO.mk ?_
    | apply Change.byDict ?_ ?_ fun _ => ?_
    | apply Change2.tr ?_ (State.writeStart_frame ..) ?_

theorem execFirstLight_frame (s) :
    ChangeO [.out, .mem, .chans, .groups, .hbm, .cores, .berths, .segs, .host, .mbox, .ctxs, .launches, .launchNext,
      .fabric, .dict, .fw, .defects, .streams, .basins, .snaps, .lk, .boot, .power, .inst] s (execFirstLight s) := by
  unfold execFirstLight
  with_reducible repeat' first
    | (apply partsIn.id; with_unfolding_all rfl)
    | apply Change.refl
    | apply ChangeO.mk ?_
    | apply Change.byDict ?_ ?_ fun _ => ?_
    | apply Change2.tr ?_ (State.writeStart_frame ..) ?_

theorem execStartEnd_frame (ms failed s) :
    ChangeO [.free, .out, .mem, .chans, .groups, .hbm, .cores, .berths, .segs, .host, .mbox, .ctxs, .launches, .fabric,
      .dict, .fw, .defects, .streams, .basins, .snaps, .lk, .boot, .power] s (execStartEnd ms failed s) := by
  unfold execStartEnd
  with_reducible repeat' first
    | (apply partsIn.id; with_unfolding_all rfl)
    | apply Change.refl
    | apply ChangeO.ite ?_ ?_
    | apply Change.ite ?_ ?_
    | extract_lets
    | apply ChangeO.mk ?_
    | apply ChangeO.stop
    | apply Change.iteFst ?_ ?_
    | apply Change.tr ?_ (State.failAtStart_frame ..) ?_
    | apply Change.tr ?_ (State.moduleEvent_frame ..) ?_
    | apply Change.forL ?_ fun _ _ _ => ?_
    | apply Change.forN ?_ fun _ _ _ => ?_
    | apply Change.foldl ?_ fun _ _ _ => ?_
    | assumption
    | split
    | apply Change.setBoot ?_ (by with_unfolding_all rfl)
    | apply Change.setPower ?_ (by with_unfolding_all rfl)

theorem execConfigurationRequest_frame (port f reg s) : ChangeO [.free, .out] s (execConfigurationRequest port f reg s) := by
  unfold execConfigurationRequest
  with_reducible repeat' first
    | (apply partsIn.id; with_unfolding_all rfl)
    | apply Change.refl
    | apply Change.ite ?_ ?_
    | apply ChangeO.mk ?_
    | apply Change.tr ?_ (State.emit_frame ..) ?_
    | apply Change.tr ?_ (State.nextFree_frame ..) ?_

theorem execHostPerstAsserted_frame (port s) : ChangeO [.host] s (execHostPerstAsserted port s) := by
  unfold execHostPerstAsserted
  with_reducible repeat' first
    | (apply partsIn.id; with_unfolding_all rfl)
    | apply Change.refl
    | apply Change.ite ?_ ?_
    | apply ChangeO.mk ?_
    | apply Change.tr ?_ (State.modPort_frame ..) ?_

theorem State.powerOff_frame (s cause) :
        Change [.out, .mem, .chans, .groups, .hbm, .cores, .berths, .segs, .host, .mbox, .ctxs, .launches, .launchNext,
      .fabric, .dict, .fw, .defects, .streams, .basins, .snaps, .lk, .boot, .power, .inst] s (State.powerOff s cause) := by
  unfold State.powerOff
  extract_lets t src src2
  have h : Change [.out, .mem, .chans, .groups, .hbm, .cores, .berths, .segs, .host, .mbox, .ctxs, .launches, .launchNext, .fabric, .dict, .fw, .defects, .streams, .basins, .snaps, .lk, .boot, .power, .inst] s t := Change.refl.tr (State.beginStart_frame _ _) rfl
  clear_value t
  exact h.setMany fun p => by
    cases p <;> constructor <;> first | exact trivial | exact .inl (by decide) | exact .inr rfl | exact Part.kept_same rfl | exact Part.kept_dict rfl | exact Part.kept_host rfl | exact Part.kept_defects rfl

theorem execProtectiveOff_frame (cause s) :
    ChangeO [.out, .mem, .chans, .groups, .hbm, .cores, .berths, .segs, .host, .mbox, .ctxs, .launches, .launchNext,
      .fabric, .dict, .fw, .defects, .streams, .basins, .snaps, .lk, .boot, .power, .inst] s (execProtectiveOff cause s) := by
  unfold execProtectiveOff
  with_reducible repeat' first
    | (apply partsIn.id; with_unfolding_all rfl)
    | apply Change.refl
    | apply Change.ite ?_ ?_
    | apply ChangeO.mk ?_
    | apply Change.tr ?_ (State.powerOff_frame ..) ?_

theorem execInputVoltageChange_frame (mv us s) :
    ChangeO [.out, .mem, .chans, .groups, .hbm, .cores, .berths, .segs, .host, .mbox, .ctxs, .launches, .launchNext,
      .fabric, .dict, .fw, .defects, .streams, .basins, .snaps, .lk, .boot, .power, .inst]
      s (execInputVoltageChange mv us s) := by
  unfold execInputVoltageChange
  with_reducible repeat' first
    | (apply partsIn.id; with_unfolding_all rfl)
    | apply Change.refl
    | apply ChangeO.ite ?_ ?_
    | apply Change.ite ?_ ?_
    | extract_lets
    | apply ChangeO.mk ?_
    | apply ChangeO.stop
    | apply Change.tr ?_ (State.moduleEvent_frame ..) ?_
    | apply Change.tr ?_ (State.powerOff_frame ..) ?_
    | apply Change.forL ?_ fun _ _ _ => ?_
    | apply Change.forN ?_ fun _ _ _ => ?_
    | apply Change.foldl ?_ fun _ _ _ => ?_
    | assumption
    | split
    | apply Change.setPower ?_ (by with_unfolding_all rfl)

theorem State.setLevel_frame (s r) : Change [.out, .host, .mbox, .power] s (State.setLevel s r) := by
  unfold State.setLevel
  with_reducible repeat' first
    | (apply partsIn.id; with_unfolding_all rfl)
    | apply Change.refl
    | apply Change.ite ?_ ?_
    | extract_lets
    | apply Change.tr ?_ (State.moduleEvent_frame ..) ?_
    | apply Change.forL ?_ fun _ _ _ => ?_
    | apply Change.forN ?_ fun _ _ _ => ?_
    | apply Change.foldl ?_ fun _ _ _ => ?_
    | assumption
    | split
    | apply Change.setPower ?_ (by with_unfolding_all rfl)

theorem execPowerControllerTick_frame (power current s) :
    ChangeO [.out, .host, .mbox, .power] s (execPowerControllerTick power current s) := by
  unfold execPowerControllerTick
  with_reducible repeat' first
    | (apply partsIn.id; with_unfolding_all rfl)
    | apply Change.refl
    | apply ChangeO.ite ?_ ?_
    | apply Change.ite ?_ ?_
    | extract_lets
    | apply ChangeO.mk ?_
    | apply ChangeO.stop
    | apply Change.iteFst ?_ ?_
    | apply Change.tr ?_ (State.setLevel_frame ..) ?_
    | apply Change.forL ?_ fun _ _ _ => ?_
    | apply Change.forN ?_ fun _ _ _ => ?_
    | apply Change.foldl ?_ fun _ _ _ => ?_
    | assumption
    | split
    | apply Change.setPower ?_ (by with_unfolding_all rfl)

theorem execFastCurrentLimit_frame (s) : ChangeO [.out, .host, .mbox, .power] s (execFastCurrentLimit s) := by
  unfold execFastCurrentLimit
  with_reducible repeat' first
    | (apply partsIn.id; with_unfolding_all rfl)
    | apply Change.refl
    | apply ChangeO.ite ?_ ?_
    | apply Change.ite ?_ ?_
    | extract_lets
    | apply ChangeO.mk ?_
    | apply ChangeO.stop
    | apply Change.tr ?_ (State.setLevel_frame ..) ?_
    | apply Change.forL ?_ fun _ _ _ => ?_
    | apply Change.forN ?_ fun _ _ _ => ?_
    | apply Change.foldl ?_ fun _ _ _ => ?_
    | assumption
    | split
    | apply Change.setPower ?_ (by with_unfolding_all rfl)

theorem execPhaseLost_frame (rail phase s) : ChangeO [.out, .host, .mbox, .defects, .power] s (execPhaseLost rail phase s) := by
  unfold execPhaseLost
  with_reducible repeat' first
    | (apply partsIn.id; with_unfolding_all rfl)
    | apply Change.refl
    | apply Change.ite ?_ ?_
    | apply ChangeO.mk ?_
    | apply Change.tr ?_ (State.phaseLost_frame ..) ?_

theorem State.raiseAlarm_frame (s a) : Change [.out, .host, .mbox, .power] s (State.raiseAlarm s a) := by
  unfold State.raiseAlarm
  with_reducible repeat' first
    | (apply partsIn.id; with_unfolding_all rfl)
    | apply Change.refl
    | apply Change.ite ?_ ?_
    | extract_lets
    | apply Change.iteFst ?_ ?_
    | apply Change.tr ?_ (State.moduleEvent_frame ..) ?_
    | apply Change.forL ?_ fun _ _ _ => ?_
    | apply Change.forN ?_ fun _ _ _ => ?_
    | apply Change.foldl ?_ fun _ _ _ => ?_
    | assumption
    | split
    | apply Change.setPower ?_ (by with_unfolding_all rfl)

theorem execSensorRefresh_frame (values bad s) :
    ChangeO [.out, .hbm, .host, .mbox, .power] s (execSensorRefresh values bad s) := by
  unfold execSensorRefresh
  with_reducible repeat' first
    | (apply partsIn.id; with_unfolding_all rfl)
    | apply Change.refl
    | apply ChangeO.ite ?_ ?_
    | apply Change.ite ?_ ?_
    | extract_lets
    | apply ChangeO.mk ?_
    | apply ChangeO.stop
    | apply Change.iteFst ?_ ?_
    | apply Change.tr ?_ (State.moduleEvent_frame ..) ?_
    | apply Change.tr ?_ (State.raiseAlarm_frame ..) ?_
    | apply Change.tr ?_ (State.modStack_frame ..) ?_
    | apply Change.forL ?_ fun _ _ _ => ?_
    | apply Change.forN ?_ fun _ _ _ => ?_
    | apply Change.foldl ?_ fun _ _ _ => ?_
    | assumption
    | split
    | apply Change.setPower ?_ (by with_unfolding_all rfl)

theorem execCoolantAlarmTimer_frame (inlet s) : ChangeO [.out, .host, .mbox, .power] s (execCoolantAlarmTimer inlet s) := by
  unfold execCoolantAlarmTimer
  with_reducible repeat' first
    | (apply partsIn.id; with_unfolding_all rfl)
    | apply Change.refl
    | apply Change.ite ?_ ?_
    | apply ChangeO.mk ?_
    | apply Change.tr ?_ (State.raiseAlarm_frame ..) ?_

end Sys2Proof.Machine
end

