-- ==== Sys2Proof/Laws/ChangeDictionary.lean ====
section
/-!
SUPPORT. What each operation changes and keeps: dictionary writes, Thinil, identity and the vector engine.
-/

namespace Sys2Proof.Machine

theorem State.entryRead_frame (s ix sub) : Change [.free, .power] s (State.entryRead s ix sub) := by
  unfold State.entryRead
  with_reducible repeat' first
    | apply Change.refl
    | apply Change.ite ?_ ?_
    | extract_lets
    | apply Change.forL ?_ fun _ _ _ => ?_
    | apply Change.forN ?_ fun _ _ _ => ?_
    | apply Change.foldl ?_ fun _ _ _ => ?_
    | assumption
    | split
    | apply Change.setFree ?_ (by with_unfolding_all rfl)
    | apply Change.setPower ?_ (by with_unfolding_all rfl)

theorem State.setService_frame (s x) : Change [.out, .host, .mbox, .lk] s (State.setService s x) := by
  unfold State.setService
  with_reducible repeat' first
    | (apply partsIn.id; with_unfolding_all rfl)
    | apply Change.refl
    | apply Change.ite ?_ ?_
    | extract_lets
    | apply Change.tr ?_ (State.moduleEvent_frame ..) ?_
    | apply Change.forL ?_ fun _ _ _ => ?_
    | apply Change.forN ?_ fun _ _ _ => ?_
    | apply Change.foldl ?_ fun _ _ _ => ?_
    | assumption
    | split
    | apply Change.setLk ?_ (by with_unfolding_all rfl)

theorem State.closeSession_frame (s sid) : Change [.out, .host, .mbox, .dict, .lk] s (State.closeSession s sid) := by
  unfold State.closeSession
  extract_lets src t
  have h : Change [.out, .host, .mbox, .dict, .lk] s t := Change.refl.setDict rfl fun h =>
    ⟨rising_filter _ h.1, Nat.le_trans (length_tdel_le ..) h.2⟩
  exact Change.ite (h.tr (State.setService_frame _ _) rfl) h

theorem State.modSession_frame (s sid f) : Change [.dict] s (State.modSession s sid f) := by
  unfold State.modSession
  split
  · refine Change.refl.setDict rfl fun h => ⟨rising_tset _ _ h.1, ?_⟩
    dsimp only
    rw [length_tset_found h.1 ‹_›]
    exact h.2
  · exact Change.refl

theorem State.putEntry_frame (s ix sub v) : Change2 [.dict] s (State.putEntry s ix sub v) := by
  unfold State.putEntry
  split
  · exact State.putSetting_frame _ _ _ _
  · exact State.putBlob_frame _ _ _ _

theorem State.putIf_frame (s ok ix sub v) : Change2 [.dict] s (State.putIf s ok ix sub v) := by
  unfold State.putIf
  with_reducible repeat' first
    | (apply partsIn.id; with_unfolding_all rfl)
    | apply Change.refl
    | apply Change2.ite ?_ ?_
    | apply Change2.tr ?_ (State.putEntry_frame ..) ?_
    | apply Change2.mk ?_

theorem State.writeCal_frame (s ix sub v) : Change2 [.out, .host, .mbox, .dict, .defects] s (State.writeCal s ix sub v) := by
  unfold State.writeCal
  extract_lets t d src u
  have h : Change [.out, .host, .mbox, .dict, .defects] s t := Change.refl.tr (State.putBlob_frame _ _ _ _) rfl
  refine Change.tr (t := u) ?_ (State.moduleEvent_frame _ _ _ _ _) rfl
  clear_value t
  refine h.setMany fun p => ?_
  cases p <;> constructor <;> first
    | exact trivial
    | exact .inl (by decide)
    | exact .inr rfl
    | exact Part.kept_same rfl
    | exact Part.kept_dict rfl
    | (apply Part.kept_defects; dsimp only [u, d]; split <;> rfl)

theorem State.putBase_frame (s ix sub v align unit) : Change2 [.dict] s (State.putBase s ix sub v align unit) := by
  unfold State.putBase
  with_reducible repeat' first
    | (apply partsIn.id; with_unfolding_all rfl)
    | apply Change.refl
    | apply Change2.ite ?_ ?_
    | apply Change.tr ?_ (State.putSetting_frame ..) ?_
    | apply Change2.mk ?_

theorem State.applyIdentity_frame (s sid ix sub v) :
    Change2 [.out, .host, .mbox, .dict, .defects, .lk] s (State.applyIdentity s sid ix sub v) := by
  unfold State.applyIdentity
  with_reducible repeat' first
    | (apply partsIn.id; with_unfolding_all rfl)
    | apply Change.refl
    | apply Change2.ite ?_ ?_
    | apply Change.ite ?_ ?_
    | apply Change.tr ?_ (State.setService_frame ..) ?_
    | apply Change2.tr ?_ (State.putEntry_frame ..) ?_
    | apply Change2.tr ?_ (State.writeCal_frame ..) ?_
    | apply Change2.mk ?_

theorem State.applyBerths_frame (s ix sub v) :
        Change2 [.free, .out, .mem, .chans, .hbm, .cores, .berths, .segs, .host, .mbox, .ctxs, .launches, .fabric, .dict,
      .streams, .snaps] s (State.applyBerths s ix sub v) := by
  unfold State.applyBerths
  with_reducible repeat' first
    | (apply partsIn.id; with_unfolding_all rfl)
    | apply Change.refl
    | apply Change2.tr ?_ (State.writeBerthCmd_frame ..) ?_
    | apply Change2.tr ?_ (State.putIf_frame ..) ?_
    | apply Change2.tr ?_ (State.writeJoin_frame ..) ?_
    | apply Change2.tr ?_ (State.writeSegCmd_frame ..) ?_
    | apply Change2.tr ?_ (State.writeArea_frame ..) ?_
    | apply Change2.tr ?_ (State.writeSnap_frame ..) ?_
    | apply Change2.tr ?_ (State.writeReplica_frame ..) ?_
    | apply Change2.tr ?_ (State.putEntry_frame ..) ?_
    | split
    | apply Change2.mk ?_

theorem State.applyFabric_frame (s ix sub v) :
    Change2 [.free, .out, .host, .mbox, .fabric, .dict, .inst] s (State.applyFabric s ix sub v) := by
  unfold State.applyFabric
  with_reducible repeat' first
    | (apply partsIn.id; with_unfolding_all rfl)
    | apply Change.refl
    | apply Change2.tr ?_ (State.writePlan_frame ..) ?_
    | apply Change2.tr ?_ (State.activatePlan_frame ..) ?_
    | apply Change2.tr ?_ (State.withdrawPlan_frame ..) ?_
    | apply Change2.tr ?_ (State.writeInst_frame ..) ?_
    | apply Change2.tr ?_ (State.putEntry_frame ..) ?_
    | split
    | apply Change2.mk ?_

theorem State.applyUnits_frame (s ix sub v) :
        Change2 [.free, .out, .mem, .chans, .groups, .hbm, .cores, .berths, .segs, .host, .mbox, .ctxs, .launches,
      .launchNext, .fabric, .dict, .fw, .defects, .streams, .basins, .snaps, .lk, .boot, .power, .inst]
      s (State.applyUnits s ix sub v) := by
  unfold State.applyUnits
  with_reducible repeat' first
    | (apply partsIn.id; with_unfolding_all rfl)
    | apply Change.refl
    | apply Change2.ite ?_ ?_
    | apply Change.tr ?_ (State.putBlob_frame ..) ?_
    | apply Change2.tr ?_ (State.writeStart_frame ..) ?_
    | apply Change2.tr ?_ (State.writeReadmit_frame ..) ?_
    | apply Change2.tr ?_ (State.writeDeclare_frame ..) ?_
    | apply Change2.tr ?_ (State.stageImage_frame ..) ?_
    | apply Change2.tr ?_ (State.writeFw_frame ..) ?_
    | apply Change2.tr ?_ (State.putEntry_frame ..) ?_
    | split
    | apply Change2.mk ?_

theorem State.applyKeeper_frame (s ix sub v) :
        Change2 [.free, .out, .mem, .chans, .berths, .host, .mbox, .fabric, .dict, .streams, .snaps]
      s (State.applyKeeper s ix sub v) := by
  unfold State.applyKeeper
  with_reducible repeat' first
    | (apply partsIn.id; with_unfolding_all rfl)
    | apply Change.refl
    | apply Change2.tr ?_ (State.writeRewind_frame ..) ?_
    | apply Change2.tr ?_ (State.putBase_frame ..) ?_
    | apply Change.tr ?_ (State.release_frame ..) ?_
    | apply Change2.tr ?_ (State.writeSkip_frame ..) ?_
    | apply Change2.tr ?_ (State.putEntry_frame ..) ?_
    | split
    | apply Change2.mk ?_

theorem State.applyIngest_frame (s ix sub v) : Change2 [.out, .dict, .streams] s (State.applyIngest s ix sub v) := by
  unfold State.applyIngest
  with_reducible repeat' first
    | (apply partsIn.id; with_unfolding_all rfl)
    | apply Change.refl
    | apply Change2.ite ?_ ?_
    | apply Change2.tr ?_ (State.writeEnable_frame ..) ?_
    | apply Change2.tr ?_ (State.putEntry_frame ..) ?_
    | apply Change2.mk ?_

theorem State.applyEntry_frame (s sid ix sub v) :
        Change2 [.free, .out, .mem, .chans, .groups, .hbm, .cores, .berths, .segs, .host, .mbox, .ctxs, .launches,
      .launchNext, .fabric, .dict, .fw, .defects, .streams, .basins, .snaps, .lk, .boot, .power, .inst]
      s (State.applyEntry s sid ix sub v) := by
  unfold State.applyEntry
  with_reducible repeat' first
    | (apply partsIn.id; with_unfolding_all rfl)
    | apply Change.refl
    | apply Change2.ite ?_ ?_
    | apply Change2.of ?_ (State.applyIdentity_frame ..) ?_
    | apply Change2.of ?_ (State.applyBerths_frame ..) ?_
    | apply Change2.of ?_ (State.applyFabric_frame ..) ?_
    | apply Change2.of ?_ (State.applyUnits_frame ..) ?_
    | apply Change2.of ?_ (State.applyKeeper_frame ..) ?_
    | apply Change2.of ?_ (State.applyIngest_frame ..) ?_

theorem State.writeEntry_frame (s sid x ix sub raw) :
        Change2 [.free, .out, .mem, .chans, .groups, .hbm, .cores, .berths, .segs, .host, .mbox, .ctxs, .launches,
      .launchNext, .fabric, .dict, .fw, .defects, .streams, .basins, .snaps, .lk, .boot, .power, .inst]
      s (State.writeEntry s sid x ix sub raw) := by
  unfold State.writeEntry
  with_reducible repeat' first
    | (apply partsIn.id; with_unfolding_all rfl)
    | apply Change.refl
    | apply Change2.ite ?_ ?_
    | apply Change.ite ?_ ?_
    | extract_lets
    | apply Change.iteFst ?_ ?_
    | apply Change2.tr ?_ (State.applyEntry_frame ..) ?_
    | apply Change2.of ?_ (State.applyEntry_frame ..) ?_
    | apply Change.forL ?_ fun _ _ _ => ?_
    | apply Change.forN ?_ fun _ _ _ => ?_
    | apply Change.foldl ?_ fun _ _ _ => ?_
    | assumption
    | split
    | apply Change2.mk ?_
    | apply Change.setDict ?_ (by with_unfolding_all rfl) (by apply Part.kept_dict; rfl)

theorem State.bySession_frame (s sid ix sub raw) :
        Change [.free, .out, .mem, .chans, .groups, .hbm, .cores, .berths, .segs, .host, .mbox, .ctxs, .launches,
      .launchNext, .fabric, .dict, .fw, .defects, .streams, .basins, .snaps, .lk, .boot, .power, .inst]
      s (State.bySession s sid ix sub raw) := by
  unfold State.bySession
  with_reducible repeat' first
    | (apply partsIn.id; with_unfolding_all rfl)
    | apply Change.refl
    | apply Change.byDict ?_ ?_ fun _ => ?_
    | apply Change2.tr ?_ (State.writeEntry_frame ..) ?_
    | split

theorem execServiceStateWrite_frame (session v s) :
    ChangeO [.free, .out, .mem, .chans, .groups, .hbm, .cores, .berths, .segs, .host, .mbox, .ctxs, .launches,
      .launchNext, .fabric, .dict, .fw, .defects, .streams, .basins, .snaps, .lk, .boot, .power, .inst]
      s (execServiceStateWrite session v s) := by
  unfold execServiceStateWrite
  with_reducible repeat' first
    | (apply partsIn.id; with_unfolding_all rfl)
    | apply Change.refl
    | apply ChangeO.mk ?_
    | apply Change.tr ?_ (State.bySession_frame ..) ?_

theorem execCalibrationWrite_frame (session ix sub value s) :
    ChangeO [.free, .out, .mem, .chans, .groups, .hbm, .cores, .berths, .segs, .host, .mbox, .ctxs, .launches,
      .launchNext, .fabric, .dict, .fw, .defects, .streams, .basins, .snaps, .lk, .boot, .power, .inst]
      s (execCalibrationWrite session ix sub value s) := by
  unfold execCalibrationWrite
  with_reducible repeat' first
    | (apply partsIn.id; with_unfolding_all rfl)
    | apply Change.refl
    | apply Change.ite ?_ ?_
    | apply ChangeO.mk ?_
    | apply Change.tr ?_ (State.bySession_frame ..) ?_

theorem State.readItems_frame (s sid n room b) : Change2 [.free, .power] s (State.readItems s sid n room b) := by
  induction n generalizing s room b with
  | zero => exact Change.refl
  | succ n ih =>
    unfold State.readItems
    split
    · exact Change.refl
    · extract_lets ix sub r size long code val t
      have h : Change [.free, .power] s t := Change.ite (State.entryRead_frame _ _ _) Change.refl
      exact h.tr (ih _ _ _) rfl

theorem State.thnRead_frame (s sid port b) : ChangeT [.free, .power] s (State.thnRead s sid port b) := by
  unfold State.thnRead
  extract_lets n
  exact ChangeT.ite Change.refl (State.readItems_frame _ sid n _ _)

theorem State.applyItems_frame (s sid l) :
        Change2 [.free, .out, .mem, .chans, .groups, .hbm, .cores, .berths, .segs, .host, .mbox, .ctxs, .launches,
      .launchNext, .fabric, .dict, .fw, .defects, .streams, .basins, .snaps, .lk, .boot, .power, .inst]
      s (State.applyItems s sid l) := by
  induction l generalizing s with
  | nil => exact Change.refl
  | cons i r ih =>
    unfold State.applyItems
    extract_lets w
    have h : Change [.free, .out, .mem, .chans, .groups, .hbm, .cores, .berths, .segs, .host, .mbox, .ctxs, .launches, .launchNext, .fabric, .dict, .fw, .defects, .streams, .basins, .snaps, .lk, .boot, .power, .inst] s w.2 := by
      dsimp only [w]
      split
      · exact State.writeEntry_frame _ _ _ _ _ _
      · exact Change.refl
    exact h.tr (ih _) rfl

theorem State.thnWrite_frame (s sid port b) :
        ChangeT [.free, .out, .mem, .chans, .groups, .hbm, .cores, .berths, .segs, .host, .mbox, .ctxs, .launches,
      .launchNext, .fabric, .dict, .fw, .defects, .streams, .basins, .snaps, .lk, .boot, .power, .inst]
      s (State.thnWrite s sid port b) := by
  unfold State.thnWrite
  extract_lets n
  refine ChangeT.ite Change.refl ?_
  split
  · exact Change.refl
  · exact State.applyItems_frame _ sid _

theorem State.thnReadSeg_frame (s x port b) : ChangeT [.free, .power] s (State.thnReadSeg s x port b) := by
  unfold State.thnReadSeg
  with_reducible repeat' first
    | (apply partsIn.id; with_unfolding_all rfl)
    | apply Change.refl
    | apply ChangeT.ite ?_ ?_
    | apply Change.ite ?_ ?_
    | apply Change.tr ?_ (State.entryRead_frame ..) ?_
    | apply ChangeT.mk ?_

theorem State.thnWriteSeg_frame (s sid x b) :
        ChangeT [.free, .out, .mem, .chans, .groups, .hbm, .cores, .berths, .segs, .host, .mbox, .ctxs, .launches,
      .launchNext, .fabric, .dict, .fw, .defects, .streams, .basins, .snaps, .lk, .boot, .power, .inst]
      s (State.thnWriteSeg s sid x b) := by
  unfold State.thnWriteSeg
  with_reducible repeat' first
    | (apply partsIn.id; with_unfolding_all rfl)
    | apply Change.refl
    | apply ChangeT.ite ?_ ?_
    | apply Change.tr ?_ (State.modSession_frame ..) ?_
    | apply Change2.tr ?_ (State.writeEntry_frame ..) ?_
    | split
    | apply ChangeT.mk ?_

theorem State.thnOpen_frame (s m) : Change1 [.dict] s (State.thnOpen s m) := by
  unfold State.thnOpen
  extract_lets b seq role g n x
  refine Change1.ite Change.refl (Change1.ite Change.refl ?_)
  split
  · exact Change.refl
  · refine Change.refl.setDict rfl fun h => ⟨rising_tset _ _ h.1, ?_⟩
    have := length_tset_le s.dict.sessions n x
    dsimp only
    omega

theorem State.thnDo_frame (s sid x typ body) :
        ChangeT [.free, .out, .mem, .chans, .groups, .hbm, .cores, .berths, .segs, .host, .mbox, .ctxs, .launches,
      .launchNext, .fabric, .dict, .fw, .defects, .streams, .basins, .snaps, .lk, .boot, .power, .inst]
      s (State.thnDo s sid x typ body) := by
  unfold State.thnDo
  with_reducible repeat' first
    | (apply partsIn.id; with_unfolding_all rfl)
    | apply Change.refl
    | apply ChangeT.tr ?_ (State.thnRead_frame ..) ?_
    | apply ChangeT.tr ?_ (State.thnWrite_frame ..) ?_
    | apply ChangeT.tr ?_ (State.thnReadSeg_frame ..) ?_
    | apply ChangeT.tr ?_ (State.thnWriteSeg_frame ..) ?_
    | split
    | apply ChangeT.mk ?_

theorem State.thnHandle_frame (s m) :
        Change1 [.free, .out, .mem, .chans, .groups, .hbm, .cores, .berths, .segs, .host, .mbox, .ctxs, .launches,
      .launchNext, .fabric, .dict, .fw, .defects, .streams, .basins, .snaps, .lk, .boot, .power, .inst]
      s (State.thnHandle s m) := by
  unfold State.thnHandle
  with_reducible repeat' first
    | (apply partsIn.id; with_unfolding_all rfl)
    | apply Change.refl
    | apply Change1.ite ?_ ?_
    | apply Change1.tr ?_ (State.thnOpen_frame ..) ?_
    | apply ChangeT.tr ?_ (State.thnDo_frame ..) ?_
    | apply Change.tr ?_ (State.modSession_frame ..) ?_
    | apply Change.tr ?_ (State.closeSession_frame ..) ?_
    | split
    | apply Change1.mk ?_

theorem State.thnAnswer_frame (s m ans) : Change [.out, .mbox] s (State.thnAnswer s m ans) := by
  unfold State.thnAnswer
  with_reducible repeat' first
    | (apply partsIn.id; with_unfolding_all rfl)
    | apply Change.refl
    | apply Change.ite ?_ ?_
    | apply Change.tr ?_ (State.mbReply_frame ..) ?_
    | apply Change.tr ?_ (State.emit_frame ..) ?_

theorem State.thnIn_frame (s typ port conn msg) : Change [.dict] s (State.thnIn s typ port conn msg) := by
  unfold State.thnIn
  with_reducible repeat' first
    | apply Change.refl
    | apply Change.ite ?_ ?_
    | extract_lets
    | apply Change.elim ?_ fun _ => ?_
    | apply Change.forL ?_ fun _ _ _ => ?_
    | apply Change.forN ?_ fun _ _ _ => ?_
    | apply Change.foldl ?_ fun _ _ _ => ?_
    | assumption
    | split
    | apply Change.setDict ?_ (by with_unfolding_all rfl) (by apply Part.kept_dict; rfl)

theorem execOpenSession_frame (port conn msg s) : ChangeO [.dict] s (execOpenSession port conn msg s) := by
  unfold execOpenSession
  with_reducible repeat' first
    | (apply partsIn.id; with_unfolding_all rfl)
    | apply Change.refl
    | apply ChangeO.mk ?_
    | apply Change.tr ?_ (State.thnIn_frame ..) ?_

theorem execCloseSession_frame (port conn msg s) : ChangeO [.dict] s (execCloseSession port conn msg s) := by
  unfold execCloseSession
  with_reducible repeat' first
    | (apply partsIn.id; with_unfolding_all rfl)
    | apply Change.refl
    | apply ChangeO.mk ?_
    | apply Change.tr ?_ (State.thnIn_frame ..) ?_

theorem execPing_frame (port conn msg s) : ChangeO [.dict] s (execPing port conn msg s) := by
  unfold execPing
  with_reducible repeat' first
    | (apply partsIn.id; with_unfolding_all rfl)
    | apply Change.refl
    | apply ChangeO.mk ?_
    | apply Change.tr ?_ (State.thnIn_frame ..) ?_

theorem execReadEntry_frame (port conn msg s) : ChangeO [.dict] s (execReadEntry port conn msg s) := by
  unfold execReadEntry
  with_reducible repeat' first
    | (apply partsIn.id; with_unfolding_all rfl)
    | apply Change.refl
    | apply ChangeO.mk ?_
    | apply Change.tr ?_ (State.thnIn_frame ..) ?_

theorem execWriteEntry_frame (port conn msg s) : ChangeO [.dict] s (execWriteEntry port conn msg s) := by
  unfold execWriteEntry
  with_reducible repeat' first
    | (apply partsIn.id; with_unfolding_all rfl)
    | apply Change.refl
    | apply ChangeO.mk ?_
    | apply Change.tr ?_ (State.thnIn_frame ..) ?_

theorem execReadSeg_frame (port conn msg s) : ChangeO [.dict] s (execReadSeg port conn msg s) := by
  unfold execReadSeg
  with_reducible repeat' first
    | (apply partsIn.id; with_unfolding_all rfl)
    | apply Change.refl
    | apply ChangeO.mk ?_
    | apply Change.tr ?_ (State.thnIn_frame ..) ?_

theorem execWriteSeg_frame (port conn msg s) : ChangeO [.dict] s (execWriteSeg port conn msg s) := by
  unfold execWriteSeg
  with_reducible repeat' first
    | (apply partsIn.id; with_unfolding_all rfl)
    | apply Change.refl
    | apply ChangeO.mk ?_
    | apply Change.tr ?_ (State.thnIn_frame ..) ?_

theorem State.thnTurn_frame (s m) :
        Change [.free, .out, .mem, .chans, .groups, .hbm, .cores, .berths, .segs, .host, .mbox, .ctxs, .launches,
      .launchNext, .fabric, .dict, .fw, .defects, .streams, .basins, .snaps, .lk, .boot, .power, .inst]
      s (State.thnTurn s m) := by
  unfold State.thnTurn
  with_reducible repeat' first
    | (apply partsIn.id; with_unfolding_all rfl)
    | apply Change.refl
    | apply Change.ite ?_ ?_
    | apply Change1.tr ?_ (State.thnHandle_frame ..) ?_
    | apply Change.tr ?_ (State.thnAnswer_frame ..) ?_

theorem execDictionaryTick_frame (changed s) :
    ChangeO [.free, .out, .mem, .chans, .groups, .hbm, .cores, .berths, .segs, .host, .mbox, .ctxs, .launches,
      .launchNext, .fabric, .dict, .fw, .defects, .streams, .basins, .snaps, .lk, .boot, .power, .inst]
      s (execDictionaryTick changed s) := by
  unfold execDictionaryTick
  with_reducible repeat' first
    | (apply partsIn.id; with_unfolding_all rfl)
    | apply Change.refl
    | apply ChangeO.ite ?_ ?_
    | apply Change.ite ?_ ?_
    | extract_lets
    | apply ChangeO.mk ?_
    | apply ChangeO.stop
    | apply Change.tr ?_ (State.thnTurn_frame ..) ?_
    | apply Change.forL ?_ fun _ _ _ => ?_
    | apply Change.forN ?_ fun _ _ _ => ?_
    | apply Change.foldl ?_ fun _ _ _ => ?_
    | assumption
    | split
    | apply Change.setDict ?_ (by with_unfolding_all rfl) (by apply Part.kept_dict; rfl)

theorem execSessionIdleTimeout_frame (session s) :
    ChangeO [.out, .host, .mbox, .dict, .lk] s (execSessionIdleTimeout session s) := by
  unfold execSessionIdleTimeout
  with_reducible repeat' first
    | (apply partsIn.id; with_unfolding_all rfl)
    | apply Change.refl
    | apply Change.ite ?_ ?_
    | apply ChangeO.mk ?_
    | apply Change.tr ?_ (State.closeSession_frame ..) ?_

theorem execStageTimeout_frame (session s) : ChangeO [.dict] s (execStageTimeout session s) := by
  unfold execStageTimeout
  with_reducible repeat' first
    | (apply partsIn.id; with_unfolding_all rfl)
    | apply Change.refl
    | apply ChangeO.mk ?_
    | apply Change.tr ?_ (State.modSession_frame ..) ?_

theorem execIcmpv6EchoRequest_frame (towpath port src dst payload s) :
    ChangeO [.out] s (execIcmpv6EchoRequest towpath port src dst payload s) := by
  unfold execIcmpv6EchoRequest
  with_reducible repeat' first
    | (apply partsIn.id; with_unfolding_all rfl)
    | apply Change.refl
    | apply Change.ite ?_ ?_
    | apply ChangeO.mk ?_
    | apply Change.tr ?_ (State.emit_frame ..) ?_

theorem execNeighborSolicitation_frame (towpath port src target s) :
    ChangeO [.out] s (execNeighborSolicitation towpath port src target s) := by
  unfold execNeighborSolicitation
  with_reducible repeat' first
    | (apply partsIn.id; with_unfolding_all rfl)
    | apply Change.refl
    | apply Change.ite ?_ ?_
    | apply ChangeO.mk ?_
    | apply Change.tr ?_ (State.emit_frame ..) ?_

theorem execTowpathHandshake_frame (port conn leaf chain proof s) :
    ChangeO [.out, .host, .mbox, .dict] s (execTowpathHandshake port conn leaf chain proof s) := by
  unfold execTowpathHandshake
  with_reducible repeat' first
    | (apply partsIn.id; with_unfolding_all rfl)
    | apply Change.refl
    | apply ChangeO.ite ?_ ?_
    | apply Change.ite ?_ ?_
    | extract_lets
    | apply ChangeO.mk ?_
    | apply ChangeO.stop
    | apply Change.tr ?_ (State.emit_frame ..) ?_
    | apply Change.tr ?_ (State.moduleEvent_frame ..) ?_
    | apply Change.forL ?_ fun _ _ _ => ?_
    | apply Change.forN ?_ fun _ _ _ => ?_
    | apply Change.foldl ?_ fun _ _ _ => ?_
    | assumption
    | split
    | apply Change.setDict ?_ (by with_unfolding_all rfl) (by apply Part.kept_dict; rfl)

theorem State.dropPort_frame (s port) : Change [.out, .host, .mbox, .dict, .lk] s (State.dropPort s port) := by
  unfold State.dropPort
  with_reducible repeat' first
    | (apply partsIn.id; with_unfolding_all rfl)
    | apply Change.refl
    | apply Change.ite ?_ ?_
    | extract_lets
    | apply Change.tr ?_ (State.closeSession_frame ..) ?_
    | apply Change.forL ?_ fun _ _ _ => ?_
    | apply Change.forN ?_ fun _ _ _ => ?_
    | apply Change.foldl ?_ fun _ _ _ => ?_
    | assumption
    | split
    | apply Change.setDict ?_ (by with_unfolding_all rfl) (by apply Part.kept_dict; rfl)

theorem execTowpathPortLinkChange_frame (port up s) :
    ChangeO [.out, .host, .mbox, .dict, .lk] s (execTowpathPortLinkChange port up s) := by
  unfold execTowpathPortLinkChange
  with_reducible repeat' first
    | (apply partsIn.id; with_unfolding_all rfl)
    | apply Change.refl
    | apply ChangeO.ite ?_ ?_
    | apply Change.ite ?_ ?_
    | extract_lets
    | apply ChangeO.mk ?_
    | apply ChangeO.stop
    | apply Change.tr ?_ (State.dropPort_frame ..) ?_
    | apply Change.forL ?_ fun _ _ _ => ?_
    | apply Change.forN ?_ fun _ _ _ => ?_
    | apply Change.foldl ?_ fun _ _ _ => ?_
    | assumption
    | split
    | apply Change.setDict ?_ (by with_unfolding_all rfl) (by apply Part.kept_dict; rfl)

theorem State.setPtp_frame (s p) : Change [.out, .host, .mbox, .lk] s (State.setPtp s p) := by
  unfold State.setPtp
  with_reducible repeat' first
    | (apply partsIn.id; with_unfolding_all rfl)
    | apply Change.refl
    | apply Change.ite ?_ ?_
    | extract_lets
    | apply Change.tr ?_ (State.moduleEvent_frame ..) ?_
    | apply Change.forL ?_ fun _ _ _ => ?_
    | apply Change.forN ?_ fun _ _ _ => ?_
    | apply Change.foldl ?_ fun _ _ _ => ?_
    | assumption
    | split
    | apply Change.setLk ?_ (by with_unfolding_all rfl)

theorem execPtpMessage_frame (port typ domain ns locked s) :
    ChangeO [.out, .host, .mbox, .lk] s (execPtpMessage port typ domain ns locked s) := by
  unfold execPtpMessage
  with_reducible repeat' first
    | (apply partsIn.id; with_unfolding_all rfl)
    | apply Change.refl
    | apply ChangeO.ite ?_ ?_
    | apply Change.ite ?_ ?_
    | extract_lets
    | apply ChangeO.mk ?_
    | apply ChangeO.stop
    | apply Change.tr ?_ (State.setPtp_frame ..) ?_
    | apply Change.tr ?_ (State.emit_frame ..) ?_
    | apply Change.forL ?_ fun _ _ _ => ?_
    | apply Change.forN ?_ fun _ _ _ => ?_
    | apply Change.foldl ?_ fun _ _ _ => ?_
    | assumption
    | split
    | apply Change.setLk ?_ (by with_unfolding_all rfl)

theorem execPtpMasterLost_frame (s) : ChangeO [.out, .host, .mbox, .lk] s (execPtpMasterLost s) := by
  unfold execPtpMasterLost
  with_reducible repeat' first
    | (apply partsIn.id; with_unfolding_all rfl)
    | apply Change.refl
    | apply ChangeO.mk ?_
    | apply Change.tr ?_ (State.setPtp_frame ..) ?_

theorem execSecureElement_frame (s) : ChangeO [.out, .host, .mbox, .lk] s (execSecureElement s) := by
  unfold execSecureElement
  with_reducible repeat' first
    | (apply partsIn.id; with_unfolding_all rfl)
    | apply Change.refl
    | apply ChangeO.ite ?_ ?_
    | apply Change.ite ?_ ?_
    | extract_lets
    | apply ChangeO.mk ?_
    | apply ChangeO.stop
    | apply Change.tr ?_ (State.moduleEvent_frame ..) ?_
    | apply Change.forL ?_ fun _ _ _ => ?_
    | apply Change.forN ?_ fun _ _ _ => ?_
    | apply Change.foldl ?_ fun _ _ _ => ?_
    | assumption
    | split
    | apply Change.setLk ?_ (by with_unfolding_all rfl)

theorem State.mctpSay_frame (s port args data) : Change [.out] s (State.mctpSay s port args data) := by
  unfold State.mctpSay
  with_reducible repeat' first
    | (apply partsIn.id; with_unfolding_all rfl)
    | apply Change.refl
    | apply Change.tr ?_ (State.emit_frame ..) ?_

theorem execSetEndpointId_frame (port op eid s) : ChangeO [.out, .host] s (execSetEndpointId port op eid s) := by
  unfold execSetEndpointId
  with_reducible repeat' first
    | (apply partsIn.id; with_unfolding_all rfl)
    | apply Change.refl
    | apply Change.ite ?_ ?_
    | apply ChangeO.mk ?_
    | apply Change.tr ?_ (State.mctpSay_frame ..) ?_
    | apply Change.tr ?_ (State.modPort_frame ..) ?_

theorem execGetEndpointId_frame (port s) : ChangeO [.out] s (execGetEndpointId port s) := by
  unfold execGetEndpointId
  with_reducible repeat' first
    | (apply partsIn.id; with_unfolding_all rfl)
    | apply Change.refl
    | apply Change.ite ?_ ?_
    | apply ChangeO.mk ?_
    | apply Change.tr ?_ (State.mctpSay_frame ..) ?_

theorem execGetMctpVersionSupport_frame (port typ s) : ChangeO [.out] s (execGetMctpVersionSupport port typ s) := by
  unfold execGetMctpVersionSupport
  with_reducible repeat' first
    | (apply partsIn.id; with_unfolding_all rfl)
    | apply Change.refl
    | apply Change.ite ?_ ?_
    | apply ChangeO.mk ?_
    | apply Change.tr ?_ (State.mctpSay_frame ..) ?_

theorem execGetMessageTypeSupport_frame (port s) : ChangeO [.out] s (execGetMessageTypeSupport port s) := by
  unfold execGetMessageTypeSupport
  with_reducible repeat' first
    | (apply partsIn.id; with_unfolding_all rfl)
    | apply Change.refl
    | apply Change.ite ?_ ?_
    | apply ChangeO.mk ?_
    | apply Change.tr ?_ (State.mctpSay_frame ..) ?_

theorem State.modSpdm_frame (s port f) : Change [.host] s (State.modSpdm s port f) := by
  unfold State.modSpdm
  with_reducible repeat' first
    | (apply partsIn.id; with_unfolding_all rfl)
    | apply Change.refl
    | apply Change.tr ?_ (State.modPort_frame ..) ?_

theorem State.spdmError_frame (s port code) : Change [.out] s (State.spdmError s port code) := by
  unfold State.spdmError
  with_reducible repeat' first
    | (apply partsIn.id; with_unfolding_all rfl)
    | apply Change.refl
    | apply Change.tr ?_ (State.mctpSay_frame ..) ?_

theorem execGetVersion_frame (port s) : ChangeO [.out, .host] s (execGetVersion port s) := by
  unfold execGetVersion
  with_reducible repeat' first
    | (apply partsIn.id; with_unfolding_all rfl)
    | apply Change.refl
    | apply Change.ite ?_ ?_
    | apply ChangeO.mk ?_
    | apply Change.tr ?_ (State.mctpSay_frame ..) ?_
    | apply Change.tr ?_ (State.modSpdm_frame ..) ?_

theorem execGetCapabilities_frame (port version s) : ChangeO [.out, .host] s (execGetCapabilities port version s) := by
  unfold execGetCapabilities
  with_reducible repeat' first
    | (apply partsIn.id; with_unfolding_all rfl)
    | apply Change.refl
    | apply Change.ite ?_ ?_
    | apply ChangeO.mk ?_
    | apply Change.tr ?_ (State.spdmError_frame ..) ?_
    | apply Change.tr ?_ (State.mctpSay_frame ..) ?_
    | apply Change.tr ?_ (State.modSpdm_frame ..) ?_

theorem execNegotiateAlgorithms_frame (port asym hash s) :
    ChangeO [.out, .host] s (execNegotiateAlgorithms port asym hash s) := by
  unfold execNegotiateAlgorithms
  with_reducible repeat' first
    | (apply partsIn.id; with_unfolding_all rfl)
    | apply Change.refl
    | apply Change.ite ?_ ?_
    | apply ChangeO.mk ?_
    | apply Change.tr ?_ (State.spdmError_frame ..) ?_
    | apply Change.tr ?_ (State.mctpSay_frame ..) ?_
    | apply Change.tr ?_ (State.modSpdm_frame ..) ?_

theorem execGetDigests_frame (port s) : ChangeO [.out] s (execGetDigests port s) := by
  unfold execGetDigests
  with_reducible repeat' first
    | (apply partsIn.id; with_unfolding_all rfl)
    | apply Change.refl
    | apply Change.ite ?_ ?_
    | apply ChangeO.mk ?_
    | apply Change.tr ?_ (State.spdmError_frame ..) ?_
    | apply Change.tr ?_ (State.mctpSay_frame ..) ?_

theorem execGetCertificate_frame (port slot off len s) : ChangeO [.out] s (execGetCertificate port slot off len s) := by
  unfold execGetCertificate
  with_reducible repeat' first
    | (apply partsIn.id; with_unfolding_all rfl)
    | apply Change.refl
    | apply Change.ite ?_ ?_
    | apply ChangeO.mk ?_
    | apply Change.tr ?_ (State.spdmError_frame ..) ?_
    | apply Change.tr ?_ (State.mctpSay_frame ..) ?_

theorem State.spdmSigned_frame (s port code nonce body) : Change [.free, .out] s (State.spdmSigned s port code nonce body) := by
  unfold State.spdmSigned
  with_reducible repeat' first
    | (apply partsIn.id; with_unfolding_all rfl)
    | apply Change.refl
    | apply Change.ite ?_ ?_
    | extract_lets
    | apply Change.tr ?_ (State.spdmError_frame ..) ?_
    | apply Change.tr ?_ (State.mctpSay_frame ..) ?_
    | apply Change.forL ?_ fun _ _ _ => ?_
    | apply Change.forN ?_ fun _ _ _ => ?_
    | apply Change.foldl ?_ fun _ _ _ => ?_
    | assumption
    | split
    | apply Change.setFree ?_ (by with_unfolding_all rfl)

theorem execChallenge_frame (port slot nonce s) : ChangeO [.free, .out] s (execChallenge port slot nonce s) := by
  unfold execChallenge
  with_reducible repeat' first
    | (apply partsIn.id; with_unfolding_all rfl)
    | apply Change.refl
    | apply Change.ite ?_ ?_
    | apply ChangeO.mk ?_
    | apply Change.tr ?_ (State.spdmError_frame ..) ?_
    | apply Change.tr ?_ (State.spdmSigned_frame ..) ?_

theorem execGetMeasurements_frame (port op sign nonce s) :
    ChangeO [.free, .out] s (execGetMeasurements port op sign nonce s) := by
  unfold execGetMeasurements
  with_reducible repeat' first
    | (apply partsIn.id; with_unfolding_all rfl)
    | apply Change.refl
    | apply Change.ite ?_ ?_
    | apply ChangeO.mk ?_
    | apply Change.tr ?_ (State.spdmError_frame ..) ?_
    | apply Change.tr ?_ (State.spdmSigned_frame ..) ?_
    | apply Change.tr ?_ (State.mctpSay_frame ..) ?_

theorem State.viss_frame (s t opc a b tk) :
    Change [.free, .out, .mem, .cores, .berths, .host, .mbox, .launches, .fabric] s (State.viss s t opc a b tk) := by
  unfold State.viss
  with_reducible repeat' first
    | (apply partsIn.id; with_unfolding_all rfl)
    | apply Change.refl
    | extract_lets
    | apply Change.issue ?_ fun _ => ?_
    | apply Change.tr ?_ (State.abortGroup_frame ..) ?_
    | apply Change.tr ?_ (State.next_frame ..) ?_
    | apply Change.tr ?_ (State.setCore_frame _ _ _ ?_) ?_
    | split
    | (apply CoreKept.of; rfl)

theorem execVfma_frame (t a b tk s) :
    ChangeO [.free, .out, .mem, .cores, .berths, .host, .mbox, .launches, .fabric] s (execVfma t a b tk s) := by
  unfold execVfma
  with_reducible repeat' first
    | (apply partsIn.id; with_unfolding_all rfl)
    | apply Change.refl
    | apply ChangeO.mk ?_
    | apply Change.tr ?_ (State.viss_frame ..) ?_

theorem execVadd_frame (t a b tk s) :
    ChangeO [.free, .out, .mem, .cores, .berths, .host, .mbox, .launches, .fabric] s (execVadd t a b tk s) := by
  unfold execVadd
  with_reducible repeat' first
    | (apply partsIn.id; with_unfolding_all rfl)
    | apply Change.refl
    | apply ChangeO.mk ?_
    | apply Change.tr ?_ (State.viss_frame ..) ?_

theorem execVsub_frame (t a b tk s) :
    ChangeO [.free, .out, .mem, .cores, .berths, .host, .mbox, .launches, .fabric] s (execVsub t a b tk s) := by
  unfold execVsub
  with_reducible repeat' first
    | (apply partsIn.id; with_unfolding_all rfl)
    | apply Change.refl
    | apply ChangeO.mk ?_
    | apply Change.tr ?_ (State.viss_frame ..) ?_

theorem execVmul_frame (t a b tk s) :
    ChangeO [.free, .out, .mem, .cores, .berths, .host, .mbox, .launches, .fabric] s (execVmul t a b tk s) := by
  unfold execVmul
  with_reducible repeat' first
    | (apply partsIn.id; with_unfolding_all rfl)
    | apply Change.refl
    | apply ChangeO.mk ?_
    | apply Change.tr ?_ (State.viss_frame ..) ?_

theorem execVmin_frame (t a b tk s) :
    ChangeO [.free, .out, .mem, .cores, .berths, .host, .mbox, .launches, .fabric] s (execVmin t a b tk s) := by
  unfold execVmin
  with_reducible repeat' first
    | (apply partsIn.id; with_unfolding_all rfl)
    | apply Change.refl
    | apply ChangeO.mk ?_
    | apply Change.tr ?_ (State.viss_frame ..) ?_

theorem execVmax_frame (t a b tk s) :
    ChangeO [.free, .out, .mem, .cores, .berths, .host, .mbox, .launches, .fabric] s (execVmax t a b tk s) := by
  unfold execVmax
  with_reducible repeat' first
    | (apply partsIn.id; with_unfolding_all rfl)
    | apply Change.refl
    | apply ChangeO.mk ?_
    | apply Change.tr ?_ (State.viss_frame ..) ?_

theorem execVcmp_frame (t a b tk s) :
    ChangeO [.free, .out, .mem, .cores, .berths, .host, .mbox, .launches, .fabric] s (execVcmp t a b tk s) := by
  unfold execVcmp
  with_reducible repeat' first
    | (apply partsIn.id; with_unfolding_all rfl)
    | apply Change.refl
    | apply ChangeO.mk ?_
    | apply Change.tr ?_ (State.viss_frame ..) ?_

theorem execVsel_frame (t a b tk s) :
    ChangeO [.free, .out, .mem, .cores, .berths, .host, .mbox, .launches, .fabric] s (execVsel t a b tk s) := by
  unfold execVsel
  with_reducible repeat' first
    | (apply partsIn.id; with_unfolding_all rfl)
    | apply Change.refl
    | apply ChangeO.mk ?_
    | apply Change.tr ?_ (State.viss_frame ..) ?_

theorem execVbcast_frame (t a b tk s) :
    ChangeO [.free, .out, .mem, .cores, .berths, .host, .mbox, .launches, .fabric] s (execVbcast t a b tk s) := by
  unfold execVbcast
  with_reducible repeat' first
    | (apply partsIn.id; with_unfolding_all rfl)
    | apply Change.refl
    | apply ChangeO.mk ?_
    | apply Change.tr ?_ (State.viss_frame ..) ?_

theorem execViadd_frame (t a b tk s) :
    ChangeO [.free, .out, .mem, .cores, .berths, .host, .mbox, .launches, .fabric] s (execViadd t a b tk s) := by
  unfold execViadd
  with_reducible repeat' first
    | (apply partsIn.id; with_unfolding_all rfl)
    | apply Change.refl
    | apply ChangeO.mk ?_
    | apply Change.tr ?_ (State.viss_frame ..) ?_

theorem execVisub_frame (t a b tk s) :
    ChangeO [.free, .out, .mem, .cores, .berths, .host, .mbox, .launches, .fabric] s (execVisub t a b tk s) := by
  unfold execVisub
  with_reducible repeat' first
    | (apply partsIn.id; with_unfolding_all rfl)
    | apply Change.refl
    | apply ChangeO.mk ?_
    | apply Change.tr ?_ (State.viss_frame ..) ?_

theorem execVimul_frame (t a b tk s) :
    ChangeO [.free, .out, .mem, .cores, .berths, .host, .mbox, .launches, .fabric] s (execVimul t a b tk s) := by
  unfold execVimul
  with_reducible repeat' first
    | (apply partsIn.id; with_unfolding_all rfl)
    | apply Change.refl
    | apply ChangeO.mk ?_
    | apply Change.tr ?_ (State.viss_frame ..) ?_

theorem execVand_frame (t a b tk s) :
    ChangeO [.free, .out, .mem, .cores, .berths, .host, .mbox, .launches, .fabric] s (execVand t a b tk s) := by
  unfold execVand
  with_reducible repeat' first
    | (apply partsIn.id; with_unfolding_all rfl)
    | apply Change.refl
    | apply ChangeO.mk ?_
    | apply Change.tr ?_ (State.viss_frame ..) ?_

theorem execVor_frame (t a b tk s) :
    ChangeO [.free, .out, .mem, .cores, .berths, .host, .mbox, .launches, .fabric] s (execVor t a b tk s) := by
  unfold execVor
  with_reducible repeat' first
    | (apply partsIn.id; with_unfolding_all rfl)
    | apply Change.refl
    | apply ChangeO.mk ?_
    | apply Change.tr ?_ (State.viss_frame ..) ?_

theorem execVxor_frame (t a b tk s) :
    ChangeO [.free, .out, .mem, .cores, .berths, .host, .mbox, .launches, .fabric] s (execVxor t a b tk s) := by
  unfold execVxor
  with_reducible repeat' first
    | (apply partsIn.id; with_unfolding_all rfl)
    | apply Change.refl
    | apply ChangeO.mk ?_
    | apply Change.tr ?_ (State.viss_frame ..) ?_

theorem execVshl_frame (t a b tk s) :
    ChangeO [.free, .out, .mem, .cores, .berths, .host, .mbox, .launches, .fabric] s (execVshl t a b tk s) := by
  unfold execVshl
  with_reducible repeat' first
    | (apply partsIn.id; with_unfolding_all rfl)
    | apply Change.refl
    | apply ChangeO.mk ?_
    | apply Change.tr ?_ (State.viss_frame ..) ?_

theorem execVshr_frame (t a b tk s) :
    ChangeO [.free, .out, .mem, .cores, .berths, .host, .mbox, .launches, .fabric] s (execVshr t a b tk s) := by
  unfold execVshr
  with_reducible repeat' first
    | (apply partsIn.id; with_unfolding_all rfl)
    | apply Change.refl
    | apply ChangeO.mk ?_
    | apply Change.tr ?_ (State.viss_frame ..) ?_

theorem execVsar_frame (t a b tk s) :
    ChangeO [.free, .out, .mem, .cores, .berths, .host, .mbox, .launches, .fabric] s (execVsar t a b tk s) := by
  unfold execVsar
  with_reducible repeat' first
    | (apply partsIn.id; with_unfolding_all rfl)
    | apply Change.refl
    | apply ChangeO.mk ?_
    | apply Change.tr ?_ (State.viss_frame ..) ?_

theorem execVimin_frame (t a b tk s) :
    ChangeO [.free, .out, .mem, .cores, .berths, .host, .mbox, .launches, .fabric] s (execVimin t a b tk s) := by
  unfold execVimin
  with_reducible repeat' first
    | (apply partsIn.id; with_unfolding_all rfl)
    | apply Change.refl
    | apply ChangeO.mk ?_
    | apply Change.tr ?_ (State.viss_frame ..) ?_

theorem execVimax_frame (t a b tk s) :
    ChangeO [.free, .out, .mem, .cores, .berths, .host, .mbox, .launches, .fabric] s (execVimax t a b tk s) := by
  unfold execVimax
  with_reducible repeat' first
    | (apply partsIn.id; with_unfolding_all rfl)
    | apply Change.refl
    | apply ChangeO.mk ?_
    | apply Change.tr ?_ (State.viss_frame ..) ?_

theorem execVgacc_frame (t a b tk s) :
    ChangeO [.free, .out, .mem, .cores, .berths, .host, .mbox, .launches, .fabric] s (execVgacc t a b tk s) := by
  unfold execVgacc
  with_reducible repeat' first
    | (apply partsIn.id; with_unfolding_all rfl)
    | apply Change.refl
    | apply ChangeO.mk ?_
    | apply Change.tr ?_ (State.viss_frame ..) ?_

theorem execVexp2_frame (t a b tk s) :
    ChangeO [.free, .out, .mem, .cores, .berths, .host, .mbox, .launches, .fabric] s (execVexp2 t a b tk s) := by
  unfold execVexp2
  with_reducible repeat' first
    | (apply partsIn.id; with_unfolding_all rfl)
    | apply Change.refl
    | apply ChangeO.mk ?_
    | apply Change.tr ?_ (State.viss_frame ..) ?_

theorem execVlog2_frame (t a b tk s) :
    ChangeO [.free, .out, .mem, .cores, .berths, .host, .mbox, .launches, .fabric] s (execVlog2 t a b tk s) := by
  unfold execVlog2
  with_reducible repeat' first
    | (apply partsIn.id; with_unfolding_all rfl)
    | apply Change.refl
    | apply ChangeO.mk ?_
    | apply Change.tr ?_ (State.viss_frame ..) ?_

theorem execVrcp_frame (t a b tk s) :
    ChangeO [.free, .out, .mem, .cores, .berths, .host, .mbox, .launches, .fabric] s (execVrcp t a b tk s) := by
  unfold execVrcp
  with_reducible repeat' first
    | (apply partsIn.id; with_unfolding_all rfl)
    | apply Change.refl
    | apply ChangeO.mk ?_
    | apply Change.tr ?_ (State.viss_frame ..) ?_

theorem execVrsqrt_frame (t a b tk s) :
    ChangeO [.free, .out, .mem, .cores, .berths, .host, .mbox, .launches, .fabric] s (execVrsqrt t a b tk s) := by
  unfold execVrsqrt
  with_reducible repeat' first
    | (apply partsIn.id; with_unfolding_all rfl)
    | apply Change.refl
    | apply ChangeO.mk ?_
    | apply Change.tr ?_ (State.viss_frame ..) ?_

theorem execVsqrt_frame (t a b tk s) :
    ChangeO [.free, .out, .mem, .cores, .berths, .host, .mbox, .launches, .fabric] s (execVsqrt t a b tk s) := by
  unfold execVsqrt
  with_reducible repeat' first
    | (apply partsIn.id; with_unfolding_all rfl)
    | apply Change.refl
    | apply ChangeO.mk ?_
    | apply Change.tr ?_ (State.viss_frame ..) ?_

theorem execVperm_frame (t a b tk s) :
    ChangeO [.free, .out, .mem, .cores, .berths, .host, .mbox, .launches, .fabric] s (execVperm t a b tk s) := by
  unfold execVperm
  with_reducible repeat' first
    | (apply partsIn.id; with_unfolding_all rfl)
    | apply Change.refl
    | apply ChangeO.mk ?_
    | apply Change.tr ?_ (State.viss_frame ..) ?_

theorem execVperm2_frame (t a b tk s) :
    ChangeO [.free, .out, .mem, .cores, .berths, .host, .mbox, .launches, .fabric] s (execVperm2 t a b tk s) := by
  unfold execVperm2
  with_reducible repeat' first
    | (apply partsIn.id; with_unfolding_all rfl)
    | apply Change.refl
    | apply ChangeO.mk ?_
    | apply Change.tr ?_ (State.viss_frame ..) ?_

theorem execVshuf_frame (t a b tk s) :
    ChangeO [.free, .out, .mem, .cores, .berths, .host, .mbox, .launches, .fabric] s (execVshuf t a b tk s) := by
  unfold execVshuf
  with_reducible repeat' first
    | (apply partsIn.id; with_unfolding_all rfl)
    | apply Change.refl
    | apply ChangeO.mk ?_
    | apply Change.tr ?_ (State.viss_frame ..) ?_

theorem execVpack_frame (t a b tk s) :
    ChangeO [.free, .out, .mem, .cores, .berths, .host, .mbox, .launches, .fabric] s (execVpack t a b tk s) := by
  unfold execVpack
  with_reducible repeat' first
    | (apply partsIn.id; with_unfolding_all rfl)
    | apply Change.refl
    | apply ChangeO.mk ?_
    | apply Change.tr ?_ (State.viss_frame ..) ?_

theorem execVunpack_frame (t a b tk s) :
    ChangeO [.free, .out, .mem, .cores, .berths, .host, .mbox, .launches, .fabric] s (execVunpack t a b tk s) := by
  unfold execVunpack
  with_reducible repeat' first
    | (apply partsIn.id; with_unfolding_all rfl)
    | apply Change.refl
    | apply ChangeO.mk ?_
    | apply Change.tr ?_ (State.viss_frame ..) ?_

theorem execVcvt_frame (t a b tk s) :
    ChangeO [.free, .out, .mem, .cores, .berths, .host, .mbox, .launches, .fabric] s (execVcvt t a b tk s) := by
  unfold execVcvt
  with_reducible repeat' first
    | (apply partsIn.id; with_unfolding_all rfl)
    | apply Change.refl
    | apply ChangeO.mk ?_
    | apply Change.tr ?_ (State.viss_frame ..) ?_

theorem execVmxq_frame (t a b tk s) :
    ChangeO [.free, .out, .mem, .cores, .berths, .host, .mbox, .launches, .fabric] s (execVmxq t a b tk s) := by
  unfold execVmxq
  with_reducible repeat' first
    | (apply partsIn.id; with_unfolding_all rfl)
    | apply Change.refl
    | apply ChangeO.mk ?_
    | apply Change.tr ?_ (State.viss_frame ..) ?_

theorem execVrstat_frame (t a b tk s) :
    ChangeO [.free, .out, .mem, .cores, .berths, .host, .mbox, .launches, .fabric] s (execVrstat t a b tk s) := by
  unfold execVrstat
  with_reducible repeat' first
    | (apply partsIn.id; with_unfolding_all rfl)
    | apply Change.refl
    | apply ChangeO.mk ?_
    | apply Change.tr ?_ (State.viss_frame ..) ?_

theorem execVaddr_frame (t a b tk s) :
    ChangeO [.free, .out, .mem, .cores, .berths, .host, .mbox, .launches, .fabric] s (execVaddr t a b tk s) := by
  unfold execVaddr
  with_reducible repeat' first
    | (apply partsIn.id; with_unfolding_all rfl)
    | apply Change.refl
    | apply ChangeO.mk ?_
    | apply Change.tr ?_ (State.viss_frame ..) ?_

theorem execVamaxput_frame (t a b tk s) :
    ChangeO [.free, .out, .mem, .cores, .berths, .host, .mbox, .launches, .fabric] s (execVamaxput t a b tk s) := by
  unfold execVamaxput
  with_reducible repeat' first
    | (apply partsIn.id; with_unfolding_all rfl)
    | apply Change.refl
    | apply ChangeO.mk ?_
    | apply Change.tr ?_ (State.viss_frame ..) ?_

theorem execVkhist_frame (t a b tk s) :
    ChangeO [.free, .out, .mem, .cores, .berths, .host, .mbox, .launches, .fabric] s (execVkhist t a b tk s) := by
  unfold execVkhist
  with_reducible repeat' first
    | (apply partsIn.id; with_unfolding_all rfl)
    | apply Change.refl
    | apply ChangeO.mk ?_
    | apply Change.tr ?_ (State.viss_frame ..) ?_

theorem execVksel_frame (t a b tk s) :
    ChangeO [.free, .out, .mem, .cores, .berths, .host, .mbox, .launches, .fabric] s (execVksel t a b tk s) := by
  unfold execVksel
  with_reducible repeat' first
    | (apply partsIn.id; with_unfolding_all rfl)
    | apply Change.refl
    | apply ChangeO.mk ?_
    | apply Change.tr ?_ (State.viss_frame ..) ?_

theorem execVldr_frame (t a b tk s) :
    ChangeO [.free, .out, .mem, .cores, .berths, .host, .mbox, .launches, .fabric] s (execVldr t a b tk s) := by
  unfold execVldr
  with_reducible repeat' first
    | (apply partsIn.id; with_unfolding_all rfl)
    | apply Change.refl
    | apply ChangeO.mk ?_
    | apply Change.tr ?_ (State.viss_frame ..) ?_

theorem execVstr_frame (t a b tk s) :
    ChangeO [.free, .out, .mem, .cores, .berths, .host, .mbox, .launches, .fabric] s (execVstr t a b tk s) := by
  unfold execVstr
  with_reducible repeat' first
    | (apply partsIn.id; with_unfolding_all rfl)
    | apply Change.refl
    | apply ChangeO.mk ?_
    | apply Change.tr ?_ (State.viss_frame ..) ?_

theorem execVtiesum_frame (t a b tk s) :
    ChangeO [.free, .out, .mem, .cores, .berths, .host, .mbox, .launches, .fabric] s (execVtiesum t a b tk s) := by
  unfold execVtiesum
  with_reducible repeat' first
    | (apply partsIn.id; with_unfolding_all rfl)
    | apply Change.refl
    | apply ChangeO.mk ?_
    | apply Change.tr ?_ (State.viss_frame ..) ?_

theorem execVectorOpStart_frame (core id s) :
    ChangeO [.free, .out, .mem, .cores, .berths, .host, .mbox, .launches, .fabric] s (execVectorOpStart core id s) := by
  unfold execVectorOpStart
  with_reducible repeat' first
    | (apply partsIn.id; with_unfolding_all rfl)
    | apply Change.refl
    | apply Change.ite ?_ ?_
    | apply ChangeO.mk ?_
    | apply Change.tr ?_ (State.abortLaunch_frame ..) ?_
    | apply Change.tr ?_ (State.setCore_frame _ _ _ ?_) ?_
    | split
    | (apply CoreKept.of; rfl)

theorem State.tieAll_frame (s core b e) : Change [.out, .mem, .cores, .berths, .host, .mbox, .fabric] s (State.tieAll s core b e) := by
  unfold State.tieAll
  with_reducible repeat' first
    | (apply partsIn.id; with_unfolding_all rfl)
    | apply Change.refl
    | apply Change.ite ?_ ?_
    | apply Change1.tr ?_ (State.tieRun_frame ..) ?_
    | apply Change.tr ?_ (State.count_frame ..) ?_
    | apply Change.tr ?_ (State.modCore_frame _ _ _ ?_) ?_
    | (apply CoreKept.mk; intro h; exact Store.ok_write _ _ _ h)

theorem State.vopAll_frame (s core b e) : Change1 [.out, .mem, .cores, .berths, .host, .mbox, .fabric] s (State.vopAll s core b e) := by
  unfold State.vopAll
  with_reducible repeat' first
    | (apply partsIn.id; with_unfolding_all rfl)
    | apply Change.refl
    | apply Change1.ite ?_ ?_
    | apply Change.tr ?_ (State.runAmaxPut_frame ..) ?_
    | apply Change.tr ?_ (State.tieAll_frame ..) ?_
    | apply Change1.tr ?_ (State.vopRun_frame ..) ?_
    | apply Change1.mk ?_

theorem execVectorOpComplete_frame (core id residues s) :
    ChangeO [.free, .out, .mem, .cores, .berths, .host, .mbox, .launches, .defects, .fabric]
      s (execVectorOpComplete core id residues s) := by
  unfold execVectorOpComplete
  with_reducible repeat' first
    | (apply partsIn.id; with_unfolding_all rfl)
    | apply Change.refl
    | apply ChangeO.ite ?_ ?_
    | apply Change.ite ?_ ?_
    | extract_lets
    | apply ChangeO.mk ?_
    | apply ChangeO.stop
    | apply Change.iteFst ?_ ?_
    | apply Change1.tr ?_ (State.vopAll_frame ..) ?_
    | apply Change1.of ?_ (State.vopAll_frame ..) ?_
    | apply Change.tr ?_ (State.modCore_frame _ _ _ ?_) ?_
    | apply Change.tr ?_ (State.nextFree_frame ..) ?_
    | apply Change.tr ?_ (State.abortLaunch_frame ..) ?_
    | apply Change.tr ?_ (State.signal_frame ..) ?_
    | apply Change.forL ?_ fun _ _ _ => ?_
    | apply Change.forN ?_ fun _ _ _ => ?_
    | apply Change.foldl ?_ fun _ _ _ => ?_
    | assumption
    | split
    | (apply CoreKept.of; rfl)
    | apply Change.setDefects ?_ (by with_unfolding_all rfl) (by apply Part.kept_defects; rfl)

end Sys2Proof.Machine
end

