-- ==== Sys2Proof/WellFormed.lean ====
section
/-!
DEFINITION. Which commands are well formed: their operands name parts that the module has (01_module_at_a_glance.md and the
owning chapters' ranges). A command that is not well formed names no
part of the module; exec still answers it, by the meaning of the parts that its operands select.
-/

namespace Sys2Proof

/-- A core index below 384 and a thread group below 64 (01 R27, 07 R185). -/
def At.ok (t : At) : Bool := decide (t.core < 384) && decide (t.group < 64)

/-- Whether a command's operands are in their ranges. -/
def Instr.wf : Instr → Bool
  | .nop t _ => t.ok
  | .mov t _ => t.ok
  | .movi t _ _ => t.ok
  | .movhi t _ _ => t.ok
  | .movsp t _ => t.ok
  | .iadd t _ => t.ok
  | .isub t _ => t.ok
  | .imul t _ => t.ok
  | .imulhu t _ => t.ok
  | .imad t _ => t.ok
  | .imin t _ => t.ok
  | .imax t _ => t.ok
  | .andb t _ => t.ok
  | .orb t _ => t.ok
  | .xorb t _ => t.ok
  | .shl t _ => t.ok
  | .shr t _ => t.ok
  | .sar t _ => t.ok
  | .popc t _ => t.ok
  | .clz t _ => t.ok
  | .iset t _ => t.ok
  | .sel t _ => t.ok
  | .fadd t _ => t.ok
  | .fsub t _ => t.ok
  | .fmul t _ => t.ok
  | .ffma t _ => t.ok
  | .fmin t _ => t.ok
  | .fmax t _ => t.ok
  | .fset t _ => t.ok
  | .i2f t _ => t.ok
  | .f2i t _ => t.ok
  | .vote t _ => t.ok
  | .v2s t _ => t.ok
  | .shfl t _ => t.ok
  | .miss t _ _ => t.ok
  | .matrixStart core _ => decide (core < 384)
  | .ringSegmentFilled core _ => decide (core < 384)
  | .gatherWaitExpiry core _ => decide (core < 384)
  | .matrixComplete core _ _ => decide (core < 384)
  | .vfma t _ _ _ => t.ok
  | .vadd t _ _ _ => t.ok
  | .vsub t _ _ _ => t.ok
  | .vmul t _ _ _ => t.ok
  | .vmin t _ _ _ => t.ok
  | .vmax t _ _ _ => t.ok
  | .vcmp t _ _ _ => t.ok
  | .vsel t _ _ _ => t.ok
  | .vbcast t _ _ _ => t.ok
  | .viadd t _ _ _ => t.ok
  | .visub t _ _ _ => t.ok
  | .vimul t _ _ _ => t.ok
  | .vand t _ _ _ => t.ok
  | .vor t _ _ _ => t.ok
  | .vxor t _ _ _ => t.ok
  | .vshl t _ _ _ => t.ok
  | .vshr t _ _ _ => t.ok
  | .vsar t _ _ _ => t.ok
  | .vimin t _ _ _ => t.ok
  | .vimax t _ _ _ => t.ok
  | .vgacc t _ _ _ => t.ok
  | .vexp2 t _ _ _ => t.ok
  | .vlog2 t _ _ _ => t.ok
  | .vrcp t _ _ _ => t.ok
  | .vrsqrt t _ _ _ => t.ok
  | .vsqrt t _ _ _ => t.ok
  | .vperm t _ _ _ => t.ok
  | .vperm2 t _ _ _ => t.ok
  | .vshuf t _ _ _ => t.ok
  | .vpack t _ _ _ => t.ok
  | .vunpack t _ _ _ => t.ok
  | .vcvt t _ _ _ => t.ok
  | .vmxq t _ _ _ => t.ok
  | .vrstat t _ _ _ => t.ok
  | .vaddr t _ _ _ => t.ok
  | .vamaxput t _ _ _ => t.ok
  | .vkhist t _ _ _ => t.ok
  | .vksel t _ _ _ => t.ok
  | .vldr t _ _ _ => t.ok
  | .vstr t _ _ _ => t.ok
  | .vtiesum t _ _ _ => t.ok
  | .vectorOpStart core _ => decide (core < 384)
  | .vectorOpComplete core _ _ => decide (core < 384)
  | .ld t _ _ => t.ok
  | .st t _ => t.ok
  | .lds t _ _ => t.ok
  | .sts t _ => t.ok
  | .atomAdd t _ => t.ok
  | .atomSmin t _ => t.ok
  | .atomSmax t _ => t.ok
  | .atomUmin t _ => t.ok
  | .atomUmax t _ => t.ok
  | .atomAnd t _ => t.ok
  | .atomOr t _ => t.ok
  | .atomXor t _ => t.ok
  | .atomExch t _ => t.ok
  | .atomCas t _ => t.ok
  | .atomFadd t _ => t.ok
  | .atomXadd t _ => t.ok
  | .loadDataReturn core _ _ => decide (core < 384)
  | .atomicReturn core _ => decide (core < 384)
  | .fence t _ => t.ok
  | .fenceComplete t => t.ok
  | .bar t _ _ _ _ _ => t.ok
  | .bra t _ => t.ok
  | .brs t _ _ _ => t.ok
  | .brc t _ _ _ _ => t.ok
  | .jmps t _ => t.ok
  | .waitc t _ _ => t.ok
  | .exitPath t => t.ok
  | .trap t _ => t.ok
  | .forwardProgressCheck core => decide (core < 384)
  | .kernelStart core => decide (core < 384)
  | .kernelEnd core => decide (core < 384)
  | .homeAccept core _ => decide (core < 384)
  | .channelRead _ _ _ _ => true
  | .channelWrite _ _ _ _ => true
  | .memsideAdd _ _ _ _ _ _ _ => true
  | .wcbPartialDrain n l _ _ _ => decide (n < 24) && decide (l < 1024)
  | .wcbWriteRun n l => decide (n < 24) && decide (l < 1024)
  | .refresh n l => decide (n < 24) && decide (l < 1024)
  | .patrolScrub _ _ _ => true
  | .spareCopyStart n l => decide (n < 24) && decide (l < 1024)
  | .spareCopyDone n l _ => decide (n < 24) && decide (l < 1024)
  | .copyBackDone n l => decide (n < 24) && decide (l < 1024)
  | .retrainDue n l => decide (n < 24) && decide (l < 1024)
  | .retrainDone n l _ => decide (n < 24) && decide (l < 1024)
  | .channelRelocationDone n l => decide (n < 24) && decide (l < 1024)
  | .channelStatusRead n l => decide (n < 24) && decide (l < 1024)
  | .stepBoundary b => decide (b < 24)
  | .holdRelease b => decide (b < 24)
  | .postRegisterWrite die _ => decide (die < 24)
  | .exchPostTake die => decide (die < 24)
  | .exchPacketArrival die _ => decide (die < 24)
  | .exchResultArrival die _ => decide (die < 24)
  | .exchDeadline die _ => decide (die < 24)
  | .dataFlitReceive port flit _ => decide (port < 24) && flit.length == 64
  | .ackFlit port flit => decide (port < 24) && flit.length == 64
  | .creditFlit port flit => decide (port < 24) && flit.length == 64
  | .replayFlit port flit => decide (port < 24) && flit.length == 64
  | .laneCtl port flit => decide (port < 24) && flit.length == 64
  | .linkControlTimer port => decide (port < 24)
  | .laneSwitch port _ => decide (port < 24)
  | .laneRetire port lane _ => decide (port < 24) && decide (lane ≤ 8)
  | .portLinkUp port _ => decide (port < 24)
  | .hello _ => true
  | .cert _ => true
  | .discoveryChallenge _ => true
  | .proof _ => true
  | .discoveryResendTimer port => decide (port < 24)
  | .discoveryRetryTimer port => decide (port < 24)
  | .cutPlanWrite slot plan => decide (1 ≤ slot) && decide (slot ≤ 32) && decide (64 ≤ plan.length) && decide (plan.length ≤ 1088)
  | .cutPlanActivate slot => decide (1 ≤ slot) && decide (slot ≤ 32)
  | .cutPlanWithdraw slot => decide (1 ≤ slot) && decide (slot ≤ 32)
  | .discoveryWaitExpiry slot => decide (1 ≤ slot) && decide (slot ≤ 32)
  | .routeBuild => true
  | .frameTransit _ _ => true
  | .readRequest _ _ => true
  | .writeRequest _ _ => true
  | .atomicRequest _ _ => true
  | .readResponse _ => true
  | .writeAtomicResponse _ => true
  | .remoteRetransmit _ _ _ => true
  | .remoteTimeout _ _ _ => true
  | .windowEntryWrite w _ => decide (w < 131072)
  | .fdFailure k => decide (k < 8)
  | .fdRestart k _ => decide (k < 8)
  | .streamFrameArrival port src _ _ _ _ => decide (port < 4) && src.length == 16
  | .gapWaitExpiry b strm _ => decide (b < 24) && decide (strm < 16)
  | .ackPeriodEnd b strm => decide (b < 24) && decide (strm < 16)
  | .sluiceRepeatTimer b strm => decide (b < 24) && decide (strm < 16)
  | .streamEnable b strm _ => decide (b < 24) && decide (strm < 16)
  | .streamDisable b strm => decide (b < 24) && decide (strm < 16)
  | .takeCmd b q => decide (b < 24) && decide (q < 16384)
  | .takeContinue b => decide (b < 24)
  | .takeWait b => decide (b < 24)
  | .berthRewind b _ => decide (b < 24)
  | .skipWindowWrite b w _ _ => decide (b < 24) && decide (1 ≤ w) && decide (w ≤ 16)
  | .feed b q => decide (b < 24) && decide (q < 16384)
  | .icmpv6EchoRequest towpath port src dst _ => decide (port < if towpath then 2 else 4) && src.length == 16 && dst.length == 16
  | .neighborSolicitation towpath port src target => decide (port < if towpath then 2 else 4) && src.length == 16 && target.length == 16
  | .berthCreate b => decide (b < 24)
  | .berthCreateDone b => decide (b < 24)
  | .berthResize b => decide (b < 24)
  | .berthResizeDone b => decide (b < 24)
  | .berthResetRequest b => decide (b < 24)
  | .berthResetDone b => decide (b < 24)
  | .berthDusk b => decide (b < 24)
  | .duskGraceExpiry b => decide (b < 24)
  | .duskDone b => decide (b < 24)
  | .shrinkAcknowledge b => decide (b < 24)
  | .segDefine k => decide (k < 64)
  | .segSeal k => decide (k < 64)
  | .segDelete k => decide (k < 64)
  | .segReshadow k => decide (k < 64)
  | .reshadowDone k _ => decide (k < 64)
  | .segmentJoinWrite b _ => decide (b < 24)
  | .dieFence _ die _ _ => decide (die < 32)
  | .qdbQueueWrite f _ => decide (f < 25)
  | .qdbDoorbell f _ _ => decide (f < 25)
  | .bargeGive f _ => decide (f < 25)
  | .functionCounterRead f _ _ => decide (f < 25)
  | .mailboxSubmit m port _ _ _ => decide (m < 128) && decide (port < 2)
  | .mailboxAnswer b m _ _ => decide (b < 24) && decide (m < 128)
  | .dblSet b m _ => decide (b < 24) && decide (m < 128)
  | .dblClear m _ => decide (m < 128)
  | .dblMaskWrite m _ => decide (m < 128)
  | .collideClear m => decide (m < 128)
  | .collisionsRead m => decide (m < 128)
  | .ctxCreate m => decide (m < 128)
  | .ctxAbandon m => decide (m < 128)
  | .queueCreate m => decide (m < 128)
  | .queueDestroy m => decide (m < 128)
  | .queueStop m => decide (m < 128)
  | .queueStart m => decide (m < 128)
  | .objCreate m => decide (m < 128)
  | .objImport m => decide (m < 128)
  | .objRelease m => decide (m < 128)
  | .evtCreate m => decide (m < 128)
  | .evtImport m => decide (m < 128)
  | .evtRelease m => decide (m < 128)
  | .evtQuery m => decide (m < 128)
  | .evtSignal m => decide (m < 128)
  | .bargeSetup m => decide (m < 128)
  | .noticeSetup m => decide (m < 128)
  | .resumeBerth m => decide (m < 128)
  | .resetBerth m => decide (m < 128)
  | .mapPages m => decide (m < 128)
  | .unmapPages m => decide (m < 128)
  | .mbAssign m => decide (m < 128)
  | .segLoad m => decide (m < 128)
  | .slotGrant b q => decide (b < 24) && decide (q < 16384)
  | .mark b q => decide (b < 24) && decide (q < 16384)
  | .launch b q => decide (b < 24) && decide (q < 16384)
  | .launchReserveTimer b q => decide (b < 24) && decide (q < 16384)
  | .kernelLimit _ => true
  | .copyMem b q => decide (b < 24) && decide (q < 16384)
  | .fillMem b q => decide (b < 24) && decide (q < 16384)
  | .madd b q => decide (b < 24) && decide (q < 16384)
  | .xwait b q => decide (b < 24) && decide (q < 16384)
  | .commandRetire b q => decide (b < 24) && decide (q < 16384)
  | .abandonGraceExpiry _ => true
  | .vfFlr f => decide (f < 25)
  | .pfFlr => true
  | .hostLinkDown port => decide (port < 2)
  | .hostLoss => true
  | .hostLinkUp port _ _ => decide (port < 2)
  | .openSession port _ _ => decide (port < 2)
  | .closeSession port _ _ => decide (port < 2)
  | .ping port _ _ => decide (port < 2)
  | .readEntry port _ _ => decide (port < 2)
  | .writeEntry port _ _ => decide (port < 2)
  | .readSeg port _ _ => decide (port < 2)
  | .writeSeg port _ _ => decide (port < 2)
  | .dictionaryTick _ => true
  | .sessionIdleTimeout _ => true
  | .stageTimeout _ => true
  | .serviceStateWrite _ _ => true
  | .calibrationWrite _ _ _ _ => true
  | .towpathHandshake port _ _ _ _ => decide (port < 2)
  | .secureElement => true
  | .setEndpointId port _ _ => decide (port < 2)
  | .getEndpointId port => decide (port < 2)
  | .getMctpVersionSupport port _ => decide (port < 2)
  | .getMessageTypeSupport port => decide (port < 2)
  | .getVersion port => decide (port < 2)
  | .getCapabilities port _ => decide (port < 2)
  | .negotiateAlgorithms port _ _ => decide (port < 2)
  | .getDigests port => decide (port < 2)
  | .getCertificate port _ _ _ => decide (port < 2)
  | .challenge port _ _ => decide (port < 2)
  | .getMeasurements port _ _ _ => decide (port < 2)
  | .ptpMessage port _ _ _ _ => decide (port < 2)
  | .dawn => true
  | .dawnRequest => true
  | .firstLight => true
  | .wearSample _ die _ _ _ _ => decide (die < 32)
  | .coreSubstitution core _ => decide (core < 384)
  | .readmissionRequest _ die _ _ => decide (die < 32)
  | .readmitDone _ => true
  | .declareFailed _ die _ _ => decide (die < 32)
  | .heartbeatMiss => true
  | .lkRestart die _ => decide (die < 32)
  | .imageStaging image => decide (4096 ≤ image.length) && decide (image.length ≤ 4194304)
  | .fwBroadcast => true
  | .fwRoundEnd _ => true
  | .fwInstallLockkeeper => true
  | .fwAbort => true
  | .fwHandover b => decide (b < 24)
  | .lockageCopy b => decide (b < 24)
  | .snapshotDigestDone b slot => decide (b < 24) && decide (slot < 4)
  | .replicaDigestWrite b slot _ _ => decide (b < 24) && decide (slot < 4)
  | .snapshotAreaWrite b _ _ => decide (b < 24)
  | .snapshotRestore b => decide (b < 24)
  | .snapshotResume b => decide (b < 24)
  | .snapshotDrain b => decide (b < 24)
  | .drainAbort b => decide (b < 24)
  | .snapshotFill b => decide (b < 24)
  | .slotEmpty b => decide (b < 24)
  | .drainAcknowledge port _ => decide (port < 4)
  | .drainResendTimer b slot _ => decide (b < 24) && decide (slot < 4)
  | .drainStalled b slot => decide (b < 24) && decide (slot < 4)
  | .fillDataFrame port _ => decide (port < 4)
  | .fillAckTimer b slot _ => decide (b < 24) && decide (slot < 4)
  | .instrModeWrite port _ => decide (port < 24)
  | .instrRunStart port => decide (port < 24)
  | .instrRunStop port => decide (port < 24)
  | .instrScan port => decide (port < 24)
  | .instrScanDone port => decide (port < 24)
  | .instrTargetReached port => decide (port < 24)
  | .instrLockLost port lane => decide (port < 24) && decide (lane ≤ 8)
  | .inputVoltageChange _ _ => true
  | .powerControllerTick _ _ => true
  | .fastCurrentLimit => true
  | .phaseLost rail _ => (decide (rail < 56) || rail == 0x100)
  | .protectiveOff cause => decide (cause ≤ 3)
  | .sensorRefresh _ _ => true
  | .coolantAlarmTimer _ => true
  | .startEnd _ _ => true
  | .lockageRelease b _ => decide (b < 24)
  | .restoreEnd b => decide (b < 24)
  | .standbyCatchUpDone => true
  | .standbyFailure => true
  | .ptpMasterLost => true
  | .handoverDelayExpiry b => decide (b < 24)
  | .basinPortLinkChange port _ => decide (port < 4)
  | .towpathPortLinkChange port _ => decide (port < 2)
  | .configurationRequest port f _ => decide (port < 2) && decide (f < 25)
  | .hostPerstAsserted port => decide (port < 2)
  | .remoteHistoryExpiry _ _ => true

end Sys2Proof
end

