-- ==== Sys2Proof/Tests/Slice0.lean ====
section
/-!
SUPPORT. Tests: words of the manual's encodings, ill-formed commands, small steps with results worked out from the manual,
and for every statement a state and operands that meet its hypotheses, clause by clause.
-/

namespace Sys2Proof.Tests

set_option Elab.async false

open Sys2Proof.Machine

/-! Small states. -/

/-- A group with one path of lanes 0 and 1; v1 holds 7 and 9, s1 to s6 hold 5, 64, 0, 65,536, 1 and 2. -/
def demoGroup : GroupSt := {
  v := [(32, 7), (33, 9)], sreg := [(1, 5), (2, 64), (4, 0x10000), (5, 1), (6, 2)], stack := [{ pc := 0, mask := 3 }] }

/-- The kernel that runs the group. -/
def demoKern (g : GroupSt) : KernSt := {
  berth := 0, launch := 1, nGroups := 1, codeBytes := 64, started := true, groups := [(0, g)] }

/-- Berth B0 on CD0 with one page at 0x10000, mapped to 0x4000000. -/
def demoBerth : BerthSt := {
  life := .active, dies := [0], maps := [{ va := 0x10000, pa := 0x4000000, shift := 16, pages := 1 }] }

/-- The module with that berth, a launch and a core. -/
def on (k : CoreSt) : State := { State.reset with
  berths := [(0, demoBerth)], launches := [(1, { berth := 0, queue := 0, kseq := 0, cores := [0], running := [0] })],
  cores := [(0, k)] }

/-- The same with the group on core 0. -/
def withGroup (g : GroupSt) : State := on { kern := some (demoKern g) }

def demo : State := withGroup demoGroup

def t0 : At := ⟨0, 0⟩

/-- An arithmetic instruction's fields without immediate. -/
def op (dst a b c : BitVec 8) : ArithOp := { dst := dst, a := a, b := b, c := c, immf := false, cc := 0, imm := 0 }

/-- Fields with an immediate. -/
def opi (dst a : BitVec 8) (imm : BitVec 16) : ArithOp := {
  dst := dst, a := a, b := 0, c := 0, immf := true, cc := 0, imm := imm }

/-- What a command leaves. -/
def after (c : Instr) (s : State) : State :=
  match exec c s with
  | .next u => u
  | _ => {}

/-- Whether a group is ready and what it issues on satisfies a test. -/
def rdy (s : State) (srcs : List Nat) (p : Issue → Bool) : Bool := (s.ready t0 srcs).any p

/-- Register 2 of lanes 0 and 1 after an instruction. -/
def lanes2 (c : Instr) (s : State) : Option (BitVec 32 × BitVec 32) :=
  ((after c s).group t0).map fun g => (g.vreg 2 0, g.vreg 2 1)

/-- A store of a group to the mapped page, open or performed. -/
def openStore (done : Option (List Nat)) : Access := {
  id := 1, group := 0, launch := 1, kind := .store, line := 0x100000, done := done
  parts := [{ lane := 0, addr := 0x4000000, size := 4, d0 := 7 }] }

/-- The answer of lane checks, for comparison: the lanes, or code and address. -/
def lanesOk (x : Except (Nat × Nat) (List LaneAcc)) (l : List LaneAcc) : Bool :=
  match x with
  | .ok r => r == l
  | .error _ => false

/-- The code of a failed check. -/
def codeOf {α : Type} (x : Except Nat α) : Nat :=
  match x with
  | .ok _ => 0
  | .error c => c

/-! Ill-formed commands: one for each check. -/

theorem test_wf_core : Instr.wf (.nop ⟨384, 0⟩ (op 0 0 0 0)) = false ∧ Instr.wf (.kernelStart 384) = false := by decide

theorem test_wf_group : Instr.wf (.nop ⟨0, 64⟩ (op 0 0 0 0)) = false ∧ Instr.wf (.nop ⟨383, 63⟩ (op 0 0 0 0)) = true := by decide

theorem test_wf_channel : Instr.wf (.refresh 24 0) = false ∧ Instr.wf (.refresh 0 1024) = false := by decide

theorem test_wf_berth : Instr.wf (.berthCreate 24) = false ∧ Instr.wf (.slotGrant 0 16384) = false ∧
    Instr.wf (.streamEnable 0 16 1) = false ∧ Instr.wf (.skipWindowWrite 0 0 0 0) = false ∧
    Instr.wf (.skipWindowWrite 0 17 0 0) = false ∧ Instr.wf (.drainStalled 0 4) = false := by decide

theorem test_wf_die : Instr.wf (.exchPostTake 24) = false ∧ Instr.wf (.dieFence 9 32 0 0) = false := by decide

theorem test_wf_ports : Instr.wf (.linkControlTimer 24) = false ∧ Instr.wf (.laneRetire 0 9 0) = false ∧
    Instr.wf (.basinPortLinkChange 4 true) = false ∧ Instr.wf (.hostLinkDown 2) = false ∧
    Instr.wf (.neighborSolicitation true 2 (zeros 16) (zeros 16)) = false ∧
    Instr.wf (.neighborSolicitation false 0 [] (zeros 16)) = false := by decide

theorem test_wf_flit : Instr.wf (.ackFlit 0 []) = false := by decide

theorem test_wf_plan : Instr.wf (.cutPlanActivate 0) = false ∧ Instr.wf (.cutPlanActivate 33) = false ∧
    Instr.wf (.cutPlanWrite 1 (zeros 63)) = false := by decide

theorem test_wf_window : Instr.wf (.windowEntryWrite 131072 0) = false := by decide

theorem test_wf_host : Instr.wf (.bargeGive 25 0) = false ∧ Instr.wf (.ctxCreate 128) = false ∧ Instr.wf (.segSeal 64) = false := by
  decide

theorem test_wf_rest : Instr.wf (.phaseLost 56 0) = false ∧ Instr.wf (.phaseLost 0x100 0) = true ∧
    Instr.wf (.protectiveOff 4) = false ∧ Instr.wf (.fdFailure 8) = false ∧ Instr.wf (.imageStaging []) = false := by decide

/-- The table gives its rows no bits: no word spells a command. -/
theorem test_no_table_words : decodeTableWord 64 0x0040000903840860 = none := by decide

/-! Words of kernel instructions, from the encodings of R207 to R216. -/

theorem test_words : decodePvk t0 0 0x000A0006000500A2 = some (.brc t0 5 false 6 10) ∧
    decodePvk t0 0x70 0x0000000295940050 = some (.vldr t0 0x94 0x95 2) ∧
    decodePvk t0 0 0x0080002000000090 = some (.bar t0 0 0 false true 128) := by decide

theorem test_reserved_words : decodePvk t0 0 0xFF = none ∧ decodePvk t0 0 0x00000001000000A5 = none := by decide

theorem test_word_round_trip : wordFieldOk 0x000A0006000500A2 = true ∧ wordRegOk 0x000A0006000500A2 = true ∧
    encodePvk (.brc t0 5 false 6 10) = some (0, 0x000A0006000500A2) ∧
    encodePvk (.ld t0 { dst := 8, a := 0x84, b := 3, space := 1, size := 2, vol := false, sext := false, off := 0x40 } []) =
      some (0, 0x0040000903840860) := by decide

/-! Thread instructions. -/

/-- v2 takes the sum on each active lane (R210). -/
theorem test_iadd : lanes2 (.iadd t0 (op 2 1 1 0)) demo = some (14, 18) := by decide

theorem test_isub_wraps : lanes2 (.isub t0 (opi 2 1 8)) demo = some (0xFFFFFFFF, 1) := by decide

theorem test_imulhu : lanes2 (.imulhu t0 (op 2 1 1 0)) (withGroup { demoGroup with v := [(32, 0x80000000), (33, 9)] }) =
    some (0x40000000, 0) := by decide

theorem test_sar_keeps_sign : lanes2 (.sar t0 (opi 2 1 4)) (withGroup { demoGroup with v := [(32, 0x80000000), (33, 0x100)] }) =
    some (0xF8000000, 0x10) := by decide

theorem test_shl_takes_count_modulo : lanes2 (.shl t0 (opi 2 1 33)) demo = some (14, 18) := by decide

theorem test_clz : lanes2 (.clz t0 (op 2 1 0 0)) demo = some (29, 28) := by decide

theorem test_sel : lanes2 (.sel t0 (op 2 1 0x81 1)) demo = some (7, 9) := by decide

/-- 1 + 1.5 in FP32. -/
theorem test_fadd : lanes2 (.fadd t0 (opi 2 1 0x3FC0)) (withGroup { demoGroup with v := [(32, 0x3F800000), (33, 0xBFC00000)] }) =
    some (0x40200000, 0) := by decide

theorem test_f2i : lanes2 (.f2i t0 (op 2 1 0 0)) (withGroup { demoGroup with v := [(32, 0x40200000), (33, 0xC0400000)] }) =
    some (2, 0xFFFFFFFD) := by decide

/-- A scalar takes 64 bits; s0 keeps nothing (R188). -/
theorem test_scalar : ((after (.iadd t0 (op 0x82 0x82 0x82 0)) demo).group t0).map (·.sregAt 2) = some 128 ∧
    ((after (.iadd t0 (op 0x80 0x82 0x82 0)) demo).group t0).map (·.sregAt 0) = some 0 := by decide

/-- The path goes on one instruction (R186). -/
theorem test_path_goes_on : ((after (.nop t0 (op 0 0 0 0)) demo).group t0).map (·.stack) = some [{ pc := 8, mask := 3 }] := by
  decide

/-- The last word of the code: its result is written and the launch stopped with `JUMP_TARGET` (R216). -/
theorem test_last_word : ((after (.iadd t0 (op 2 1 1 0)) (on { kern := some { demoKern demoGroup with codeBytes := 8 } })).launches.map
    fun p => (p.2.stopped, p.2.status)) = [(true, 0x0386)] := by decide

/-! Hypotheses of the statements about thread instructions. -/

/-- Operands of the instructions with one, two and three sources, and of those with `CC`. -/
def arithSample (n : Nat) : ArithOp :=
  match arithUse n with
  | some u => { op (if u.d then 2 else 0) (if u.a then 1 else 0) (if u.b then 1 else 0) (if u.c then 1 else 0) with
      imm := if n = 0x04 then 0x1 else 0 }
  | none => op 0 0 0 0

/-- The same for a scalar destination, with scalar sources. -/
def scalarSample (n : Nat) : ArithOp :=
  match arithUse n with
  | some u => op 0x82 0x81 (if u.b then 0x81 else 0) (if u.c then 0x81 else 0)
  | none => op 0 0 0 0

theorem witness_arithmetic : (arithTable.map (·.2)).all (fun n => arithOk n (arithSample n) &&
    rdy demo (arithSrcs n (arithSample n)) (fun i => i.cur.pc + 8 < i.k.codeBytes) && arithOk n (scalarSample n) &&
    rdy demo (arithSrcs n (scalarSample n)) (fun i => i.cur.pc + 8 < i.k.codeBytes)) = true := by decide +kernel

theorem witness_moves_and_lanes : specOk 2 = true ∧ specOk 0x82 = true ∧ (0x82 : BitVec 8).getLsbD 7 = true ∧
    arithOk 0x00 (op 0 0 0 0) = true ∧ arithOk 0x04 { op 2 0 0 0 with imm := 1 } = true ∧
    arithOk 0x04 { op 2 0 0 0 with imm := 0xC } = true ∧ arithOk 0x04 { op 0x82 0 0 0 with imm := 0xE } = true ∧
    arithOk 0x30 (op 0x82 1 0 0) = true ∧ arithOk 0x30 { op 0x82 1 0 0 with imm := 1 } = true ∧
    arithOk 0x30 { op 0x82 1 0 0 with imm := 2 } = true ∧ arithOk 0x31 (op 0x82 1 0x81 0) = true ∧
    arithOk 0x32 (op 2 1 1 0) = true ∧ rdy demo [1, 0x81] (fun i => i.cur.pc + 8 < i.k.codeBytes) = true ∧
    specialReg demo t0 (demoKern demoGroup) 5 1 = some 5 := by decide

/-- A group at a barrier, one at a fence, one without a path, and one whose source awaits a load are not ready. -/
theorem witness_not_ready : (withGroup { demoGroup with stack := [] }).ready t0 [] = none ∧
    (withGroup { demoGroup with stack := [{ pc := 0, mask := 3, fence := some (0, 1) }] }).ready t0 [] = none ∧
    ((withGroup { demoGroup with stack := [{ pc := 0, mask := 3, fence := some (0, 1) }] }).running t0).isSome = true ∧
    (on { kern := some { demoKern demoGroup with barriers := [(0, { arrivals := 2, count := 9, waiting := [(0, 3)] })] } }).ready
      t0 [] = none ∧
    (on {
      kern := some (demoKern demoGroup)
      acc := [{ openStore none with kind := .load, parts := [{ lane := 0, addr := 0x4000000, size := 4, reg := 1 }] }] }).ready
        t0 [1] = none := by decide

theorem witness_last_word : (arithTable.map (·.2)).all (fun n =>
    rdy (on { kern := some { demoKern demoGroup with codeBytes := 8 } }) (arithSrcs n (arithSample n))
      (fun i => i.k.codeBytes ≤ i.cur.pc + 8)) = true := by decide +kernel

/-- `BRA` to the first and the last word; `BRS` taken and not; `JMPS` in the code, misaligned and beyond it. -/
theorem witness_jumps : rdy demo [] (fun i => inCode i.k.codeBytes i.cur.pc 7 && inCode i.k.codeBytes i.cur.pc 0 &&
      !inCode i.k.codeBytes i.cur.pc 8) = true ∧
    rdy demo [0x83] (fun i => srcScalar i.g 0x83 == 0 && inCode i.k.codeBytes i.cur.pc 7) = true ∧
    rdy demo [0x81] (fun i => srcScalar i.g 0x81 != 0 && i.cur.pc + 8 < i.k.codeBytes) = true ∧
    rdy demo [0x83] (fun i => (srcScalar i.g 0x83).toNat % 8 == 0 && (srcScalar i.g 0x83).toNat < i.k.codeBytes) = true ∧
    rdy demo [0x81] (fun i => (srcScalar i.g 0x81).toNat % 8 != 0) = true ∧
    rdy demo [0x82] (fun i => i.k.codeBytes ≤ (srcScalar i.g 0x82).toNat) = true := by decide

/-- `BRC` with no lane, every lane and one lane taken, at 30 entries and at 31 (one and two too deep for a split). -/
def deep (n : Nat) : State := withGroup {
  demoGroup with v := [(32, 7)], stack := List.replicate n { pc := 0, mask := 3 } }

theorem witness_brc : threadOk 1 = true ∧ inCode 64 0 7 = true ∧
    rdy demo [3] (fun i => (List.range 32).all fun l => !i.takes 3 false l) = true ∧
    rdy demo [1] (fun i => (List.range 32).all fun l => !i.cur.mask.getLsbD l || i.takes 1 false l) = true ∧
    rdy (deep 30) [1] (fun i => i.takes 1 false 0 && !i.takes 1 false 1 && i.above.length + 1 + i.below.length + 2 ≤ 32) = true ∧
    rdy (deep 31) [1] (fun i => i.takes 1 false 0 && !i.takes 1 false 1 && 32 < i.above.length + 1 + i.below.length + 2) = true := by
  decide

/-- A group with an open chain, and with counter 1 at its threshold and above it. -/
def demoChain : ChainSt := {
  id := 1, desc := 0, m := 1, n := 1, rowMaskEn := false, rowMask := 0, blkMaskEn := false, exact := false, win := 0,
  scaleAB := 0, kSum := 0, skipped := false }

theorem witness_path_ends : rdy demo [] (fun i => i.g.chain == none) = true ∧
    rdy (withGroup { demoGroup with chain := some demoChain }) [] (fun i => i.g.chain == some demoChain && i.above ++ i.below == []) = true ∧
    rdy (withGroup { demoGroup with tk := [(1, 128)] }) [] (fun i => tget i.g.tk 0 1 ≤ 128 && i.cur.pc + 8 < i.k.codeBytes) = true ∧
    rdy (withGroup { demoGroup with tk := [(1, 1)] }) [] (fun i => 0 < tget i.g.tk 0 1) = true := by decide

/-- A fence, with every earlier access performed and with one still open. -/
def fenced : GroupSt := { demoGroup with stack := [{ pc := 0, mask := 3, fence := some (1, 2) }] }

theorem witness_fence : (∀ d ∈ [none, some [0]], (on { kern := some (demoKern fenced), acc := [openStore d] }).group t0 = some fenced) ∧
    (∀ x ∈ fenced.stack, x.fence ≠ none → x = { pc := 0, mask := 3, fence := some (1, 2) }) ∧
    (openStore none).id < 2 ∧ (openStore none).done = none ∧ (openStore (some [0])).done ≠ none := by decide

/-- Barriers below, at and beyond their count, and with an access of the group still open. -/
theorem witness_barrier : rdy demo [] (fun i => i.arrivals == 2 && i.above ++ i.below == [] && i.cur.pc + 8 < i.k.codeBytes) = true ∧
    demo.unperformed t0 1 (demo.core 0).nextId = false ∧
    (on { kern := some (demoKern demoGroup), acc := [openStore none], nextId := 2 }).unperformed t0 1 2 = true ∧
    (0 + 2 < 3 ∧ 2 ≤ 0 + 2 ∧ (1 : Nat) ≤ 2048) ∧
    (on { kern := some { demoKern demoGroup with barriers := [(0, { arrivals := 1, count := 3, waiting := [] })] } }).unperformed
      t0 1 1 = false := by decide

/-- A kernel whose only group waits at a barrier of three lanes: stranded. -/
def strandedK (b : Bool) : KernSt := { demoKern demoGroup with
  barriers := [(0, { arrivals := 2, count := 3, waiting := [(0, 3)] })], stranded := b }

theorem witness_monitor : strandedBarrier (demoKern demoGroup) = none ∧ strandedBarrier (strandedK false) = some 0 ∧
    strandedBarrier (strandedK true) = some 0 ∧ (on { kern := some (strandedK true) }).kern 0 = some (strandedK true) := by decide

theorem test_monitor_aborts : ((after (.forwardProgressCheck 0) (on { kern := some (strandedK true) })).launches.map
    fun p => (p.2.stopped, p.2.status)) = [(true, 0x0380)] := by decide

/-! Fixtures of the fabric: node 4 in the cut of job 7 with node 5, over gang 0 with port 0. -/

def demoPlan : Bytes := [0x57, 0x43, 0x55, 0x54, 1, 0, 7, 0, 4, 0, 4, 0, 1, 0, 1, 2] ++ leBytes 4 1 ++ zeros 44 ++
  ([0, 64] ++ leBytes 2 1 ++ leBytes 4 1 ++ zeros 56)

def demoFabric : FabricSt := {
  plans := [(1, { bytes := demoPlan, st := 2 })], ports := [(0, { life := .active })], routes := [(5, 16 + 2 ^ 20 + 2 ^ 24)] }

/-- Berth B0 in job 7, with a page of node 5 mapped at 0x20000. -/
def jobBerth : BerthSt := { demoBerth with
  job := 7, extent := 1, maps := demoBerth.maps ++ [{ va := 0x20000, pa := 5 * 2 ^ 52 + 0x40, shift := 16, pages := 1 }] }

def inJob (s : State) : State := { s with berths := [(0, jobBerth)], fabric := demoFabric }

theorem witness_remote_place : lanesOk ((inJob demo).checkLanes 0 1 4 true false [(0, 0x10040), (1, 0x20000)])
    [⟨0, 0x10040, some (.here 0x4000040)⟩, ⟨1, 0x20000, some (.remote 5 0x40)⟩] = true := by decide +kernel

/-! Memory instructions. -/

/-- Fields of a load or store: register 4, base s4 (0x10000) or s0. -/
def mem (a : BitVec 8) (space : BitVec 2) (size : BitVec 3) (off : BitVec 16) : MemOp := {
  dst := 4, a := a, b := 3, space := space, size := size, vol := false, sext := false, off := off }

def smem (a : BitVec 8) (space : BitVec 2) (size : BitVec 3) (off : BitVec 16) : MemOp := {
  mem a space size off with dst := 0x82, b := 0 }

def atom (space : BitVec 2) (size : BitVec 3) (xfmt : BitVec 4) (ret : Bool) : AtomOp := {
  dst := 4, a := 0x84, b := 3, space := space, size := size, ret := ret, xfmt := xfmt, off := 0 }

/-- Whether a load's or store's lanes pass their checks. -/
def laneTest (s : State) (o : MemOp) (scalar write : Bool) (p : Except (Nat × Nat) (List LaneAcc) → Bool) : Bool :=
  rdy s (if write then storeSrcs o scalar else addrSrcs o scalar) fun i =>
    p (memChecks s i o scalar (!write) write) && i.cur.pc + 8 < i.k.codeBytes

def passes : Except (Nat × Nat) (List LaneAcc) → Bool
  | .ok (_ :: _) => true
  | _ => false

theorem witness_loads_stores : memOk 0x60 (mem 0x84 1 2 0x40) = true ∧ memOk 0x61 (mem 0x84 1 4 0) = true ∧
    memOk 0x63 (smem 0x84 1 3 0) = true ∧ memOk 0x64 (smem 0x80 0 3 0) = true ∧
    laneTest demo (mem 0x84 1 2 0x40) false false passes = true ∧ laneTest demo (mem 0x80 0 2 0) false true passes = true ∧
    laneTest demo (smem 0x84 1 3 0) true false passes = true ∧ laneTest demo (smem 0x80 0 3 0) true true passes = true ∧
    laneTest demo (mem 0x84 1 2 2) false false (fun r => !passes r) = true ∧
    laneTest (inJob demo) (mem 0x84 1 2 0) false true passes = true := by decide +kernel

/-- The local window of 4 MiB: its last word, and one past it. -/
theorem witness_local_edge : codeOf (demo.checkLane 0 0 4 0x3FFFFC true false) = 0 ∧
    codeOf (demo.checkLane 0 0 4 0x400000 true false) = 0x0384 ∧ codeOf (demo.checkLane 0 1 4 0x1FFFC true false) = 0 ∧
    codeOf (demo.checkLane 0 1 4 0x20000 true false) = 0x0385 := by decide +kernel

theorem witness_room : rdy demo [] (fun i => (demo.checkLanes 0 1 4 false true [(0, 0x10000), (1, 0x10004)]).toOption.any fun ls =>
    demo.accessRoom 0 (storeFar t0 i (mem 0x84 1 2 0) ls) && demo.accessRoom 0 (loadFar (demo.core 0) t0 i (mem 0x84 1 2 0) ls)) = true := by
  decide +kernel

theorem witness_atomics : (∀ n ∈ [0, 1, 2, 3, 4, 5, 6, 7, 8, 9], atomOk n (atom 1 2 0 true) = true) ∧
    atomOk 0xA (atom 0 2 0 true) = true ∧ atomOk 0xB (atom 1 4 0xA false) = true ∧
    rdy demo (atomSrcs 0xB (atom 1 4 0xA false)) (fun i => (laneAddrs i 0x84 3 0 false).map (·.2) == [0x10000, 0x10000]) = true ∧
    lanesOk (demo.checkLanes 0 1 4 true true [(0, 0x10000), (1, 0x10000)])
      [⟨0, 0x10000, some (.here 0x4000000)⟩, ⟨1, 0x10000, some (.here 0x4000000)⟩] = true := by decide +kernel

/-- A store into local memory is there at once, lowest lane first (R203). -/
theorem test_store_local : ((after (.st t0 { mem 0x80 0 2 0x10 with dst := 1 }) demo).core 0).lm.num 0x10 4 = 9 := by decide +kernel

/-- Two lanes add 7 and 9 to one word of local memory (R203, R213). -/
theorem test_atomic_local : ((after (.atomAdd t0 { atom 0 2 0 false with a := 0x80, dst := 1 }) demo).core 0).lm.num 0 4 = 16 := by
  decide +kernel

/-! Accesses on their way. -/

def oneAcc (k : AccKind) (done : Option (List Nat)) (aop : Nat) (ret : Bool) (size : Nat) : State :=
  on { kern := some (demoKern demoGroup), nextId := 2, acc := [{ openStore done with
    kind := k, aop := aop, ret := ret, parts := [{ lane := 1, addr := 0x4000000, size := size, reg := 2, d0 := 7 }] }] }

theorem witness_accesses : (∀ k ∈ [AccKind.load, .store, .atomic],
      ((oneAcc k none 0 true 4).core 0).access 1 = some { openStore none with
        kind := k, ret := true, parts := [{ lane := 1, addr := 0x4000000, size := 4, reg := 2, d0 := 7 }] }) ∧
    ((oneAcc .load (some [5]) 0 false 4).core 0).access 1 ≠ none ∧ ((oneAcc .store none 0 false 4).core 0).behind (openStore none) = false ∧
    (oneAcc .store none 0 false 4).homeRoom 0x4000000 = true ∧ cacheable 0x4000000 = true ∧
    (oneAcc .store none 0 false 4).mem.marked 0x4000000 = false ∧ cacheable (0x100000 * 64) = true := by decide +kernel

/-- A load's value reaches its lane's register (R187); a store reaches memory; `XADD` of the E4M3 code 7, which is 7 × 2^-9, leaves
7 × 2^55 of the accumulator's 2^-64 (R62, R213). -/
theorem test_accesses : lanes2 (.loadDataReturn 0 1 0) (oneAcc .load (some [5]) 0 false 4) = some (0, 5) ∧
    (after (.homeAccept 0 1) (oneAcc .store none 0 false 4)).mem.num 0x4000000 4 = 7 ∧
    (after (.homeAccept 0 1) (oneAcc .atomic none 0xB false 16)).mem.num 0x4000000 16 = 7 * 2 ^ 55 := by decide +kernel

/-! Vector operations. -/

/-- `VIADD` of registers 2 and 3 into 1; one with a reserved opcode; `VBCAST` of 5. -/
def viadd : BitVec 64 := 0x10 + 1 <<< 16 + 2 <<< 25 + 3 <<< 34

def vecGroup (w0 : BitVec 64) : GroupSt := { demoGroup with sreg := [(1, w0), (2, 0)] }

def vq (op : BitVec 64) (started : Bool) : VqEnt := { id := 1, group := 0, launch := 1, tk := 0, w0 := op, w1 := 0, started := started }

theorem witness_viss : rdy (withGroup (vecGroup viadd)) [0x81, 0x82] (fun i => srcScalar i.g 0x81 == viadd && i.cur.pc + 8 < i.k.codeBytes) = true ∧
    (withGroup (vecGroup viadd)).vowCodes 0 0 demoBerth.maps viadd.toNat 0 = [] ∧ viadd.toNat % 256 = 0x10 ∧
    (withGroup (vecGroup 0xFF)).vowCodes 0 0 demoBerth.maps 0xFF 0 = [0x0200] ∧ ((withGroup (vecGroup viadd)).core 0).vq.length < 64 := by
  decide +kernel

/-- Each opcode of the table stands in some word: a word with it and no other field is checked, and refused or not. -/
theorem witness_viss_opcodes : (vectorTable.map (·.2)).all (fun n =>
    rdy (withGroup (vecGroup (BitVec.ofNat 64 n))) [0x81, 0x82] (fun i => (srcScalar i.g 0x81).toNat % 256 == n)) = true := by
  decide +kernel

theorem witness_vq : vopCanStart [vq viadd false] (vq viadd false) = true ∧
    vopCanStart [{ vq viadd false with id := 2 }, vq viadd false] (vq viadd false) = false ∧
    kselOk (kselOf {} (vowOf 0x61 0)) = true ∧
    kselOk (kselOf { vr := [(0, 1 <<< 64)] } (vowOf 0x61 0)) = false ∧ viadd.toNat % 256 ≤ 0x24 := by decide +kernel

theorem witness_vector_results : bitsOf viadd.toNat 24 16 = 1 ∧ bitsOf viadd.toNat 33 25 = 2 ∧ bitsOf viadd.toNat 42 34 = 3 ∧
    bitsOf viadd.toNat 59 52 = 0 ∧ (vq viadd true).started = true := by decide

/-- Element 0 of 4 and 5 is 9 (R166). -/
theorem test_viadd : word32 (tget ((after (.vectorOpComplete 0 1 0) (on {
    kern := some (demoKern demoGroup), vq := [vq viadd true], vr := [(2, 4), (3, 5)] })).core 0).vr 0 1) 0 = 9 := by decide +kernel

/-! Matrix instructions. -/

/-- One row, one column, one element of K, E4M3, exact, no drain. -/
def matWords (acc drain : Nat) : List Nat :=
  [2 ^ 12 + 2 ^ 19 + 2 ^ 26 + acc * 2 ^ 43 + drain * 2 ^ 45, 0, 0, 0, 0, 0, 0x3C0 * 2 ^ 40, 0]

def aq (acc drain : Nat) (bank : Option Nat) : AqEnt := {
  id := 1, group := 0, launch := 1, tk := 0, descAddr := 1024, words := matWords acc drain, chain := 3, bank := bank }

/-- A group whose s1 holds 1,024, where a descriptor stands in local memory. -/
def matState (addr : BitVec 64) : State := on {
  kern := some (demoKern { demoGroup with sreg := [(1, addr)] })
  lm := ({} : Store).write 1024 ((matWords 0 0).flatMap (leBytes 8)) false }

theorem witness_miss : rdy (matState 1024) [0x81] (fun i => missCodes (matState 1024) t0 i 1024 == [] && i.g.chain == none &&
      i.cur.pc + 8 < i.k.codeBytes) = true ∧
    (descOf (descWords ((matState 1024).core 0).lm 1024)).rowMaskEn = false ∧
    (descOf (descWords ((matState 1024).core 0).lm 1024)).blkMaskEn = false ∧
    (descOf (descWords ((matState 1024).core 0).lm 1024)).gather = false ∧
    rdy (matState 1024) [0x81] (fun i => (missCodes (matState 1024) t0 i 64).head? == some 0x0101) = true ∧
    ((matState 1024).core 0).aq.length < 64 ∧ (1025 % 64 ≠ 0 ∧ 0x400000 ≤ 0x400000) := by decide +kernel

theorem witness_banks : bankFor { aq := [aq 0 0 none] } (aq 0 0 none) = some 0 ∧
    bankFor { aq := [aq 0 0 none], banks := [(0, { owner := some 1 }), (1, { owner := some 2 })] } (aq 0 0 none) = none ∧
    bankFor { aq := [aq 2 0 none], banks := [(1, { owner := some 3 })] } (aq 2 0 none) = some 1 ∧
    heldByFill {} (aq 0 0 none) = false ∧ (aqBefore { aq := [aq 0 0 none] } (aq 0 0 none)).any (blocksHead {}) = false ∧
    (descOf (matWords 0 0)).accInit = 0 ∧ (descOf (matWords 2 0)).accInit = 2 ∧ (descOf (matWords 0 1)).drain = true ∧
    (descOf (matWords 0 0)).drain = false ∧ (State.reset.core 0).lastBank = 1 := by decide +kernel

/-- An operand in memory is streamed; nothing before it shares its ring; an open gather fill. -/
theorem witness_streams : streamsOp (descOf [2 ^ 12, 2 ^ 57, 0, 0, 0, 0, 0, 0]) = true ∧
    (aqBefore { aq := [{ aq 0 0 none with words := [2 ^ 12, 2 ^ 57, 0, 0, 0, 0, 0, 0] }] }
      { aq 0 0 none with words := [2 ^ 12, 2 ^ 57, 0, 0, 0, 0, 0, 0] }).any (fun x => ringsMeet x (aq 0 0 none)) = false ∧
    (∃ f ∈ [({ id := 4, words := [], rows := 1 } : FillSt)], f.id = 4 ∧ f.isOpen = true) := by decide

theorem witness_complete : (on { kern := some (demoKern demoGroup), aq := [aq 0 1 (some 0)] }).kern 0 = some (demoKern demoGroup) ∧
    ({ aq := [aq 0 1 (some 0)] } : CoreSt).aqEnt 1 = some (aq 0 1 (some 0)) ∧ (aq 0 1 (some 0)).fill = none ∧
    (demoKern demoGroup).launch = (aq 0 1 (some 0)).launch ∧ (aq 0 1 (some 0)).group < (demoKern demoGroup).nGroups := by decide

/-! Kernels and stacked memory. -/

/-- A state with channel 0 of stack 0 as given. -/
def withChan (c : ChanSt) : State := { demo with chans := [(0, c)] }

theorem witness_kernel : (on { kern := some { demoKern demoGroup with started := false } }).launchLive 1 = true ∧
    (demoKern demoGroup).started = true ∧
    (∀ g < 1, ∀ e ∈ (tget (demoKern { demoGroup with stack := [{ pc := 0, mask := 0 }] }).groups {} g).stack, e.mask = 0) ∧
    (∃ a ∈ ((oneAcc .store none 0 false 4).core 0).acc, a.launch = 1 ∧ a.kind ≠ .load ∧ a.done = none) := by decide +kernel

/-- Line 0 lies in channel 0 of stack 0; no wrong symbol but a parity one, 1, 4, 5, 12 wrong symbols, and 8 dead pins. -/
theorem witness_channel_reads : Serves demo 0 0 0 ∧ codeBounds[(demo.chan 0 0).dead.length]? = some (4, 12) ∧
    codeBounds[(({ phys := 0, dead := [0, 1, 2, 3, 4, 5, 6, 7] } : ChanSt)).dead.length]? = some (0, 8) ∧
    demo.mem.marked 0 = false ∧ (∀ j ∈ [80], 80 ≤ j ∧ j ∉ (demo.chan 0 0).dead) ∧ (unknownSyms [] [0]).length = 1 ∧
    (unknownSyms [] [0, 1, 2, 3]).length = 4 ∧ (unknownSyms [] [0, 1, 2, 3, 4]).length = 5 ∧
    (unknownSyms [] (List.range 12)).length = 12 ∧ (demo.chan 0 0).recent.length < 15 ∧ demo.segOf 0 = none := by
  refine ⟨⟨?_, ?_, ?_⟩, ?_⟩ <;> decide +kernel

/-- Five wrong symbols poison the line, four do not (R259, R261). -/
theorem test_poison : (after (.patrolScrub 0 [0, 1, 2, 3, 4] []) demo).mem.marked 0 = true ∧
    (after (.patrolScrub 0 [0, 1, 2, 3] []) demo).mem = demo.mem := by decide +kernel

theorem witness_channel_writes : demo.canonical ∧ chanAt (64 * 5) = some (0, 1) ∧ BitVec.allOnes 64 ≠ 0 ∧
    (1 : BitVec 64) ≠ BitVec.allOnes 64 ∧ ({ demo.mem with poison := [5] } : Store).marked (64 * 5) = true := by
  refine ⟨⟨?_, ?_, ?_⟩, ?_⟩ <;> decide +kernel

theorem witness_adders : homeDie 0x4000000 = some 0 ∧ 0x4000000 % 16 = 0 ∧ demo.wcbRoom 0x4000000 = true ∧
    demo.mem.marked 0x4000000 = false ∧ (∃ e ∈ ((withChan { phys := 0, wcb := [{ line := 0 }] }).chan 0 0).wcb, e.line = 0 ∧
      e.st = .partly) ∧ ((withChan { phys := 0, wcb := [{ line := 0 }] }).chan 0 0).wcb.countP (fun e => e.st != .partly) ≤ 32 := by
  decide +kernel

/-- 1 + 1.5 in FP16 at the home (R267). -/
theorem test_memside : (after (.memsideAdd 0x40 1 0 8 0 0x3E00 none) { demo with mem := ({} : Store).write 0x40 [0, 0x3C] false }).mem.num 0x40 2 =
    0x4100 := by decide +kernel

theorem witness_spares : MayTakeSpare (withChan { phys := 0, needRetrain := true }) 0 0 ∧
    (withChan { phys := 0, needRetrain := true }).groupFree 0 0 = 64 :: [65, 66, 67, 68, 69, 70, 71] ∧
    ((withChan { phys := 64, mode := .onSpare, original := some 0 }).listedPins 0 0 = []) ∧ demo.groupHas 0 0 = true ∧
    ({ demo with groups := [(0, [])] } : State).groupHas 0 0 = false ∧ (64 : Nat) / 72 = 0 / 64 := by
  refine ⟨⟨?_, ?_, ?_, ?_, ?_, ?_⟩, ?_⟩ <;> decide +kernel

theorem witness_stall : ((List.range 1024).all fun k => (demo.chan 0 k).mode != .stalled) = true ∧
    demo.lk.active ≠ none ∧ (withChan { phys := 0, mode := .stalled }).chan 0 0 = { phys := 0, mode := .stalled } ∧
    ({ withChan { phys := 0, leaving := true } with hbm := [(0, { limit := 2 ^ 36 - 2 ^ 27 })] } : State).withdrawn 0 (windowAfter 1) = true := by
  decide +kernel

/-! Scales and the exchange. -/

/-- The record of the manual's example (the section after R298): E5M2, history of depth 4, margin 1, back-off by 2 bits. -/
def demoScale : ScaleCfg := scaleCfgOf (leBytes 8 0x000480EC14D81131 ++ zeros 56)

theorem test_scale_record : demoScale = {
    policy := 0, span := false, depth := 3, fmt := 1, margin := 1, smin := -40, smax := 20, fixed := -20, winHead := 0, ovf := 1,
    backoff := 2, comb := 0 } := by decide +kernel

/-- The record as it is enabled: `SCALE` -20, an empty history. -/
def demoRec : ScaleRec := { scaleRecOf (zeros 64) with scale := -20, hist := List.replicate 16 0x8000 }

/-- The record after steps with these amax values; 0 stands for a non-finite step. -/
def afterSteps (l : List Nat) : ScaleRec :=
  l.foldl (fun r a => derive demoScale r { c := true, nf := a == 0, a := a }) demoRec

/-- The example's table: the scale after each of its seven steps, and W2 and W4 after the second. -/
theorem test_scale_history :
    (List.range 7).map (fun n => (afterSteps ([0x3F400000, 0x40400000, 0, 0x3E800000, 0x3F000000, 0x3F000000, 0x3F000000].take (n + 1))).scale) =
      [-15, -13, -11, -13, -13, -13, -15] ∧
    leAt (scaleRecBytes (afterSteps [0x3F400000, 0x40400000])) 0 8 = 0x40400000000B83F3 ∧
    leAt (scaleRecBytes (afterSteps [0x3F400000, 0x40400000])) 16 8 = 0x80008000FFFF0001 := by decide +kernel

theorem witness_scales : histMax (afterSteps [0x3F400000]).hist = some (-1) ∧ demoScale.policy = 0 ∧ demoScale.policy ≠ 2 ∧
    ({ demoScale with policy := 1 } : ScaleCfg).policy = 1 ∧ ({ c := true, nf := true } : Contrib).nf = true := by decide +kernel

/-! The exchange: bucket 0 of one element, alone in its group, its areas in the page at 0x10000 and 4 MiB of shared memory. -/

def exchLine (off : Nat) (ws : List Nat) (m : Store) : Store := m.write (0x4000000 + off) (ws.flatMap (leBytes 8)) false

/-- A contribution of one element, and a result, of round 1. -/
def pkt (kind : Nat) : Bytes :=
  [BitVec.ofNat 8 kind, 0, 0, 0, 0, 0, 1, 0] ++ leBytes 4 1 ++ zeros 12 ++ leBytes 4 1 ++ leBytes 4 1581570873 ++ [0, 0x3C]

def exchBerth : BerthSt := { demoBerth with
  maps := demoBerth.maps ++ [{ va := 0x1000000, pa := 0x020000000000, shift := 16, pages := 64 }]
  exch := [(0xB000, 0x10000), (0xB001, 1), (0xB002, 0x10100), (0xB010, 0x10200)] }

def exchState : State := { State.reset with
  berths := [(0, exchBerth)]
  fabric := { exch := [(0, { posts := [0], inbox := [pkt 1, pkt 4], rounds := [(0, { round := 1, accepted := 1 })] })] }
  mem := exchLine 0 [1 + 2 ^ 16, 0x10400, 0x10500, 0, 0x10600, 0, 0, 0] (exchLine 0x100 [0x10140, 1] (exchLine 0x140 [0]
    (exchLine 0x200 [0x1000000, 0x400000, 0x14000, 0x4000, 0, 0, 0, 0] {}))) }

/-- A range whose lines all have a place in the module is local, with those places alone. -/
theorem localRange_of (s : State) (b va n : Nat) (P : Nat → Prop) (hva : va % 64 = 0)
    (h : ∀ i, 64 * i < n → ∃ pa, s.localAddr b (va + 64 * i) true = some pa ∧ P pa) :
    ∃ l, s.localRange b va n true = some l ∧ ∀ p ∈ l, P p.1 := by
  unfold State.localRange
  generalize hr : (List.range ((va % 64 + n + 63) / 64)) = r
  have hm : ∀ i ∈ r, 64 * i < n := by
    intro i hi; rw [← hr, List.mem_range] at hi; omega
  clear hr
  induction r with
  | nil => exact ⟨[], rfl, by simp⟩
  | cons i t ih =>
    obtain ⟨l, hl, hp⟩ := ih fun j hj => hm j (List.mem_cons_of_mem _ hj)
    obtain ⟨pa, ha, hq⟩ := h i (hm i List.mem_cons_self)
    have hlo : (if i = 0 then va else (va / 64 + i) * 64) = va + 64 * i := by split <;> omega
    refine ⟨(pa, min ((va / 64 + i + 1) * 64) (va + n) - (va + 64 * i)) :: l, ?_, ?_⟩
    · simp only [List.map_cons, List.foldr_cons, hlo, ha, hl]
    · intro p hmem
      rcases List.mem_cons.mp hmem with rfl | hmem
      · exact hq
      · exact hp p hmem

theorem region_dsm (i : Nat) (h : 64 * i < 0x400000) : regionOf (0x020000000000 + 64 * i) = .dsm 0 (64 * i) := by
  unfold regionOf
  rw [if_neg (by omega), if_pos (by omega)]
  have : (0x020000000000 + 64 * i - 0x020000000000) = 64 * i := by omega
  simp only [this]
  rw [if_pos (by omega), Nat.div_eq_of_lt (by omega), Nat.mod_eq_of_lt (by omega)]

theorem region_page (i : Nat) (h : 64 * i < 0x4000) : regionOf (0x4004000 + 64 * i) = .stack 0 (0x4004000 + 64 * i) := by
  unfold regionOf
  rw [if_pos (by omega), Nat.div_eq_of_lt (by omega), Nat.mod_eq_of_lt (by omega)]

theorem exch_area (i : Nat) (h : 64 * i < 0x400000) :
    exchState.localAddr 0 (0x1000000 + 64 * i) true = some (0x020000000000 + 64 * i) := by
  have h0 : findMap exchBerth.maps (0x1000000 + 64 * i) = some { va := 0x1000000, pa := 0x020000000000, shift := 16, pages := 64 } := by
    unfold findMap
    rw [show exchBerth.maps = [{ va := 0x10000, pa := 0x4000000, shift := 16, pages := 1 },
      { va := 0x1000000, pa := 0x020000000000, shift := 16, pages := 64 }] from rfl,
      List.find?_cons_of_neg (by simp; omega), List.find?_cons_of_pos (by simp; omega)]
  have h1 : translate exchBerth.maps (0x1000000 + 64 * i) true = some (0x020000000000 + 64 * i) := by
    simp only [Machine.translate, h0]
    simp
  have h2 := region_dsm i h
  have h3 : (exchState.berth 0).maps = exchBerth.maps := rfl
  have h4 : (0x020000000000 + 64 * i) / 2 ^ 48 % 16 = 0 := by omega
  have h5 : (0x020000000000 + 64 * i) / 2 ^ 52 = 0 := by omega
  have h6 : (0x020000000000 + 64 * i) % 2 ^ 48 = 0x020000000000 + 64 * i := by omega
  have h7 : exchState.granted 0 (0x020000000000 + 64 * i) true = true := by
    simp only [State.granted, h2]; rfl
  simp only [State.localAddr, State.checkVirt, h3, h1, State.checkPhys, h4, h5, h6, h2, h7]
  simp

/-- A page of the first stack of a module with one berth is its berth's, whatever the address below 2^28. -/
theorem stack_local (s : State) (B : BerthSt) (va pa : Nat) (w : Bool) (hb : s.berths = [(0, B)]) (hs : s.segOf pa = none)
    (hh : s.hbm = []) (hd : B.dies = [0]) (hw : s.snapArea 0 = (0, 0)) (hp : pa < 2 ^ 28)
    (hq : 0x4000000 ≤ pa) (ht : translate B.maps va w = some pa) : s.localAddr 0 va w = some pa := by
  have h2 : regionOf pa = .stack 0 pa := by
    unfold regionOf
    rw [if_pos (by omega), Nat.div_eq_of_lt (by omega), Nat.mod_eq_of_lt (by omega)]
  have h3 : s.berth 0 = B := by unfold State.berth tget; rw [hb]; rfl
  have h4 : pa / 2 ^ 48 % 16 = 0 := by omega
  have h5 : pa / 2 ^ 52 = 0 := by omega
  have h6 : pa % 2 ^ 48 = pa := by omega
  have h7 : s.granted 0 pa w = true := by
    have a := hs
    have b : s.carved pa = false := by
      have z : pa / 0x1000000000 = 0 := Nat.div_eq_of_lt (by omega)
      have m : pa % 0x1000000000 = pa := Nat.mod_eq_of_lt (by omega)
      have c : ∀ x < 24, s.berthCarved x pa = false := by
        intro x _
        match x with
        | 0 =>
          simp only [State.berthCarved, z, m, hw]
          simp; omega
        | n + 1 =>
          have w : (s.berth (n + 1)).life = .absent := by unfold State.berth tget; rw [hb]; rfl
          simp [State.berthCarved, w]
      simp only [State.carved, a]
      simpa using c
    simp only [State.granted, h2, a, b, h3]
    simp [hd]
  have h8 : ¬ (s.stack 0).limit ≤ pa := by
    have : (s.stack 0).limit = 2 ^ 36 := by unfold State.stack; rw [hh]; rfl
    omega
  simp only [State.localAddr, State.checkVirt, h3, ht, State.checkPhys, h4, h5, h6, h2, h7, h8]
  simp

theorem exch_page (i : Nat) (h : 64 * i < 0x4000) :
    exchState.localAddr 0 (0x14000 + 64 * i) true = some (0x4004000 + 64 * i) := by
  refine stack_local exchState exchBerth _ _ true rfl rfl rfl rfl (by decide +kernel) (by omega) (by omega) ?_
  have h0 : findMap exchBerth.maps (0x14000 + 64 * i) = some { va := 0x10000, pa := 0x4000000, shift := 16, pages := 1 } := by
    unfold findMap
    rw [show exchBerth.maps = [{ va := 0x10000, pa := 0x4000000, shift := 16, pages := 1 },
      { va := 0x1000000, pa := 0x020000000000, shift := 16, pages := 64 }] from rfl,
      List.find?_cons_of_pos (by simp; omega)]
  simp only [Machine.translate, h0]
  simp; omega

/-- An engine's areas, where the entry's fields keep R319. -/
theorem exchStore_of (s : State) (b d sva sn cva cn : Nat) (e : Bytes) (l r : List (Nat × Nat))
    (hr : s.readVirt b (s.exchSet b 0xB010 + 64 * ((s.berth b).dies.takeWhile fun x => x != d).length) 64 = some e)
    (n1 : leAt e 0 8 = cva) (n2 : leAt e 8 8 = cn) (n3 : leAt e 16 8 = sva) (n4 : leAt e 24 8 = sn)
    (hl : s.localRange b cva cn true = some l) (hr1 : s.localRange b sva sn true = some r)
    (f : cva % 16384 = 0 ∧ cn % 1048576 = 0 ∧ 4 * 1048576 ≤ cn ∧ cn ≤ 64 * 1048576 ∧ sva % 16384 = 0 ∧ sn % 16384 = 0 ∧
      leAt e 32 32 = 0)
    (hl' : ∀ p ∈ l, ∃ o, regionOf p.1 = .dsm d o) (hr' : ∀ p ∈ r, ∃ o, regionOf p.1 = .stack d o) :
    s.exchStore b d = some (sva, sn) := by
  unfold State.exchStore
  simp only [hr, n1, n2, n3, n4, hl, hr1]
  rw [if_pos]
  obtain ⟨f1, f2, f3, f4, f5, f6, f7⟩ := f
  refine ⟨f1, f2, f3, f4, f5, f6, f7, ?_, ?_⟩
  · rw [List.all_eq_true]; intro p hp; obtain ⟨o, ho⟩ := hl' p hp; simp [ho]
  · rw [List.all_eq_true]; intro p hp; obtain ⟨o, ho⟩ := hr' p hp; simp [ho]

theorem exch_store : exchState.exchStore 0 0 = some (0x14000, 0x4000) := by
  obtain ⟨l, hl, hl'⟩ := localRange_of exchState 0 0x1000000 0x400000 (fun pa => ∃ o, regionOf pa = .dsm 0 o) (by decide)
    (fun i hi => ⟨_, exch_area i hi, _, region_dsm i hi⟩)
  obtain ⟨r, hr, hr'⟩ := localRange_of exchState 0 0x14000 0x4000 (fun pa => ∃ o, regionOf pa = .stack 0 o) (by decide)
    (fun i hi => ⟨_, exch_page i hi, _, region_page i hi⟩)
  exact exchStore_of exchState 0 0 _ _ 0x1000000 0x400000 ([0x1000000, 0x400000, 0x14000, 0x4000, 0, 0, 0, 0].flatMap (leBytes 8))
    l r (by decide +kernel) (by decide) (by decide) (by decide) (by decide) hl hr (by decide) hl' hr'

/-- What the engine knows of the bucket: it passes every check of R324. -/
def exchC : ExCtx := {
  b := 0, die := 0, i := 0, k := bktOf ([1 + 2 ^ 16, 0x10400, 0x10500, 0, 0x10600, 0, 0, 0].flatMap (leBytes 8)), p := 1, rank := 0
  members := [0], tag := 1581570873, store := 0x14000, scale := 0 }

/-- A context, where every check of R324 holds. -/
theorem exchCtx_of (s : State) (b d i q sva sn : Nat) (w l : Bytes) (sc : Int) (h0 : s.exchSet b 0xB001 ≤ i → False)
    (h1 : s.bktBytes b i = some w) (h2 : (bktOf w).en = true) (h3 : bktFormOk w = true)
    (h4 : s.groupMembers b (bktOf w).group = some l)
    (h5 : (memberWords l).findIdx? (fun x => x == s.memberNode + d * 4096) = some q) (h6 : membersOk (memberWords l) = true)
    (h7 : (s.exchRange b (bktOf w).src (2 * (bktOf w).elems) true false &&
      s.exchRange b (bktOf w).res (2 * (bktOf w).elems) false true &&
      ((bktOf w).mode == 0 || s.exchRange b (bktOf w).rem (4 * (bktOf w).elems) true true) &&
      s.exchRange b (bktOf w).dig 128 true true) = true)
    (h8 : s.exchStore b d = some (sva, sn))
    (h9 : sn < (bktOf w).cell + recordBytes (memberWords l).length
      (shardElems (bktOf w).elems (memberWords l).length (ownShard (memberWords l).length q i)) → False)
    (h10 : s.exchScale b (bktOf w) = some sc) :
    s.exchCtx b d i = .ok { b := b, die := d, i := i, k := bktOf w, p := (memberWords l).length, rank := q,
                            members := memberWords l, tag := bucketTag l (bktOf w), store := sva + (bktOf w).cell, scale := sc } := by
  unfold State.exchCtx
  rw [if_neg h0, h1]
  simp only [h2, h3, h4, h5, h6, h7, h8, h10]
  rw [if_neg (by simp), if_neg (by simp), if_neg (by simp), if_neg (by simp), if_neg h9]

theorem exch_knows : exchState.exchCtx 0 0 0 = .ok exchC :=
  (exchCtx_of exchState 0 0 0 0 0x14000 0x4000 _ [0, 0, 0, 0] 0 (by decide +kernel)
    (show _ = some ([1 + 2 ^ 16, 0x10400, 0x10500, 0, 0x10600, 0, 0, 0].flatMap (leBytes 8)) by decide +kernel) (by decide +kernel)
    (by decide +kernel) (by decide +kernel) (by decide +kernel) (by decide +kernel) (by decide +kernel) exch_store (by decide +kernel)
    (by decide +kernel)).trans (congrArg Except.ok (by decide +kernel))

/-- The same with another state of the engine. -/
def exchWith (x : ExchSt) : State := { exchState with fabric := { exchState.fabric with exch := [(0, x)] } }

theorem witness_exchange : exchState.berthOfDie 0 = some 0 ∧ (exchState.exch 0).posts = [0] ∧ exchState.postWaits 0 0 = false ∧
    EngineHas exchState 0 0 0 (pkt 1) ∧ EngineHas exchState 0 1 0 (pkt 4) ∧ leAt (pkt 1) 0 1 ≠ 4 ∧ leAt (pkt 4) 0 1 = 4 ∧
    exchState.contribFault exchC (pkt 1) = 0 ∧ exchState.contribFault exchC (pkt 4) ≠ 0 ∧ exchState.resultFault exchC (pkt 4) = 0 ∧
    exchState.resultFault exchC (pkt 1) ≠ 0 ∧ exchState.round 0 0 = some { round := 1, accepted := 1 } ∧
    ({ round := 1, accepted := 1 } : RoundSt).inFlight = true := by
  refine ⟨?_, ?_, ?_, ⟨?_, ?_, ?_⟩, ⟨?_, ?_, ?_⟩, ?_⟩ <;> decide +kernel

/-- A round that its last result ends. -/
theorem witness_exchange_end :
    (exchWith { rounds := [(0, { round := 1, posted := true, owned := true })] }).resultFault exchC (pkt 4) = 0 ∧
    resultsDue exchC = [((pktHdr (pkt 4)).shard, (pktHdr (pkt 4)).offset)] := by decide +kernel

/-- The context of the engine with a post and of a bucket that is not there. -/
theorem witness_exchange_code : codeOf ((exchWith { posts := [1] }).exchCtx 0 0 1) = 0x05C0 := by decide +kernel

theorem witness_shards : (1 : Nat) ≤ 1 ∧ shardElems 1 1 0 = 1 := by decide

/-! The fabric. -/

/-- The job's module with port 0 as given. -/
def withLink (l : LinkSt) : State := { inJob demo with fabric := { demoFabric with ports := [(0, l)] } }

def flit (t seq : Nat) (body : Bytes) : Bytes := flitBytes t seq (padTo 60 body)

/-- A trained port in the middle of a frame; one without a frame. -/
def midFrame : LinkSt := { life := .active, rxSeq := 4096, rxFrame := [1], rxLeft := 2, replay := some 1 }

theorem witness_data_flits : ((withLink midFrame).link 0).on = true ∧ flitOk (flit 2 0 [9]) = true ∧ flitType (flit 2 0 [9]) = 2 ∧
    leAt (flit 2 0 [9]) 60 2 % 4096 = ((withLink midFrame).link 0).rxSeq % 4096 ∧ 2 ≤ midFrame.rxLeft ∧
    flitType (flit 1 0 [1, 0, 0, 2]) = 1 ∧ 2 ≤ leAt ((flit 1 0 [1, 0, 0, 2]).take 60) 3 1 ∧
    leAt ((flit 1 0 [0x10, 0, 0, 1]).take 60) 3 1 ≤ 1 ∧ leAt (flit 1 0 [0x10, 0, 0, 1]) 0 1 = 0x10 ∧
    flitOk ((flit 1 0 []).set 3 1) = false ∧ leAt (flit 1 5 []) 60 2 % 4096 ≠ midFrame.rxSeq % 4096 := by decide +kernel

theorem witness_control_flits : CtlIn (withLink midFrame) 0 8 (flit 8 0 [7, 0]) ∧ CtlIn (withLink midFrame) 0 9 (flit 9 0 []) ∧
    CtlIn (withLink midFrame) 0 0xA (flit 0xA 0 [7, 0, 1]) ∧ CtlIn (withLink midFrame) 0 0xB (flit 0xB 0 [1, 3, 8, 0, 5, 0]) ∧
    [({ ftype := 1, seq := 7, body := [] } : FlitSt)].findIdx? (fun f => f.seq == leAt (flit 8 0 [7, 0]) 0 2 % 4096) = some 0 ∧
    leAt (flit 0xB 0 [1, 3, 8, 0, 5, 0]) 0 1 = 1 ∧ leAt (flit 0xB 0 [2, 3, 8, 0, 5, 0]) 0 1 = 2 ∧
    ({ leaving := 3, taking := 8, codeword := 5 } : LaneChange).codeword = leAt (flit 0xB 0 [2, 3, 8, 0, 5, 0]) 4 2 := by
  refine ⟨⟨?_, ?_, ?_⟩, ⟨?_, ?_, ?_⟩, ⟨?_, ?_, ?_⟩, ⟨?_, ?_, ?_⟩, ?_⟩ <;> decide +kernel

theorem witness_lanes : 3 ∉ (({} : LinkSt)).retired ∧ (({ life := .active } : LinkSt)).on = true ∧
    4 ≤ ([0, 1, 2, 3, 4].filter fun y => y != 3).length ∧ ([0, 1, 2, 3].filter fun y => y != 3).length < 4 ∧
    (withLink {}).portFree 0 = true ∧ (withLink { life := .instrument }).portFree 0 = false := by decide +kernel

/-! Frames built with their CRC pass its check. -/

theorem leNat_bytes4 (c : Nat) (h : c < 2 ^ 32) : leNat (leBytes 4 c) = c := by
  have : leBytes 4 c = [BitVec.ofNat 8 (c / 2 ^ (8 * 0)), BitVec.ofNat 8 (c / 2 ^ (8 * 1)), BitVec.ofNat 8 (c / 2 ^ (8 * 2)),
    BitVec.ofNat 8 (c / 2 ^ (8 * 3))] := rfl
  rw [this]
  simp [leNat]
  omega

/-- A frame built with its CRC passes the check, whatever its length. -/
theorem frameOk_append (hb pd : Bytes) (h28 : hb.length = 28) (hl : pd.length = 16 * leAt hb 3 1) :
    frameOk (hb ++ leBytes 4 (crc32 (hb ++ zeros 4 ++ pd)) ++ pd) = true := by
  have hc : crc32 (hb ++ zeros 4 ++ pd) < 2 ^ 32 := BitVec.isLt _
  generalize hx : crc32 (hb ++ zeros 4 ++ pd) = c at hc
  have l4 : (leBytes 4 c).length = 4 := by simp [leBytes]
  have d3 : leAt (hb ++ leBytes 4 c ++ pd) 3 1 = leAt hb 3 1 := by
    unfold leAt
    rw [List.append_assoc, List.drop_append_of_le_length (by omega), List.take_append_of_le_length (by simp; omega)]
  have p : payloadOf (hb ++ leBytes 4 c ++ pd) = pd := by
    unfold payloadOf
    rw [d3, List.drop_append, List.drop_eq_nil_of_le (by simp [l4, h28]), List.nil_append]
    simp [l4, h28, ← hl]
  have c4 : leAt (hb ++ leBytes 4 c ++ pd) 28 4 = c := by
    unfold leAt
    rw [List.append_assoc, List.drop_append, List.drop_eq_nil_of_le (by omega), List.nil_append, h28, Nat.sub_self, List.drop_zero,
      List.take_append_of_le_length (by omega), List.take_of_length_le (by omega), leNat_bytes4 c hc]
  have t : (hb ++ leBytes 4 c ++ pd).take 28 = hb := by
    rw [List.append_assoc, List.take_append_of_le_length (by omega), List.take_of_length_le (by omega)]
  unfold frameOk
  rw [d3, p, c4, t, hx]
  simp [l4, h28, ← hl]
  omega

theorem frameOk_mkFrame (h : FrameHdr) (p : Bytes) (h28 : (hdrBytes h ((p.length + 15) / 16)).length = 28)
    (hl : (padTo (16 * ((p.length + 15) / 16)) p).length = 16 * leAt (hdrBytes h ((p.length + 15) / 16)) 3 1) :
    frameOk (mkFrame h p) = true := frameOk_append _ _ h28 hl

/-! Discovery frames from node 5 at port 0. -/

def disc (sub : Nat) (body : Bytes) : Bytes :=
  mkFrame { kind := 0x10, cls := 0, ttl := 1, job := 0, dst := 0, src := 5 }
    (leBytes 1 sub ++ [1] ++ leBytes 2 body.length ++ leBytes 2 5 ++ zeros 10 ++ body)

def discBody (sub : Nat) : Bytes :=
  match sub with
  | 1 => [0, 0, 1, 0] ++ zeros 12 ++ zeros 32
  | 2 => [0, 0, 1, 0, 3, 0, 0, 0, 3, 0] ++ zeros 6 ++ [7, 8, 9]
  | 3 => zeros 48
  | _ => zeros 112

def withInbox (f : Bytes) (l : LinkSt) : State := { inJob demo with fabric := { demoFabric with ports := [(0, l)], inbox := [(0, f)] } }

theorem disc_frames_ok : frameOk (disc 1 (discBody 1)) = true ∧ frameOk (disc 2 (discBody 2)) = true ∧
    frameOk (disc 3 (discBody 3)) = true ∧ frameOk (disc 4 (discBody 4)) = true := by
  refine ⟨?_, ?_, ?_, ?_⟩ <;> exact frameOk_mkFrame _ _ (by decide +kernel) (by decide +kernel)

/-- The frame has arrived; see `disc_frames_ok` for its CRC. -/
theorem witness_discovery_inbox (f : Bytes) (l : LinkSt) : (withInbox f l).fabric.inbox[0]? = some (0, f) := rfl

theorem witness_discovery : [1, 2, 3, 4].all (fun n =>
      leAt (disc n (discBody n)) 0 1 == 0x10 && leAt (payloadOf (disc n (discBody n))) 0 1 == n &&
        discFormOk (payloadOf (disc n (discBody n)))) = true ∧
    (withLink { life := .discovery }).portGang 0 = some 0 ∧ (withLink {}).portGang 1 = none ∧
    (withLink {}).gangMask 0 = some ((withLink {}).nodeId ^^^ 5) ∧ leAt (payloadOf (disc 1 (discBody 1))) 4 2 = 5 ∧
    leAt (payloadOf (disc 1 (discBody 1))) 6 1 = 0 ∧ demo.lk.seFailed = false ∧
    (withLink {}).gangMask 0 ≠ some ((withLink {}).nodeId ^^^ 6) := by decide +kernel

/-- The plan with the fingerprint of a certificate, and another fingerprint. -/
theorem witness_fingerprint : ({ demo with fabric := { demoFabric with
      plans := [(1, { bytes := demoPlan.take 80 ++ sha384 [1, 2, 3], st := 2 })] } } : State).fprOk 0 (sha384 [1, 2, 3]) = true ∧
    (withLink {}).fprOk 0 (sha384 [1, 2, 3]) = false := by decide +kernel

/-! Cut plans, transit, windows, fabric dies. -/

theorem witness_plans : demo.planCode 1 [] ≠ 0 ∧ (inJob demo).planCode 1 demoPlan = 0 ∧ ((inJob demo).plan 1).st = 2 ∧
    (∀ p ∈ planPorts demoPlan, ((inJob demo).link p).life = .active) ∧ (∃ p ∈ planPorts demoPlan, (demo.link p).life ≠ .active) ∧
    (demo.plan 2).st = 0 ∧ ({ bytes := demoPlan, st := 1, waiting := true } : PlanSt).waiting = true := by decide +kernel

/-- A frame of job 7 for node 5 that arrives with one hop to live. -/
def passing (ttl : Nat) : Bytes := mkFrame { kind := 1, cls := 2, ttl := ttl, job := 7, dst := 5, src := 4 } []

theorem witness_transit : (withInbox (passing 1) {}).fabric.inbox[0]? = some (0, passing 1) ∧ (hdrOf (passing 1)).kind ≠ 0x10 ∧
    (hdrOf (passing 1)).dst ≠ (withInbox (passing 1) {}).nodeId ∧ (hdrOf (passing 0)).ttl = 0 ∧ (hdrOf (passing 1)).ttl ≠ 0 ∧
    ((withInbox (passing 1) { life := .active }).exitFor 7 5 (some 1) 1).isSome = true ∧
    ((withInbox (passing 1) { life := .active }).exitFor 7 5 (some 0) 1).isSome = true ∧
    (withInbox (passing 1) { life := .down }).exitFor 7 5 none 1 = none := by decide +kernel

/-- The one port of the gang is taken whatever the flow hash. -/
theorem witness_transit_port (h : FrameHdr) : (withInbox (passing 1) { life := .active }).pickPort 0 7 h = some 0 := by
  have a : (withInbox (passing 1) { life := .active }).activePlan 7 = some demoPlan := by decide +kernel
  have b : (withInbox (passing 1) { life := .active }).activePorts 0 = [0] := by decide +kernel
  have c : planShare demoPlan 0 = 64 := by decide +kernel
  simp [State.pickPort, a, b, c, Nat.mod_one]

/-- A window on the mapped page for job 7, with every permission; one of no length. -/
def winE : BitVec 128 := BitVec.ofNat 128 (0xF + 7 * 2 ^ 16 + 0x400 * 2 ^ 32 + 2 ^ 64)

theorem witness_windows : (inJob demo).windowFormOk 0 winE = true ∧ winE.getLsbD 0 = true ∧ (inJob demo).windowFormOk 0 1 = false ∧
    (0 : BitVec 128).getLsbD 0 = false ∧ (inJob demo).windowFormOk 131072 winE = false := by decide +kernel

/-- Requests of node 5 to the window: a read, a write, an atomic; one beyond the window. -/
def request (kind op addr : Nat) : Bytes :=
  mkFrame { kind := kind, cls := 2, job := 7, dst := 4, src := 5, unit := 3, addr := addr, op := op } (if kind = 1 then [] else leBytes 16 9)

def atHome (f : Bytes) : State := { inJob demo with
  fabric := { demoFabric with windows := [(0, winE)], inbox := [(0, f)], routes := [] } }

theorem witness_requests : [1, 2, 3].all (fun k => frameOk (request k 2 0x4000000) && (hdrOf (request k 2 0x4000000)).kind == k &&
      (hdrOf (request k 2 0x4000000)).dst == (atHome []).nodeId) = true ∧
    (atHome (request 1 2 0x4000000)).requestStatus (hdrOf (request 1 2 0x400FFFC)) 1 4 = 0 ∧
    (atHome (request 1 2 0x4000000)).requestStatus (hdrOf (request 1 2 0x4010000)) 1 4 = 1 ∧
    ({ atHome [] with hbm := [(0, { limit := 0x4000000 })] } : State).requestStatus (hdrOf (request 2 2 0x4000000)) 2 4 = 2 ∧
    (atHome []).wcbRoom 0x4000000 = true ∧ (hdrOf (request 2 2 0)).seq ∉ ((atHome []).histOf (hdrOf (request 2 2 0))).performed ∧
    (remoteAtomic (hdrOf (request 3 2 0)) []).bytes = 4 := by decide +kernel

theorem test_remote_write : (after (.writeRequest 0 false) (atHome (request 2 2 0x4000000))).mem.num 0x4000000 4 = 9 ∧
    (after (.atomicRequest 0 false) (atHome (request 3 2 0x4000000))).mem.num 0x4000000 4 = 9 ∧
    (after (.writeRequest 0 false) (atHome (request 2 2 0x4010000))).mem = demo.mem := by decide +kernel

/-- A response to the one request of core 0, and the same with a denial. -/
def response (kind status : Nat) : Bytes :=
  mkFrame { kind := kind, cls := 2, job := 7, dst := 4, src := 5, unit := 0, status := status } (leBytes 16 9)

def oneReq : ReqSt := { unit := 0, die := 0, node := 5, access := 1 }

def asking (f : Bytes) (reqs : List ReqSt) : State := { oneAcc .load none 0 false 4 with
  fabric := { demoFabric with inbox := [(0, f)], reqs := reqs } }

theorem witness_responses : [4, 5].all (fun k => frameOk (response k 0) && (hdrOf (response k 0)).kind == k) = true ∧
    (hdrOf (response 4 0)).dst = (asking [] []).nodeId ∧ (asking [] []).waitingFor (hdrOf (response 4 0)) = none ∧
    (asking [] [oneReq]).waitingFor (hdrOf (response 4 1)) = some oneReq ∧ (hdrOf (response 4 1)).status = 1 ∧
    ((asking [] [oneReq]).core oneReq.core).access oneReq.access ≠ none ∧
    [oneReq].find? (fun r => r.unit == 0 && r.node == 5 && r.seq == 0) = some oneReq ∧ oneReq.die ∉ demo.defects.fenced := by
  decide +kernel

theorem witness_fabric_dies : (tget demo.fabric.fds {} 7).up = true ∧
    (tget ({ fds := [(7, { up := false })] } : FabricSt).fds {} 7).up = false ∧ 7 ∉ demo.defects.fencedFds ∧ demo.lk.active ≠ none := by
  decide +kernel

/-! Step boundaries and retirement. -/

/-- Queue 3 of B0, with what it runs. -/
def demoQueue (step : Bool) (run : Option RunSt) : QueueSt := {
  ctx := 2, pos := 0, step := step, log2 := 4, hostRing := 0x8000, cplRing := 0x9000, staging := 0x10800, admitted := 1,
  resident := true, run := run }

def withQueue (q : QueueSt) (b : BerthSt) : State := { demo with
  berths := [(0, { b with queues := [(3, q)] })], ctxs := [(2, { berth := 0 })] }

/-- A command of an opcode that has ended with status 0. -/
def ended (ws : List Nat) : RunSt := { index := 0, words := ws, done := some 0 }

theorem witness_boundaries : (demo.berth 0).held = false ∧ demo.lk.active ≠ none ∧ demo.up = true ∧ (tget demo.snaps {} 0).phase = 0 ∧
    demo.setting 0x8011 1 0 = 0 ∧ demo.canonical ∧ demo.hostUp = true ∧
    (withQueue (demoQueue false (some (ended (List.replicate 8 0)))) demoBerth).queue 0 3 =
      some (demoQueue false (some (ended (List.replicate 8 0)))) ∧
    (withQueue (demoQueue false none) demoBerth).endsStep 0 (demoQueue false (some (ended (List.replicate 8 0)))) = false ∧
    (withQueue (demoQueue false none) demoBerth).ctxGone 2 = false := by
  refine ⟨?_, ?_, ?_, ?_, ?_, ⟨?_, ?_, ?_⟩, ?_⟩ <;> decide +kernel

/-- A step-end command of a step queue. -/
theorem witness_step_end : (withQueue (demoQueue true none) demoBerth).endsStep 0
    (demoQueue true (some (ended [0x100, 0, 0, 0, 0, 0, 0, 0]))) = true ∧ (demoQueue true none).destroying = false := by decide +kernel

/-! Streams and takes. -/

/-- Fields of a stream that keep R387: die 0, 512 slots at 0x1000000, one-fragment records, port 0, key 0x77. -/
def strmSets : Tbl Nat := [(3, 0x1000000), (4, 512), (6, 1), (7, 8192), (9, 5), (0xA, 0x77), (0xB, 1)].map fun p => (0xC10000 + p.1, p.2)

def srcA : Bytes := zeros 15 ++ [1]

def basinBerth : BerthSt := { demoBerth with
  maps := demoBerth.maps ++ [{ va := 0x1000000, pa := 0x8000000, shift := 16, pages := 66 }], tally := 4 }

def basinState (x : StreamSt) (b : BerthSt) : State := { State.reset with
  berths := [(0, b)], streams := [(0, x)], dict := { sets := strmSets, blobs := [(0xC10008, srcA)] } }

def strmOn : StreamSt := { enable := 1, st := 2, epoch := 3 }

/-- A frame of one byte of record 4. -/
def strmFrame (key seq : Nat) : Bytes :=
  let h := [0x50, 0x56, 0x53, 0x46, 1, 1] ++ beBytes 2 1 ++ beBytes 4 key ++ beBytes 4 3 ++ beBytes 8 seq ++ beBytes 8 4 ++
    beBytes 4 1 ++ beBytes 4 0 ++ beBytes 4 (crc32c [9])
  h ++ beBytes 4 (crc32c (h ++ zeros 4 ++ [9])) ++ [9]

/-- The check value that the manual's polynomial gives the digits 1 to 9. -/
theorem test_crc32c : crc32c ([0x31, 0x32, 0x33, 0x34, 0x35, 0x36, 0x37, 0x38, 0x39] : Bytes) = 0xE3069283 := by decide +kernel

theorem witness_frames : FrameOf (basinState strmOn basinBerth) 0 srcA 5 40000 0 0 ∧
    (basinState strmOn basinBerth).frameFate 0 0 true (strmFrame 0x77 0) = .land ∧
    (basinState strmOn basinBerth).frameFate 0 0 true (strmFrame 0x77 511) = .land ∧
    (basinState strmOn basinBerth).frameFate 0 0 true (strmFrame 0x77 512) = .breach ∧
    (basinState strmOn basinBerth).frameFate 0 0 true (strmFrame 0x78 0) = .other ∧
    (basinState strmOn basinBerth).frameFate 0 0 false (strmFrame 0x77 0) = .crc ∧
    ((basinState strmOn basinBerth).strm 0 0).breachSaid = false ∧
    40384 ≥ (basinState strmOn basinBerth).udpBase + 384 ∧ 39999 < (basinState strmOn basinBerth).udpBase := by
  refine ⟨⟨?_, ?_, ?_, ?_, ?_, ?_, ?_, ?_⟩, ?_⟩ <;> decide +kernel

theorem witness_enable : DictUp (basinState {} basinBerth) ∧ (basinState {} basinBerth).strmFormOk 0 0 1 = true ∧
    (basinState {} demoBerth).enableCode 0 0 3 = 0x080B ∧ (basinState strmOn demoBerth).enableCode 0 0 2 = 0x0640 := by
  refine ⟨⟨?_, ?_⟩, ?_⟩ <;> decide +kernel

theorem basin_page (i : Nat) (h : i < 1032) (w : Bool) :
    (basinState {} basinBerth).localAddr 0 (0x1000000 + 4096 * i) w = some (0x8000000 + 4096 * i) := by
  refine stack_local _ basinBerth _ _ w rfl rfl rfl rfl (by decide +kernel) (by omega) (by omega) ?_
  have h0 : findMap basinBerth.maps (0x1000000 + 4096 * i) = some { va := 0x1000000, pa := 0x8000000, shift := 16, pages := 66 } := by
    unfold findMap
    rw [show basinBerth.maps = [{ va := 0x10000, pa := 0x4000000, shift := 16, pages := 1 },
      { va := 0x1000000, pa := 0x8000000, shift := 16, pages := 66 }] from rfl,
      List.find?_cons_of_neg (by simp; omega), List.find?_cons_of_pos (by simp; omega)]
  simp only [Machine.translate, h0]
  simp

theorem witness_basin : (basinState {} basinBerth).basinOk 0 0 = true := by
  have e : (basinState {} basinBerth).basinOk 0 0 = (List.range 1032).all fun i =>
      match (basinState {} basinBerth).localAddr 0 (0x1000000 + 4096 * i) false,
        (basinState {} basinBerth).localAddr 0 (0x1000000 + 4096 * i) true with
      | some pa, some _ => match regionOf pa with
        | .stack x _ => x == 0
        | _ => false
      | _, _ => false := rfl
  rw [e, List.all_eq_true]
  intro i hi
  rw [List.mem_range] at hi
  have h2 : regionOf (0x8000000 + 4096 * i) = .stack 0 (0x8000000 + 4096 * i) := by
    unfold regionOf
    rw [if_pos (by omega), Nat.div_eq_of_lt (by omega), Nat.mod_eq_of_lt (by omega)]
  simp [basin_page i hi, h2]

theorem witness_enable_ok : (basinState {} basinBerth).enableCode 0 0 1 = 0 := by
  have f : (basinState {} basinBerth).strmFormOk 0 0 1 = true := by decide +kernel
  have e : ((basinState {} basinBerth).strm 0 0).enable = 0 := by decide +kernel
  have l : ((basinState {} basinBerth).berth 0).life = .active := by decide +kernel
  simp [State.enableCode, f, e, l, witness_basin]

/-- Gaps: sequence 0 is missing below 1, for the first time and for the 16th; sequence 2 after a landed one. -/
def gapStrm (n : Nat) : StreamSt := { strmOn with high := 4, landed := [(1, []), (3, [])], gaps := [(0, n)] }

theorem witness_gaps : (basinState (gapStrm 0) basinBerth).strmPort 0 0 = some 0 ∧ (gapStrm 0).enable = 1 ∧ (gapStrm 0).low ≤ 0 ∧
    emptyRun (gapStrm 0) 0 ≠ 0 ∧ emptyRun (gapStrm 0) 2 ≠ 0 ∧ tfind (gapStrm 0).landed (2 - 1) ≠ none ∧ (gapStrm 0).bad = none ∧
    tget (gapStrm 15).gaps 0 0 = 15 ∧ ({ strmOn with ackOpen := true, ackDue := true } : StreamSt).ackOpen = true ∧
    ({ strmOn with rewindLeft := 3 } : StreamSt).rewindLeft ≠ 0 ∧
    freeSlots ((basinState strmOn basinBerth).strmCfg 0 0) { strmOn with high := 504 } ≤ 0 + 8 ∧
    ({ strmOn with goLeft := 3 } : StreamSt).stopped = false := by decide +kernel

/-- Record 4 stands at the head of the stream. -/
def readyStrm : StreamSt := { strmOn with
  low := 0, high := 1, nextSeq := 1, chk := 1, prev := some 4, landed := [(0, (strmFrame 0x77 0).take 48)]
  ready := [{ record := 4, first := 0, frags := 1, len := 1 }] }

def oneTake (n taken : Nat) : TakeSt := {
  queue := 3, dst := 0x10000, dstBytes := n, list := 0x10200, count := 1, taken := taken, before := 4 }

def taking (x : StreamSt) (t : TakeSt) (l : Tbl (Nat × Nat)) : State := basinState x { basinBerth with take := some t, skips := l }

theorem witness_takes : ((taking readyStrm (oneTake 64 0) []).berth 0).take = some (oneTake 64 0) ∧
    (taking readyStrm (oneTake 64 0) []).skipPast 0 4 = none ∧
    (taking readyStrm (oneTake 64 0) []).recordAt 0 4 = some (0, { record := 4, first := 0, frags := 1, len := 1 }) ∧
    0 + round64 1 ≤ (oneTake 64 0).dstBytes ∧ (taking strmOn (oneTake 64 0) []).recordAt 0 4 = none ∧
    (taking readyStrm (oneTake 64 0) [(1, (4, 9))]).skipPast 0 4 = some 10 ∧ (oneTake 64 1).count ≤ (oneTake 64 1).taken ∧
    (oneTake 64 0).waited = false ∧ ((taking readyStrm (oneTake 64 0) []).berth 0).held = false := by decide +kernel

/-- A command in the staging ring of queue 3, released, with the mapped page as an object; bytes at 0x10C00. -/
def released (ws : List Nat) (x : StreamSt) (b : BerthSt) : State := { basinState x { b with
    queues := [(3, demoQueue false none)], objs := [(1, { live := true, va := 0x10000, bytes := 0x10000, holders := [2] })] } with
  ctxs := [(2, { berth := 0 })], host := { fn := [(1, { enabled := true, barge := some (0x100000, 12, 2), bargeOwn := 1 })] }
  mem := (({} : Store).write 0x4000800 (ws.flatMap (leBytes 8)) false).write 0x4000C00
    ([0x10400, 64, 0x10500, 1].flatMap (leBytes 8)) false }

/-- A TAKE of one record to 0x10400, with its list at 0x10500; a FEED of one frame. -/
def takeWords : List Nat := [5, 0, 0, 0, 0x10C00, 0, 0, 0x100001]
def feedWords : List Nat := [6, 0, 0, 0, 2 ^ 63, 49, 0, 0]

/-- What a start of a queue's command needs. -/
theorem starts_of {s : State} {b q opc : Nat} {x : QueueSt} {w : List Nat} (h : s.startable b q opc = some (x, w))
    (c : (s.beginCmd b q w).cmdCode b x w = 0) (d : (s.beginCmd b q w).bargeCode b w = 0) : Starts s b q opc w := ⟨x, h, c, d⟩

theorem witness_take_starts : Starts (released takeWords readyStrm basinBerth) 0 3 5 takeWords :=
  starts_of (x := demoQueue false none) (by decide +kernel) (by decide +kernel) (by decide +kernel)

theorem witness_take_code : ((released takeWords readyStrm basinBerth).berth 0).take = none ∧
    ((released takeWords readyStrm basinBerth).beginCmd 0 3 takeWords).takeCode 0 takeWords = 0 := by decide +kernel

theorem witness_feed_starts : Starts (released feedWords { strmOn with enable := 2 } basinBerth) 0 3 6 feedWords :=
  starts_of (x := demoQueue false none) (by decide +kernel) (by decide +kernel) (by decide +kernel)

theorem witness_feed : (((released feedWords { strmOn with enable := 2 } basinBerth).beginCmd 0 3 feedWords).strm 0
    (bitsOf (cw feedWords 5) 35 32)).enable = 2 := by decide +kernel

theorem witness_rewinds : (demo.berth 0).life ≠ .absent ∧ (demo.berth 0).take = none ∧ (demo.berth 0).held = false ∧
    (tget demo.snaps {} 0).phase ≠ 3 ∧ DictUp demo ∧
    ((basinState strmOn { basinBerth with held := true }).berth 0).held = true ∧
    ((basinState strmOn { basinBerth with held := true }).strm 0 0).enable ≠ 0 ∧ demo.ipOf true 0 ≠ some [1] ∧
    ({ demo with dict := { blobs := [(entryKey 0xC001 1, srcA)] } } : State).ipOf false 0 = some srcA := by
  refine ⟨?_, ?_, ?_, ?_, ⟨?_, ?_⟩, ?_⟩ <;> decide +kernel

/-! Berths, segments, fences. -/

/-- The module with settings of the dictionary. -/
def withSets (l : List (Nat × Nat × Nat)) (s : State) : State := { s with
  dict := { s.dict with sets := l.map fun p => (entryKey p.1 p.2.1, p.2.2) } }

/-- Berth B0 in another life, or with more. -/
def withBerth (b : BerthSt) : State := { demo with berths := [(0, b)] }

/-- The settings of a creation of B1 on CD1 and CD2 with half the share. -/
def createSets : List (Nat × Nat × Nat) := [(0x4003, 2, 6), (0x4007, 2, 32)]

theorem witness_creates : DictUp demo ∧ (withSets createSets demo).createCode 1 = 0 ∧ (withSets createSets demo).createCode 0 = 0x07C0 ∧
    demo.createCode 1 = 0x07C1 ∧ ((withBerth { demoBerth with life := .creating }).berth 0).life = .creating ∧
    (demo.berth 0).life ≠ .creating ∧ demoBerth.wantReset = false ∧ demoBerth.wantDusk = false := by
  refine ⟨⟨?_, ?_⟩, ?_⟩ <;> decide +kernel

theorem witness_create_places : homeDie (64 * 0x100000) = some 0 ∧ demo.segOf (64 * 0x100000) = none ∧ homeDie 0x1004000000 = some 1 ∧
    homeDie (64 * (0x1004000000 / 64)) ≠ some 0 ∧ demo.mem.marked 0x4000000 = false := by decide +kernel

theorem witness_resizes : (withSets [(0x4004, 1, 3)] (withBerth demoBerth)).resizeCode 0 = 0 ∧
    (withSets [(0x4004, 1, 2)] (withBerth demoBerth)).resizeCode 0 = 0x07C4 ∧
    ((withBerth { demoBerth with life := .resizing, dies := [0, 1], newDies := [0] }).berth 0).life = .resizing ∧
    (1 : Nat) ∉ [0] := by decide +kernel

theorem test_create : ((after (.berthCreate 1) (withSets createSets demo)).berth 1).dies = [1, 2] := by decide +kernel

theorem witness_resets : (demo.berth 0).life = .active ∧ (demo.berth 5).life = .absent ∧ demo.planned 0 = false ∧
    (inJob demo).planned 0 = true ∧ (tget demo.snaps {} 0).phase = 0 ∧
    ((withBerth { demoBerth with life := .dusk }).berth 0).queues = [] ∧
    ((withBerth { demoBerth with life := .dusk, queues := [(3, demoQueue false none)] }).berth 0).queues ≠ [] ∧
    ((withBerth { demoBerth with life := .resetting }).berth 0).wantDusk = false := by decide +kernel

/-- A shrink of CD0 to half that no translation passes. -/
def shrinking : State := { demo with hbm := [(0, { pending := some 0x800000000 })] }

theorem witness_shrink : (shrinking.stack 0).pending = some 0x800000000 ∧ shrinking.carvedAbove 0 0x800000000 = false ∧
    shrinking.mapsRange { va := 0x10000, pa := 0x4000000, shift := 16, pages := 1 } (stackBase 0 + 0x800000000)
      (0x1000000000 - 0x800000000) = false := by decide +kernel

theorem test_shrink : ((after (.shrinkAcknowledge 0) shrinking).stack 0).limit = 0x800000000 := by decide +kernel

/-- Segment 3 of 2 MiB with copies on CD1 and CD2, in a state and as joined by B0. -/
def withSeg (g : SegSt) (b : BerthSt) : State := withSets [(0x4203, 3, 0x200000), (0x4203, 4, 0x1004000000), (0x4203, 5, 0x2004000000)]
  { withBerth b with segs := [(3, g)] }

def seg3 (st : Nat) : SegSt := { st := st, bytes := 0x200000, primary := 0x1004000000, shadow := 0x3004000000 }

theorem witness_segments : DictUp (withSeg {} demoBerth) ∧ ((withSeg {} demoBerth).seg 3).st = 0 ∧
    (withSeg {} demoBerth).segPlace 0x1004000000 0x200000 = true ∧ (withSeg {} demoBerth).segPlace 0x2004000000 0x200000 = true ∧
    (0x1004000000 / 0x1000000000 : Nat) ≠ 0x2004000000 / 0x1000000000 ∧ ((withSeg (seg3 1) demoBerth).seg 3).st = 1 ∧
    (withSeg (seg3 1) demoBerth).segJoined 3 = false ∧ (withSeg (seg3 2) { demoBerth with segs := 8 }).segJoined 3 = true ∧
    ((withSeg (seg3 3) demoBerth).seg 3).reshadow = none ∧ (withSeg (seg3 3) demoBerth).segPlace 0x2004000000 0x200000 = true ∧
    (0x2004000000 : Nat) / 0x1000000000 ≠ (seg3 3).survivor / 0x1000000000 ∧
    ((withSeg { seg3 3 with reshadow := some 0x2004000000 } demoBerth).seg 3).reshadow = some 0x2004000000 := by
  refine ⟨⟨?_, ?_⟩, ?_⟩ <;> decide +kernel

theorem witness_join : (8#64).getLsbD 3 = true ∧ (demoBerth.segs.getLsbD 3) = false ∧ ((withSeg (seg3 2) demoBerth).seg 3).st = 2 ∧
    (withSeg (seg3 2) demoBerth).mapsRange { va := 0x10000, pa := 0x4000000, shift := 16, pages := 1 } 0x1004000000 0x200000 = false := by
  decide +kernel

theorem witness_join_bits (i : Nat) (h : i < 64) (hb : (8#64).getLsbD i = true) : ((withSeg (seg3 2) demoBerth).seg i).st = 2 := by
  have : i = 3 := by revert i; decide
  subst this; rfl

theorem witness_fences : demo.lk.active ≠ none ∧ (0 : Nat) ∉ demo.defects.fenced ∧ demo.berthOfDie 0 = some 0 ∧
    (0 : Nat) ∈ (after (.dieFence 9 0 3 0) demo).defects.fenced ∧ (24 - 24 : Nat) ∉ demo.defects.fencedFds ∧
    demo.lk.active ≠ some 31 ∧ (31 : Nat) ∉ demo.lk.fenced := by decide +kernel

/-! Functions, mailboxes, requests. -/

/-- The module whose function of B0 is enabled, with a mailbox as given. -/
def boxed (m : Nat) (x : MboxSt) (b : BerthSt) : State := { withBerth b with
  ctxs := [(2, { berth := 0 }), (5, { berth := 0, abandoned := true })], mbox := [(m, x)]
  host := { fn := [(1, { enabled := true })] } }

/-- A request's words, of index and value. -/
def asks (words : List (Nat × Nat)) : MboxSt := { busy := true, inp := words.map fun p => (p.1, BitVec.ofNat 32 p.2) }

/-- B0 with a queue, an object held by context 2 and by 3, and an event. -/
def fullBerth : BerthSt := { demoBerth with
  queues := [(3, demoQueue false none)], objs := [(1, { live := true, va := 0x10000, bytes := 64, holders := [2, 3] })]
  evts := [(1, { live := true, value := 4, creator := 2, holders := [2, 3] })], objNext := 2, evtNext := 2 }

def reqB (s : State) (m req b : Nat) : Bool :=
  m % 4 == 0 && decide (m ≤ 96) && (s.mb m).busy && s.reqWord m 0 % 256 == req && s.reqBerth m == b &&
    decide (s.reqWord m 0 < (if m = 96 then 2 ^ 13 else 2 ^ 8)) && s.lk.active.isSome && (decide (req < 0x20) || m == 96)

theorem reqB_iff {s : State} {m req b : Nat} (h : reqB s m req b = true) : Request s m req b := by
  simp only [reqB, Bool.and_eq_true, beq_iff_eq, decide_eq_true_eq, Bool.or_eq_true, Option.isSome_iff_ne_none] at h
  obtain ⟨⟨⟨⟨⟨⟨⟨h1, h2⟩, h3⟩, h4⟩, h5⟩, h6⟩, h7⟩, h8⟩ := h
  exact ⟨h1, h2, h3, h4, h5, h6, fun _ => h7, fun x => by omega⟩

/-- Requests of B0 in its own service mailbox and in the operator's. -/
theorem witness_requests_served : (∀ r, r < 0x20 → reqB (boxed 0 (asks [(0, r), (1, 2)]) fullBerth) 0 r 0 = true) ∧
    (∀ r, r < 4 → reqB (boxed 96 (asks [(0, 0x20 + r), (1, 2)]) fullBerth) 96 (0x20 + r) 0 = true) := by decide +kernel

theorem witness_doorbells : (boxed 0 {} fullBerth).fnLive 1 = true ∧
    (boxed 0 {} demoBerth).queue (1 - 1) (((boxed 0 {} demoBerth).fn 1).queue) = none ∧
    ({ boxed 0 {} fullBerth with host := { fn := [(1, { enabled := true, queue := 3 })] } } : State).queue (1 - 1) 3 =
      some (demoQueue false none) ∧
    2 ^ (demoQueue false none).log2 - ((demoQueue false none).admitted - (demoQueue false none).retired) <
      (17 % 2 ^ 32 + 2 ^ 32 - (demoQueue false none).admitted % 2 ^ 32) % 2 ^ 32 ∧
    (16 % 2 ^ 32 + 2 ^ 32 - (demoQueue false none).admitted % 2 ^ 32) % 2 ^ 32 ≤
      2 ^ (demoQueue false none).log2 - ((demoQueue false none).admitted - (demoQueue false none).retired) ∧
    (boxed 0 {} fullBerth).ctxGone 2 = false ∧ (boxed 0 {} fullBerth).ctxGone 5 = true ∧ (boxed 0 {} fullBerth).hostUp = true := by
  decide +kernel

theorem witness_mailboxes : (boxed 1 (asks []) fullBerth).fnLive (mbFunction 1) = true ∧ ((boxed 1 (asks []) fullBerth).mb 1).busy = true ∧
    ((boxed 1 (asks []) fullBerth).mb 97).busy = false ∧ (boxed 1 {} fullBerth).fnLive (mbFunction 97) = true ∧
    (boxed 1 {} fullBerth).mbServed 1 = true ∧ (boxed 1 {} fullBerth).mbServed 98 = false ∧ ¬ (1 % 4 = 0 ∧ 1 ≤ 96) ∧
    (boxed 1 {} fullBerth).mbBerth 1 = some 0 ∧ (boxed 1 {} fullBerth).mbBerth 1 ≠ some 7 ∧ reqKnown 0x0F = false ∧ reqKnown 0x23 = true ∧
    (3#32) &&& 0xFFFFFFFE &&& ~~~(({} : MboxSt).dbl) &&& ~~~(({} : MboxSt).dblMask) = 0 ∧
    (3#32) &&& 0xFFFFFFFE &&& ~~~(({ dblMask := 0 } : MboxSt).dbl) &&& ~~~(({ dblMask := 0 } : MboxSt).dblMask) ≠ 0 ∧
    ({ dbl := 3 } : MboxSt).dblMask &&& ~~~(0#32) &&& 3 ≠ 0 := by decide +kernel

theorem test_dbl_set : ((after (.dblSet 0 1 3) (boxed 1 {} fullBerth)).mb 1).dbl = 2 := by decide +kernel

/-- The words of a request for a queue at position 0 of 16 slots. -/
theorem witness_contexts : firstBelow 65536 (fun c => ((boxed 0 {} fullBerth).ctx c).isNone) = some 0 ∧
    (boxed 0 {} fullBerth).ctxOk 0 2 = true ∧ (boxed 0 {} fullBerth).ctxOk 0 5 = false ∧
    (0x40000 < 2 ^ 21 ∧ bitsOf 0x40000 7 5 = 0 ∧ bitsOf 0x40000 15 9 = 0 ∧ 4 ≤ bitsOf 0x40000 20 16 ∧ bitsOf 0x40000 20 16 ≤ 16 ∧
      0x40000 % 32 < demoBerth.dies.length ∧ bitOf 0x40000 8 = false) ∧
    firstBelow 16384 (fun q => ((boxed 0 {} fullBerth).queue 0 q).isNone) = some 0 ∧
    (boxed 0 {} fullBerth).queue 0 3 = some (demoQueue false none) ∧ (boxed 0 {} fullBerth).queue 0 2 = none ∧
    (demoQueue false none).retired ≠ (demoQueue false none).admitted ∧
    allMapped demoBerth.maps 0x10040 64 = true ∧ fullBerth.objFree = [] ∧ fullBerth.objNext < 2 ^ 20 := by decide +kernel

theorem witness_objects : ((boxed 0 {} fullBerth).objAt 0 0x100001).isSome = true ∧
    (∃ x ∈ [2, 3], x ≠ 2) ∧ (∀ x ∈ [2], x = 2) ∧ ((boxed 0 {} fullBerth).evtAt 0 0x40001).isSome = true ∧ fullBerth.evtFree = [] ∧
    fullBerth.evtNext < 2 ^ 18 ∧ ({ status := 1 } : EvtSt).status ≠ 0 := by decide +kernel

/-- The words of BARGE_SETUP, NOTICE_SETUP, MAP, UNMAP, MB_ASSIGN and SEG_LOAD requests that nothing refuses. -/
def setup : State := boxed 96 (asks [(0, 0x20), (1, 0x30000), (3, 0x4010000), (5, 1), (6, 0xC)]) fullBerth

theorem witness_pages : setup.reqLong 96 1 = 0x30000 ∧ setup.reqLong 96 1 % 2 ^ pageShift 0 = 0 ∧ setup.reqWord 96 6 < 16 ∧
    setup.reqWord 96 6 % 4 ≠ 3 ∧ pageShift (setup.reqWord 96 6 % 4) = 16 ∧ setup.reqWord 96 5 = 1 ∧
    (0x10000 + 1 * 2 ^ 16 ≤ setup.reqLong 96 1) ∧ (findMap demoBerth.maps 0x10000).any (fun e => e.shift == 16) = true ∧
    (boxed 0 {} demoBerth).objHandles 0 = [] ∧ (fullBerth.boundary = false ∧ fullBerth.life = .active) := by decide +kernel

theorem witness_setup : (0x210 < 2 ^ 15 ∧ bitsOf 0x210 7 5 = 0 ∧ 16 ≤ 0x210 % 32 ∧ 0x210 % 32 ≤ 26 ∧ bitsOf 0x210 14 8 ≠ 0 ∧
      bitsOf 0x210 14 8 ≤ 64) ∧ ((boxed 0 {} fullBerth).fn 1).bargeOwn = 0 ∧
    (0x100 < 2 ^ 9 ∧ bitsOf 0x100 7 5 = 0 ∧ bitOf 0x100 8 = true ∧ bitOf 0 8 = false) ∧
    ((withSeg (seg3 1) demoBerth).seg 3).st = 1 ∧ 0 + 64 ≤ (seg3 1).bytes := by decide +kernel

theorem test_map : ((after (.mapPages 96) setup).berth 0).maps.length = 2 := by decide +kernel

/-! Commands of queues. -/

/-- A command of queue 3 that starts. -/
theorem starts_ok (ws : List Nat) (h : (released ws strmOn basinBerth).startable 0 3 (cmdOpc ws) = some (demoQueue false none, ws))
    (c : ((released ws strmOn basinBerth).beginCmd 0 3 ws).cmdCode 0 (demoQueue false none) ws = 0)
    (d : ((released ws strmOn basinBerth).beginCmd 0 3 ws).bargeCode 0 ws = 0) :
    Starts (released ws strmOn basinBerth) 0 3 (cmdOpc ws) ws := ⟨_, h, c, d⟩

/-- MARK, COPY, FILL, MADD and XWAIT on the mapped page; a source in the barge window. -/
theorem witness_queue_commands : Starts (released [0, 0, 0, 0, 0, 0, 0, 0] strmOn basinBerth) 0 3 0 [0, 0, 0, 0, 0, 0, 0, 0] ∧
    Starts (released [2, 0, 0, 0, 0x10040, 0x10080, 64, 0x100001] strmOn basinBerth) 0 3 2 [2, 0, 0, 0, 0x10040, 0x10080, 64, 0x100001] ∧
    Starts (released [3, 0, 0, 0, 0x10040, 7, 64, 0x100001] strmOn basinBerth) 0 3 3 [3, 0, 0, 0, 0x10040, 7, 64, 0x100001] ∧
    Starts (released [4, 0, 0, 0, 2 ^ 63, 0x10080, 4, 0x100001] strmOn basinBerth) 0 3 4 [4, 0, 0, 0, 2 ^ 63, 0x10080, 4, 0x100001] ∧
    Starts (released [7, 0, 0, 0, 0, 1, 0, 0] strmOn basinBerth) 0 3 7 [7, 0, 0, 0, 0, 1, 0, 0] := by
  refine ⟨starts_ok _ ?_ ?_ ?_, starts_ok _ ?_ ?_ ?_, starts_ok _ ?_ ?_ ?_, starts_ok _ ?_ ?_ ?_, starts_ok _ ?_ ?_ ?_⟩ <;> decide +kernel

theorem witness_extents : (released [] strmOn basinBerth).extentCode 0 [2, 0, 0, 0, 0x10040, 0x10080, 64, 0x100001] = 0 ∧
    (released [] strmOn basinBerth).extentCode 0 [2, 0, 0, 0, 0x10040, 0x2000000, 64, 0x100001] = 0x0702 ∧
    (released [] strmOn basinBerth).bucketDone 0 0 < 1 ∧ (0 : Nat) ≤ (released [] strmOn basinBerth).bucketDone 0 0 ∧
    ((2 : Nat) ^ 63).testBit 63 = true := by decide +kernel

/-- A queue without a slot, and a die whose 48 slots are taken. -/
theorem witness_slots : ({ demoQueue false none with resident := false } : QueueSt).waiting = true ∧
    (released [] strmOn basinBerth).waitOver 0 [0, 0] = true ∧ ((released [] strmOn basinBerth).residents 0 0).length < 48 := by
  decide +kernel

def crowded : State := withBerth { demoBerth with
  queues := (2, { demoQueue false none with resident := false }) :: (List.range 48).map fun i => (3 + i, { demoQueue false none with retired := 1 }) }

theorem witness_crowded : 48 ≤ (crowded.residents 0 0).length ∧ crowded.evictable 0 0 ≠ [] := by decide +kernel

/-- An image whose code is one EXIT word; its digest is SHA-384 as another program computes it. -/
def demoImage : Bytes := [0x50, 0x56, 0x4B, 0x49, 1, 0, 0, 0, 8, 0, 0, 0, 0, 0, 0, 0, 1, 0] ++ zeros 62 ++
  [0x84, 0x7F, 0xFC, 0xC1, 0xF9, 0x04, 0x41, 0x8B, 0xFD, 0xB9, 0x0F, 0xBF, 0x03, 0x56, 0x22, 0xF8, 0xF7, 0xC7, 0xC1, 0xEA, 0x8A, 0x59, 0xED, 0xC0,
   0x34, 0xB1, 0xDD, 0x57, 0x7F, 0x8B, 0x65, 0x2B, 0xB5, 0x40, 0x9B, 0x1E, 0x23, 0xEA, 0xA8, 0x75, 0xFF, 0x93, 0x7D, 0xDD, 0xD7, 0xB2, 0x66, 0x82] ++
  [0xA5, 0, 0, 0, 0, 0, 0, 0]

theorem test_image : imageFails demoImage 0x0100 = [] := by decide +kernel

/-- A launch of that image at 0x10C00 on core 1 of CD0. -/
def launchWords : List Nat := [1, 0, 0, 0, 0x100001, 0, 2 ^ 25 + 1, 0]

def launching : State :=
  let s := released launchWords strmOn basinBerth
  { s.modBerth 0 (fun x => { x with objs := [(1, { live := true, va := 0x10C00, bytes := 0x400, holders := [2] })] }) with
    mem := s.mem.write 0x4000C00 demoImage false }

theorem witness_launch : Starts launching 0 3 1 launchWords ∧ launching.launchRoom 0 3 launchWords = true ∧
    (launching.beginCmd 0 3 launchWords).launchCode 0 launchWords = 0 ∧
    (launching.beginCmd 0 3 launchWords).imageCode 0 0x10C00 (launching.fwOf 0) = none := by
  refine ⟨starts_of (x := demoQueue false none) ?_ ?_ ?_, ?_, ?_, ?_⟩ <;> decide +kernel

/-- No room where a kernel stands on the core; another image. -/
theorem witness_no_launch : ({ launching with cores := [(1, { kern := some (demoKern demoGroup) })] } : State).launchRoom 0 3 launchWords = false ∧
    lowestFail (imageFails (demoImage.set 8 0) 0x0100) = some (0x0301, 0xFFFFFFFF) ∧
    (demoQueue false none).reserving = false := by decide +kernel

theorem witness_limit : ({ berth := 0, queue := 0, kseq := 0, cores := [0], running := [0], limitMs := 5 } : LaunchSt).limitMs ≠ 0 ∧
    ((tfind demo.launches 1).map fun l => l.limitMs) = some 0 := by decide +kernel

/-! The host's functions and ports. -/

/-- An abandoned context whose one queue runs launch 1. -/
def abandoned : State := { withBerth { demoBerth with
    queues := [(3, { demoQueue false (some { index := 0, words := [1, 0, 0, 0, 0, 0, 0, 0], launch := some 1 }) with ctx := 5 })] } with
  ctxs := [(5, { berth := 0, abandoned := true })] }

theorem witness_grace : (abandoned.ctx 5).any (fun x => x.abandoned) = true ∧ (tfind abandoned.launches 1).any (fun a => !a.stopped) = true ∧
    (boxed 0 {} fullBerth).ctxGone 2 = false ∧ (boxed 0 {} fullBerth).fnLive 1 = true ∧ (demo.hostPort 0).up = true ∧
    (({ demo with host := { ports := [(0, { up := false }), (1, { up := false })] } } : State).hostPort 0).up = false ∧
    (({ demo with host := { ports := [(0, { up := false }), (1, { up := false })] } } : State).hostPort 1).up = false ∧
    demo.power.on = true := by decide +kernel

/-! The dictionary. -/

/-- A keeper session 1 on connection 5 of towpath port 0 with one message in the tick; answers kept. -/
def talk (role : Nat) (kept : List (Nat × Bytes)) (msg : Bytes) : State := { demo with dict := {
  conns := [(5, { port := 0 })], sessions := [(1, { port := 0, conn := 5, role := role, kept := kept })], sessNext := 2
  inbox := [⟨0, 5, msg⟩] } }

def sess (role : Nat) (kept : List (Nat × Bytes)) : SessSt := { port := 0, conn := 5, role := role, kept := kept }

theorem spoken (role : Nat) (kept : List (Nat × Bytes)) (typ seq : Nat) (body : Bytes) (h : seq < 2 ^ 32) (hb : body.length ≤ 1184) :
    Spoken (talk role kept (thnMsg typ 1 seq 0 body)) ⟨0, 5, thnMsg typ 1 seq 0 body⟩ typ 1 seq body (sess role kept) where
  msg := rfl
  sid_lt := by decide
  seq_lt := h
  short := hb
  towpath := Nat.zero_lt_two
  conn := ⟨_, rfl⟩
  session := rfl
  own := ⟨rfl, rfl⟩
  alone := rfl
  up := ⟨by simp [talk, demo, withGroup, on, State.reset], rfl⟩

/-- PING and CLOSE after an answer with SEQ 6; the same SEQ again, and a stale one. -/
theorem witness_sessions : (∀ p ∈ (sess 4 [(6, [])]).kept, p.1 < 7) ∧ (sess 4 [(6, [])]).role ≠ 2 ∧
    (sess 4 [(6, [])]).kept.find? (fun p => p.1 == 6) = some (6, []) ∧ (sess 4 [(6, [])]).kept ≠ [] ∧
    (∀ p ∈ (sess 4 [(6, [])]).kept, 5 < p.1) ∧ (talk 4 [] []).tpServes 0 = true ∧
    beAt (thnMsg 0x12 1 7 0 []) 1 1 = 0x12 ∧ tfind (talk 4 [] []).dict.sessions 9 = none := by decide +kernel

theorem test_ping_answers : (after (.dictionaryTick false) (talk 4 [] (thnMsg 3 1 7 0 []))).out =
    [{ kind := .thinil, port := 0, args := [5], data := thnMsg 0x83 1 7 0 [] }] := by decide +kernel

/-- What the transport grants a client without role entry follows from its chain alone, which is free: keeper or nothing. -/
theorem witness_open (ok : Bool) (h : Config.clientChain [] (padTo 2048 (Config.identity (entryKey 0x1301 0))) = ok) :
    (talk 4 [] []).grantOf 0 5 = if ok then (4, 0) else (0, 0) := by
  have c : tfind (talk 4 [] []).dict.conns 5 = some { port := 0 } := rfl
  have a : ((List.range 4).any fun i => !((talk 4 [] []).blob 0x1300 (i + 1) 0).isEmpty &&
      Config.clientChain [] ((talk 4 [] []).blob 0x1300 (i + 1) 0)) = false := by
    simp [List.range, List.range.loop, State.blob, talk, tfind, zeros]
  unfold State.grantOf
  rw [c]
  simp only [List.append_nil, h]
  cases ok <;> simp_all

/-- Reading and writing 0x1201, an entry that is not there, a role record by segments. -/
theorem witness_entries : (InTick (talk 4 [] [])).readEntry (sess 4 []) 0x1201 0 = (0, [0]) ∧
    ((InTick (talk 4 [] [])).readEntry (sess 4 []) 0 0).1 = 0x0805 ∧ ([0, 1, 0, 0] ++ itemHead 0x1201 0 : Bytes).length ≤ 1184 ∧
    (entryRow 0x1310 1).any (fun e => (InTick (talk 4 [] [])).mayReach (sess 4 []) 0x1310 1 e true (some (.n 3)) == 0 &&
      decide (e.lmin ≤ 52) && decide (52 ≤ e.lmax)) = true ∧ (sess 4 []).staged = none ∧
    ((InTick (talk 4 [] [])).writeEntry 1 (sess 4 []) 0x1201 0 [1]).1 = 0 := by decide +kernel

theorem witness_service : ((talk 4 [] []).readEntry (sess 4 []) 0x1201 0).1 = 0 ∧ (sess 4 []).role = 4 ∧ (sess 1 []).role ≤ 3 ∧
    ({ talk 4 [] [] with lk := { service := some 1 } } : State).lk.service = some 1 ∧ 0 ∉ (talk 4 [] []).dict.tpDown ∧
    (entryRow 0x2001 1).any (fun e => e.lmax == 256 && e.acc == .rws) = true ∧ (talk 4 [] []).lk.service = none ∧
    (entryRow 0x1310 1).any (fun e => e.acc != .rws) = true := by decide +kernel

theorem test_service_state : (after (.serviceStateWrite 1 1) (talk 4 [] [])).lk.service = some 1 ∧
    (after (.serviceStateWrite 1 1) (talk 3 [] [])).lk.service = none := by decide +kernel

theorem witness_ticks : DictUp demo ∧ demo.dict.inbox = [] ∧ (talk 4 [] []).lk.service ≠ some 1 ∧
    tfind (talk 4 [] []).dict.sessions 1 = some (sess 4 []) ∧ demo.tpServes 1 = true ∧ tfind demo.dict.conns 5 = none ∧
    demo.lk.seFailed = false ∧ demo.dict.conns.length < 32 ∧
    ({ demo with lk := { seFailed := true } } : State).tpServes 1 = true := by
  refine ⟨⟨?_, ?_⟩, ?_⟩ <;> decide +kernel

/-! Identity and time. -/

/-- Port 0 with a negotiation as given. -/
def spdmAt (x : SpdmSt) : State := { demo with host := { ports := [(0, { spdm := x })] } }

theorem witness_endpoints : demo.mctpUp 0 = true ∧ demo.mctpUp 2 = false ∧ (0xFE : Nat) < 0xFF := by decide +kernel

theorem witness_responder : demo.spdmUp 0 = true ∧ ((spdmAt { version := true }).spdm 0).version = true ∧
    ((spdmAt { version := true }).spdm 0).algs = false ∧ ((spdmAt { caps := true }).spdm 0).caps = true ∧
    ((spdmAt { algs := true }).spdm 0).algs = true ∧ (spdmAt {}).spdmUp 0 = true ∧
    (0x80 : Nat).testBit 7 = true ∧ (2 : Nat).testBit 1 = true := by decide +kernel

theorem witness_measurements : ((spdmAt {}).measurements[0]?).isSome = true ∧ (spdmAt {}).measurements.length = 6 := ⟨rfl, rfl⟩

theorem witness_clock : demo.setting 0x1232 0 0 = 0 ∧ demo.tpServes 0 = true ∧ demo.tpServes 2 = false ∧ demo.lk.ptp = 0 ∧
    ({ demo with lk := { ptp := 1 } } : State).lk.ptp = 1 := by decide +kernel

/-! Starts, defects, lockkeepers, firmware. -/

theorem witness_starts : DictUp demo ∧ ({ demo with boot := { running := 1 }, power := { offCause := some 2 } } : State).boot.running = 1 ∧
    demo.boot.running = 0 ∧ survives 0x100700 = true ∧ survives 0x400100 = false := by
  refine ⟨⟨?_, ?_⟩, ?_⟩ <;> decide +kernel

theorem test_dawn : (after .dawn demo).berths = [] ∧ (after .dawn demo).boot.dawns = 2 := by decide +kernel

/-- The module whose core 5 has failed, with a defect list. -/
def failing (l : List DefectEnt) : State := { demo with defects := { list := l, subst := [(5, 1, 0x320)] } }

theorem witness_core_spares : measureKind 0 1 = true ∧ demo.unitIn 1 0 5 0 = true ∧ demo.coreOf 0 5 = some 5 ∧
    (2 * 0 + 1, unitKey 1 0 5 0) ∉ demo.defects.warned ∧ (failing []).kern 5 = none ∧ (5, 1, 0x320) ∈ (failing []).defects.subst ∧
    ((failing []).freeCores (5 / 16)).filter (fun p => !([] : List Nat).contains p) = [16, 17] ∧
    ((failing []).freeCores (5 / 16)).filter (fun p => !(([16, 17] : List Nat).contains p)) = [] ∧ demo.kern 0 ≠ none := by decide +kernel

theorem test_substitution : (after (.coreSubstitution 5 [16]) (failing [])).physCore 5 = 17 := by decide +kernel

/-- A core listed as replaced, and its readmission under way. -/
def listed : DefectEnt := { kind := 1, die := 0, unit := 5, cause := 1, st := 1, spare := 16 }

def serving (d : DefectSt) : State := { demo with lk := { service := some 1 }, defects := d }

theorem witness_readmission : demo.lk.service = none ∧ (serving {}).lk.service ≠ none ∧ (serving {}).readmitEntry 1 0 5 0 = none ∧
    (serving { list := [listed] }).readmitEntry 1 0 5 0 = some 0 ∧ (serving { list := [listed] }).readmitOk 1 0 5 = true ∧
    (serving {}).unitIn 1 24 0 0 = false ∧ (serving {}).unitIn 1 0 5 0 = true ∧ DictUp (serving {}) ∧
    (serving { list := [listed], readmit := 1, readmitUnit := some listed }).defects.readmitUnit = some listed := by
  refine ⟨?_, ?_, ?_, ?_, ?_, ?_, ?_, ⟨?_, ?_⟩, ?_⟩ <;> decide +kernel

theorem witness_lockkeepers : demo.lk.standby = 1 ∧ demo.lk.active = some 27 ∧ (31 : Nat) ∉ demo.lk.fenced ∧
    demo.defects.waiting = [] ∧ ({ demo with lk := { standby := 2, installing := true } } : State).lk.standby = 2 ∧
    demo.lk.installing = false ∧ ({ demo with lk := { active := none } } : State).lk.active = none := by decide +kernel

/-- A staged image of the cores, of version 0x0102; a broadcast after some rounds. -/
def coreImage : Bytes := [0x50, 0x56, 0x46, 0x57, 2, 0, 2, 1]

def broadcasting (rounds : Nat) : State := { demo with
  fw := { staged := some coreImage, st := 2, rounds := rounds, gaps := [(0, [0])], target := 0x0102 } }

theorem witness_firmware : demo.fwImageCode [] ≠ 0 ∧ ([] : Bytes).length ≠ 4096 + leAt [] 8 4 ∧ demo.fw.staged = none ∧
    leAt coreImage 4 1 = 2 ∧ demo.flaggedList = [] ∧ demo.fw.st ≠ 2 ∧ (broadcasting 0).fw.st = 2 ∧
    (∃ p ∈ (broadcasting 7).fw.gaps, tget [(0, [0])] [] p.1 ≠ []) ∧ (∀ p ∈ (broadcasting 7).fw.gaps, tget ([] : Tbl (List Nat)) [] p.1 = []) ∧
    leAt (coreImage.set 4 1) 4 1 = 1 := by decide +kernel

theorem witness_handover : ((withBerth { demoBerth with handOver := true, withhold := true }).berth 0).handOver = true ∧
    (withBerth { demoBerth with handOver := true, withhold := true }).cmdRuns 0 = false ∧
    ((withBerth { demoBerth with handOver := true, withhold := true }).snap 0).phase ≠ 1 ∧ (demo.berth 0).handOver = false := by
  decide +kernel

/-! Snapshots. -/

/-- B0 with a snapshot area of two slots of 1 GiB at 1 GiB, and the snapshots given. -/
def snapping (x : SnapSt) : State := withSets [(0x4300, 3, 0x40000000), (0x4300, 4, 0x40000000), (0x4300, 5, 2)]
  { withBerth demoBerth with snaps := [(0, x)], basins := [] }

def slotSt (st : Nat) : SlotSt := { st := st, stepSeq := 6 }

theorem witness_areas : DictUp (snapping {}) ∧ (snapping {}).areaCode 0 5 4 = 0 ∧ (snapping {}).areaCode 0 4 1 = 0x0A00 ∧
    ((snapping {}).berth 0).life ≠ .absent := by
  refine ⟨⟨?_, ?_⟩, ?_⟩ <;> decide +kernel

theorem witness_lockages : (snapping { phase := 1, lockage := some 0 }).cmdRuns 0 = false ∧
    (snapping { phase := 1, lockage := some 0 }).lockageCodes 0 0 = [] ∧
    ((snapping { phase := 1, lockage := some 2 }).lockageCodes 0 2).min? = some 0x0A07 ∧
    ((snapping { phase := 1, lockage := some 0, copied := true }).snap 0).copied = true ∧
    Unasked (snapping {}) 0 ∧ abandoned.cmdRuns 0 = true ∧ (snapping {}).snap 0 = {} := by
  refine ⟨?_, ?_, ?_, ?_, ⟨?_, ?_⟩, ?_⟩ <;> decide +kernel

/-- Slots after their capture, one of them with an exchange in flight, one with a replica's digest. -/
theorem witness_digests : ((snapping { slots := [(0, slotSt 1)] }).slot 0 0).st = 1 ∧
    ((snapping { slots := [(0, { slotSt 1 with inflight := true })] }).slot 0 0).inflight = true ∧
    (snapping { slots := [(0, slotSt 1)] }).snapSet 0 0xE ≠ 1 ∧ (slotSt 1).replica = none ∧
    (snapping { slots := [(0, slotSt 1)] }).tensorDigest 0 0 [] = 0 ∧
    ({ slotSt 1 with replica := some (6, 0) } : SlotSt).replica = some (6, 0) ∧
    (0 : Nat) < (snapping {}).snapSet 0 5 ∧ (snapping {}).snapSet 0 5 ≤ 2 ∧ (slotSt 1).stepSeq = 6 ∧ 2 ≤ (slotSt 2).st := by
  decide +kernel

/-- A slot that drains, with a port that carries it, and an acknowledge up to an offset. -/
def draining : State :=
  let s := snapping { slots := [(0, { slotSt 2 with draining := true }), (1, { slotSt 6 with filled := [(0, 64)] })] }
  { s with dict := { s.dict with blobs := [(entryKey 0xC001 1, srcA)] } }

def drainAck (off : Nat) : Bytes := drainFrame 2 0 0 0 0 6 off 0x100000 []

theorem witness_drains : draining.named 0 = 0 ∧ (draining.slot 0 0).draining = true ∧ draining.drainPorts = [0] ∧
    draining.drainOk 0 2 (drainAck 0x100000) = true ∧ (drainAck 0x100000).length = 48 ∧ beAt (drainAck 0x100000) 24 8 = 0x100000 ∧
    beAt (drainAck 0x2000) 16 8 = (draining.slot 0 0).stepSeq ∧ 0x100000 ≤ draining.runReach 0 0 0 ∧
    draining.runTotal 0 0 (demoBerth.dies.getD 0 0) = 0x100000 ∧ draining.drainOk 0 2 (drainAck 0x2000) = true := by decide +kernel

def fillFrame : Bytes := drainFrame 1 0 0 1 0 6 64 0x100000 [7]

theorem witness_fills : draining.drainOk 0 1 fillFrame = true ∧ fillFrame.length = 48 + 1 ∧ beAt fillFrame 13 1 = 1 ∧
    beAt fillFrame 32 8 = 0x100000 ∧ (draining.slot 0 1).st = 6 ∧ tget (draining.slot 0 1).total 0x100000 0 = 0x100000 ∧
    slotHeader ≤ 0x100000 ∧ 0x100000 ≤ draining.snapSet 0 4 ∧ 64 = tget (draining.slot 0 1).filled 0 0 ∧
    tget ((snapping { slots := [(0, slotSt 6)] }).slot 0 0).filled 0 0 = 0 := by decide +kernel

theorem witness_slots_used : ((snapping { slots := [(0, slotSt 2)] }).snap 0).phase = 0 ∧ 2 ≤ (slotSt 2).st ∧
    ((snapping {}).slot 0 0).st < 2 ∧ ((snapping {}).slot 0 0).st ≠ 6 := by decide +kernel

theorem witness_restores : (snapping { slots := [(0, slotSt 2)] }).restoreCode 0 0 = 0 ∧ (snapping {}).restoreCode 0 0 = 0x0A02 ∧
    (snapping { phase := 3 }).restoreCode 0 0 = 0x0A01 ∧ ((snapping { phase := 3 }).snap 0).phase = 3 ∧
    ((snapping { phase := 2, restoring := some 0 }).snap 0).restoring = some 0 ∧ DictUp (snapping {}) := by
  refine ⟨?_, ?_, ?_, ?_, ?_, ?_, ?_⟩ <;> decide +kernel

/-- Windows of a slot: one that is not empty, one that is. -/
theorem witness_skip_windows : leAt ((snapping { slots := [(0, slotSt 2)] }).slotValues 0 0) (80 + 16 * 1) 8 ≤
      leAt ((snapping { slots := [(0, slotSt 2)] }).slotValues 0 0) (88 + 16 * 1) 8 ∧
    leAt (leBytes 8 9 ++ leBytes 8 4) 8 8 < leAt (leBytes 8 9 ++ leBytes 8 4) 0 8 := by decide +kernel

/-! The instrument and the power stage. -/

/-- Port 0 in a mode of the instrument and a state of it. -/
def testing (mode st : Nat) : State := withSets [(0x5800, 1, mode), (0x5800, 3, 1), (0x5800, 4, 4096)]
  { withLink { life := .instrument } with inst := [(0, { st := st })] }

theorem witness_instrument : DictUp (testing 2 2) ∧ (testing 0 0).instPattern 0 ≠ 5 ∧ ((testing 0 0).instOf 0).st = 0 ∧
    (testing 0 0).lastPort 0 = false ∧ (withLink {}).portFree 0 = true ∧ (testing 2 2).instMode 0 = 2 ∧ ((testing 2 3).instOf 0).st = 3 ∧
    (testing 2 3).setting (0x5800 + 0) 4 0 = 4096 ∧ ((testing 2 4).instOf 0).st = 4 ∧ (0 : Nat) ∈ (testing 2 3).instLanes 0 ∧
    ((testing 2 3).instOf 0).lostSaid = false ∧ (testing 1 2).instMode 0 ≠ 3 := by
  refine ⟨⟨?_, ?_⟩, ?_⟩ <;> decide +kernel

theorem test_instrument_mode : ((after (.instrModeWrite 0 2) (withLink {})).instOf 0).st = 2 := by decide +kernel

theorem witness_power : (-70000 : Int) < -60000 ∧ (61000 : Int) > 60000 ∧ demo.power.on = true ∧ (54000 : Int) ≤ 58000 ∧
    demo.power.band ≠ 1 ∧ demo.power.level ≠ 48 ∧ railOk 0 = true ∧ 0 < (railSpec 0).1 ∧ (0 : Nat) ∉ demo.phasesOutOf 0 ∧
    (2000 : Nat) < 2001 := by decide +kernel

/-- Beyond the absolute maximum ratings the module stops; an overvoltage of 60 V is allowed (R570). -/
theorem test_voltage : exec (.inputVoltageChange (-60001) 1) demo = .fault .beyondAbsoluteMaximum ∧
    (after (.inputVoltageChange 60000 10) demo).power.band = 2 := ⟨rfl, by decide +kernel⟩

theorem witness_reduction : demo.up = true ∧ demo.lk.active ≠ none ∧ demo.power.level < 48 ∧
    demo.powerStart.1 < 100000 * demo.powerStart.2 ∧ 10 * demo.powerStart.2 * 100 < demo.powerStart.1 * 97 ∧
    demo.hottest 0x3001 32 < (demo.setting 0x3013 0 10000 : Int) - 300 ∧ demo.hottest 0x3002 24 < 8900 ∧ demo.power.failed = [] ∧
    demo.power.alarms = [] ∧ ({ sinceDown := 9, level := 1 } : PowerSt).level = 1 := by decide +kernel

theorem witness_alarms : ({ demo with power := { sensors := [(entryKey 0x3001 1, 10000), (entryKey 0x3004 1, 4001), (entryKey 0x3004 3, 0)] } } :
      State).sensor 0x3001 (0 + 1) 0 = 10000 ∧
    ({ demo with power := { sensors := [(entryKey 0x3004 1, 4001), (entryKey 0x3004 3, 0)] } } : State).sensor 0x3004 1 0 = 4001 ∧
    ({ demo with power := { sensors := [(entryKey 0x3004 3, 0)] } } : State).sensor 0x3004 3 20000 <
      (demo.setting 0x3014 0 20000 : Int) := by decide +kernel

/-! Invariants. -/

/-- The module after reset meets both invariants. -/
theorem witness_invariants : State.reset.canonical := by
  refine ⟨?_, ?_, ?_⟩ <;> decide +kernel

/-! The worked values of 02 R68, 02's product bit by bit, and 09 R268. -/

/-- The conversions of the table of R68, rows 1 to 6. -/
theorem test_conversions : convertVal (decodeElem .fp32 0x3E99999A) 0 .e4m3 false false = some 0x2A ∧
    convertVal (decodeElem .fp32 0x3E99999A) 0 .e4m3 true false = some 0x29 ∧
    convertVal (decodeElem .fp32 0x3E99999A) 0 .e5m2 false false = some 0x35 ∧
    convertVal (decodeElem .fp32 0x43E80000) 0 .e4m3 false false = some 0x7E ∧
    convertVal (decodeElem .fp32 0x447A0000) 0 .e4m3 false true = some 0x7E ∧
    convertVal (decodeElem .fp32 0x447A0000) 0 .e4m3 false false = some 0xFF := by decide +kernel

/-- Rows 7 to 9, and the MXFP4 element of its last paragraph. -/
theorem test_more_conversions : convertVal (decodeElem .fp32 0x447A0000) 0 .e5m2 false false = some 0x64 ∧
    convertVal (decodeElem .fp32 0xB7800000) 0 .e4m3 false false = some 0x80 ∧
    convertVal (decodeElem .bf16 0x3F80) 0 .g16 false false = some 0x3E00 ∧
    convertVal (mxVal .mxE2m1 0xD 0x7C) 0 .fp32 false false = some 0xBEC00000 := by decide +kernel

/-- The cell that the products of pairs add up to in a window. -/
def dot (f : Fmt) (w : Int) (ps : List (Nat × Nat)) : AccCell :=
  ps.foldl (fun a p => cellAddVal a w (mulVal (decodeElem f p.1) (decodeElem f p.2))) {}

/-- The product of four terms, and its sum rounded to FP16 and, scaled, to E4M3. -/
theorem test_product : cellToMem (dot .e4m3 (-64) [(0x7E, 0x7E), (0xFE, 0x7E), (0x01, 0x01), (0x00, 0x7E)]) =
      0x00000000000000000000400000000000 ∧
    cellRound (dot .e4m3 (-64) [(0x7E, 0x7E), (0xFE, 0x7E), (0x01, 0x01)]) (-64) 0 .fp16 false false = some 0x0040 ∧
    cellRound (dot .e4m3 (-64) [(0x7E, 0x7E), (0xFE, 0x7E), (0x01, 0x01)]) (-64) 10 .e4m3 false false = some 0x02 := by
  decide +kernel

/-- The windowed product of BF16, at both windows. -/
theorem test_windows :
    ([-20, -24].map fun w => cellRound (dot .bf16 w [(0x3F80, 0x3F80), (0x3F80, 0x35C0)]) w 0 .fp32 false false) =
      [some 0x3F800008, some 0x3F80000C] := by decide +kernel

/-- The three adds of the example of R268. -/
theorem test_exact_adds : laAdd 0 (decodeElem .e5m2 0x3D) (-20) = 0x00000000000000000000140000000000 ∧
    laAdd 0x00000000000000000000140000000000 (decodeElem .e5m2 0xBD) (-20) = 0 ∧
    laAdd 0 (decodeElem .g16 0x3E00) (-70) = 2 ^ 127 := by decide +kernel

/-! Cells, exact adds and engines' stores. -/

theorem witness_cell_sums : (List.Perm [Val.fin 3 0, .inf true] [.inf true, .fin 3 0]) ∧
    [Val.fin 3 0, .inf true].length ≤ 16777215 ∧ (cellInt {}).natAbs < 2 ^ 127 ∧
    (2 : Nat) ^ 127 ≤ (truncAt 1 63 (-64)).natAbs := ⟨List.Perm.swap _ _ _, by decide +kernel⟩

theorem witness_exact_adds : (0 : Nat) < 2 ^ 128 ∧ (0 : Nat) ≠ laMarker ∧ (-65 : Int) + 0 + ((1 : Nat) : Int) = -64 ∧
    ¬ (((2 ^ 1 : Nat) : Int) ∣ 3) ∧ (0 : Int) + -64 = ((0 : Nat) : Int) - 64 ∧
    (3 * ((2 ^ 0 : Nat) : Int)).natAbs < 2 ^ 127 ∧ (2 : Nat) ^ 127 ≤ (1 * ((2 ^ 127 : Nat) : Int)).natAbs ∧
    valNonFinite (decodeElem .g16 0x3E00) = false ∧ laAdd (laAdd 0 (.fin 1 0) 0) (.fin 1 1) 0 ≠ laMarker := by decide +kernel

/-- An engine's request of launch 1. -/
def coreStore : ReqSt := { coreReq 0 0 1 0 0 with node := 5 }

theorem witness_engine_request : ({ demo with fabric := { demo.fabric with reqs := [coreStore] } } : State).fabric.reqs.find?
      (fun x => x.unit == coreStore.unit && x.node == coreStore.node && x.seq == coreStore.seq) = some coreStore ∧
    coreStore.unit < 0x200 ∧ coreStore.access = 0 ∧ (tfind demo.launches coreStore.launch).map (·.stopped) = some false := by
  decide +kernel

/-- Thirteen bytes from address 2 on: pieces of 2, 4, 4, 2 and 1 bytes, each aligned to its size. -/
theorem test_request_cuts : requestCuts 13 2 0 13 = [(0, 2), (2, 4), (6, 4), (10, 2), (12, 1)] := by decide

end Sys2Proof.Tests
end

section
/-!
The bank that a matrix instruction takes (03 R82, R86).
-/

namespace Sys2Proof.Machine

/-! Picking one of two banks. -/

/-- The search takes the one bank that passes. -/
theorem firstBelow_two_only {p : Nat → Bool} {b : Nat} (hb : b < 2) (yes : p b = true) (no : p (1 - b) = false) :
    firstBelow 2 p = some b := by
  obtain rfl | rfl : b = 0 ∨ b = 1 := by omega
  · simp [firstBelow, List.range_succ, yes]
  · simp [firstBelow, List.range_succ, yes, show p 0 = false from no]

theorem firstBelow_two_none {p : Nat → Bool} (no0 : p 0 = false) (no1 : p 1 = false) : firstBelow 2 p = none := by
  simp [firstBelow, List.range_succ, no0, no1]

theorem owner_isNone_eq_false {x : BankSt} (held : x.owner ≠ none) : x.owner.isNone = false :=
  Option.isNone_eq_false_iff.mpr (Option.isSome_iff_ne_none.mpr held)

/-! The bank that an instruction finds. -/

section
variable {k : CoreSt} {e : AqEnt} (nobank : e.bank = none) (nofill : heldByFill k e = false)
  (noring : (aqBefore k e).any (fun x => ringsMeet x e) = false)

include nobank nofill noring

/-- A head that nothing holds back looks at the free banks alone. -/
theorem bankFor_head (head : (descOf e.words).accInit ≠ 2) (first : (aqBefore k e).any (blocksHead k) = false) :
    bankFor k e = if (tget k.banks {} 0).owner.isNone && (tget k.banks {} 1).owner.isNone then some ((k.lastBank + 1) % 2)
      else firstBelow 2 fun b => (tget k.banks {} b).owner.isNone := by
  simp [bankFor, nobank, nofill, noring, head, first]

/-- A later instruction, its chain's earlier ones done, looks for the bank of its chain. -/
theorem bankFor_continuation (later : (descOf e.words).accInit = 2) (first : ∀ x ∈ aqBefore k e, x.chain ≠ e.chain) :
    bankFor k e = firstBelow 2 fun b => (tget k.banks {} b).owner == some e.chain := by
  have clear : ((aqBefore k e).any fun x => x.chain == e.chain) = false := by simpa using first
  simp [bankFor, nobank, nofill, noring, later, clear]

theorem bankFor_head_both_free (head : (descOf e.words).accInit ≠ 2) (first : (aqBefore k e).any (blocksHead k) = false)
    (free0 : (tget k.banks {} 0).owner = none) (free1 : (tget k.banks {} 1).owner = none) :
    bankFor k e = some ((k.lastBank + 1) % 2) := by
  simp [bankFor_head nobank nofill noring head first, free0, free1]

theorem bankFor_head_one_free (head : (descOf e.words).accInit ≠ 2) (first : (aqBefore k e).any (blocksHead k) = false)
    {b : Nat} (hb : b < 2) (free : (tget k.banks {} b).owner = none) (held : (tget k.banks {} (1 - b)).owner ≠ none) :
    bankFor k e = some b := by
  have notBoth : ((tget k.banks {} 0).owner.isNone && (tget k.banks {} 1).owner.isNone) = false := by
    obtain rfl | rfl : b = 0 ∨ b = 1 := by omega
    · rw [owner_isNone_eq_false held, Bool.and_false]
    · rw [owner_isNone_eq_false held, Bool.false_and]
  rw [bankFor_head nobank nofill noring head first, notBoth]
  exact firstBelow_two_only hb (by simp [free]) (owner_isNone_eq_false held)

theorem bankFor_head_none_free (head : (descOf e.words).accInit ≠ 2) (first : (aqBefore k e).any (blocksHead k) = false)
    (held0 : (tget k.banks {} 0).owner ≠ none) (held1 : (tget k.banks {} 1).owner ≠ none) : bankFor k e = none := by
  rw [bankFor_head nobank nofill noring head first, owner_isNone_eq_false held0]
  exact firstBelow_two_none (owner_isNone_eq_false held0) (owner_isNone_eq_false held1)

theorem bankFor_continuation_owned (later : (descOf e.words).accInit = 2) (first : ∀ x ∈ aqBefore k e, x.chain ≠ e.chain)
    {b : Nat} (hb : b < 2) (own : (tget k.banks {} b).owner = some e.chain)
    (other : (tget k.banks {} (1 - b)).owner ≠ some e.chain) : bankFor k e = some b := by
  rw [bankFor_continuation nobank nofill noring later first]
  exact firstBelow_two_only hb (by simp [own]) (by simpa using other)

end

/-! Taking a bank. -/

/-- A queue entry after the members of `e`'s gather fill, or `e` alone, have taken bank `b`. -/
def AqEnt.startedWith (q : List AqEnt) (e : AqEnt) (b : Nat) (x : AqEnt) : AqEnt :=
  if ((aqGroup q e).map fun y => y.id).contains x.id then { x with bank := some b } else x

/-- A core after the instruction `e` has taken bank `b`: a head becomes the bank's owner. -/
def CoreSt.takeBank (k : CoreSt) (e : AqEnt) (b : Nat) : CoreSt :=
  { k with
    aq := k.aq.map (e.startedWith k.aq b)
    banks := if (descOf e.words).accInit != 2 then tset k.banks b { owner := some e.chain } else k.banks
    lastBank := if (descOf e.words).accInit != 2 then b else k.lastBank }

@[simp] theorem AqEnt.startedWith_id (q : List AqEnt) (e : AqEnt) (b : Nat) (x : AqEnt) :
    (e.startedWith q b x).id = x.id := by
  unfold AqEnt.startedWith
  split <;> rfl

theorem mem_aqGroup_self {q : List AqEnt} {e : AqEnt} (h : e ∈ q) : e ∈ aqGroup q e := by
  unfold aqGroup
  split
  case h_1 => exact List.mem_singleton_self e
  case h_2 f hf => simp [h, hf]

theorem AqEnt.startedWith_self {q : List AqEnt} {e : AqEnt} (b : Nat) (h : e ∈ q) :
    e.startedWith q b e = { e with bank := some b } :=
  if_pos (List.contains_iff_mem.mpr (List.mem_map_of_mem (mem_aqGroup_self h)))

/-- The queue still finds the instruction that took a bank, now with that bank. -/
theorem CoreSt.takeBank_aqEnt {k : CoreSt} {id : Nat} {e : AqEnt} (b : Nat) (he : k.aqEnt id = some e) :
    (k.takeBank e b).aqEnt id = some { e with bank := some b } := by
  have find : k.aq.find? (fun x => x.id == id) = some e := he
  have sameIds : (fun x : AqEnt => x.id == id) ∘ e.startedWith k.aq b = fun x => x.id == id :=
    funext fun x => congrArg (· == id) (AqEnt.startedWith_id k.aq e b x)
  calc (k.aq.map (e.startedWith k.aq b)).find? (fun x => x.id == id)
    _ = (k.aq.find? ((fun x => x.id == id) ∘ e.startedWith k.aq b)).map (e.startedWith k.aq b) := List.find?_map
    _ = some (e.startedWith k.aq b e) := by rw [sameIds, find, Option.map_some]
    _ = some { e with bank := some b } := by rw [AqEnt.startedWith_self b (List.mem_of_find?_eq_some find)]

theorem CoreSt.takeBank_owner {k : CoreSt} {e : AqEnt} (b : Nat) (head : (descOf e.words).accInit ≠ 2) :
    (tget (k.takeBank e b).banks {} b).owner = some e.chain := by
  simp [CoreSt.takeBank, head, tget_tset_self]

theorem CoreSt.takeBank_lastBank_head {k : CoreSt} {e : AqEnt} (b : Nat) (head : (descOf e.words).accInit ≠ 2) :
    (k.takeBank e b).lastBank = b := by
  simp [CoreSt.takeBank, head]

theorem CoreSt.takeBank_lastBank_continuation {k : CoreSt} {e : AqEnt} (b : Nat) (later : (descOf e.words).accInit = 2) :
    (k.takeBank e b).lastBank = k.lastBank := by
  simp [CoreSt.takeBank, later]

/-! `MATRIX_START`. -/

section
variable {s : State} {core id : Nat} {e : AqEnt} (he : (s.core core).aqEnt id = some e)

include he

/-- An instruction that finds no bank waits. -/
theorem exec_matrixStart_of_no_bank (noBank : bankFor (s.core core) e = none) : exec (.matrixStart core id) s = .next s := by
  change execMatrixStart core id s = _
  simp only [execMatrixStart, he, noBank]

/-- An instruction that finds a bank takes it; nothing but its core changes. -/
theorem exec_matrixStart_of_bank {b : Nat} (bank : bankFor (s.core core) e = some b) :
    exec (.matrixStart core id) s = .next (s.setCore core ((s.core core).takeBank e b)) := by
  change execMatrixStart core id s = _
  simp only [execMatrixStart, he, bank]
  rfl

/-- A head that finds a bank owns it from then on, and that bank is the one most recently taken. -/
theorem exec_matrixStart_head {b : Nat} (head : (descOf e.words).accInit ≠ 2) (bank : bankFor (s.core core) e = some b) :
    ∃ u f, exec (.matrixStart core id) s = .next u ∧ (u.core core).aqEnt id = some f ∧ f.bank = some b ∧
      (tget (u.core core).banks {} b).owner = some e.chain ∧ (u.core core).lastBank = b := by
  refine ⟨_, { e with bank := some b }, exec_matrixStart_of_bank he bank, ?_⟩
  rw [State.core_setCore]
  exact ⟨CoreSt.takeBank_aqEnt b he, rfl, CoreSt.takeBank_owner b head, CoreSt.takeBank_lastBank_head b head⟩

/-- A later instruction that finds a bank leaves the one most recently taken. -/
theorem exec_matrixStart_continuation {b : Nat} (later : (descOf e.words).accInit = 2)
    (bank : bankFor (s.core core) e = some b) :
    ∃ u f, exec (.matrixStart core id) s = .next u ∧ (u.core core).aqEnt id = some f ∧ f.bank = some b ∧
      (u.core core).lastBank = (s.core core).lastBank := by
  refine ⟨_, { e with bank := some b }, exec_matrixStart_of_bank he bank, ?_⟩
  rw [State.core_setCore]
  exact ⟨CoreSt.takeBank_aqEnt b he, rfl, CoreSt.takeBank_lastBank_continuation b later⟩

end

/-- At reset the bank after the one most recently taken is bank 0, on every core. -/
theorem reset_next_bank (core : Nat) : ((State.reset.core core).lastBank + 1) % 2 = 0 := by
  simp [State.reset, State.core, tget]

/-- Settles O53: each case names the bank that the instruction finds, and `MATRIX_START` takes it. -/
theorem instructionsTakeBanks : Obligations.InstructionsTakeBanks := by
  rintro s core id e k rfl he nobank nofill noring
  refine ⟨fun acc first => ?head, reset_next_bank core, fun b later first hb own other => ?continuation⟩
  case head =>
    have head : (descOf e.words).accInit ≠ 2 := by omega
    refine ⟨fun b free0 free1 hb => ?both, fun b hb free held => ?one, fun held0 held1 => ?neither⟩
    case both =>
      exact exec_matrixStart_head he head (hb ▸ bankFor_head_both_free nobank nofill noring head first free0 free1)
    case one => exact exec_matrixStart_head he head (bankFor_head_one_free nobank nofill noring head first hb free held)
    case neither =>
      exact exec_matrixStart_of_no_bank he (bankFor_head_none_free nobank nofill noring head first held0 held1)
  case continuation =>
    exact exec_matrixStart_continuation he later
      (bankFor_continuation_owned nobank nofill noring later first hb own other)

end Sys2Proof.Machine
end

section
/-!
Exact-float adds to cells in memory (02 R54, 09 R268).
-/

namespace Sys2Proof.Machine

/-! A signed number in 128 bits. -/

theorem signedOf_unsignedOf_128 {r : Int} (h : r.natAbs < 2 ^ 127) : signedOf 128 (unsignedOf 128 r) = r := by
  rw [unsignedOf, ← BitVec.toNat_ofInt, signedOf_toNat]
  exact BitVec.toInt_ofInt_eq_self (by decide) (by omega) (by omega)

theorem unsignedOf_signedOf_128 (x : Nat) : unsignedOf 128 (signedOf 128 x) = x % 2 ^ 128 := by
  simp only [signedOf, unsignedOf]
  split <;> omega

/-- The marker is the one cell that stands for no value in the range. -/
theorem signedOf_lt_of_ne_laMarker {x : Nat} (h : x % 2 ^ 128 ≠ laMarker) : (signedOf 128 x).natAbs < 2 ^ 127 := by
  simp only [signedOf, laMarker] at h ⊢
  split <;> omega

theorem unsignedOf_ne_laMarker {r : Int} (h : r.natAbs < 2 ^ 127) : unsignedOf 128 r ≠ laMarker := by
  simp only [unsignedOf, laMarker]
  omega

/-! What an addend converts to. -/

/-- An addend times `2^k` in units of `2^-64`, where it converts exactly (R268). -/
def addendUnits (v : Val) (k : Int) : Option Int :=
  match v with
  | .nan | .inf _ => none
  | .zero _ => some 0
  | .fin m e =>
    if (-64 ≤ e + k ∨ ((2 ^ (-64 - (e + k)).toNat : Nat) : Int) ∣ m) ∧ (truncAt m (e + k) (-64)).natAbs < 2 ^ 127 then
      some (truncAt m (e + k) (-64))
    else none

/-- An addend with a bit below `2^-64` does not convert. -/
theorem addendUnits_fin_below {m e k : Int} {d : Nat} (he : e + k + d = -64) (low : ¬ ((2 ^ d : Nat) : Int) ∣ m) :
    addendUnits (.fin m e) k = none := by
  have d_pos : 0 < d := Nat.pos_of_ne_zero fun h => low (by simp [h])
  have shift : (-64 - (e + k)).toNat = d := by omega
  rw [addendUnits, shift, if_neg]
  rintro ⟨above | dvd, -⟩
  · omega
  · exact low dvd

/-- An addend without bits below `2^-64` converts where it is in the range. -/
theorem addendUnits_fin_above {m e k : Int} {d : Nat} (he : e + k = d - 64) :
    addendUnits (.fin m e) k = if (m * (2 ^ d : Nat)).natAbs < 2 ^ 127 then some (m * (2 ^ d : Nat)) else none := by
  have above : -64 ≤ e + k := by omega
  have shift : (e + k - -64).toNat = d := by omega
  simp only [addendUnits, truncAt, above, shift, true_or, true_and, if_true]

theorem addendUnits_lt {v : Val} {k t : Int} (h : addendUnits v k = some t) : t.natAbs < 2 ^ 127 := by
  cases v with
  | nan => cases h
  | inf neg => cases h
  | zero neg =>
    cases h
    decide
  | fin m e =>
    rw [addendUnits] at h
    split at h
    case isTrue ok =>
      cases h
      exact ok.2
    case isFalse => cases h

/-! The add. -/

/-- The cell of a sum: the marker where the sum leaves the range (R54). -/
def cellOfSum (r : Int) : Nat := if 2 ^ 127 ≤ r.natAbs then laMarker else unsignedOf 128 r

theorem cellOfSum_eq_laMarker_iff {r : Int} : cellOfSum r = laMarker ↔ 2 ^ 127 ≤ r.natAbs := by
  unfold cellOfSum
  split
  case isTrue out => exact iff_of_true rfl out
  case isFalse inside => exact iff_of_false (unsignedOf_ne_laMarker (Nat.lt_of_not_le inside)) inside

theorem cellOfSum_of_lt {r : Int} (h : r.natAbs < 2 ^ 127) : cellOfSum r = unsignedOf 128 r :=
  if_neg (Nat.not_le.mpr h)

theorem laAdd_marker {x : Nat} (h : x % 2 ^ 128 = laMarker) (v : Val) (k : Int) : laAdd x v k = laMarker := if_pos h

theorem laAdd_nan (x : Nat) (k : Int) : laAdd x .nan k = laMarker := ite_self _

theorem laAdd_inf (x : Nat) (neg : Bool) (k : Int) : laAdd x (.inf neg) k = laMarker := ite_self _

/-- What an add does to a cell without the marker. -/
theorem laAdd_eq {x : Nat} (hx : x % 2 ^ 128 ≠ laMarker) (v : Val) (k : Int) :
    laAdd x v k = (addendUnits v k).elim laMarker fun t => cellOfSum (signedOf 128 x + t) := by
  cases v with
  | nan => rw [laAdd_nan, addendUnits, Option.elim_none]
  | inf neg => rw [laAdd_inf, addendUnits, Option.elim_none]
  | zero neg =>
    rw [laAdd.eq_def, if_neg hx, addendUnits, Option.elim_some, Int.add_zero,
      cellOfSum_of_lt (signedOf_lt_of_ne_laMarker hx), unsignedOf_signedOf_128]
  | fin m e =>
    rw [laAdd.eq_def, if_neg hx]
    simp only [addendUnits, cellOfSum, ← Int.dvd_iff_emod_eq_zero, Bool.or_eq_false_iff, decide_eq_false_iff_not]
    grind

theorem laAdd_of_addendUnits_none {v : Val} {k : Int} (h : addendUnits v k = none) (x : Nat) : laAdd x v k = laMarker := by
  by_cases hx : x % 2 ^ 128 = laMarker
  · exact laAdd_marker hx v k
  · rw [laAdd_eq hx, h, Option.elim_none]

theorem laAdd_of_addendUnits_some {x : Nat} {v : Val} {k t : Int} (hx : x % 2 ^ 128 ≠ laMarker)
    (h : addendUnits v k = some t) : laAdd x v k = cellOfSum (signedOf 128 x + t) := by
  rw [laAdd_eq hx, h, Option.elim_some]

/-- An add that leaves no marker adds what its addend converts to. -/
theorem laAdd_ne_laMarker {x : Nat} {v : Val} {k : Int} (h : laAdd x v k ≠ laMarker) :
    ∃ t, addendUnits v k = some t ∧ x % 2 ^ 128 ≠ laMarker ∧ (signedOf 128 x + t).natAbs < 2 ^ 127 ∧
      laAdd x v k = unsignedOf 128 (signedOf 128 x + t) := by
  have hx : x % 2 ^ 128 ≠ laMarker := fun hx => h (laAdd_marker hx v k)
  cases ht : addendUnits v k with
  | none => exact absurd (laAdd_of_addendUnits_none ht x) h
  | some t =>
    have sum := laAdd_of_addendUnits_some hx ht
    have inside : (signedOf 128 x + t).natAbs < 2 ^ 127 := by
      rw [sum, Ne, cellOfSum_eq_laMarker_iff] at h
      omega
    exact ⟨t, rfl, hx, inside, sum.trans (cellOfSum_of_lt inside)⟩

/-- Two adds that leave no marker add both addends. -/
theorem laAdd_laAdd_ne_laMarker {x : Nat} {v v' : Val} {k k' : Int} (h : laAdd (laAdd x v k) v' k' ≠ laMarker) :
    ∃ t t', addendUnits v k = some t ∧ addendUnits v' k' = some t' ∧
      laAdd (laAdd x v k) v' k' = unsignedOf 128 (signedOf 128 x + t + t') := by
  obtain ⟨t', units', unmarked, -, second⟩ := laAdd_ne_laMarker h
  have first_ne : laAdd x v k ≠ laMarker := fun first => unmarked (by rw [first]; rfl)
  obtain ⟨t, units, -, inside, first⟩ := laAdd_ne_laMarker first_ne
  refine ⟨t, t', units, units', ?_⟩
  rw [second, first, signedOf_unsignedOf_128 inside]

theorem laAdd_comm {x : Nat} {v v' : Val} {k k' : Int} (h : laAdd (laAdd x v k) v' k' ≠ laMarker)
    (h' : laAdd (laAdd x v' k') v k ≠ laMarker) : laAdd (laAdd x v k) v' k' = laAdd (laAdd x v' k') v k := by
  obtain ⟨t, t', units, units', both⟩ := laAdd_laAdd_ne_laMarker h
  obtain ⟨u', u, units₂', units₂, both'⟩ := laAdd_laAdd_ne_laMarker h'
  obtain rfl : t = u := Option.some.inj (units.symm.trans units₂)
  obtain rfl : t' = u' := Option.some.inj (units'.symm.trans units₂')
  rw [both, both', Int.add_right_comm]

theorem unconverted_iff {f : Fmt} {b : Nat} {k : Int} : Unconverted f b k ↔ addendUnits (decodeElem f b) k = none := by
  refine ⟨fun h => ?_, fun h => laAdd_of_addendUnits_none h 0⟩
  cases ht : addendUnits (decodeElem f b) k with
  | none => rfl
  | some t =>
    have out := cellOfSum_eq_laMarker_iff.mp ((laAdd_of_addendUnits_some (by decide) ht).symm.trans h)
    have inside := addendUnits_lt ht
    rw [show signedOf 128 0 = 0 from rfl, Int.zero_add] at out
    exact absurd out (Nat.not_le.mpr inside)

/-! The elements of a format. -/

/-- The exponent field of an element of a floating-point layout (R40). -/
def expField (f : Fmt) (b : Nat) : Nat := b / 2 ^ fmtMbits f % 2 ^ fmtEbits f

theorem expField_lt (f : Fmt) (b : Nat) : expField f b < 2 ^ fmtEbits f := Nat.mod_lt _ (Nat.two_pow_pos _)

/-- The sign of an element of a floating-point layout (R40). -/
def elemSign (f : Fmt) (b : Nat) : Int := if bitOf b (fmtMbits f + fmtEbits f) then -1 else 1

theorem natAbs_elemSign_mul (f : Fmt) (b n : Nat) : (elemSign f b * n).natAbs = n := by
  unfold elemSign
  split <;> simp

/-- The value of an element whose pattern is no infinity and no NaN (R40). -/
def regularVal (f : Fmt) (b : Nat) : Val :=
  if expField f b = 0 then
    if b % 2 ^ fmtMbits f = 0 then .zero (bitOf b (fmtMbits f + fmtEbits f))
    else .fin (elemSign f b * (b % 2 ^ fmtMbits f : Nat)) (1 - fmtBias f - fmtMbits f)
  else .fin (elemSign f b * (b % 2 ^ fmtMbits f + 2 ^ fmtMbits f : Nat)) (expField f b - fmtBias f - fmtMbits f)

/-- A finite element is a regular one; where the layout has infinities, its highest exponent is theirs. -/
theorem regularVal_of_decodeElem_fin {f : Fmt} {b : Nat} {m e : Int} (int8 : f ≠ .int8) (la128 : f ≠ .la128)
    (h : decodeElem f b = .fin m e) :
    regularVal f b = .fin m e ∧ ((fmtInfBits f false).isSome → expField f b ≠ 2 ^ fmtEbits f - 1) := by
  cases f with
  | int8 => contradiction
  | la128 => contradiction
  | mxE2m3 | mxE3m2 | mxE2m1 => exact ⟨h, nofun⟩
  | e5m2 | mxE5m2 | fp16 | bf16 | fp32 =>
    unfold decodeElem at h
    dsimp only at h
    split at h
    case h_1 special =>
      rw [h] at special
      split at special
      · split at special <;> cases special
      · cases special
    case h_2 special =>
      split at special
      case isTrue => split at special <;> cases special
      case isFalse top => exact ⟨h, fun _ => top⟩
  | e4m3 | mxE4m3 | g16 =>
    unfold decodeElem at h
    dsimp only at h
    split at h
    case h_1 special =>
      rw [h] at special
      split at special <;> cases special
    case h_2 => exact ⟨h, nofun⟩

/-- The significand and the exponent of a finite element of a floating-point layout. -/
theorem decodeElem_float_fin {f : Fmt} {b : Nat} {m e : Int} (int8 : f ≠ .int8) (la128 : f ≠ .la128)
    (h : decodeElem f b = .fin m e) :
    m.natAbs < 2 ^ (fmtMbits f + 1) ∧ e = max 1 (expField f b : Int) - fmtBias f - fmtMbits f ∧
      ((fmtInfBits f false).isSome → expField f b ≠ 2 ^ fmtEbits f - 1) := by
  obtain ⟨regular, no_inf⟩ := regularVal_of_decodeElem_fin int8 la128 h
  have frac_lt : b % 2 ^ fmtMbits f < 2 ^ fmtMbits f := Nat.mod_lt _ (Nat.two_pow_pos _)
  rw [Nat.pow_succ]
  unfold regularVal at regular
  split at regular
  case isTrue =>
    split at regular
    case isTrue => cases regular
    case isFalse =>
      cases regular
      rw [natAbs_elemSign_mul]
      exact ⟨by omega, by omega, no_inf⟩
  case isFalse =>
    cases regular
    rw [natAbs_elemSign_mul]
    exact ⟨by omega, by omega, no_inf⟩

theorem decodeElem_int8_fin {b : Nat} {m e : Int} (h : decodeElem .int8 b = .fin m e) : m.natAbs < 2 ^ 8 ∧ e = 0 := by
  simp only [decodeElem] at h
  split at h
  · cases h
  · cases h
    refine ⟨?_, rfl⟩
    simp only [signedOf]
    split <;> omega

/-! The table of scales. -/

/-- Every finite element of a format of the table keeps, at the lowest scale, clear of the bits below `2^-64` and, at the
highest, below `2^63`. -/
theorem exactScales_bounds {f : Fmt} {lo hi : Int} (row : (f, lo, hi) ∈ exactScales) {b : Nat} {m e : Int}
    (h : decodeElem f b = .fin m e) : -64 ≤ e + lo ∧ ∃ p : Nat, m.natAbs < 2 ^ p ∧ p + e + hi ≤ 63 := by
  have ex_lt := expField_lt f b
  simp only [exactScales, List.mem_cons, Prod.mk.injEq, List.not_mem_nil, or_false] at row
  obtain ⟨rfl, rfl, rfl⟩ | ⟨rfl, rfl, rfl⟩ | ⟨rfl, rfl, rfl⟩ | ⟨rfl, rfl, rfl⟩ | ⟨rfl, rfl, rfl⟩ := row
  case inr.inr.inl =>
    obtain ⟨significand, rfl⟩ := decodeElem_int8_fin h
    exact ⟨by decide, 8, significand, by decide⟩
  all_goals
    obtain ⟨significand, exponent, no_inf⟩ := decodeElem_float_fin (by decide) (by decide) h
    simp only [fmtMbits, fmtEbits, fmtBias, fmtInfBits, Option.isSome_some, Option.isSome_none, forall_const]
      at significand exponent no_inf ex_lt
    exact ⟨by omega, _, significand, by omega⟩

/-- An addend within those bounds converts. -/
theorem addendUnits_fin_of_bounds {m e k : Int} {p : Nat} (low : -64 ≤ e + k) (significand : m.natAbs < 2 ^ p)
    (high : p + e + k ≤ 63) : addendUnits (.fin m e) k ≠ none := by
  obtain ⟨d, hd⟩ : ∃ d : Nat, e + k = d - 64 := ⟨(e + k + 64).toNat, by omega⟩
  have units_lt : (m * (2 ^ d : Nat)).natAbs < 2 ^ 127 := by
    calc (m * (2 ^ d : Nat)).natAbs = m.natAbs * 2 ^ d := by rw [Int.natAbs_mul, Int.natAbs_natCast]
      _ < 2 ^ p * 2 ^ d := Nat.mul_lt_mul_of_pos_right significand (Nat.two_pow_pos d)
      _ = 2 ^ (p + d) := (Nat.pow_add 2 p d).symm
      _ ≤ 2 ^ 127 := Nat.pow_le_pow_right (by decide) (by omega)
  rw [addendUnits_fin_above hd, if_pos units_lt]
  exact Option.some_ne_none _

/-- Between the lowest and the highest scale every finite element converts. -/
theorem exactScales_convert {f : Fmt} {lo hi : Int} (row : (f, lo, hi) ∈ exactScales) {b : Nat} {k : Int}
    (finite : valNonFinite (decodeElem f b) = false) (hlo : lo ≤ k) (hhi : k ≤ hi) : ¬ Unconverted f b k := by
  rw [unconverted_iff]
  cases hv : decodeElem f b with
  | nan => rw [hv] at finite; cases finite
  | inf neg => rw [hv] at finite; cases finite
  | zero neg => exact Option.some_ne_none _
  | fin m e =>
    obtain ⟨low, p, significand, high⟩ := exactScales_bounds row hv
    exact addendUnits_fin_of_bounds (by omega) significand (by omega)

/-- Below the lowest scale the least positive element, encoded as 1, does not convert. -/
theorem exactScales_below : ∀ row ∈ exactScales, 1 < 2 ^ fmtBits row.1 ∧ valNonFinite (decodeElem row.1 1) = false ∧
    addendUnits (decodeElem row.1 1) (row.2.1 - 1) = none := by decide

/-- Above the highest scale the largest negative element does not convert. -/
theorem exactScales_above : ∀ row ∈ exactScales, fmtMaxBits row.1 true < 2 ^ fmtBits row.1 ∧
    valNonFinite (decodeElem row.1 (fmtMaxBits row.1 true)) = false ∧
    addendUnits (decodeElem row.1 (fmtMaxBits row.1 true)) (row.2.2 + 1) = none := by decide

/-! The statement. -/

theorem mod_ne_laMarker {x : Nat} (hx : x < 2 ^ 128) (h : x ≠ laMarker) : x % 2 ^ 128 ≠ laMarker := by
  rwa [Nat.mod_eq_of_lt hx]

/-- An addend without bits below `2^-64`: the marker where it or the sum leaves the range, the sum otherwise. -/
theorem laAdd_fin_above {x : Nat} {m e k : Int} {d : Nat} (hx : x % 2 ^ 128 ≠ laMarker) (he : e + k = d - 64) :
    (2 ^ 127 ≤ (m * (2 ^ d : Nat)).natAbs ∨ 2 ^ 127 ≤ (signedOf 128 x + m * (2 ^ d : Nat)).natAbs →
      laAdd x (.fin m e) k = laMarker) ∧
    ((m * (2 ^ d : Nat)).natAbs < 2 ^ 127 → (signedOf 128 x + m * (2 ^ d : Nat)).natAbs < 2 ^ 127 →
      signedOf 128 (laAdd x (.fin m e) k) = signedOf 128 x + m * (2 ^ d : Nat)) := by
  have units := addendUnits_fin_above (m := m) he
  by_cases fits : (m * (2 ^ d : Nat)).natAbs < 2 ^ 127
  · rw [if_pos fits] at units
    rw [laAdd_of_addendUnits_some hx units, cellOfSum_eq_laMarker_iff]
    refine ⟨fun out => out.resolve_left (Nat.not_le.mpr fits), fun _ inside => ?_⟩
    rw [cellOfSum_of_lt inside, signedOf_unsignedOf_128 inside]
  · rw [if_neg fits] at units
    exact ⟨fun _ => laAdd_of_addendUnits_none units x, fun inside => absurd inside fits⟩

/-- Settles O55: an addend is what it converts to in units of `2^-64`, and an add that leaves no marker adds those units. -/
theorem exactAddsConvert : Obligations.ExactAddsConvert := by
  refine ⟨fun x k => ?specials, fun x m e k d hx unmarked => ?finite, fun f lo hi row => ?scales, by decide,
    by decide, by decide +kernel, fun x v v' k k' _ h h' => laAdd_comm h h'⟩
  case specials => exact ⟨laAdd_nan x k, laAdd_inf x false k, laAdd_inf x true k, fun v => laAdd_marker rfl v k⟩
  case finite =>
    exact ⟨fun he low => laAdd_of_addendUnits_none (addendUnits_fin_below he low) x,
      laAdd_fin_above (mod_ne_laMarker hx unmarked)⟩
  case scales =>
    obtain ⟨below_lt, below_finite, below⟩ := exactScales_below _ row
    obtain ⟨above_lt, above_finite, above⟩ := exactScales_above _ row
    exact ⟨fun b k _ finite hlo hhi => exactScales_convert row finite hlo hhi,
      ⟨_, below_lt, below_finite, unconverted_iff.mpr below⟩, ⟨_, above_lt, above_finite, unconverted_iff.mpr above⟩⟩

end Sys2Proof.Machine
end

section
/-!
Writes of a session to the dictionary, service state and calibration (16 R484-R487, R499, R503).
-/

namespace Sys2Proof.Machine

/-! Raised events. -/

theorem Raises.emit {s u : State} {code : Nat} {args : List Nat} (o : Out) (h : Raises s u code args) :
    Raises s (u.emit o) code args := by
  obtain ⟨l, out, e, mem, event⟩ := h
  exact ⟨l ++ [o], by simp [State.emit, out], e, List.mem_append_left _ mem, event⟩

/-- What left the module before counts alone. -/
theorem Raises.of_out_eq {s t u : State} {code : Nat} {args : List Nat} (out : t.out = s.out) (h : Raises t u code args) :
    Raises s u code args := by
  unfold Raises at h ⊢
  rwa [out] at h

theorem State.raises_moduleEvent (s : State) (code a b : Nat) (payload : Bytes) :
    Raises s (s.moduleEvent code a b payload) code [0xFF, a, b] := by
  obtain ⟨l, out⟩ := (State.noticeTo_frame s 0 code 0xFF 0 a b payload .out).2
  refine ⟨l ++ { kind := .event, port := code, args := [0xFF, a, b], data := payload } ::
    s.eventMsgs code 0xFF 0 a b payload false, ?_, _,
    List.mem_append_right _ List.mem_cons_self, rfl, rfl, rfl⟩
  simp only [State.moduleEvent, State.emit, State.emits, ← out]
  simp

@[simp] theorem State.moduleEvent_dict (s : State) (code a b : Nat) (payload : Bytes) :
    (s.moduleEvent code a b payload).dict = s.dict := (State.moduleEvent_frame _ _ _ _ _).frame .dict (by decide)

@[simp] theorem State.moduleEvent_lk (s : State) (code a b : Nat) (payload : Bytes) :
    (s.moduleEvent code a b payload).lk = s.lk := (State.moduleEvent_frame _ _ _ _ _).frame .lk (by decide)

@[simp] theorem State.moduleEvent_berths (s : State) (code a b : Nat) (payload : Bytes) :
    (s.moduleEvent code a b payload).berths = s.berths := (State.moduleEvent_frame _ _ _ _ _).frame .berths (by decide)

/-! Service state. -/

@[simp] theorem State.setService_service (s : State) (x : Option Nat) : (s.setService x).lk.service = x := by
  unfold State.setService
  extract_lets
  split
  · rfl
  · rw [State.moduleEvent_lk]

@[simp] theorem State.setService_berths (s : State) (x : Option Nat) : (s.setService x).berths = s.berths :=
  (State.setService_frame _ _).frame .berths (by decide)

@[simp] theorem State.setService_cores (s : State) (x : Option Nat) : (s.setService x).cores = s.cores :=
  (State.setService_frame _ _).frame .cores (by decide)

@[simp] theorem State.setService_mem (s : State) (x : Option Nat) : (s.setService x).mem = s.mem :=
  (State.setService_frame _ _).frame .mem (by decide)

/-- Only a start or an end of service state is reported. -/
theorem State.raises_setService {s : State} {x : Option Nat} (turns : s.lk.service.isSome ≠ x.isSome) :
    Raises s (s.setService x) 0x0883 [0xFF, if x.isSome then 1 else 0, 0] := by
  unfold State.setService
  rw [if_neg turns]
  exact Raises.of_out_eq rfl (State.raises_moduleEvent { s with lk := { s.lk with service := x } } ..)

/-! The end of a session. -/

/-- A session takes the service state with it that it set, and no other's. -/
theorem State.closeSession_service (s : State) (sid : Nat) :
    (s.closeSession sid).lk.service = if s.lk.service = some sid then none else s.lk.service := by
  unfold State.closeSession
  extract_lets
  split
  · exact State.setService_service ..
  · rfl

@[simp] theorem State.closeSession_berths (s : State) (sid : Nat) : (s.closeSession sid).berths = s.berths :=
  (State.closeSession_frame _ _).frame .berths (by decide)

theorem State.raises_closeSession {s : State} {sid : Nat} (own : s.lk.service = some sid) :
    Raises s (s.closeSession sid) 0x0883 [0xFF, 0, 0] := by
  unfold State.closeSession
  extract_lets _ t
  have held : t.lk.service = some sid := own
  rw [if_pos held]
  exact Raises.of_out_eq rfl (State.raises_setService (s := t) (by simp [held]))

/-- When the sessions of a list have closed, the one that set service state among them, service state has ended. -/
theorem State.closeSessions_service {l : List Nat} {s : State} (own : ∀ k, s.lk.service = some k → k ∈ l) :
    (forL l s fun sid t => t.closeSession sid).lk.service = none := by
  induction l generalizing s with
  | nil =>
    cases h : s.lk.service with
    | none => exact h
    | some k => exact absurd (own k h) List.not_mem_nil
  | cons a r ih =>
    refine ih fun k hk => ?_
    rw [State.closeSession_service] at hk
    split at hk
    · cases hk
    case isFalse other => exact (List.mem_cons.mp (own k hk)).resolve_left fun e => other (e ▸ hk)

/-- Service state ends with the port of the session that set it. -/
theorem State.dropPort_service {s : State} {sid : Nat} {x : SessSt} (opened : tfind s.dict.sessions sid = some x)
    (own : s.lk.service = some sid) : (s.dropPort x.port).lk.service = none := by
  refine State.closeSessions_service fun k hk => ?_
  obtain rfl : sid = k := Option.some.inj (own.symm.trans hk)
  exact List.mem_map.mpr ⟨(sid, x), List.mem_filter.mpr ⟨mem_of_tfind opened, beq_self_eq_true _⟩, rfl⟩

@[simp] theorem State.dropPort_berths (s : State) (port : Nat) : (s.dropPort port).berths = s.berths :=
  (State.dropPort_frame _ _).frame .berths (by decide)

theorem exec_sessionIdleTimeout {s : State} {sid : Nat} {x : SessSt} (opened : tfind s.dict.sessions sid = some x) :
    exec (.sessionIdleTimeout sid) s = .next (s.closeSession sid) := by
  change execSessionIdleTimeout sid s = _
  simp only [execSessionIdleTimeout, opened, Option.isSome_some, if_true]

theorem exec_towpathPortLinkChange_down {s : State} {port : Nat} (towpath : port < 2) (wasUp : port ∉ s.dict.tpDown) :
    exec (.towpathPortLinkChange port false) s = .next
      { s.dropPort port with dict := { (s.dropPort port).dict with tpDown := (s.dropPort port).dict.tpDown ++ [port] } } := by
  change execTowpathPortLinkChange port false s = _
  simp [execTowpathPortLinkChange, Nat.not_le.mpr towpath, wasUp]

/-! Admission (R486, R487). -/

theorem ERole.writeRank_le (r : ERole) : r.rank.2 ≤ 4 := by cases r <;> decide

/-- A keeper writes every entry that is neither read only nor constant, an RWS entry in service state alone. -/
theorem State.mayReach_keeper_write {x : SessSt} (keeper : x.role = 4) (s : State) (ix sub : Nat) (e : EntRow)
    (v : Option EVal) :
    s.mayReach x ix sub e true v = match e.acc with
      | .ro | .const => 0x0808
      | .rws => if s.lk.service.isNone then 0x0809 else 0
      | .rw | .wo => 0 := by
  have ranked : ¬ 4 < e.role.rank.2 := Nat.not_lt.mpr e.role.writeRank_le
  simp only [State.mayReach, keeper, if_true, ranked]
  cases e.acc <;> simp

theorem State.mayReach_keeper_rw {x : SessSt} (keeper : x.role = 4) {e : EntRow} (acc : e.acc = .rw) (s : State)
    (ix sub : Nat) (v : Option EVal) : s.mayReach x ix sub e true v = 0 := by
  rw [State.mayReach_keeper_write keeper, acc]

theorem State.mayReach_keeper_rws {x : SessSt} (keeper : x.role = 4) {e : EntRow} (acc : e.acc = .rws) (s : State)
    (ix sub : Nat) (v : Option EVal) : s.mayReach x ix sub e true v = if s.lk.service = none then 0x0809 else 0 := by
  rw [State.mayReach_keeper_write keeper, acc]
  simp only [Option.isNone_iff_eq_none]

/-- Below the rank that a role column asks for a write is refused. -/
theorem State.mayReach_write_below_rank {x : SessSt} {e : EntRow} (below : x.role < e.role.rank.2) (s : State) (ix sub : Nat)
    (v : Option EVal) : s.mayReach x ix sub e true v ≠ 0 := by
  simp only [State.mayReach, if_true, below]
  split
  · decide
  · split <;> decide

/-- Service state admits to RWS entries and to nothing else. -/
theorem State.mayReach_of_not_rws {e : EntRow} (acc : e.acc ≠ .rws) (s : State) (k : Option Nat) (x : SessSt) (ix sub : Nat)
    (w : Bool) (v : Option EVal) :
    ({ s with lk := { s.lk with service := k } }).mayReach x ix sub e w v = s.mayReach x ix sub e w v := by
  unfold State.mayReach
  cases h : e.acc with
  | rws => exact absurd h acc
  | ro | rw | wo | const => rfl

/-! Writes by a session (R499). -/

theorem answers_emit (u : State) (ix sub code : Nat) :
    Answers (u.emit { kind := .answer, port := entryKey ix sub, args := [code] }) ix sub code := by
  simp [Answers, State.emit]

section
variable {s : State} {sid ix sub : Nat} {x : SessSt} {e : EntRow} {raw : Bytes} (up : DictUp s)
  (opened : tfind s.dict.sessions sid = some x) (row : entryRow ix sub = some e)

include up opened

/-- The answer to a session's write is the code that the write comes to. -/
theorem State.bySession_of_open : s.bySession sid ix sub raw =
    (s.writeEntry sid x ix sub raw).2.emit
      { kind := .answer, port := entryKey ix sub, args := [(s.writeEntry sid x ix sub raw).1] } := by
  obtain ⟨active, running⟩ := up
  simp [State.bySession, State.byDict, active, running, opened]

include row

/-- A write that admission refuses changes nothing. -/
theorem State.bySession_refused {c : Nat} (refused : s.mayReach x ix sub e true (e.parse raw) = c) (code : c ≠ 0) :
    s.bySession sid ix sub raw = s.emit { kind := .answer, port := entryKey ix sub, args := [c] } := by
  have write : s.writeEntry sid x ix sub raw = (c, s) := by
    simp only [State.writeEntry, row, refused, if_pos code]
  rw [State.bySession_of_open up opened, write]

/-- A write that is admitted, keeps the type, length and range of its line and meets its owner's checks takes effect. -/
theorem State.bySession_applied {v : EVal} {t : State} (admitted : s.mayReach x ix sub e true (e.parse raw) = 0)
    (parsed : e.parse raw = some v) (ranged : e.inRange v = true) (applied : s.applyEntry sid ix sub v = (0, t)) :
    s.bySession sid ix sub raw = ({ t with dict := { t.dict with changed := true } } : State).emit
      { kind := .answer, port := entryKey ix sub, args := [0] } := by
  have write : s.writeEntry sid x ix sub raw = (0, { t with dict := { t.dict with changed := true } }) := by
    rw [parsed] at admitted
    simp [State.writeEntry, row, parsed, admitted, ranged, applied]
  rw [State.bySession_of_open up opened, write]

end

/-! The entry of service state, 0x1201:00. -/

/-- The line of service state (R501). -/
def serviceRow : EntRow := num 0x1201 0x1201 0 0 .bool .rw .keeper

theorem entryRow_service : entryRow 0x1201 0 = some serviceRow := by decide

theorem serviceRow_parse {v : Nat} (bit : v ≤ 1) : serviceRow.parse (leBytes 1 v) = some (.n v) := by
  obtain rfl | rfl : v = 0 ∨ v = 1 := by omega
  · decide
  · decide

/-- Where the entry reads, it tells whether a session holds service state. -/
theorem State.readEntry_service {s : State} {x : SessSt} (admitted : (s.readEntry x 0x1201 0).1 = 0) :
    (s.readEntry x 0x1201 0).2 = beBytes 1 (if s.lk.service = none then 0 else 1) := by
  simp only [State.readEntry, entryRow_service] at admitted ⊢
  split at admitted
  case isTrue refused => exact absurd admitted refused
  case isFalse reads =>
    rw [if_neg reads]
    change beBytes 1 (if s.lk.service.isSome then 1 else 0) = _
    cases s.lk.service <;> rfl

/-- A write to the entry sets or ends service state. -/
theorem State.applyEntry_service (s : State) (sid v : Nat) :
    s.applyEntry sid 0x1201 0 (.n v) = (0, s.setService (if v = 1 then some sid else none)) := by
  change (0, if v = 1 then s.setService (some sid) else s.setService none) = _
  split <;> rfl

theorem exec_serviceStateWrite (s : State) (sid v : Nat) :
    exec (.serviceStateWrite sid v) s = .next (s.bySession sid 0x1201 0 (leBytes 1 v)) := rfl

section
variable {s : State} {sid v : Nat} {x : SessSt} (up : DictUp s) (opened : tfind s.dict.sessions sid = some x)

include up opened

/-- A keeper's write starts or ends service state, reports a change of it, and leaves the berths to run. -/
theorem exec_serviceStateWrite_keeper (bit : v ≤ 1) (keeper : x.role = 4) :
    ∃ u, exec (.serviceStateWrite sid v) s = .next u ∧ u.lk.service = (if v = 1 then some sid else none) ∧
      Answers u 0x1201 0 0 ∧ u.berths = s.berths ∧ u.cores = s.cores ∧ u.mem = s.mem ∧
      (v = 1 → s.lk.service = none → Raises s u 0x0883 [0xFF, 1, 0]) ∧
      (v = 0 → s.lk.service ≠ none → Raises s u 0x0883 [0xFF, 0, 0]) := by
  refine ⟨_, exec_serviceStateWrite .., ?_⟩
  rw [State.bySession_applied up opened entryRow_service (State.mayReach_keeper_rw keeper rfl ..)
    (serviceRow_parse bit) rfl (State.applyEntry_service ..)]
  refine ⟨State.setService_service .., answers_emit .., State.setService_berths .., State.setService_cores ..,
    State.setService_mem .., ?starts, ?ends⟩
  case starts =>
    rintro rfl ended
    exact Raises.emit _ (State.raises_setService (x := some sid) (by simp [ended]))
  case ends =>
    rintro rfl held
    exact Raises.emit _ (State.raises_setService (x := none) (by simpa using held))

/-- No other session writes the entry. -/
theorem exec_serviceStateWrite_below_keeper (below : x.role ≤ 3) :
    ∃ u c, exec (.serviceStateWrite sid v) s = .next u ∧ u.lk = s.lk ∧ c ≠ 0 ∧ Answers u 0x1201 0 c ∧ u.dict = s.dict := by
  have code := State.mayReach_write_below_rank (e := serviceRow) (Nat.lt_succ_of_le below) s 0x1201 0
    (serviceRow.parse (leBytes 1 v))
  refine ⟨_, s.mayReach x 0x1201 0 serviceRow true (serviceRow.parse (leBytes 1 v)), exec_serviceStateWrite .., ?_⟩
  rw [State.bySession_refused up opened entryRow_service rfl code]
  exact ⟨rfl, code, answers_emit .., rfl⟩

end

/-! Calibration entries, 0x2001 to 0x2007. -/

/-- A line of a calibration entry holds bytes of one length, and only a keeper writes it, in service state (R502). -/
def EntRow.IsCalibration (e : EntRow) : Prop := e.acc = .rws ∧ e.typ.size = none ∧ e.lmin = e.lmax

/-- The entry tables hold no other line in 0x2001 to 0x2007. -/
theorem entryRows_calibration :
    ∀ e ∈ entryRows, e.i0 ≤ 0x2007 → 0x2001 ≤ e.i1 → e.IsCalibration := by
  unfold EntRow.IsCalibration
  decide +kernel

theorem isCalibration_of_entryRow {ix sub : Nat} {e : EntRow} (row : entryRow ix sub = some e) (low : 0x2001 ≤ ix)
    (high : ix ≤ 0x2007) : e.IsCalibration := by
  have span := List.find?_some row
  simp only [Bool.and_eq_true, decide_eq_true_eq] at span
  obtain ⟨⟨⟨first, last⟩, _⟩, _⟩ := span
  exact entryRows_calibration e (List.mem_of_find?_eq_some row) (Nat.le_trans first high) (Nat.le_trans low last)

theorem EntRow.IsCalibration.parse {e : EntRow} (cal : e.IsCalibration) {value : Bytes} (length : value.length = e.lmax) :
    e.parse value = some (.b value) := by
  obtain ⟨_, bytes, fixed⟩ := cal
  simp [EntRow.parse, bytes, fixed, length]

theorem EntRow.inRange_bytes (e : EntRow) (value : Bytes) : e.inRange (.b value) = true := by
  unfold EntRow.inRange
  split
  case h_1 h => cases h
  case h_2 => rfl

theorem State.applyEntry_calibration (s : State) (sid sub : Nat) (value : Bytes) {ix : Nat} (low : 0x2001 ≤ ix)
    (high : ix ≤ 0x2007) : s.applyEntry sid ix sub (.b value) = (0, (s.writeCal ix sub value).2) := by
  rw [State.applyEntry, if_pos (by omega), State.applyIdentity, if_neg (by omega), if_neg (by omega), if_pos ⟨low, high⟩]
  rfl

/-! What a calibration write does (R503). -/

theorem State.writeCal_blob (s : State) (ix sub : Nat) (value : Bytes) :
    tfind (s.writeCal ix sub value).2.dict.blobs (entryKey ix sub) = some value := by
  simp [State.writeCal, State.putBlob, tfind_tset_self]

theorem State.writeCal_calWrites (s : State) (ix sub : Nat) (value : Bytes) :
    (s.writeCal ix sub value).2.dict.calWrites = (s.dict.calWrites + 1) % 2 ^ 32 := by
  simp [State.writeCal, State.putBlob]

theorem State.writeCal_berths (s : State) (ix sub : Nat) (value : Bytes) :
    (s.writeCal ix sub value).2.berths = s.berths := by
  simp [State.writeCal, State.putBlob]

theorem State.raises_writeCal (s : State) (ix sub : Nat) (value : Bytes) :
    Raises s (s.writeCal ix sub value).2 0x0880 [0xFF, entryKey ix sub, 0] := by
  unfold State.writeCal
  refine Raises.of_out_eq ?_ (State.raises_moduleEvent ..)
  rfl

theorem exec_calibrationWrite {ix : Nat} (low : 0x2001 ≤ ix) (high : ix ≤ 0x2007) (s : State) (sid sub : Nat)
    (value : Bytes) : exec (.calibrationWrite sid ix sub value) s = .next (s.bySession sid ix sub value) := by
  change execCalibrationWrite sid ix sub value s = _
  rw [execCalibrationWrite, if_pos ⟨low, high⟩]

section
variable {s : State} {sid ix sub : Nat} {x : SessSt} {e : EntRow} {value : Bytes} (up : DictUp s)
  (opened : tfind s.dict.sessions sid = some x) (row : entryRow ix sub = some e) (low : 0x2001 ≤ ix) (high : ix ≤ 0x2007)
  (keeper : x.role = 4)

include up opened row low high keeper

/-- Out of service state a calibration entry is refused even to a keeper. -/
theorem exec_calibrationWrite_out_of_service (ended : s.lk.service = none) :
    ∃ u, exec (.calibrationWrite sid ix sub value) s = .next u ∧ Answers u ix sub 0x0809 ∧ u.dict = s.dict := by
  obtain ⟨acc, -⟩ := isCalibration_of_entryRow row low high
  have refused := State.mayReach_keeper_rws keeper acc s ix sub (e.parse value)
  rw [if_pos ended] at refused
  refine ⟨_, exec_calibrationWrite low high .., ?_⟩
  rw [State.bySession_refused up opened row refused (by decide)]
  exact ⟨answers_emit .., rfl⟩

/-- In service state a keeper's value is taken, counted and reported. -/
theorem exec_calibrationWrite_in_service (length : value.length = e.lmax) (held : s.lk.service ≠ none) :
    ∃ u, exec (.calibrationWrite sid ix sub value) s = .next u ∧ Answers u ix sub 0 ∧
      tfind u.dict.blobs (entryKey ix sub) = some value ∧ u.dict.calWrites = (s.dict.calWrites + 1) % 2 ^ 32 ∧
      Raises s u 0x0880 [0xFF, entryKey ix sub, 0] ∧ u.berths = s.berths := by
  have cal := isCalibration_of_entryRow row low high
  have acc : e.acc = .rws := cal.1
  have admitted := State.mayReach_keeper_rws keeper acc s ix sub (e.parse value)
  rw [if_neg held] at admitted
  refine ⟨_, exec_calibrationWrite low high .., ?_⟩
  rw [State.bySession_applied up opened row admitted (cal.parse length) (e.inRange_bytes value)
    (State.applyEntry_calibration s sid sub value low high)]
  exact ⟨answers_emit .., State.writeCal_blob .., State.writeCal_calWrites .., (State.raises_writeCal ..).emit _,
    State.writeCal_berths ..⟩

end

/-- Settles O32: a keeper's write sets service state, the end of its session or of that session's port ends it, and it opens
RWS entries alone. -/
theorem serviceStateGuardsRepairs : Obligations.ServiceStateGuardsRepairs := by
  intro s sid v ix sub x value bit up opened
  refine ⟨State.readEntry_service, exec_serviceStateWrite_keeper up opened bit,
    fun _ below => exec_serviceStateWrite_below_keeper up opened below, fun own => ?idle, fun own towpath wasUp => ?linkDown,
    fun e row low high length keeper => ?calibration, fun e w y k acc => State.mayReach_of_not_rws acc s k x ix sub w y⟩
  case idle =>
    refine ⟨_, exec_sessionIdleTimeout opened, ?_, State.raises_closeSession own, State.closeSession_berths ..⟩
    rw [State.closeSession_service, if_pos own]
  case linkDown =>
    exact ⟨_, exec_towpathPortLinkChange_down towpath wasUp, State.dropPort_service opened own, State.dropPort_berths ..⟩
  case calibration =>
    exact ⟨exec_calibrationWrite_out_of_service up opened row low high keeper,
      exec_calibrationWrite_in_service up opened row low high keeper length⟩

end Sys2Proof.Machine
end

section
/-!
The skip windows of a berth and what a restore writes of them (13 R406, 18 R545, R556).
-/

namespace Sys2Proof.Machine

/-! Tables that a list of writes fills. -/

/-- After writes at the listed indices that `p` picks, such an index holds its new value and every other what it held. -/
theorem tget_foldl_tset {α : Type} (d : α) (p : Nat → Prop) [DecidablePred p] (f : Nat → α) (l : List Nat) (t : Tbl α)
    (k : Nat) : tget (l.foldl (fun t j => if p j then tset t (j + 1) (f j) else t) t) d (k + 1) =
      if k ∈ l ∧ p k then f k else tget t d (k + 1) := by
  induction l generalizing t with
  | nil => simp
  | cons j r ih =>
    rw [List.foldl_cons, ih]
    by_cases here : k = j
    · subst here
      by_cases picked : p k
      · simp [picked, tget_tset_self]
      · simp [picked]
    · have unchanged : tget (if p j then tset t (j + 1) (f j) else t) d (k + 1) = tget t d (k + 1) := by
        split
        · exact tget_tset_other _ _ _ (by omega)
        · rfl
      simp [unchanged, here]

/-! What leaves the windows alone. -/

theorem State.skipWin_of_berths {s u : State} (same : u.berths = s.berths) (b w : Nat) : u.skipWin b w = s.skipWin b w := by
  rw [State.skipWin, State.skipWin, State.berth, State.berth, same]

theorem State.skipWin_modBerth (s : State) (b w : Nat) (f : BerthSt → BerthSt) :
    (s.modBerth b f).skipWin b w = tget (f (s.berth b)).skips (2 ^ 64 - 1, 0) w := by
  rw [State.skipWin, State.berth_modBerth]

theorem State.reloadCounters_skipWin (s : State) (b w : Nat) : (s.reloadCounters b).skipWin b w = s.skipWin b w := by
  unfold State.reloadCounters
  extract_lets
  split
  · rfl
  · exact State.skipWin_modBerth ..

theorem State.copyBack_berths (s : State) (b k : Nat) : (s.copyBack b k).berths = s.berths :=
  (State.copyBack_frame s b k).frame .berths (by decide)

/-- Zeroing ranges of memory leaves the berths alone. -/
theorem clearAll_berths (l : List (Nat × Nat)) (s : State) :
    (forL l s fun p t => { t with mem := t.mem.clear p.1 (p.1 + p.2) }).berths = s.berths := by
  have change : Change [.mem] s (forL l s fun p t => { t with mem := t.mem.clear p.1 (p.1 + p.2) }) :=
    Change.forL Change.refl fun _ _ h => h.setMem rfl fun ok => Store.ok_clear _ _ ok
  exact change.frame .berths (by decide)

/-! The windows written back. -/

/-- Skip window `w` of a state values block (R545): its first and its last record. -/
def savedWin (v : Bytes) (w : Nat) : Nat × Nat := (leAt v (80 + 16 * w) 8, leAt v (88 + 16 * w) 8)

/-- The window that holds when a saved one is written over a current one: an empty one is not written (R556). -/
def restoredWin (saved current : Nat × Nat) : Nat × Nat := if saved.1 ≤ saved.2 then saved else current

/-- The state values give a berth each window of theirs that is not empty, and leave it the others (R556). -/
theorem State.valuesBack_skipWin (s : State) (b : Nat) (v : Bytes) {w : Nat} (first : 1 ≤ w) (last : w ≤ 16) :
    (s.valuesBack b v).skipWin b w = restoredWin (savedWin v w) (s.skipWin b w) := by
  obtain ⟨i, rfl⟩ : ∃ i, w = i + 1 := ⟨w - 1, by omega⟩
  have saved : savedWin v (i + 1) = (leAt v (96 + 16 * i) 8, leAt v (104 + 16 * i) 8) := by
    simp only [savedWin, show 80 + 16 * (i + 1) = 96 + 16 * i by omega, show 88 + 16 * (i + 1) = 104 + 16 * i by omega]
  have listed : i ∈ List.range 16 := List.mem_range.mpr (by omega)
  unfold State.valuesBack
  extract_lets t run u
  have berths : u.berths = t.berths := by
    have change : Change [.fabric] t u := Change.forL Change.refl fun _ _ h => h.tr (State.modExch_frame _ _ _) rfl
    exact change.frame .berths (by decide)
  calc _ = t.skipWin b (i + 1) := State.skipWin_of_berths (by simpa using berths) b _
    _ = _ := by
      rw [State.skipWin_modBerth, tget_foldl_tset, saved]
      simp only [listed, true_and, restoredWin]
      rfl

/-- An accepted restore gives a berth each window of the slot that is not empty, and leaves it the others (R556). -/
theorem State.snapRestore_skipWin {s : State} {b w : Nat} (accepted : s.restoreCode b (s.named b) = 0) (first : 1 ≤ w)
    (last : w ≤ 16) : (s.snapRestore b).2.skipWin b w =
      restoredWin (savedWin (s.slotValues b (s.named b)) w) (s.skipWin b w) := by
  unfold State.snapRestore
  extract_lets k code zero v released started back
  have allowed : ¬ code ≠ 0 := fun refused => refused accepted
  rw [if_neg allowed]
  calc _ = back.skipWin b w := State.skipWin_of_berths (clearAll_berths ..) b w
    _ = ((started.copyBack b k).valuesBack b v).skipWin b w := State.reloadCounters_skipWin ..
    _ = restoredWin (savedWin v w) ((started.copyBack b k).skipWin b w) :=
      State.valuesBack_skipWin _ b v first last
    _ = restoredWin (savedWin v w) (s.skipWin b w) := by
      have before : (started.copyBack b k).skipWin b w = s.skipWin b w :=
        (State.skipWin_of_berths (s := released) (State.copyBack_berths started b k) b w).trans (State.skipWin_modBerth ..)
      rw [before]

/-! Passing over a window. -/

/-- A tally inside one of the sixteen windows is passed over, to a record beyond it (R406). -/
theorem State.skipPast_of_mem {s : State} {b w t : Nat} (first : 1 ≤ w) (last : w ≤ 16) (lo : (s.skipWin b w).1 ≤ t)
    (hi : t ≤ (s.skipWin b w).2) : ∃ n, s.skipPast b t = some n ∧ t < n := by
  have listed : s.skipWin b w ∈ (List.range 16).map fun i => s.skipWin b (i + 1) :=
    List.mem_map.mpr ⟨w - 1, List.mem_range.mpr (by omega), by rw [Nat.sub_add_cancel first]⟩
  have found : (((List.range 16).map fun i => s.skipWin b (i + 1)).find? fun x =>
      decide (x.1 ≤ t) && decide (t ≤ x.2)).isSome = true :=
    List.find?_isSome.mpr ⟨_, listed, by simp [lo, hi]⟩
  obtain ⟨x, hx⟩ := Option.isSome_iff_exists.mp found
  have inside := List.find?_some hx
  simp only [Bool.and_eq_true, decide_eq_true_eq] at inside
  exact ⟨x.2 + 1, by rw [State.skipPast, hx, Option.map_some], Nat.lt_succ_of_le inside.2⟩

/-! The command. -/

/-- While the dictionary answers, a command's write does what it does and leaves the item code as its answer. -/
theorem State.byDict_of_up {s : State} (up : DictUp s) (ix sub : Nat) (f : State → Nat × State) :
    s.byDict ix sub f = (f s).2.emit { kind := .answer, port := entryKey ix sub, args := [(f s).1] } := by
  obtain ⟨active, running⟩ := up
  have answers : ¬ ((s.lk.active.isNone || !s.up) = true) := by simp [active, running]
  rw [State.byDict, if_neg answers]

theorem exec_snapshotRestore_skipWin {s : State} {b w : Nat} (up : DictUp s)
    (accepted : s.restoreCode b (s.named b) = 0) (first : 1 ≤ w) (last : w ≤ 16) :
    ∃ u, exec (.snapshotRestore b) s = .next u ∧
      u.skipWin b w = restoredWin (savedWin (s.slotValues b (s.named b)) w) (s.skipWin b w) := by
  refine ⟨_, congrArg Host.Outcome.next (State.byDict_of_up up ..), ?_⟩
  exact (State.skipWin_of_berths (State.emit_berths ..) b w).trans (State.snapRestore_skipWin accepted first last)

/-- Settles O42: a restore writes back the saved windows that are not empty, and a tally inside the window that then holds is
passed over. -/
theorem restoresWriteSkipWindows : Obligations.RestoresWriteSkipWindows := by
  rintro s b k w up rfl accepted first last
  obtain ⟨u, run, window⟩ := exec_snapshotRestore_skipWin up accepted first last
  refine ⟨u, run, fun nonempty => ?written, fun empty => ?kept, fun t lo hi => State.skipPast_of_mem first last lo hi⟩
  case written => exact window.trans (if_pos nonempty)
  case kept => exact window.trans (if_neg (Nat.not_le.mpr empty))

end Sys2Proof.Machine
end

section
/-!
What every command and every step leaves alone and keeps.
-/

namespace Sys2Proof.Machine

/-- A change named by fewer parts. -/
theorem ChangeO.within {l n s r} (h : ChangeO n s r) (w : partsIn n l = true) : ChangeO l s r := .of .refl h w

/-- Every command changes the parts that the table names for it at most, and keeps what is to be kept of each. -/
theorem exec_change (c : Instr) (s : State) : ChangeO (touches c) s (exec c s) := by
  cases c with
  | nop => exact execNop_frame _ _ _
  | mov => exact execMov_frame _ _ _
  | movi => exact execMovi_frame _ _ _ _
  | movhi => exact execMovhi_frame _ _ _ _
  | movsp => exact execMovsp_frame _ _ _
  | iadd => exact execIadd_frame _ _ _
  | isub => exact execIsub_frame _ _ _
  | imul => exact execImul_frame _ _ _
  | imulhu => exact execImulhu_frame _ _ _
  | imad => exact execImad_frame _ _ _
  | imin => exact execImin_frame _ _ _
  | imax => exact execImax_frame _ _ _
  | andb => exact execAndb_frame _ _ _
  | orb => exact execOrb_frame _ _ _
  | xorb => exact execXorb_frame _ _ _
  | shl => exact execShl_frame _ _ _
  | shr => exact execShr_frame _ _ _
  | sar => exact execSar_frame _ _ _
  | popc => exact execPopc_frame _ _ _
  | clz => exact execClz_frame _ _ _
  | iset => exact execIset_frame _ _ _
  | sel => exact execSel_frame _ _ _
  | fadd => exact execFadd_frame _ _ _
  | fsub => exact execFsub_frame _ _ _
  | fmul => exact execFmul_frame _ _ _
  | ffma => exact execFfma_frame _ _ _
  | fmin => exact execFmin_frame _ _ _
  | fmax => exact execFmax_frame _ _ _
  | fset => exact execFset_frame _ _ _
  | i2f => exact execI2f_frame _ _ _
  | f2i => exact execF2i_frame _ _ _
  | vote => exact execVote_frame _ _ _
  | v2s => exact execV2s_frame _ _ _
  | shfl => exact execShfl_frame _ _ _
  | miss => exact execMiss_frame _ _ _ _
  | matrixStart => exact execMatrixStart_frame _ _ _
  | ringSegmentFilled => exact execRingSegmentFilled_frame _ _ _
  | gatherWaitExpiry => exact execGatherWaitExpiry_frame _ _ _
  | matrixComplete => exact (execMatrixComplete_frame _ _ _ _).within rfl
  | vfma => exact execVfma_frame _ _ _ _ _
  | vadd => exact execVadd_frame _ _ _ _ _
  | vsub => exact execVsub_frame _ _ _ _ _
  | vmul => exact execVmul_frame _ _ _ _ _
  | vmin => exact execVmin_frame _ _ _ _ _
  | vmax => exact execVmax_frame _ _ _ _ _
  | vcmp => exact execVcmp_frame _ _ _ _ _
  | vsel => exact execVsel_frame _ _ _ _ _
  | vbcast => exact execVbcast_frame _ _ _ _ _
  | viadd => exact execViadd_frame _ _ _ _ _
  | visub => exact execVisub_frame _ _ _ _ _
  | vimul => exact execVimul_frame _ _ _ _ _
  | vand => exact execVand_frame _ _ _ _ _
  | vor => exact execVor_frame _ _ _ _ _
  | vxor => exact execVxor_frame _ _ _ _ _
  | vshl => exact execVshl_frame _ _ _ _ _
  | vshr => exact execVshr_frame _ _ _ _ _
  | vsar => exact execVsar_frame _ _ _ _ _
  | vimin => exact execVimin_frame _ _ _ _ _
  | vimax => exact execVimax_frame _ _ _ _ _
  | vgacc => exact execVgacc_frame _ _ _ _ _
  | vexp2 => exact execVexp2_frame _ _ _ _ _
  | vlog2 => exact execVlog2_frame _ _ _ _ _
  | vrcp => exact execVrcp_frame _ _ _ _ _
  | vrsqrt => exact execVrsqrt_frame _ _ _ _ _
  | vsqrt => exact execVsqrt_frame _ _ _ _ _
  | vperm => exact execVperm_frame _ _ _ _ _
  | vperm2 => exact execVperm2_frame _ _ _ _ _
  | vshuf => exact execVshuf_frame _ _ _ _ _
  | vpack => exact execVpack_frame _ _ _ _ _
  | vunpack => exact execVunpack_frame _ _ _ _ _
  | vcvt => exact execVcvt_frame _ _ _ _ _
  | vmxq => exact execVmxq_frame _ _ _ _ _
  | vrstat => exact execVrstat_frame _ _ _ _ _
  | vaddr => exact execVaddr_frame _ _ _ _ _
  | vamaxput => exact execVamaxput_frame _ _ _ _ _
  | vkhist => exact execVkhist_frame _ _ _ _ _
  | vksel => exact execVksel_frame _ _ _ _ _
  | vldr => exact execVldr_frame _ _ _ _ _
  | vstr => exact execVstr_frame _ _ _ _ _
  | vtiesum => exact execVtiesum_frame _ _ _ _ _
  | vectorOpStart => exact execVectorOpStart_frame _ _ _
  | vectorOpComplete => exact (execVectorOpComplete_frame _ _ _ _).within rfl
  | ld => exact execLd_frame _ _ _ _
  | st => exact execSt_frame _ _ _
  | lds => exact execLds_frame _ _ _ _
  | sts => exact execSts_frame _ _ _
  | atomAdd => exact execAtomAdd_frame _ _ _
  | atomSmin => exact execAtomSmin_frame _ _ _
  | atomSmax => exact execAtomSmax_frame _ _ _
  | atomUmin => exact execAtomUmin_frame _ _ _
  | atomUmax => exact execAtomUmax_frame _ _ _
  | atomAnd => exact execAtomAnd_frame _ _ _
  | atomOr => exact execAtomOr_frame _ _ _
  | atomXor => exact execAtomXor_frame _ _ _
  | atomExch => exact execAtomExch_frame _ _ _
  | atomCas => exact execAtomCas_frame _ _ _
  | atomFadd => exact execAtomFadd_frame _ _ _
  | atomXadd => exact execAtomXadd_frame _ _ _
  | loadDataReturn => exact execLoadDataReturn_frame _ _ _ _
  | atomicReturn => exact execAtomicReturn_frame _ _ _
  | fence => exact execFence_frame _ _ _
  | fenceComplete => exact execFenceComplete_frame _ _
  | bar => exact execBar_frame _ _ _ _ _ _ _
  | bra => exact execBra_frame _ _ _
  | brs => exact execBrs_frame _ _ _ _ _
  | brc => exact execBrc_frame _ _ _ _ _ _
  | jmps => exact execJmps_frame _ _ _
  | waitc => exact execWaitc_frame _ _ _ _
  | exitPath => exact execExitPath_frame _ _
  | trap => exact execTrap_frame _ _ _
  | forwardProgressCheck => exact execForwardProgressCheck_frame _ _
  | kernelStart => exact execKernelStart_frame _ _
  | kernelEnd => exact execKernelEnd_frame _ _
  | homeAccept => exact execHomeAccept_frame _ _ _
  | channelRead => exact execChannelRead_frame _ _ _ _ _
  | channelWrite => exact execChannelWrite_frame _ _ _ _ _
  | memsideAdd => exact execMemsideAdd_frame _ _ _ _ _ _ _ _
  | wcbPartialDrain => exact execWcbPartialDrain_frame _ _ _ _ _ _
  | wcbWriteRun => exact execWcbWriteRun_frame _ _ _
  | refresh n l => exact execRefresh_frame n l s
  | patrolScrub => exact execPatrolScrub_frame _ _ _ _
  | spareCopyStart => exact execSpareCopyStart_frame _ _ _
  | spareCopyDone => exact execSpareCopyDone_frame _ _ _ _
  | copyBackDone => exact execCopyBackDone_frame _ _ _
  | retrainDue => exact execRetrainDue_frame _ _ _
  | retrainDone => exact execRetrainDone_frame _ _ _ _
  | channelRelocationDone => exact execChannelRelocationDone_frame _ _ _
  | channelStatusRead => exact execChannelStatusRead_frame _ _ _
  | stepBoundary => exact execStepBoundary_frame _ _
  | holdRelease => exact execHoldRelease_frame _ _
  | postRegisterWrite => exact execPostRegisterWrite_frame _ _ _
  | exchPostTake => exact execExchPostTake_frame _ _
  | exchPacketArrival => exact execExchPacketArrival_frame _ _ _
  | exchResultArrival => exact execExchResultArrival_frame _ _ _
  | exchDeadline => exact execExchDeadline_frame _ _ _
  | dataFlitReceive => exact execDataFlitReceive_frame _ _ _ _
  | ackFlit => exact execAckFlit_frame _ _ _
  | creditFlit => exact execCreditFlit_frame _ _ _
  | replayFlit => exact execReplayFlit_frame _ _ _
  | laneCtl => exact execLaneCtl_frame _ _ _
  | linkControlTimer => exact execLinkControlTimer_frame _ _
  | laneSwitch => exact execLaneSwitch_frame _ _ _
  | laneRetire => exact execLaneRetire_frame _ _ _ _
  | portLinkUp => exact execPortLinkUp_frame _ _ _
  | hello => exact execHello_frame _ _
  | cert => exact execCert_frame _ _
  | discoveryChallenge => exact execDiscoveryChallenge_frame _ _
  | proof => exact execProof_frame _ _
  | discoveryResendTimer => exact execDiscoveryResendTimer_frame _ _
  | discoveryRetryTimer => exact execDiscoveryRetryTimer_frame _ _
  | cutPlanWrite => exact execCutPlanWrite_frame _ _ _
  | cutPlanActivate => exact execCutPlanActivate_frame _ _
  | cutPlanWithdraw => exact execCutPlanWithdraw_frame _ _
  | discoveryWaitExpiry => exact execDiscoveryWaitExpiry_frame _ _
  | routeBuild => exact execRouteBuild_frame _
  | frameTransit => exact execFrameTransit_frame _ _ _
  | readRequest => exact execReadRequest_frame _ _ _
  | writeRequest => exact execWriteRequest_frame _ _ _
  | atomicRequest => exact execAtomicRequest_frame _ _ _
  | readResponse => exact execReadResponse_frame _ _
  | writeAtomicResponse => exact execWriteAtomicResponse_frame _ _
  | remoteRetransmit => exact execRemoteRetransmit_frame _ _ _ _
  | remoteTimeout => exact execRemoteTimeout_frame _ _ _ _
  | windowEntryWrite => exact execWindowEntryWrite_frame _ _ _
  | fdFailure => exact execFdFailure_frame _ _
  | fdRestart => exact execFdRestart_frame _ _ _
  | streamFrameArrival => exact execStreamFrameArrival_frame _ _ _ _ _ _ _
  | gapWaitExpiry => exact execGapWaitExpiry_frame _ _ _ _
  | ackPeriodEnd => exact execAckPeriodEnd_frame _ _ _
  | sluiceRepeatTimer => exact execSluiceRepeatTimer_frame _ _ _
  | streamEnable => exact execStreamEnable_frame _ _ _ _
  | streamDisable => exact execStreamDisable_frame _ _ _
  | takeCmd => exact execTakeCmd_frame _ _ _
  | takeContinue => exact execTakeContinue_frame _ _
  | takeWait => exact execTakeWait_frame _ _
  | berthRewind => exact execBerthRewind_frame _ _ _
  | skipWindowWrite => exact execSkipWindowWrite_frame _ _ _ _ _
  | feed => exact execFeed_frame _ _ _
  | icmpv6EchoRequest => exact execIcmpv6EchoRequest_frame _ _ _ _ _ _
  | neighborSolicitation => exact execNeighborSolicitation_frame _ _ _ _ _
  | berthCreate => exact execBerthCreate_frame _ _
  | berthCreateDone => exact execBerthCreateDone_frame _ _
  | berthResize => exact execBerthResize_frame _ _
  | berthResizeDone => exact execBerthResizeDone_frame _ _
  | berthResetRequest => exact execBerthResetRequest_frame _ _
  | berthResetDone => exact execBerthResetDone_frame _ _
  | berthDusk => exact execBerthDusk_frame _ _
  | duskGraceExpiry => exact execDuskGraceExpiry_frame _ _
  | duskDone => exact execDuskDone_frame _ _
  | shrinkAcknowledge => exact execShrinkAcknowledge_frame _ _
  | segDefine => exact execSegDefine_frame _ _
  | segSeal => exact execSegSeal_frame _ _
  | segDelete => exact execSegDelete_frame _ _
  | segReshadow => exact execSegReshadow_frame _ _
  | reshadowDone => exact execReshadowDone_frame _ _ _
  | segmentJoinWrite => exact execSegmentJoinWrite_frame _ _ _
  | dieFence => exact execDieFence_frame _ _ _ _ _
  | qdbQueueWrite => exact execQdbQueueWrite_frame _ _ _
  | qdbDoorbell => exact execQdbDoorbell_frame _ _ _ _
  | bargeGive => exact execBargeGive_frame _ _ _
  | functionCounterRead => exact execFunctionCounterRead_frame _ _ _ _
  | mailboxSubmit => exact execMailboxSubmit_frame _ _ _ _ _ _
  | mailboxAnswer => exact execMailboxAnswer_frame _ _ _ _ _
  | dblSet => exact execDblSet_frame _ _ _ _
  | dblClear => exact execDblClear_frame _ _ _
  | dblMaskWrite => exact execDblMaskWrite_frame _ _ _
  | collideClear => exact execCollideClear_frame _ _
  | collisionsRead => exact execCollisionsRead_frame _ _
  | ctxCreate => exact execCtxCreate_frame _ _
  | ctxAbandon => exact execCtxAbandon_frame _ _
  | queueCreate => exact execQueueCreate_frame _ _
  | queueDestroy => exact execQueueDestroy_frame _ _
  | queueStop => exact execQueueStop_frame _ _
  | queueStart => exact execQueueStart_frame _ _
  | objCreate => exact execObjCreate_frame _ _
  | objImport => exact execObjImport_frame _ _
  | objRelease => exact execObjRelease_frame _ _
  | evtCreate => exact execEvtCreate_frame _ _
  | evtImport => exact execEvtImport_frame _ _
  | evtRelease => exact execEvtRelease_frame _ _
  | evtQuery => exact execEvtQuery_frame _ _
  | evtSignal => exact execEvtSignal_frame _ _
  | bargeSetup => exact execBargeSetup_frame _ _
  | noticeSetup => exact execNoticeSetup_frame _ _
  | resumeBerth => exact execResumeBerth_frame _ _
  | resetBerth => exact execResetBerth_frame _ _
  | mapPages => exact execMapPages_frame _ _
  | unmapPages => exact execUnmapPages_frame _ _
  | mbAssign => exact execMbAssign_frame _ _
  | segLoad => exact execSegLoad_frame _ _
  | slotGrant => exact execSlotGrant_frame _ _ _
  | mark => exact execMark_frame _ _ _
  | launch => exact execLaunch_frame _ _ _
  | launchReserveTimer => exact execLaunchReserveTimer_frame _ _ _
  | kernelLimit => exact execKernelLimit_frame _ _
  | copyMem => exact execCopyMem_frame _ _ _
  | fillMem => exact execFillMem_frame _ _ _
  | madd => exact execMadd_frame _ _ _
  | xwait => exact execXwait_frame _ _ _
  | commandRetire => exact execCommandRetire_frame _ _ _
  | abandonGraceExpiry => exact execAbandonGraceExpiry_frame _ _
  | vfFlr => exact execVfFlr_frame _ _
  | pfFlr => exact execPfFlr_frame _
  | hostLinkDown => exact execHostLinkDown_frame _ _
  | hostLoss => exact execHostLoss_frame _
  | hostLinkUp => exact execHostLinkUp_frame _ _ _ _
  | openSession => exact execOpenSession_frame _ _ _ _
  | closeSession => exact execCloseSession_frame _ _ _ _
  | ping => exact execPing_frame _ _ _ _
  | readEntry => exact execReadEntry_frame _ _ _ _
  | writeEntry => exact execWriteEntry_frame _ _ _ _
  | readSeg => exact execReadSeg_frame _ _ _ _
  | writeSeg => exact execWriteSeg_frame _ _ _ _
  | dictionaryTick => exact execDictionaryTick_frame _ _
  | sessionIdleTimeout => exact execSessionIdleTimeout_frame _ _
  | stageTimeout => exact execStageTimeout_frame _ _
  | serviceStateWrite => exact execServiceStateWrite_frame _ _ _
  | calibrationWrite => exact execCalibrationWrite_frame _ _ _ _ _
  | towpathHandshake => exact execTowpathHandshake_frame _ _ _ _ _ _
  | secureElement => exact execSecureElement_frame _
  | setEndpointId => exact execSetEndpointId_frame _ _ _ _
  | getEndpointId => exact execGetEndpointId_frame _ _
  | getMctpVersionSupport => exact execGetMctpVersionSupport_frame _ _ _
  | getMessageTypeSupport => exact execGetMessageTypeSupport_frame _ _
  | getVersion => exact execGetVersion_frame _ _
  | getCapabilities => exact execGetCapabilities_frame _ _ _
  | negotiateAlgorithms => exact execNegotiateAlgorithms_frame _ _ _ _
  | getDigests => exact execGetDigests_frame _ _
  | getCertificate => exact execGetCertificate_frame _ _ _ _ _
  | challenge => exact execChallenge_frame _ _ _ _
  | getMeasurements => exact execGetMeasurements_frame _ _ _ _ _
  | ptpMessage => exact execPtpMessage_frame _ _ _ _ _ _
  | dawn => exact execDawn_frame _
  | dawnRequest => exact execDawnRequest_frame _
  | firstLight => exact execFirstLight_frame _
  | wearSample => exact execWearSample_frame _ _ _ _ _ _ _
  | coreSubstitution => exact execCoreSubstitution_frame _ _ _
  | readmissionRequest => exact execReadmissionRequest_frame _ _ _ _ _
  | readmitDone => exact execReadmitDone_frame _ _
  | declareFailed => exact execDeclareFailed_frame _ _ _ _ _
  | heartbeatMiss => exact execHeartbeatMiss_frame _
  | lkRestart => exact execLkRestart_frame _ _ _
  | imageStaging => exact execImageStaging_frame _ _
  | fwBroadcast => exact execFwBroadcast_frame _
  | fwRoundEnd => exact execFwRoundEnd_frame _ _
  | fwInstallLockkeeper => exact execFwInstallLockkeeper_frame _
  | fwAbort => exact execFwAbort_frame _
  | fwHandover => exact execFwHandover_frame _ _
  | lockageCopy => exact execLockageCopy_frame _ _
  | snapshotDigestDone => exact execSnapshotDigestDone_frame _ _ _
  | replicaDigestWrite => exact execReplicaDigestWrite_frame _ _ _ _ _
  | snapshotAreaWrite => exact execSnapshotAreaWrite_frame _ _ _ _
  | snapshotRestore => exact execSnapshotRestore_frame _ _
  | snapshotResume => exact execSnapshotResume_frame _ _
  | snapshotDrain => exact execSnapshotDrain_frame _ _
  | drainAbort => exact execDrainAbort_frame _ _
  | snapshotFill => exact execSnapshotFill_frame _ _
  | slotEmpty => exact execSlotEmpty_frame _ _
  | drainAcknowledge => exact execDrainAcknowledge_frame _ _ _
  | drainResendTimer => exact execDrainResendTimer_frame _ _ _ _
  | drainStalled => exact execDrainStalled_frame _ _ _
  | fillDataFrame => exact execFillDataFrame_frame _ _ _
  | fillAckTimer => exact execFillAckTimer_frame _ _ _ _
  | instrModeWrite => exact execInstrModeWrite_frame _ _ _
  | instrRunStart => exact execInstrRunStart_frame _ _
  | instrRunStop => exact execInstrRunStop_frame _ _
  | instrScan => exact execInstrScan_frame _ _
  | instrScanDone => exact execInstrScanDone_frame _ _
  | instrTargetReached => exact execInstrTargetReached_frame _ _
  | instrLockLost => exact execInstrLockLost_frame _ _ _
  | inputVoltageChange => exact execInputVoltageChange_frame _ _ _
  | powerControllerTick => exact execPowerControllerTick_frame _ _ _
  | fastCurrentLimit => exact execFastCurrentLimit_frame _
  | phaseLost => exact execPhaseLost_frame _ _ _
  | protectiveOff => exact execProtectiveOff_frame _ _
  | sensorRefresh => exact execSensorRefresh_frame _ _ _
  | coolantAlarmTimer => exact execCoolantAlarmTimer_frame _ _
  | startEnd => exact execStartEnd_frame _ _ _
  | lockageRelease => exact execLockageRelease_frame _ _ _
  | restoreEnd => exact execRestoreEnd_frame _ _
  | standbyCatchUpDone => exact execStandbyCatchUpDone_frame _
  | standbyFailure => exact execStandbyFailure_frame _
  | ptpMasterLost => exact execPtpMasterLost_frame _
  | handoverDelayExpiry => exact execHandoverDelayExpiry_frame _ _
  | basinPortLinkChange => exact execBasinPortLinkChange_frame _ _ _
  | towpathPortLinkChange => exact execTowpathPortLinkChange_frame _ _ _
  | configurationRequest => exact execConfigurationRequest_frame _ _ _ _
  | hostPerstAsserted => exact execHostPerstAsserted_frame _ _
  | remoteHistoryExpiry => exact execRemoteHistoryExpiry_frame _ _ _

/-- What a step keeps of a part. -/
theorem step_keeps {s t : State} (h : step s = .next t) (p : Part) : p.kept s t := by
  unfold step at h
  split at h
  · cases h; exact p.kept_refl s
  · next c rest _ =>
    have k := (exec_change c { s with pending := rest } t h p).2
    cases p <;> exact k

/-- No command changes the queue. -/
theorem pending_notMem_touches (c : Instr) : Part.pending ∉ touches c := by
  have h : (touches c).contains .pending = false := by cases c <;> rfl
  simpa using h

/-- Settles O50: the frame of each command is that of its meaning. -/
theorem commandsKeepTheirFrames : Obligations.CommandsKeepTheirFrames := fun c s t h => by
  have k := (exec_change c s t h).frame
  exact ⟨k, k .pending (pending_notMem_touches c)⟩

/-- Settles O51: the canonical form is what a step keeps of memory, of the host's memory and of the cores. -/
theorem memoriesStayCanonical : Obligations.MemoriesStayCanonical := fun _ _ ⟨hmem, hhost, hcores⟩ h =>
  ⟨step_keeps h .mem hmem, step_keeps h .host hhost, step_keeps h .cores hcores⟩

/-- Settles O52: each clause is what a step keeps of one part. -/
theorem recordsAreKept : Obligations.RecordsAreKept := fun _ _ h =>
  ⟨step_keeps h .berths, step_keeps h .dict, step_keeps h .defects, let ⟨l, e⟩ := step_keeps h .out; ⟨l, e.symm⟩⟩

/-- Settles O45. -/
theorem stepRunsTheFrontCommand : Obligations.StepRunsTheFrontCommand := fun _ _ _ => ⟨rfl, rfl⟩

/-- Settles O46: every table after reset is empty. -/
theorem resetMeetsTheInvariants : Obligations.ResetMeetsTheInvariants := by
  have noBerth : State.reset.berths = [] := rfl
  exact ⟨⟨rfl, rfl, by decide⟩, by simp [State.gensOk, noBerth], ⟨trivial, by decide⟩, rfl, rfl, rfl, rfl, noBerth⟩

end Sys2Proof.Machine
end

section
/-!
Every command completes but an input voltage beyond the ratings (20 R570), and the example words of 07 R207-R216.
-/

namespace Sys2Proof.Machine

/-- An input voltage stops the module beyond its absolute maximum ratings alone (R570). -/
theorem execInputVoltageChange_eq (mv : Int) (us : Nat) (s : State) :
    (∃ t, exec (.inputVoltageChange mv us) s = .next t) ∨
      (mv < -60000 ∨ 64000 < mv ∨ (60000 < mv ∧ 10000 < us)) ∧
        exec (.inputVoltageChange mv us) s = .fault .beyondAbsoluteMaximum := by
  by_cases beyond : mv < -60000 ∨ 64000 < mv ∨ (60000 < mv ∧ 10000 < us)
  · exact .inr ⟨beyond, if_pos beyond⟩
  · exact .inl ⟨_, if_neg beyond⟩

/-- Settles O49: every other meaning is a next state as it stands. -/
theorem everyCommandCompletes : Obligations.EveryCommandCompletes := by
  intro c s
  cases c with
  | inputVoltageChange mv us =>
    exact (execInputVoltageChange_eq mv us s).imp_right fun ⟨beyond, stops⟩ => ⟨mv, us, rfl, beyond, stops⟩
  | _ => exact .inl ⟨_, rfl⟩

/-- Settles O47. -/
theorem exampleWordsRead : Obligations.ExampleWordsRead := fun _ => ⟨rfl, rfl, rfl, rfl, rfl, rfl, rfl, rfl, rfl⟩

end Sys2Proof.Machine
end

section
/-!
Words of kernel instructions: decoding and encoding agree (07 R207-R218).
-/

namespace Sys2Proof.Machine

/-! Words from their fields. -/

/-- A flag read from a bit is that bit. -/
theorem flag_eq_bitsOf {b : Bool} {w k : Nat} (h : b = (bitsOf w k k == 1)) : (if b = true then 1 else 0) = bitsOf w k k := by
  have : bitsOf w k k < 2 := by
    rw [bitsOf, Nat.add_sub_cancel_left]; exact Nat.mod_lt _ (by decide)
  subst h
  by_cases h : bitsOf w k k = 1
  · simp [h]
  · simp [h]; omega

theorem arithWord_arithOf {w : Nat} (lt : w < 2 ^ 64) (z : bitsOf w 47 44 = 0) :
    arithWord (bitsOf w 7 0) (arithOf w) = w := by
  rw [arithWord, flag_eq_bitsOf (b := (arithOf w).immf) rfl]
  simp only [arithOf, BitVec.toNat_ofNat, bitsOf] at *
  omega

theorem memWord_memOf {w : Nat} (lt : w < 2 ^ 64) (z : bitsOf w 47 39 = 0) :
    memWord (bitsOf w 7 0) (memOf w) = w := by
  rw [memWord, flag_eq_bitsOf (b := (memOf w).vol) rfl, flag_eq_bitsOf (b := (memOf w).sext) rfl]
  simp only [memOf, BitVec.toNat_ofNat, bitsOf] at *
  omega

theorem atomWord_atomOf {w : Nat} (lt : w < 2 ^ 64) (op : bitsOf w 7 0 = 0x62) (z : bitsOf w 38 37 = 0) :
    atomWord (bitsOf w 42 39) (atomOf w) = w := by
  rw [atomWord, flag_eq_bitsOf (b := (atomOf w).ret) rfl]
  simp only [atomOf, BitVec.toNat_ofNat, bitsOf] at *
  omega

/-- The sum of a word's listed bits. -/
def bitSum (w : Nat) (fs : List (Nat × Nat)) (x : Nat) : Nat := fs.foldl (fun a f => a + bitsOf w f.1 f.2 * 2 ^ f.2) x

theorem bitSum_cons (w hi lo : Nat) (fs : List (Nat × Nat)) (x : Nat) :
    bitSum w ((hi, lo) :: fs) x = bitSum w fs (x + bitsOf w hi lo * 2 ^ lo) := by rw [bitSum, List.foldl_cons, ← bitSum]

theorem bitSum_nil (w x : Nat) : bitSum w [] x = x := by rw [bitSum, List.foldl_nil]

/-- A word of its listed bits alone is their sum. -/
theorem eq_of_onlyBits {w : Nat} {fs : List (Nat × Nat)} (h : onlyBits w fs = true) : w = bitSum w fs 0 := by
  simpa [onlyBits, bitSum] using h

theorem toNat_ofNat_bitsOf {n hi lo : Nat} (w : Nat) (size : hi + 1 - lo = n) :
    (BitVec.ofNat n (bitsOf w hi lo)).toNat = bitsOf w hi lo := by
  rw [BitVec.toNat_ofNat, ← size, bitsOf, Nat.mod_mod]

theorem toNat_zero_byte : (0 : BitVec 8).toNat = 0 := rfl

theorem moviWord_fields {w op : Nat} (hop : bitsOf w 7 0 = op) (h : onlyBits w [(7, 0), (15, 8), (63, 32)] = true) :
    moviWord op (arithOf w).dst (BitVec.ofNat 32 (bitsOf w 63 32)) = w := by
  have e := eq_of_onlyBits h
  simp (disch := decide) only [bitSum_cons, bitSum_nil, moviWord, arithOf, toNat_ofNat_bitsOf] at *
  omega

theorem issueWord_fields {w : Nat} (hop : bitsOf w 7 0 = 0x50) (h : onlyBits w [(7, 0), (23, 16), (31, 24), (34, 32)] = true) :
    issueWord 0x50 (arithOf w).a (arithOf w).b (BitVec.ofNat 3 (bitsOf w 34 32)) = w := by
  have e := eq_of_onlyBits h
  simp (disch := decide) only [bitSum_cons, bitSum_nil, issueWord, arithOf, toNat_ofNat_bitsOf] at *
  omega

theorem missWord_fields {w : Nat} (hop : bitsOf w 7 0 = 0x40) (h : onlyBits w [(7, 0), (23, 16), (34, 32)] = true) :
    issueWord 0x40 (arithOf w).a 0 (BitVec.ofNat 3 (bitsOf w 34 32)) = w := by
  have e := eq_of_onlyBits h
  simp (disch := decide) only [bitSum_cons, bitSum_nil, issueWord, arithOf, toNat_ofNat_bitsOf, toNat_zero_byte] at *
  omega

theorem barWord_fields {w : Nat} (hop : bitsOf w 7 0 = 0x90)
    (h : onlyBits w [(7, 0), (37, 32), (63, 48)] = true ∨ onlyBits w [(7, 0), (23, 16), (37, 32)] = true) :
    barWord (arithOf w).a (BitVec.ofNat 4 (bitsOf w 35 32)) (bitsOf w 36 36 == 1) (bitsOf w 37 37 == 1) (arithOf w).imm = w := by
  rw [barWord, flag_eq_bitsOf (w := w) (k := 36) rfl, flag_eq_bitsOf (w := w) (k := 37) rfl]
  have e := h.imp eq_of_onlyBits eq_of_onlyBits
  simp (disch := decide) only [bitSum_cons, bitSum_nil, arithOf, toNat_ofNat_bitsOf] at *
  simp only [bitsOf] at *
  omega

/-- The word of a control instruction of operand A, condition, `mid` and `hi`. -/
theorem ctlWord_eq {w mid hi x : Nat} {a : BitVec 8} {cond : Bool} (flag : (if cond = true then 1 else 0) = x)
    (sum : w = bitsOf w 7 0 + 2 ^ 16 * a.toNat + 2 ^ 24 * x + 2 ^ 32 * mid + 2 ^ 48 * hi) :
    ctlWord (bitsOf w 7 0) a cond mid hi = w := by rw [ctlWord, flag]; exact sum.symm

theorem fenceWord_fields {w : Nat} (h : onlyBits w [(7, 0), (33, 32)] = true) :
    ctlWord (bitsOf w 7 0) 0 false (BitVec.ofNat 2 (bitsOf w 33 32)).toNat 0 = w := by
  have e := eq_of_onlyBits h
  refine ctlWord_eq (x := 0) rfl ?_
  simp (disch := decide) only [bitSum_cons, bitSum_nil, toNat_ofNat_bitsOf, toNat_zero_byte] at *
  omega

theorem braWord_fields {w : Nat} (h : onlyBits w [(7, 0), (47, 32)] = true) :
    ctlWord (bitsOf w 7 0) 0 false (BitVec.ofNat 16 (bitsOf w 47 32)).toNat 0 = w := by
  have e := eq_of_onlyBits h
  refine ctlWord_eq (x := 0) rfl ?_
  simp (disch := decide) only [bitSum_cons, bitSum_nil, toNat_ofNat_bitsOf, toNat_zero_byte] at *
  omega

theorem brsWord_fields {w : Nat} (h : onlyBits w [(7, 0), (23, 16), (24, 24), (47, 32)] = true) :
    ctlWord (bitsOf w 7 0) (arithOf w).a (bitsOf w 24 24 == 1) (BitVec.ofNat 16 (bitsOf w 47 32)).toNat 0 = w := by
  have e := eq_of_onlyBits h
  refine ctlWord_eq (flag_eq_bitsOf rfl) ?_
  simp (disch := decide) only [bitSum_cons, bitSum_nil, arithOf, toNat_ofNat_bitsOf] at *
  omega

theorem brcWord_fields {w : Nat} (h : onlyBits w [(7, 0), (23, 16), (24, 24), (47, 32), (63, 48)] = true) :
    ctlWord (bitsOf w 7 0) (arithOf w).a (bitsOf w 24 24 == 1) (BitVec.ofNat 16 (bitsOf w 47 32)).toNat (arithOf w).imm.toNat
      = w := by
  have e := eq_of_onlyBits h
  refine ctlWord_eq (flag_eq_bitsOf rfl) ?_
  simp (disch := decide) only [bitSum_cons, bitSum_nil, arithOf, toNat_ofNat_bitsOf] at *
  omega

theorem jmpsWord_fields {w : Nat} (h : onlyBits w [(7, 0), (23, 16)] = true) :
    ctlWord (bitsOf w 7 0) (arithOf w).a false 0 0 = w := by
  have e := eq_of_onlyBits h
  refine ctlWord_eq (x := 0) rfl ?_
  simp (disch := decide) only [bitSum_cons, bitSum_nil, arithOf, toNat_ofNat_bitsOf] at *
  omega

theorem waitcWord_fields {w : Nat} (h : onlyBits w [(7, 0), (34, 32), (63, 48)] = true) :
    ctlWord (bitsOf w 7 0) 0 false (BitVec.ofNat 3 (bitsOf w 34 32)).toNat (arithOf w).imm.toNat = w := by
  have e := eq_of_onlyBits h
  refine ctlWord_eq (x := 0) rfl ?_
  simp (disch := decide) only [bitSum_cons, bitSum_nil, arithOf, toNat_ofNat_bitsOf, toNat_zero_byte] at *
  omega

theorem exitWord_fields {w : Nat} (h : onlyBits w [(7, 0)] = true) : ctlWord (bitsOf w 7 0) 0 false 0 0 = w := by
  have e := eq_of_onlyBits h
  refine ctlWord_eq (x := 0) rfl ?_
  simp (disch := decide) only [bitSum_cons, bitSum_nil, toNat_zero_byte] at *
  omega

theorem trapWord_fields {w : Nat} (h : onlyBits w [(7, 0), (63, 48)] = true) :
    ctlWord (bitsOf w 7 0) 0 false 0 (arithOf w).imm.toNat = w := by
  have e := eq_of_onlyBits h
  refine ctlWord_eq (x := 0) rfl ?_
  simp (disch := decide) only [bitSum_cons, bitSum_nil, arithOf, toNat_ofNat_bitsOf, toNat_zero_byte] at *
  omega

/-! Encoding what was decoded. -/

/-- An arithmetic instruction's word is that of its opcode and its fields. -/
theorem encodePvk_arithInstr {t : At} {op : Nat} {o : ArithOp} {i : Instr} (h : arithInstr t op o = some i) :
    (∃ u, arithUse op = some u) ∧ op ≠ 0x02 ∧ op ≠ 0x03 ∧ op < 0x40 ∧ encodePvk i = some (0, arithWord op o) := by
  unfold arithInstr at h
  split at h <;> cases h <;> exact ⟨⟨_, rfl⟩, by decide, by decide, by decide, rfl⟩

theorem encodePvk_vopInstr {t : At} {opc : Nat} {a b : BitVec 8} {tk : BitVec 3} {i : Instr}
    (h : vopInstr t opc a b tk = some i) : encodePvk i = some (opc, issueWord 0x50 a b tk) := by
  unfold vopInstr at h
  split at h <;> cases h <;> rfl

theorem encodePvk_atomInstr {t : At} {aop : Nat} {o : AtomOp} {i : Instr} (h : atomInstr t aop o = some i) :
    encodePvk i = some (0, atomWord aop o) := by
  unfold atomInstr at h
  split at h <;> cases h <;> rfl

/-- The unused bits of an arithmetic word are zero. -/
theorem unused_of_wordFieldOk {w : Nat} {u : ArithUse} (use : arithUse (bitsOf w 7 0) = some u) (h : wordFieldOk w = true)
    (n2 : bitsOf w 7 0 ≠ 0x02) (n3 : bitsOf w 7 0 ≠ 0x03) : bitsOf w 47 44 = 0 := by
  rw [wordFieldOk] at h
  simp only [n2, n3, or_self, if_false, use, Bool.and_eq_true, beq_iff_eq] at h
  exact h.1

/-- The listed bits of a `BAR` word (R215): its count in the immediate or in a register. -/
theorem barBits_of_wordFieldOk {w : Nat} (hop : bitsOf w 7 0 = 0x90) (h : wordFieldOk w = true) :
    onlyBits w [(7, 0), (37, 32), (63, 48)] = true ∨ onlyBits w [(7, 0), (23, 16), (37, 32)] = true := by
  simp only [wordFieldOk, arithUse, hop] at h
  split at h
  · simp_all
  · split at h
    · exact .inl h
    · exact .inr h

/-- A decoded instruction's word is the word. -/
theorem encodePvk_decodePvk {t : At} {opc w : Nat} {i : Instr} (lt : w < 2 ^ 64) (h : decodePvk t opc w = some i) :
    ∃ n, encodePvk i = some (n, w) := by
  have spell : ∀ {j : Instr} {n v : Nat}, encodePvk j = some (n, v) → v = w → ∃ n, encodePvk j = some (n, w) :=
    fun enc e => ⟨_, e ▸ enc⟩
  unfold decodePvk at h
  extract_lets op o tk mid cond at h
  split at h
  · cases h
  rename_i checks
  simp only [Bool.or_eq_true, Bool.not_eq_true', not_or, Bool.not_eq_false] at checks
  obtain ⟨⟨-, field⟩, -⟩ := checks
  have hop : op = bitsOf w 7 0 := rfl
  clear_value op
  split at h
  next e =>
    cases h
    exact spell rfl (moviWord_fields (hop ▸ e) (by simpa [wordFieldOk, ← hop, e] using field))
  split at h
  next e =>
    cases h
    exact spell rfl (moviWord_fields (hop ▸ e) (by simpa [wordFieldOk, ← hop, e] using field))
  split at h
  next =>
    subst hop
    obtain ⟨⟨u, hu⟩, n2, n3, -, e⟩ := encodePvk_arithInstr h
    exact spell e (arithWord_arithOf lt (unused_of_wordFieldOk hu field n2 n3))
  split at h
  next =>
    have e := hop.symm
    cases h
    exact spell rfl (missWord_fields e (by simpa [wordFieldOk, arithUse, e] using field))
  next =>
    have e := hop.symm
    have enc := encodePvk_vopInstr h
    exact spell enc (issueWord_fields e (by simpa [wordFieldOk, arithUse, e] using field))
  next =>
    have e := hop.symm
    cases h
    exact spell rfl (e ▸ memWord_memOf lt (by simp [wordFieldOk, arithUse, e] at field; exact field.2))
  next =>
    have e := hop.symm
    cases h
    exact spell rfl (e ▸ memWord_memOf lt (by simp [wordFieldOk, arithUse, e] at field; exact field.2))
  next =>
    have e := hop.symm
    have enc := encodePvk_atomInstr h
    exact spell enc (atomWord_atomOf lt e (by simp [wordFieldOk, arithUse, e] at field; exact field.2))
  next =>
    have e := hop.symm
    cases h
    exact spell rfl (e ▸ memWord_memOf lt (by simp [wordFieldOk, arithUse, e] at field; exact field.2))
  next =>
    have e := hop.symm
    cases h
    exact spell rfl (e ▸ memWord_memOf lt (by simp [wordFieldOk, arithUse, e] at field; exact field.2))
  next =>
    have e := hop.symm
    cases h
    exact spell rfl (e ▸ fenceWord_fields (by simpa [wordFieldOk, arithUse, e] using field))
  next =>
    have e := hop.symm
    cases h
    exact spell rfl (barWord_fields e (barBits_of_wordFieldOk e field))
  next =>
    have e := hop.symm
    cases h
    exact spell rfl (e ▸ braWord_fields (by simpa [wordFieldOk, arithUse, e] using field))
  next =>
    have e := hop.symm
    cases h
    exact spell rfl (e ▸ brsWord_fields (by simpa [wordFieldOk, arithUse, e] using field))
  next =>
    have e := hop.symm
    cases h
    exact spell rfl (e ▸ brcWord_fields (by simp [wordFieldOk, arithUse, e] at field; exact field.1))
  next =>
    have e := hop.symm
    cases h
    exact spell rfl (e ▸ jmpsWord_fields (by simpa [wordFieldOk, arithUse, e] using field))
  next =>
    have e := hop.symm
    cases h
    exact spell rfl (e ▸ waitcWord_fields (by simp [wordFieldOk, arithUse, e] at field; exact field.1))
  next =>
    have e := hop.symm
    cases h
    exact spell rfl (e ▸ exitWord_fields (by simpa [wordFieldOk, arithUse, e] using field))
  next =>
    have e := hop.symm
    cases h
    exact spell rfl (e ▸ trapWord_fields (by simpa [wordFieldOk, arithUse, e] using field))
  · cases h

/-! Fields from their words. -/

theorem fields_arithWord {op : Nat} (o : ArithOp) (h : op < 256) :
    bitsOf (arithWord op o) 7 0 = op ∧ arithOf (arithWord op o) = o := by
  obtain ⟨dst, a, b, c, immf, cc, imm⟩ := o
  have := dst.isLt; have := a.isLt; have := b.isLt; have := c.isLt; have := cc.isLt; have := imm.isLt
  simp only [arithOf, arithWord, bitsOf, ArithOp.mk.injEq, ← BitVec.toNat_inj, BitVec.toNat_ofNat]
  cases immf <;> refine ⟨?_, ?_, ?_, ?_, ?_, ?_, ?_, ?_⟩ <;> simp <;> omega

theorem fields_moviWord {op : Nat} (dst : BitVec 8) (imm : BitVec 32) (h : op < 256) :
    bitsOf (moviWord op dst imm) 7 0 = op ∧ (arithOf (moviWord op dst imm)).dst = dst ∧
      BitVec.ofNat 32 (bitsOf (moviWord op dst imm) 63 32) = imm := by
  have := dst.isLt; have := imm.isLt
  simp only [arithOf, moviWord, bitsOf, ← BitVec.toNat_inj, BitVec.toNat_ofNat]
  refine ⟨?_, ?_, ?_⟩ <;> omega

theorem fields_issueWord {op : Nat} (a b : BitVec 8) (tk : BitVec 3) (h : op < 256) :
    bitsOf (issueWord op a b tk) 7 0 = op ∧ (arithOf (issueWord op a b tk)).a = a ∧ (arithOf (issueWord op a b tk)).b = b ∧
      BitVec.ofNat 3 (bitsOf (issueWord op a b tk) 34 32) = tk := by
  have := a.isLt; have := b.isLt; have := tk.isLt
  simp only [arithOf, issueWord, bitsOf, ← BitVec.toNat_inj, BitVec.toNat_ofNat]
  refine ⟨?_, ?_, ?_, ?_⟩ <;> omega

theorem fields_memWord {op : Nat} (o : MemOp) (h : op < 256) :
    bitsOf (memWord op o) 7 0 = op ∧ memOf (memWord op o) = o := by
  obtain ⟨dst, a, b, space, size, vol, sext, off⟩ := o
  have := dst.isLt; have := a.isLt; have := b.isLt; have := space.isLt; have := size.isLt; have := off.isLt
  simp only [memOf, memWord, bitsOf, MemOp.mk.injEq, ← BitVec.toNat_inj, BitVec.toNat_ofNat]
  cases vol <;> cases sext <;> refine ⟨?_, ?_, ?_, ?_, ?_, ?_, ?_, ?_, ?_⟩ <;> simp <;> omega

theorem fields_atomWord {aop : Nat} (o : AtomOp) (h : aop < 16) :
    bitsOf (atomWord aop o) 7 0 = 0x62 ∧ bitsOf (atomWord aop o) 42 39 = aop ∧ atomOf (atomWord aop o) = o := by
  obtain ⟨dst, a, b, space, size, ret, xfmt, off⟩ := o
  have := dst.isLt; have := a.isLt; have := b.isLt; have := space.isLt; have := size.isLt; have := xfmt.isLt
  have := off.isLt
  simp only [atomOf, atomWord, bitsOf, AtomOp.mk.injEq, ← BitVec.toNat_inj, BitVec.toNat_ofNat]
  cases ret <;> refine ⟨?_, ?_, ?_, ?_, ?_, ?_, ?_, ?_, ?_, ?_⟩ <;> simp <;> omega

theorem fields_barWord (a : BitVec 8) (bid : BitVec 4) (arriveOnly cnti : Bool) (imm : BitVec 16) :
    ∃ w, barWord a bid arriveOnly cnti imm = w ∧ bitsOf w 7 0 = 0x90 ∧ (arithOf w).a = a ∧
      BitVec.ofNat 4 (bitsOf w 35 32) = bid ∧ (bitsOf w 36 36 == 1) = arriveOnly ∧ (bitsOf w 37 37 == 1) = cnti ∧
      (arithOf w).imm = imm := by
  have := a.isLt; have := bid.isLt; have := imm.isLt
  refine ⟨_, rfl, ?_⟩
  simp only [arithOf, barWord, bitsOf, ← BitVec.toNat_inj, BitVec.toNat_ofNat]
  cases arriveOnly <;> cases cnti <;> refine ⟨?_, ?_, ?_, ?_, ?_, ?_⟩ <;> simp <;> omega

theorem fields_ctlWord {op mid hi : Nat} (a : BitVec 8) (cond : Bool) (_ : op < 256) (_ : mid < 2 ^ 16) (_ : hi < 2 ^ 16) :
    ∃ w, ctlWord op a cond mid hi = w ∧ bitsOf w 7 0 = op ∧ (arithOf w).a = a ∧ (bitsOf w 24 24 == 1) = cond ∧
      bitsOf w 47 32 = mid ∧ bitsOf w 34 32 = mid % 8 ∧ bitsOf w 33 32 = mid % 4 ∧ (arithOf w).imm = BitVec.ofNat 16 hi := by
  have := a.isLt
  refine ⟨_, rfl, ?_⟩
  simp only [arithOf, ctlWord, bitsOf, ← BitVec.toNat_inj, BitVec.toNat_ofNat]
  cases cond <;> refine ⟨?_, ?_, ?_, ?_, ?_, ?_, ?_⟩ <;> simp <;> omega

/-! Decoding what was encoded. -/

section
variable {t : At} {opc : Nat} {i : Instr}

theorem decodePvk_arithWord {op : Nat} {o : ArithOp} (h : arithInstr t op o = some i)
    (field : wordFieldOk (arithWord op o) = true) (reg : wordRegOk (arithWord op o) = true) :
    decodePvk t opc (arithWord op o) = some i := by
  obtain ⟨⟨u, use⟩, n2, n3, lt, -⟩ := encodePvk_arithInstr h
  obtain ⟨hop, ho⟩ := fields_arithWord o (show op < 256 by omega)
  simp [decodePvk, hop, ho, opReserved, use, n2, n3, lt, field, reg, h]

theorem decodePvk_issueWord {a b : BitVec 8} {tk : BitVec 3} (h : vopInstr t opc a b tk = some i)
    (field : wordFieldOk (issueWord 0x50 a b tk) = true) (reg : wordRegOk (issueWord 0x50 a b tk) = true) :
    decodePvk t opc (issueWord 0x50 a b tk) = some i := by
  obtain ⟨hop, ha, hb, htk⟩ := fields_issueWord a b tk (show 0x50 < 256 by decide)
  simp [decodePvk, hop, ha, hb, htk, opReserved, field, reg, h]

theorem decodePvk_atomWord {aop : Nat} {o : AtomOp} (h : atomInstr t aop o = some i)
    (field : wordFieldOk (atomWord aop o) = true) (reg : wordRegOk (atomWord aop o) = true) :
    decodePvk t opc (atomWord aop o) = some i := by
  have lt : aop < 16 := by
    unfold atomInstr at h
    split at h <;> simp_all
  obtain ⟨hop, haop, ho⟩ := fields_atomWord o lt
  simp [decodePvk, hop, haop, ho, opReserved, field, reg, h]

end

/-- An instruction whose word passes the checks reads back from its word; of a load, the flag of a spoiled line is no part of
the word. -/
theorem decodePvk_encodePvk {i : Instr} {opc w : Nat} (h : encodePvk i = some (opc, w)) (field : wordFieldOk w = true)
    (reg : wordRegOk w = true) (noflag : ∀ t o l, i = .ld t o l ∨ i = .lds t o l → l = []) :
    ∃ t, decodePvk t opc w = some i := by
  cases i with
  | nop | mov | movsp | iadd | isub | imul | imulhu | imad | imin | imax | andb | orb | xorb | shl | shr | sar | popc
  | clz | iset | sel | fadd | fsub | fmul | ffma | fmin | fmax | fset | i2f | f2i | vote | v2s | shfl =>
    cases h; exact ⟨_, decodePvk_arithWord rfl field reg⟩
  | vfma | vadd | vsub | vmul | vmin | vmax | vcmp | vsel | vbcast | viadd | visub | vimul | vand | vor | vxor | vshl
  | vshr | vsar | vimin | vimax | vgacc | vexp2 | vlog2 | vrcp | vrsqrt | vsqrt | vperm | vperm2 | vshuf | vpack
  | vunpack | vcvt | vmxq | vrstat | vaddr | vamaxput | vkhist | vksel | vldr | vstr | vtiesum =>
    cases h; exact ⟨_, decodePvk_issueWord rfl field reg⟩
  | atomAdd | atomSmin | atomSmax | atomUmin | atomUmax | atomAnd | atomOr | atomXor | atomExch | atomCas | atomFadd
  | atomXadd =>
    cases h; exact ⟨_, decodePvk_atomWord rfl field reg⟩
  | movi t dst imm =>
    cases h
    have fields := fields_moviWord dst imm (show 0x02 < 256 by decide)
    exact ⟨t, by simp [decodePvk, fields, opReserved, field, reg]⟩
  | movhi t dst imm =>
    cases h
    have fields := fields_moviWord dst imm (show 0x03 < 256 by decide)
    exact ⟨t, by simp [decodePvk, fields, opReserved, field, reg]⟩
  | miss t a tk =>
    cases h
    have fields := fields_issueWord a 0 tk (show 0x40 < 256 by decide)
    generalize issueWord 0x40 a 0 tk = v at fields field reg ⊢
    exact ⟨t, by simp [decodePvk, fields, opReserved, field, reg]⟩
  | ld t o l =>
    cases h
    obtain rfl := noflag t o l (.inl rfl)
    have fields := fields_memWord o (show 0x60 < 256 by decide)
    exact ⟨t, by simp [decodePvk, fields, opReserved, field, reg]⟩
  | lds t o l =>
    cases h
    obtain rfl := noflag t o l (.inr rfl)
    have fields := fields_memWord o (show 0x63 < 256 by decide)
    exact ⟨t, by simp [decodePvk, fields, opReserved, field, reg]⟩
  | st t o =>
    cases h
    have fields := fields_memWord o (show 0x61 < 256 by decide)
    exact ⟨t, by simp [decodePvk, fields, opReserved, field, reg]⟩
  | sts t o =>
    cases h
    have fields := fields_memWord o (show 0x64 < 256 by decide)
    exact ⟨t, by simp [decodePvk, fields, opReserved, field, reg]⟩
  | bar t a bid arriveOnly cnti imm =>
    obtain ⟨v, hv, fields⟩ := fields_barWord a bid arriveOnly cnti imm
    cases h
    rw [hv] at field reg ⊢
    exact ⟨t, by simp [decodePvk, fields, opReserved, field, reg]⟩
  | fence t scope =>
    obtain ⟨v, hv, fields⟩ := fields_ctlWord (op := 0x80) (mid := scope.toNat) (hi := 0) 0 false (by decide) (by omega) (by decide)
    cases h
    rw [hv] at field reg ⊢
    exact ⟨t, by simp [decodePvk, fields, opReserved, field, reg, Nat.mod_eq_of_lt (show scope.toNat < 4 from scope.isLt)]⟩
  | bra t tgt =>
    obtain ⟨v, hv, fields⟩ := fields_ctlWord (op := 0xA0) (mid := tgt.toNat) (hi := 0) 0 false (by decide) (by omega) (by decide)
    cases h
    rw [hv] at field reg ⊢
    exact ⟨t, by simp [decodePvk, fields, opReserved, field, reg]⟩
  | brs t a cond tgt =>
    obtain ⟨v, hv, fields⟩ := fields_ctlWord (op := 0xA1) (mid := tgt.toNat) (hi := 0) a cond (by decide) (by omega) (by decide)
    cases h
    rw [hv] at field reg ⊢
    exact ⟨t, by simp [decodePvk, fields, opReserved, field, reg]⟩
  | brc t a cond tgt join =>
    obtain ⟨v, hv, fields⟩ := fields_ctlWord (op := 0xA2) (mid := tgt.toNat) (hi := join.toNat) a cond (by decide) (by omega) (by omega)
    cases h
    rw [hv] at field reg ⊢
    exact ⟨t, by simp [decodePvk, fields, opReserved, field, reg]⟩
  | jmps t a =>
    obtain ⟨v, hv, fields⟩ := fields_ctlWord (op := 0xA3) (mid := 0) (hi := 0) a false (by decide) (by decide) (by decide)
    cases h
    rw [hv] at field reg ⊢
    exact ⟨t, by simp [decodePvk, fields, opReserved, field, reg]⟩
  | waitc t tk thr =>
    obtain ⟨v, hv, fields⟩ := fields_ctlWord (op := 0xA4) (mid := tk.toNat) (hi := thr.toNat) 0 false (by decide) (by omega) (by omega)
    cases h
    rw [hv] at field reg ⊢
    exact ⟨t, by simp [decodePvk, fields, opReserved, field, reg, Nat.mod_eq_of_lt (show tk.toNat < 8 from tk.isLt)]⟩
  | exitPath t =>
    obtain ⟨v, hv, fields⟩ := fields_ctlWord (op := 0xA5) (mid := 0) (hi := 0) 0 false (by decide) (by decide) (by decide)
    cases h
    rw [hv] at field reg ⊢
    exact ⟨t, by simp [decodePvk, fields, opReserved, field, reg]⟩
  | trap t imm =>
    obtain ⟨v, hv, fields⟩ := fields_ctlWord (op := 0xA6) (mid := 0) (hi := imm.toNat) 0 false (by decide) (by decide) (by omega)
    cases h
    rw [hv] at field reg ⊢
    exact ⟨t, by simp [decodePvk, fields, opReserved, field, reg]⟩
  | _ => cases h

/-- Settles O48: what is decoded encodes to its word, and what is encoded decodes to its instruction. -/
theorem instructionWordsRoundTrip : Obligations.InstructionWordsRoundTrip :=
  ⟨fun _ _ _ _ lt h => encodePvk_decodePvk lt h, fun _ _ _ h field reg noflag => decodePvk_encodePvk h field reg noflag⟩

end Sys2Proof.Machine
end

section
/-!
The arithmetic, move and lane instructions (07 R188-R193, R209, R210).
-/

namespace Sys2Proof.Machine

/-- A word function computes, in 32 and in 64 bits, what a function of numbers computes. -/
def AluIs (F : Alu) (f : WidthFun) : Prop := ∀ (w : Nat) (cc : BitVec 3) (a b c : BitVec w), w = 32 ∨ w = 64 →
  BitVec.ofNat w (F w cc.toNat a.toNat b.toNat c.toNat) = f w cc a b c

/-! What the numbers compute. -/

theorem aluIs_mov : AluIs (fun _ _ a _ _ => a) (fun _ _ a _ _ => a) := fun _ _ _ _ _ _ => by simp

theorem aluIs_add : AluIs (fun _ _ a b _ => a + b) (fun _ _ a b _ => a + b) := fun _ _ _ _ _ _ => by simp [BitVec.ofNat_add]

theorem aluIs_sub : AluIs (fun w _ a b _ => a + 2 ^ w - b % 2 ^ w) (fun _ _ a b _ => a - b) := fun w _ a b _ _ => by
  apply BitVec.eq_of_toNat_eq
  dsimp only
  rw [BitVec.toNat_ofNat, BitVec.toNat_sub, Nat.mod_eq_of_lt b.isLt]
  congr 1
  omega

theorem aluIs_mul : AluIs (fun _ _ a b _ => a * b) (fun _ _ a b _ => a * b) := fun _ _ _ _ _ _ => by simp [BitVec.ofNat_mul]

theorem aluIs_mulhu : AluIs (fun w _ a b _ => a % 2 ^ w * (b % 2 ^ w) / 2 ^ w)
    (fun w _ a b _ => ((a.zeroExtend (2 * w) * b.zeroExtend (2 * w)) >>> w).setWidth w) := fun w _ a b _ _ => by
  apply BitVec.eq_of_toNat_eq
  have ha := a.isLt
  have hb := b.isLt
  have wide : 2 ^ (2 * w) = 2 ^ w * 2 ^ w := by rw [Nat.two_mul, Nat.pow_add]
  have hab : a.toNat * b.toNat < 2 ^ (2 * w) := wide ▸ Nat.mul_lt_mul'' ha hb
  have hle : 2 ^ w ≤ 2 ^ (2 * w) := Nat.pow_le_pow_right (by decide) (by omega)
  simp [Nat.mod_eq_of_lt ha, Nat.mod_eq_of_lt hb, Nat.mod_eq_of_lt hab, Nat.shiftRight_eq_div_pow,
    Nat.mod_eq_of_lt (Nat.lt_of_lt_of_le ha hle), Nat.mod_eq_of_lt (Nat.lt_of_lt_of_le hb hle)]

theorem aluIs_mad : AluIs (fun _ _ a b c => a * b + c) (fun _ _ a b c => a * b + c) := fun _ _ _ _ _ _ => by
  simp [BitVec.ofNat_add, BitVec.ofNat_mul]

theorem aluIs_min : AluIs (fun w _ a b _ => aluExtreme true w a b) (fun _ _ a b _ => if b.slt a then b else a) :=
  fun _ _ a b _ _ => by
    simp only [aluExtreme, signedOf_toNat, BitVec.slt_iff_toInt_lt, if_true]
    split <;> simp

theorem aluIs_max : AluIs (fun w _ a b _ => aluExtreme false w a b) (fun _ _ a b _ => if a.slt b then b else a) :=
  fun _ _ a b _ _ => by
    simp only [aluExtreme, signedOf_toNat, BitVec.slt_iff_toInt_lt, Bool.false_eq_true, if_false]
    split <;> simp

theorem aluIs_and : AluIs (fun _ _ a b _ => a &&& b) (fun _ _ a b _ => a &&& b) := fun _ _ _ _ _ _ => by
  dsimp only
  rw [← BitVec.toNat_and, BitVec.ofNat_toNat, BitVec.setWidth_eq]

theorem aluIs_or : AluIs (fun _ _ a b _ => a ||| b) (fun _ _ a b _ => a ||| b) := fun _ _ _ _ _ _ => by
  dsimp only
  rw [← BitVec.toNat_or, BitVec.ofNat_toNat, BitVec.setWidth_eq]

theorem aluIs_xor : AluIs (fun _ _ a b _ => a ^^^ b) (fun _ _ a b _ => a ^^^ b) := fun _ _ _ _ _ _ => by
  dsimp only
  rw [← BitVec.toNat_xor, BitVec.ofNat_toNat, BitVec.setWidth_eq]

theorem aluIs_shl : AluIs (fun w _ a b _ => a * 2 ^ (b % w)) (fun w _ a b _ => a <<< (b.toNat % w)) := fun _ _ _ _ _ _ => by
  apply BitVec.eq_of_toNat_eq
  rw [BitVec.toNat_ofNat, BitVec.toNat_shiftLeft, Nat.shiftLeft_eq]

theorem aluIs_shr : AluIs (fun w _ a b _ => a % 2 ^ w / 2 ^ (b % w)) (fun w _ a b _ => a >>> (b.toNat % w)) :=
  fun w _ a b _ _ => by
    dsimp only
    rw [Nat.mod_eq_of_lt a.isLt, ← Nat.shiftRight_eq_div_pow, ← BitVec.toNat_ushiftRight, BitVec.ofNat_toNat,
      BitVec.setWidth_eq]

theorem aluIs_sar : AluIs (fun w _ a b _ => unsignedOf w (signedOf w a / (2 ^ (b % w) : Nat)))
    (fun w _ a b _ => a.sshiftRight (b.toNat % w)) := fun w _ a b _ _ => by
  dsimp only
  rw [signedOf_toNat, ← Int.shiftRight_eq_div_pow, ← BitVec.toInt_sshiftRight, unsignedOf_toInt]
  simp

theorem aluIs_popc : AluIs (fun w _ a _ _ => popCount w a)
    (fun w _ a _ _ => BitVec.ofNat w ((List.range w).countP fun i => a.getLsbD i)) := fun _ _ _ _ _ _ => by
  dsimp only
  rw [popCount, List.countP_eq_length_filter]; rfl

theorem aluIs_clz : AluIs (fun w _ a _ _ => leadZeros w a) (fun _ _ a _ _ => a.clz) := fun w _ a _ _ hw => by
  have pos : 0 < w := by omega
  have small : w < 2 ^ w := Nat.lt_two_pow_self
  apply BitVec.eq_of_toNat_eq
  simp only [leadZeros, Nat.mod_eq_of_lt a.isLt, BitVec.toNat_ofNat]
  by_cases zero : a = 0#w
  · simp [zero, BitVec.clz_eq_iff_eq_zero.mpr]
  · have lo := BitVec.two_pow_sub_clz_le_toNat_of_ne_zero pos zero
    have hi := BitVec.toNat_lt_two_pow_sub_clz (x := a)
    have lt := BitVec.clz_lt_iff_ne_zero.mpr zero
    have ltn : a.clz.toNat < w := by simpa [BitVec.lt_def, Nat.mod_eq_of_lt small] using lt
    have nonzero : a.toNat ≠ 0 := fun h => zero (BitVec.eq_of_toNat_eq (by simpa using h))
    have top : a.toNat.log2 = w - 1 - a.clz.toNat :=
      (Nat.log2_eq_iff nonzero).mpr ⟨lo, by rwa [show w - 1 - a.clz.toNat + 1 = w - a.clz.toNat by omega]⟩
    rw [if_neg nonzero, top, Nat.mod_eq_of_lt] <;> omega

theorem intCond_toNat {w : Nat} (cc : BitVec 3) (a b : BitVec w) : intCond cc.toNat w a.toNat b.toNat = ccHolds cc a b := by
  have eq : (a.toNat == b.toNat) = (a == b) := by
    rw [Bool.eq_iff_iff, beq_iff_eq, beq_iff_eq, BitVec.toNat_inj]
  have ne : (a.toNat != b.toNat) = (a != b) := congrArg not eq
  unfold intCond
  simp only [signedOf_toNat, Nat.mod_eq_of_lt a.isLt, Nat.mod_eq_of_lt b.isLt, eq, ne]
  rfl

theorem aluIs_iset : AluIs (fun w cc a b _ => if intCond cc w a b then 1 else 0)
    (fun _ cc a b _ => if ccHolds cc a b then 1 else 0) := fun _ cc a b _ _ => by
  dsimp only
  rw [intCond_toNat]; split <;> rfl

theorem aluIs_sel : AluIs (fun _ _ a b c => if c ≠ 0 then a else b) (fun _ _ a b c => if c = 0 then b else a) :=
  fun _ _ a b c _ => by
    have zero : c.toNat = 0 ↔ c = 0 := by rw [← BitVec.toNat_inj]; simp
    dsimp only
    by_cases h : c = 0
    · rw [if_pos h, if_neg (not_not_intro (zero.mpr h))]; simp
    · rw [if_neg h, if_pos (mt zero.mp h)]; simp

/-! Float functions: the low 32 bits of a source alone count. -/

@[simp] theorem fp32Val_mod (x : Nat) : fp32Val (x % 2 ^ 32) = fp32Val x := by rw [fp32Val, Nat.mod_mod, ← fp32Val]

theorem floatCond_mod (cc a b : Nat) : floatCond cc (a % 2 ^ 32) (b % 2 ^ 32) = floatCond cc a b := by
  simp only [floatCond, fp32Val_mod]

theorem fp32Pick_mod (lt : Bool) (a b : Nat) : fp32Pick lt (a % 2 ^ 32) (b % 2 ^ 32) = fp32Pick lt a b := by
  simp only [fp32Pick, Nat.mod_mod]

theorem fp32ToInt_mod (x : Nat) : fp32ToInt (x % 2 ^ 32) = fp32ToInt x := by rw [fp32ToInt, fp32Val_mod, ← fp32ToInt]

/-- A function of FP32 sources is the same on its sources' low halves. -/
theorem aluIs_onFp32 {f : Nat → Nat → Nat → Nat → Nat}
    (low : ∀ cc a b c, f cc (a % 2 ^ 32) (b % 2 ^ 32) (c % 2 ^ 32) = f cc a b c) :
    AluIs (fun _ cc a b c => f cc a b c) (onFp32 f) := fun _ _ _ _ _ _ => by simp only [onFp32, low]

theorem aluIs_i2f : AluIs (fun w _ a _ _ => intToFp32 (signedOf w a))
    (fun w _ a _ _ => BitVec.ofNat w (if a.toInt = 0 then 0 else arithOut (.fin a.toInt 0) .fp32 false false)) :=
  fun _ _ _ _ _ _ => by simp only [signedOf_toNat, intToFp32, fp32Out]

theorem fp32ToInt_bounds (x : Nat) : -2 ^ 31 ≤ fp32ToInt x ∧ fp32ToInt x < 2 ^ 31 := by
  unfold fp32ToInt
  split
  · omega
  · split <;> omega
  · omega
  · omega

theorem aluIs_f2i : AluIs (fun w _ a _ _ => unsignedOf w (fp32ToInt a))
    (fun w _ a _ _ => (BitVec.ofInt 32 (fp32ToInt (a.toNat % 2 ^ 32))).signExtend w) := fun w _ a _ _ _ => by
  have fits : (BitVec.ofInt 32 (fp32ToInt a.toNat)).toInt = fp32ToInt a.toNat := by
    have := fp32ToInt_bounds a.toNat
    rw [BitVec.toInt_ofInt, Int.bmod_eq_of_le] <;> omega
  dsimp only
  rw [fp32ToInt_mod, BitVec.signExtend, fits, unsignedOf, ← BitVec.toNat_ofInt, BitVec.ofNat_toNat, BitVec.setWidth_eq]

/-! Sources. -/

theorem specIdx_of_scalar {x : BitVec 8} (h : isScalar x = true ∨ x = 0) : specIdx x = x.toNat % 128 := by
  unfold specIdx
  split
  · rfl
  · rw [h.resolve_left ‹_›]; rfl

/-- A checked arithmetic word with a scalar destination has scalar sources; those that it does not use are zero. -/
theorem scalar_sources {op : Nat} {o : ArithOp} (ok : arithOk op o = true) (lane : op < 0x30) (dst : isScalar o.dst = true) :
    (isScalar o.a = true ∨ o.a = 0) ∧ (o.immf = false → isScalar o.b = true ∨ o.b = 0) ∧ (isScalar o.c = true ∨ o.c = 0) := by
  have n0 : op ≠ 0x30 := by omega
  have n1 : op ≠ 0x31 := by omega
  have n2 : op ≠ 0x32 := by omega
  unfold arithOk at ok
  split at ok
  case h_2 => cases ok
  rename_i u _
  simp only [arithFieldOk, arithRegOk, Bool.and_eq_true, dst, if_true, n0, n1, n2, or_self, if_false] at ok
  obtain ⟨⟨⟨⟨⟨⟨⟨-, fa⟩, fc⟩, fb⟩, -⟩, -⟩, -⟩, ⟨⟨-, ra⟩, rb⟩, rc⟩ := ok
  refine ⟨?_, fun noimm => ?_, ?_⟩
  · cases ua : u.a <;> simp_all [scalarOk, isScalar]
  · cases ub : u.b <;> simp_all [scalarOk, isScalar]
  · cases uc : u.c <;> simp_all [scalarOk, isScalar]

theorem toNat_append_zero (x : BitVec 16) : (x ++ 0#16).toNat = x.toNat * 2 ^ 16 := by
  rw [BitVec.toNat_append, Nat.shiftLeft_eq]; simp

/-- The immediate as a source of `w` bits. -/
theorem immOperand_eq {op w : Nat} {o : ArithOp} (r : BitVec w) (hw : w = 32 ∨ w = 64) (lt : op < 0x30)
    (imm : o.immf = true) : immOperand op w o.imm = (srcB (decide (0x20 ≤ op)) w o r).toNat := by
  simp only [srcB, imm, if_true]
  by_cases float : 0x20 ≤ op
  · rw [immOperand_float _ _ ⟨float, lt⟩, if_pos (decide_eq_true float), BitVec.toNat_setWidth, toNat_append_zero,
      Nat.mod_eq_of_lt]
    rcases hw with rfl | rfl <;> omega
  · rw [immOperand_int _ _ (by omega), if_neg (by simpa using float)]

/-! The result in its destination. -/

theorem onlyScalar_setS (g : GroupSt) (d : Nat) (x : BitVec 64) : onlyScalar g (g.setS d x) d x :=
  ⟨fun _ => GroupSt.sregAt_setS .., GroupSt.setS_v ..⟩

theorem onlyLanes_putLanes (g : GroupSt) (d : Nat) (m : BitVec 32) (f : Nat → Nat) :
    onlyLanes g (g.putLanes d m f) d m fun l => BitVec.ofNat 32 (f l) :=
  ⟨fun _ _ h => GroupSt.vreg_putLanes _ _ _ _ _ _ h, GroupSt.putLanes_sreg ..⟩

theorem srcT_eq_srcLane (g : GroupSt) (x : BitVec 8) (l : Nat) : g.srcT x l = (srcLane g x l).toNat := by
  unfold GroupSt.srcT srcLane specIdx
  cases h : isScalar x <;> simp [isScalar] at h <;> simp [h]

theorem srcS_eq_srcScalar {g : GroupSt} {x : BitVec 8} (h : isScalar x = true ∨ x = 0) : g.srcS x = (srcScalar g x).toNat := by
  rw [GroupSt.srcS, specIdx_of_scalar h, srcScalar]

/-- The registers of a group with its path moved on. -/
theorem onlyScalar_at {i : Issue} {g : GroupSt} {d pc : Nat} {x : BitVec 64} (h : onlyScalar i.g g d x) :
    onlyScalar i.g (i.at pc g) d x := h

theorem onlyLanes_at {i : Issue} {g : GroupSt} {d pc : Nat} {m : BitVec 32} {f : Nat → BitVec 32} (h : onlyLanes i.g g d m f) :
    onlyLanes i.g (i.at pc g) d m f := h

/-- What a checked arithmetic word writes (R209): its result to its destination alone. -/
theorem arithWrite_writes {op : Nat} {o : ArithOp} {F : Alu} {f : WidthFun} (is : AluIs F f) (ok : arithOk op o = true)
    (lt : op < 0x30) (g : GroupSt) (m : BitVec 32) :
    if o.dst.getLsbD 7 then
      onlyScalar g (arithWrite g m op o F) (o.dst.toNat % 128) (f 64 o.cc (srcScalar g o.a)
        (srcB (decide (0x20 ≤ op)) 64 o (srcScalar g o.b)) (srcScalar g o.c))
    else
      onlyLanes g (arithWrite g m op o F) (o.dst.toNat % 64) m fun l => f 32 o.cc (srcLane g o.a l)
        (srcB (decide (0x20 ≤ op)) 32 o (srcLane g o.b l)) (srcLane g o.c l) := by
  by_cases dst : isScalar o.dst = true
  · obtain ⟨ha, hb, hc⟩ := scalar_sources ok lt dst
    have b : (if o.immf then immOperand op 64 o.imm else g.srcS o.b) =
        (srcB (decide (0x20 ≤ op)) 64 o (srcScalar g o.b)).toNat := by
      cases imm : o.immf with
      | true => exact immOperand_eq _ (.inr rfl) lt imm
      | false => simp [srcB, imm, srcS_eq_srcScalar (hb imm)]
    rw [if_pos (show o.dst.getLsbD 7 = true from dst), arithWrite, if_pos dst, specIdx_of_scalar (.inl dst), srcS_eq_srcScalar ha, srcS_eq_srcScalar hc]
    simp only [b, is 64 _ _ _ _ (.inr rfl)]
    exact onlyScalar_setS ..
  · have b : ∀ l, (if o.immf then immOperand op 32 o.imm else (srcLane g o.b l).toNat) =
        (srcB (decide (0x20 ≤ op)) 32 o (srcLane g o.b l)).toNat := fun l => by
      cases imm : o.immf with
      | true => exact immOperand_eq _ (.inl rfl) lt imm
      | false => simp [srcB, imm]
    have idx : specIdx o.dst = o.dst.toNat % 64 := if_neg dst
    rw [if_neg (show ¬o.dst.getLsbD 7 = true from dst), arithWrite, if_neg dst, idx]
    simp only [b, srcT_eq_srcLane, ← is 32 _ _ _ _ (.inl rfl)]
    exact onlyLanes_putLanes ..

theorem arithWrite_keeps (g : GroupSt) (m : BitVec 32) (op : Nat) (o : ArithOp) (f : Alu) :
    (arithWrite g m op o f).tk = g.tk ∧ (arithWrite g m op o f).chain = g.chain := by
  unfold arithWrite
  split
  · exact ⟨GroupSt.setS_tk .., GroupSt.setS_chain ..⟩
  · exact ⟨GroupSt.putLanes_tk .., GroupSt.putLanes_chain ..⟩

theorem advanced_at (i : Issue) {g : GroupSt} (h : g.tk = i.g.tk ∧ g.chain = i.g.chain) :
    i.advanced (i.at (i.cur.pc + 8) g) := ⟨rfl, h⟩

/-- An instruction of the arithmetic table runs as the table says, if its meaning computes what the table gives. -/
theorem arithRuns_of_aluIs {c : At → ArithOp → Instr} {op : Nat} {F : Alu} {f : WidthFun}
    (meaning : ∀ t o s, exec (c t o) s = .next (s.arith t op o F)) (lt : op < 0x30) (is : AluIs F f) :
    ArithRuns c op (decide (0x20 ≤ op)) f := fun s t o i ok ready inside =>
  ⟨_, (meaning t o s).trans (congrArg _ (State.arith_ready F ok ready inside)), advanced_at i (arithWrite_keeps ..),
    arithWrite_writes is ok lt i.g i.cur.mask⟩

/-- The integer instructions. -/
theorem integerInstructionsRun : IntegerInstructionsRun :=
  ⟨arithRuns_of_aluIs (fun _ _ _ => rfl) (by decide) aluIs_mov,
    arithRuns_of_aluIs (fun _ _ _ => rfl) (by decide) aluIs_add,
    arithRuns_of_aluIs (fun _ _ _ => rfl) (by decide) aluIs_sub,
    arithRuns_of_aluIs (fun _ _ _ => rfl) (by decide) aluIs_mul,
    arithRuns_of_aluIs (fun _ _ _ => rfl) (by decide) aluIs_mulhu,
    arithRuns_of_aluIs (fun _ _ _ => rfl) (by decide) aluIs_mad,
    arithRuns_of_aluIs (fun _ _ _ => rfl) (by decide) aluIs_min,
    arithRuns_of_aluIs (fun _ _ _ => rfl) (by decide) aluIs_max,
    arithRuns_of_aluIs (fun _ _ _ => rfl) (by decide) aluIs_and,
    arithRuns_of_aluIs (fun _ _ _ => rfl) (by decide) aluIs_or,
    arithRuns_of_aluIs (fun _ _ _ => rfl) (by decide) aluIs_xor,
    arithRuns_of_aluIs (fun _ _ _ => rfl) (by decide) aluIs_shl,
    arithRuns_of_aluIs (fun _ _ _ => rfl) (by decide) aluIs_shr,
    arithRuns_of_aluIs (fun _ _ _ => rfl) (by decide) aluIs_sar,
    arithRuns_of_aluIs (fun _ _ _ => rfl) (by decide) aluIs_popc,
    arithRuns_of_aluIs (fun _ _ _ => rfl) (by decide) aluIs_clz,
    arithRuns_of_aluIs (fun _ _ _ => rfl) (by decide) aluIs_iset,
    arithRuns_of_aluIs (fun _ _ _ => rfl) (by decide) aluIs_sel⟩

theorem floatInstructionsRun : FloatInstructionsRun :=
  ⟨arithRuns_of_aluIs (fun _ _ _ => rfl) (by decide) (aluIs_onFp32 fun _ _ _ _ => by simp only [fp32Val_mod]),
    arithRuns_of_aluIs (fun _ _ _ => rfl) (by decide) (aluIs_onFp32 fun _ _ _ _ => by simp only [fp32Val_mod]),
    arithRuns_of_aluIs (fun _ _ _ => rfl) (by decide) (aluIs_onFp32 fun _ _ _ _ => by simp only [fp32Val_mod]),
    arithRuns_of_aluIs (fun _ _ _ => rfl) (by decide) (aluIs_onFp32 fun _ _ _ _ => by simp only [fp32Val_mod]),
    arithRuns_of_aluIs (fun _ _ _ => rfl) (by decide) (aluIs_onFp32 fun _ _ _ _ => fp32Pick_mod ..),
    arithRuns_of_aluIs (fun _ _ _ => rfl) (by decide) (aluIs_onFp32 fun _ _ _ _ => fp32Pick_mod ..),
    arithRuns_of_aluIs (fun _ _ _ => rfl) (by decide) (aluIs_onFp32 fun _ _ _ _ => by simp only [floatCond_mod]),
    arithRuns_of_aluIs (fun _ _ _ => rfl) (by decide) aluIs_i2f,
    arithRuns_of_aluIs (fun _ _ _ => rfl) (by decide) aluIs_f2i⟩


/-! Moves and the instructions that read other lanes. -/

/-- A ready instruction that goes on to a next word of the code only writes its group. -/
theorem State.issue_next {s : State} {t : At} {l : List Nat} {i : Issue} (f : Issue → GroupSt) (h : s.ready t l = some i)
    (inside : i.cur.pc + 8 < i.k.codeBytes) :
    (s.issue t l fun i => s.next t i (f i)) = s.setGroup t (i.at (i.cur.pc + 8) (f i)) := by
  rw [State.issue_ready _ h, State.next_in inside]

theorem advanced_setS (i : Issue) (d : Nat) (x : BitVec 64) : i.advanced (i.at (i.cur.pc + 8) (i.g.setS d x)) :=
  advanced_at i ⟨GroupSt.setS_tk .., GroupSt.setS_chain ..⟩

theorem advanced_putLanes (i : Issue) (d : Nat) (m : BitVec 32) (f : Nat → Nat) :
    i.advanced (i.at (i.cur.pc + 8) (i.g.putLanes d m f)) :=
  advanced_at i ⟨GroupSt.putLanes_tk .., GroupSt.putLanes_chain ..⟩

/-- A special register, as the table of R190 has it: every index that the checks let pass but `SR_CYCLES`. -/
theorem specialReg_eq (s : State) (t : At) (k : KernSt) (l : Nat) {n : Nat} (lo : 1 ≤ n) (hi : n ≤ 0xE) (cycles : n ≠ 0xC) :
    specialReg s t k l n = some (s.special t k n l) := by
  have listed : n = 0x1 ∨ n = 0x2 ∨ n = 0x3 ∨ n = 0x4 ∨ n = 0x5 ∨ n = 0x6 ∨ n = 0x7 ∨ n = 0x8 ∨ n = 0x9 ∨ n = 0xA ∨
      n = 0xB ∨ n = 0xD ∨ n = 0xE := by omega
  rcases listed with rfl | rfl | rfl | rfl | rfl | rfl | rfl | rfl | rfl | rfl | rfl | rfl | rfl <;> rfl

theorem movspIdx_of_arithOk {o : ArithOp} (ok : arithOk 0x04 o = true) : 1 ≤ o.imm.toNat ∧ o.imm.toNat ≤ 0xE := by
  simp only [arithOk, arithUse, arithFieldOk, Bool.and_eq_true] at ok
  obtain ⟨⟨⟨-, h⟩, -⟩, -⟩ := ok
  simpa using h

theorem mem_nonZeroLanes (i : Issue) (x : BitVec 8) (l : Nat) (thread : isScalar x = false) :
    l ∈ nonZeroLanes i.g x i.cur.mask ↔ l < 32 ∧ i.sees x l = true := by
  simp [nonZeroLanes, mem_lanesOf, Issue.sees, specIdx, thread, and_assoc]

/-- Powers of two of rising exponents sum up to the number with these bits. -/
theorem testBit_sum_two_pow {l : List Nat} (up : l.Pairwise (· < ·)) (n : Nat) :
    ∀ a, (∀ i ∈ l, a < 2 ^ i) → (l.foldl (fun a i => a + 2 ^ i) a).testBit n = (a.testBit n || decide (n ∈ l)) := by
  induction l with
  | nil => simp
  | cons i r ih =>
    intro a below
    obtain ⟨above, up⟩ := List.pairwise_cons.mp up
    have lt : a < 2 ^ i := below i List.mem_cons_self
    have sum : a + 2 ^ i = 2 ^ i ||| a := by
      rw [Nat.add_comm]; simpa using Nat.two_pow_add_eq_or_of_lt lt 1
    have next : ∀ j ∈ r, a + 2 ^ i < 2 ^ j := fun j hj => by
      have := Nat.pow_le_pow_right (show 0 < 2 by decide) (above j hj)
      rw [Nat.pow_succ] at this
      omega
    rw [List.foldl_cons, ih up _ next, sum, Nat.testBit_or, Nat.testBit_two_pow]
    simp only [List.mem_cons, eq_comm (a := i)]
    cases a.testBit n <;> simp

theorem nop_runs {s : State} {t : At} {i : Issue} {o : ArithOp} (inside : i.cur.pc + 8 < i.k.codeBytes)
    (ok : arithOk 0x00 o = true) (ready : s.ready t [] = some i) :
    exec (.nop t o) s = .next (s.setGroup t (i.at (i.cur.pc + 8) i.g)) :=
  congrArg Host.Outcome.next (by rw [if_pos ok, State.issue_next _ ready inside])

theorem movi_runs {s : State} {t : At} {i : Issue} {dst : BitVec 8} (imm : BitVec 32) (inside : i.cur.pc + 8 < i.k.codeBytes)
    (ok : specOk dst = true) (ready : s.ready t [] = some i) :
    ∃ g, exec (.movi t dst imm) s = .next (s.setGroup t g) ∧ i.advanced g ∧
      if dst.getLsbD 7 then onlyScalar i.g g (dst.toNat % 128) (imm.signExtend 64)
      else onlyLanes i.g g (dst.toNat % 64) i.cur.mask fun _ => imm := by
  refine ⟨_, congrArg Host.Outcome.next (by rw [if_pos ok, State.issue_next _ ready inside]), ?_⟩
  unfold specIdx
  cases scalar : isScalar dst with
  | true =>
    rw [if_pos (show dst.getLsbD 7 = true from scalar)]
    exact ⟨advanced_setS .., onlyScalar_setS ..⟩
  | false =>
    rw [if_neg (show ¬dst.getLsbD 7 = true by simpa [isScalar] using scalar)]
    exact ⟨advanced_putLanes .., by simpa using onlyLanes_at (onlyLanes_putLanes i.g (dst.toNat % 64) i.cur.mask fun _ => imm.toNat)⟩

theorem movhi_runs {s : State} {t : At} {i : Issue} {dst : BitVec 8} (imm : BitVec 32) (inside : i.cur.pc + 8 < i.k.codeBytes)
    (scalar : dst.getLsbD 7 = true) (ready : s.ready t [dst.toNat] = some i) :
    ∃ g, exec (.movhi t dst imm) s = .next (s.setGroup t g) ∧ i.advanced g ∧
      onlyScalar i.g g (dst.toNat % 128) (imm ++ (srcScalar i.g dst).setWidth 32) := by
  refine ⟨_, congrArg Host.Outcome.next (by rw [if_pos (show scalarOk dst = true from scalar), State.issue_next _ ready inside]),
    advanced_setS .., ?_⟩
  have value : BitVec.ofNat 64 (imm.toNat * 2 ^ 32 + i.g.srcS dst % 2 ^ 32) = imm ++ (srcScalar i.g dst).setWidth 32 := by
    apply BitVec.eq_of_toNat_eq
    rw [srcS_eq_srcScalar (.inl scalar), BitVec.toNat_append, BitVec.toNat_ofNat, BitVec.toNat_setWidth, Nat.shiftLeft_eq,
      Nat.mul_comm, ← Nat.two_pow_add_eq_or_of_lt (Nat.mod_lt _ (by decide)), Nat.mod_eq_of_lt]
    have := imm.isLt
    omega
  rw [value, specIdx_of_scalar (.inl scalar)]
  exact onlyScalar_at (onlyScalar_setS ..)

theorem movsp_runs {s : State} {t : At} {i : Issue} {o : ArithOp} (inside : i.cur.pc + 8 < i.k.codeBytes)
    (ok : arithOk 0x04 o = true) (ready : s.ready t [] = some i) (cycles : o.imm.toNat ≠ 0xC) :
    ∃ g, exec (.movsp t o) s = .next (s.setGroup t g) ∧ i.advanced g ∧
      if o.dst.getLsbD 7 then
        ∃ x, specialReg s t i.k 0 o.imm.toNat = some x ∧ onlyScalar i.g g (o.dst.toNat % 128) (BitVec.ofNat 64 x)
      else ∃ f : Nat → Nat, (∀ l, specialReg s t i.k l o.imm.toNat = some (f l)) ∧
        onlyLanes i.g g (o.dst.toNat % 64) i.cur.mask fun l => BitVec.ofNat 32 (f l) := by
  obtain ⟨lo, hi⟩ := movspIdx_of_arithOk ok
  refine ⟨_, congrArg Host.Outcome.next (by
    rw [if_pos ok, State.issue_ready _ ready]; dsimp only; rw [if_neg cycles, State.next_in inside]), ?_⟩
  unfold specIdx
  cases scalar : isScalar o.dst with
  | true =>
    rw [if_pos (show o.dst.getLsbD 7 = true from scalar)]
    exact ⟨advanced_setS .., _, specialReg_eq s t i.k 0 lo hi cycles, onlyScalar_setS ..⟩
  | false =>
    rw [if_neg (show ¬o.dst.getLsbD 7 = true by simpa [isScalar] using scalar)]
    exact ⟨advanced_putLanes .., _, fun l => specialReg_eq s t i.k l lo hi cycles, onlyLanes_putLanes ..⟩

theorem movsp_cycles_runs {s : State} {t : At} {i : Issue} {o : ArithOp} (inside : i.cur.pc + 8 < i.k.codeBytes)
    (ok : arithOk 0x04 o = true) (ready : s.ready t [] = some i) (cycles : o.imm.toNat = 0xC) :
    ∃ g x, exec (.movsp t o) s = .next (s.nextFree.setGroup t g) ∧ i.advanced g ∧
      if o.dst.getLsbD 7 then onlyScalar i.g g (o.dst.toNat % 128) x
      else onlyLanes i.g g (o.dst.toNat % 64) i.cur.mask fun _ => x.setWidth 32 := by
  refine ⟨_, Config.freeBits 64 s.free, congrArg Host.Outcome.next (by
    rw [if_pos ok, State.issue_ready _ ready]; dsimp only; rw [if_pos cycles, State.next_in inside]), ?_⟩
  have value : ∀ l, s.special t i.k o.imm.toNat l = (Config.freeBits 64 s.free).toNat := fun l => by rw [cycles]; rfl
  unfold specIdx
  cases scalar : isScalar o.dst with
  | true =>
    rw [if_pos (show o.dst.getLsbD 7 = true from scalar)]
    refine ⟨advanced_setS .., ?_⟩
    rw [value]
    simpa using onlyScalar_at (onlyScalar_setS ..)
  | false =>
    rw [if_neg (show ¬o.dst.getLsbD 7 = true by simpa [isScalar] using scalar)]
    simp only [value]
    exact ⟨advanced_putLanes .., by simpa using onlyLanes_at (onlyLanes_putLanes i.g (o.dst.toNat % 64) i.cur.mask fun _ => (Config.freeBits 64 s.free).toNat)⟩

/-- The registers of checked `VOTE`, `V2S` and `SHFL` words. -/
theorem laneSpecs_of_arithOk {op : Nat} {o : ArithOp} (lane : op = 0x30 ∨ op = 0x31 ∨ op = 0x32) (ok : arithOk op o = true) :
    isScalar o.a = false ∧ (op ≠ 0x32 → isScalar o.dst = true) ∧ (op = 0x32 → isScalar o.dst = false) ∧
      (op ≠ 0x30 → o.immf = false → if op = 0x31 then isScalar o.b = true else isScalar o.b = false) := by
  rcases lane with rfl | rfl | rfl <;>
    simp [arithOk, arithUse, arithFieldOk, arithRegOk, scalarOk, threadOk, isScalar] at ok ⊢ <;>
    grind

theorem specIdx_of_thread {x : BitVec 8} (h : isScalar x = false) : specIdx x = x.toNat % 64 := if_neg (by simp [h])

section
variable {i : Issue} {x : BitVec 8} (thread : isScalar x = false)
include thread

theorem vote_any : BitVec.ofNat 64 (voteResult i.g x i.cur.mask 0) = if (List.range 32).any (i.sees x) then 1 else 0 := by
  have some_lane : (nonZeroLanes i.g x i.cur.mask).isEmpty = !(List.range 32).any (i.sees x) := by
    rw [Bool.eq_iff_iff]
    simp [List.eq_nil_iff_forall_not_mem, mem_nonZeroLanes i x _ thread]
  simp only [voteResult, some_lane]
  cases (List.range 32).any (i.sees x) <;> rfl

theorem vote_all : BitVec.ofNat 64 (voteResult i.g x i.cur.mask 1) =
    if (List.range 32).all fun l => !i.cur.mask.getLsbD l || i.sees x l then 1 else 0 := by
  have every_lane : (nonZeroLanes i.g x i.cur.mask).length = (lanesOf i.cur.mask).length ↔
      ((List.range 32).all fun l => !i.cur.mask.getLsbD l || i.sees x l) = true := by
    simp only [nonZeroLanes, List.length_filter_eq_length_iff, mem_lanesOf, List.all_eq_true, List.mem_range]
    simp only [Issue.sees, specIdx_of_thread thread]
    exact forall_congr' fun l => by cases i.cur.mask.getLsbD l <;> simp
  simp only [voteResult, every_lane]
  split <;> rfl

theorem vote_ballot (l : Nat) : (BitVec.ofNat 64 (voteResult i.g x i.cur.mask 2)).getLsbD l =
    (decide (l < 32) && i.sees x l) := by
  have up : (nonZeroLanes i.g x i.cur.mask).Pairwise (· < ·) := (List.pairwise_lt_range.filter _).filter _
  simp only [voteResult, BitVec.getLsbD_ofNat, testBit_sum_two_pow up l 0 fun _ _ => Nat.two_pow_pos _, Nat.zero_testBit,
    mem_nonZeroLanes i x l thread]
  by_cases h : l < 32
  · simp [h, show l < 64 by omega]
  · simp [h]

end

theorem vote_runs {s : State} {t : At} {i : Issue} {o : ArithOp} (inside : i.cur.pc + 8 < i.k.codeBytes)
    (ok : arithOk 0x30 o = true) (ready : s.ready t [o.a.toNat] = some i) :
    ∃ g x, exec (.vote t o) s = .next (s.setGroup t g) ∧ i.advanced g ∧ onlyScalar i.g g (o.dst.toNat % 128) x ∧
      (o.imm = 0 → x = if (List.range 32).any (i.sees o.a) then 1 else 0) ∧
      (o.imm = 1 → x = if (List.range 32).all fun l => !i.cur.mask.getLsbD l || i.sees o.a l then 1 else 0) ∧
      (o.imm = 2 → ∀ l, x.getLsbD l = (decide (l < 32) && i.sees o.a l)) := by
  obtain ⟨thread, scalar, -, -⟩ := laneSpecs_of_arithOk (.inl rfl) ok
  refine ⟨_, BitVec.ofNat 64 (voteResult i.g o.a i.cur.mask o.imm.toNat),
    congrArg Host.Outcome.next (by rw [if_pos ok, State.issue_next _ ready inside]), advanced_setS .., ?_, ?_, ?_, ?_⟩
  · rw [specIdx_of_scalar (.inl (scalar (by decide)))]
    exact onlyScalar_setS ..
  · intro mode; rw [mode]; exact vote_any thread
  · intro mode; rw [mode]; exact vote_all thread
  · intro mode; rw [mode]; exact vote_ballot thread

theorem v2s_runs {s : State} {t : At} {i : Issue} {o : ArithOp} (inside : i.cur.pc + 8 < i.k.codeBytes)
    (ok : arithOk 0x31 o = true) (ready : s.ready t (arithSrcs 0x31 o) = some i) :
    ∃ g, exec (.v2s t o) s = .next (s.setGroup t g) ∧ i.advanced g ∧
      onlyScalar i.g g (o.dst.toNat % 128)
        ((i.g.vreg (o.a.toNat % 64) (laneNamed o (srcScalar i.g o.b).toNat)).zeroExtend 64) := by
  obtain ⟨thread, scalar, -, named⟩ := laneSpecs_of_arithOk (.inr (.inl rfl)) ok
  refine ⟨_, congrArg Host.Outcome.next (by rw [if_pos ok, State.issue_next _ ready inside]), advanced_setS .., ?_⟩
  have lane : (if o.immf then o.imm.toNat else i.g.srcS o.b) % 32 = laneNamed o (srcScalar i.g o.b).toNat := by
    cases imm : o.immf with
    | true => simp [laneNamed, imm]
    | false => simp [laneNamed, imm, srcS_eq_srcScalar (.inl (named (by decide) imm))]
  rw [lane, specIdx_of_thread thread, specIdx_of_scalar (.inl (scalar (by decide)))]
  exact onlyScalar_at (onlyScalar_setS ..)

theorem shfl_runs {s : State} {t : At} {i : Issue} {o : ArithOp} (inside : i.cur.pc + 8 < i.k.codeBytes)
    (ok : arithOk 0x32 o = true) (ready : s.ready t (arithSrcs 0x32 o) = some i) :
    ∃ g, exec (.shfl t o) s = .next (s.setGroup t g) ∧ i.advanced g ∧
      onlyLanes i.g g (o.dst.toNat % 64) i.cur.mask fun l =>
        i.g.vreg (o.a.toNat % 64) (laneNamed o (i.g.vreg (o.b.toNat % 64) l).toNat) := by
  obtain ⟨thread, -, dst, named⟩ := laneSpecs_of_arithOk (.inr (.inr rfl)) ok
  refine ⟨_, congrArg Host.Outcome.next (by rw [if_pos ok, State.issue_next _ ready inside]), advanced_putLanes .., ?_⟩
  have lane : ∀ l, (if o.immf then o.imm.toNat else (i.g.vreg (specIdx o.b) l).toNat) % 32 =
      laneNamed o (i.g.vreg (o.b.toNat % 64) l).toNat := fun l => by
    cases imm : o.immf with
    | true => simp [laneNamed, imm]
    | false => simp [laneNamed, imm, specIdx_of_thread (named (by decide) imm)]
  simp only [lane, specIdx_of_thread thread, specIdx_of_thread (dst rfl)]
  simpa using onlyLanes_at (onlyLanes_putLanes i.g (o.dst.toNat % 64) i.cur.mask fun l =>
    (i.g.vreg (o.a.toNat % 64) (laneNamed o (i.g.vreg (o.b.toNat % 64) l).toNat)).toNat)

theorem moveAndLaneInstructionsRun : MoveAndLaneInstructionsRun := fun _ _ _ inside =>
  ⟨fun _ ok ready => nop_runs inside ok ready, fun _ imm ok ready => movi_runs imm inside ok ready,
    fun _ imm scalar ready => movhi_runs imm inside scalar ready, fun _ ok ready cycles => movsp_runs inside ok ready cycles,
    fun _ ok ready cycles => movsp_cycles_runs inside ok ready cycles, fun _ ok ready => vote_runs inside ok ready,
    fun _ ok ready => v2s_runs inside ok ready, fun _ ok ready => shfl_runs inside ok ready⟩

/-- Settles O1: the integer and float instructions by what their numbers compute, the others one by one. -/
theorem arithmeticInstructionsRun : Obligations.ArithmeticInstructionsRun :=
  ⟨integerInstructionsRun, floatInstructionsRun, moveAndLaneInstructionsRun⟩

end Sys2Proof.Machine
end

section
/-!
Groups that wait, and the last word of the code (07 R186, R216).
-/

namespace Sys2Proof.Machine

/-- An instruction that a group which is not ready leaves alone. -/
theorem State.arith_waits {s : State} {t : At} {op : Nat} {o : ArithOp} (f : Alu) (h : s.ready t (arithSrcs op o) = none) :
    s.arith t op o f = s := by
  rw [State.arith, State.issue_waits _ h, ite_self]

/-- Every instruction of the arithmetic table runs as one of them. -/
theorem arithTable_meaning : ∀ p ∈ arithTable, ∃ f : Alu, ∀ t o s, exec (p.1 t o) s = .next (s.arith t p.2 o f) := by
  simp only [arithTable, List.forall_mem_cons]
  exact ⟨⟨_, fun _ _ _ => rfl⟩, ⟨_, fun _ _ _ => rfl⟩, ⟨_, fun _ _ _ => rfl⟩, ⟨_, fun _ _ _ => rfl⟩, ⟨_, fun _ _ _ => rfl⟩,
    ⟨_, fun _ _ _ => rfl⟩, ⟨_, fun _ _ _ => rfl⟩, ⟨_, fun _ _ _ => rfl⟩, ⟨_, fun _ _ _ => rfl⟩, ⟨_, fun _ _ _ => rfl⟩,
    ⟨_, fun _ _ _ => rfl⟩, ⟨_, fun _ _ _ => rfl⟩, ⟨_, fun _ _ _ => rfl⟩, ⟨_, fun _ _ _ => rfl⟩, ⟨_, fun _ _ _ => rfl⟩,
    ⟨_, fun _ _ _ => rfl⟩, ⟨_, fun _ _ _ => rfl⟩, ⟨_, fun _ _ _ => rfl⟩, ⟨_, fun _ _ _ => rfl⟩, ⟨_, fun _ _ _ => rfl⟩,
    ⟨_, fun _ _ _ => rfl⟩, ⟨_, fun _ _ _ => rfl⟩, ⟨_, fun _ _ _ => rfl⟩, ⟨_, fun _ _ _ => rfl⟩, ⟨_, fun _ _ _ => rfl⟩,
    ⟨_, fun _ _ _ => rfl⟩, ⟨_, fun _ _ _ => rfl⟩, fun _ h => absurd h List.not_mem_nil⟩

/-- An instruction whose effect is an issue, under a check of its operands or none. -/
theorem waits_of_issue {c : Instr} {t : At} {l : List Nat} {check : Prop} [Decidable check] {f : State → Issue → State}
    (meaning : ∀ s, exec c s = .next (if check then s.issue t l (f s) else s)) : Waits c t l := fun s h => by
  rw [meaning, State.issue_waits _ h, ite_self]

theorem ready_of_fence {s : State} {t : At} {i : Issue} {l : List Nat} (h : s.running t = some i) (f : i.cur.fence ≠ none) :
    s.ready t l = none := by
  simp [State.ready, h, Option.isSome_iff_ne_none.mpr f]

theorem groupNotReadyWaits : GroupNotReadyWaits := fun t o a n m => by
  refine ⟨fun p hp s h => ?_, ?_, ?_, ?_, ?_, ?_, ?_, ?_, fun s i l h f => ready_of_fence h f⟩
  · obtain ⟨f, meaning⟩ := arithTable_meaning p hp
    rw [meaning, State.arith_waits f h]
  · exact waits_of_issue (check := True) fun s => by rw [if_pos trivial]; rfl
  · exact waits_of_issue fun s => rfl
  · exact waits_of_issue fun s => rfl
  · exact waits_of_issue fun s => rfl
  · exact waits_of_issue fun s => rfl
  · exact waits_of_issue (check := True) fun s => by rw [if_pos trivial]; rfl
  · exact waits_of_issue (check := True) fun s => by rw [if_pos trivial]; rfl

/-- A path that leaves the code behind its last word: the group is written, then its kernel is aborted (R216). -/
theorem State.next_out {s : State} {t : At} {i : Issue} {g : GroupSt} (h : i.k.codeBytes ≤ i.cur.pc + 8) :
    s.next t i g = (s.setGroup t (i.at (i.cur.pc + 8) g)).abortGroup t i.cur.pc i.cur.mask 0x0386 := by
  rw [State.next, State.goto, if_neg (by omega)]
  rfl

theorem lastWordAbortsTheKernel : LastWordAbortsTheKernel := fun p hp s t o i ok ready last => by
  obtain ⟨f, meaning⟩ := arithTable_meaning p hp
  refine ⟨_, advanced_at i (arithWrite_keeps i.g i.cur.mask p.2 o f), ?_⟩
  rw [meaning, State.arith, if_pos ok, State.issue_ready _ ready, State.next_out last]

/-- Settles O2: an instruction issues only where its group is ready. -/
theorem instructionsWaitAndAbort : Obligations.InstructionsWaitAndAbort := ⟨groupNotReadyWaits, lastWordAbortsTheKernel⟩

end Sys2Proof.Machine
end

section
/-!
Jumps, divergence, and paths that wait and end (07 R191, R192, R198, R214, R216, R220).
-/

namespace Sys2Proof.Machine

/-! Aborted kernels. -/

/-- An abort leaves the launch of its core's kernel stopped with its record. -/
theorem stoppedWith_abortGroup {s : State} {t : At} {k : KernSt} (pc : Nat) (lanes : BitVec 32) (code info detail : Nat)
    (h : s.kern t.core = some k) :
    StoppedWith s (s.abortGroup t pc lanes code info detail) k
      { code := code, core := t.core, group := t.group, pc := pc, lanes := lanes.toNat, info := info, detail := detail } :=
  fun l running live =>
    ⟨_, by rw [State.abortGroup_eq _ _ _ _ _ h, State.abortLaunch_launches _ running live, tfind_tset_self], rfl, rfl, rfl⟩

theorem kern_of_ready {s : State} {t : At} {l : List Nat} {i : Issue} (ready : s.ready t l = some i) :
    s.kern t.core = some i.k := (State.running_some (State.ready_some ready).1).1

theorem group_of_ready {s : State} {t : At} {l : List Nat} {i : Issue} (ready : s.ready t l = some i) :
    s.group t = some i.g := (State.running_some (State.ready_some ready).1).2.1

/-! Jumps. -/

theorem State.jump_in {s : State} {t : At} {i : Issue} {off : Int} (h : inCode i.k.codeBytes i.cur.pc off = true) :
    s.jump t i off = s.setGroup t (i.at (i.cur.pc + 8 * off).toNat i.g) := by
  simp only [inCode, Bool.and_eq_true, decide_eq_true_eq] at h
  exact State.goto_in h

section
variable {s : State} {t : At} {i : Issue} {a : BitVec 8} {cond : Bool} {tgt : BitVec 16}

theorem bra_jumps (ready : s.ready t [] = some i) (inside : inCode i.k.codeBytes i.cur.pc tgt.toInt = true) :
    exec (.bra t tgt) s = .next (s.setGroup t (i.at (i.cur.pc + 8 * tgt.toInt).toNat i.g)) :=
  congrArg Host.Outcome.next (by rw [State.issue_ready _ ready, if_pos inside, State.jump_in inside])

theorem brs_cond (scalar : a.getLsbD 7 = true) :
    ((i.g.srcS a == 0) == cond) = true ↔ (srcScalar i.g a = 0 ↔ cond = true) := by
  have zero : (i.g.srcS a == 0) = decide (srcScalar i.g a = 0) := by
    rw [srcS_eq_srcScalar (.inl scalar), Bool.eq_iff_iff]
    simp [← BitVec.toNat_inj]
  rw [zero, beq_iff_eq, Bool.eq_iff_iff, decide_eq_true_eq]

theorem brs_taken (scalar : a.getLsbD 7 = true) (ready : s.ready t [a.toNat] = some i)
    (inside : inCode i.k.codeBytes i.cur.pc tgt.toInt = true) (holds : srcScalar i.g a = 0 ↔ cond = true) :
    exec (.brs t a cond tgt) s = .next (s.setGroup t (i.at (i.cur.pc + 8 * tgt.toInt).toNat i.g)) :=
  congrArg Host.Outcome.next (by
    rw [if_pos (show scalarOk a = true from scalar), State.issue_ready _ ready, if_pos inside,
      if_pos ((brs_cond scalar).mpr holds), State.jump_in inside])

theorem brs_falls (scalar : a.getLsbD 7 = true) (ready : s.ready t [a.toNat] = some i)
    (inside : inCode i.k.codeBytes i.cur.pc tgt.toInt = true) (fails : ¬(srcScalar i.g a = 0 ↔ cond = true))
    (next : i.cur.pc + 8 < i.k.codeBytes) :
    exec (.brs t a cond tgt) s = .next (s.setGroup t (i.at (i.cur.pc + 8) i.g)) :=
  congrArg Host.Outcome.next (by
    rw [if_pos (show scalarOk a = true from scalar), State.issue_ready _ ready, if_pos inside,
      if_neg (mt (brs_cond scalar).mp fails), State.next_in next])

theorem jmps_jumps (scalar : a.getLsbD 7 = true) (ready : s.ready t [a.toNat] = some i)
    (word : (srcScalar i.g a).toNat % 8 = 0) (inside : (srcScalar i.g a).toNat < i.k.codeBytes) :
    exec (.jmps t a) s = .next (s.setGroup t (i.at (srcScalar i.g a).toNat i.g)) :=
  congrArg Host.Outcome.next (by
    rw [if_pos (show scalarOk a = true from scalar), State.issue_ready _ ready]
    simp only [srcS_eq_srcScalar (g := i.g) (.inl scalar)]
    rw [if_pos ⟨word, inside⟩, State.goto_in (by omega)]
    rfl)

theorem jmps_aborts (scalar : a.getLsbD 7 = true) (ready : s.ready t [a.toNat] = some i)
    (outside : (srcScalar i.g a).toNat % 8 ≠ 0 ∨ i.k.codeBytes ≤ (srcScalar i.g a).toNat) :
    exec (.jmps t a) s = .next (s.abortGroup t i.cur.pc i.cur.mask 0x0386) :=
  congrArg Host.Outcome.next (by
    rw [if_pos (show scalarOk a = true from scalar), State.issue_ready _ ready]
    simp only [srcS_eq_srcScalar (g := i.g) (.inl scalar)]
    rw [if_neg (by omega)])

end

theorem jumpsMoveThePath : JumpsMoveThePath := fun _ _ _ _ _ _ =>
  ⟨bra_jumps, brs_taken, brs_falls, jmps_jumps, fun scalar ready outside =>
    ⟨_, jmps_aborts scalar ready outside, stoppedWith_abortGroup _ _ _ _ _ (kern_of_ready ready)⟩⟩

/-! Divergence. -/

theorem getLsbD_foldl_twoPow (p : Nat → Bool) (l : Nat) (h : l < 32) : ∀ (ls : List Nat) (x : BitVec 32),
    (ls.foldl (fun x l => if p l then x ||| BitVec.twoPow 32 l else x) x).getLsbD l =
      (x.getLsbD l || (decide (l ∈ ls) && p l))
  | [], x => by simp
  | j :: r, x => by
    rw [List.foldl_cons, getLsbD_foldl_twoPow p l h r]
    by_cases e : l = j
    · subst e
      cases hp : p l <;> simp [h]
    · cases hp : p j <;> simp [e, Ne.symm e, BitVec.getLsbD_twoPow]

/-- The lanes of a mask for which a condition holds. -/
theorem getLsbD_lanesWhere (m : BitVec 32) (p : Nat → Bool) {l : Nat} (h : l < 32) :
    (lanesWhere m p).getLsbD l = (m.getLsbD l && p l) := by
  rw [lanesWhere, getLsbD_foldl_twoPow p l h]
  simp [mem_lanesOf, h]

theorem BitVec32_eq_zero_iff (m : BitVec 32) : m = 0 ↔ ∀ l < 32, m.getLsbD l = false :=
  ⟨fun e l _ => by simp [e], fun h => BitVec.eq_of_getLsbD_eq fun l hl => by simpa using h l hl⟩

/-- The lanes that `BRC` takes, and those that fall through. -/
def Issue.taken (i : Issue) (a : BitVec 8) (cond : Bool) : BitVec 32 :=
  lanesWhere i.cur.mask fun l => (i.g.vreg (specIdx a) l == 0) == cond

section
variable {s : State} {t : At} {i : Issue} {a : BitVec 8} {cond : Bool} {tgt join : BitVec 16} (thread : threadOk a = true)
include thread

theorem getLsbD_taken {l : Nat} (h : l < 32) : (i.taken a cond).getLsbD l = i.takes a cond l := by
  have idx : specIdx a = a.toNat % 64 := specIdx_of_thread (by simp [threadOk] at thread; simpa [isScalar] using thread.1)
  rw [Issue.taken, getLsbD_lanesWhere _ _ h, idx, Issue.takes]

theorem getLsbD_fall {l : Nat} (h : l < 32) :
    (i.cur.mask &&& ~~~i.taken a cond).getLsbD l = (i.cur.mask.getLsbD l && !i.takes a cond l) := by
  rw [BitVec.getLsbD_and, BitVec.getLsbD_not, getLsbD_taken thread h]
  simp [h]

theorem taken_eq_zero_iff : i.taken a cond = 0 ↔ ∀ l < 32, i.takes a cond l = false := by
  rw [BitVec32_eq_zero_iff]
  exact forall_congr' fun l => forall_congr' fun h => by rw [getLsbD_taken thread h]

theorem fall_eq_zero_iff :
    i.cur.mask &&& ~~~i.taken a cond = 0 ↔ ∀ l < 32, i.cur.mask.getLsbD l = true → i.takes a cond l = true := by
  rw [BitVec32_eq_zero_iff]
  exact forall_congr' fun l => forall_congr' fun h => by
    rw [getLsbD_fall thread h]
    cases i.cur.mask.getLsbD l <;> simp

variable (ready : s.ready t [a.toNat] = some i) (nonzero : join ≠ 0)
  (target : inCode i.k.codeBytes i.cur.pc tgt.toInt = true) (joins : inCode i.k.codeBytes i.cur.pc join.toNat = true)
include ready nonzero target joins

/-- What a ready `BRC` does, by its two groups of lanes (R191). -/
theorem exec_brc : exec (.brc t a cond tgt join) s = .next (
    if i.taken a cond = 0 then s.next t i i.g
    else if i.cur.mask &&& ~~~i.taken a cond = 0 then s.jump t i tgt.toInt
    else if 32 < i.above.length + 1 + i.below.length + 2 then s.abortGroup t i.cur.pc i.cur.mask 0x0382
    else s.setGroup t { i.g with
      stack :=
        { pc := i.cur.pc + 8, rpc := some (i.cur.pc + 8 * join.toNat), mask := i.cur.mask &&& ~~~i.taken a cond } ::
        { pc := (i.cur.pc + 8 * tgt.toInt).toNat, rpc := some (i.cur.pc + 8 * join.toNat), mask := i.taken a cond } ::
        (i.above ++ { i.cur with join := true, pc := i.cur.pc + 8 * join.toNat } :: i.below) }) :=
  congrArg Host.Outcome.next (by
    rw [if_pos thread, State.issue_ready _ ready]
    exact if_pos ⟨nonzero, target, joins⟩)

end

/-- A path that issues has a lane. -/
theorem exists_lane_of_ready {s : State} {t : At} {l : List Nat} {i : Issue} (ready : s.ready t l = some i) :
    ∃ n < 32, i.cur.mask.getLsbD n = true := by
  have run := (State.running_some (State.ready_some ready).1).2.2.2
  apply Classical.byContradiction
  intro none
  have zero : i.cur.mask = 0 := (BitVec32_eq_zero_iff _).mpr fun n h => by
    cases e : i.cur.mask.getLsbD n with
    | false => rfl
    | true => exact absurd ⟨n, h, e⟩ none
  simp [runnable, zero] at run

theorem divergentBranchSplitsThePath : DivergentBranchSplitsThePath :=
  fun s t i a cond tgt join thread ready nonzero target joins => by
    have inside : i.cur.pc + 8 < i.k.codeBytes := by
      have : join.toNat ≠ 0 := fun e => nonzero (BitVec.eq_of_toNat_eq e)
      simp only [inCode, Bool.and_eq_true, decide_eq_true_eq] at joins
      omega
    have run := exec_brc (cond := cond) thread ready nonzero target joins
    have taken_of : (∃ l < 32, i.takes a cond l = true) → i.taken a cond ≠ 0 := fun ⟨l, h, yes⟩ zero => by
      simp [(taken_eq_zero_iff thread).mp zero l h] at yes
    refine ⟨fun none => ?_, fun all => ?_, fun some notAll => ?_⟩
    · rw [run, if_pos ((taken_eq_zero_iff thread).mpr none), State.next_in inside]
    · obtain ⟨l, h, lane⟩ := exists_lane_of_ready ready
      rw [run, if_neg (taken_of ⟨l, h, all l h lane⟩), if_pos ((fall_eq_zero_iff thread).mpr all), State.jump_in target]
    · have fall : i.cur.mask &&& ~~~i.taken a cond ≠ 0 := fun zero => by
        obtain ⟨l, h, lane, no⟩ := notAll
        simp [(fall_eq_zero_iff thread).mp zero l h lane] at no
      rw [if_neg (taken_of some), if_neg fall] at run
      refine ⟨fun room => ⟨_, _, fun l h => ⟨getLsbD_taken thread h, getLsbD_fall thread h⟩, ?_⟩, fun full => ?_⟩
      · rw [run, if_neg (by omega)]
      · exact ⟨_, by rw [run, if_pos full], stoppedWith_abortGroup _ _ _ _ _ (kern_of_ready ready)⟩

/-! Paths that wait and end. -/

@[simp] theorem closeFill_kern (k : CoreSt) (f : Nat) : (closeFill k f).kern = k.kern := rfl

theorem closeFills_kern {α : Type} (l : List α) (g : α → Nat) (k : CoreSt) :
    (l.foldl (fun k f => closeFill k (g f)) k).kern = k.kern :=
  foldl_keeps (g := CoreSt.kern) (fun _ _ => closeFill_kern ..) _ _

section
variable {s : State} {t : At} {i : Issue} (ready : s.ready t [] = some i)
include ready

/-- The entries of a stack without the lanes of the path that exits. -/
def Issue.left (i : Issue) : List PathEnt :=
  ((i.above ++ i.cur :: i.below).map fun e => { e with mask := e.mask &&& ~~~i.cur.mask }).filter fun e => e.mask != 0

theorem exit_with_chain {c : ChainSt} (chain : i.g.chain = some c)
    (last : ∀ e ∈ i.above ++ i.below, e.mask &&& ~~~i.cur.mask = 0) :
    exec (.exitPath t) s = .next (s.abortGroup t i.cur.pc i.cur.mask 0x0181 c.desc) := by
  have empty : i.left = [] := by
    simp only [Issue.left, List.filter_eq_nil_iff, List.mem_map]
    rintro _ ⟨e, mem, rfl⟩
    have : e ∈ i.above ++ i.below ∨ e = i.cur := by
      simp only [List.mem_append, List.mem_cons] at mem ⊢
      exact mem.elim (fun h => .inl (.inl h)) fun h => h.elim .inr fun h => .inl (.inr h)
    rcases this with h | rfl
    · simp [last e h]
    · simp
  refine congrArg Host.Outcome.next ?_
  unfold Issue.left at empty
  rw [State.issue_ready _ ready]
  simp only [empty, chain]

theorem exit_without_chain (chain : i.g.chain = none) :
    exec (.exitPath t) s = .next (s.setGroup t { i.g with stack := i.left }) := by
  refine congrArg Host.Outcome.next ?_
  rw [State.issue_ready _ ready]
  simp only [chain]
  split
  · contradiction
  · rfl

theorem waitc_passes {tk : BitVec 3} {thr : BitVec 16} (limit : thr.toNat ≤ 128) (low : tget i.g.tk 0 tk.toNat ≤ thr.toNat)
    (inside : i.cur.pc + 8 < i.k.codeBytes) :
    exec (.waitc t tk thr) s = .next (s.setGroup t (i.at (i.cur.pc + 8) i.g)) :=
  congrArg Host.Outcome.next (by
    rw [if_pos limit, State.issue_ready _ ready]
    exact (if_pos low).trans (State.next_in inside))

theorem waitc_waits {tk : BitVec 3} {thr : BitVec 16} (limit : thr.toNat ≤ 128) (high : thr.toNat < tget i.g.tk 0 tk.toNat) :
    ∃ u, exec (.waitc t tk thr) s = .next u ∧ u.group t = some i.g ∧ (u.core t.core).lm = (s.core t.core).lm := by
  refine ⟨_, congrArg Host.Outcome.next
    (((if_pos limit).trans (State.issue_ready _ ready)).trans (if_neg (Nat.not_le.mpr high))), ?_, ?_⟩
  · rw [← group_of_ready ready]
    simp only [State.group, State.kern, State.core_modCore]
    rw [closeFills_kern]
  · rw [State.core_modCore]
    exact closeFills_lm ..

end

theorem left_disjoint (i : Issue) : ∀ e ∈ i.left, e.mask &&& i.cur.mask = 0 ∧ e.mask ≠ 0 := by
  intro e mem
  simp only [Issue.left, List.mem_filter, List.mem_map] at mem
  obtain ⟨⟨x, -, rfl⟩, nonzero⟩ := mem
  exact ⟨by rw [BitVec.and_assoc, BitVec.and_comm (~~~i.cur.mask)]; simp, by simpa using nonzero⟩

theorem pathsWaitAndEnd : PathsWaitAndEnd := fun s t i ready => by
  have abort := fun {pc lanes code info detail} =>
    stoppedWith_abortGroup (t := t) pc lanes code info detail (kern_of_ready ready)
  refine ⟨fun c chain last => ⟨_, exit_with_chain ready chain last, abort⟩,
    fun chain => ⟨_, exit_without_chain ready chain, left_disjoint i, rfl, rfl, rfl⟩,
    fun tk thr => waitc_passes ready, fun tk thr => waitc_waits ready, fun scope => ?fence, fun imm => ⟨_, ?trap, abort⟩⟩
  case fence => exact congrArg Host.Outcome.next (State.issue_ready _ ready)
  case trap => exact congrArg Host.Outcome.next (State.issue_ready _ ready)

/-- Settles O3: jumps, the divergent branch, and what ends or holds a path. -/
theorem pathsMoveSplitAndEnd : Obligations.PathsMoveSplitAndEnd :=
  ⟨jumpsMoveThePath, divergentBranchSplitsThePath, pathsWaitAndEnd⟩

end Sys2Proof.Machine
end

section
/-!
Fences, barriers and the forward-progress monitor (07 R194-R196, R214, 08 R233-R239).
-/

namespace Sys2Proof.Machine

/-! What a change of a kernel leaves of its core. -/

theorem core_modKern_keeps {β : Type} (p : CoreSt → β) (h : ∀ k x, p { k with kern := x } = p k) (s : State) (c d : Nat)
    (f : KernSt → KernSt) : p ((s.modKern c f).core d) = p (s.core d) := by
  unfold State.modKern
  split
  · rfl
  · by_cases e : d = c
    · subst e; rw [State.core_modCore, h]
    · rw [State.core_modCore_other _ _ e]

@[simp] theorem core_modKern_lm (s : State) (c d : Nat) (f : KernSt → KernSt) :
    ((s.modKern c f).core d).lm = (s.core d).lm := core_modKern_keeps CoreSt.lm (fun _ _ => rfl) ..

@[simp] theorem core_modKern_l1 (s : State) (c d : Nat) (f : KernSt → KernSt) :
    ((s.modKern c f).core d).l1 = (s.core d).l1 := core_modKern_keeps CoreSt.l1 (fun _ _ => rfl) ..

@[simp] theorem modKern_mem (s : State) (c : Nat) (f : KernSt → KernSt) : (s.modKern c f).mem = s.mem := by
  unfold State.modKern; split <;> rfl

/-- The kernel of a core whose group was written. -/
theorem kern_setGroup {s : State} {t : At} {k : KernSt} (g : GroupSt) (h : s.kern t.core = some k) :
    (s.setGroup t g).kern t.core = some { k with groups := tset k.groups t.group g } := State.kern_modKern _ h

/-! Paths that pass their word. -/

/-- A path inside the code passes its word without an abort. -/
theorem State.passed_in {s : State} {t : At} {k : KernSt} {e : PathEnt} (kern : s.kern t.core = some k)
    (inside : e.pc + 8 < k.codeBytes) : s.passed t e = s := by
  simp [State.passed, kern, inside]

theorem forL_same {α σ : Type} {f : α → σ → σ} {s : σ} {l : List α} (h : ∀ a ∈ l, f a s = s) : forL l s f = s := by
  unfold forL
  induction l with
  | nil => rfl
  | cons a r ih =>
    rw [List.foldl_cons, h a List.mem_cons_self]
    exact ih fun b hb => h b (List.mem_cons_of_mem _ hb)

/-- The paths of a group that pass their word inside the code: they alone move on. -/
theorem State.passPaths_in {s : State} {t : At} {k : KernSt} {g : GroupSt} {p : PathEnt → Bool} (kern : s.kern t.core = some k)
    (grp : s.group t = some g) (inside : ∀ e ∈ g.stack, p e = true → e.pc + 8 < k.codeBytes) :
    s.passPaths t p = s.setGroup t { g with
      stack := g.stack.map fun e => if p e then { e with pc := e.pc + 8, fence := none } else e } := by
  simp only [State.passPaths, State.putStack, grp]
  refine forL_same fun e he => ?_
  obtain ⟨mem, picked⟩ := List.mem_filter.mp he
  exact State.passed_in (kern_setGroup _ kern) (inside e mem picked)

/-! Fences. -/

/-- The accesses of a group below a number are performed. -/
theorem unperformed_eq_false {s : State} {t : At} {launch n : Nat} :
    s.unperformed t launch n = false ↔
      ∀ a ∈ (s.core t.core).acc, a.group = t.group → a.launch = launch → a.id < n → a.done ≠ none := by
  simp only [State.unperformed, List.any_eq_false, Bool.and_eq_true, beq_iff_eq, decide_eq_true_eq, Option.isNone_iff_eq_none,
    not_and, and_imp, ne_eq]

/-- A fence that is done is that of the one entry with a fence. -/
theorem eq_of_fenceDone {s : State} {t : At} {l : Nat} {g : GroupSt} {e x : PathEnt}
    (alone : ∀ x ∈ g.stack, x.fence ≠ none → x = e) (hx : x ∈ g.stack) (done : s.fenceDone t l x = true) : x = e :=
  alone x hx fun none => by simp [State.fenceDone, none] at done

section
variable {s : State} {t : At} {k : KernSt} {g : GroupSt} {e : PathEnt} {scope n : Nat} (fence : e.fence = some (scope, n))
include fence

theorem fenceDone_eq : s.fenceDone t k.launch e = !s.unperformed t k.launch n := by simp [State.fenceDone, fence]

variable (mem : e ∈ g.stack) (alone : ∀ x ∈ g.stack, x.fence ≠ none → x = e)
include alone

theorem find_fence_waits (waits : s.unperformed t k.launch n = true) : g.stack.find? (s.fenceDone t k.launch) = none := by
  rw [List.find?_eq_none]
  intro x hx done
  rw [eq_of_fenceDone alone hx done, fenceDone_eq fence, waits] at done
  simp at done

include mem in
theorem find_fence_done (performed : s.unperformed t k.launch n = false) :
    g.stack.find? (s.fenceDone t k.launch) = some e := by
  cases found : g.stack.find? (s.fenceDone t k.launch) with
  | none =>
    have := List.find?_eq_none.mp found e mem
    simp [fenceDone_eq fence, performed] at this
  | some x => rw [eq_of_fenceDone alone (List.mem_of_find?_eq_some found) (List.find?_some found)]

end

theorem fenceCompletes : FenceCompletes := fun s t k g e scope n kern grp mem fence alone => by
  refine ⟨fun performed inside => ?_, fun ⟨a, ha, hg, hl, hi, hd⟩ => ?_⟩
  · have found := find_fence_done (k := k) fence mem alone (unperformed_eq_false.mpr performed)
    have run : exec (.fenceComplete t) s = .next
        ((if scope = 0 then s else s.modCore t.core fun c => { c with l1 := [] }).passPaths t fun x => x == e) := by
      refine congrArg Host.Outcome.next ?_
      simp only [kern, grp, found, fence, Option.elim]
    refine ⟨_, run, ?_⟩
    generalize hu : (if scope = 0 then s else s.modCore t.core fun c => { c with l1 := [] }) = u
    have ukern : u.kern t.core = some k := by
      rw [← hu]; split
      · exact kern
      · rw [← kern]; simp [State.kern]
    have ugrp : u.group t = some g := by
      rw [← grp]; simp only [State.group, ukern, kern]
    have ul1 : (u.core t.core).l1 = if scope = 0 then (s.core t.core).l1 else [] := by
      rw [← hu]; split <;> simp
    have ulm : (u.core t.core).lm = (s.core t.core).lm := by
      rw [← hu]; split <;> simp
    have umem : u.mem = s.mem := by
      rw [← hu]; split <;> simp
    rw [State.passPaths_in ukern ugrp fun x _ picked => by rwa [eq_of_beq picked]]
    refine ⟨?_, by simpa [State.setGroup] using ul1, by simpa [State.setGroup] using ulm, by simpa [State.setGroup] using umem⟩
    rw [State.group_setGroup _ ugrp]
    simp only [beq_iff_eq]
  · have waits : s.unperformed t k.launch n = true := by
      cases h : s.unperformed t k.launch n with
      | true => rfl
      | false => exact absurd hd (unperformed_eq_false.mp h a ha hg hl hi)
    refine congrArg Host.Outcome.next ?_
    simp only [kern, grp, find_fence_waits fence alone waits]

/-! Barriers. -/

/-- A barrier with the arrivals of a path added (R194). -/
def BarrierSt.arrived (b : BarrierSt) (group : Nat) (i : Issue) (arriveOnly : Bool) (count : Nat) : BarrierSt :=
  { arrivals := b.arrivals + i.arrivals, count := count,
    waiting := b.waiting ++ if arriveOnly then [] else [(group, i.cur.mask)] }

theorem arrivals_eq (i : Issue) : (lanesOf i.cur.mask).length = i.arrivals := (List.countP_eq_length_filter ..).symm

section
variable {s : State} {t : At} {i : Issue} {a : BitVec 8} {bid : BitVec 4} {arriveOnly cnti : Bool} {imm : BitVec 16}
  {b : BarrierSt} {count : Nat} (operands : cnti = true ∨ a.getLsbD 7 = true)
  (ready : s.ready t (if cnti then [] else [a.toNat]) = some i) (hb : b = tget i.k.barriers {} bid.toNat)
  (hcount : count = if cnti then imm.toNat else (srcScalar i.g a).toNat)
include operands ready hb hcount

/-- What a ready `BAR` does once the accesses of its group are performed or not, by its count (R194, R195). -/
theorem exec_bar : exec (.bar t a bid arriveOnly cnti imm) s = .next (
    if s.unperformed t i.k.launch (s.core t.core).nextId then s
    else if count = 0 ∨ 2048 < count ∨ (b.arrivals ≠ 0 ∧ count ≠ b.count) then
      s.abortGroup t i.cur.pc i.cur.mask 0x0381 count (b.arrivals + b.count * 2 ^ 12 + bid.toNat * 2 ^ 24)
    else
      let u := (s.setGroup t { i.g with stack := i.above ++ i.cur :: i.below }).modKern t.core fun k =>
        { k with barriers := tset k.barriers bid.toNat (b.arrived t.group i arriveOnly count) }
      let v := if arriveOnly then u.next t i i.g else u
      if count ≤ b.arrivals + i.arrivals then v.releaseBarrier t.core bid.toNat else v) := by
  have named : (cnti || scalarOk a) = true := by simpa [scalarOk] using operands
  have source : (if cnti then imm.toNat else i.g.srcS a) = count := by
    rw [hcount]
    cases cnti with
    | true => rfl
    | false => simp [srcS_eq_srcScalar (g := i.g) (.inl (show isScalar a = true by simpa [isScalar] using operands))]
  refine congrArg Host.Outcome.next ?_
  rw [if_pos named, State.issue_ready _ ready]
  simp only [source, ← hb, arrivals_eq]
  rfl

end

/-- The state with a barrier's arrivals and a group's stack written. -/
theorem barrier_written {s : State} {t : At} {k : KernSt} {g : GroupSt} (n : GroupSt) (bid : Nat) (x : BarrierSt)
    (kern : s.kern t.core = some k) (grp : s.group t = some g) :
    ∃ u, u = (s.setGroup t n).modKern t.core (fun k => { k with barriers := tset k.barriers bid x }) ∧
      u.kern t.core = some { k with groups := tset k.groups t.group n, barriers := tset k.barriers bid x } ∧
      u.group t = some n := by
  have written := kern_setGroup n kern
  obtain ⟨k', hk, lt, -⟩ := State.group_some grp
  rw [kern] at hk
  cases hk
  refine ⟨_, rfl, State.kern_modKern _ written, ?_⟩
  simp only [State.group, State.kern_modKern _ written, lt, if_true, tget_tset_self]

/-- What is left of a barrier that has started again. -/
theorem tget_tdel_self {α : Type} (t : Tbl α) (d : α) (k : Nat) : tget (tdel t k) d k = d := by
  induction t with
  | nil => rfl
  | cons p r ih =>
    obtain ⟨j, v⟩ := p
    by_cases e : j = k
    · simpa [tdel, e] using ih
    · simp only [tdel, bne_iff_ne, ne_eq, e, not_false_eq_true, List.filter_cons_of_pos, tget, if_false]
      simpa [tdel] using ih

/-- A barrier that nobody else waits at is released: it starts again, and the one group at it passes its word. -/
theorem releaseBarrier_last {s : State} {t : At} {k : KernSt} {g : GroupSt} {bid : Nat} {waits : Bool} {e : PathEnt}
    (kern : s.kern t.core = some k) (grp : s.group t = some g) (stack : g.stack = [e]) (path : e.join = false)
    (lanes : e.mask ≠ 0#32) (clear : e.fence = none) (inside : waits = true → e.pc + 8 < k.codeBytes)
    (waiting : (tget k.barriers {} bid).waiting = if waits then [(t.group, e.mask)] else []) :
    ∃ k', (s.releaseBarrier t.core bid).kern t.core = some k' ∧ tget k'.barriers {} bid = {} ∧
      (s.releaseBarrier t.core bid).group t =
        some { g with stack := [{ e with pc := if waits then e.pc + 8 else e.pc }] } := by
  have opened := State.kern_modKern (fun x : KernSt => { x with barriers := tdel x.barriers bid }) kern
  have grp' : (s.modKern t.core fun x => { x with barriers := tdel x.barriers bid }).group t = some g := by
    rw [← grp]; simp only [State.group, opened, kern]
  simp only [State.releaseBarrier, kern, waiting]
  cases waits with
  | false =>
    refine ⟨_, opened, tget_tdel_self .., ?_⟩
    rw [forL, if_neg (by simp), List.foldl_nil, grp']
    simp [← stack]
  | true =>
    have pass := State.passPaths_in (p := fun x => !x.join && (x.mask &&& e.mask != 0)) opened grp' fun x hx _ => by
      rw [stack, List.mem_singleton] at hx
      exact hx ▸ inside rfl
    rw [forL, if_pos rfl, List.foldl_cons, List.foldl_nil, pass]
    refine ⟨_, kern_setGroup _ opened, tget_tdel_self .., ?_⟩
    rw [State.group_setGroup _ grp']
    simp [stack, path, lanes, ← clear]

/-- The running path is no join, and has a lane. -/
theorem path_of_running {s : State} {t : At} {i : Issue} (running : s.running t = some i) :
    i.cur.join = false ∧ i.cur.mask ≠ 0#32 := by
  obtain ⟨-, -, -, runs⟩ := State.running_some running
  simp only [runnable, Bool.and_eq_true, Bool.not_eq_true', bne_iff_ne, ne_eq] at runs
  exact ⟨runs.1, fun none => runs.2 (by simp [none])⟩

theorem barriersCountLanes : BarriersCountLanes :=
  fun s t i a bid arriveOnly cnti imm b count operands ready hb hcount => by
    have run := exec_bar (arriveOnly := arriveOnly) operands ready hb hcount
    have kern := kern_of_ready ready
    have grp := group_of_ready ready
    obtain ⟨u, hu, ukern, ugrp⟩ := barrier_written { i.g with stack := i.above ++ i.cur :: i.below } bid.toNat
      (b.arrived t.group i arriveOnly count) kern grp
    refine ⟨fun waits => by rw [run, if_pos waits], fun clear lo hi same short inside => ?_,
      fun clear lo hi same full above below nobody inside => ?_, fun clear bad => ?_⟩
    · rw [if_neg (by simp [clear]), if_neg (by omega), ← hu] at run
      simp only [if_neg (Nat.not_le.mpr short)] at run
      cases arriveOnly with
      | false => exact ⟨_, _, run, ukern, tget_tset_self .., ugrp⟩
      | true =>
        rw [if_pos rfl, State.next_in inside] at run
        exact ⟨_, _, run, kern_setGroup _ ukern, tget_tset_self .., State.group_setGroup _ ugrp⟩
    · obtain ⟨run', fence, -⟩ := State.ready_some ready
      obtain ⟨path, lanes⟩ := path_of_running run'
      rw [if_neg (by simp [clear]), if_neg (by omega), ← hu] at run
      simp only [if_pos full] at run
      cases arriveOnly with
      | false =>
        obtain ⟨k', hk, started, gone⟩ := releaseBarrier_last (bid := bid.toNat) (waits := true) (e := i.cur) ukern ugrp
          (by simp [above, below]) path lanes fence (fun _ => inside)
          (by simp [tget_tset_self, BarrierSt.arrived, nobody])
        exact ⟨_, _, run, hk, started, by simpa [Issue.at, above, below] using gone⟩
      | true =>
        rw [if_pos rfl, State.next_in inside] at run
        obtain ⟨k', hk, started, gone⟩ := releaseBarrier_last (bid := bid.toNat) (waits := false)
          (g := i.at (i.cur.pc + 8) i.g) (e := { i.cur with pc := i.cur.pc + 8 }) (kern_setGroup _ ukern) (State.group_setGroup _ ugrp)
          (by simp [Issue.at, above, below]) path lanes fence nofun
          (by simp [tget_tset_self, BarrierSt.arrived, nobody])
        exact ⟨_, _, run, hk, started, by simpa [Issue.at, above, below] using gone⟩
    · rw [if_neg (by simp [clear]), if_pos bad] at run
      exact ⟨_, run, stoppedWith_abortGroup _ _ _ _ _ kern⟩

/-! The forward-progress monitor. -/

/-- The lowest of some numbers and a bound is one of them, and none is below it. -/
theorem foldl_min_le (l : List Nat) (n : Nat) :
    l.foldl min n ≤ n ∧ (∀ x ∈ l, l.foldl min n ≤ x) ∧ (l.foldl min n = n ∨ l.foldl min n ∈ l) := by
  induction l generalizing n with
  | nil => simp
  | cons a r ih =>
    obtain ⟨bound, each, which⟩ := ih (min n a)
    rw [List.foldl_cons]
    refine ⟨by omega, fun x hx => ?_, ?_⟩
    · rcases List.mem_cons.mp hx with rfl | hx
      · omega
      · exact each x hx
    · rcases which with h | h
      · rcases Nat.le_total n a with l | l
        · exact .inl (by omega)
        · exact .inr (List.mem_cons.mpr (.inl (by omega)))
      · exact .inr (List.mem_cons_of_mem _ h)

/-- Somebody waits at a stranded barrier. -/
theorem strandedBarrier_waits {k : KernSt} {b : Nat} (h : strandedBarrier k = some b) :
    (tget k.barriers {} b).waiting ≠ [] := by
  unfold strandedBarrier at h
  split at h
  · have found := List.find?_some h
    intro none
    simp [none] at found
  · cases h

theorem monitorAbortsStrandedKernels : MonitorAbortsStrandedKernels := fun s c k kern => by
  refine ⟨fun clear => ?_, fun b found first => ?_, fun b found again => ?_⟩
  · refine ⟨s.modKern c fun x => { x with stranded := false }, ?_, State.kern_modKern _ kern⟩
    exact congrArg Host.Outcome.next (by simp only [kern, clear])
  · refine ⟨s.modKern c fun x => { x with stranded := true }, ?_, State.kern_modKern _ kern⟩
    exact congrArg Host.Outcome.next (by simp [kern, found, first])
  · have run : exec (.forwardProgressCheck c) s = .next _ := congrArg Host.Outcome.next (by
      simp only [kern, found, again, Bool.not_true, Bool.false_eq_true, if_false]; rfl)
    obtain ⟨bound, each, which⟩ := foldl_min_le ((tget k.barriers {} b).waiting.map fun w => w.1) 63
    refine ⟨_, run, _, rfl, rfl, rfl, rfl, ?_, fun w hw => each _ (List.mem_map_of_mem hw), stoppedWith_abortGroup _ _ _ _ _ kern⟩
    rcases which with h | h
    · obtain ⟨w, hw⟩ := List.exists_mem_of_ne_nil _ (strandedBarrier_waits found)
      exact ⟨w, hw, .inr h⟩
    · obtain ⟨w, hw, eq⟩ := List.mem_map.mp h
      exact ⟨w, hw, .inl eq.symm⟩

/-- Settles O4: a fence, a barrier and the monitor each come down to one write of the group's stack, the barrier or the
kernel's flag. -/
theorem groupsSynchronise : Obligations.GroupsSynchronise :=
  ⟨fenceCompletes, barriersCountLanes, monitorAbortsStrandedKernels⟩

end Sys2Proof.Machine
end

section
/-!
Loads, stores and atomics of thread groups as they issue (07 R201-R206, R212, R213).
-/

namespace Sys2Proof.Machine

/-! Little-endian numbers. -/

theorem leNat_lt (l : Bytes) : leNat l < 2 ^ (8 * l.length) := by
  induction l with
  | nil => simp [leNat]
  | cons b r ih =>
    have : 2 ^ (8 * (r.length + 1)) = 256 * 2 ^ (8 * r.length) := by rw [Nat.mul_add, Nat.pow_add]; omega
    have := b.isLt
    simp only [leNat, List.length_cons]
    omega

theorem leNat_lt_of_length {l : Bytes} {n : Nat} (h : l.length ≤ n) : leNat l < 2 ^ (8 * n) :=
  Nat.lt_of_lt_of_le (leNat_lt l) (Nat.pow_le_pow_right (by omega) (by omega))

theorem Store.num_lt (st : Store) (a n : Nat) : st.num a n < 2 ^ (8 * n) :=
  leNat_lt_of_length (by simp [Store.read])

theorem GroupSt.regData_lt (g : GroupSt) (x : BitVec 8) (n lane : Nat) : g.regData x n lane < 2 ^ (8 * n) := by
  unfold GroupSt.regData
  split <;> exact leNat_lt_of_length (List.length_take_le ..)

/-! Numbered accesses. -/

/-- An access keeps everything but its number as it is numbered. -/
theorem numberAcc_mem {n : Nat} {as : List Access} {a : Access} (h : a ∈ as) : ∃ j, { a with id := j } ∈ numberAcc n as := by
  obtain ⟨m, hm, rfl⟩ := List.mem_iff_getElem.mp h
  refine ⟨n + m, List.mem_map.mpr ⟨(as[m], m), ?_, rfl⟩⟩
  exact List.mem_iff_getElem?.mpr ⟨m, by simp [hm]⟩

/-! What opening accesses leaves. -/

theorem State.sendAccess_cores (s : State) (c : Nat) (a : Access) : (s.sendAccess c a).cores = s.cores :=
  (State.sendAccess_frame s c a).frame .cores (by decide)

theorem forL_keeps {α β σ : Type} (p : σ → β) (l : List α) (s : σ) (f : α → σ → σ) (h : ∀ a u, p (f a u) = p u) :
    p (forL l s f) = p s := foldl_keeps (g := p) (fun u a => h a u) l s

section
variable (s : State) (c : Nat) (as : List Access)

@[simp] theorem State.openAccesses_core : (s.openAccesses c as).core c =
    { s.core c with acc := (s.core c).acc ++ numberAcc (s.core c).nextId as,
                    nextId := (s.core c).nextId + (numberAcc (s.core c).nextId as).length,
                    l1 := (numberAcc (s.core c).nextId as).foldl issueL1 (s.core c).l1 } := by
  have kept := forL_keeps State.cores (numberAcc (s.core c).nextId as) (s.setCore c { s.core c with
    acc := (s.core c).acc ++ numberAcc (s.core c).nextId as,
    nextId := (s.core c).nextId + (numberAcc (s.core c).nextId as).length,
    l1 := (numberAcc (s.core c).nextId as).foldl issueL1 (s.core c).l1 }) (fun a t => t.sendAccess c a)
    (fun a u => u.sendAccess_cores c a)
  exact (congrArg (fun x : Tbl CoreSt => tget x {} c) kept).trans (State.core_setCore ..)

@[simp] theorem State.openAccesses_mem : (s.openAccesses c as).mem = s.mem :=
  (State.openAccesses_frame s c as).frame .mem (by decide)

theorem State.openAccesses_kern : (s.openAccesses c as).kern c = s.kern c := by simp [State.kern]

end

theorem State.group_of_kern {s u : State} {t : At} (h : u.kern t.core = s.kern t.core) : u.group t = s.group t := by
  simp only [State.group, h]

/-! The accesses of an instruction's parts. -/

section
variable {mk : Access} {f : LaneAcc → AccPart} {ls : List LaneAcc} {x : LaneAcc} (hx : x ∈ ls)
include hx

/-- A part at a place of this module is in the access of its line. -/
theorem lineAccesses_here {pa : Nat} (place : x.place = some (.here pa)) :
    ∃ a ∈ lineAccesses mk (placedParts f ls), { f x with addr := pa } ∈ a.parts ∧ a = { mk with line := pa / 64, parts := a.parts } := by
  have placed : (Place.here pa, f x) ∈ placedParts f ls := List.mem_filterMap.mpr ⟨x, hx, by simp [place]⟩
  have local' : { f x with addr := pa } ∈ (placedParts f ls).filterMap fun x => match x.1 with
      | .here pa => some { x.2 with addr := pa }
      | .remote _ _ => none := List.mem_filterMap.mpr ⟨_, placed, rfl⟩
  refine ⟨_, List.mem_append_left _ (List.mem_map.mpr
    ⟨pa / 64, List.mem_eraseDups.mpr (List.mem_map.mpr ⟨_, local', rfl⟩), rfl⟩), ?_, rfl⟩
  exact List.mem_filter.mpr ⟨local', by simp⟩

/-- A part at another module has an access of its own. -/
theorem lineAccesses_remote {node pa : Nat} (place : x.place = some (.remote node pa)) :
    { mk with node := some node, line := pa / 64, parts := [{ f x with addr := pa }] } ∈ lineAccesses mk (placedParts f ls) := by
  have placed : (Place.remote node pa, f x) ∈ placedParts f ls := List.mem_filterMap.mpr ⟨x, hx, by simp [place]⟩
  exact List.mem_append_right _ (List.mem_filterMap.mpr ⟨_, placed, rfl⟩)

theorem lmParts_mem (place : x.place = none) : f x ∈ lmParts f ls :=
  List.mem_map_of_mem (List.mem_filter.mpr ⟨hx, by simp [place]⟩)

end

/-- A part of an access that an instruction opens is open. -/
theorem openPart_of_mem {s u : State} {t : At} {i : Issue} {kind : AccKind} {node : Option Nat} {lane addr size : Nat}
    {q : Access → AccPart → Prop} {as : List Access} {a : Access} {p : AccPart}
    (opened : (u.core t.core).acc = (s.core t.core).acc ++ numberAcc (s.core t.core).nextId as) (ha : a ∈ as) (hp : p ∈ a.parts)
    (hk : a.kind = kind) (hg : a.group = t.group) (hl : a.launch = i.k.launch) (hn : a.node = node)
    (lane' : p.lane = lane) (addr' : p.addr = addr) (size' : p.size = size) (hq : ∀ j, q { a with id := j } p) :
    OpenPart u t i kind node lane addr size q := by
  obtain ⟨j, hj⟩ := numberAcc_mem (n := (s.core t.core).nextId) ha
  exact ⟨{ a with id := j }, opened ▸ List.mem_append_right _ hj, hk, hg, hl, hn, p, hp, lane', addr', size', hq j⟩

/-! The state after an instruction that opens accesses. -/

/-- A state whose core keeps its kernel and its open accesses, then opens accesses, and whose path then goes on. -/
theorem opened_next {s v : State} {t : At} {i : Issue} {as : List Access} {srcs : List Nat} (ready : s.ready t srcs = some i)
    (kern : (v.core t.core).kern = (s.core t.core).kern) (acc : (v.core t.core).acc = (s.core t.core).acc)
    (next : (v.core t.core).nextId = (s.core t.core).nextId) (inside : i.cur.pc + 8 < i.k.codeBytes) :
    ∃ u, (v.openAccesses t.core as).next t i i.g = u ∧ u.group t = some (i.at (i.cur.pc + 8) i.g) ∧ u.mem = v.mem ∧
      (u.core t.core).lm = (v.core t.core).lm ∧
      (u.core t.core).acc = (s.core t.core).acc ++ numberAcc (s.core t.core).nextId as := by
  refine ⟨_, State.next_in inside, ?_, ?_, ?_, ?_⟩
  · rw [State.group_setGroup (g := i.g)]
    rw [State.group_of_kern (s := s), group_of_ready ready]
    rw [State.openAccesses_kern]
    exact kern
  · simp [State.setGroup]
  · simp [State.setGroup]
  · rw [← acc, ← next]
    simp [State.setGroup, core_modKern_keeps CoreSt.acc (fun _ _ => rfl)]

/-! Loads. -/

theorem mem_zip_map {α β : Type} (f : α → β) {a : α} {l : List α} (h : a ∈ l) : (a, f a) ∈ l.zip (l.map f) := by
  induction l with
  | nil => cases h
  | cons b r ih =>
    rw [List.map_cons, List.zip_cons_cons, List.mem_cons]
    rcases List.mem_cons.mp h with rfl | h
    · exact .inl rfl
    · exact .inr (ih h)

/-- The fields of a load that the L1 does not decide. -/
theorem loadL1_eq (k : CoreSt) (a : Access) : loadL1 k a = { a with done := (loadL1 k a).done } := by
  unfold loadL1
  split
  · rfl
  · split <;> rfl

theorem loadIssue_runs (op : Nat) (scalar : Bool) {c : At → MemOp → List Nat → Instr}
    (run : ∀ t o bad s, exec (c t o bad) s = .next (if memOk op o then s.loadIssue t o scalar bad else s)) :
    LoadRuns c op scalar := fun s t o bad i legal ready => by
  have issued : exec (c t o bad) s = .next (s.loadIssue t o scalar bad) := by rw [run, if_pos legal]
  rw [issued, State.loadIssue, State.issue_ready _ ready]
  refine ⟨fun code addr failed => ?_, fun ls passed room inside => ?_⟩
  · rw [memChecks] at failed
    simp only [failed]
    exact ⟨_, rfl, stoppedWith_abortGroup _ _ _ _ _ (kern_of_ready ready)⟩
  · rw [memChecks] at passed
    simp only [passed]
    generalize hk : dropBad (s.core t.core) _ = k
    rw [if_pos (room k)]
    obtain ⟨u, hu, grp, mem, lm, acc⟩ := opened_next (v := s.setCore t.core k) (as := loadNear k t i o ls ++ loadFar k t i o ls)
      ready (by rw [State.core_setCore, ← hk]; rfl) (by rw [State.core_setCore, ← hk]; rfl)
      (by rw [State.core_setCore, ← hk]; rfl) inside
    have klm : k.lm = (s.core t.core).lm := by rw [← hk]; rfl
    refine ⟨u, congrArg Host.Outcome.next hu, grp, mem, by rw [lm, State.core_setCore, klm], fun x hx => ⟨fun place => ?_,
      fun pa place => ?_, fun node pa place => ?_⟩⟩
    · have part := lmParts_mem (f := loadPart o) hx place
      have near : loadNear k t i o ls = [_] := if_neg fun none => by
        rw [List.isEmpty_iff.mp none] at part; cases part
      refine openPart_of_mem acc (List.mem_append_left _ (near ▸ List.mem_singleton_self _)) part rfl rfl rfl rfl rfl rfl rfl
        fun j => ⟨rfl, _, rfl, ?_⟩
      rw [← klm]
      exact mem_zip_map (fun p => k.lm.num p.addr p.size) part
    · obtain ⟨a, ha, hp, eq⟩ := lineAccesses_here (mk := { i.access t .load with vol := o.vol, sext := o.sext })
        (f := loadPart o) hx place
      have far : loadL1 k a ∈ loadFar k t i o ls := List.mem_map_of_mem ha
      rw [loadL1_eq, eq] at far
      exact openPart_of_mem acc (List.mem_append_right _ far) hp rfl rfl rfl rfl rfl rfl rfl fun _ => ⟨rfl, rfl⟩
    · have far := List.mem_map_of_mem (f := loadL1 k) (lineAccesses_remote
        (mk := { i.access t .load with vol := o.vol, sext := o.sext }) (f := loadPart o) hx place)
      rw [loadL1_eq] at far
      exact openPart_of_mem acc (List.mem_append_right _ far) (List.mem_singleton_self _) rfl rfl rfl rfl rfl rfl rfl
        fun _ => rfl

/-! Stores. -/

theorem storeIssue_runs (op : Nat) (scalar : Bool) {c : At → MemOp → Instr}
    (run : ∀ t o s, exec (c t o) s = .next (if memOk op o then s.storeIssue t o scalar else s)) :
    StoreRuns c op scalar := fun s t o i legal ready => by
  have issued : exec (c t o) s = .next (s.storeIssue t o scalar) := by rw [run, if_pos legal]
  rw [issued, State.storeIssue, State.issue_ready _ ready]
  refine ⟨fun code addr failed => ?_, fun ls passed room inside => ?_⟩
  · rw [memChecks] at failed
    simp only [failed]
    exact ⟨_, rfl, stoppedWith_abortGroup _ _ _ _ _ (kern_of_ready ready)⟩
  · rw [memChecks] at passed
    simp only [passed]
    rw [if_pos room]
    obtain ⟨u, hu, grp, mem, lm, acc⟩ := opened_next (as := storeFar t i o ls)
      (v := s.modCore t.core fun k => { k with lm := storeLm k.lm (lmParts (storePart i o) ls) })
      ready (by rw [State.core_modCore]) (by rw [State.core_modCore]) (by rw [State.core_modCore]) inside
    refine ⟨u, congrArg Host.Outcome.next hu, grp, mem, ?_, fun x hx => ⟨fun pa place => ?_, fun node pa place => ?_⟩⟩
    · rw [lm, State.core_modCore]
      exact List.foldl_map
    · obtain ⟨a, ha, hp, eq⟩ := lineAccesses_here (mk := i.access t .store) (f := storePart i o) hx place
      rw [eq] at ha
      exact openPart_of_mem acc ha hp rfl rfl rfl rfl rfl rfl rfl fun _ => ⟨rfl, rfl⟩
    · exact openPart_of_mem acc (lineAccesses_remote hx place) (List.mem_singleton_self _) rfl rfl rfl rfl rfl rfl rfl fun _ => rfl

/-! Atomics. -/

/-- The operation of an atomic on operands of its width is the table's (R213). -/
theorem atomicOp_eq {aop n xfmt old a b : Nat} (known : aop ≤ 0xB) (ho : old < 2 ^ (8 * n)) (ha : aop ≤ 9 → a < 2 ^ (8 * n))
    (hb : aop ≤ 9 → b < 2 ^ (8 * n)) : (atomicOp aop n xfmt a b).f old = aopValue aop n xfmt old a b := by
  by_cases int : aop ≤ 9
  · have op : (atomicOp aop n xfmt a b).f old = intAtomic aop (8 * n) old a b := by
      rw [atomicOp, if_neg (by omega), if_neg (by omega)]; rfl
    rw [op]
    unfold intAtomic
    rw [Nat.mod_eq_of_lt ho, Nat.mod_eq_of_lt (ha int), Nat.mod_eq_of_lt (hb int)]
    match aop, int with
    | 0, _ | 1, _ | 2, _ | 3, _ | 4, _ | 5, _ | 6, _ | 7, _ | 8, _ | 9, _ => rfl
  · obtain rfl | rfl : aop = 0xA ∨ aop = 0xB := by omega
    · rfl
    · rfl

/-- Local memory after a run of atomics. -/
theorem lmAtomics_fst (lm : Store) (l : List Nat) (aop xfmt : Nat) (ps : List AccPart) :
    (ps.foldl (fun r p =>
      (r.1.write p.addr (leBytes p.size ((atomicOp aop p.size xfmt p.d0 p.d1).f (r.1.num p.addr p.size))) false,
        r.2 ++ [r.1.num p.addr p.size])) (lm, l)).1 =
    ps.foldl (fun m p => m.write p.addr (leBytes p.size ((atomicOp aop p.size xfmt p.d0 p.d1).f (m.num p.addr p.size))) false) lm := by
  induction ps generalizing lm l with
  | nil => rfl
  | cons p r ih => exact ih ..

/-- The access that an atomic leaves open for what it found in local memory. -/
def atomNear (lm : Store) (t : At) (i : Issue) (aop : Nat) (o : AtomOp) (ls : List LaneAcc) : List Access :=
  let ps := lmParts (atomPart i aop o) ls
  if ps.isEmpty || !o.ret then []
  else [{ i.atom t aop o with lm := true, parts := ps, done := some (lmAtomics lm aop o.xfmt.toNat ps).2 }]

theorem foldl_congr_fun {α β : Type} {f g : β → α → β} (h : ∀ b a, f b a = g b a) (l : List α) (b : β) :
    l.foldl f b = l.foldl g b := by
  rw [show f = g from funext fun b => funext (h b)]

theorem atomIssue_runs (aop : Nat) (known : aop ≤ 0xB) {c : At → AtomOp → Instr}
    (run : ∀ t o s, exec (c t o) s = .next (if atomOk aop o then s.atomIssue t aop o else s)) :
    AtomRuns c aop := fun s t o i legal ready => by
  have issued : exec (c t o) s = .next (s.atomIssue t aop o) := by rw [run, if_pos legal]
  rw [issued, State.atomIssue, State.issue_ready _ ready]
  refine ⟨fun code addr failed => ?_, fun ls passed room inside => ?_⟩
  · simp only [failed]
    exact ⟨_, rfl, stoppedWith_abortGroup _ _ _ _ _ (kern_of_ready ready)⟩
  · simp only [passed]
    rw [if_pos room]
    obtain ⟨u, hu, grp, mem, lm, acc⟩ := opened_next
      (as := atomNear (s.core t.core).lm t i aop o ls ++ atomFar t i aop o ls)
      (v := s.modCore t.core fun k => { k with
        lm := (lmAtomics (s.core t.core).lm aop o.xfmt.toNat (lmParts (atomPart i aop o) ls)).1 })
      ready (by rw [State.core_modCore]) (by rw [State.core_modCore]) (by rw [State.core_modCore]) inside
    refine ⟨u, congrArg Host.Outcome.next hu, grp, mem, ?_, fun x hx => ⟨fun pa place => ?_, fun node pa place => ?_,
      fun place ret => ?_⟩⟩
    · rw [lm, State.core_modCore]
      refine (lmAtomics_fst ..).trans (List.foldl_map.trans (foldl_congr_fun (fun m x => ?_) _ _))
      have bound : ∀ r l, aop ≤ 9 → i.g.regData r (atomWidth aop o) l < 2 ^ (8 * sizeBytes o.size) := fun r l int => by
        rw [show atomWidth aop o = sizeBytes o.size from if_neg (by omega)]
        exact GroupSt.regData_lt ..
      exact congrArg (fun v => m.write x.addr (leBytes (sizeBytes o.size) v) false) (atomicOp_eq known (Store.num_lt ..)
        (bound o.dst x.lane) (bound _ x.lane))
    · obtain ⟨a, ha, hp, eq⟩ := lineAccesses_here (mk := i.atom t aop o) (f := atomPart i aop o) hx place
      rw [eq] at ha
      exact openPart_of_mem acc (List.mem_append_right _ ha) hp rfl rfl rfl rfl rfl rfl rfl fun _ => ⟨rfl, rfl, rfl⟩
    · exact openPart_of_mem acc (List.mem_append_right _ (lineAccesses_remote hx place)) (List.mem_singleton_self _)
        rfl rfl rfl rfl rfl rfl rfl fun _ => ⟨rfl, rfl⟩
    · have part := lmParts_mem (f := atomPart i aop o) hx place
      have some' : ((lmParts (atomPart i aop o) ls).isEmpty || !o.ret) = false := by
        cases h : lmParts (atomPart i aop o) ls with
        | nil => rw [h] at part; cases part
        | cons => simp [ret]
      rw [atomNear, if_neg (by simp [some'])] at acc
      exact openPart_of_mem acc (List.mem_append_left _ (List.mem_singleton_self _)) part rfl rfl rfl rfl rfl rfl rfl
        fun _ => ⟨nofun, rfl⟩

theorem threadLoadsIssue : ThreadLoadsIssue :=
  ⟨loadIssue_runs _ _ fun _ _ _ _ => rfl, loadIssue_runs _ _ fun _ _ _ _ => rfl⟩

theorem threadStoresIssue : ThreadStoresIssue :=
  ⟨storeIssue_runs _ _ fun _ _ _ => rfl, storeIssue_runs _ _ fun _ _ _ => rfl⟩

theorem threadAtomicsIssue : ThreadAtomicsIssue := by
  unfold ThreadAtomicsIssue
  and_intros <;> exact atomIssue_runs _ (by decide) fun _ _ _ => rfl

/-- Settles O5: each instruction is its shared issue operation, whose checks, local part and open accesses are said once
for loads, stores and atomics. -/
theorem memoryInstructionsIssue : Obligations.MemoryInstructionsIssue :=
  ⟨threadLoadsIssue, threadStoresIssue, threadAtomicsIssue⟩

end Sys2Proof.Machine
end

section
/-!
What returns to registers, and what homes accept (07 R187, R204, R212, R213, 08 R224, R225).
-/

namespace Sys2Proof.Machine

/-! Loaded data in their registers. -/

theorem forN_succ {σ : Type} (n : Nat) (s : σ) (f : Nat → σ → σ) : forN (n + 1) s f = f n (forN n s f) := by
  simp [forN, List.range_succ]

theorem forN_keeps {σ β : Type} (p : σ → β) (n : Nat) (s : σ) (f : Nat → σ → σ) (h : ∀ i u, p (f i u) = p u) :
    p (forN n s f) = p s := foldl_keeps (g := p) (fun u i => h i u) _ s

theorem vreg_forN_setV (g : GroupSt) (n r lane : Nat) (f : Nat → BitVec 32) {j l : Nat} (hl : l < 32) (hm : lane < 32) :
    (forN n g fun i h => h.setV (r + i) lane (f i)).vreg j l = if r ≤ j ∧ j < r + n ∧ l = lane then f (j - r) else g.vreg j l := by
  induction n with
  | zero => rw [if_neg (by omega)]; rfl
  | succ n ih =>
    rw [forN_succ, GroupSt.vreg_setV, ih]
    by_cases last : j = r + n ∧ l = lane
    · obtain ⟨rfl, rfl⟩ := last
      rw [if_pos rfl, if_pos (by omega), Nat.add_sub_cancel_left]
    · rw [if_neg (by omega)]
      exact ite_congr (propext (by omega)) (fun _ => rfl) fun _ => rfl

theorem sregAt_forN_setS (g : GroupSt) (n r : Nat) (f : Nat → BitVec 64) (j : Nat) :
    (forN n g fun i h => h.setS (r + i) (f i)).sregAt j = if r ≤ j ∧ j < r + n ∧ j ≠ 0 then f (j - r) else g.sregAt j := by
  induction n with
  | zero => rw [if_neg (by omega)]; rfl
  | succ n ih =>
    rw [forN_succ, GroupSt.sregAt_setS, ih]
    by_cases last : j = r + n ∧ j ≠ 0
    · obtain ⟨rfl, nz⟩ := last
      rw [if_pos ⟨rfl, nz⟩, if_pos (by omega), Nat.add_sub_cancel_left]
    · rw [if_neg last]
      exact ite_congr (propext (by omega)) (fun _ => rfl) fun _ => rfl

/-- What a part's data leave in the registers of its group (R189, R212). -/
theorem landed_putData (g : GroupSt) (sext : Bool) (p : AccPart) (v : Nat) (lane : p.reg < 128 → p.lane < 32) :
    landed g (g.putData p.reg p.lane p.size v sext) sext p v := by
  unfold landed GroupSt.putData
  by_cases scalar : 128 ≤ p.reg
  · simp only [scalar, if_true]
    refine ⟨?_, ?_, ?_, ?_, fun j => sregAt_forN_setS ..⟩
    · exact forN_keeps GroupSt.stack _ _ _ fun _ _ => GroupSt.setS_stack ..
    · exact forN_keeps GroupSt.tk _ _ _ fun _ _ => GroupSt.setS_tk ..
    · exact forN_keeps GroupSt.chain _ _ _ fun _ _ => GroupSt.setS_chain ..
    · exact forN_keeps GroupSt.v _ _ _ fun _ _ => GroupSt.setS_v ..
  · simp only [scalar, if_false]
    refine ⟨?_, ?_, ?_, ?_, fun j l hl => vreg_forN_setV _ _ _ _ _ hl (lane (by omega))⟩
    · exact forN_keeps GroupSt.stack _ _ _ fun _ _ => rfl
    · exact forN_keeps GroupSt.tk _ _ _ fun _ _ => rfl
    · exact forN_keeps GroupSt.chain _ _ _ fun _ _ => rfl
    · exact forN_keeps GroupSt.sreg _ _ _ fun _ _ => rfl

/-! Accesses of a core. -/

theorem id_of_access {k : CoreSt} {id : Nat} {a : Access} (h : k.access id = some a) : a.id = id := by
  simpa using List.find?_some h

/-- An access that was dropped is over. -/
theorem access_dropAccess (s : State) (core id : Nat) : ((s.dropAccess core id).core core).access id = none := by
  simp [State.dropAccess, CoreSt.access]

/-- An access that was changed. -/
theorem access_modAccess {s : State} {core id : Nat} {a : Access} {f : Access → Access} (keep : ∀ x, (f x).id = x.id)
    (h : (s.core core).access id = some a) : ((s.modAccess core id f).core core).access id = some (f a) := by
  have same : (fun x : Access => (if x.id = id then f x else x).id == id) = fun x => x.id == id := by
    funext x; split <;> simp [keep]
  have found := List.find?_map (f := fun x : Access => if x.id = id then f x else x) (p := fun x => x.id == id)
    (l := (s.core core).acc)
  rw [State.modAccess, State.core_modCore, CoreSt.access, found]
  rw [show ((fun x : Access => x.id == id) ∘ fun x => if x.id = id then f x else x) = fun x => x.id == id from same]
  rw [show (s.core core).acc.find? (fun x => x.id == id) = some a from h]
  simp [id_of_access h]

section
variable {s u : State} {core id : Nat} {a : Access} {p : AccPart} {k : KernSt} (one : a.parts = [p])
  (running : k.launch = a.launch) (member : a.group < k.nGroups) (lane : p.reg < 128 → p.lane < 32)
include one running member lane

/-- The one value of an access reaches its register, and the access is over. -/
theorem returnAccess_lands (v : Nat) (kern : s.kern core = some k) :
    ∃ h, (s.returnAccess core a [v]).group ⟨core, a.group⟩ = some h ∧ landed (tget k.groups {} a.group) h a.sext p v ∧
      ((s.returnAccess core a [v]).core core).access a.id = none ∧ (s.returnAccess core a [v]).mem = s.mem := by
  have kern' : (s.dropAccess core a.id).kern core = some k := by
    rw [← kern]; simp [State.kern, State.dropAccess]
  refine ⟨_, ?_, landed_putData _ a.sext p v lane, ?_, (State.returnAccess_frame s core a [v]).frame .mem (by decide)⟩
  · simp only [State.returnAccess, kern', running, if_true, State.group, State.kern_modKern _ kern', member, tmod,
      tget_tset_self, one]
    rfl
  · simp only [State.returnAccess, kern', running, if_true]
    rw [CoreSt.access, core_modKern_keeps CoreSt.acc (fun _ _ => rfl)]
    exact access_dropAccess s core a.id

end

/-! A part in the bytes of its line. -/

theorem Store.read_drop_take (st : Store) {a m n : Nat} {k : Nat} (h : k + n ≤ m) :
    ((st.read a m).drop k).take n = st.read (a + k) n := by
  refine List.ext_getElem (by simp [Store.read]; omega) fun i _ _ => ?_
  simp [Store.read, Nat.add_assoc]

/-- A part read from its line is the part in memory. -/
theorem partIn_read (st : Store) {p : AccPart} {line : Nat} (at' : p.addr / 64 = line) (fits : p.addr % 64 + p.size ≤ 64) :
    partIn (st.read (line * 64) 64) p = st.num p.addr p.size := by
  rw [partIn, leAt, Store.read_drop_take _ fits, Store.num]
  congr 2
  omega

/-! Loads at their homes. -/

/-- Stacked and shared memory are no control pages. -/
theorem regionOf_of_cacheable {pa : Nat} (h : cacheable pa = true) (d off : Nat) : regionOf pa ≠ .control d off := by
  intro e
  simp [cacheable, e] at h

theorem homeLoad_memory (s : State) (core victim : Nat) (a : Access) (mem : cacheable (a.line * 64) = true) :
    (s.homeLoad core a victim).2 = a.parts.map (partIn (s.mem.read (a.line * 64) 64)) ∧
      (s.homeLoad core a victim).1.kern core = s.kern core ∧ (s.homeLoad core a victim).1.mem = s.mem := by
  have reads := (State.poisonReads_frame s (some (s.coreBerth core)) core (a.line * 64) 64).frame
  have cores := reads .cores (by decide)
  unfold State.homeLoad
  split
  · exact absurd ‹_› (regionOf_of_cacheable mem _ _)
  · refine ⟨rfl, ?_, ?_⟩
    · simp only
      split
      · simp only [State.kern, State.core, show _ = _ from cores]
      · rw [State.kern, State.core_modCore, show ∀ k d, (fillL1 k a d victim).kern = k.kern from fun k d => by
          unfold fillL1; simp only; split <;> rfl]
        simp only [State.kern, State.core, show _ = _ from cores]
    · simp only
      split
      · exact reads .mem (by decide)
      · exact reads .mem (by decide)

theorem accessesReturn : AccessesReturn := fun s core id victim a p k found one kern running member lane => by
  have hid := id_of_access found
  refine ⟨fun v load done => ?_, fun v atomic done => ?_, fun load open' here first mem at' fits => ?_⟩
  · obtain ⟨h, grp, lands, ended, kept⟩ := returnAccess_lands one running member lane v kern
    refine ⟨_, h, congrArg Host.Outcome.next ?_, grp, lands, hid ▸ ended, kept⟩
    simp [found, load, done]
  · obtain ⟨h, grp, lands, ended, kept⟩ := returnAccess_lands one running member lane v kern
    refine ⟨_, h, congrArg Host.Outcome.next ?_, grp, lands, hid ▸ ended, kept⟩
    simp [found, atomic, done]
  · obtain ⟨vals, kern', mem'⟩ := homeLoad_memory s core victim a mem
    rw [one, List.map_singleton, partIn_read _ at' fits] at vals
    obtain ⟨h, grp, lands, ended, kept⟩ := returnAccess_lands one running member lane (s.mem.num p.addr p.size) (kern'.trans kern)
    refine ⟨_, h, congrArg Host.Outcome.next ?_, grp, lands, hid ▸ ended, kept.trans mem'⟩
    simp [found, load, open', here, first, vals]

/-! Stores and atomics at their homes. -/

theorem State.berthEvent_mem (s : State) (b code a0 a1 : Nat) (pl : Bytes) : (s.berthEvent b code a0 a1 pl).mem = s.mem :=
  (State.berthEvent_frame s b code a0 a1 pl).frame .mem (by decide)

/-- What memory holds after bytes are written at their homes: the discarded pieces' reports leave it alone. -/
@[simp] theorem State.memWrite_mem (s : State) (pa : Nat) (bs : Bytes) (marked : Bool) :
    (s.memWrite pa bs marked).mem = s.mem.write pa bs marked :=
  forL_keeps State.mem _ _ _ fun _ _ => forL_keeps State.mem _ _ _ fun _ _ => State.berthEvent_mem ..

theorem State.wcbNote_mem (s : State) (pa n : Nat) (add : Bool) : (s.wcbNote pa n add).mem = s.mem :=
  (State.wcbNote_frame s pa n add).frame .mem (by decide)

theorem State.count_mem (s : State) (b i n : Nat) : (s.count b i n).mem = s.mem :=
  (State.count_frame s b i n).frame .mem (by decide)

/-- A store to stacked or shared memory, performed at its home. -/
theorem performPart_store {s : State} {core b : Nat} {a : Access} {p : AccPart} (mem : cacheable p.addr = true)
    (store : a.kind = .store) :
    (s.performPart core b a p).1.mem = s.mem.write p.addr (leBytes p.size p.d0) false := by
  unfold State.performPart
  split
  · exact absurd ‹_› (regionOf_of_cacheable mem _ _)
  · simp only [store, State.homeStore, State.wcbNote_mem, State.memWrite_mem]

/-- What an add leaves at an unmarked line, and the value it found (R262). -/
theorem homeAdd_unmarked {s : State} (berth : Option Nat) (reader : Nat) {pa : Nat} (op : AddOp) (clean : s.mem.marked pa = false) :
    (s.homeAdd berth reader pa op).1.mem = s.mem.write pa (leBytes op.bytes (op.f (s.mem.num pa op.bytes))) false ∧
      (s.homeAdd berth reader pa op).2 = s.mem.num pa op.bytes := by
  unfold State.homeAdd
  rw [if_neg (by simp [clean])]
  refine ⟨?_, rfl⟩
  simp only
  split
  · split
    · rw [State.count_mem, State.wcbNote_mem]
    · rw [State.wcbNote_mem]
  · rw [State.wcbNote_mem]

/-- The bytes of an atomic's element. -/
theorem atomicOp_bytes {aop n xfmt a b : Nat} (size : n = if aop = 0xA then 4 else if aop = 0xB then 16 else n) :
    (atomicOp aop n xfmt a b).bytes = n := by
  unfold atomicOp
  split
  · rw [size, if_pos ‹_›]; rfl
  · split
    · rw [size, if_neg ‹_›, if_pos ‹_›]; rfl
    · rfl

/-- An atomic to stacked or shared memory, performed at its home: the value left, and the value found. -/
theorem performPart_atomic {s : State} {core b : Nat} {a : Access} {p : AccPart} (mem : cacheable p.addr = true)
    (clean : s.mem.marked p.addr = false) (atomic : a.kind = .atomic)
    (size : p.size = if a.aop = 0xA then 4 else if a.aop = 0xB then 16 else p.size) (h0 : p.d0 < 2 ^ (8 * p.size))
    (h1 : p.d1 < 2 ^ (8 * p.size)) (known : a.aop ≤ 0xB) :
    (s.performPart core b a p).1.mem = s.mem.write p.addr
        (leBytes p.size (aopValue a.aop p.size a.xfmt (s.mem.num p.addr p.size) p.d0 p.d1)) false ∧
      (s.performPart core b a p).2 = s.mem.num p.addr p.size := by
  unfold State.performPart
  split
  · exact absurd ‹_› (regionOf_of_cacheable mem _ _)
  · obtain ⟨left, found⟩ := homeAdd_unmarked (some b) core (atomicOp a.aop p.size a.xfmt p.d0 p.d1) clean
    rw [atomicOp_bytes size] at left found
    rw [atomicOp_eq known (Store.num_lt ..) (fun _ => h0) (fun _ => h1)] at left
    simp only [atomic]
    exact ⟨left, found⟩

theorem State.performPart_cores (s : State) (core b : Nat) (a : Access) (p : AccPart) (mem : cacheable p.addr = true) :
    (s.performPart core b a p).1.cores = s.cores := by
  unfold State.performPart
  split
  · exact absurd ‹_› (regionOf_of_cacheable mem _ _)
  · cases a.kind with
    | store => exact (State.homeStore_frame _ _ _ _).frame .cores (by decide)
    | load => exact (State.homeAdd_frame _ _ _ _ _).frame .cores (by decide)
    | atomic => exact (State.homeAdd_frame _ _ _ _ _).frame .cores (by decide)

section
variable {s : State} {core id : Nat} {a : Access} {p : AccPart} (found : (s.core core).access id = some a)
include found

/-- An access of one part performed at its home. -/
theorem exec_homeAccept (one : a.parts = [p]) (kind : a.kind ≠ .load) (open' : a.done = none) (here : a.node = none)
    (first : (s.core core).behind a = false) (room : s.homeRoom (a.line * 64) = true) (mem : cacheable p.addr = true) :
    ∃ r, r = s.performPart core ((tfind s.launches a.launch).elim (s.coreBerth core) fun l => l.berth) a p ∧
      exec (.homeAccept core id) s = .next (if a.kind = .atomic ∧ a.ret = true
        then r.1.modAccess core a.id fun x => { x with done := some [r.2] } else r.1.dropAccess core a.id) ∧
      (r.1.core core).access id = some a := by
  refine ⟨_, rfl, congrArg Host.Outcome.next ?_, ?_⟩
  · simp only [found, kind, open', here, first, room, Option.isSome_none, Bool.false_eq_true, Bool.true_eq_false, or_self, if_false,
      State.perform, one, List.foldl_cons, List.foldl_nil, List.nil_append]
  · rw [← found, State.core, State.performPart_cores _ _ _ _ _ mem]
    rfl

end

theorem homesPerformAccesses : HomesPerformAccesses := fun s core id a p found one open' here first room mem clean => by
  have hid := id_of_access found
  refine ⟨fun store fits => ?_, fun atomic size h0 h1 known => ?_⟩
  · obtain ⟨r, hr, run, -⟩ := exec_homeAccept found one (by simp [store]) open' here first room mem
    rw [if_neg (by simp [store])] at run
    exact ⟨_, run, (congrArg (fun r : State × Nat => r.1.mem) hr).trans (performPart_store mem store),
      hid ▸ access_dropAccess ..⟩
  · obtain ⟨r, hr, run, kept⟩ := exec_homeAccept found one (by simp [atomic]) open' here first room mem
    obtain ⟨left, value⟩ := performPart_atomic (core := core)
      (b := (tfind s.launches a.launch).elim (s.coreBerth core) fun l => l.berth) mem clean atomic size h0 h1 known
    rw [← hr] at left value
    refine ⟨_, run, ?_, ?_⟩
    · split <;> exact left
    · by_cases ret : a.ret = true
      · rw [if_pos ret, if_pos ⟨atomic, ret⟩, ← value]
        rw [← hid] at kept ⊢
        exact access_modAccess (f := fun x => { x with done := some [r.2] }) (fun _ => rfl) kept
      · rw [if_neg ret, if_neg fun h => ret h.2]
        exact hid ▸ access_dropAccess ..

/-- Settles O6: data land in their registers alone, and an accepted store or atomic is one write of memory. -/
theorem accessesArePerformedAndReturn : Obligations.AccessesArePerformedAndReturn := ⟨accessesReturn, homesPerformAccesses⟩

end Sys2Proof.Machine
end

section
/-!
Vector operations: issue, start, completion, and the results of the integer operations (06 R160-R167, R182, R183).
-/

namespace Sys2Proof.Machine

/-! Issue. -/

theorem opc_vowOf (w0 w1 : Nat) : (vowOf w0 w1).opc = w0 % 256 := by simp [vowOf, bitsOf]

/-- A completion counter that an issue raises and a completion lowers (R197). -/
theorem tkAfter_inc (g : GroupSt) (tk : Nat) : tkAfter g (g.tkInc tk) tk 1 := fun j => by
  unfold GroupSt.tkInc GroupSt.counter
  split
  · rename_i e; subst e; exact tget_tset_self ..
  · rename_i e; exact tget_tset_other _ _ _ e

theorem tkAfter_dec (g : GroupSt) (tk : Nat) : tkAfter g (g.tkDec tk) tk 255 := fun j => by
  unfold GroupSt.tkDec GroupSt.counter
  split
  · rename_i e; subst e; exact tget_tset_self ..
  · rename_i e; exact tget_tset_other _ _ _ e

/-- The entry of the vector queue that an issued operation becomes. -/
def vissEntry (s : State) (t : At) (i : Issue) (w0 w1 : BitVec 64) (tk : BitVec 3) : VqEnt :=
  { id := (s.core t.core).nextId, group := t.group, launch := i.k.launch, tk := tk.toNat, pc := i.cur.pc,
    lanes := i.cur.mask, w0 := BitVec.ofNat 64 w0.toNat, w1 := BitVec.ofNat 64 w1.toNat, maps := (s.berth i.k.berth).maps,
    record := if (vowOf w0.toNat w1.toNat).opc = 0x7F then
      (s.core t.core).lm.read (vowOf w0.toNat w1.toNat).imm 32 else [] }

theorem viss_runs {c : At → BitVec 8 → BitVec 8 → BitVec 3 → Instr} {opc : Nat}
    (run : ∀ t a b tk s, exec (c t a b tk) s = .next (s.viss t opc a b tk)) : VissRuns c opc :=
  fun s t a b tk i ha hb ready word => by
  have operands : (scalarOk a && scalarOk b) = true := by simp [scalarOk, ha, hb]
  have srcA : i.g.srcS a = (srcScalar i.g a).toNat := srcS_eq_srcScalar (.inl (by simpa [isScalar] using ha))
  have srcB : i.g.srcS b = (srcScalar i.g b).toNat := srcS_eq_srcScalar (.inl (by simpa [isScalar] using hb))
  have named : (vowOf (srcScalar i.g a).toNat (srcScalar i.g b).toNat).opc = opc := (opc_vowOf ..).trans word
  rw [run, State.viss, if_pos operands, State.issue_ready _ ready]
  simp only [srcA, srcB]
  refine ⟨fun full => by rw [if_pos (.inr full)], fun room => ?_⟩
  rw [if_neg (by simp [named]; omega)]
  refine ⟨fun code r bad => ?_, fun valid inside => ?_⟩
  · simp only [bad, List.head?_cons]
    exact ⟨_, rfl, stoppedWith_abortGroup _ _ _ _ _ (kern_of_ready ready)⟩
  · simp only [valid, List.head?_nil, State.next_in inside]
    have grp : (s.setCore t.core { s.core t.core with
        vq := (s.core t.core).vq ++ [vissEntry s t i (srcScalar i.g a) (srcScalar i.g b) tk],
        nextId := (s.core t.core).nextId + 1 }).group t = some i.g := by
      rw [State.group_of_kern (s := s), group_of_ready ready]
      simp [State.kern]
    refine ⟨_, i.at (i.cur.pc + 8) (i.g.tkInc tk.toNat), vissEntry s t i (srcScalar i.g a) (srcScalar i.g b) tk, rfl,
      State.group_setGroup _ grp, rfl, rfl, rfl, tkAfter_inc i.g tk.toNat, ?_, by simp [vissEntry], by simp [vissEntry], rfl, rfl, rfl, rfl,
      ?_, ?_, ?_⟩
    · exact (core_modKern_keeps CoreSt.vq (fun _ _ => rfl) ..).trans (by rw [State.core_setCore]; rfl)
    · exact (core_modKern_keeps CoreSt.vr (fun _ _ => rfl) ..).trans (by rw [State.core_setCore])
    · exact (core_modKern_keeps CoreSt.lm (fun _ _ => rfl) ..).trans (by rw [State.core_setCore])
    · exact modKern_mem ..

theorem vectorOperationsIssue : VectorOperationsIssue := by
  unfold VectorOperationsIssue vectorTable
  repeat refine List.forall_mem_cons.mpr ⟨viss_runs fun _ _ _ _ _ => rfl, ?_⟩
  nofun

/-! What a repetition leaves of its core. -/

/-- A reading of a core that its rows, their marks and its amax registers play no part in. -/
def RowFree {β : Type} (p : CoreSt → β) : Prop :=
  ∀ (k : CoreSt) vr vm c cm am, p { k with vr := vr, vrMark := vm, cache := c, cacheMark := cm, amax := am } = p k

section
variable {β : Type} {p : CoreSt → β} (free : RowFree p)
include free

theorem putRow_rowFree (k : CoreSt) (x : VSel) (r : Row) (m : BitVec 16) : p (putRow k x r m) = p k := by
  unfold putRow
  split
  · exact free k k.vr k.vrMark _ _ k.amax
  · exact free k _ _ k.cache k.cacheMark k.amax

theorem putEls_rowFree (k : CoreSt) (x : VSel) (w lo : Nat) (es : List VEl) : p (putEls k x w lo es) = p k := by
  unfold putEls
  exact putRow_rowFree free ..

theorem amxAll_rowFree (v : Vow) (k : CoreSt) (vs : List Val) : p (amxAll v k vs) = p k := by
  unfold amxAll
  split
  · exact foldl_keeps (g := p) (fun k _ => free k k.vr k.vrMark k.cache k.cacheMark _) _ _
  · rfl

theorem floatRep_rowFree (v : Vow) (a : VAcc) (j : Nat) : p (floatRep v a j).core = p a.core := by
  unfold floatRep
  simp only
  split
  · exact (amxAll_rowFree free ..).trans (putEls_rowFree free ..)
  · split
    · exact putEls_rowFree free ..
    · split <;> exact putEls_rowFree free ..

theorem gaccRep_rowFree (v : Vow) (a : VAcc) (j : Nat) : p (gaccRep v a j).core = p a.core := by
  unfold gaccRep
  exact foldl_keeps (g := fun x : VAcc => p x.core) (fun _ _ => putEls_rowFree free ..) _ _

theorem bitRep_rowFree (v : Vow) (a : VAcc) (j : Nat) : p (bitRep v a j).core = p a.core := by
  unfold bitRep
  exact putEls_rowFree free ..

/-- A repetition of an operation up to opcode 0x24 leaves everything but rows and amax registers. -/
theorem vRep_rowFree {v : Vow} (small : v.opc ≤ 0x24) (a : VAcc) (j : Nat) : p (vRep v a j).core = p a.core := by
  unfold vRep
  split
  · exact floatRep_rowFree free ..
  · split
    · exact gaccRep_rowFree free ..
    all_goals first | omega | exact bitRep_rowFree free ..

theorem vReps_rowFree {v : Vow} (small : v.opc ≤ 0x24) (a : VAcc) (n : Nat) :
    p ((List.range n).foldl (vRep v) a).core = p a.core :=
  foldl_keeps (g := fun x : VAcc => p x.core) (fun _ _ => vRep_rowFree free small ..) _ _

end

/-! Start and completion. -/

/-- A launch stopped by a fault, in a state that differs from another in neither its launches nor its berths. -/
theorem stoppedWith_abortLaunch {s v : State} {k : KernSt} (f : FaultRec) (launches : v.launches = s.launches)
    (berths : v.berths = s.berths) : StoppedWith s (v.abortLaunch k.launch f) k f := fun l running live => by
  have running' : tfind v.launches k.launch = some l := launches ▸ running
  refine ⟨_, by rw [State.abortLaunch_launches _ running' live, tfind_tset_self], rfl, rfl, ?_⟩
  simp only [State.berth, berths]

/-- A completion signalled to a group of the running kernel. -/
theorem State.signal_running {s : State} {c group tk : Nat} {k : KernSt} (kern : s.kern c = some k) :
    s.signal c k.launch group tk =
      s.modKern c fun k => { k with groups := tset k.groups group ((tget k.groups {} group).tkDec tk) } := by
  simp only [State.signal, kern, if_true]

/-- What a signalled completion leaves of its core: everything but the kernel. -/
theorem core_signal_keeps {β : Type} (p : CoreSt → β) (h : ∀ k x, p { k with kern := x } = p k) (s : State)
    (c d launch group tk : Nat) : p ((s.signal c launch group tk).core d) = p (s.core d) := by
  unfold State.signal
  split
  · rfl
  · split
    · exact core_modKern_keeps p h ..
    · rfl

/-- A row operation run over all its rows in a core. -/
def rowsRun (k : CoreSt) (e : VqEnt) : VAcc :=
  (List.range (vopRows e)).foldl (vRep (vowOf e.w0.toNat e.w1.toNat)) { core := k }

/-- An operation up to opcode 0x24 is a row operation: it changes its core and counts what is not finite. -/
theorem vopAll_small {s : State} {core b : Nat} {e : VqEnt} (low : 1 ≤ e.w0.toNat % 256) (high : e.w0.toNat % 256 ≤ 0x24) :
    s.vopAll core b e =
      ((s.setCore core (rowsRun (s.core core) e).core).count b 1 (rowsRun (s.core core) e).nf, false) := by
  have opc := opc_vowOf e.w0.toNat e.w1.toNat
  have word : bitsOf e.w0.toNat 7 0 = e.w0.toNat % 256 := by simp [bitsOf]
  rw [State.vopAll, word]
  simp only [if_neg (show e.w0.toNat % 256 ≠ 0x58 by omega), if_neg (show e.w0.toNat % 256 ≠ 0x7F by omega)]
  unfold State.vopRun
  simp only
  split
  all_goals first | omega | rfl

/-- The state and flag of an operation run to its end, and the state in which it has left the queue. -/
def vopRan (s : State) (core : Nat) (e : VqEnt) : State × Bool :=
  (s.nextFree.modCore core fun x => { x with residues := x.residues + 0 }).vopAll core (s.coreBerth core) e

def vopLeft (s : State) (core : Nat) (e : VqEnt) : State :=
  (vopRan s core e).1.modCore core fun x => { x with vq := x.vq.filter fun y => y.id != e.id }

section
variable {s : State} {core id : Nat} {e : VqEnt} (only : ∀ x ∈ (s.core core).vq, x.id = id → x = e) (mem : e ∈ (s.core core).vq)
  (hid : e.id = id)
include only mem hid

/-- The entry with a number is found by a test that it passes. -/
theorem find_vq {p : VqEnt → Bool} (pass : p e = true) : ((s.core core).vq.find? fun x => x.id == id && p x) = some e := by
  cases found : (s.core core).vq.find? fun x => x.id == id && p x with
  | none =>
    have := List.find?_eq_none.mp found e mem
    simp [hid, pass] at this
  | some x =>
    have passed := List.find?_some found
    simp only [Bool.and_eq_true, beq_iff_eq] at passed
    rw [only x (List.mem_of_find?_eq_some found) passed.1]

/-- `VECTOR_OP_START` of an operation that waits (R160, R180, R183). -/
theorem exec_vectorOpStart (waits : e.started = false) : exec (.vectorOpStart core id) s = .next (
    if vopCanStart (s.core core).vq e then
      if e.w0.toNat % 256 = 0x61 ∧ kselOk (kselOf (s.core core) (vowOf e.w0.toNat e.w1.toNat)) = false then
        s.abortLaunch e.launch { code := 0x0282, core := core, group := e.group, pc := e.pc, lanes := e.lanes.toNat,
                                 info := e.w0.toNat }
      else s.setCore core { s.core core with vq := (s.core core).vq.map fun x => if x.id = id then { x with started := true } else x }
    else s) := by
  refine congrArg Host.Outcome.next ?_
  have found := find_vq only mem hid (p := fun x => !x.started) (by simp [waits])
  simp only [found, opc_vowOf]

/-- `VECTOR_OP_COMPLETE` of an operation that runs: its last result is written, and it leaves the queue (R162). -/
theorem exec_vectorOpComplete (runs : e.started = true) : exec (.vectorOpComplete core id 0) s = .next (
    if (vopRan s core e).2 then (vopLeft s core e).abortLaunch e.launch
      { code := 0x0280, core := core, group := e.group, pc := e.pc, lanes := e.lanes.toNat, info := e.w0.toNat }
    else (vopLeft s core e).signal core e.launch e.group e.tk) := by
  refine congrArg Host.Outcome.next ?_
  have found := find_vq only mem hid (p := fun x => x.started) runs
  simp only [found, vopLeft, hid]
  rfl

end

/-- What an operation up to opcode 0x24 leaves, before its completion is signalled. -/
theorem vop_done {s : State} {core : Nat} {e : VqEnt} (low : 1 ≤ e.w0.toNat % 256) (high : e.w0.toNat % 256 ≤ 0x24) :
    (vopRan s core e).2 = false ∧ (vopLeft s core e).kern core = s.kern core ∧
      ((vopLeft s core e).core core).vq = (s.core core).vq.filter (fun x => x.id != e.id) ∧ (vopLeft s core e).mem = s.mem ∧
      ((vopLeft s core e).core core).lm = (s.core core).lm ∧
      ((vopLeft s core e).core core).vr = (rowsRun (s.core core) e).core.vr := by
  have small : (vowOf e.w0.toNat e.w1.toNat).opc ≤ 0x24 := by rw [opc_vowOf]; exact high
  have counted : ∀ (v : State) b n k, ((v.setCore core k).count b 1 n).core core = k := fun v b n k => by
    have := (State.count_frame (v.setCore core k) b 1 n).frame .cores (by decide)
    rw [State.core, show _ = _ from this]
    exact State.core_setCore ..
  simp only [vopLeft, vopRan, vopAll_small low high, State.kern, State.core_modCore, counted, true_and]
  refine ⟨?_, ?_, State.count_mem .., ?_, rfl⟩
  · exact vReps_rowFree (p := CoreSt.kern) (fun _ _ _ _ _ _ => rfl) small ..
  · exact congrArg _ (vReps_rowFree (p := CoreSt.vq) (fun _ _ _ _ _ _ => rfl) small ..)
  · exact vReps_rowFree (p := CoreSt.lm) (fun _ _ _ _ _ _ => rfl) small ..

theorem vectorOperationsStartAndComplete : VectorOperationsStartAndComplete :=
  fun s core id e k kern launch only mem hid => by
  refine ⟨fun waits free valid => ?_, fun waits free opc bad => ?_, fun waits blocked => ?_, fun runs low high member => ?_,
    fun n twice runs => ?_⟩
  · have run := exec_vectorOpStart only mem hid waits
    rw [if_pos free, if_neg fun h => by simp [valid h.1] at h] at run
    refine ⟨_, run, ?_, rfl, by rw [State.core_setCore]⟩
    rw [State.core_setCore]
    refine List.map_congr_left fun x hx => ?_
    by_cases named : x.id = id
    · simp only [only x hx named]
    · simp only [if_neg named]
  · have run := exec_vectorOpStart only mem hid waits
    rw [if_pos free, if_pos ⟨opc, bad⟩] at run
    exact ⟨_, run, launch ▸ stoppedWith_abortLaunch _ rfl rfl⟩
  · have run := exec_vectorOpStart only mem hid waits
    rwa [if_neg (by simp [blocked])] at run
  · obtain ⟨clear, ukern, uvq, umem, ulm, -⟩ := vop_done (s := s) (core := core) (e := e) (by omega) high
    rw [kern] at ukern
    have run := exec_vectorOpComplete only mem hid runs
    rw [if_neg (by simp [clear]), ← launch, State.signal_running ukern] at run
    refine ⟨_, (tget k.groups {} e.group).tkDec e.tk, run, ?_, ?_, tkAfter_dec _ _, ?_, ?_⟩
    · rw [← hid, ← uvq]; exact core_modKern_keeps CoreSt.vq (fun _ _ => rfl) ..
    · simp only [State.group, State.kern_modKern _ ukern, member, if_true, tget_tset_self]
    · rw [modKern_mem, umem]
    · rw [core_modKern_lm, ulm]
  · have found := find_vq only mem hid (p := fun x => x.started) runs
    have run : exec (.vectorOpComplete core id n) s = .next _ := congrArg Host.Outcome.next (by
      simp only [found, if_neg (Nat.not_lt.mpr twice)]; rfl)
    refine ⟨_, run, ?_, launch ▸ stoppedWith_abortLaunch _ rfl rfl⟩
    exact congrArg DefectSt.subst ((State.abortLaunch_frame _ _ _).frame .defects (by decide))

/-- Settles O7: a row operation changes rows and amax registers of its core alone, so its completion is one signal. -/
theorem vectorOperationsRun : Obligations.VectorOperationsRun := ⟨vectorOperationsIssue, vectorOperationsStartAndComplete⟩

end Sys2Proof.Machine
end

section
/-!
Results of the integer and bit operations of the vector engine (06 R153, R156, R163, R166).
-/

namespace Sys2Proof.Machine

/-! Rows as digits. -/

/-- The bits that an element is written with. -/
def VEl.digit (w : Nat) (x : VEl) : Nat := if x.bad then 2 ^ w - 1 else x.bits % 2 ^ w

theorem VEl.digit_lt (w : Nat) (x : VEl) : x.digit w < 2 ^ w := by
  have := Nat.two_pow_pos w
  unfold VEl.digit
  split
  · omega
  · exact Nat.mod_lt _ this

/-- Elements as a number, the first lowest. -/
def elsNum (w : Nat) : List VEl → Nat
  | [] => 0
  | x :: r => x.digit w + 2 ^ w * elsNum w r

theorem elsNum_lt (w : Nat) (l : List VEl) : elsNum w l < 2 ^ (w * l.length) := by
  induction l with
  | nil => simp [elsNum]
  | cons x r ih =>
    have low := x.digit_lt w
    have step : 2 ^ w * (elsNum w r + 1) ≤ 2 ^ w * 2 ^ (w * r.length) := Nat.mul_le_mul_left _ ih
    rw [List.length_cons, Nat.mul_add, Nat.mul_one, Nat.add_comm, Nat.pow_add]
    rw [Nat.mul_add] at step
    simp only [elsNum]
    omega

/-- The sum by which a run of elements is written (R156). -/
theorem foldl_zipIdx_eq (w : Nat) (l : List VEl) (k acc : Nat) :
    (l.zipIdx k).foldl (fun a p => a + (if p.1.bad then 2 ^ w - 1 else p.1.bits % 2 ^ w) * 2 ^ (w * p.2)) acc =
      acc + elsNum w l * 2 ^ (w * k) := by
  induction l generalizing k acc with
  | nil => simp [elsNum]
  | cons x r ih =>
    have power : 2 ^ (w * (k + 1)) = 2 ^ w * 2 ^ (w * k) := by rw [Nat.mul_add, Nat.mul_one, Nat.add_comm, Nat.pow_add]
    rw [List.zipIdx_cons, List.foldl_cons, ih, power, elsNum, VEl.digit, Nat.add_mul, Nat.add_assoc]
    congr 2
    rw [← Nat.mul_assoc, Nat.mul_comm (elsNum w r)]

theorem elsNum_div_mod (w : Nat) {l : List VEl} {i : Nat} (h : i < l.length) :
    elsNum w l / 2 ^ (w * i) % 2 ^ w = l[i].digit w := by
  induction l generalizing i with
  | nil => cases h
  | cons x r ih =>
    have low := x.digit_lt w
    cases i with
    | zero => simp [elsNum, Nat.mod_eq_of_lt low]
    | succ i =>
      rw [show w * (i + 1) = w + w * i by rw [Nat.mul_add, Nat.mul_one, Nat.add_comm], Nat.pow_add, ← Nat.div_div_eq_div_mul]
      rw [elsNum, Nat.add_mul_div_left _ _ (Nat.two_pow_pos w), Nat.div_eq_of_lt low, Nat.zero_add]
      exact ih (Nat.lt_of_succ_lt_succ h)

/-- A write of all elements of a row leaves nothing of it. -/
theorem and_hole_full (x n : Nat) : x &&& (2 ^ n - 1 - (2 ^ n - 1) % 2 ^ n) = 0 := by
  have := Nat.two_pow_pos n
  rw [Nat.mod_eq_of_lt (by omega), Nat.sub_self, Nat.and_zero]

/-- A register written with all its elements. -/
theorem putEls_register (k : CoreSt) (d w : Nat) {es : List VEl} (full : es.length * w = 8192) :
    (putEls k { cache := false, idx := d } w 0 es).vr = tset k.vr d (BitVec.ofNat 8192 (elsNum w es)) := by
  have number := foldl_zipIdx_eq w es 0 0
  unfold putEls putRow
  simp only [Bool.false_eq_true, if_false, full, number, Nat.mul_zero, and_hole_full, Nat.zero_add, Nat.pow_zero, Nat.mul_one]

/-- An element of 32 bits of a row written with 256 results. -/
theorem word32_elsNum (f : Nat → Nat) {i : Nat} (h : i < 256) (small : f i < 2 ^ 32) :
    (word32 (BitVec.ofNat 8192 (elsNum 32 ((List.range 256).map fun i => elOk (f i)))) i).toNat = f i := by
  generalize hes : (List.range 256).map (fun i => elOk (f i)) = es
  have length : es.length = 256 := by rw [← hes, List.length_map, List.length_range]
  have bound := elsNum_lt 32 es
  rw [length] at bound
  rw [word32, BitVec.extractLsb'_toNat, BitVec.toNat_ofNat, Nat.mod_eq_of_lt bound, Nat.shiftRight_eq_div_pow]
  rw [elsNum_div_mod 32 (length ▸ h)]
  subst hes
  rw [List.getElem_map, List.getElem_range, VEl.digit, elOk, if_neg nofun, Nat.mod_eq_of_lt small]

/-- An element of 32 bits of an unmarked row (R153). -/
theorem rowEl_unmarked (r : Row) (i : Nat) : rowEl (r, 0#16) 32 i = { bits := (word32 r i).toNat, bad := false } := by
  simp [rowEl, word32, Nat.shiftRight_eq_div_pow, Nat.mul_comm]

/-! The operations on their elements. -/

theorem intOp_eq (opc : Nat) (x y : BitVec 32) : intOp opc x.toNat y.toNat = (intWord opc x y).toNat := by
  unfold intOp
  simp only [BitVec.ofNat_toNat, BitVec.setWidth_eq]
  rfl

/-- A core whose registers carry no mark. -/
theorem coreRow_unmarked {k : CoreSt} (marks : k.vrMark = []) (i : Nat) :
    coreRow k { cache := false, idx := i } = (tget k.vr 0 i, 0#16) := by
  simp [coreRow, marks, tget]

/-- The register that an operand of a word names. -/
theorem rowAt_register {d : Nat} (small : d < 32) (g : VGeom) : rowAt (selOf d) g 0 0 = { cache := false, idx := d } := by
  simp [rowAt, selOf, show ¬ 256 ≤ d by omega, Nat.mod_eq_of_lt small]

section
variable {v : Vow} {k : CoreSt} {d a b : Nat} (hd : d < 32) (vd : v.d = d)
include hd vd

/-- `VBCAST` on one register (R163). -/
theorem bitRep_bcast (opc : v.opc = 0x09) : (bitRep v { core := k } 0).core.vr =
    tset k.vr d (BitVec.ofNat 8192 (elsNum 32 ((List.range 256).map fun _ => elOk v.imm))) := by
  rw [bitRep]
  simp only [opc, vd, rowAt_register hd, true_or, if_true]
  exact putEls_register _ _ _ (by rw [List.length_map, List.length_range]; rfl)

/-- An integer or bit operation on one register (R163). -/
theorem bitRep_int (ha : a < 32) (hb : b < 32) (va : v.a = a) (vb : v.b = b) (marks : k.vrMark = []) (low : 0x10 ≤ v.opc)
    (high : v.opc ≤ 0x1A) : (bitRep v { core := k } 0).core.vr =
    tset k.vr d (BitVec.ofNat 8192 (elsNum 32 ((List.range 256).map fun i =>
      elOk (intWord v.opc (word32 (tget k.vr 0 a) i) (word32 (tget k.vr 0 b) i)).toNat))) := by
  have width : (if v.opc = 9 ∨ 0x10 ≤ v.opc ∧ v.opc ≤ 0x1A then 32 else (moveWidth v.fmtS).getD 32) = 32 :=
    if_pos (.inr ⟨low, high⟩)
  rw [bitRep]
  simp only [width, srcRow, va, vb, vd, rowAt_register hd, rowAt_register ha, rowAt_register hb, coreRow_unmarked marks]
  split
  all_goals first | omega | skip
  refine (putEls_register _ _ _ ?_).trans (congrArg (fun l => tset k.vr d (BitVec.ofNat 8192 (elsNum 32 l))) ?_)
  · simp [rowEls, perRow]
  · rw [rowEls, rowEls, List.zip_map', List.map_map]
    refine List.map_congr_left fun i _ => ?_
    simp [rowEl_unmarked, intOp_eq, elOk]

end

/-! The completed operation. -/

/-- A word that names one repetition runs one row. -/
theorem rowsRun_one {k : CoreSt} {e : VqEnt} (high : e.w0.toNat % 256 ≤ 0x24) (one : bitsOf e.w0.toNat 59 52 = 0) :
    rowsRun k e = vRep (vowOf e.w0.toNat e.w1.toNat) { core := k } 0 := by
  have rows : vopRows e = 1 := by
    have opc := opc_vowOf e.w0.toNat e.w1.toNat
    simp only [vopRows]
    rw [if_neg (by omega), if_neg (by omega)]
    exact congrArg (· + 1) one
  simp [rowsRun, rows, List.range_succ]

/-- Every operation that is a bit operation by its opcode. -/
theorem vRep_bits {v : Vow} (bits : v.opc = 0x09 ∨ 0x10 ≤ v.opc ∧ v.opc ≤ 0x1A) (a : VAcc) (j : Nat) : vRep v a j = bitRep v a j := by
  unfold vRep
  rw [if_neg (by omega)]
  split
  all_goals first | omega | rfl

/-- An integer, bit or broadcast operation of one row, completed: its registers are those of its one repetition. -/
theorem complete_bits {s : State} {core id : Nat} {e : VqEnt} (alone : (s.core core).vq = [e]) (hid : e.id = id)
    (runs : e.started = true) (bits : e.w0.toNat % 256 = 0x09 ∨ 0x10 ≤ e.w0.toNat % 256 ∧ e.w0.toNat % 256 ≤ 0x1A)
    (one : bitsOf e.w0.toNat 59 52 = 0) :
    ∃ u, exec (.vectorOpComplete core id 0) s = .next u ∧ (u.core core).vr =
      (bitRep (vowOf e.w0.toNat e.w1.toNat) { core := s.core core } 0).core.vr := by
  obtain ⟨clear, -, -, -, -, vr⟩ := vop_done (s := s) (core := core) (e := e) (by omega) (by omega)
  have run := exec_vectorOpComplete (s := s) (core := core) (e := e) (id := id) (by simp [alone]) (by simp [alone]) hid runs
  rw [if_neg (by simp [clear])] at run
  refine ⟨_, run, (core_signal_keeps CoreSt.vr (fun _ _ => rfl) ..).trans (vr.trans ?_)⟩
  rw [rowsRun_one (by omega) one, vRep_bits (by rwa [opc_vowOf])]

/-- Settles O8: the row written is the number whose 32-bit digits are the results, so each element reads as its result. -/
theorem vectorIntegerResults : Obligations.VectorIntegerResults :=
  fun s core id e opc d a b alone hid runs hopc hd ha hb wd wa wb one marks => by
  have named : (vowOf e.w0.toNat e.w1.toNat).opc = opc := (opc_vowOf ..).trans hopc.symm
  by_cases bits : opc = 0x09 ∨ 0x10 ≤ opc ∧ opc ≤ 0x1A
  · obtain ⟨u, run, vr⟩ := complete_bits alone hid runs (hopc ▸ bits) one
    refine ⟨u, run, fun low high i hi => ?_, fun bcast i hi => ?_, fun _ j other => ?_⟩
    · rw [bitRep_int hd wd ha hb wa wb marks (named ▸ low) (named ▸ high), named] at vr
      rw [vr, tget_tset_self]
      refine BitVec.eq_of_toNat_eq ?_
      exact word32_elsNum _ hi (BitVec.isLt _)
    · rw [bitRep_bcast hd wd (named.trans bcast)] at vr
      rw [vr, tget_tset_self]
      refine BitVec.eq_of_toNat_eq ?_
      rw [word32_elsNum _ hi (by simp only [vowOf, bitsOf]; omega)]
      simp only [vowOf, bitsOf, BitVec.toNat_ofNat]
      omega
    · rcases bits with bcast | ⟨low, high⟩
      · rw [bitRep_bcast hd wd (named.trans bcast)] at vr
        rw [vr, tget_tset_other _ _ _ other]
      · rw [bitRep_int hd wd ha hb wa wb marks (named ▸ low) (named ▸ high)] at vr
        rw [vr, tget_tset_other _ _ _ other]
  · exact ⟨_, rfl, fun low high => absurd (.inr ⟨low, high⟩) bits, fun bcast => absurd (.inl bcast) bits, fun h => absurd h bits⟩

end Sys2Proof.Machine
end

section
/-!
Matrix instructions: issue, banks, rings and gather fills, completion (03 R75-R114, 04 R115-R136).
-/

namespace Sys2Proof.Machine

/-! Issue. -/

/-- A descriptor without masks, outside a chain, is not skipped (R109). -/
theorem descSkipped_unmasked {d : MDesc} (maskRec : Nat) (rows : d.rowMaskEn = false) (block : d.blkMaskEn = false) :
    descSkipped d maskRec none = false := by
  unfold descSkipped
  split
  · rfl
  · simp [rows, block]

section
variable {s : State} {t : At} {a : BitVec 8} {tk : BitVec 3} {i : Issue} {addr : Nat} (operand : a.getLsbD 7 = true)
  (ready : s.ready t [a.toNat] = some i) (address : addr = (srcScalar i.g a).toNat)
include operand ready address

/-- A ready `MISS` (R88, R199, R211). -/
theorem exec_miss : exec (.miss t a tk) s =
    .next (if 64 ≤ (s.core t.core).aq.length then s else s.enterArray t i addr tk.toNat) := by
  refine congrArg Host.Outcome.next ?_
  rw [if_pos (show scalarOk a = true by simpa [scalarOk] using operand), State.issue_ready _ ready,
    srcS_eq_srcScalar (.inl (by simpa [isScalar] using operand)), ← address]

end

/-- The entry of the array queue that an instruction becomes that is not skipped. -/
def aqEntry (s : State) (t : At) (i : Issue) (addr tk : Nat) : AqEnt :=
  let k := s.core t.core
  let d := descOf (descWords k.lm addr)
  { id := k.nextId, group := t.group, launch := i.k.launch, tk := tk, pc := i.cur.pc, lanes := i.cur.mask, descAddr := addr,
    words := descWords k.lm addr, maskRec := if d.rowMaskEn || d.blkMaskEn then k.lm.num d.maskAddr 16 else 0,
    conv := if d.a.mode = 2 then k.lm.read (d.a.ld % 65536 * 64) 64 else [], maps := (s.berth i.k.berth).maps,
    chain := if d.accInit = 2 then (i.g.chain.elim k.nextId fun c => c.id) else k.nextId }

section
variable {s : State} {t : At} {i : Issue} {addr tk : Nat}

theorem enterArray_absent (h : addr % 64 ≠ 0 ∨ 0x400000 ≤ addr) :
    s.enterArray t i addr tk = s.abortGroup t i.cur.pc i.cur.mask 0x0100 addr := by
  unfold State.enterArray
  exact if_pos h

variable (aligned : addr % 64 = 0) (inside : addr < 0x400000)
include aligned inside

theorem enterArray_refused {code : Nat} {r : List Nat} (bad : missCodes s t i addr = code :: r) :
    s.enterArray t i addr tk = s.abortGroup t i.cur.pc i.cur.mask code addr := by
  unfold missCodes at bad
  unfold State.enterArray
  rw [if_neg (by omega)]
  simp only [bad, List.head?_cons]

/-- A valid instruction outside chains, masks and gather fills enters the queue. -/
theorem enterArray_valid (valid : missCodes s t i addr = []) (rows : (descOf (descWords (s.core t.core).lm addr)).rowMaskEn = false)
    (block : (descOf (descWords (s.core t.core).lm addr)).blkMaskEn = false) (chain : i.g.chain = none)
    (gather : (descOf (descWords (s.core t.core).lm addr)).gather = false) :
    ∃ c, s.enterArray t i addr tk =
      (s.setCore t.core { s.core t.core with aq := (s.core t.core).aq ++ [aqEntry s t i addr tk],
                                             nextId := (s.core t.core).nextId + 1 }).next t i
        (GroupSt.tkInc { i.g with chain := c } tk) := by
  unfold missCodes at valid
  unfold State.enterArray
  rw [if_neg (by omega)]
  simp only [valid, List.head?_nil]
  rw [if_neg (by rw [chain, descSkipped_unmasked _ rows block]; nofun)]
  simp only [gather, Bool.false_eq_true, if_false]
  exact ⟨_, rfl⟩

end

theorem matrixIssueEntersTheQueue : MatrixIssueEntersTheQueue := fun s t a tk i addr operand ready address => by
  rw [exec_miss operand ready address]
  refine ⟨fun full => by rw [if_pos full], fun room bad => ?_, fun room aligned inside => ⟨fun code r bad => ?_,
    fun valid rows block chain gather last => ?_⟩⟩
  · rw [if_neg (by omega), enterArray_absent bad]
    exact ⟨_, rfl, stoppedWith_abortGroup _ _ _ _ _ (kern_of_ready ready)⟩
  · rw [if_neg (by omega), enterArray_refused aligned inside bad]
    exact ⟨_, rfl, stoppedWith_abortGroup _ _ _ _ _ (kern_of_ready ready)⟩
  · obtain ⟨c, entered⟩ := enterArray_valid (tk := tk.toNat) aligned inside valid rows block chain gather
    rw [if_neg (by omega), entered, State.next_in last]
    have grp : (s.setCore t.core { s.core t.core with
        aq := (s.core t.core).aq ++ [aqEntry s t i addr tk.toNat],
        nextId := (s.core t.core).nextId + 1 }).group t = some i.g := by
      rw [State.group_of_kern (s := s), group_of_ready ready]
      simp [State.kern]
    refine ⟨_, i.at (i.cur.pc + 8) (GroupSt.tkInc { i.g with chain := c } tk.toNat), aqEntry s t i addr tk.toNat, rfl,
      State.group_setGroup _ grp, tkAfter_inc { i.g with chain := c } tk.toNat, rfl, rfl, rfl, ?_, rfl, rfl, rfl, ?_, ?_⟩
    · exact (core_modKern_keeps CoreSt.aq (fun _ _ => rfl) ..).trans (by rw [State.core_setCore])
    · exact modKern_mem ..
    · exact (core_modKern_keeps CoreSt.lm (fun _ _ => rfl) ..).trans (by rw [State.core_setCore])

/-! Banks, rings and fills. -/

theorem id_of_aqEnt {k : CoreSt} {id : Nat} {e : AqEnt} (h : k.aqEnt id = some e) : e.id = id := by
  simpa using List.find?_some h

/-- An entry found after entries were changed that keep their numbers. -/
theorem aqEnt_map {k : CoreSt} {id : Nat} {e : AqEnt} (f : AqEnt → AqEnt) (keep : ∀ x, (f x).id = x.id)
    (h : k.aqEnt id = some e) : (k.aq.map f).find? (fun x => x.id == id) = some (f e) := by
  rw [List.find?_map, show (fun x : AqEnt => x.id == id) ∘ f = fun x => x.id == id from funext fun x => by simp [keep]]
  rw [show k.aq.find? (fun x => x.id == id) = some e from h, Option.map_some]

theorem matrixArrayProceeds : MatrixArrayProceeds := fun s core id e found => by
  refine ⟨exec_matrixStart_of_no_bank found, fun b bank => ?_, fun streams first => ?_, fun fill f mem named open' => ?_⟩
  · refine ⟨_, { e with bank := some b }, exec_matrixStart_of_bank found bank, ?_, rfl, fun head => ?_, rfl, ?_⟩
    · rw [State.core_setCore]; exact CoreSt.takeBank_aqEnt b found
    · rw [State.core_setCore]; exact ⟨CoreSt.takeBank_owner b head, CoreSt.takeBank_lastBank_head b head⟩
    · rw [State.core_setCore]; rfl
  · have run : exec (.ringSegmentFilled core id) s = .next _ := congrArg Host.Outcome.next (by
      simp only [found, streams, first, Bool.not_false, Bool.and_self, if_true]; rfl)
    refine ⟨_, { e with segments := e.segments + 1 }, run, ?_, rfl, rfl⟩
    rw [State.core_setCore]
    exact (aqEnt_map (fun x => if x.id = id then { x with segments := x.segments + 1 } else x)
      (fun x => by split <;> rfl) found).trans (by rw [if_pos (id_of_aqEnt found)])
  · have waits : ((openFills (s.core core)).any fun f => f.id == fill) = true :=
      List.any_eq_true.mpr ⟨f, List.mem_filter.mpr ⟨mem, open'⟩, by simp [named]⟩
    refine ⟨s.setCore core (closeFill (s.core core) fill), congrArg Host.Outcome.next (if_pos waits), fun g hg closed => ?_, rfl⟩
    rw [State.core_setCore] at hg
    obtain ⟨x, -, rfl⟩ := List.mem_map.mp hg
    split at closed
    · rw [if_pos ‹_›]
    · exact absurd closed ‹_›

/-! Completion. -/

/-- An instruction outside gather fills completes alone. -/
theorem aqGroup_alone {e : AqEnt} (q : List AqEnt) (alone : e.fill = none) : aqGroup q e = [e] := by
  simp [aqGroup, alone]

theorem aqEnt_signal (s : State) (c launch group tk id : Nat) :
    ((s.signal c launch group tk).core c).aqEnt id = (s.core c).aqEnt id :=
  core_signal_keeps (fun k => k.aqEnt id) (fun _ _ => rfl) ..

/-- The core as it stands when an instruction outside gather fills has run and has left the queue. -/
def aqLeft (e : AqEnt) (bank : Nat) (drain : Bool) (k : CoreSt) : CoreSt :=
  { k with aq := k.aq.filter fun y => !([e.id].contains y.id), fills := k.fills.filter fun f => e.fill != some f.id,
           banks := if drain then tset k.banks bank {} else k.banks }

theorem aqEnt_aqLeft (e : AqEnt) (bank : Nat) (drain : Bool) (k : CoreSt) : (aqLeft e bank drain k).aqEnt e.id = none := by
  simp [aqLeft, CoreSt.aqEnt]

/-- A core with the cells of a bank replaced. -/
def withCells (bank : Nat) (f : Tbl AccCell) (k : CoreSt) : CoreSt :=
  { k with banks := tmod k.banks {} bank fun y => { y with cells := f } }

/-- An instruction outside gather fills that runs to its end: its effect, the core, and its completion. -/
theorem matrixFinish_alone {s : State} {core bank : Nat} {e : AqEnt} (alone : e.fill = none) :
    ∃ u, s.matrixFinish core e bank =
      (u.modCore core (aqLeft e bank (descOf e.words).drain)).signal core e.launch e.group e.tk ∧
      ((descOf e.words).drain = false → ∃ f, u = (s.nextFree.reportOperands core (s.coreBerth core) e).modCore core (withCells bank f)) := by
  unfold State.matrixFinish
  simp only [aqGroup_alone _ alone]
  exact ⟨_, rfl, fun keep =>
    ⟨s.nextFree.cellsAfter core (s.coreBerth core) e (tget (s.core core).banks {} bank).cells, if_neg (by simp [keep])⟩⟩

theorem State.reportOperands_core (s : State) (c b d : Nat) (e : AqEnt) : (s.reportOperands c b e).core d = s.core d := by
  rw [State.core, show _ = _ from (State.reportOperands_frame s c b e).frame .cores (by decide)]
  rfl

theorem State.reportOperands_mem (s : State) (c b : Nat) (e : AqEnt) : (s.reportOperands c b e).mem = s.mem :=
  (State.reportOperands_frame s c b e).frame .mem (by decide)

section
variable {s : State} {core id bank : Nat} {e : AqEnt} (found : (s.core core).aqEnt id = some e) (started : e.bank = some bank)
include found started

/-- `MATRIX_COMPLETE` whose residue check failed at most once (R112). -/
theorem exec_matrixComplete {n : Nat} (ran : n < 2) : exec (.matrixComplete core id n) s =
    .next ((s.modCore core fun x => { x with residues := x.residues + n }).matrixFinish core e bank) := by
  refine congrArg Host.Outcome.next ?_
  simp only [found, started, if_pos ran]

/-- An instruction that does not drain leaves memory and its bank's owner. -/
theorem complete_kept {k : KernSt} (kern : s.kern core = some k) (launch : k.launch = e.launch) (alone : e.fill = none)
    (member : e.group < k.nGroups) {n : Nat} (ran : n < 2) (keep : (descOf e.words).drain = false) :
    ∃ u g, exec (.matrixComplete core id n) s = .next u ∧ (u.core core).aqEnt id = none ∧
      u.group ⟨core, e.group⟩ = some g ∧ tkAfter (tget k.groups {} e.group) g e.tk 255 ∧ u.mem = s.mem ∧
      (tget (u.core core).banks {} bank).owner = (tget (s.core core).banks {} bank).owner ∧
      (u.core core).residues = (s.core core).residues + n := by
  obtain ⟨u, finish, before⟩ := matrixFinish_alone (s := s.modCore core fun x => { x with residues := x.residues + n })
    (core := core) (bank := bank) alone
  obtain ⟨f, hu⟩ := before keep
  have core' : u.core core = withCells bank f { s.core core with residues := (s.core core).residues + n } := by
    rw [hu, State.core_modCore, State.reportOperands_core]
    exact congrArg (withCells bank f) (State.core_modCore (s := s) core fun x => { x with residues := x.residues + n })
  generalize hv : u.modCore core (aqLeft e bank (descOf e.words).drain) = v at finish
  have vcore : v.core core = aqLeft e bank (descOf e.words).drain (u.core core) := by rw [← hv, State.core_modCore]
  have vkern : v.kern core = some k := by rw [← kern, State.kern, vcore, core']; rfl
  rw [← launch, State.signal_running vkern] at finish
  refine ⟨_, (tget k.groups {} e.group).tkDec e.tk, (exec_matrixComplete found started ran).trans (congrArg _ finish), ?_, ?_,
    tkAfter_dec _ _, ?_, ?_, ?_⟩
  · rw [core_modKern_keeps (fun k => k.aqEnt id) (fun _ _ => rfl), vcore, ← id_of_aqEnt found]
    exact aqEnt_aqLeft ..
  · simp only [State.group, State.kern_modKern _ vkern, member, if_true, tget_tset_self]
  · rw [modKern_mem, ← hv, hu]
    exact State.reportOperands_mem ..
  · rw [core_modKern_keeps CoreSt.banks (fun _ _ => rfl), vcore, core', aqLeft, keep]
    simp [withCells, tmod, tget_tset_self]
  · rw [core_modKern_keeps CoreSt.residues (fun _ _ => rfl), vcore, core']
    rfl

/-- An instruction that drains leaves its bank free. -/
theorem complete_drained (alone : e.fill = none) {n : Nat} (ran : n < 2) (drain : (descOf e.words).drain = true) :
    ∃ u, exec (.matrixComplete core id n) s = .next u ∧ (u.core core).aqEnt id = none ∧
      tget (u.core core).banks {} bank = {} := by
  obtain ⟨u, finish, -⟩ := matrixFinish_alone (s := s.modCore core fun x => { x with residues := x.residues + n })
    (core := core) (bank := bank) alone
  refine ⟨_, (exec_matrixComplete found started ran).trans (congrArg _ finish), ?_, ?_⟩
  · rw [aqEnt_signal, State.core_modCore, ← id_of_aqEnt found]
    exact aqEnt_aqLeft ..
  · rw [core_signal_keeps CoreSt.banks (fun _ _ => rfl), State.core_modCore, aqLeft, drain, if_pos rfl, tget_tset_self]

end

theorem matrixInstructionsComplete : MatrixInstructionsComplete :=
  fun s core id bank e k kern launch found started alone member => by
  refine ⟨fun n ran keep => complete_kept found started kern launch alone member ran keep,
    fun n ran drain => complete_drained found started alone ran drain, fun n twice => ?_⟩
  have run : exec (.matrixComplete core id n) s = .next _ := congrArg Host.Outcome.next (by
    simp only [found, started, if_neg (Nat.not_lt.mpr twice)]; rfl)
  refine ⟨_, run, ?_, launch ▸ stoppedWith_abortLaunch _ rfl rfl⟩
  exact congrArg DefectSt.subst ((State.abortLaunch_frame _ _ _).frame .defects (by decide))

/-- Settles O9: each command of the array is one rewrite of its core's queue, banks and fills. -/
theorem matrixInstructionsRun : Obligations.MatrixInstructionsRun :=
  ⟨matrixIssueEntersTheQueue, matrixArrayProceeds, matrixInstructionsComplete⟩

end Sys2Proof.Machine
end

section
/-!
Kernels start and end on their cores (07 R200, R219, 08 R233).
-/

namespace Sys2Proof.Machine

/-! Copies into local memory. -/

theorem State.poisonRead_cores (s : State) (berth : Option Nat) (reader pa : Nat) :
    (s.poisonRead berth reader pa).cores = s.cores :=
  (State.poisonRead_frame s berth reader pa).frame .cores (by decide)

/-- What copies into a core's local memory leave of it. -/
theorem copyToLm_keeps {β : Type} (p : CoreSt → β) (h : ∀ k x, p { k with lm := x } = p k) (s : State) (c b va lm n : Nat) :
    p ((s.copyToLm c b va lm n).core c) = p (s.core c) := by
  unfold State.copyToLm
  refine (forL_keeps (fun u : State => p (u.core c)) _ _ _ fun i u => ?_).trans
    (forL_keeps (fun u : State => p (u.core c)) _ _ _ fun i u => ?_)
  · exact (congrArg p (State.core_modCore ..)).trans (h ..)
  · exact congrArg (fun x : Tbl CoreSt => p (tget x {} c)) (State.poisonRead_cores ..)

/-- An index of a table that lists one value for each number below `n`. -/
theorem tget_map_range {α : Type} (d x : α) {n g : Nat} (h : g < n) :
    tget ((List.range n).map fun i => (i, x)) d g = x := by
  have look : ∀ l : List Nat, g ∈ l → tget (l.map fun i => (i, x)) d g = x := fun l => by
    induction l with
    | nil => nofun
    | cons a r ih =>
      intro mem
      rw [List.map_cons, tget]
      split
      · rfl
      · exact ih ((List.mem_cons.mp mem).resolve_left fun e => absurd e.symm ‹_›)
  exact look _ (List.mem_range.mpr h)

/-! Start. -/

/-- A launch's kernel starts with `GROUPS` groups at the entry address and the L1 empty. -/
theorem kernelStart_runs {s : State} {core : Nat} {k : KernSt} (kern : s.kern core = some k) {h : ImgHdr}
    (header : h = imgHdr (s.nextFree.engineRead core k.berth (s.berth k.berth).maps 1 k.image 128).1)
    (fresh : k.started = false) (live : s.launchLive k.launch = true) :
    ∃ u, exec (.kernelStart core) s = .next u ∧ (u.core core).l1 = [] ∧ u.kern core = some { k with
      started := true, nGroups := h.groups, codeBytes := h.codeBytes, entry := h.entry, argLm := h.argLm,
      groups := (List.range h.groups).map fun g => (g, groupStart h.entry), barriers := [] } := by
  have run : exec (.kernelStart core) s = .next _ := congrArg Host.Outcome.next (by
    simp only [kern, fresh, live, Bool.not_true, Bool.or_self, Bool.false_eq_true, if_false]; rfl)
  refine ⟨_, run, ?_, ?_⟩
  · rw [core_modKern_l1, copyToLm_keeps CoreSt.l1 (fun _ _ => rfl), copyToLm_keeps CoreSt.l1 (fun _ _ => rfl),
      State.core_modCore]
  · rw [header]
    refine State.kern_modKern _ ?_
    rw [State.kern, copyToLm_keeps CoreSt.kern (fun _ _ => rfl), copyToLm_keeps CoreSt.kern (fun _ _ => rfl), State.core_modCore]
    exact kern

/-! End. -/

theorem liveLanes_eq_zero {g : GroupSt} (h : ∀ e ∈ g.stack, e.mask = 0) : liveLanes g = 0 := by
  have fold : ∀ l : List PathEnt, (∀ e ∈ l, e.mask = 0) → l.foldl (fun m e => m ||| e.mask) 0#32 = 0#32 := fun l => by
    induction l with
    | nil => exact fun _ => rfl
    | cons e r ih =>
      intro none
      rw [List.foldl_cons, none e List.mem_cons_self]
      exact ih fun x hx => none x (List.mem_cons_of_mem _ hx)
  exact fold _ h

/-- What the discarded amax registers leave of a core. -/
theorem amaxDiscard_keeps {β : Type} (p : CoreSt → β) (h : ∀ k x, p { k with amax := x } = p k) (s : State) (c b : Nat) :
    p ((s.amaxDiscard c b).core c) = p (s.core c) := by
  unfold State.amaxDiscard
  refine (congrArg p (State.core_modCore ..)).trans ((h ..).trans ?_)
  exact congrArg (fun x : Tbl CoreSt => p (tget x {} c)) ((State.count_frame _ _ _ _).frame .cores (by decide))

/-- The kernel has ended on a core whose lanes, queues and accesses are done (R200). -/
theorem kernelOver_of_done {s : State} {core : Nat} {k : KernSt} (started : k.started = true)
    (lanes : ∀ g < k.nGroups, ∀ e ∈ (tget k.groups {} g).stack, e.mask = 0) (array : ∀ e ∈ (s.core core).aq, e.launch ≠ k.launch)
    (vector : ∀ e ∈ (s.core core).vq, e.launch ≠ k.launch)
    (stores : ∀ a ∈ (s.core core).acc, a.launch = k.launch → a.kind = .load ∨ a.done ≠ none) :
    s.kernelOver core k = true := by
  simp only [State.kernelOver, started, Bool.true_or, Bool.true_and, Bool.and_eq_true, List.all_eq_true, Bool.not_eq_true',
    List.any_eq_false, beq_iff_eq, List.mem_range, bne_iff_ne, ne_eq, Option.isNone_iff_eq_none, not_and, and_imp]
  exact ⟨⟨⟨fun g hg => liveLanes_eq_zero (lanes g hg), array⟩, vector⟩, fun a ha launch kind =>
    (stores a ha launch).resolve_left kind⟩

/-- A core with the kernel of a launch taken from it. -/
def kernelLeft (launch : Nat) (c : CoreSt) : CoreSt :=
  { c with kern := none, acc := c.acc.filter fun a => a.launch != launch }

theorem exec_kernelEnd {s : State} {core : Nat} {k : KernSt} (kern : s.kern core = some k) :
    exec (.kernelEnd core) s = .next (if s.kernelOver core k then
      ((s.amaxDiscard core k.berth).modCore core (kernelLeft k.launch)).leaveLaunch core k.launch else s) := by
  refine congrArg Host.Outcome.next ?_
  simp only [kern]
  rfl

theorem State.leaveLaunch_core (s : State) (core launch c : Nat) : (s.leaveLaunch core launch).core c = s.core c := by
  unfold State.leaveLaunch State.modLaunch
  split <;> rfl

theorem State.leaveLaunch_mem (s : State) (core launch : Nat) : (s.leaveLaunch core launch).mem = s.mem := by
  unfold State.leaveLaunch State.modLaunch
  split <;> rfl

/-- A launch that a core has left. -/
theorem State.leaveLaunch_launch {s : State} {core launch : Nat} {l : LaunchSt} (h : tfind s.launches launch = some l) :
    tfind (s.leaveLaunch core launch).launches launch = some { l with running := l.running.filter fun c => c != core } := by
  simp only [State.leaveLaunch, State.modLaunch, h, tfind_tset_self]

/-- Settles O10: a start writes the kernel of its core once its local memory is filled; an end takes it away. -/
theorem kernelsStartAndEnd : Obligations.KernelsStartAndEnd := fun s core k kern => by
  refine ⟨fun h header fresh live => ?_, fun started lanes array vector stores => ?_, fun ⟨a, ha, launch, kind, waits⟩ => ?_⟩
  · obtain ⟨u, run, l1, kern'⟩ := kernelStart_runs kern header fresh live
    refine ⟨u, _, run, kern', rfl, rfl, rfl, rfl, rfl, l1, fun g hg => ?_⟩
    simp only [State.group, kern', hg, if_true, tget_map_range _ _ hg]
    rfl
  · have run := exec_kernelEnd kern
    rw [if_pos (kernelOver_of_done started lanes array vector stores)] at run
    refine ⟨_, run, ?_, fun a ha => ?_, fun l found =>
      ⟨{ l with running := l.running.filter fun c => c != core }, State.leaveLaunch_launch ?_, ?_, fun c hc other => ?_⟩, ?_⟩
    · rw [State.kern, State.leaveLaunch_core, State.core_modCore]
      rfl
    · rw [State.leaveLaunch_core, State.core_modCore] at ha
      simpa using (List.mem_filter.mp ha).2
    · exact (congrArg (tfind · k.launch) ((State.amaxDiscard_frame s core k.berth).frame .launches (by decide))).trans found
    · simp
    · exact List.mem_filter.mpr ⟨hc, by simp [other]⟩
    · rw [State.leaveLaunch_mem]
      exact (State.amaxDiscard_frame s core k.berth).frame .mem (by decide)
  · have waiting : s.kernelOver core k = false := by
      have : ((s.core core).acc.any fun a => a.launch == k.launch && a.kind != .load && a.done.isNone) = true :=
        List.any_eq_true.mpr ⟨a, ha, by simp [launch, kind, waits]⟩
      simp [State.kernelOver, this]
    rw [exec_kernelEnd kern, if_neg (by simp [waiting])]

end Sys2Proof.Machine
end

section
/-!
Channels of stacked memory: reads, the scrub, writes, adders and write-combining buffers (09 R255-R269).
-/

namespace Sys2Proof.Machine

/-! Decoding. -/

/-- The bounds of the symbol code, by its table (R259). -/
theorem codeBounds_eq {e t d : Nat} (h : codeBounds[e]? = some (t, d)) : symFix e = t ∧ symSee e = d := by
  obtain ⟨lt, eq⟩ := List.getElem?_eq_some_iff.mp h
  have cases : ∀ j (hj : j < codeBounds.length), codeBounds[j] = (symFix j, symSee j) := by decide
  rw [cases e lt] at eq
  exact Prod.mk.inj eq

/-- Wrong symbols that lie at no pin of the channel leave a word clean. -/
theorem decodeSyms_clean (n : Nat) {dead syms : List Nat} (none : ∀ j ∈ syms, 80 ≤ j ∧ j ∉ dead) :
    decodeSyms n dead syms = .clean := by
  have known : unknownSyms dead syms = [] := by
    rw [unknownSyms, List.filter_eq_nil_iff.mpr, List.eraseDups_nil]
    intro j hj
    simp [Nat.not_lt.mpr (none j hj).1]
  have erasures : ¬ (syms.any fun j => dead.contains j) = true := by
    simpa using fun j hj => (none j hj).2
  simp only [decodeSyms, known, List.length_nil, if_true, if_neg erasures]

theorem decodeSyms_corrected (n : Nat) {dead syms : List Nat} (some : 1 ≤ (unknownSyms dead syms).length)
    (bound : (unknownSyms dead syms).length ≤ symFix dead.length) : decodeSyms n dead syms = .corrected := by
  unfold decodeSyms
  simp only
  rw [if_neg (by omega), if_pos bound]

theorem decodeSyms_lost (n : Nat) {dead syms : List Nat} (above : symFix dead.length < (unknownSyms dead syms).length)
    (bound : (unknownSyms dead syms).length ≤ symSee dead.length) : decodeSyms n dead syms = .lost := by
  unfold decodeSyms
  simp only
  rw [if_neg (by omega), if_neg (by omega), if_pos bound]

/-! Reads. -/

section
variable {s : State} {line n l : Nat} (serves : Serves s line n l)
include serves

/-- A serving channel reads an unmarked line: by what the decoder makes of it. -/
theorem channelRead_unmarked (reader : Nat) (syms twin : List Nat) (scrub : Bool) (clean : s.mem.marked (64 * line) = false)
    {r : Decoded} (decoded : decodeSyms s.free (s.chan n l).dead syms = r) (known : r ≠ .wrong) :
    s.channelRead line reader syms twin scrub =
      if r = .lost then s.nextFree.uncorrectable (64 * line) reader twin
      else if r = .corrected then s.nextFree.corrected n l (syms.filter fun j => decide (j < 80)) else s.nextFree := by
  obtain ⟨home, live, inService⟩ := serves
  unfold State.channelRead
  simp only [home]
  rw [if_neg (by simp [live, inService])]
  simp only [decoded, known, or_false, false_and, if_false]
  split
  · rfl
  · rw [if_neg (by simp [clean])]

end

/-- A channel with one more corrected read (R260, R279). -/
def ChanSt.counted (syms : List Nat) (x : ChanSt) : ChanSt :=
  { x with corr := min 0xFFFFFF (x.corr + 1), recent := (syms.eraseDups :: x.recent).take 64 }

/-- Few recent reads show no pin dead (R260). -/
theorem newDead_few {x : ChanSt} (few : x.recent.length ≤ 15) : newDead x = [] := by
  rw [newDead, List.filter_eq_nil_iff.mpr, List.take_nil]
  intro j _
  have := List.length_filter_le (fun r : List Nat => r.contains j) x.recent
  simp only [Bool.and_eq_true, decide_eq_true_eq, not_and]
  omega

/-- A corrected read of a channel with few recent ones is counted, and nothing more. -/
theorem corrected_few (s : State) (n l : Nat) (syms : List Nat) (few : (s.chan n l).recent.length < 15) :
    s.corrected n l syms = s.modChan n l (ChanSt.counted syms) := by
  have none : newDead ((s.modChan n l (ChanSt.counted syms)).chan n l) = [] := newDead_few (by
    simp only [State.chan_modChan, ChanSt.counted, List.length_take, List.length_cons]; omega)
  change newDead ((s.modChan n l fun x => { x with corr := min 0xFFFFFF (x.corr + 1), recent := (syms.eraseDups :: x.recent).take 64 }
    ).chan n l) = [] at none
  unfold State.corrected
  simp only [none, forL, List.foldl_nil, List.isEmpty_nil, Bool.not_true, Bool.false_eq_true, false_and, if_false]
  rfl

/-- A lost line of no segment is stored poisoned and counted (R262). -/
theorem uncorrectable_outside {s : State} {line n l : Nat} (home : chanAt (64 * line) = some (n, l))
    (outside : s.segOf (64 * line) = none) (reader : Nat) (twin : List Nat) :
    (s.uncorrectable (64 * line) reader twin).mem = s.mem.mark line ∧
      (s.uncorrectable (64 * line) reader twin).chan n l = { s.chan n l with uncorr := min 255 ((s.chan n l).uncorr + 1) } := by
  have at' : 64 * line / 64 = line := Nat.mul_div_cancel_left _ (by decide)
  have run : s.uncorrectable (64 * line) reader twin = ((({ s with mem := s.mem.mark line } : State).modChan n l fun x =>
      { x with uncorr := min 255 (x.uncorr + 1) }).moduleEvent 0x0440 (64 * line) 0xFFFF).poisonNew reader (64 * line) := by
    unfold State.uncorrectable
    simp only [outside, Option.bind_none, home, at']
  rw [run]
  refine ⟨?_, ?_⟩
  · exact ((State.poisonNew_frame _ _ _).frame .mem (by decide)).trans
      ((State.moduleEvent_frame _ _ _ _ _).frame .mem (by decide))
  · rw [State.chan, show _ = _ from (State.poisonNew_frame _ reader (64 * line)).frame .chans (by decide),
      show _ = _ from (State.moduleEvent_frame _ 0x0440 (64 * line) 0xFFFF []).frame .chans (by decide)]
    exact tget_tset_self ..

theorem channelRead_decodes {s : State} {line n l t d : Nat} {syms : List Nat} (serves : Serves s line n l)
    (bounds : codeBounds[(s.chan n l).dead.length]? = some (t, d)) (clean : s.mem.marked (64 * line) = false)
    (reader : Nat) (twin : List Nat) (scrub : Bool) :
    ((∀ j ∈ syms, 80 ≤ j ∧ j ∉ (s.chan n l).dead) →
      (s.channelRead line reader syms twin scrub).mem = s.mem ∧ (s.channelRead line reader syms twin scrub).chan n l = s.chan n l) ∧
    (1 ≤ (unknownSyms (s.chan n l).dead syms).length → (unknownSyms (s.chan n l).dead syms).length ≤ t →
      (s.chan n l).recent.length < 15 →
      (s.channelRead line reader syms twin scrub).mem = s.mem ∧
        ((s.channelRead line reader syms twin scrub).chan n l).corr = min 0xFFFFFF ((s.chan n l).corr + 1) ∧
        ((s.channelRead line reader syms twin scrub).chan n l).dead = (s.chan n l).dead ∧
        ((s.channelRead line reader syms twin scrub).chan n l).uncorr = (s.chan n l).uncorr) ∧
    (t < (unknownSyms (s.chan n l).dead syms).length → (unknownSyms (s.chan n l).dead syms).length ≤ d →
      s.segOf (64 * line) = none →
      (s.channelRead line reader syms twin scrub).mem = s.mem.mark line ∧
        ((s.channelRead line reader syms twin scrub).chan n l).uncorr = min 255 ((s.chan n l).uncorr + 1) ∧
        ((s.channelRead line reader syms twin scrub).chan n l).corr = (s.chan n l).corr) := by
  obtain ⟨fix, see⟩ := codeBounds_eq bounds
  refine ⟨fun none => ?_, fun some low few => ?_, fun above high outside => ?_⟩
  · rw [channelRead_unmarked serves reader syms twin scrub clean (decodeSyms_clean s.free none) nofun]
    exact ⟨rfl, rfl⟩
  · rw [channelRead_unmarked serves reader syms twin scrub clean (decodeSyms_corrected s.free some (fix ▸ low)) nofun]
    rw [if_neg nofun, if_pos rfl, corrected_few s.nextFree n l _ few, State.chan_modChan]
    exact ⟨rfl, rfl, rfl, rfl⟩
  · rw [channelRead_unmarked serves reader syms twin scrub clean (decodeSyms_lost s.free (fix ▸ above) (see ▸ high)) nofun]
    obtain ⟨mem, chan⟩ := uncorrectable_outside (s := s.nextFree) serves.1 outside reader twin
    rw [if_pos rfl, chan]
    exact ⟨mem, rfl, rfl⟩

theorem channelReadsDecode : ChannelReadsDecode := fun s line reader n l e t d syms twin serves he bounds clean i hi => by
  subst he
  obtain rfl | rfl : i = .channelRead line reader syms twin ∨ i = .patrolScrub line syms twin := by simpa using hi
  · obtain ⟨a, b, c⟩ := channelRead_decodes (syms := syms) serves bounds clean reader twin false
    exact ⟨fun h => ⟨_, rfl, a h⟩, fun x y z => ⟨_, rfl, b x y z⟩, fun x y z => ⟨_, rfl, c x y z⟩⟩
  · obtain ⟨a, b, c⟩ := channelRead_decodes (syms := syms) serves bounds clean 0xFFFF twin true
    exact ⟨fun h => ⟨_, rfl, a h⟩, fun x y z => ⟨_, rfl, b x y z⟩, fun x y z => ⟨_, rfl, c x y z⟩⟩

/-! Writes within a line. -/

/-- A write that stays in a 64-byte piece is one piece. -/
theorem Store.write_piece (st : Store) {a : Nat} {bs : Bytes} (marked : Bool) (some : bs ≠ []) (fits : a % 64 + bs.length ≤ 64) :
    st.write a bs marked = st.writePiece a bs marked := by
  have whole : bs.length ≤ 64 - a % 64 := by omega
  have empty : bs.isEmpty = false := by cases bs with
    | nil => exact absurd rfl some
    | cons => rfl
  simp only [Store.write, pieces, empty, Bool.false_eq_true, if_false, List.take_of_length_le whole,
    List.drop_eq_nil_of_le whole, List.isEmpty_nil, if_true, List.foldl_cons, List.foldl_nil]

theorem cellGet_cellsClear (c : List Host.Cell) (lo hi a : Nat) (outside : a < lo ∨ hi ≤ a) :
    cellGet (cellsClear c lo hi) a = cellGet c a := by
  unfold cellsClear
  induction c with
  | nil => rfl
  | cons p r ih =>
    obtain ⟨k, v⟩ := p
    rw [List.filter_cons]
    split
    · simp only [cellGet, ih]
    · rename_i cleared
      rw [ih, cellGet, if_neg]
      rintro rfl
      simp only [Bool.or_eq_true, decide_eq_true_eq] at cleared
      exact cleared outside

/-- Marking a piece changes no other piece. -/
theorem Store.mark_other (st : Store) {p a : Nat} (h : a / 64 ≠ p) :
    (st.mark p).byte a = st.byte a ∧ (st.mark p).marked a = st.marked a := by
  have marked : (st.mark p).marked a = st.marked a := by
    unfold Store.mark Store.marked
    simp only
    split
    · rfl
    · simp [h]
  refine ⟨?_, marked⟩
  rw [Store.byte, marked, Store.byte]
  split
  · rfl
  · exact cellGet_cellsClear _ _ _ _ (by omega)

theorem Store.mark_marked (st : Store) (line : Nat) : (st.mark line).marked (64 * line) = true := by
  have at' : 64 * line / 64 = line := Nat.mul_div_cancel_left _ (by decide)
  unfold Store.mark Store.marked
  simp only [at']
  split
  · assumption
  · simp

/-- The bytes that a run of bytes leaves where it lies and elsewhere. -/
theorem Store.byte_put {st : Store} (wf : st.ok) {a x : Nat} {bs : Bytes} {m : List Nat} (clean : m.contains (x / 64) = false) :
    (Store.mk (cellsPut st.cells a bs) m).byte x = if a ≤ x ∧ x < a + bs.length then bs.getD (x - a) 0 else cellGet st.cells x := by
  rw [Store.byte, if_neg (by rw [Store.marked, clean]; nofun)]
  exact cellGet_cellsPut a x bs wf

/-- A whole line written: it is unmarked and holds the bytes, and no other line changes. -/
theorem Store.write_whole {st : Store} (wf : st.ok) {line : Nat} {bs : Bytes} (whole : bs.length = 64) :
    (st.write (64 * line) bs false).marked (64 * line) = false ∧
      (∀ i < 64, (st.write (64 * line) bs false).byte (64 * line + i) = bs.getD i 0) ∧
      ∀ a, a / 64 ≠ line → (st.write (64 * line) bs false).byte a = st.byte a ∧
        (st.write (64 * line) bs false).marked a = st.marked a := by
  have at' : 64 * line / 64 = line := Nat.mul_div_cancel_left _ (by decide)
  have run : st.write (64 * line) bs false = ⟨cellsPut st.cells (64 * line) bs, st.poison.filter fun p => p != line⟩ := by
    rw [Store.write_piece st false (by rintro rfl; simp at whole) (by omega), Store.writePiece]
    rw [if_neg (by cases bs with | nil => simp at whole | cons => simp), if_neg nofun]
    simp only [whole, if_true, at']
    split
    · rfl
    · rename_i clean
      rw [List.filter_eq_self.mpr fun p hp => ?_]
      rw [Store.marked, at', List.contains_iff_mem] at clean
      exact bne_iff_ne.mpr fun e => clean (e ▸ hp)
  have marks : ∀ a, a / 64 ≠ line → (st.poison.filter fun p => p != line).contains (a / 64) = st.poison.contains (a / 64) :=
    fun a other => by rw [Bool.eq_iff_iff]; simp [other]
  rw [run]
  refine ⟨by simp [Store.marked, at'], fun i hi => ?_, fun a other => ⟨?_, marks a other⟩⟩
  · rw [Store.byte_put wf (by rw [show (64 * line + i) / 64 = line by omega]; simp), if_pos (by omega)]
    rw [Nat.add_sub_cancel_left]
  · cases marked : st.marked a with
    | true =>
      rw [Store.byte, Store.byte, Store.marked, marks a other, show st.poison.contains (a / 64) = true from marked, marked]
      rfl
    | false =>
      rw [Store.byte_put wf (by rw [marks a other]; exact marked), if_neg (by omega), Store.byte, marked]
      rfl

/-- A byte written to a marked line is discarded (R263). -/
theorem Store.write_discarded {st : Store} {line : Nat} {b : Byte} (marked : st.marked (64 * line) = true) :
    st.write (64 * line) [b] false = st := by
  rw [Store.write_piece st false (List.cons_ne_nil _ _) (by simp), Store.writePiece, if_neg nofun, if_neg nofun, if_pos marked,
    if_neg nofun]

theorem leBytes_getD (data : BitVec 512) {i : Nat} (h : i < 64) : (leBytes 64 data.toNat).getD i 0 = data.extractLsb' (8 * i) 8 := by
  refine BitVec.eq_of_toNat_eq ?_
  simp [leBytes, h, BitVec.extractLsb'_toNat, Nat.shiftRight_eq_div_pow]

/-! Channel writes. -/

/-- The bytes of a line after a write of the bytes that a mask names. -/
def masked (data : BitVec 512) (mask : BitVec 64) (old : Bytes) : Bytes :=
  (List.range 64).map fun i => if mask.getLsbD i then (leBytes 64 data.toNat).getD i 0 else old.getD i 0

theorem masked_length (data : BitVec 512) (mask : BitVec 64) (old : Bytes) : (masked data mask old).length = 64 := by
  simp [masked]

theorem masked_getD (data : BitVec 512) (mask : BitVec 64) (old : Bytes) {i : Nat} (h : i < 64) :
    (masked data mask old).getD i 0 = if mask.getLsbD i then data.extractLsb' (8 * i) 8 else old.getD i 0 := by
  rw [← leBytes_getD data h]
  simp [masked, h]

/-- `CHANNEL_WRITE` at a line of a channel (R263). -/
theorem exec_channelWrite {s : State} {line n l : Nat} (data : BitVec 512) {mask : BitVec 64} (marked : Bool)
    (home : chanAt (64 * line) = some (n, l)) (some : mask ≠ 0) :
    exec (.channelWrite line data mask marked) s = .next (
      if marked || mask = BitVec.allOnes 64 || !s.mem.marked (64 * line)
      then s.memWrite (64 * line) (masked data mask (s.memRead (64 * line) 64)) marked
      else s.memWrite (64 * line) [0] false) :=
  congrArg Host.Outcome.next (if_neg (by rw [home]; exact fun h => h.elim nofun some))

theorem channelWritesStore : ChannelWritesStore := fun s line n l data mask canonical home some marked => by
  have wf : s.mem.ok := canonical.1
  have run := exec_channelWrite (s := s) data marked home some
  have at' : 64 * line / 64 = line := Nat.mul_div_cancel_left _ (by decide)
  cases marked with
  | true =>
    rw [if_pos (by simp)] at run
    refine ⟨_, run, ?_⟩
    rw [State.memWrite_mem]
    have mark : s.mem.write (64 * line) (masked data mask (s.memRead (64 * line) 64)) true = s.mem.mark line := by
      have full := masked_length data mask (s.memRead (64 * line) 64)
      rw [Store.write_piece _ _ (by rintro e; simp [e] at full) (by omega), Store.writePiece, if_neg ?_, if_pos rfl, at']
      cases h : masked data mask (s.memRead (64 * line) 64) with
      | nil => simp [h] at full
      | cons => simp
    rw [mark]
    exact ⟨fun a other => Store.mark_other _ other, fun _ => Store.mark_marked .., nofun, nofun, nofun⟩
  | false =>
    by_cases lost : mask ≠ BitVec.allOnes 64 ∧ s.mem.marked (64 * line) = true
    · rw [if_neg (by rw [lost.2, decide_eq_false lost.1]; nofun)] at run
      refine ⟨_, run, ?_⟩
      rw [State.memWrite_mem, Store.write_discarded lost.2]
      exact ⟨fun _ _ => ⟨rfl, rfl⟩, nofun, fun _ all => absurd all lost.1, fun _ _ _ => rfl,
        fun _ _ clean => absurd lost.2 (by simp [clean])⟩
    · rw [if_pos (by simpa [Classical.or_iff_not_imp_left] using lost)] at run
      obtain ⟨clean, bytes, others⟩ := Store.write_whole wf (masked_length data mask (s.memRead (64 * line) 64)) (line := line)
      refine ⟨_, run, ?_⟩
      rw [State.memWrite_mem]
      refine ⟨others, nofun, fun _ all => ⟨clean, fun i hi => ?_⟩, fun _ part dirty => absurd ⟨part, dirty⟩ lost,
        fun _ part fresh => ⟨clean, fun i hi => ?_⟩⟩
      · rw [bytes i hi, masked_getD _ _ _ hi, all, if_pos (by rw [BitVec.getLsbD_allOnes]; exact decide_eq_true hi)]
      · rw [bytes i hi, masked_getD _ _ _ hi]
        simp [State.memRead, Store.read, hi]

/-! Adders and write-combining buffers. -/

theorem wcbWriteRun_drains (s : State) (n l : Nat) : ∃ u, exec (.wcbWriteRun n l) s = .next u ∧ u.mem = s.mem ∧
    ((s.chan n l).wcb.countP (fun e => e.st != .partly) ≤ 32 → ∀ e ∈ (u.chan n l).wcb, e.st = .partly) := by
  have full : ∀ e ∈ (s.chan n l).wcb, e.st ≠ .partly → (s.chan n l).wcb.countP (fun e => e.st != .partly) ≤ 32 →
      e.line ∈ (((s.chan n l).wcb.filter fun e => e.st != .partly).take 32).map WcbEnt.line := fun e he due few => by
    rw [List.take_of_length_le (by rwa [← List.countP_eq_length_filter])]
    exact List.mem_map_of_mem (List.mem_filter.mpr ⟨he, by simp [due]⟩)
  cases empty : ((((s.chan n l).wcb.filter fun e => e.st != .partly).take 32).map WcbEnt.line).isEmpty with
  | true =>
    refine ⟨s, congrArg Host.Outcome.next (if_pos empty), rfl, fun few e he => Decidable.byContradiction fun due => ?_⟩
    have := full e he due few
    rw [List.isEmpty_iff.mp empty] at this
    cases this
  | false =>
    refine ⟨_, congrArg Host.Outcome.next (if_neg (by rw [empty]; nofun)), rfl, fun few e he => Decidable.byContradiction fun due => ?_⟩
    rw [State.chan_modChan] at he
    obtain ⟨mem, kept⟩ := List.mem_filter.mp he
    rw [List.contains_iff_mem.mpr (full e mem due few)] at kept
    cases kept

theorem wcbPartialDrain_drains {s : State} {n l line m k : Nat} (serves : Serves s line m k)
    (clean : s.mem.marked (64 * line) = false) (entry : ∃ e ∈ (s.chan n l).wcb, e.line = line ∧ e.st = .partly) :
    ∃ u, exec (.wcbPartialDrain n l line [] []) s = .next u ∧ u.mem = s.mem ∧ ∀ e ∈ (u.chan n l).wcb, e.line ≠ line := by
  obtain ⟨e, he, at', part⟩ := entry
  have found : ((s.chan n l).wcb.any fun e => e.line == line && e.st == .partly) = true :=
    List.any_eq_true.mpr ⟨e, he, by simp [at', part]⟩
  have read : s.channelRead line 0xFFFF [] [] false = s.nextFree := by
    rw [channelRead_unmarked serves 0xFFFF [] [] false clean (decodeSyms_clean s.free nofun) nofun]
    rfl
  refine ⟨_, congrArg Host.Outcome.next (if_pos found), ?_, fun x hx => ?_⟩
  · rw [State.modChan_mem, read, if_neg (by simp [State.nextFree, clean])]
    rfl
  · rw [State.chan_modChan] at hx
    simpa using (List.mem_filter.mp hx).2

/-- `MEMSIDE_ADD` of an operation at an unmarked element (R267). -/
theorem memsideAdd_leaves {s : State} {addr cls op fmt scale data : Nat} {berth : Option Nat} {o : AddOp}
    (named : memsideOp cls op fmt (signedOf 8 scale) data = some o) (home : homeDie addr ≠ none) (aligned : addr % o.bytes = 0)
    (room : s.wcbRoom addr = true) (clean : s.mem.marked addr = false) :
    ∃ u, exec (.memsideAdd addr cls op fmt scale data berth) s = .next u ∧
      u.mem = s.mem.write addr (leBytes o.bytes (o.f (s.mem.num addr o.bytes))) false := by
  refine ⟨(s.homeAdd berth 0xFFFF addr o).1, congrArg Host.Outcome.next ?_, (homeAdd_unmarked _ _ _ clean).1⟩
  simp only [named]
  exact if_pos ⟨Option.isSome_iff_ne_none.mpr home, aligned, room⟩

theorem addersAndBuffersKeepMemory : AddersAndBuffersKeepMemory := fun s n l line addr => by
  refine ⟨rfl, wcbWriteRun_drains s n l, fun m k serves clean entry => wcbPartialDrain_drains serves clean entry,
    fun op fmt data berth size known home aligned room clean small => ?_,
    fun f code scale data berth row home aligned room clean => ?_,
    fun f code scale data berth row home aligned room clean => ?_⟩
  · have fits : data < 2 ^ 64 := by rcases size with rfl | rfl <;> omega
    have named : memsideOp 0 op fmt (signedOf 8 0) data = some (intOpOf op fmt data 0) := by
      rw [memsideOp, if_pos ⟨size, known⟩, Nat.mod_eq_of_lt fits, Nat.div_eq_of_lt fits]
    obtain ⟨u, run, mem⟩ := memsideAdd_leaves (berth := berth) named home aligned room clean
    have value := atomicOp_eq (aop := op) (xfmt := 0) (a := data) (b := 0) (by omega) (Store.num_lt s.mem addr fmt)
      (fun _ => small) (fun _ => Nat.two_pow_pos _)
    rw [atomicOp, if_neg (by omega), if_neg (by omega)] at value
    exact ⟨u, run, mem.trans (congrArg (fun v => s.mem.write addr (leBytes fmt v) false) value)⟩
  · have named : memsideOp 1 0 code (signedOf 8 scale) data = some (floatOpOf f data) := by
      obtain ⟨rfl, rfl⟩ | ⟨rfl, rfl⟩ | ⟨rfl, rfl⟩ : (code = 0xB ∧ f = .fp32) ∨ (code = 0x8 ∧ f = .fp16) ∨ (code = 0x9 ∧ f = .bf16) := by
        simpa using row
      all_goals rfl
    exact memsideAdd_leaves (berth := berth) named home aligned room clean
  · have named : memsideOp 2 0 code (signedOf 8 scale) data = some (cellOpOf (decodeElem f data) (signedOf 8 scale)) := by
      obtain ⟨rfl, rfl⟩ | ⟨rfl, rfl⟩ | ⟨rfl, rfl⟩ | ⟨rfl, rfl⟩ | ⟨rfl, rfl⟩ :
          (code = 0x0 ∧ f = .e4m3) ∨ (code = 0x1 ∧ f = .e5m2) ∨ (code = 0x7 ∧ f = .int8) ∨ (code = 0x8 ∧ f = .fp16) ∨
            (code = 0xA ∧ f = .g16) := by
        simpa using row
      all_goals rfl
    obtain ⟨u, run, mem⟩ := memsideAdd_leaves (berth := berth) named home aligned room clean
    simp only [cellOpOf] at mem
    exact ⟨u, run, mem⟩

/-- Settles O11: a read does what the decoder answers, a write is one piece of its line, and an add one element. -/
theorem channelsReadWriteAndAdd : Obligations.ChannelsReadWriteAndAdd :=
  ⟨channelReadsDecode, channelWritesStore, addersAndBuffersKeepMemory⟩

end Sys2Proof.Machine
end

section
/-!
Spares and relocation of channels, and the status register (09 R272-R279).
-/

namespace Sys2Proof.Machine

/-! Channels after others changed. -/

/-- A channel of the same stack that was not changed. -/
theorem State.chan_modChan_other (s : State) (n : Nat) {l k : Nat} (f : ChanSt → ChanSt) (h : l ≠ k) :
    (s.modChan n k f).chan n l = s.chan n l := tget_tset_other _ _ _ (by omega)

@[simp] theorem State.groupFree_modChan (s : State) (n l m g : Nat) (f : ChanSt → ChanSt) :
    (s.modChan n l f).groupFree m g = s.groupFree m g := rfl

/-- What the choice of the next copy back does to a channel: nothing, or its copy back begins (R274). -/
theorem groupNext_chan (s : State) (n g l : Nat) :
    (s.groupNext n g).chan n l = s.chan n l ∨
      ((s.chan n l).passed = true ∧ (s.groupNext n g).chan n l = { s.chan n l with mode := .copyingBack, passed := false }) := by
  unfold State.groupNext
  split
  · exact .inl rfl
  · split
    · rename_i k found
      by_cases same : l = k
      · subst same
        exact .inr ⟨by simpa using List.find?_some found, State.chan_modChan ..⟩
      · exact .inl (State.chan_modChan_other _ _ _ same)
    · exact .inl rfl

theorem groupNext_chan_of_not_passed {s : State} {n l : Nat} (g : Nat) (h : (s.chan n l).passed = false) :
    (s.groupNext n g).chan n l = s.chan n l :=
  (groupNext_chan s n g l).resolve_right fun e => by simp [h] at e

/-- A changed channel that no passed original waits in. -/
theorem groupNext_modChan_chan {s : State} {n l g : Nat} {f : ChanSt → ChanSt} (h : (f (s.chan n l)).passed = false) :
    ((s.modChan n l f).groupNext n g).chan n l = f (s.chan n l) :=
  (groupNext_chan_of_not_passed g (by rw [State.chan_modChan]; exact h)).trans (State.chan_modChan ..)

theorem State.groupNext_mem (s : State) (n g : Nat) : (s.groupNext n g).mem = s.mem :=
  (State.groupNext_frame s n g).frame .mem (by decide)

theorem State.groupNext_groupFree (s : State) (n g m k : Nat) : (s.groupNext n g).groupFree m k = s.groupFree m k := by
  rw [State.groupFree, show _ = _ from (State.groupNext_frame s n g).frame .groups (by decide)]
  rfl

/-! Spares. -/

theorem spareCopyStart_takes {s : State} {n l p : Nat} {r : List Nat} (may : MayTakeSpare s n l)
    (free : s.groupFree n (l / 64) = p :: r) :
    ∃ u, exec (.spareCopyStart n l) s = .next u ∧ (u.chan n l).mode = .copying ∧
      (u.chan n l).spare = some (72 * (l / 64) + p) ∧ (u.chan n l).phys = (s.chan n l).phys ∧
      u.groupFree n (l / 64) = r ∧ u.mem = s.mem := by
  obtain ⟨die, chan, normal, stays, quiet, queued⟩ := may
  have run : exec (.spareCopyStart n l) s = .next _ := congrArg Host.Outcome.next
    ((if_pos ⟨chan, die, normal, by simp [stays], by simp [quiet], queued.imp_left fun h => ⟨h.1, Option.isSome_iff_ne_none.mpr h.2⟩⟩).trans
      (by simp only [free]; rfl))
  have chan := State.chan_modChan { s with groups := tset s.groups (groupKey n (l / 64)) r } n l fun y =>
    { y with mode := .copying, spare := some (72 * (l / 64) + p) }
  exact ⟨_, run, congrArg ChanSt.mode chan, congrArg ChanSt.spare chan, (congrArg ChanSt.phys chan :), tget_tset_self .., rfl⟩

theorem spareCopyDone_serves {s : State} {n l p : Nat} (copying : (s.chan n l).mode = .copying) (spare : (s.chan n l).spare = some p)
    (why : (s.chan n l).why = none) (fresh : (s.chan n l).passed = false) :
    ∃ u, exec (.spareCopyDone n l true) s = .next u ∧ (u.chan n l).phys = p ∧
      (u.chan n l).original = some (s.chan n l).phys ∧ u.mem = s.mem := by
  have run : exec (.spareCopyDone n l true) s = .next _ := congrArg Host.Outcome.next (by
    simp only [copying, spare, why, if_true]; rfl)
  refine ⟨_, run, ?_, ?_, State.groupNext_mem ..⟩
  · rw [groupNext_modChan_chan]; exact fresh
  · rw [groupNext_modChan_chan]; exact fresh

theorem retrainDone_passes {s : State} {n l p : Nat} (onSpare : (s.chan n l).mode = .onSpare)
    (original : (s.chan n l).original = some p) (fresh : (s.chan n l).passed = false) (clean : s.listedPins n p = []) :
    ∃ u, exec (.retrainDone n l true) s = .next u ∧ u.mem = s.mem ∧
      ((u.chan n l).mode = .copyingBack ∨ (u.chan n l).passed = true) := by
  have run : exec (.retrainDone n l true) s = .next _ := congrArg Host.Outcome.next (by
    simp only [onSpare, original, fresh, clean, List.isEmpty_nil, and_self, Bool.false_eq_true, if_false, if_true]; rfl)
  refine ⟨_, run, State.groupNext_mem .., ?_⟩
  rcases groupNext_chan (s.modChan n l fun y => { y with passed := true }) n (l / 64) l with kept | ⟨-, back⟩
  · exact .inr (by rw [kept, State.chan_modChan])
  · exact .inl (by rw [back])

theorem copyBackDone_serves {s : State} {n l p : Nat} (back : (s.chan n l).mode = .copyingBack)
    (original : (s.chan n l).original = some p) (group : (s.chan n l).phys / 72 = l / 64) (fresh : (s.chan n l).passed = false) :
    ∃ u, exec (.copyBackDone n l) s = .next u ∧ (u.chan n l).phys = p ∧ (u.chan n l).mode = .normal ∧
      (s.chan n l).phys % 72 ∈ u.groupFree n (l / 64) ∧ u.mem = s.mem := by
  have run : exec (.copyBackDone n l) s = .next _ := congrArg Host.Outcome.next (by
    simp only [back, original]; rfl)
  refine ⟨_, run, ?_, ?_, ?_, State.groupNext_mem ..⟩
  · rw [groupNext_modChan_chan]; exact fresh
  · rw [groupNext_modChan_chan]; exact fresh
  · rw [State.groupNext_groupFree, State.groupFree_modChan, State.groupFree]
    dsimp only
    rw [tget_tset_self]
    refine List.mem_filter.mpr ⟨List.mem_range.mpr (Nat.mod_lt _ (by decide)), ?_⟩
    rw [Bool.or_eq_true, beq_iff_eq]
    exact .inr (by omega)

theorem sparesStandIn : SparesStandIn := fun s n l p => by
  refine ⟨fun r => spareCopyStart_takes, spareCopyDone_serves, retrainDone_passes, copyBackDone_serves,
    fun die chan normal has => ?_, fun die chan normal has none => ?_, fun stalled => ?_⟩
  · have run : exec (.retrainDue n l) s = .next _ := congrArg Host.Outcome.next
      ((if_pos ⟨chan, die, normal⟩).trans (if_neg (by simp [has])))
    refine ⟨_, run, ?_⟩
    rw [State.chan_modChan]
    exact ⟨rfl, normal⟩
  · have quiet : ((List.range 1024).any fun k => (s.chan n k).mode == .stalled) = false := by
      simpa [List.any_eq_false] using none
    have run : exec (.retrainDue n l) s = .next _ := congrArg Host.Outcome.next
      ((if_pos ⟨chan, die, normal⟩).trans (if_pos (by rw [has, quiet]; exact ⟨rfl, rfl⟩)))
    refine ⟨_, run, ?_⟩
    rw [State.chan_modChan]
  · have run : exec (.retrainDone n l true) s = .next _ := congrArg Host.Outcome.next (by
      simp only [stalled, true_or, if_true]; rfl)
    refine ⟨_, run, ?_, rfl⟩
    rw [State.chan_modChan]

/-! Relocation and status. -/

@[simp] theorem State.chan_modStack (s : State) (k n l : Nat) (f : StackSt → StackSt) : (s.modStack k f).chan n l = s.chan n l := rfl

/-- What an entry of the defect list and its event leave of the stacks. -/
theorem listed_frame (v : State) (e : DefectEnt) (code a b : Nat) :
    Frame [.out, .defects, .host, .mbox] v ((v.addDefect e).moduleEvent code a b) :=
  (Change.tr (Change.tr .refl (State.addDefect_frame v e) (by decide)) (State.moduleEvent_frame _ _ _ _ _) (by decide) :
    Change [.out, .defects, .host, .mbox] _ _).frame

theorem listed_chan (v : State) (e : DefectEnt) (code a b n l : Nat) :
    ((v.addDefect e).moduleEvent code a b).chan n l = v.chan n l :=
  congrArg (fun x => tget x (chanReset l) (1024 * n + l)) (listed_frame v e code a b .chans (by decide))

theorem listed_stack (v : State) (e : DefectEnt) (code a b n : Nat) :
    ((v.addDefect e).moduleEvent code a b).stack n = v.stack n :=
  congrArg (fun x : Tbl StackSt => tget x {} n) (listed_frame v e code a b .hbm (by decide))

theorem listed_mem (v : State) (e : DefectEnt) (code a b : Nat) : ((v.addDefect e).moduleEvent code a b).mem = v.mem :=
  listed_frame v e code a b .mem (by decide)

theorem channelRelocationDone_relocates {s : State} {n l : Nat} (leaves : (s.chan n l).leaving = true) (runs : s.lk.active ≠ none)
    (range : s.withdrawn n (windowAfter ((s.stack n).relocated + 1)) = true) :
    ∃ u, exec (.channelRelocationDone n l) s = .next u ∧ (u.chan n l).mode = .relocated ∧ (u.chan n l).leaving = false ∧
      (u.stack n).relocated = (s.stack n).relocated + 1 ∧
      (u.stack n).limit = min (s.stack n).limit (64 * 2 ^ 30 - ((s.stack n).relocated + 1) * (128 * 2 ^ 20)) ∧
      u.mem = s.mem := by
  have active : s.lk.active.isNone = false := Option.isNone_eq_false_iff.mpr (Option.isSome_iff_ne_none.mpr runs)
  have run : exec (.channelRelocationDone n l) s = .next _ := congrArg Host.Outcome.next (if_neg (by simp [leaves, active, range]))
  refine ⟨_, run, ?_, ?_, ?_, ?_, listed_mem ..⟩
  · rw [listed_chan, State.chan_modStack, State.chan_modStack, State.chan_modChan]
  · rw [listed_chan, State.chan_modStack, State.chan_modStack, State.chan_modChan]
  · rw [listed_stack, State.stack_modStack, State.stack_modStack]
  · rw [listed_stack, State.stack_modStack, State.stack_modStack]
    rfl

theorem channelsRelocateAndReport : ChannelsRelocateAndReport := fun s n l => by
  refine ⟨channelRelocationDone_relocates, fun die chan => ?_⟩
  have run : exec (.channelStatusRead n l) s = .next _ := congrArg Host.Outcome.next (if_pos ⟨die, chan⟩)
  have cleared := State.chan_modChan (s.emit { kind := .answer, port := controlBase n + 0x100000 + 8 * l, args := [s.chanStatus n l] })
    n l fun x => { x with corr := 0, uncorr := 0 }
  exact ⟨_, _, run, rfl, rfl, rfl, congrArg ChanSt.corr cleared, congrArg ChanSt.uncorr cleared, (congrArg ChanSt.phys cleared :),
    (congrArg ChanSt.dead cleared :)⟩

/-- Settles O12: each command is one change of its channel, which the choice of the next copy back leaves alone. -/
theorem channelsAreSparedAndRelocated : Obligations.ChannelsAreSparedAndRelocated := ⟨sparesStandIn, channelsRelocateAndReport⟩

end Sys2Proof.Machine
end

section
/-!
What the derivation of a scale record makes of a step (10 R294, R300).
-/

namespace Sys2Proof.Machine

section
variable (c : ScaleCfg) (r : ScaleRec)

/-- A finite step enters the history first. -/
theorem deriveFinite_history (a : Nat) : (deriveFinite c r a).histN = min (r.histN + 1) (c.depth + 1) ∧
    (deriveFinite c r a).hist.head? = some (unsignedOf 16 (amaxExpo a)) := by
  unfold deriveFinite
  simp only
  split
  · exact ⟨rfl, rfl⟩
  · split
    · exact ⟨rfl, rfl⟩
    · split <;> exact ⟨rfl, rfl⟩

/-- Scale and window follow the maximum of the history, the scale by its policy. -/
theorem deriveFinite_follows {a : Nat} {xm : Int} (h : histMax (deriveFinite c r a).hist = some xm) :
    (c.policy = 0 → (deriveFinite c r a).scale = scaleClamp c (xm - scaleEmax c.fmt + c.margin)) ∧
    (c.policy = 1 → a ≠ 0 → (deriveFinite c r a).scale = scaleClamp c (amaxExpo a - scaleEmax c.fmt + c.margin)) ∧
    (deriveFinite c r a).win = min (max (xm + c.winHead - 126) (-320)) 160 := by
  unfold deriveFinite at h ⊢
  simp only at h ⊢
  split at h
  · rename_i none
    simp only at h
    rw [none] at h
    cases h
  · rename_i y some
    have : y = xm := by
      split at h
      · simp only at h; rw [some] at h; exact Option.some.inj h
      · split at h <;> (simp only at h; rw [some] at h; exact Option.some.inj h)
    subst this
    simp only
    refine ⟨fun hp => ?_, fun hp ha => ?_, ?_⟩
    · rw [if_pos hp]
    · rw [if_neg (by omega), if_pos ⟨hp, ha⟩]
    · trivial

/-- No step changes the count of window overflows but one with an overflow. -/
theorem deriveFinite_wovfSteps (a : Nat) : (deriveFinite c r a).wovfSteps = r.wovfSteps := by
  unfold deriveFinite
  simp only
  split
  · rfl
  · split
    · rfl
    · split <;> rfl

theorem deriveNonFinite_keeps : (deriveNonFinite c r).wovfSteps = r.wovfSteps ∧ (deriveNonFinite c r).win = r.win ∧
    (deriveNonFinite c r).lastAmax = r.lastAmax ∧ (deriveNonFinite c r).nfSteps = min 4095 (r.nfSteps + 1) := by
  unfold deriveNonFinite
  simp only
  split <;> split <;> exact ⟨rfl, rfl, rfl, rfl⟩

theorem deriveNonFinite_holds : (deriveNonFinite c r).scale = (if c.ovf = 0 then r.scale else scaleClamp c (r.scale + c.backoff)) ∧
    (deriveNonFinite c r).histN = if c.ovf = 2 then 0 else r.histN := by
  unfold deriveNonFinite
  simp only
  by_cases holds : c.ovf = 0
  · simp [holds]
  · simp only [show 1 ≤ c.ovf by omega, if_true, holds, if_false]
    split <;> exact ⟨rfl, rfl⟩

end

/-- A record with the flags of a step. -/
def ScaleRec.flagged (r : ScaleRec) (x : Contrib) : ScaleRec :=
  { r with nfLast := x.nf && x.c, wovfLast := x.wovf, idleLast := !x.c }

/-- A record after a step's contribution, before the fixed policy and the overflow of the window. -/
def contributed (c : ScaleCfg) (r : ScaleRec) (x : Contrib) : ScaleRec :=
  if x.c then
    if x.nf then deriveNonFinite c { r.flagged x with lastAmax := x.a } else deriveFinite c { r.flagged x with lastAmax := x.a } x.a
  else r.flagged x

/-- A record with the scale that a fixed policy gives. -/
def ScaleRec.held (c : ScaleCfg) (r : ScaleRec) : ScaleRec := if c.policy = 2 then { r with scale := c.fixed } else r

theorem derive_eq (c : ScaleCfg) (r : ScaleRec) (x : Contrib) : derive c r x =
    if x.wovf then { (contributed c r x).held c with
      wovfSteps := min 4095 (((contributed c r x).held c).wovfSteps + 1),
      win := min (max ((contributed c r x).held c).win (r.win + 32)) 160 }
    else (contributed c r x).held c := rfl

theorem ScaleRec.held_keeps {β : Type} (p : ScaleRec → β) (h : ∀ r y, p { r with scale := y } = p r) (c : ScaleCfg) (r : ScaleRec) :
    p (r.held c) = p r := by
  unfold ScaleRec.held
  split
  · exact h ..
  · rfl

theorem contributed_wovfSteps (c : ScaleCfg) (r : ScaleRec) (x : Contrib) : (contributed c r x).wovfSteps = r.wovfSteps := by
  unfold contributed
  split
  · split
    · exact (deriveNonFinite_keeps ..).1
    · exact deriveFinite_wovfSteps ..
  · rfl

/-- Settles O13, by the kinds of step: the contribution decides the record, then the policy, then the window. -/
theorem scalesAreDerived : Obligations.ScalesAreDerived := fun c r x => by
  refine ⟨fun idle calm policy => ?_, fun gave nf policy calm => ?_, fun gave finite calm => ?_, fun fixed => ?_, fun wovf => ?_⟩
  · simp only [derive_eq, calm, Bool.false_eq_true, if_false, ScaleRec.held, if_neg policy, contributed, idle, ScaleRec.flagged,
      Bool.and_false, Bool.not_false]
  · obtain ⟨-, win, last, steps⟩ := deriveNonFinite_keeps c { r.flagged x with lastAmax := x.a }
    obtain ⟨scale, hist⟩ := deriveNonFinite_holds c { r.flagged x with lastAmax := x.a }
    simp only [derive_eq, calm, Bool.false_eq_true, if_false, ScaleRec.held, if_neg policy, contributed, gave, nf, if_true]
    exact ⟨steps, last, win, scale, hist⟩
  · have eq : derive c r x = (deriveFinite c { r.flagged x with lastAmax := x.a } x.a).held c := by
      simp only [derive_eq, calm, Bool.false_eq_true, if_false, contributed, gave, finite, if_true]
    obtain ⟨histN, head⟩ := deriveFinite_history c { r.flagged x with lastAmax := x.a } x.a
    rw [eq, ScaleRec.held_keeps ScaleRec.histN (fun _ _ => rfl), ScaleRec.held_keeps ScaleRec.hist (fun _ _ => rfl),
      ScaleRec.held_keeps ScaleRec.win (fun _ _ => rfl)]
    refine ⟨histN, head, fun xm hm => ?_⟩
    obtain ⟨current, immediate, win⟩ := deriveFinite_follows c _ hm
    refine ⟨fun hp => ?_, fun hp ha => ?_, win⟩
    · rw [ScaleRec.held, if_neg (by omega)]; exact current hp
    · rw [ScaleRec.held, if_neg (by omega)]; exact immediate hp ha
  · rw [derive_eq, ScaleRec.held, if_pos fixed]
    split <;> rfl
  · rw [derive_eq, if_pos wovf]
    refine ⟨?_, ?_, Int.min_le_right ..⟩
    · simp only [ScaleRec.held_keeps ScaleRec.wovfSteps (fun _ _ => rfl), contributed_wovfSteps]
    · simp only
      omega

end Sys2Proof.Machine
end

section
/-!
What the operations on a berth keep of it: events, writes of its units, the keeper's work and the references of its commands
(10 R291, 15 R450-R454).
-/

namespace Sys2Proof.Machine

/-! What is kept of a berth: `g` is what is looked at, and each rule names the fields it must be blind to. -/

theorem State.berth_congr {s t : State} (same : t.berths = s.berths) (d : Nat) : t.berth d = s.berth d := by
  rw [State.berth, same, State.berth]

section
variable {α : Type} (g : BerthSt → α) (d : Nat)

theorem State.modBerth_keeps (s : State) (b : Nat) {f : BerthSt → BerthSt} (blind : ∀ y, g (f y) = g y) :
    g ((s.modBerth b f).berth d) = g (s.berth d) := by
  by_cases same : d = b
  · rw [same, State.berth_modBerth, blind]
  · rw [State.berth_modBerth_other s f same]

theorem State.berthEvent_keeps (s : State) (b code x y : Nat) (p : Bytes) :
    g ((s.berthEvent b code x y p).berth d) = g (s.berth d) :=
  (congrArg g (State.berth_congr ((State.berthEvent_frame _ _ _ _ _ _).frame .berths (by decide)) d) :)

theorem State.unitWrite_keeps (s : State) (b va : Nat) (bs : Bytes) (m : Bool) :
    g ((s.unitWrite b va bs m).berth d) = g (s.berth d) :=
  (congrArg g (State.berth_congr ((State.unitWrite_frame _ _ _ _ _).frame .berths (by decide)) d) :)

section
variable (keeper : ∀ y k, g { y with keeper := k } = g y)
include keeper

theorem State.count_keeps (s : State) (b i n : Nat) : g ((s.count b i n).berth d) = g (s.berth d) := by
  unfold State.count
  split
  · rfl
  · exact State.modBerth_keeps g d s b fun y => keeper y _

theorem State.clearAcc_keeps (s : State) (b i : Nat) : g ((s.clearAcc b i).berth d) = g (s.berth d) := by
  unfold State.clearAcc
  exact State.modBerth_keeps g d s b fun y => keeper y _

section
variable (reported : ∀ y r, g { y with reported := r } = g y)
include reported

theorem State.poisonRead_keeps (s : State) (berth : Option Nat) (reader pa : Nat) :
    g ((s.poisonRead berth reader pa).berth d) = g (s.berth d) := by
  unfold State.poisonRead
  extract_lets t
  have counted : g (t.berth d) = g (s.berth d) := by
    cases berth with
    | some b => exact State.count_keeps g d keeper s b 6 1
    | none => rfl
  refine (forL_keeps (fun u : State => g (u.berth d)) _ _ _ fun b u => ?_).trans counted
  split
  · rfl
  · exact (State.berthEvent_keeps g d ..).trans (State.modBerth_keeps g d u b fun y => reported y _)

theorem State.homeAdd_keeps (s : State) (berth : Option Nat) (reader pa : Nat) (op : AddOp) :
    g ((s.homeAdd berth reader pa op).1.berth d) = g (s.berth d) := by
  unfold State.homeAdd
  split
  · exact State.poisonRead_keeps g d keeper reported s berth reader _
  · extract_lets old new s1 s2
    have stored : g (s1.berth d) = g (s.berth d) :=
      (congrArg g (State.berth_congr ((State.wcbNote_frame _ _ _ _).frame .berths (by decide)) d) :)
    cases berth with
    | none => exact stored
    | some b =>
      unfold s2
      simp only
      split
      · rw [State.count_keeps g d keeper]; exact stored
      · exact stored

theorem State.combAccess_keeps (s : State) (b va aop x : Nat) :
    g ((s.combAccess b va aop x).1.berth d) = g (s.berth d) := by
  unfold State.combAccess
  split
  · rfl
  · extract_lets die v
    split
    · rfl
    · exact (congrArg g (State.berth_congr ((State.sendRequest_frame _ _ _ _ _ _ _).frame .berths (by decide)) d) :)
  · split
    · exact State.poisonRead_keeps g d keeper reported s _ _ _
    · split
      · rfl
      · exact State.homeAdd_keeps g d keeper reported s _ _ _ _

theorem State.combine_keeps (s : State) (b n comb : Nat) (x : Contrib) :
    g ((s.combine b n comb x).1.berth d) = g (s.berth d) := by
  have step := State.combAccess_keeps g d keeper reported
  unfold State.combine
  extract_lets rd wr cl r1 r2 w1 w2 c1 c2
  have k1 : g (r2.1.berth d) = g (s.berth d) := (step ..).trans (step ..)
  have k2 : g (w1.1.berth d) = g (s.berth d) := by
    unfold w1; split
    · exact (step ..).trans k1
    · exact k1
  have k3 : g (w2.1.berth d) = g (s.berth d) := by
    unfold w2; split
    · exact (step ..).trans k2
    · exact k2
  exact (step ..).trans ((step ..).trans k3)

theorem State.scaleStep_keeps (s : State) (b n i : Nat) : g ((s.scaleStep b n i).berth d) = g (s.berth d) := by
  have cnt := State.count_keeps g d keeper
  unfold State.scaleStep
  split
  · rw [cnt]
    split
    · split
      · exact State.poisonRead_keeps g d keeper reported s _ _ _
      · rfl
    · rfl
  · split
    · rfl
    · split
      · rw [cnt, State.unitWrite_keeps g d]
      · extract_lets c own r1 r2 q r x t
        have k1 : g (q.1.berth d) = g (s.berth d) := by
          unfold q; split
          · exact State.combine_keeps g d keeper reported s ..
          · rfl
        rw [State.clearAcc_keeps g d keeper, State.putScaleRec, State.unitWrite_keeps g d]
        exact (cnt ..).trans ((cnt ..).trans ((cnt ..).trans k1))

section
variable (held : ∀ y h, g { y with held := h } = g y)
include held

omit keeper reported in
theorem State.trip_keeps (s : State) (b source action loss value : Nat) :
    g ((s.trip b source action loss value).berth d) = g (s.berth d) := by
  unfold State.trip
  split
  · rfl
  · extract_lets base r w2 next s1 s2 s3
    have k1 : g (s2.berth d) = g (s.berth d) :=
      (State.unitWrite_keeps g d ..).trans (State.unitWrite_keeps g d ..)
    have k2 : g (s3.berth d) = g (s.berth d) := by
      unfold s3; split
      · exact (State.berthEvent_keeps g d ..).trans k1
      · exact k1
    split
    · exact (State.modBerth_keeps g d s3 b fun y => held y _).trans k2
    · exact k2

omit reported in
theorem State.sentinels_keeps (s : State) (b : Nat) : g ((s.sentinels b).berth d) = g (s.berth d) := by
  have cnt := State.count_keeps g d keeper
  have trip := State.trip_keeps g d held
  have write := State.unitWrite_keeps g d
  have tripStep : ∀ (t : State) k, g ((t.tripStep b k).berth d) = g (t.berth d) := by
    intro t k
    unfold State.tripStep
    extract_lets base now old word delta t1
    split
    · exact (trip ..).trans (write ..)
    · exact write ..
  have lossWatch : ∀ t : State, g ((t.lossWatch b).berth d) = g (t.berth d) := by
    intro t
    unfold State.lossWatch
    extract_lets base w0 w1 w2 loss mean seen bad spike t1 t2
    split
    · rfl
    · split
      · exact State.berthEvent_keeps g d ..
      · split
        · rfl
        · have k2 : g (t2.berth d) = g (t.berth d) := by
            unfold t2; split
            · exact (trip ..).trans ((write ..).trans ((cnt ..).trans (cnt ..)))
            · exact (write ..).trans (cnt ..)
          exact (write ..).trans k2
  unfold State.sentinels
  extract_lets base s1 soft s2
  split
  · rfl
  · split
    · exact State.berthEvent_keeps g d ..
    · have k1 : g (s1.berth d) = g (s.berth d) :=
        forN_keeps (fun u : State => g (u.berth d)) _ _ _ fun k u => write ..
      have k2 : g (s2.berth d) = g (s1.berth d) := State.modBerth_keeps g d s1 b fun y => keeper y _
      rw [lossWatch]
      exact (forN_keeps (fun u : State => g (u.berth d)) _ _ _ fun k u => tripStep u k).trans (k2.trans k1)

/-- The keeper's work changes of a berth its counters, the hold, the settings in force and the step sequence number alone. -/
theorem State.keeperWork_keeps (adopted : ∀ y k e r, g { y with keeper := k, exch := e, reported := r } = g y)
    (s : State) (b : Nat) :
    g ((s.keeperWork b).berth d) =
      g ((s.modBerth b fun x => { x with stepSeq := BitVec.ofNat 64 ((s.berth b).stepSeq.toNat + 1) }).berth d) := by
  unfold State.keeperWork
  extract_lets n s1 s2
  have k1 : g (s2.berth d) = g (s1.berth d) :=
    forN_keeps (fun u : State => g (u.berth d)) _ _ _ fun i u => State.scaleStep_keeps g d keeper reported u b n i
  have k2 := State.sentinels_keeps g d keeper held s2 b
  unfold State.adopt
  extract_lets base e
  exact (State.modBerth_keeps g d (s2.sentinels b) b fun y =>
    adopted y _ _ _).trans (k2.trans k1)

end
end
end

section
variable (events : ∀ y e n, g { y with evts := e, evtFree := n } = g y)
include events

theorem State.modEvt_keeps (s : State) (b h : Nat) (f : EvtSt → EvtSt) : g ((s.modEvt b h f).berth d) = g (s.berth d) :=
  State.modBerth_keeps g d s b fun y => events y _ y.evtFree

theorem State.evtSet_keeps (s : State) (b h value status : Nat) :
    g ((s.evtSet b h value status).berth d) = g (s.berth d) := by
  unfold State.evtSet
  split
  · rfl
  · extract_lets v s1
    split
    · rfl
    · split
      · exact (State.berthEvent_keeps g d ..).trans (State.modEvt_keeps g d events ..)
      · exact State.modEvt_keeps g d events ..

section
variable (objects : ∀ y o n, g { y with objs := o, objFree := n } = g y)

theorem State.evtSweep_keeps (s : State) (b h : Nat) : g ((s.evtSweep b h).berth d) = g (s.berth d) := by
  unfold State.evtSweep
  split
  · rfl
  · split
    · exact State.modBerth_keeps g d s b fun y => events y _ _
    · rfl

omit events in
include objects in
theorem State.objSweep_keeps (s : State) (b h : Nat) : g ((s.objSweep b h).berth d) = g (s.berth d) := by
  unfold State.objSweep
  split
  · rfl
  · split
    · exact (State.berthEvent_keeps g d ..).trans (State.modBerth_keeps g d s b fun y => objects y _ _)
    · rfl

include objects in
theorem State.dropRefs_keeps (s : State) (b : Nat) (a : AdmitSt) : g ((s.dropRefs b a).berth d) = g (s.berth d) := by
  unfold State.dropRefs
  extract_lets s1
  have k1 : g (s1.berth d) = g (s.berth d) :=
    forL_keeps (fun u : State => g (u.berth d)) _ _ _ fun h u =>
      (State.objSweep_keeps g d objects ..).trans (State.modBerth_keeps g d u b fun y => objects y _ y.objFree)
  exact (forL_keeps (fun u : State => g (u.berth d)) _ _ _ fun h u =>
    (State.evtSweep_keeps g d events ..).trans (State.modEvt_keeps g d events ..)).trans k1

end
end
end

end Sys2Proof.Machine
end

section
/-!
Boundaries, retirement and the end of a step (01 R36, R37, 10 R291, R305, 15 R467-R469).
-/

namespace Sys2Proof.Machine

/-! Whether the host can be reached is touched by its ports alone. -/

section
variable (s : State)

@[simp] theorem State.modFn_hostUp (f : Nat) (g : FnSt → FnSt) : (s.modFn f g).hostUp = s.hostUp := rfl

@[simp] theorem State.modBerth_hostUp (b : Nat) (g : BerthSt → BerthSt) : (s.modBerth b g).hostUp = s.hostUp := rfl

@[simp] theorem State.hostWrite_hostUp (a : Nat) (bs : Bytes) : (s.hostWrite a bs).hostUp = s.hostUp := rfl

@[simp] theorem State.ring_hostUp (m : Nat) (bits : BitVec 32) : (s.ring m bits).hostUp = s.hostUp := by
  unfold State.ring
  extract_lets
  split <;> rfl

@[simp] theorem State.noticeTo_hostUp (f code berth tally x y : Nat) (p : Bytes) :
    (s.noticeTo f code berth tally x y p).hostUp = s.hostUp := by
  unfold State.noticeTo
  extract_lets
  split
  · split <;> simp
  · simp

@[simp] theorem State.berthEvent_hostUp (b code x y : Nat) (p : Bytes) :
    (s.berthEvent b code x y p).hostUp = s.hostUp :=
  (State.noticeTo_hostUp ..).trans (State.noticeTo_hostUp ..)

@[simp] theorem State.modQueue_hostUp (b q : Nat) (g : QueueSt → QueueSt) : (s.modQueue b q g).hostUp = s.hostUp := by
  unfold State.modQueue
  split <;> rfl

@[simp] theorem State.evtSet_hostUp (b h value status : Nat) : (s.evtSet b h value status).hostUp = s.hostUp := by
  unfold State.evtSet
  split
  · rfl
  · extract_lets
    split
    · rfl
    · split
      · exact State.berthEvent_hostUp ..
      · rfl

@[simp] theorem State.dropRefs_hostUp (b : Nat) (a : AdmitSt) : (s.dropRefs b a).hostUp = s.hostUp := by
  unfold State.dropRefs
  refine (forL_keeps State.hostUp _ _ _ fun h u => ?evt).trans (forL_keeps State.hostUp _ _ _ fun h u => ?obj)
  case evt =>
    unfold State.evtSweep
    split
    · rfl
    · split <;> rfl
  case obj =>
    unfold State.objSweep
    split
    · rfl
    · split
      · exact State.berthEvent_hostUp ..
      · rfl

@[simp] theorem State.flrClear_hostUp (f : Nat) : (s.flrClear f).hostUp = s.hostUp := by
  unfold State.flrClear
  split <;> rfl

/-- What was just written to host memory is read back. -/
theorem State.hostRead_hostWrite {s : State} (wf : Memory.wf s.host.mem = true) (a : Nat) (bs : Bytes) :
    (s.hostWrite a bs).hostRead a bs.length = bs := by
  unfold State.hostRead State.hostWrite cellsGet
  apply List.ext_getElem
  · simp
  · intro i h1 h2
    simp only [List.length_map, List.length_range] at h1
    simp only [List.getElem_map, List.getElem_range]
    rw [cellGet_cellsPut _ _ _ wf, if_pos ⟨Nat.le_add_right .., by omega⟩, Nat.add_sub_cancel_left]
    simp [h2]

end

/-! Retirement. -/

section
variable {s : State} {b q : Nat} {x : QueueSt}

theorem State.queue_of_berth {s t : State} {b : Nat} (same : (t.berth b).queues = (s.berth b).queues) (q : Nat) :
    t.queue b q = s.queue b q := by
  rw [State.queue, same, State.queue]

theorem State.queue_of_berths {s t : State} (same : t.berths = s.berths) (b q : Nat) : t.queue b q = s.queue b q :=
  State.queue_of_berth (by rw [State.berth_congr same]) q

theorem State.queue_modQueue (front : s.queue b q = some x) (f : QueueSt → QueueSt) :
    (s.modQueue b q f).queue b q = some (f x) := by
  unfold State.modQueue
  rw [front]
  simp only
  rw [State.queue, State.berth_modBerth]
  exact tfind_tset_self ..

/-- A changed queue changes its berth's queues alone. -/
theorem State.modQueue_keeps {α : Type} (g : BerthSt → α) (d : Nat) (queues : ∀ y q, g { y with queues := q } = g y)
    (s : State) (b q : Nat) (f : QueueSt → QueueSt) : g ((s.modQueue b q f).berth d) = g (s.berth d) := by
  unfold State.modQueue
  split
  · rfl
  · exact State.modBerth_keeps g d s b fun y => queues y _


/-- A queue after its command `i` has left it. -/
def QueueSt.popped (i : Nat) (x : QueueSt) : QueueSt :=
  { x with retired := i + 1, run := none, reserving := false, admits := tdel x.admits i }

/-- The words of a retiring command. -/
def State.retiringWords (s : State) (b : Nat) (x : QueueSt) : List Nat :=
  match x.run with
  | some r => r.words
  | none => s.frontWords b x

/-- A retiring command gives its barges back. -/
def State.giveBarges (s : State) (b : Nat) (x : QueueSt) (w : List Nat) : State :=
  if (x.run.map fun r => r.barges).getD 0 = 0 ∨ (cmdOpc w = 2 ∧ (cw w 6).testBit 40) then s
  else s.modFn (b + 1) fun y => { y with bargeOwn := y.bargeOwn &&& ~~~((x.run.map fun r => r.barges).getD 0) }

/-- A retiring command signals its event. -/
def State.signalRetired (s : State) (b : Nat) (x : QueueSt) (w : List Nat) (status : Nat) : State :=
  if cmdSigEvt w = 0 ∨ !(tget x.admits {} x.retired).evts.contains (cmdSigEvt w) then s
  else s.evtSet b (cmdSigEvt w) (cw w 3) (if status = 0 then 0 else 1)

/-- A retiring command has left its queue and dropped its references; the host has not heard of it yet. -/
def State.leaveFront (s : State) (b q status : Nat) (x : QueueSt) : State :=
  ((((s.giveBarges b x (s.retiringWords b x)).signalRetired b x (s.retiringWords b x) status).modQueue b q
    (QueueSt.popped x.retired)).dropRefs b (tget x.admits {} x.retired)).flrClear (b + 1)

/-- The completion record of a retiring command, where it has one. -/
def State.putRecord (s : State) (b status count aux : Nat) (step : Bool) (fault : Bytes) (x : QueueSt) (w : List Nat) :
    State :=
  if (cw w 0).testBit 9 || status != 0 then
    (s.hostWrite (x.cplRing + 64 + 64 * (x.retired % 2 ^ x.log2))
      (cplBytes w status count (s.berth b).tally.toNat aux step fault)).ring (serviceMailbox (b + 1)) 8
  else s

theorem State.giveBarges_berths (s : State) (b : Nat) (x : QueueSt) (w : List Nat) :
    (s.giveBarges b x w).berths = s.berths := by
  unfold State.giveBarges
  split <;> rfl

theorem State.signalRetired_keeps {α : Type} (g : BerthSt → α) (d : Nat)
    (events : ∀ y e n, g { y with evts := e, evtFree := n } = g y) (s : State) (b status : Nat) (x : QueueSt) (w : List Nat) :
    g ((s.signalRetired b x w status).berth d) = g (s.berth d) := by
  unfold State.signalRetired
  split
  · rfl
  · exact State.evtSet_keeps g d events ..

theorem State.flrClear_berths (s : State) (f : Nat) : (s.flrClear f).berths = s.berths :=
  (State.flrClear_frame _ _).frame .berths (by decide)

/-- What is kept of a berth while a command leaves its queue. -/
theorem State.leaveFront_keeps {α : Type} (g : BerthSt → α) (d : Nat)
    (events : ∀ y e n, g { y with evts := e, evtFree := n } = g y) (objects : ∀ y o n, g { y with objs := o, objFree := n } = g y)
    (queues : ∀ y q, g { y with queues := q } = g y) (s : State) (b q status : Nat) (x : QueueSt) :
    g ((s.leaveFront b q status x).berth d) = g (s.berth d) := by
  unfold State.leaveFront
  rw [State.berth_congr (State.flrClear_berths _ _), State.dropRefs_keeps g d events objects,
    State.modQueue_keeps g d queues, State.signalRetired_keeps g d events,
    State.berth_congr (State.giveBarges_berths _ _ _ _)]

theorem State.leaveFront_queue (front : s.queue b q = some x) (status : Nat) :
    (s.leaveFront b q status x).queue b q = some (x.popped x.retired) := by
  have kept : ((s.giveBarges b x (s.retiringWords b x)).signalRetired b x (s.retiringWords b x) status).queue b q = some x := by
    rw [State.queue_of_berth (State.signalRetired_keeps (·.queues) b (fun _ _ _ => rfl) _ _ _ _ _) q,
      State.queue_of_berths (State.giveBarges_berths _ _ _ _), front]
  unfold State.leaveFront
  rw [State.queue_of_berths (State.flrClear_berths _ _),
    State.queue_of_berth (State.dropRefs_keeps (·.queues) b (fun _ _ _ => rfl) (fun _ _ _ => rfl) _ _ _) q,
    State.queue_modQueue kept]

theorem State.leaveFront_hostUp (s : State) (b q status : Nat) (x : QueueSt) :
    (s.leaveFront b q status x).hostUp = s.hostUp := by
  unfold State.leaveFront State.signalRetired State.giveBarges
  rw [State.flrClear_hostUp, State.dropRefs_hostUp, State.modQueue_hostUp]
  split
  · split <;> rfl
  · rw [State.evtSet_hostUp]
    split <;> rfl

/-- Once it has left its queue, the host hears of a retired command, or its counter of lost records does. -/
theorem State.retireFront_eq (front : s.queue b q = some x) (status count aux : Nat) (step : Bool) (fault : Bytes) :
    s.retireFront b q status count aux step fault =
      let t := s.leaveFront b q status x
      let w := s.retiringWords b x
      if t.hostUp then (t.putRecord b status count aux step fault x w).hostWrite x.cplRing (leBytes 8 (x.retired + 1))
      else t.modFn (b + 1) fun y => { y with
        cplLost := (y.cplLost + ((if (cw w 0).testBit 9 || status != 0 then 1 else 0) + 1)) % 2 ^ 32 } := by
  unfold State.retireFront
  rw [front]
  rfl

theorem State.putRecord_berths (s : State) (b status count aux : Nat) (step : Bool) (fault : Bytes) (x : QueueSt)
    (w : List Nat) : (s.putRecord b status count aux step fault x w).berths = s.berths := by
  unfold State.putRecord
  split
  · exact (State.ring_frame _ _ _).frame .berths (by decide)
  · rfl

theorem State.retireFront_berths (front : s.queue b q = some x) (status count aux : Nat) (step : Bool) (fault : Bytes) :
    (s.retireFront b q status count aux step fault).berths = (s.leaveFront b q status x).berths := by
  rw [State.retireFront_eq front]
  extract_lets t w
  split
  · exact State.putRecord_berths ..
  · rfl

theorem State.leaveFront_frame (s : State) (b q status : Nat) (x : QueueSt) :
    Change [.out, .berths, .host, .mbox] s (s.leaveFront b q status x) := by
  have given : Change [.out, .berths, .host, .mbox] s (s.giveBarges b x (s.retiringWords b x)) := by
    unfold State.giveBarges
    split
    · exact Change.refl
    · exact Change.refl.tr (State.modFn_frame _ _ _) (by decide)
  have signalled : Change [.out, .berths, .host, .mbox] s
      ((s.giveBarges b x (s.retiringWords b x)).signalRetired b x (s.retiringWords b x) status) := by
    unfold State.signalRetired
    split
    · exact given
    · exact given.tr (State.evtSet_frame _ _ _ _ _) (by decide)
  exact ((signalled.tr (State.modQueue_frame _ _ _ _) (by decide)).tr (State.dropRefs_frame _ _ _) (by decide)).tr
    (State.flrClear_frame _ _) (by decide)

/-- The host finds the count of retired commands. -/
theorem State.retireFront_count (front : s.queue b q = some x) (wf : Memory.wf s.host.mem = true) (up : s.hostUp = true)
    (status count aux : Nat) (step : Bool) (fault : Bytes) :
    (s.retireFront b q status count aux step fault).hostRead x.cplRing 8 = leBytes 8 (x.retired + 1) := by
  rw [State.retireFront_eq front]
  extract_lets t w
  rw [if_pos ((State.leaveFront_hostUp ..).trans up)]
  have left : Memory.wf t.host.mem = true := (State.leaveFront_frame s b q status x .host).2 wf
  have put : Memory.wf (t.putRecord b status count aux step fault x w).host.mem = true := by
    unfold State.putRecord
    split
    · exact (State.ring_frame _ _ _ .host).2 ((State.hostWrite_frame _ _ _ .host).2 left)
    · exact left
  have read := State.hostRead_hostWrite put x.cplRing (leBytes 8 (x.retired + 1))
  rwa [show (leBytes 8 (x.retired + 1)).length = 8 from rfl] at read

theorem State.ctxGone_of_ctxs {s t : State} (same : t.ctxs = s.ctxs) (c : Nat) : t.ctxGone c = s.ctxGone c := by
  unfold State.ctxGone State.ctx
  rw [same]

/-- A queue that is neither destroyed nor of an abandoned context stays. -/
theorem State.sweepQueue_same (front : s.queue b q = some x) (alive : s.ctxGone x.ctx = false)
    (wanted : x.destroying = false) : s.sweepQueue b q = s := by
  unfold State.sweepQueue
  rw [front]
  simp [alive, wanted, front]

/-- With the command that ends a step comes the keeper's work, and the boundary's actions are owed. -/
def State.stepEnded (s : State) (b : Nat) (x : QueueSt) : State :=
  if s.endsStep b x then (s.keeperWork b).modBerth b fun y => { y with
    boundary := true, withhold := y.withhold || y.handOver }
  else s

/-- What is kept of a berth at the end of a step, but the step sequence number. -/
theorem State.stepEnded_keeps {α : Type} (g : BerthSt → α) (d : Nat)
    (keeper : ∀ y k, g { y with keeper := k } = g y) (reported : ∀ y r, g { y with reported := r } = g y)
    (held : ∀ y h, g { y with held := h } = g y)
    (adopted : ∀ y k e r, g { y with keeper := k, exch := e, reported := r } = g y)
    (counted : ∀ y n, g { y with stepSeq := n } = g y)
    (owed : ∀ y w, g { y with boundary := true, withhold := w } = g y) (s : State) (b : Nat) (x : QueueSt) :
    g ((s.stepEnded b x).berth d) = g (s.berth d) := by
  unfold State.stepEnded
  split
  · exact (State.modBerth_keeps g d _ b fun y => owed y _).trans
      ((State.keeperWork_keeps g d keeper reported held adopted s b).trans
        (State.modBerth_keeps g d s b fun y => counted y _))
  · rfl

theorem State.stepEnded_queue (front : s.queue b q = some x) : (s.stepEnded b x).queue b q = some x := by
  rw [State.queue_of_berth (State.stepEnded_keeps (·.queues) b (fun _ _ => rfl) (fun _ _ => rfl) (fun _ _ => rfl)
    (fun _ _ _ _ => rfl) (fun _ _ => rfl) (fun _ _ => rfl) s b x) q, front]

theorem State.stepEnded_ctxs (s : State) (b : Nat) (x : QueueSt) : (s.stepEnded b x).ctxs = s.ctxs := by
  unfold State.stepEnded
  split
  · exact (State.keeperWork_frame s b).frame .ctxs (by decide)
  · rfl

section
variable {r : RunSt} {code : Nat} (front : s.queue b q = some x) (running : x.run = some r) (done : r.done = some code)
  (alive : s.ctxGone x.ctx = false) (wanted : x.destroying = false)
include front running done alive wanted

/-- A command whose work has ended retires from its queue. -/
theorem State.retireOne_done : s.retireOne b q =
    (s.stepEnded b x).retireFront b q code r.count r.aux (s.endsStep b x) r.fault := by
  have stays : s.finishRun b q = s := by
    unfold State.finishRun
    simp [front, running, done]
  have taken : s.retiring b x = some (code, r.count, r.aux, r.fault) := by
    unfold State.retiring
    simp [running, done]
  have there := State.stepEnded_queue front
  unfold State.retireOne
  simp only [stays, front, taken]
  refine State.sweepQueue_same (x := x.popped x.retired) ?_ ?_ wanted
  · exact (State.queue_of_berths (State.retireFront_berths there ..) b q).trans (State.leaveFront_queue there _)
  · have ctxs : ((s.stepEnded b x).retireFront b q code r.count r.aux (s.endsStep b x) r.fault).ctxs = s.ctxs :=
      ((State.retireFront_frame _ _ _ _ _ _ _ _).frame .ctxs (by decide)).trans (State.stepEnded_ctxs s b x)
    exact (State.ctxGone_of_ctxs ctxs _).trans alive

/-- What is kept of a berth while a command whose work has ended retires. -/
theorem State.retireOne_keeps {α : Type} (g : BerthSt → α)
    (events : ∀ y e n, g { y with evts := e, evtFree := n } = g y) (objects : ∀ y o n, g { y with objs := o, objFree := n } = g y)
    (queues : ∀ y q, g { y with queues := q } = g y) :
    g ((s.retireOne b q).berth b) = g ((s.stepEnded b x).berth b) := by
  rw [State.retireOne_done front running done alive wanted,
    State.berth_congr (State.retireFront_berths (State.stepEnded_queue front) ..)]
  exact State.leaveFront_keeps g b events objects queues ..

theorem State.retireOne_queue : (s.retireOne b q).queue b q = some (x.popped x.retired) := by
  have there := State.stepEnded_queue front
  rw [State.retireOne_done front running done alive wanted, State.queue_of_berths (State.retireFront_berths there ..)]
  exact State.leaveFront_queue there _

end

end

/-! Boundaries. -/

section
variable {s : State} {b : Nat} (owed : (s.berth b).boundary = true) (free : (tget s.snaps {} b).phase = 0)
include owed free

/-- A held berth owes the actions of its boundary. -/
theorem State.boundaryActions_held (held : (s.berth b).held = true) :
    s.boundaryActions b = s.modBerth b fun y => { y with holdDue := true } := by
  unfold State.boundaryActions
  simp [owed, free, held]

/-- Without timetable and lockage a boundary opens the queues again. -/
theorem State.boundaryActions_open (held : (s.berth b).held = false) (none : s.setting 0x8011 (b + 1) 0 = 0) :
    s.boundaryActions b = (s.modBerth b fun y => { y with holdDue := false }).modBerth b fun y => { y with boundary := false } := by
  have still : (s.modBerth b fun y => { y with holdDue := false }).timetable b =
      s.modBerth b fun y => { y with holdDue := false } := by
    unfold State.timetable
    exact if_pos none
  unfold State.boundaryActions
  simp [owed, free, held, still]

omit free in
/-- The command carries out a boundary's actions. -/
theorem stepBoundary_next : exec (.stepBoundary b) s = .next (s.boundaryActions b) :=
  congrArg Host.Outcome.next (by simp only [owed, if_true])

end

theorem State.release_not_held {s : State} {b : Nat} (held : (s.berth b).held = false) : s.release b = s := by
  unfold State.release
  rw [held]
  rfl

/-- A release carries out what the boundary owes. -/
theorem State.release_held {s : State} {b : Nat} (held : (s.berth b).held = true) :
    s.release b = (s.modBerth b fun x => { x with held := false }).boundaryActions b := by
  unfold State.release
  rw [if_pos held]

theorem State.emit_berth (s : State) (o : Out) (d : Nat) : (s.emit o).berth d = s.berth d := rfl

theorem holdRelease_next {s : State} {b : Nat} (up : DictUp s) : exec (.holdRelease b) s =
    .next ((s.release b).emit { kind := .answer, port := entryKey 0x9004 (b + 1), args := [0] }) :=
  congrArg Host.Outcome.next (State.byDict_of_up up ..)

theorem boundariesAndRetirement : BoundariesAndRetirement := by
  refine fun s b q => ⟨fun owed free none => ⟨fun held => ?opens, fun held => ?owes, fun held up => ?released⟩,
    fun held up => ?notHeld, fun x r code front running done ends alive wanted => ?retires⟩
  case opens =>
    refine ⟨_, stepBoundary_next owed, ?_⟩
    rw [State.boundaryActions_open owed free held none]
    simp
  case owes =>
    refine ⟨_, stepBoundary_next owed, ?_⟩
    rw [State.boundaryActions_held owed free held]
    simp [owed]
  case released =>
    have owed' : ((s.modBerth b fun x => { x with held := false }).berth b).boundary = true := by simp [owed]
    refine ⟨_, holdRelease_next up, ?_⟩
    rw [State.release_held held, State.boundaryActions_open owed' free (by simp) none]
    simp only [State.emit_berth, State.berth_modBerth]
    exact ⟨trivial, trivial, trivial, answers_emit .., rfl⟩
  case notHeld =>
    refine ⟨_, holdRelease_next up, answers_emit .., ?_⟩
    rw [State.release_not_held held]
    exact ⟨rfl, rfl⟩
  case retires =>
    have kept : s.stepEnded b x = s := by
      unfold State.stepEnded
      rw [ends]
      rfl
    have eq := State.retireOne_done front running done alive wanted
    rw [kept] at eq
    refine ⟨_, _, rfl, State.retireOne_queue front running done alive wanted, rfl, rfl, rfl, ?_, ?_, fun canon up => ?_⟩
    · rw [eq]
      exact (State.retireFront_frame _ _ _ _ _ _ _ _).frame .mem (by decide)
    · rw [State.retireOne_keeps front running done alive wanted (·.boundary) (fun _ _ _ => rfl) (fun _ _ _ => rfl)
        (fun _ _ => rfl), kept]
    · rw [eq]
      exact State.retireFront_count front canon.2.1 up ..

theorem stepEndsAreCounted : StepEndsAreCounted := by
  intro s b q x r code front running done ends alive wanted
  have keeps {α : Type} (g : BerthSt → α) := State.retireOne_keeps front running done alive wanted g
  have ended : s.stepEnded b x = (s.keeperWork b).modBerth b fun y => { y with
      boundary := true, withhold := y.withhold || y.handOver } := by
    unfold State.stepEnded
    rw [if_pos ends]
  refine ⟨_, rfl, ?_, ?_, ?_⟩
  · rw [keeps (·.stepSeq) (fun _ _ _ => rfl) (fun _ _ _ => rfl) (fun _ _ => rfl), ended, State.berth_modBerth]
    simp only
    rw [State.keeperWork_keeps (·.stepSeq) b (fun _ _ => rfl) (fun _ _ => rfl) (fun _ _ => rfl) (fun _ _ _ _ => rfl),
      State.berth_modBerth]
    simp [BitVec.ofNat_add]
  · rw [keeps (·.boundary) (fun _ _ _ => rfl) (fun _ _ _ => rfl) (fun _ _ => rfl), ended, State.berth_modBerth]
  · rw [keeps (·.tally) (fun _ _ _ => rfl) (fun _ _ _ => rfl) (fun _ _ => rfl)]
    exact State.stepEnded_keeps (·.tally) b (fun _ _ => rfl) (fun _ _ => rfl) (fun _ _ => rfl) (fun _ _ _ _ => rfl)
      (fun _ _ => rfl) (fun _ _ => rfl) s b x

/-- Settles O14: boundaries carry out what they owe and retirement leaves the host its count; the end of a step counts. -/
theorem stepsEndAtBoundaries : Obligations.StepsEndAtBoundaries :=
  ⟨boundariesAndRetirement, stepEndsAreCounted⟩

end Sys2Proof.Machine
end

section
/-!
Shards of a bucket, posts, packets and deadlines of an exchange engine (11_gradient_exchange.md).
-/

namespace Sys2Proof.Machine

/-! Shards (R317). -/

section
variable {elems p : Nat}

theorem shardLen_covers (elems : Nat) (hp : 1 ≤ p) : elems ≤ p * shardLen elems p := by
  unfold shardLen
  have split := Nat.div_add_mod (elems + 256 * p - 1) (256 * p)
  have rest := Nat.mod_lt (elems + 256 * p - 1) (show 256 * p > 0 by omega)
  rw [show p * (256 * ((elems + 256 * p - 1) / (256 * p))) = 256 * p * ((elems + 256 * p - 1) / (256 * p)) by
    rw [← Nat.mul_assoc, Nat.mul_comm p 256]]
  omega

/-- The first `n` shards hold the first elements. -/
theorem sum_shardElems (elems p n : Nat) :
    ((List.range n).map (shardElems elems p)).foldl (· + ·) 0 = min (n * shardLen elems p) elems := by
  induction n with
  | zero => simp
  | succ n ih =>
    rw [List.range_succ, List.map_append, List.foldl_append, ih, Nat.add_mul]
    simp only [List.map_cons, List.map_nil, List.foldl_cons, List.foldl_nil, shardElems]
    omega

theorem ownShard_lt (hp : 1 ≤ p) (o i : Nat) : ownShard p o i < p := Nat.mod_lt _ hp

theorem add_sub_mod_add_mod (hp : 1 ≤ p) (o i : Nat) (ho : o < p) : (o + (p - i % p) + i) % p = o := by
  have low := Nat.mod_lt i hp
  have split := Nat.div_add_mod i p
  rw [show o + (p - i % p) + i = o + p * (i / p + 1) by rw [Nat.mul_add]; omega, Nat.add_mul_mod_self_left,
    Nat.mod_eq_of_lt ho]

/-- A rank owns the shard that names it its owner. -/
theorem shardOwner_ownShard (hp : 1 ≤ p) {o : Nat} (ho : o < p) (i : Nat) : shardOwner p (ownShard p o i) i = o := by
  rw [shardOwner, ownShard, Nat.mod_add_mod, add_sub_mod_add_mod hp o i ho]

theorem ownShard_shardOwner (hp : 1 ≤ p) {sh : Nat} (hs : sh < p) (i : Nat) : ownShard p (shardOwner p sh i) i = sh := by
  rw [shardOwner, ownShard, Nat.mod_add_mod, show sh + i + (p - i % p) = sh + (p - i % p) + i by omega,
    add_sub_mod_add_mod hp sh i hs]

end

theorem shardsCoverTheBucket : ShardsCoverTheBucket := by
  refine fun elems p i hp => ⟨?_, fun sh _ => ⟨Nat.min_le_left .., fun some => ?_⟩,
    fun o ho => ⟨ownShard_lt hp o i, shardOwner_ownShard hp ho i⟩, fun sh hs => ownShard_shardOwner hp hs i⟩
  · rw [sum_shardElems]
    have := shardLen_covers elems hp
    omega
  · unfold shardElems at some ⊢
    omega

/-! Tables. -/

theorem tget_eq_getD {α : Type} (t : Tbl α) (d : α) (k : Nat) : tget t d k = (tfind t k).getD d := by
  induction t with
  | nil => rfl
  | cons p r ih =>
    simp only [tget, tfind]
    split
    · rfl
    · exact ih

theorem tfind_tmod_self {α : Type} {t : Tbl α} {k : Nat} {v : α} (found : tfind t k = some v) (d : α) (f : α → α) :
    tfind (tmod t d k f) k = some (f v) := by
  rw [tmod, tfind_tset_self, tget_eq_getD, found]
  rfl

theorem tfind_tdel_self {α : Type} (t : Tbl α) (k : Nat) : tfind (tdel t k) k = none := by
  induction t with
  | nil => rfl
  | cons p r ih =>
    unfold tdel at ih ⊢
    rw [List.filter_cons]
    split
    · rename_i other
      rw [tfind, if_neg (by simpa using other), ih]
    · exact ih

/-! What the checks of a bucket look at: nothing that an engine holds. -/

section
variable (s : State) (d : Nat) (f : ExchSt → ExchSt)

theorem State.modExch_exchCtx (b die i : Nat) : (s.modExch d f).exchCtx b die i = s.exchCtx b die i := rfl

theorem State.modExch_contribFault (c : ExCtx) (p : Bytes) : (s.modExch d f).contribFault c p = s.contribFault c p := rfl

theorem State.modExch_recField (c : ExCtx) (o n : Nat) : (s.modExch d f).recField c o n = s.recField c o n := rfl

theorem State.modExch_berthOfDie (die : Nat) : (s.modExch d f).berthOfDie die = s.berthOfDie die := rfl

variable {s d f}

theorem State.modExch_congr {g : ExchSt → ExchSt} (same : f (s.exch d) = g (s.exch d)) : s.modExch d f = s.modExch d g := by
  unfold State.modExch
  rw [same]

theorem State.exch_of_fabric {s t : State} (same : t.fabric = s.fabric) (d : Nat) : t.exch d = s.exch d := by
  rw [State.exch, same, State.exch]

theorem State.round_of_fabric {s t : State} (same : t.fabric = s.fabric) (d i : Nat) : t.round d i = s.round d i := by
  rw [State.round, State.exch_of_fabric same, State.round]

/-- A change of one engine that leaves its rounds alone leaves every round alone. -/
theorem State.round_modExch (rounds : ∀ x, (f x).rounds = x.rounds) (die i : Nat) :
    (s.modExch d f).round die i = s.round die i := by
  unfold State.round
  by_cases same : die = d
  · rw [same, State.exch_modExch, rounds]
  · rw [State.exch, State.modExch, tget_tset_other _ _ _ same, State.exch]

end

/-- The checks of a bucket tell which bucket, engine and berth they were for. -/
theorem State.exchCtx_names {s : State} {b d i : Nat} {c : ExCtx} (ok : s.exchCtx b d i = .ok c) :
    c.b = b ∧ c.die = d ∧ c.i = i := by
  unfold State.exchCtx at ok
  split at ok
  · cases ok
  · split at ok
    · cases ok
    · extract_lets k at ok
      split at ok
      · cases ok
      · split at ok
        · cases ok
        · split at ok
          · cases ok
          · extract_lets ms p at ok
            split at ok
            · cases ok
            · split at ok
              · cases ok
              · split at ok
                · cases ok
                · split at ok
                  · cases ok
                  · split at ok
                    · cases ok
                    · split at ok
                      · cases ok
                      · cases ok
                        exact ⟨rfl, rfl, rfl⟩

/-! Events of an engine. -/

theorem State.raises_berthEvent (s : State) (b code x y : Nat) (payload : Bytes) :
    Raises s (s.berthEvent b code x y payload) code [b, x, y] := by
  unfold State.berthEvent
  extract_lets t
  obtain ⟨l, out⟩ := (State.noticeTo_frame s (b + 1) code b t x y payload .out).2
  obtain ⟨m, out'⟩ := (State.noticeTo_frame (s.noticeTo (b + 1) code b t x y payload) 0 code b t x y payload .out).2
  refine ⟨l ++ m ++ { kind := .event, port := code, args := [b, x, y], data := payload } ::
    s.eventMsgs code b t x y payload true, ?_, _, List.mem_append_right _ List.mem_cons_self, rfl, rfl, rfl⟩
  simp only [State.emit, State.emits, ← out', ← out]
  simp

/-- What went out before, and what is raised after it. -/
theorem Raises.after {s t u : State} {code : Nat} {args : List Nat} (grows : s.out <+: t.out) (h : Raises t u code args) :
    Raises s u code args := by
  obtain ⟨l, out⟩ := grows
  obtain ⟨m, out', o, mem, event⟩ := h
  exact ⟨l ++ m, by rw [out', ← out, List.append_assoc], o, List.mem_append_right _ mem, event⟩

/-- What was raised stays raised. -/
theorem Raises.grow {s t u : State} {code : Nat} {args : List Nat} (h : Raises s t code args) (grows : t.out <+: u.out) :
    Raises s u code args := by
  obtain ⟨l, out⟩ := grows
  obtain ⟨m, out', o, mem, event⟩ := h
  exact ⟨m ++ l, by rw [← out, out', List.append_assoc], o, List.mem_append_left _ mem, event⟩

theorem State.raises_refusePost (s : State) (b d i code : Nat) : Raises s (s.refusePost b d i code) code [b, i, d] := by
  unfold State.refusePost
  extract_lets t
  refine (State.raises_berthEvent t b code i d []).after ?_
  unfold t
  split
  · split
    · exact (State.writeVirt_frame _ _ _ _ _ .out).2
    · exact List.prefix_refl _
  · exact List.prefix_refl _

section
variable {s : State} {d i : Nat} {r : RoundSt} (known : s.round d i = some r)
include known

theorem State.round_modRound (n : Nat) (f : RoundSt → RoundSt) : (s.modRound d i n f).round d i = some (f r) := by
  unfold State.modRound State.round
  rw [State.exch_modExch]
  exact tfind_tmod_self known _ _

/-- A cause that was raised for the round is not raised again. -/
theorem State.exchEvent_raised {code : Nat} (raised : code ∈ r.raised) (b n : Nat) (names : List Nat) :
    s.exchEvent b d i n code names = s := by
  unfold State.exchEvent
  rw [if_pos (by simp [known, raised])]

theorem State.exchEvent_new {code : Nat} (new : code ∉ r.raised) (b n : Nat) (names : List Nat) :
    (s.exchEvent b d i n code names).round d i = some { r with raised := r.raised ++ [code] } ∧
    (s.exchEvent b d i n code names).mem = s.mem ∧
    Raises s (s.exchEvent b d i n code names) code [b, i, d] := by
  unfold State.exchEvent
  rw [if_neg (by simp [known, new])]
  extract_lets t
  have there : t.round d i = some { r with raised := r.raised ++ [code] } :=
    (State.round_of_fabric ((State.berthEvent_frame _ _ _ _ _ _).frame .fabric (by decide)) d i).trans
      (State.round_modRound known _ _)
  have mem : t.mem = s.mem := (State.berthEvent_frame _ _ _ _ _ _).frame .mem (by decide)
  have raises : Raises s t code [b, i, d] :=
    (State.raises_berthEvent (s.modRound d i n fun x => { x with raised := x.raised ++ [code] }) b code i d []).of_out_eq rfl
  split
  · exact ⟨there, mem, raises⟩
  · exact ⟨there, mem, raises.emit _⟩

/-- A dropped packet is counted, and its cause raised once; nothing else of the round changes. -/
theorem State.exchDrop_counts (b n code : Nat) : (∃ l, (s.exchDrop b d i n code).round d i =
      some { r with pktDrop := r.pktDrop + 1, raised := l }) ∧ (s.exchDrop b d i n code).mem = s.mem ∧
    (code ∉ r.raised → Raises s (s.exchDrop b d i n code) code [b, i, d]) := by
  unfold State.exchDrop
  have counted := State.round_modRound known n fun x => { x with pktDrop := x.pktDrop + 1 }
  by_cases raised : code ∈ r.raised
  · rw [State.exchEvent_raised counted raised]
    exact ⟨⟨_, counted⟩, rfl, fun new => absurd raised new⟩
  · obtain ⟨there, mem, raises⟩ := State.exchEvent_new counted raised b n []
    exact ⟨⟨_, there⟩, mem, fun _ => Raises.of_out_eq rfl raises⟩

end

/-! Posts. -/

section
variable {s : State} {die b : Nat} {v : BitVec 64} (small : v.toNat < 4096)
include small

theorem State.runPost_ok {c : ExCtx} (ok : s.exchCtx b die v.toNat = .ok c) : s.runPost b die v = s.startRound c := by
  unfold State.runPost
  rw [Nat.mod_eq_of_lt small]
  simp only [ok]
  exact if_neg (by omega)

theorem State.runPost_error {code : Nat} (bad : s.exchCtx b die v.toNat = .error code) :
    s.runPost b die v = s.refusePost b die v.toNat code := by
  unfold State.runPost
  rw [Nat.mod_eq_of_lt small]
  simp only [bad]
  exact if_neg (by omega)

end

section
variable {s : State} {die b : Nat} {v : BitVec 64} {l : List (BitVec 64)} (owner : s.berthOfDie die = some b)
  (posts : (s.exch die).posts = v :: l) (ready : s.postWaits die v = false)
include owner posts ready

/-- The engine takes the first post if its bucket is ready. -/
theorem exchPostTake_first : exec (.exchPostTake die) s =
    .next ((s.modExch die fun x => { x with posts := l }).runPost b die v) := by
  refine congrArg Host.Outcome.next ?_
  have first : ((s.exch die).posts.take 64).findIdx? (fun v => !s.postWaits die v) = some 0 := by
    simp [posts, ready, List.findIdx?_cons]
  simp only [owner, first]
  rw [State.modExch_congr (g := fun x => { x with posts := l }) (by simp [posts]), posts]
  rfl

end

/-! Packets. -/

section
variable {s : State} {die idx b : Nat} {p : Bytes} (has : EngineHas s die idx b p)
include has

theorem State.engineIn_of_has {result : Bool} (kind : (leAt p 0 1 == 4) = result) (f : Nat → Bytes → State → State) :
    s.engineIn die idx result f = f b p (Unboxed s die idx) := by
  obtain ⟨boxed, owner, alive⟩ := has
  have owner' : (s.modExch die fun x => { x with inbox := x.inbox.eraseIdx idx }).berthOfDie die = some b := owner
  have alive' : ((s.modExch die fun x => { x with inbox := x.inbox.eraseIdx idx }).berth b).life ≠ .resetting := alive
  unfold State.engineIn
  simp only [boxed, kind, bne_self_eq_false, owner', alive', if_false]
  rfl

omit has in
/-- The rounds of an engine do not lie in its inbox. -/
theorem Unboxed_round (s : State) (die idx d i : Nat) : (Unboxed s die idx).round d i = s.round d i :=
  State.round_modExch (f := fun x => { x with inbox := x.inbox.eraseIdx idx }) (fun _ => rfl) d i

omit has in
theorem Unboxed_resultFault (s : State) (die idx : Nat) (c : ExCtx) (p : Bytes) :
    (Unboxed s die idx).resultFault c p = s.resultFault c p := by
  unfold State.resultFault
  rw [Unboxed_round]
  rfl

/-- A contribution at an engine whose bucket passes its checks. -/
theorem exchPacketArrival_next {c : ExCtx} (contribution : leAt p 0 1 ≠ 4)
    (ok : s.exchCtx b die (pktHdr p).bucket = .ok c) : exec (.exchPacketArrival die idx) s =
      .next (if s.contribFault c p = 0 then (Unboxed s die idx).takeContrib c p
        else (Unboxed s die idx).exchDrop b die (pktHdr p).bucket (s.recField c 104 8 + 1) (s.contribFault c p)) := by
  refine congrArg Host.Outcome.next ?_
  rw [State.engineIn_of_has has (by simpa using contribution)]
  unfold State.contribIn
  have ok' : (Unboxed s die idx).exchCtx b die (pktHdr p).bucket = .ok c := ok
  simp only [ok']
  rfl

/-- A result packet taken: its elements written, its packet noted. -/
def State.takeResult (s : State) (b : Nat) (c : ExCtx) (p : Bytes) : State :=
  (s.writeVirt b (c.k.res + 2 * (c.base (pktHdr p).shard + (pktHdr p).offset)) (pktData p)).modRound c.die c.i
    (s.recField c 120 8 + 1) fun x => { x with
      got := x.got ++ [((pktHdr p).shard, (pktHdr p).offset)], dGin := x.dGin + pktHash p }

/-- A result packet at an engine whose bucket passes its checks. -/
theorem exchResultArrival_next {c : ExCtx} (result : leAt p 0 1 = 4)
    (ok : s.exchCtx b die (pktHdr p).bucket = .ok c) : exec (.exchResultArrival die idx) s =
      .next (if s.resultFault c p = 0 then ((Unboxed s die idx).takeResult b c p).endRound c
        else (Unboxed s die idx).exchDrop b die (pktHdr p).bucket (s.recField c 120 8 + 1) (s.resultFault c p)) := by
  obtain ⟨-, onDie, bucket⟩ := State.exchCtx_names ok
  refine congrArg Host.Outcome.next ?_
  rw [State.engineIn_of_has has (by simpa using result)]
  unfold State.resultIn
  have ok' : (Unboxed s die idx).exchCtx b die (pktHdr p).bucket = .ok c := ok
  simp only [ok', Unboxed_resultFault]
  unfold State.takeResult
  rw [onDie, bucket]
  by_cases fine : s.resultFault c p = 0
  · rw [if_pos fine, if_neg (not_not_intro fine)]
  · rw [if_neg fine, if_pos fine]
    rfl

omit has in
/-- The round after a result packet was taken. -/
theorem State.takeResult_round {r : RoundSt} {c : ExCtx} (known : s.round c.die c.i = some r) (b : Nat) (p : Bytes) :
    (s.takeResult b c p).round c.die c.i = some { r with
      got := r.got ++ [((pktHdr p).shard, (pktHdr p).offset)], dGin := r.dGin + pktHash p } := by
  unfold State.takeResult
  refine State.round_modRound ?_ _ _
  rw [State.round_of_fabric ((State.writeVirt_frame _ _ _ _ _).frame .fabric (by decide)), known]

end

section
variable {s : State} {c : ExCtx} {r : RoundSt} (known : s.round c.die c.i = some r)
include known

/-- A round that lacks something goes on. -/
theorem State.endRound_lacking (lacks : r.posted = true → r.owned = true → ∃ x ∈ resultsDue c, x ∉ r.got) :
    s.endRound c = s := by
  unfold State.endRound
  simp only [known]
  refine if_neg fun all => ?_
  simp only [Bool.and_eq_true, List.all_eq_true, List.contains_iff_mem] at all
  obtain ⟨⟨posted, owned⟩, got⟩ := all
  obtain ⟨x, due, missing⟩ := lacks posted owned
  exact missing (got x due)

/-- A complete round is over. -/
theorem State.endRound_complete (posted : r.posted = true) (owned : r.owned = true) (all : ∀ x ∈ resultsDue c, x ∈ r.got) :
    (s.endRound c).round c.die c.i = none := by
  unfold State.endRound
  simp only [known]
  rw [if_pos (by simpa [posted, owned] using all), State.round, State.exch_modExch]
  exact tfind_tdel_self _ _

end

/-! Deadlines. -/

/-- What the deadline's event names: the shards whose results are missing, or the senders that are late (R339). -/
def State.lateNames (s : State) (c : ExCtx) (r : RoundSt) : List Nat :=
  if r.owned then (((resultsDue c).filter fun x => !r.got.contains x).map Prod.fst).eraseDups
  else (List.range c.p).filter fun m => !s.senderDone c m

/-- A round in flight whose deadline passes is reported with what it lacks. -/
theorem exchDeadline_next {s : State} {die i b : Nat} {r : RoundSt} {c : ExCtx} (owner : s.berthOfDie die = some b)
    (known : s.round die i = some r) (flight : r.inFlight = true) (ok : s.exchCtx b die i = .ok c) :
    exec (.exchDeadline die i) s = .next (s.exchEvent b die i r.round 0x05D0 ((s.lateNames c r).take 16)) := by
  refine congrArg Host.Outcome.next ?_
  simp only [owner, known, flight, ok]
  rfl

theorem exchangeEnginesRun : ExchangeEnginesRun := by
  refine fun s die idx b => ⟨fun v owner => ?posts, fun v l owner posts ready small => ⟨fun c ok => ?starts, fun code bad => ?refused⟩,
    fun p c has kind ok => ⟨fun fine => ?taken, fun r fault known => ?dropped⟩,
    fun p c r has kind ok known => ⟨fun fine lacks => ?goesOn, fun fine posted owned all => ?ends, fun fault => ?resultDropped⟩,
    fun i r c owner known flight ok => ⟨fun new => ?reported, fun raised => ?silent⟩⟩
  case posts =>
    refine ⟨s.post die v, congrArg Host.Outcome.next (by simp only [owner]), ?_⟩
    unfold State.post
    rw [State.exch_modExch]
    exact ⟨rfl, rfl, rfl⟩
  case starts =>
    refine ⟨_, exchPostTake_first owner posts ready, ?_⟩
    exact State.runPost_ok (s := s.modExch die fun x => { x with posts := l }) small ok
  case refused =>
    refine ⟨_, exchPostTake_first owner posts ready, ?_⟩
    rw [State.runPost_error (s := s.modExch die fun x => { x with posts := l }) small bad]
    have same := (State.refusePost_frame (s.modExch die fun x => { x with posts := l }) b die v.toNat code).frame .fabric
      (by decide)
    rw [State.exch_of_fabric same, State.exch_modExch]
    exact ⟨rfl, rfl, (State.raises_refusePost (s.modExch die fun x => { x with posts := l }) b die v.toNat code).of_out_eq rfl⟩
  case taken =>
    refine ⟨_, exchPacketArrival_next has kind ok, ?_⟩
    rw [if_pos fine]
  case dropped =>
    have known' : (Unboxed s die idx).round die (pktHdr p).bucket = some r := (Unboxed_round ..).trans known
    obtain ⟨⟨l, there⟩, mem, raises⟩ := State.exchDrop_counts known' b (s.recField c 104 8 + 1) (s.contribFault c p)
    refine ⟨_, { r with pktDrop := r.pktDrop + 1, raised := l }, exchPacketArrival_next has kind ok, ?_⟩
    rw [if_neg fault]
    exact ⟨there, rfl, rfl, rfl, mem, fun new => (raises new).of_out_eq rfl⟩
  case goesOn =>
    obtain ⟨-, rfl, bucket⟩ := State.exchCtx_names ok
    rw [← bucket] at known ⊢
    have taken := State.takeResult_round ((Unboxed_round s c.die idx c.die c.i).trans known) b p
    refine ⟨_, { r with
      got := r.got ++ [((pktHdr p).shard, (pktHdr p).offset)], dGin := r.dGin + pktHash p }, exchResultArrival_next has kind ok, ?_⟩
    rw [if_pos fine, State.endRound_lacking taken fun posted owned => ?_]
    · exact ⟨taken, rfl, rfl⟩
    · obtain ⟨x, due, missing, other⟩ := lacks posted owned
      exact ⟨x, due, by simp [missing, other]⟩
  case ends =>
    obtain ⟨-, rfl, bucket⟩ := State.exchCtx_names ok
    rw [← bucket] at known ⊢
    have taken := State.takeResult_round ((Unboxed_round s c.die idx c.die c.i).trans known) b p
    refine ⟨_, exchResultArrival_next has kind ok, ?_⟩
    rw [if_pos fine]
    exact State.endRound_complete taken posted owned fun x due => by simpa using all x due
  case resultDropped =>
    have known' : (Unboxed s die idx).round die (pktHdr p).bucket = some r := (Unboxed_round ..).trans known
    obtain ⟨⟨l, there⟩, mem, -⟩ := State.exchDrop_counts known' b (s.recField c 120 8 + 1) (s.resultFault c p)
    refine ⟨_, { r with pktDrop := r.pktDrop + 1, raised := l }, exchResultArrival_next has kind ok, ?_⟩
    rw [if_neg fault]
    exact ⟨there, rfl, rfl, rfl, mem⟩
  case reported =>
    obtain ⟨there, mem, raises⟩ := State.exchEvent_new known new b r.round ((s.lateNames c r).take 16)
    exact ⟨_, _, exchDeadline_next owner known flight ok, there, by simp, rfl, raises, mem⟩
  case silent =>
    rw [exchDeadline_next owner known flight ok, State.exchEvent_raised known raised]

/-- Settles O15: the shards' arithmetic, and the engine's commands. -/
theorem gradientsAreExchanged : Obligations.GradientsAreExchanged := ⟨shardsCoverTheBucket, exchangeEnginesRun⟩

end Sys2Proof.Machine
end

section
/-!
Flits at a port: data in and out of sequence, acknowledges, credits, replays and lane changes (12 R345-R348, R367).
-/

namespace Sys2Proof.Machine

/-! Reading a number out of a part of some bytes. -/

theorem leAt_take (b : Bytes) {k o n : Nat} (inside : o + n ≤ k) : leAt (b.take k) o n = leAt b o n := by
  unfold leAt
  rw [List.drop_take, List.take_take, Nat.min_eq_left (by omega)]

theorem leAt_lt (b : Bytes) (o n : Nat) : leAt b o n < 2 ^ (8 * n) :=
  leNat_lt_of_length (by rw [List.length_take]; exact Nat.min_le_left ..)

/-! Tables changed index by index. -/

/-- A table after each of the first `n` indices was changed once. -/
theorem tget_foldl_range {α : Type} (t : Tbl α) (d : α) (f : Nat → α → α) (n i : Nat) :
    tget ((List.range n).foldl (fun u j => tset u j (f j (tget u d j))) t) d i =
      if i < n then f i (tget t d i) else tget t d i := by
  induction n with
  | zero => rfl
  | succ n ih =>
    rw [List.range_succ, List.foldl_append, List.foldl_cons, List.foldl_nil]
    by_cases last : i = n
    · subst last
      rw [tget_tset_self, if_pos (Nat.lt_succ_self i), ih, if_neg (Nat.lt_irrefl i)]
    · rw [tget_tset_other _ _ _ last, ih]
      simp [show i < n + 1 ↔ i < n by omega]

/-! Flits that a port sends. -/

/-- A control flit as it leaves a port. -/
def controlOut (p ftype : Nat) (body : Bytes) : Out :=
  { kind := .flit, port := p, args := [ftype, 0], data := flitBytes ftype 0 body }

/-- The `ACK` that a port owes. -/
def LinkSt.ackOut (x : LinkSt) (p : Nat) : List Out :=
  if x.rxSeq = 0 then [] else [controlOut p 8 (leBytes 2 ((x.rxSeq + 4095) % 4096))]

/-- The `CREDIT` of a port. -/
def LinkSt.creditOut (x : LinkSt) (p : Nat) : Out :=
  controlOut p 9 ((List.range 8).flatMap fun i => leBytes 2 (tget x.freed 0 i))

/-- The `REPLAY` that a port has outstanding. -/
def LinkSt.replayOut (x : LinkSt) (p : Nat) : List Out :=
  match x.replay with
  | none => []
  | some r => [controlOut p 0xA (leBytes 2 (x.rxSeq % 4096) ++ leBytes 1 r)]

/-- A `LANE_CTL` flit. -/
def LaneChange.out (c : LaneChange) (p op : Nat) : Out :=
  controlOut p 0xB (leBytes 1 op ++ leBytes 1 c.leaving ++ leBytes 1 c.taking ++ [0] ++ leBytes 2 c.codeword)

/-- All that a port owes are flits of its own. -/
theorem controlOut_of_mem {x : LinkSt} {p : Nat} {o : Out} (sent : o ∈ x.ackOut p ++ [x.creditOut p] ++ x.replayOut p ++
    (x.changes.filter fun c => !c.agreed).map fun c => c.out p 1) : o.kind = .flit ∧ o.port = p := by
  rcases List.mem_append.mp sent with sent | sent
  · rcases List.mem_append.mp sent with sent | sent
    · rcases List.mem_append.mp sent with sent | sent
      · unfold LinkSt.ackOut at sent
        split at sent
        · cases sent
        · rw [List.mem_singleton.mp sent]; exact ⟨rfl, rfl⟩
      · rw [List.mem_singleton.mp sent]; exact ⟨rfl, rfl⟩
    · unfold LinkSt.replayOut at sent
      split at sent
      · cases sent
      · rw [List.mem_singleton.mp sent]; exact ⟨rfl, rfl⟩
  · obtain ⟨c, -, rfl⟩ := List.mem_map.mp sent
    exact ⟨rfl, rfl⟩

section
variable (s : State) (p : Nat)

theorem State.emits_nil : s.emits [] = s := by simp [State.emits]

theorem State.emits_emits (l m : List Out) : (s.emits l).emits m = s.emits (l ++ m) := by simp [State.emits]

theorem State.sendAck_eq : s.sendAck p = s.emits ((s.link p).ackOut p) := by
  unfold State.sendAck LinkSt.ackOut
  extract_lets n
  by_cases first : n = 0
  · rw [if_pos first, if_pos first, State.emits_nil]
  · rw [if_neg first, if_neg first]
    rfl

theorem State.sendCredit_eq : s.sendCredit p = s.emits [(s.link p).creditOut p] := rfl

theorem State.sendReplay_eq : s.sendReplay p = s.emits ((s.link p).replayOut p) := by
  unfold State.sendReplay LinkSt.replayOut
  cases (s.link p).replay with
  | none => exact (State.emits_nil s).symm
  | some r => rfl

theorem forL_emits {α : Type} (l : List α) (f : α → Out) : (forL l s fun a t => t.emit (f a)) = s.emits (l.map f) := by
  unfold forL
  induction l generalizing s with
  | nil => exact (State.emits_nil s).symm
  | cons a r ih =>
    rw [List.foldl_cons, ih]
    exact State.emits_emits s [f a] (r.map f)

end

/-! Data flits. -/

section
variable {s : State} {p : Nat} {flit : Bytes} (on : (s.link p).on = true)
include on

/-- A discarded flit asks for a replay, unless one is outstanding. -/
theorem State.flitIn_discarded {bad : Bool} (why : bad = true ∨ flitOk flit = false ∨
      ((flitType flit = 1 ∨ flitType flit = 2) ∧ leAt flit 60 2 % 4096 ≠ (s.link p).rxSeq % 4096)) :
    s.flitIn p flit bad = s.askReplay p (if bad then 2 else if flitOk flit = false then 1 else 3) := by
  unfold State.flitIn
  simp only [on]
  cases bad with
  | true => rfl
  | false =>
    cases crc : flitOk flit with
    | false => rfl
    | true =>
      obtain ⟨type, gap⟩ := (why.resolve_left nofun).resolve_left (by rw [crc]; nofun)
      have data : ¬(flitType flit ≠ 1 ∧ flitType flit ≠ 2) := by omega
      simp [data, gap]

/-- A flit in sequence is accepted. -/
theorem State.flitIn_accepted (crc : flitOk flit = true) (type : flitType flit = 1 ∨ flitType flit = 2)
    (next : leAt flit 60 2 % 4096 = (s.link p).rxSeq % 4096) : s.flitIn p flit false = s.acceptFlit p flit := by
  unfold State.flitIn
  have data : ¬(flitType flit ≠ 1 ∧ flitType flit ≠ 2) := by omega
  simp [on, crc, data, next]

end

section
variable {s : State} {p : Nat}

theorem State.askReplay_outstanding (some : (s.link p).replay ≠ none) (r : Nat) : s.askReplay p r = s := by
  unfold State.askReplay
  rw [if_pos (Option.isSome_iff_ne_none.mpr some)]

theorem State.askReplay_new (none : (s.link p).replay = none) (r : Nat) : s.askReplay p r =
    (s.modLink p fun x => { x with replay := some r }).emit
      (controlOut p 0xA (leBytes 2 ((s.link p).rxSeq % 4096) ++ leBytes 1 r)) := by
  unfold State.askReplay
  rw [if_neg (by simp [none]), State.sendReplay_eq, State.link_modLink]
  rfl

theorem State.emit_link (o : Out) (q : Nat) : (s.emit o).link q = s.link q := rfl

/-- A flit of a frame that goes on. -/
theorem State.acceptFlit_more {flit : Bytes} (body : flitType flit = 2) (more : 2 ≤ (s.link p).rxLeft) :
    s.acceptFlit p flit = s.modLink p fun x => { x with
      rxSeq := x.rxSeq + 1, replay := none, rxLeft := (s.link p).rxLeft - 1, rxFrame := (s.link p).rxFrame ++ flit.take 60 } := by
  unfold State.acceptFlit
  have head : (flitType flit == 1) = false := by rw [body]; rfl
  have open_ : ((s.link p).rxLeft == 0) = false := by simp; omega
  simp only [head, open_, Bool.and_false, Bool.false_eq_true, if_false]
  exact if_neg (by omega)

/-- The state of a port after a head flit, before its frame goes on. -/
def LinkSt.headed (flit : Bytes) (x : LinkSt) : LinkSt :=
  { x with rxSeq := x.rxSeq + 1, replay := none, rxLeft := (32 + 16 * leAt (flit.take 60) 3 1 + 59) / 60 - 1,
           rxFrame := flit.take 60 }

theorem State.acceptFlit_head {flit : Bytes} (head : flitType flit = 1) : s.acceptFlit p flit =
    if (32 + 16 * leAt (flit.take 60) 3 1 + 59) / 60 - 1 = 0 then
      ((s.modLink p (LinkSt.headed flit)).modLink p fun x => { x with rxFrame := [] }).frameIn p
        ((flit.take 60).take (32 + 16 * leAt (flit.take 60) 3 1))
    else s.modLink p (LinkSt.headed flit) := by
  unfold State.acceptFlit
  have head' : (flitType flit == 1) = true := by rw [head]; rfl
  simp only [head', if_true, Bool.not_true, Bool.false_and, Bool.false_eq_true, if_false]
  rfl

/-- A whole discovery frame waits for the step that handles it. -/
theorem State.frameIn_discovery {f : Bytes} (kind : leAt f 0 1 = 0x10) :
    (s.frameIn p f).link p = { s.link p with
      freed := tmod (s.link p).freed 0 (framePair f) fun n => (n + frameFlits f) % 65536,
      rxBytes := tmod (s.link p).rxBytes 0 (hdrOf f).job (· + BitVec.ofNat 64 f.length) } ∧
    (s.frameIn p f).fabric.inbox = s.fabric.inbox ++ [(p, f)] := by
  unfold State.frameIn
  extract_lets h t
  rw [if_pos (show h.kind = 0x10 from kind)]
  exact ⟨(State.link_modLink .. : t.link p = _), rfl⟩

end

theorem dataFlitsArriveInOrder : DataFlitsArriveInOrder := by
  refine fun s p flit on => ⟨fun crc type next more => ?goesOn, fun crc type next long => ?opens,
    fun crc type next short kind => ?whole, fun bad why => ?discarded⟩
  case goesOn =>
    refine ⟨_, congrArg Host.Outcome.next ((State.flitIn_accepted on crc (.inr type) next).trans
      (State.acceptFlit_more type more)), ?_⟩
    rw [State.link_modLink]
    exact ⟨rfl, rfl, rfl, rfl, rfl⟩
  case opens =>
    refine ⟨_, congrArg Host.Outcome.next ((State.flitIn_accepted on crc (.inl type) next).trans
      ((State.acceptFlit_head type).trans (if_neg (by omega)))), ?_⟩
    rw [State.link_modLink]
    exact ⟨rfl, rfl, rfl, rfl, rfl⟩
  case whole =>
    have kind' : leAt ((flit.take 60).take (32 + 16 * leAt (flit.take 60) 3 1)) 0 1 = 0x10 := by
      rw [leAt_take _ (by omega), leAt_take _ (by omega), kind]
    refine ⟨_, congrArg Host.Outcome.next ((State.flitIn_accepted on crc (.inl type) next).trans
      ((State.acceptFlit_head type).trans (if_pos (by omega)))), ?_⟩
    obtain ⟨link, inbox⟩ := State.frameIn_discovery (p := p)
      (s := (s.modLink p (LinkSt.headed flit)).modLink p fun x => { x with rxFrame := [] }) kind'
    rw [link, inbox, State.link_modLink, State.link_modLink]
    exact ⟨rfl, rfl, show (32 + 16 * leAt (flit.take 60) 3 1 + 59) / 60 - 1 = 0 by omega, rfl⟩
  case discarded =>
    have run : exec (.dataFlitReceive p flit bad) s = .next _ :=
      congrArg Host.Outcome.next (State.flitIn_discarded on why)
    refine ⟨_, run, ?_⟩
    by_cases none : (s.link p).replay = none
    · rw [State.askReplay_new none, State.emit_link, State.link_modLink]
      exact ⟨rfl, rfl, rfl, absurd none, fun _ => ⟨rfl, _, rfl, rfl, rfl⟩⟩
    · rw [State.askReplay_outstanding none]
      exact ⟨rfl, rfl, rfl, fun _ => rfl, fun h => absurd h none⟩

/-! What sending data flits keeps. -/

/-- Whether `g` looks past what sending frames changes of a port: its sequence, replay buffer, counts and waiting frames. -/
def SendBlind {α : Type} (g : LinkSt → α) : Prop :=
  ∀ x n u c t w, g { x with txSeq := n, unacked := u, sent := c, txBytes := t, waitq := w } = g x

section
variable {α : Type} (g : LinkSt → α) (d : Nat)

theorem State.modLink_keeps (s : State) (p : Nat) {f : LinkSt → LinkSt} (same : ∀ x, g (f x) = g x) :
    g ((s.modLink p f).link d) = g (s.link d) := by
  by_cases here : d = p
  · rw [here, State.link_modLink, same]
  · rw [State.link_modLink_other s f here]

variable (blind : SendBlind g)
include blind

theorem State.pushFrame_keeps (s : State) (p : Nat) (f : Bytes) : g ((s.pushFrame p f).link d) = g (s.link d) := by
  unfold State.pushFrame
  extract_lets t
  have start : g (t.link d) = g (s.link d) := State.modLink_keeps g d s p fun x => blind x ..
  refine (forL_keeps (fun t : State => g (t.link d)) _ _ _ fun b t => ?_).trans start
  unfold State.pushFlit
  exact State.modLink_keeps g d t p fun x => blind x ..

theorem State.drainWaiting_keeps (s : State) (p n : Nat) : g ((s.drainWaiting p n).link d) = g (s.link d) := by
  induction n generalizing s with
  | zero => rfl
  | succ n ih =>
    unfold State.drainWaiting
    split
    · rfl
    · exact (ih _).trans ((State.pushFrame_keeps g d blind ..).trans (State.modLink_keeps g d s p fun x => blind x ..))

theorem State.sendOnPort_keeps (s : State) (p : Nat) (f : Bytes) : g ((s.sendOnPort p f).link d) = g (s.link d) := by
  unfold State.sendOnPort
  exact (State.drainWaiting_keeps g d blind ..).trans (State.modLink_keeps g d s p fun x => blind x ..)

theorem State.sendFrame_keeps (s : State) (f : Bytes) : g ((s.sendFrame f).link d) = g (s.link d) := by
  unfold State.sendFrame State.routeFrame
  extract_lets h
  split
  · rfl
  · split
    · rfl
    · exact State.sendOnPort_keeps g d blind ..

theorem State.resendFrame_keeps (s : State) (k : Nat) (f : Bytes) : g ((s.resendFrame k f).link d) = g (s.link d) := by
  unfold State.resendFrame
  extract_lets h
  split
  · rfl
  · split
    · exact State.sendOnPort_keeps g d blind ..
    · exact State.sendFrame_keeps g d blind ..

end

section
variable {β : Type} (q : State → β) (link : ∀ u p f, q (State.modLink u p f) = q u) (out : ∀ u o, q (State.emit u o) = q u)
include link out

/-- Sending a frame changes ports and what goes out, and nothing else. -/
theorem State.sendOnPort_keeps_of (s : State) (p : Nat) (f : Bytes) : q (s.sendOnPort p f) = q s := by
  have push (t : State) (f : Bytes) : q (t.pushFrame p f) = q t := by
    unfold State.pushFrame
    refine (forL_keeps q _ _ _ fun b t => ?_).trans (link ..)
    unfold State.pushFlit
    exact (out ..).trans (link ..)
  have drain (t : State) (n : Nat) : q (t.drainWaiting p n) = q t := by
    induction n generalizing t with
    | zero => rfl
    | succ n ih =>
      unfold State.drainWaiting
      split
      · rfl
      · exact (ih _).trans ((push ..).trans (link ..))
  unfold State.sendOnPort
  exact (drain ..).trans (link ..)

end

/-! Waiting frames. -/

section
variable (p : Nat)

/-- Frames that are sent enter the replay buffer at its end. -/
theorem State.pushFrame_unacked (s : State) (f : Bytes) : (s.link p).unacked <+: ((s.pushFrame p f).link p).unacked := by
  unfold State.pushFrame forL
  extract_lets t
  have start : (t.link p).unacked = (s.link p).unacked := by
    unfold t
    rw [State.link_modLink]
  rw [← start]
  generalize (frameBodies f).zipIdx = l
  generalize t = t
  induction l generalizing t with
  | nil => exact List.prefix_refl _
  | cons b r ih =>
    refine List.IsPrefix.trans ?_ (ih _)
    unfold State.pushFlit
    rw [State.emit_link, State.link_modLink]
    exact List.prefix_append ..

theorem State.drainWaiting_unacked (s : State) (n : Nat) :
    (s.link p).unacked <+: ((s.drainWaiting p n).link p).unacked := by
  induction n generalizing s with
  | zero => exact List.prefix_refl _
  | succ n ih =>
    unfold State.drainWaiting
    split
    · exact List.prefix_refl _
    · rename_i f _
      refine List.IsPrefix.trans ?_ (ih _)
      have sent := State.pushFrame_unacked p (s.modLink p fun x => { x with waitq := x.waitq.erase f }) f
      rwa [State.link_modLink] at sent

end

/-! Control flits. -/

theorem State.modLink_congr {s : State} {p : Nat} {f g : LinkSt → LinkSt} (same : f (s.link p) = g (s.link p)) :
    s.modLink p f = s.modLink p g := by
  unfold State.modLink
  rw [same]

section
variable {s : State} {p t : Nat} {flit : Bytes}

theorem State.ctlOk_of_ctlIn (taken : CtlIn s p t flit) : s.ctlOk p t flit = true := by
  obtain ⟨on, crc, type⟩ := taken
  simp [State.ctlOk, on, crc, type]

end

/-- A count raised to agree with `v` modulo 2^16. -/
def countUp (v old : Nat) : Nat := old + (v + 65536 - old % 65536) % 65536

theorem countUp_spec {v : Nat} (small : v < 65536) (old : Nat) :
    countUp v old % 65536 = v ∧ old ≤ countUp v old ∧ countUp v old < old + 65536 := by
  unfold countUp
  omega

section
variable (s : State) (p : Nat) (flit : Bytes)

/-- `ACK` frees the replay buffer; waiting frames may take its room. -/
theorem ackFlit_frees {i : Nat} (taken : CtlIn s p 8 flit)
    (found : (s.link p).unacked.findIdx? (fun f => f.seq == leAt flit 0 2 % 4096) = some i) :
    ∃ u l, exec (.ackFlit p flit) s = .next u ∧ (u.link p).unacked = (s.link p).unacked.drop (i + 1) ++ l ∧
      ((s.link p).waitq = [] → l = []) ∧ (u.link p).life = (s.link p).life := by
  have run : exec (.ackFlit p flit) s = .next ((s.modLink p fun x => { x with unacked := x.unacked.drop (i + 1) }).drainWaiting
      p (s.link p).waitq.length) :=
    congrArg Host.Outcome.next (by simp only [State.ctlOk_of_ctlIn taken, found]; rfl)
  obtain ⟨l, more⟩ := State.drainWaiting_unacked p (s.modLink p fun x => { x with unacked := x.unacked.drop (i + 1) })
    (s.link p).waitq.length
  refine ⟨_, l, run, ?_, fun none => ?_, ?_⟩
  · rw [← more, State.link_modLink]
  · rw [none] at more
    exact List.append_right_eq_self.mp more
  · rw [State.drainWaiting_keeps (·.life) p fun _ _ _ _ _ _ => rfl, State.link_modLink]

/-- `CREDIT` raises the eight counts. -/
theorem creditFlit_raises (taken : CtlIn s p 9 flit) : ∃ u, exec (.creditFlit p flit) s = .next u ∧ ∀ i < 8,
    tget (u.link p).peerFreed 0 i = countUp (leAt flit (2 * i) 2) (tget (s.link p).peerFreed 0 i) := by
  have run : exec (.creditFlit p flit) s = .next ((s.modLink p fun x => { x with
      peerFreed := (List.range 8).foldl (fun u j => tset u j (countUp (leAt flit (2 * j) 2) (tget u 0 j)))
        x.peerFreed }).drainWaiting p (s.link p).waitq.length) :=
    congrArg Host.Outcome.next (by simp only [State.ctlOk_of_ctlIn taken]; rfl)
  refine ⟨_, run, fun i low => ?_⟩
  rw [State.drainWaiting_keeps (·.peerFreed) p fun _ _ _ _ _ _ => rfl, State.link_modLink, tget_foldl_range, if_pos low]

/-- `REPLAY` brings the flits again. -/
theorem replayFlit_repeats {i : Nat} (taken : CtlIn s p 0xA flit)
    (found : (s.link p).unacked.findIdx? (fun f => f.seq == leAt flit 0 2 % 4096) = some i) :
    exec (.replayFlit p flit) s = .next (s.emits (((s.link p).unacked.drop i).map fun f =>
      { kind := .flit, port := p, args := [f.ftype, f.seq], data := flitBytes f.ftype f.seq f.body })) := by
  refine congrArg Host.Outcome.next ?_
  simp only [State.ctlOk_of_ctlIn taken, found]
  exact forL_emits ..

variable (c : LaneChange) (taken : CtlIn s p 0xB flit) (leaving : c.leaving = leAt flit 1 1)
  (taking : c.taking = leAt flit 2 1) (codeword : c.codeword = leAt flit 4 2)
include taken leaving taking codeword

/-- A requested lane change is agreed and noted. -/
theorem laneCtl_request (op : leAt flit 0 1 = 1) (agreed : c.agreed = true) (first : (s.link p).changes = []) :
    exec (.laneCtl p flit) s = .next ((s.modLink p fun x => { x with changes := [c] }).emit (c.out p 2)) := by
  have same : c = { leaving := leAt flit 1 1, taking := leAt flit 2 1, codeword := leAt flit 4 2, agreed := true } := by
    rw [← leaving, ← taking, ← codeword, ← agreed]
  subst same
  refine congrArg Host.Outcome.next ?_
  simp only [State.ctlOk_of_ctlIn taken, op, Bool.not_true, Bool.false_eq_true, if_false, if_true]
  rw [State.modLink_congr (g := fun x => { x with changes := [_] }) (by simp [first]; rfl)]
  rfl

/-- An agreement ends the repeats of the own request. -/
theorem laneCtl_agreement (op : leAt flit 0 1 = 2) (asked : (s.link p).changes = [c]) :
    exec (.laneCtl p flit) s = .next (s.modLink p fun x => { x with changes := [{ c with agreed := true }] }) := by
  refine congrArg Host.Outcome.next ?_
  simp only [State.ctlOk_of_ctlIn taken, op, Bool.not_true, Bool.false_eq_true, if_false, if_true, Nat.reduceEqDiff]
  exact State.modLink_congr (by simp [asked, leaving, taking, codeword])

end

/-- The timer sends again what the port owes. -/
theorem linkControlTimer_sends {s : State} {p : Nat} (on : (s.link p).on = true) : exec (.linkControlTimer p) s =
    .next (s.emits ((s.link p).ackOut p ++ [(s.link p).creditOut p] ++ (s.link p).replayOut p ++
      ((s.link p).changes.filter fun c => !c.agreed).map fun c => c.out p 1)) := by
  refine congrArg Host.Outcome.next ?_
  simp only [on]
  rw [State.sendAck_eq, State.sendCredit_eq, State.sendReplay_eq]
  exact (forL_emits _ _ fun c : LaneChange => c.out p 1).trans (by simp only [State.emits_emits]; rfl)

theorem controlFlitsAct : ControlFlitsAct := by
  refine fun s p flit => ⟨fun i taken found => ackFlit_frees s p flit taken found, fun taken => ?credit,
    fun i taken found => ⟨_, replayFlit_repeats s p flit taken found, rfl, rfl⟩,
    fun c taken leaving taking codeword => ⟨fun op agreed first => ?request, fun op _ asked => ?agreement⟩, fun on => ?timer⟩
  case credit =>
    obtain ⟨u, run, counts⟩ := creditFlit_raises s p flit taken
    refine ⟨u, run, fun i low => ?_⟩
    rw [counts i low]
    exact countUp_spec (leAt_lt flit (2 * i) 2) _
  case request =>
    refine ⟨_, laneCtl_request s p flit c taken leaving taking codeword op agreed first, ?_⟩
    rw [State.emit_link, State.link_modLink]
    exact ⟨rfl, rfl, _, rfl, rfl, rfl, rfl⟩
  case agreement =>
    refine ⟨_, laneCtl_agreement s p flit c taken leaving taking codeword op asked, ?_⟩
    rw [State.link_modLink]
    exact ⟨rfl, rfl, rfl⟩
  case timer =>
    refine ⟨_, _, linkControlTimer_sends on, rfl, fun o sent => controlOut_of_mem sent, fun some => ?_, ?_, fun r asked => ?_⟩
    · exact ⟨_, List.mem_append_left _ (List.mem_append_left _ (List.mem_append_left _
        (by rw [LinkSt.ackOut, if_neg some]; exact List.mem_singleton.mpr rfl))), rfl⟩
    · exact ⟨_, List.mem_append_left _ (List.mem_append_left _ (List.mem_append_right _ (List.mem_singleton.mpr rfl))), rfl⟩
    · exact ⟨_, List.mem_append_left _ (List.mem_append_right _
        (by rw [LinkSt.replayOut, asked]; exact List.mem_singleton.mpr rfl)), rfl⟩

/-- Settles O16: data flits by sequence, control flits by type. -/
theorem flitsArriveAndAct : Obligations.FlitsArriveAndAct := ⟨dataFlitsArriveInOrder, controlFlitsAct⟩

end Sys2Proof.Machine
end

section
/-!
Lanes that are retired, and ports that train (12 R346-R348, R357, R382).
-/

namespace Sys2Proof.Machine

/-! What leaves the ports alone. -/

theorem State.link_of_fabric {s t : State} (same : t.fabric = s.fabric) (p : Nat) : t.link p = s.link p := by
  rw [State.link, same, State.link]

@[simp] theorem State.moduleEvent_link (s : State) (code a b : Nat) (pl : Bytes) (p : Nat) :
    (s.moduleEvent code a b pl).link p = s.link p :=
  State.link_of_fabric ((State.moduleEvent_frame _ _ _ _ _).frame .fabric (by decide)) p

@[simp] theorem State.addDefect_link (s : State) (e : DefectEnt) (p : Nat) : (s.addDefect e).link p = s.link p :=
  State.link_of_fabric ((State.addDefect_frame _ _).frame .fabric (by decide)) p

@[simp] theorem State.spareIn_link (s : State) (n kind die : Nat) (last : Bool) (p : Nat) :
    (s.spareIn n kind die last).link p = s.link p :=
  State.link_of_fabric ((State.spareIn_frame _ _ _ _ _).frame .fabric (by decide)) p

/-! Lanes. -/

/-- The defect entry of a retired lane. -/
def laneEnt (p lane cause detail : Nat) : DefectEnt :=
  { kind := 4, die := 24 + p / 3, unit := p, sub := lane, cause := cause, st := 2, detail := detail }

/-- The state once a lane is noted as retired. -/
def State.noteRetired (s : State) (p lane : Nat) : State :=
  s.modLink p fun x => { x with retired := x.retired ++ [lane] }

/-- A port that carries flits asks its peer for a lane change. -/
def State.askChange (s : State) (p : Nat) (c : LaneChange) : State :=
  (s.modLink p fun x => { x with changes := x.changes ++ [c] }).emit (c.out p 1)

theorem State.noteRetired_link (s : State) (p lane : Nat) :
    (s.noteRetired p lane).link p = { s.link p with retired := (s.link p).retired ++ [lane] } := State.link_modLink ..

theorem State.askChange_link (s : State) (p : Nat) (c : LaneChange) :
    (s.askChange p c).link p = { s.link p with changes := (s.link p).changes ++ [c] } := by
  unfold State.askChange
  rw [State.emit_link, State.link_modLink]

theorem Raises.askChange {s t : State} {code : Nat} {args : List Nat} (h : Raises s t code args) (p : Nat) (c : LaneChange) :
    Raises s (t.askChange p c) code args := by
  have same : (t.modLink p fun x => { x with changes := x.changes ++ [c] }).out = t.out := rfl
  unfold State.askChange
  refine Raises.emit _ ?_
  unfold Raises at h ⊢
  rwa [same]

/-- An event of the module after what went out before it. -/
theorem State.raises_moduleEvent_after {s t : State} (grows : s.out <+: t.out) (code a b : Nat) (pl : Bytes) :
    Raises s (t.moduleEvent code a b pl) code [0xFF, a, b] := (State.raises_moduleEvent t code a b pl).after grows

section
variable {s : State} {p lane : Nat} (first : (s.link p).changes = []) (on : (s.link p).on = true)
  (new : lane ∉ (s.link p).retired) (data : lane < 8) (codeword : Nat)
include first on new data

/-- With lane S free it takes the lane's place. -/
theorem State.retireLane_spare (good : 8 ∉ (s.link p).retired) (free : (s.link p).spare = none) :
    s.retireLane p lane 2 0 codeword =
      (((((s.noteRetired p lane).addDefect { laneEnt p lane 2 0 with st := 1, spare := 8 }).spareIn s.defectNo 4 (24 + p / 3)
        true).moduleEvent 0x0584 p lane)).askChange p { leaving := lane, taking := 8, codeword := codeword % 65536 } := by
  unfold State.retireLane
  simp only [on]
  rw [if_neg (by simpa using new), if_neg (by omega), if_pos (by simp [first, good, free, Nat.ne_of_lt data])]
  rfl

/-- The lanes that stay without one. -/
def LinkSt.lanesWithout (x : LinkSt) (lane : Nat) : List Nat := x.lanes.filter fun y => y != lane

theorem State.retireLane_narrow {k : Nat} (used : (s.link p).spare = some k) :
    s.retireLane p lane 2 0 codeword =
      if ((s.link p).lanesWithout lane).length < 4 then ((s.noteRetired p lane).addDefect (laneEnt p lane 2 0)).portLost p .down
      else (((s.noteRetired p lane).addDefect (laneEnt p lane 2 0)).moduleEvent 0x0585 p
        ((s.link p).lanesWithout lane).length).askChange p { leaving := lane, taking := 0xFF, codeword := codeword % 65536 } := by
  unfold State.retireLane
  have data' : lane ≠ 8 := by omega
  have kept : (s.link p).lanes.filter (fun x => x != lane && !((s.link p).changes.any fun c => c.taking == 0xFF && c.leaving == x)) =
      (s.link p).lanesWithout lane := by
    unfold LinkSt.lanesWithout
    simp [first]
  simp only [on]
  rw [if_neg (by simpa using new), if_neg (by simp [data']), if_neg (by simp [used]), if_neg data', kept]
  rfl

end

/-- A port that is lost is in the life it was given. -/
theorem State.portLost_life (s : State) (p : Nat) (life : LinkLife) (quiet : Bool) :
    ((s.portLost p life quiet).link p).life = life := by
  unfold State.portLost
  extract_lets was held t t1
  have lost : (t.link p).life = life := by
    unfold t
    rw [State.link_modLink]
    rfl
  have told : (t1.link p).life = life := by
    unfold t1
    split
    · exact lost
    · rw [State.moduleEvent_link]; exact lost
  split
  · exact lost
  · split
    · exact told
    · rename_i k _
      refine (forL_keeps (fun u : State => (u.link p).life) _ _ _ fun f u =>
        State.resendFrame_keeps (·.life) p (fun _ _ _ _ _ _ => rfl) u k f).trans ?_
      split
      · exact (congrArg LinkSt.life (State.moduleEvent_link t1 _ _ _ _ p)).trans told
      · exact told

/-- A port that was not active is lost without anyone hearing of it. -/
theorem State.portLost_idle {s : State} {p : Nat} (idle : (s.link p).life ≠ .active) (life : LinkLife) (quiet : Bool) :
    s.portLost p life quiet = s.modLink p fun x => x.lost life := by
  unfold State.portLost
  exact if_pos idle

/-! Discovery begins. -/

/-- Whether `p` looks past what discovery frames change: ports, numbers of free values aside, and what goes out. -/
theorem State.sendDisc_keeps {α : Type} (g : LinkSt → α) (d : Nat) (blind : SendBlind g) (s : State) (p sub : Nat) (body : Bytes) :
    g ((s.sendDisc p sub body).link d) = g (s.link d) :=
  State.sendOnPort_keeps g d blind ..

theorem State.sendHello_keeps {α : Type} (g : LinkSt → α) (d : Nat) (blind : SendBlind g) (s : State) (p : Nat) :
    g ((s.sendHello p).link d) = g (s.link d) :=
  State.sendDisc_keeps g d blind ..

theorem State.sendCerts_keeps {α : Type} (g : LinkSt → α) (d : Nat) (blind : SendBlind g) (s : State) (p : Nat) :
    g ((s.sendCerts p).link d) = g (s.link d) :=
  forN_keeps (fun u : State => g (u.link d)) _ _ _ fun _ _ => State.sendDisc_keeps g d blind ..

/-- A port that starts discovery has a fresh nonce and knows no peer. -/
theorem State.startDisc_keeps {α : Type} (g : LinkSt → α) (blind : SendBlind g) (s : State) (p : Nat) :
    g ((s.startDisc p).link p) = g { s.link p with
      life := .discovery, disc := { nonce := leBytes 32 (Config.freeBits 256 s.free).toNat } } := by
  unfold State.startDisc
  extract_lets n t
  refine (State.sendCerts_keeps g p blind ..).trans ((State.sendHello_keeps g p blind ..).trans ?_)
  unfold t
  rw [State.link_modLink]
  rfl

theorem State.startDisc_free (s : State) (p : Nat) : (s.startDisc p).free = s.free + 1 := by
  unfold State.startDisc
  extract_lets n t
  have hello : (t.sendHello p).free = t.free := (State.sendHello_frame _ _).frame .free (by decide)
  exact ((State.sendCerts_frame _ _).frame .free (by decide)).trans hello

/-- A port trains: what it held is lost, and discovery starts. -/
theorem portLinkUp_next {s : State} {p : Nat} (free : s.portFree p = true) (idle : (s.link p).life ≠ .active) :
    exec (.portLinkUp p []) s = .next ((s.modLink p fun x => x.lost .training).startDisc p) := by
  refine congrArg Host.Outcome.next ?_
  have lost := State.portLost_idle idle .training false
  have training : ((s.modLink p fun x => x.lost .training).link p).life = .training := by
    rw [State.link_modLink]
    rfl
  simp only [free, lost]
  exact if_pos training

theorem lanesAreRetired : LanesAreRetired := by
  refine fun s p lane codeword => ⟨fun c asked agreed => ?switch,
    fun low data new first on => ⟨fun good free => ?spare, fun k used enough => ?narrow, fun k used few => ?down⟩,
    fun retired => ?again, fun free idle => ?trains, fun bad busy => ?busy⟩
  case switch =>
    have due : (s.link p).changes.filter (fun x => x.agreed && x.codeword == c.codeword) = [c] := by
      simp [asked, agreed]
    have run : exec (.laneSwitch p c.codeword) s = .next (s.modLink p fun x =>
        { [c].foldl LinkSt.change x with changes := x.changes.filter fun y => !([c].contains y) }) :=
      congrArg Host.Outcome.next (by simp only [due])
    refine ⟨_, run, ?_⟩
    rw [State.link_modLink]
    refine ⟨by simp [asked], fun spare => ?_, fun lane => ?_⟩
    · simp [LinkSt.change, spare]
    · simp [LinkSt.change, lane]
  case spare =>
    have run : exec (.laneRetire p lane codeword) s = .next _ := congrArg Host.Outcome.next
      ((if_pos ⟨low, Nat.le_of_lt data⟩).trans (State.retireLane_spare first on new data codeword good free))
    refine ⟨_, run, ?_⟩
    rw [State.askChange_link, State.moduleEvent_link, State.spareIn_link, State.addDefect_link, State.noteRetired_link, first]
    have entered : s.out <+: ((s.noteRetired p lane).addDefect { laneEnt p lane 2 0 with st := 1, spare := 8 }).out :=
      (State.addDefect_frame (s.noteRetired p lane) _ .out).2
    have told := State.raises_moduleEvent_after (entered.trans (State.spareIn_frame _ s.defectNo 4 (24 + p / 3) true .out).2)
      0x0584 p lane []
    exact ⟨rfl, rfl, rfl, told.askChange ..⟩
  case narrow =>
    have run : exec (.laneRetire p lane codeword) s = .next _ := congrArg Host.Outcome.next
      ((if_pos ⟨low, Nat.le_of_lt data⟩).trans ((State.retireLane_narrow first on new data codeword used).trans
        (if_neg (Nat.not_lt.mpr enough))))
    refine ⟨_, run, ?_⟩
    rw [State.askChange_link, State.moduleEvent_link, State.addDefect_link, State.noteRetired_link, first]
    have told := State.raises_moduleEvent_after (s := s) (State.addDefect_frame (s.noteRetired p lane) (laneEnt p lane 2 0) .out).2
      0x0585 p ((s.link p).lanesWithout lane).length []
    exact ⟨rfl, rfl, rfl, told.askChange ..⟩
  case down =>
    have run : exec (.laneRetire p lane codeword) s = .next _ := congrArg Host.Outcome.next
      ((if_pos ⟨low, Nat.le_of_lt data⟩).trans ((State.retireLane_narrow first on new data codeword used).trans
        (if_pos few)))
    exact ⟨_, run, State.portLost_life ..⟩
  case again =>
    refine congrArg Host.Outcome.next ?_
    split
    · unfold State.retireLane
      exact if_pos (by simpa using retired)
    · rfl
  case trains =>
    refine ⟨_, portLinkUp_next free idle, ?_⟩
    have keeps {α : Type} (g : LinkSt → α) (blind : SendBlind g) :=
      State.startDisc_keeps g blind (s.modLink p fun x => x.lost .training) p
    refine ⟨keeps (·.life) fun _ _ _ _ _ _ => rfl, ?_, ?_, ?_, ?_, ?_⟩
    · rw [keeps (·.rxSeq) fun _ _ _ _ _ _ => rfl, State.link_modLink]
      rfl
    · rw [keeps (·.disc) fun _ _ _ _ _ _ => rfl]
    · rw [keeps (·.disc) fun _ _ _ _ _ _ => rfl]
    · rw [keeps (·.disc) fun _ _ _ _ _ _ => rfl]
      rfl
    · rw [keeps (·.lanes) fun _ _ _ _ _ _ => rfl, State.link_modLink]
      rfl
  case busy =>
    exact congrArg Host.Outcome.next (by simp only [busy]; rfl)

end Sys2Proof.Machine
end

section
/-!
Discovery of a port's peer (12 R357-R360).
-/

namespace Sys2Proof.Machine

/-! What plans alone tell. -/

section
variable {s t : State} (same : t.fabric.plans = s.fabric.plans)
include same

theorem State.nodeId_of_plans : t.nodeId = s.nodeId := by
  unfold State.nodeId
  rw [same]

theorem State.gangMask_of_plans (g : Nat) : t.gangMask g = s.gangMask g := by
  unfold State.gangMask
  rw [same]

theorem State.portGang_of_plans (p : Nat) : t.portGang p = s.portGang p := by
  unfold State.portGang State.gangPorts
  rw [same]

end

/-! Frames of discovery. -/

theorem Unframed_link (s : State) (idx p : Nat) : (Unframed s idx).link p = s.link p := rfl

/-- A discovery frame that fits reaches what its subtype does. -/
theorem State.takeDisc_of_discIn {s : State} {idx p sub : Nat} {pl : Bytes} (arrived : DiscIn s idx p sub pl)
    (heard : sub = 3 ∨ (s.link p).life ≠ .active) (f : Nat → Bytes → State → State) :
    s.takeDisc idx sub f = f p pl (Unframed s idx) := by
  obtain ⟨b, boxed, kind, rfl, subtype, crc, form⟩ := arrived
  have heard' : ¬(sub ≠ 3 ∧ ((s.modFabric fun x => { x with inbox := x.inbox.eraseIdx idx }).link p).life = .active) :=
    fun ⟨other, active⟩ => heard.elim other fun idle => idle active
  unfold State.takeDisc
  simp only [boxed]
  rw [if_neg (not_not_intro kind), if_neg (fun h => h.1 subtype), if_neg (by simp [crc]), if_neg (by simp [form]),
    if_neg heard']
  rfl

/-! The challenge goes out once. -/

section
variable {s : State} {p : Nat}

theorem State.sendDisc_plans (s : State) (p sub : Nat) (body : Bytes) : (s.sendDisc p sub body).fabric.plans = s.fabric.plans :=
  State.sendOnPort_keeps_of (·.fabric.plans) (fun _ _ _ => rfl) (fun _ _ => rfl) ..

theorem State.sendDisc_free (s : State) (p sub : Nat) (body : Bytes) : (s.sendDisc p sub body).free = s.free :=
  (State.sendDisc_frame _ _ _ _).frame .free (by decide)

theorem State.sendChallenge_plans (s : State) (p : Nat) : (s.sendChallenge p).fabric.plans = s.fabric.plans := by
  unfold State.sendChallenge
  extract_lets d
  split
  · rfl
  · exact State.sendDisc_plans ..

/-- What sending a challenge keeps of its port. -/
theorem State.sendChallenge_keeps {α : Type} (g : LinkSt → α) (blind : SendBlind g)
    (noted : ∀ x, g { x with disc := { x.disc with challengeSent := true } } = g x) (s : State) (p : Nat) :
    g ((s.sendChallenge p).link p) = g (s.link p) := by
  unfold State.sendChallenge
  extract_lets d
  split
  · rfl
  · exact (State.modLink_keeps g p _ p noted).trans (State.sendDisc_keeps g p blind ..)

/-- Once the peer is known, the challenge has gone out. -/
theorem State.sendChallenge_sent (known : (s.link p).disc.peer ≠ none) : ((s.sendChallenge p).link p).disc.challengeSent = true := by
  unfold State.sendChallenge
  extract_lets d
  split
  · rename_i done
    refine done.resolve_right fun none => known ?_
    simpa using none
  · rw [State.link_modLink]

end

/-! Disabled ports. -/

/-- A port is disabled with an event. -/
theorem State.disablePort_tells {s t : State} (grows : s.out <+: t.out) (p code : Nat) :
    ((t.disablePort p code).link p).life = .disabled ∧ Raises s (t.disablePort p code) code [0xFF, p, 0] := by
  unfold State.disablePort
  extract_lets was g t1
  have life : (t1.link p).life = .disabled := by
    unfold t1
    rw [State.moduleEvent_link, State.link_modLink]
  have told : Raises s t1 code [0xFF, p, 0] :=
    State.raises_moduleEvent_after (t := t.modLink p fun x => { x with life := .disabled, disc := { x.disc with failed := true } })
      grows code p 0 []
  clear_value g
  cases g with
  | none => exact ⟨life, told⟩
  | some g =>
    dsimp only
    split
    · exact ⟨(congrArg LinkSt.life (State.moduleEvent_link t1 0x0586 g 0 [] p)).trans life,
        told.grow (State.moduleEvent_frame t1 0x0586 g 0 [] .out).2⟩
    · exact ⟨life, told⟩

/-! What the commands do. -/

section
variable {s : State} {idx p : Nat} {pl : Bytes}

/-- The state once `HELLO` has named its peer and the challenge is out. -/
def State.greeted (s : State) (idx p : Nat) (pl : Bytes) : State :=
  ((Unframed s idx).modLink p fun x => { x with
    disc := { x.disc with peer := some (leAt pl 4 2, leAt pl 6 1, (pl.drop 32).take 32) } }).sendChallenge p

theorem State.greeted_plans (s : State) (idx p : Nat) (pl : Bytes) : (s.greeted idx p pl).fabric.plans = s.fabric.plans :=
  State.sendChallenge_plans ..

theorem State.greeted_keeps {α : Type} (g : LinkSt → α) (blind : SendBlind g)
    (noted : ∀ x, g { x with disc := { x.disc with challengeSent := true } } = g x) (s : State) (idx p : Nat) (pl : Bytes) :
    g ((s.greeted idx p pl).link p) = g { s.link p with
      disc := { (s.link p).disc with peer := some (leAt pl 4 2, leAt pl 6 1, (pl.drop 32).take 32) } } := by
  unfold State.greeted
  rw [State.sendChallenge_keeps g blind noted, State.link_modLink, Unframed_link]

theorem State.greeted_sent (s : State) (idx p : Nat) (pl : Bytes) :
    ((s.greeted idx p pl).link p).disc.challengeSent = true :=
  State.sendChallenge_sent (by rw [State.link_modLink]; nofun)

theorem State.greeted_out (s : State) (idx p : Nat) (pl : Bytes) : s.out <+: (s.greeted idx p pl).out :=
  (State.sendChallenge_frame ((Unframed s idx).modLink p fun x => { x with
    disc := { x.disc with peer := some (leAt pl 4 2, leAt pl 6 1, (pl.drop 32).take 32) } }) p .out).2

/-- What `HELLO` does once the challenge is out. -/
theorem hello_next (arrived : DiscIn s idx p 1 pl) (idle : (s.link p).life ≠ .active) : exec (.hello idx) s = .next
    (match s.portGang p with
      | none => (s.greeted idx p pl).disablePort p 0x0582
      | some g => if some (s.nodeId ^^^ leAt pl 4 2) ≠ s.gangMask g ∨ leAt pl 6 1 ≠ p then
          (s.greeted idx p pl).disablePort p 0x0581
        else (s.greeted idx p pl).modLink p fun x => { x with peerNode := leAt pl 4 2 }) := by
  have plans := State.greeted_plans s idx p pl
  rw [← State.portGang_of_plans plans, ← State.nodeId_of_plans plans]
  refine congrArg Host.Outcome.next ((State.takeDisc_of_discIn arrived (.inr idle) _).trans ?_)
  simp only [← State.gangMask_of_plans plans]
  rfl

theorem cert_next (arrived : DiscIn s idx p 2 pl) (idle : (s.link p).life ≠ .active) : exec (.cert idx) s = .next
    ((Unframed s idx).modLink p fun x => { x with disc := { x.disc with
      frags := tset x.disc.frags (leAt pl 16 2) ((pl.drop 32).take (leAt pl 24 2)), nFrags := leAt pl 18 2 } }) :=
  congrArg Host.Outcome.next (State.takeDisc_of_discIn arrived (.inr idle) _)

/-- A challenge is answered while the secure element signs. -/
theorem challenge_next (arrived : DiscIn s idx p 3 pl) : exec (.discoveryChallenge idx) s = .next
    (if s.lk.seFailed then Unframed s idx
      else (Unframed s idx).nextFree.sendDisc p 4 (zeros 16 ++ padTo 96 (Config.sign s.free
        (proofBlock (s.link p).disc.nonce ((pl.drop 32).take 32) s.nodeId p)))) :=
  congrArg Host.Outcome.next (State.takeDisc_of_discIn arrived (.inl rfl) _)

section
variable {chain nonce : Bytes} {node g : Nat} (arrived : DiscIn s idx p 4 pl) (idle : (s.link p).life ≠ .active)
  (whole : (s.link p).disc.chain = some chain) (known : (s.link p).disc.peer = some (node, p, nonce))
  (gang : s.portGang p = some g)
include arrived idle whole known gang

/-- A proof is judged on the peer's chain, its fingerprint and both nonces. -/
theorem proof_next : exec (.proof idx) s = .next
    (let t := (Unframed s idx).modLink p fun x => { x with seen := sha384 (firstCert chain) }
      if !(Config.deviceChain chain && s.fprOk g (sha384 (firstCert chain)) &&
          Config.verify (firstCert chain) (proofBlock nonce (s.link p).disc.nonce node p) ((pl.drop 32).take 96)) then
        t.disablePort p 0x0580
      else if some (s.nodeId ^^^ node) ≠ s.gangMask g ∨ p ≠ p then t.disablePort p 0x0581
      else
        let v := t.modLink p fun x => { x with life := .active, peerNode := node }
        (if (t.activePorts g).isEmpty then v.modFabric fun f => { f with routesDue := true } else v).settlePlans) := by
  refine congrArg Host.Outcome.next ((State.takeDisc_of_discIn arrived (.inr idle) _).trans ?_)
  have gang' : (Unframed s idx).portGang p = some g := gang
  simp only [Unframed_link, whole, known, gang']
  rfl

end

/-! A port that joins its gang. -/

theorem State.settlePlans_link (s : State) (p : Nat) : (s.settlePlans).link p = s.link p := by
  have build (t : State) : t.buildRoutes.link p = t.link p := by
    unfold State.buildRoutes
    extract_lets r t1
    split
    · rfl
    · exact State.moduleEvent_link t1 _ _ _ _ p
  have decide_ (t : State) (slot : Nat) : (t.decidePlan slot).link p = t.link p := by
    unfold State.decidePlan
    extract_lets b t1
    split <;> exact build t
  unfold State.settlePlans
  refine forL_keeps (fun u : State => u.link p) _ _ _ fun q u => ?_
  split
  · exact decide_ u q.1
  · rfl

/-- Whether routes become due leaves the ports alone. -/
theorem joined_link (empty : Bool) (v : State) (p : Nat) :
    (if empty then v.modFabric fun f => { f with routesDue := true } else v).link p = v.link p := by
  cases empty <;> rfl

theorem discoveryFindsThePeer : DiscoveryFindsThePeer := by
  refine fun s idx p pl => ⟨fun arrived idle => ⟨fun g gang mask port => ?greets, fun g gang wrong => ?wrong, fun none => ?noGang⟩,
    fun arrived idle => ?cert, fun arrived signs => ?answers, fun arrived failed => ?mute,
    fun chain node nonce g arrived idle whole known gang => ⟨fun device fpr verified mask => ?joins, fun bad => ?refused⟩,
    ⟨fun runs => ?resends, fun idle => ?silent⟩, fun disabled => ?retries, fun enabled => ?stays⟩
  case greets =>
    have keeps {α : Type} (k : LinkSt → α) (blind : SendBlind k)
        (noted : ∀ x, k { x with disc := { x.disc with challengeSent := true } } = k x) :=
      State.greeted_keeps k blind noted s idx p pl
    have run := hello_next arrived idle
    rw [gang] at run
    refine ⟨_, run.trans (congrArg Host.Outcome.next (if_neg (by simp [mask, port]))), ?_⟩
    rw [State.link_modLink]
    refine ⟨?_, rfl, State.greeted_sent s idx p pl, keeps (·.life) (fun _ _ _ _ _ _ => rfl) fun _ => rfl⟩
    exact (keeps (·.disc.peer) (fun _ _ _ _ _ _ => rfl) fun _ => rfl).trans (by rw [port])
  case wrong =>
    have run := hello_next arrived idle
    rw [gang] at run
    refine ⟨_, run.trans (congrArg Host.Outcome.next (if_pos ?_)), State.disablePort_tells (State.greeted_out s idx p pl) p 0x0581⟩
    exact wrong.imp (fun h k => h k.symm) id
  case noGang =>
    have run := hello_next arrived idle
    rw [none] at run
    exact ⟨_, run, State.disablePort_tells (State.greeted_out s idx p pl) p 0x0582⟩
  case cert =>
    refine ⟨_, cert_next arrived idle, ?_⟩
    rw [State.link_modLink, Unframed_link]
    exact ⟨tfind_tset_self .., rfl, fun i other => tfind_tset_other _ _ other, rfl, rfl⟩
  case answers =>
    have run := challenge_next arrived
    rw [signs] at run
    exact ⟨_, run, State.sendDisc_free .., rfl⟩
  case mute =>
    have run := challenge_next arrived
    rwa [failed] at run
  case joins =>
    have run := proof_next arrived idle whole known gang
    rw [device, fpr, verified, mask] at run
    refine ⟨_, run.trans (congrArg Host.Outcome.next ((if_neg (by simp)).trans (if_neg (by simp)))), ?_⟩
    rw [State.settlePlans_link, joined_link, State.link_modLink, State.link_modLink]
    exact ⟨rfl, rfl, rfl⟩
  case refused =>
    have run := proof_next arrived idle whole known gang
    have fails : (!(Config.deviceChain chain && s.fprOk g (sha384 (firstCert chain)) &&
        Config.verify (firstCert chain) (proofBlock nonce (s.link p).disc.nonce node p) ((pl.drop 32).take 96))) = true := by
      rcases bad with bad | bad | bad <;> simp [bad]
    refine ⟨_, run.trans (congrArg Host.Outcome.next (if_pos fails)), State.disablePort_tells ?_ p 0x0580⟩
    exact List.prefix_refl _
  case resends => exact congrArg Host.Outcome.next (if_pos runs)
  case silent => exact congrArg Host.Outcome.next (if_neg idle)
  case retries =>
    have keeps {α : Type} (g : LinkSt → α) (blind : SendBlind g) := State.startDisc_keeps g blind s p
    refine ⟨_, congrArg Host.Outcome.next (if_pos disabled), keeps (·.life) fun _ _ _ _ _ _ => rfl, ?_,
      State.startDisc_free s p⟩
    rw [keeps (·.disc) fun _ _ _ _ _ _ => rfl]
  case stays => exact congrArg Host.Outcome.next (if_neg enabled)

/-- Settles O17: lanes and training ports, and each frame of discovery. -/
theorem lanesAndPeersAreManaged : Obligations.LanesAndPeersAreManaged := ⟨lanesAreRetired, discoveryFindsThePeer⟩

end

end Sys2Proof.Machine
end

section
/-!
Remote requests and responses (12 R375-R380, R382).
-/

namespace Sys2Proof.Machine

/-! Frames that arrive for this node. -/

/-- A whole frame of its kind reaches what the kind does. -/
theorem State.takeFrame_of_frameIn {s : State} {idx kind : Nat} {b : Bytes} (arrived : FrameIn s idx kind b)
    (f : FrameHdr → Bytes → State → State) : s.takeFrame idx kind f = f (hdrOf b) b (Unframed s idx) := by
  obtain ⟨⟨p, boxed⟩, ofKind, here, crc⟩ := arrived
  unfold State.takeFrame
  simp only [boxed]
  rw [if_neg (by simp [ofKind, here]), if_pos crc]
  rfl

/-! Answers to requests. -/

/-- A request has been performed and is answered. -/
def State.answer (s : State) (h : FrameHdr) (f : Bytes) : State := ((s.performed h f).unhold h).sendFrame f

section
variable (s : State) (h : FrameHdr) (f : Bytes)

theorem State.sendFrame_keeps_of {β : Type} (q : State → β) (link : ∀ u p f, q (State.modLink u p f) = q u)
    (out : ∀ u o, q (State.emit u o) = q u) : q (s.sendFrame f) = q s := by
  unfold State.sendFrame State.routeFrame
  extract_lets h
  split
  · rfl
  · split
    · rfl
    · exact State.sendOnPort_keeps_of q link out ..

theorem State.sendFrame_hist : (s.sendFrame f).fabric.hist = s.fabric.hist :=
  State.sendFrame_keeps_of s f (·.fabric.hist) (fun _ _ _ => rfl) fun _ _ => rfl

theorem State.histOf_modHist (g : HistSt → HistSt) : (s.modHist h g).histOf h = g (s.histOf h) := tget_tset_self ..

/-- Frames that are held no more are all that changes of what is kept of a source. -/
theorem State.unhold_hist : ∃ l, (s.unhold h).histOf h = { s.histOf h with held := l } := by
  unfold State.unhold
  extract_lets back t
  exact ⟨_, (State.histOf_modHist s h _ : t.histOf h = _)⟩

theorem State.answer_mem : (s.answer h f).mem = s.mem := (State.sendFrame_frame _ _).frame .mem (by decide)

/-- The number of an answered request and its response are kept. -/
theorem State.answer_hist : ((s.answer h f).histOf h).performed.head? = some h.seq ∧
    ((s.answer h f).histOf h).saved.head? = some (h.seq, f) := by
  have sent : (s.answer h f).histOf h = ((s.performed h f).unhold h).histOf h :=
    (congrArg (fun x : Tbl HistSt => tget x {} (histKey h)) (State.sendFrame_hist ..) :)
  obtain ⟨l, freed⟩ := State.unhold_hist (s.performed h f) h
  rw [sent, freed]
  unfold State.performed
  rw [State.histOf_modHist]
  exact ⟨rfl, rfl⟩

end

section
variable {s : State} {idx kind : Nat} {b : Bytes} (arrived : FrameIn s idx kind b) (perm : Nat) (n : FrameHdr → Nat)
  (perform : FrameHdr → Bytes → State → State × Nat × Bytes)

/-- What performing a request gives: the state, the status and the payload of its response (R375). -/
def State.outcome (s : State) (h : FrameHdr) (b : Bytes) (st : Nat)
    (perform : FrameHdr → Bytes → State → State × Nat × Bytes) : State × Nat × Bytes :=
  if st = 0 then perform h (payloadOf b) s else (s, st, [])

include arrived

/-- A request that is not ahead of another and was not performed before is checked, performed and answered. -/
theorem State.serveRequest_new (new : kind ≠ 1 → (hdrOf b).seq ∉ (s.histOf (hdrOf b)).performed) :
    s.serveRequest idx kind perm false n perform =
      let r := (Unframed s idx).outcome (hdrOf b) b (s.requestStatus (hdrOf b) perm (n (hdrOf b))) perform
      r.1.answer (hdrOf b) (r.1.responseTo (hdrOf b) (if kind = 1 then 4 else 5) r.2.1 r.2.2) := by
  have fresh : ¬(((Unframed s idx).histOf (hdrOf b)).performed.contains (hdrOf b).seq = true ∧ kind ≠ 1) :=
    fun h => new h.2 (List.contains_iff_mem.mp h.1)
  unfold State.serveRequest
  rw [State.takeFrame_of_frameIn arrived]
  simp only
  rw [if_neg fresh]
  rfl

/-- A request that was performed before is not performed again. -/
theorem State.serveRequest_again (ahead : Bool) (other : kind ≠ 1)
    (done : (hdrOf b).seq ∈ (s.histOf (hdrOf b)).performed) :
    (s.serveRequest idx kind perm ahead n perform).mem = s.mem ∧
      (s.serveRequest idx kind perm ahead n perform).fabric.hist = s.fabric.hist := by
  have known : ((Unframed s idx).histOf (hdrOf b)).performed.contains (hdrOf b).seq = true ∧ kind ≠ 1 :=
    ⟨List.contains_iff_mem.mpr done, other⟩
  unfold State.serveRequest
  rw [State.takeFrame_of_frameIn arrived]
  simp only
  rw [if_pos known]
  split
  · exact ⟨(State.sendFrame_frame _ _).frame .mem (by decide), State.sendFrame_hist ..⟩
  · exact ⟨rfl, rfl⟩

/-- A request ahead of an earlier one to its line is held. -/
theorem State.serveRequest_ahead (new : (hdrOf b).seq ∉ (s.histOf (hdrOf b)).performed) :
    s.serveRequest idx kind perm true n perform =
      (Unframed s idx).modHist (hdrOf b) fun x => { x with held := x.held ++ [b] } := by
  have fresh : ¬(((Unframed s idx).histOf (hdrOf b)).performed.contains (hdrOf b).seq = true ∧ kind ≠ 1) :=
    fun h => new (List.contains_iff_mem.mp h.1)
  unfold State.serveRequest
  rw [State.takeFrame_of_frameIn arrived]
  simp only
  rw [if_neg fresh]
  rfl

omit arrived in
/-- The write buffer has room where a request has arrived. -/
theorem room_of_frameIn (arrived : FrameIn s idx kind b) (room : s.wcbRoom (hdrOf b).addr = true) :
    ((s.fabric.inbox[idx]?).elim false fun x => !s.wcbRoom (hdrOf x.2).addr) = false := by
  obtain ⟨⟨p, boxed⟩, -⟩ := arrived
  simp [boxed, room]

end

/-! The state that a request is performed on. -/

theorem State.responseTo_of_plans {s t : State} (same : t.fabric.plans = s.fabric.plans) (h : FrameHdr) (kind st : Nat) (p : Bytes) :
    t.responseTo h kind st p = s.responseTo h kind st p := by
  unfold State.responseTo
  rw [State.nodeId_of_plans same]

theorem State.homeStore_mem (s : State) (pa : Nat) (bs : Bytes) (m : Bool) :
    (s.homeStore pa bs m).mem = s.mem.write pa bs m := by
  simp only [State.homeStore, State.wcbNote_mem, State.memWrite_mem]

/-- What an add leaves and finds depends on memory alone. -/
theorem State.homeAdd_of_mem {s t : State} (same : t.mem = s.mem) (reader pa : Nat) (op : AddOp) :
    (t.homeAdd none reader pa op).1.mem = (s.homeAdd none reader pa op).1.mem ∧
      (t.homeAdd none reader pa op).2 = (s.homeAdd none reader pa op).2 := by
  cases clean : s.mem.marked pa with
  | false =>
    obtain ⟨left, found⟩ := homeAdd_unmarked none reader op (s := s) clean
    obtain ⟨left', found'⟩ := homeAdd_unmarked none reader op (s := t) (by rw [same, clean])
    rw [left, left', found, found', same]
    exact ⟨rfl, rfl⟩
  | true =>
    unfold State.homeAdd
    rw [same, if_pos clean, if_pos clean]
    refine ⟨?_, rfl⟩
    rw [show (t.poisonRead none reader (pa / 64 * 64)).mem = t.mem from (State.poisonRead_frame _ _ _ _).frame .mem (by decide),
      show (s.poisonRead none reader (pa / 64 * 64)).mem = s.mem from (State.poisonRead_frame _ _ _ _).frame .mem (by decide), same]

/-- A read as it is performed: poisoned lines are reported, and the bytes go back. -/
def readAt (h : FrameHdr) (_ : Bytes) (t : State) : State × Nat × Bytes :=
  (t.poisonReads none 0xFFFD h.addr (reqBytes h), if t.mem.anyMarked h.addr (reqBytes h) then 128 else 0,
    t.memRead h.addr (reqBytes h))

/-- A write as it is performed. -/
def writeAt (h : FrameHdr) (p : Bytes) (t : State) : State × Nat × Bytes :=
  (t.homeStore h.addr (p.take (reqBytes h)), 0, [])

/-- An atomic as it is performed. -/
def addAt (h : FrameHdr) (p : Bytes) (t : State) : State × Nat × Bytes :=
  ((t.homeAdd none 0xFFFD h.addr (remoteAtomic h p)).1,
    if t.mem.anyMarked h.addr (remoteAtomic h p).bytes then 128 else 0,
    if h.op.testBit 7 then leBytes (remoteAtomic h p).bytes (t.homeAdd none 0xFFFD h.addr (remoteAtomic h p)).2 else [])

/-- What a new request leaves: its number and its response are kept, memory as its performance leaves it, or as it was. -/
theorem State.serveRequest_answers {s : State} {idx kind : Nat} {b : Bytes} (arrived : FrameIn s idx kind b) (perm : Nat)
    (n : FrameHdr → Nat) (perform : FrameHdr → Bytes → State → State × Nat × Bytes)
    (new : kind ≠ 1 → (hdrOf b).seq ∉ (s.histOf (hdrOf b)).performed) {st : Nat}
    (status : s.requestStatus (hdrOf b) perm (n (hdrOf b)) = st)
    (plans : (perform (hdrOf b) (payloadOf b) (Unframed s idx)).1.fabric.plans = (Unframed s idx).fabric.plans) :
    let u := s.serveRequest idx kind perm false n perform
    let r := perform (hdrOf b) (payloadOf b) (Unframed s idx)
    (u.histOf (hdrOf b)).performed.head? = some (hdrOf b).seq ∧
    (st = 0 → u.mem = r.1.mem ∧ (u.histOf (hdrOf b)).saved.head? =
      some ((hdrOf b).seq, s.responseTo (hdrOf b) (if kind = 1 then 4 else 5) r.2.1 r.2.2)) ∧
    (st ≠ 0 → u.mem = s.mem ∧ (u.histOf (hdrOf b)).saved.head? =
      some ((hdrOf b).seq, s.responseTo (hdrOf b) (if kind = 1 then 4 else 5) st [])) := by
  intro u r
  have run : u = _ := State.serveRequest_new arrived perm n perform new
  rw [status] at run
  extract_lets k at run
  obtain ⟨performed, saved⟩ := State.answer_hist k.1 (hdrOf b) (k.1.responseTo (hdrOf b) (if kind = 1 then 4 else 5) k.2.1 k.2.2)
  rw [run, State.answer_mem]
  refine ⟨performed, fun ok => ?_, fun bad => ?_⟩
  · have here : k = r := if_pos ok
    rw [saved, here, State.responseTo_of_plans plans]
    exact ⟨rfl, rfl⟩
  · have here : k = (Unframed s idx, st, []) := if_neg bad
    rw [saved, here]
    exact ⟨rfl, rfl⟩

theorem remoteRequestsArePerformed : RemoteRequestsArePerformed := by
  rintro s idx b h rfl
  refine ⟨fun st arrived status => ?read, fun st arrived room new status => ?write,
    fun st op arrived room new ofOp status => ?atomic, fun kind i ahead ofKind arrived room => ⟨fun done => ?again, fun new isAhead => ?held⟩⟩
  case read =>
    obtain ⟨performed, ok, bad⟩ := State.serveRequest_answers arrived 1 reqBytes readAt (fun h => absurd rfl h) status
      (congrArg FabricSt.plans ((State.poisonReads_frame _ _ _ _ _).frame .fabric (by decide)) :)
    refine ⟨_, rfl, ?_, performed, fun st0 => (ok st0).2, fun st1 => (bad st1).2⟩
    by_cases st0 : st = 0
    · exact (ok st0).1.trans ((State.poisonReads_frame _ _ _ _ _).frame .mem (by decide))
    · exact (bad st0).1
  case write =>
    obtain ⟨performed, ok, bad⟩ := State.serveRequest_answers arrived 2 reqBytes writeAt (fun _ => new) status
      (congrArg FabricSt.plans ((State.homeStore_frame _ _ _ _).frame .fabric (by decide)) :)
    refine ⟨_, congrArg Host.Outcome.next (if_neg (by rw [room_of_frameIn arrived room]; nofun)), performed,
      fun st0 => ⟨(ok st0).1.trans ?_, (ok st0).2⟩, bad⟩
    rw [State.homeStore_mem]
    exact State.homeStore_mem ..
  case atomic =>
    subst ofOp
    obtain ⟨performed, ok, bad⟩ := State.serveRequest_answers arrived 3 (fun h => (remoteAtomic h []).bytes) addAt (fun _ => new)
      status (congrArg FabricSt.plans ((State.homeAdd_frame _ _ _ _ _).frame .fabric (by decide)) :)
    obtain ⟨left, found⟩ := State.homeAdd_of_mem (s := s) (t := Unframed s idx) rfl 0xFFFD (hdrOf b).addr
      (remoteAtomic (hdrOf b) (payloadOf b))
    refine ⟨_, congrArg Host.Outcome.next (if_neg (by rw [room_of_frameIn arrived room]; nofun)), performed,
      fun st0 => ⟨(ok st0).1.trans left, (ok st0).2.trans ?_⟩, bad⟩
    unfold addAt
    rw [found]
    rfl
  case again =>
    have full := room_of_frameIn arrived room
    simp only [List.mem_cons, Prod.mk.injEq, List.not_mem_nil, or_false] at ofKind
    rcases ofKind with ⟨rfl, rfl⟩ | ⟨rfl, rfl⟩
    · exact ⟨_, congrArg Host.Outcome.next (if_neg (by rw [full]; nofun)),
        State.serveRequest_again arrived _ _ _ ahead (by decide) done⟩
    · exact ⟨_, congrArg Host.Outcome.next (if_neg (by rw [full]; nofun)),
        State.serveRequest_again arrived _ _ _ ahead (by decide) done⟩
  case held =>
    have full := room_of_frameIn arrived room
    subst isAhead
    have kept : ((Unframed s idx).modHist (hdrOf b) fun x => { x with held := x.held ++ [b] }).histOf (hdrOf b) =
        { s.histOf (hdrOf b) with held := (s.histOf (hdrOf b)).held ++ [b] } := State.histOf_modHist ..
    simp only [List.mem_cons, Prod.mk.injEq, List.not_mem_nil, or_false] at ofKind
    rcases ofKind with ⟨rfl, rfl⟩ | ⟨rfl, rfl⟩
    all_goals
      refine ⟨_, congrArg Host.Outcome.next ((if_neg (by rw [full]; nofun)).trans
        (State.serveRequest_ahead arrived _ _ _ new)), rfl, ?_, ?_, rfl⟩
      · rw [kept]
      · rw [kept]

/-! Responses. -/

section
variable {s : State} {idx kind : Nat} {b : Bytes} (arrived : FrameIn s idx kind b)

/-- The state with a frame taken and the request gone that it answers. -/
def State.unasked (s : State) (r : ReqSt) : State := s.modFabric fun x => { x with reqs := x.reqs.filter fun y => y != r }

theorem State.not_mem_unasked (s : State) (r : ReqSt) : ¬r ∈ (s.unasked r).fabric.reqs := by
  simp [State.unasked, State.modFabric]

include arrived

theorem State.responseIn_orphan (none : s.waitingFor (hdrOf b) = none) : s.responseIn idx kind =
    ((Unframed s idx).modFabric fun x => { x with orphan := x.orphan + 1 }).moduleEvent 0x058C (hdrOf b).src (hdrOf b).unit := by
  have none' : (Unframed s idx).waitingFor (hdrOf b) = .none := none
  unfold State.responseIn
  rw [State.takeFrame_of_frameIn arrived]
  simp only [none']

section
variable {r : ReqSt} (waits : s.waitingFor (hdrOf b) = some r)
include waits

theorem State.responseIn_denied (denied : (hdrOf b).status = 1) :
    s.responseIn idx kind = ((Unframed s idx).unasked r).failRequest r 0x0502 := by
  have waits' : (Unframed s idx).waitingFor (hdrOf b) = some r := waits
  unfold State.responseIn
  rw [State.takeFrame_of_frameIn arrived]
  simp only [waits', denied]
  rfl

theorem State.responseIn_core (core : r.unit < 0x200) (fine : (hdrOf b).status = 0) :
    s.responseIn idx kind = ((Unframed s idx).unasked r).coreResponse r (payloadOf b) := by
  have waits' : (Unframed s idx).waitingFor (hdrOf b) = some r := waits
  unfold State.responseIn
  rw [State.takeFrame_of_frameIn arrived]
  simp only [waits', fine]
  exact if_pos core

end

end

/-- A response that nobody waits for is counted and reported. -/
theorem State.orphan_counts (s : State) (h : FrameHdr) :
    let u := (s.modFabric fun x => { x with orphan := x.orphan + 1 }).moduleEvent 0x058C h.src h.unit
    u.fabric.orphan = s.fabric.orphan + 1 ∧ u.cores = s.cores ∧ Raises s u 0x058C [0xFF, h.src, h.unit] :=
  ⟨(congrArg FabricSt.orphan ((State.moduleEvent_frame (s.modFabric fun x => { x with orphan := x.orphan + 1 }) _ _ _ _).frame
      .fabric (by decide)) :),
    (State.moduleEvent_frame (s.modFabric fun x => { x with orphan := x.orphan + 1 }) _ _ _ _).frame .cores (by decide),
    State.raises_moduleEvent_after (t := s.modFabric fun x => { x with orphan := x.orphan + 1 }) (List.prefix_refl s.out) ..⟩

/-- A response to a core changes the core's accesses alone. -/
theorem State.coreResponse_fabric (s : State) (r : ReqSt) (p : Bytes) : (s.coreResponse r p).fabric = s.fabric := by
  unfold State.coreResponse
  split
  · rfl
  · extract_lets n
    split
    · rfl
    · split <;> rfl
    · rfl

section
variable {s : State} {r : ReqSt} {a : Access} (open_ : (s.core r.core).access r.access = some a) (p : Bytes)
include open_

theorem State.coreResponse_load (load : a.kind = .load) : ((s.coreResponse r p).core r.core).access r.access =
    some { a with done := some [leAt p 0 (a.parts.head?.elim 0 fun x => x.size)] } := by
  refine Eq.trans ?_ (access_modAccess (f := fun x => { x with
    done := some [leAt p 0 (a.parts.head?.elim 0 fun x => x.size)] }) (fun _ => rfl) open_)
  unfold State.coreResponse
  simp only [open_, load, id_of_access open_]

theorem State.coreResponse_ends (ends : a.kind = .store ∨ (a.kind = .atomic ∧ a.ret = false)) :
    ((s.coreResponse r p).core r.core).access r.access = none := by
  have id := id_of_access open_
  unfold State.coreResponse
  rcases ends with store | ⟨atomic, silent⟩
  · simp only [open_, store]
    rw [id]
    exact access_dropAccess ..
  · simp only [open_, atomic, silent]
    rw [id]
    exact access_dropAccess ..

end

theorem remoteResponsesReachTheSource : RemoteResponsesReachTheSource := by
  rintro s idx b h rfl
  refine ⟨fun kind i ofKind arrived => ?responses, fun r unit node seq asked => ⟨fun live => ?again, _, ?timeout, rfl⟩,
    fun node unit => ⟨_, rfl, ?lapses⟩⟩
  case responses =>
    have run : exec i s = .next (s.responseIn idx kind) := by
      simp only [List.mem_cons, Prod.mk.injEq, List.not_mem_nil, or_false] at ofKind
      rcases ofKind with ⟨rfl, rfl⟩ | ⟨rfl, rfl⟩ <;> rfl
    refine ⟨fun none => ⟨_, run, ?_⟩, fun r waits denied => ⟨_, run, State.responseIn_denied arrived waits denied⟩,
      fun r a waits core fine open_ => ⟨_, run, ?_⟩⟩
    · rw [State.responseIn_orphan arrived none]
      exact State.orphan_counts (Unframed s idx) (hdrOf b)
    · have there : (((Unframed s idx).unasked r).core r.core).access r.access = some a := open_
      rw [State.responseIn_core arrived waits core fine, State.coreResponse_fabric]
      exact ⟨State.not_mem_unasked (Unframed s idx) r, State.coreResponse_load there _, fun store => State.coreResponse_ends there _ (.inl store),
        fun atomic silent => State.coreResponse_ends there _ (.inr ⟨atomic, silent⟩)⟩
  case again =>
    refine congrArg Host.Outcome.next ?_
    simp only [asked]
    exact if_neg (by simpa using live)
  case timeout =>
    exact congrArg Host.Outcome.next (by simp only [asked])
  case lapses =>
    have kept : tget (s.modFabric fun x => { x with hist := tmod x.hist {} (node * 65536 + unit) fun y =>
        { y with performed := [], saved := [] } }).fabric.hist {} (node * 65536 + unit) =
        { tget s.fabric.hist {} (node * 65536 + unit) with performed := [], saved := [] } := tget_tset_self ..
    rw [kept]
    exact ⟨rfl, rfl, rfl, rfl⟩

/-- Settles O18: requests are performed once, responses reach their source. -/
theorem remoteAccessesAreServed : Obligations.RemoteAccessesAreServed :=
  ⟨remoteRequestsArePerformed, remoteResponsesReachTheSource⟩

end Sys2Proof.Machine
end

section
/-!
Cut plans: a table of plans whose slots do not rise, which the statement of routed transit allows (12 R353, R356).
-/

namespace Sys2Proof.Machine

/-- A plan without gangs for the one node 1, on the node given. -/
def lonePlan (node : Byte) : Bytes := zeros 8 ++ [node, 0, 1, 0, 0, 0, 0]

/-- Two plans held, slot 5 before slot 3: the first, in slot 5, gives this module node 1, the second node 2 and waits. -/
def crossedPlans : Tbl PlanSt := [(5, { bytes := lonePlan 1, st := 1 }), (3, { bytes := lonePlan 2, st := 1, waiting := true })]

/-- The module after reset with those plans. -/
def crossedState : State := { State.reset with fabric := { plans := crossedPlans } }

theorem lonePlan_shares (node : Byte) (g : Nat) : planShare (lonePlan node) g = 0 := rfl

theorem lonePlan_hasNode (node : Byte) {n : Nat} (small : n < 4096) : planHasNode (lonePlan node) n = decide (n = 1) := by
  have whole : n &&& 4095 = n := by rw [Nat.and_two_pow_sub_one_eq_mod n 12, Nat.mod_eq_of_lt small]
  have mask : 0xFFF - leAt (lonePlan node) 12 2 % 4096 = 4095 := rfl
  have base : leAt (lonePlan node) 10 2 % 4096 = 1 := rfl
  rw [planHasNode, mask, base, whole]
  rfl

/-- A plan without gangs is routable where its one node is this module's. -/
theorem planRoutable_lonePlan {s : State} (node : Byte) : s.planRoutable (lonePlan node) = decide (s.nodeId = 1) := by
  rw [Bool.eq_iff_iff, decide_eq_true_iff]
  unfold State.planRoutable
  simp only [lonePlan_shares, List.all_eq_true, List.mem_range, Bool.or_eq_true, Bool.not_eq_true', beq_iff_eq]
  constructor
  · intro all
    have one := all 1 (by decide)
    rw [lonePlan_hasNode node (by decide)] at one
    simp at one
    exact one.symm
  · intro own n small
    rw [lonePlan_hasNode node small, own]
    simp
    omega

theorem State.buildRoutes_plans (s : State) : s.buildRoutes.fabric.plans = s.fabric.plans := by
  unfold State.buildRoutes
  extract_lets t s'
  split
  · rfl
  · exact (congrArg FabricSt.plans ((State.moduleEvent_frame s' _ _ _ _).frame .fabric (by decide)) :)

theorem State.modPlan_plans (s : State) (slot : Nat) (f : PlanSt → PlanSt) :
    (s.modPlan slot f).fabric.plans = tset s.fabric.plans slot (f (s.plan slot)) := rfl

/-- The end of the wait for a plan without ports and gangs decides it. -/
theorem discoveryWaitExpiry_bare {s : State} {slot : Nat} (waits : (s.plan slot).waiting = true)
    (ports : planPorts (s.plan slot).bytes = []) (gangs : planGangs (s.plan slot).bytes = []) :
    exec (.discoveryWaitExpiry slot) s = .next (s.decidePlan slot) := by
  refine congrArg Host.Outcome.next ?_
  simp [waits, ports, gangs, forL]

theorem lonePlan_gangs (node : Byte) : planGangs (lonePlan node) = [] := rfl

theorem lonePlan_ports (node : Byte) : planPorts (lonePlan node) = [] := by
  simp [planPorts, lonePlan_gangs]

/-- The entry that makes slot 3's plan active. -/
def PlanSt.admitted (x : PlanSt) : PlanSt := { x with st := 2, waiting := false, refusal := 0, missing := [] }

theorem State.decidePlan_routable {s : State} {slot : Nat} (routable : s.buildRoutes.planRoutable (s.plan slot).bytes = true) :
    s.decidePlan slot = s.buildRoutes.modPlan slot PlanSt.admitted := by
  unfold State.decidePlan
  exact if_pos routable

/-- The wait's end makes slot 3's plan active: slot 5's plan gives node 1. -/
theorem crossed_admitted : exec (.discoveryWaitExpiry 3) crossedState =
    .next (crossedState.buildRoutes.modPlan 3 PlanSt.admitted) := by
  have node : crossedState.buildRoutes.nodeId = 1 := State.nodeId_of_plans (State.buildRoutes_plans crossedState)
  have routable : crossedState.buildRoutes.planRoutable (crossedState.plan 3).bytes = true := by
    rw [show (crossedState.plan 3).bytes = lonePlan 2 from rfl, planRoutable_lonePlan, node]
    rfl
  rw [discoveryWaitExpiry_bare (s := crossedState) (slot := 3) rfl (lonePlan_ports 2) (lonePlan_gangs 2),
    State.decidePlan_routable routable]

/-- Slot 3's plan then stands before slot 5's, and gives node 2. -/
theorem crossed_plans : (crossedState.buildRoutes.modPlan 3 PlanSt.admitted).fabric.plans =
    (3, { bytes := lonePlan 2, st := 2 }) :: crossedPlans := by
  rw [State.modPlan_plans, State.plan, State.buildRoutes_plans]
  rfl

/-- Refutes O19: the wait's end finds slot 3's plan routable on the node that slot 5's plan gives; made active, the plan of
slot 3 enters the table, whose slots do not rise, before slot 5's, and on its own node it is not routable. -/
theorem not_plansRouteTransit : ¬ Obligations.PlansRouteTransit := by
  rintro ⟨plans, -, -⟩
  obtain ⟨-, -, -, -, decides, -⟩ := plans crossedState 3 []
  obtain ⟨u, run, -, -, outcome⟩ := decides rfl rfl
  obtain rfl : crossedState.buildRoutes.modPlan 3 PlanSt.admitted = u :=
    Host.Outcome.next.inj (crossed_admitted.symm.trans run)
  rcases outcome with ⟨-, routable⟩ | ⟨refused, -⟩
  · have node : (crossedState.buildRoutes.modPlan 3 PlanSt.admitted).nodeId = 2 := by
      unfold State.nodeId
      rw [crossed_plans]
      rfl
    have unroutable : (crossedState.buildRoutes.modPlan 3 PlanSt.admitted).planRoutable (lonePlan 2) = false := by
      rw [planRoutable_lonePlan, node]
      rfl
    exact Bool.false_ne_true (unroutable.symm.trans routable)
  · have active : ((crossedState.buildRoutes.modPlan 3 PlanSt.admitted).plan 3).st = 2 := by
      unfold State.plan
      rw [crossed_plans]
      rfl
    exact absurd (active.symm.trans refused) (by decide)

end Sys2Proof.Machine
end

section
/-!
What a unit's write at virtual addresses leaves in memory: it depends on memory and on what translation looks at alone
(07 R201, 14 R420).
-/

namespace Sys2Proof.Machine

/-- Two states in which every address of this module translates alike. -/
structure Alike (s t : State) : Prop where
  berths : t.berths = s.berths
  plans : t.fabric.plans = s.fabric.plans
  hbm : t.hbm = s.hbm
  segs : t.segs = s.segs
  dict : t.dict = s.dict

theorem Alike.refl (s : State) : Alike s s := ⟨rfl, rfl, rfl, rfl, rfl⟩

theorem Alike.trans {s t u : State} (h : Alike s t) (k : Alike t u) : Alike s u :=
  ⟨k.berths.trans h.berths, k.plans.trans h.plans, k.hbm.trans h.hbm, k.segs.trans h.segs, k.dict.trans h.dict⟩

theorem Alike.symm {s t : State} (h : Alike s t) : Alike t s :=
  ⟨h.berths.symm, h.plans.symm, h.hbm.symm, h.segs.symm, h.dict.symm⟩

/-- The place in this module of a translated address. -/
def Place.home : Except Nat Place → Option Nat
  | .ok (.here pa) => some pa
  | _ => none

section
variable {s t : State} (alike : Alike s t)
include alike

theorem Alike.berth (b : Nat) : t.berth b = s.berth b := State.berth_congr alike.berths b

theorem Alike.granted (b pa : Nat) (write : Bool) : t.granted b pa write = s.granted b pa write := by
  have seg (k : Nat) : t.seg k = s.seg k := by rw [State.seg, alike.segs, State.seg]
  have area (k : Nat) : t.snapArea k = s.snapArea k := by
    unfold State.snapArea State.setting
    rw [alike.dict]
  have segOf : t.segOf pa = s.segOf pa := by
    unfold State.segOf
    simp only [seg]
  have carved : t.carved pa = s.carved pa := by
    unfold State.carved State.berthCarved
    simp only [segOf, alike.berth, area]
  unfold State.granted
  simp only [alike.berth, segOf, seg, carved]

theorem Alike.checkPhys (b gpa : Nat) (write : Bool) :
    Place.home (t.checkPhys b gpa write) = Place.home (s.checkPhys b gpa write) := by
  have stack (d : Nat) : t.stack d = s.stack d := by rw [State.stack, alike.hbm, State.stack]
  have away (u : State) : Place.home (match u.activePlan (u.berth b).job with
      | none => .error 0x0501
      | some plan =>
        if (u.berth b).extent = 1 ∧ (leAt plan 16 4).testBit b ∧ planHasNode plan (gpa / 2 ^ 52) ∧
            (u.exitFor (u.berth b).job (gpa / 2 ^ 52) none 24).isSome then .ok (.remote (gpa / 2 ^ 52) (gpa % 2 ^ 48))
        else .error 0x0501) = none := by
    split
    · rfl
    · split <;> rfl
  unfold State.checkPhys
  simp only [State.nodeId_of_plans alike.plans, alike.granted, stack]
  split
  · rfl
  · split
    · exact (away t).trans (away s).symm
    · rfl

theorem Alike.localAddr (b va : Nat) (write : Bool) : t.localAddr b va write = s.localAddr b va write := by
  have home (u : State) : u.localAddr b va write = Place.home (u.checkVirt b (u.berth b).maps va write) := rfl
  rw [home, home, alike.berth]
  unfold State.checkVirt
  split
  · rfl
  · exact alike.checkPhys ..

theorem Alike.localRange (b va n : Nat) (write : Bool) : t.localRange b va n write = s.localRange b va n write := by
  unfold State.localRange
  simp only [alike.localAddr]

end

/-! Frames that leave for other modules leave the plans alone. -/

theorem State.routeFrame_plans {s u : State} {f : Bytes} {g : Option Nat} (sent : s.routeFrame f g = some u) :
    u.fabric.plans = s.fabric.plans := by
  unfold State.routeFrame at sent
  extract_lets h at sent
  split at sent
  · cases sent
  · split at sent
    · cases sent
    · cases sent
      exact State.sendOnPort_keeps_of (·.fabric.plans) (fun _ _ _ => rfl) (fun _ _ => rfl) ..

theorem State.ghostDrop_plans (s : State) : s.ghostDrop.fabric.plans = s.fabric.plans :=
  (congrArg FabricSt.plans ((State.moduleEvent_frame (s.modFabric fun x => { x with ghost := x.ghost + 1 }) _ _ _ _).frame .fabric
    (by decide)) :)

theorem State.sendNumbered_plans (s : State) (r : ReqSt) (kind tc job die pa op : Nat) (p : Bytes) :
    (s.sendNumbered r kind tc job die pa op p).fabric.plans = s.fabric.plans := by
  unfold State.sendNumbered
  extract_lets key seq tag f t
  have noted : t.fabric.plans = s.fabric.plans := rfl
  split
  · exact State.ghostDrop_plans t
  · cases sent : t.routeFrame f none with
    | none => exact noted
    | some u => exact (State.routeFrame_plans (u := u) sent).trans noted

theorem State.sendRequest_plans (s : State) (r : ReqSt) (kind job pa op : Nat) (p : Bytes) :
    (s.sendRequest r kind job pa op p).fabric.plans = s.fabric.plans :=
  State.sendNumbered_plans s r kind _ job _ pa op p

theorem State.remoteStore_plans (s : State) (r : ReqSt) (pa : Nat) (bs : Bytes) :
    (s.remoteStore r pa bs).fabric.plans = s.fabric.plans := by
  unfold State.remoteStore
  exact forL_keeps (fun u : State => u.fabric.plans) _ _ _ fun _ _ => State.sendRequest_plans ..

theorem State.controlWrite_plans (s : State) (b die off : Nat) (bs : Bytes) :
    (s.controlWrite b die off bs).fabric.plans = s.fabric.plans := by
  unfold State.controlWrite
  by_cases mailbox : mailboxOff ≤ off ∧ off < mailboxOff + 0x4000
  · rw [if_pos mailbox]
    generalize off - mailboxOff = o
    dsimp only
    split
    · rfl
    · exact forL_keeps (fun u : State => u.fabric.plans) _ _ _ fun _ _ =>
        (congrArg FabricSt.plans ((State.mbKernelWrite_frame _ _ _ _).frame .fabric (by decide)) :)
  · rw [if_neg mailbox]
    by_cases posts : off = postOff ∧ bs.length = 8
    · rw [if_pos posts]
      rfl
    · rw [if_neg posts]

/-! Writes of a unit. -/

/-- One piece of a unit's write. -/
def State.unitPiece (b va : Nat) (bs : Bytes) (marked : Bool) (p : Nat × Nat) (t : State) : State :=
  let piece := (bs.drop p.1).take p.2
  match t.checkVirt b (t.berth b).maps (va + p.1) true with
  | .ok (.here pa) =>
    match regionOf pa with
    | .control d off => t.controlWrite b d off piece
    | _ => t.homeStore pa piece marked
  | .ok (.remote node pa) => t.remoteStore (t.engineReq b node) pa piece
  | .error _ => t

theorem State.unitWrite_eq (s : State) (b va : Nat) (bs : Bytes) (marked : Bool) :
    s.unitWrite b va bs marked = forL (lineCuts va bs.length) s (State.unitPiece b va bs marked) := rfl

/-- What a piece leaves at its home. -/
def putPiece (m : Store) (pa : Nat) (piece : Bytes) (marked : Bool) : Store :=
  match regionOf pa with
  | .control _ _ => m
  | _ => m.write pa piece marked

theorem State.unitPiece_mem (b va : Nat) (bs : Bytes) (marked : Bool) (p : Nat × Nat) (t : State) :
    (State.unitPiece b va bs marked p t).mem =
      (t.localAddr b (va + p.1) true).elim t.mem fun pa => putPiece t.mem pa ((bs.drop p.1).take p.2) marked := by
  unfold State.unitPiece State.localAddr
  extract_lets piece
  cases t.checkVirt b (t.berth b).maps (va + p.1) true with
  | error e => rfl
  | ok place =>
    cases place with
    | remote node pa => exact (State.remoteStore_frame _ _ _ _).frame .mem (by decide)
    | here pa =>
      simp only [Option.elim_some]
      unfold putPiece
      split
      · exact (State.controlWrite_frame _ _ _ _ _).frame .mem (by decide)
      · exact State.homeStore_mem ..

theorem State.unitPiece_plans (b va : Nat) (bs : Bytes) (marked : Bool) (p : Nat × Nat) (t : State) :
    (State.unitPiece b va bs marked p t).fabric.plans = t.fabric.plans := by
  unfold State.unitPiece
  extract_lets piece
  split
  · split
    · exact State.controlWrite_plans ..
    · exact (congrArg FabricSt.plans ((State.homeStore_frame _ _ _ _).frame .fabric (by decide)) :)
  · exact State.remoteStore_plans ..
  · rfl

theorem State.unitPiece_frame (b va : Nat) (bs : Bytes) (marked : Bool) (p : Nat × Nat) (t : State) :
    Change [.out, .mem, .chans, .host, .mbox, .fabric] t (State.unitPiece b va bs marked p t) := by
  unfold State.unitPiece
  extract_lets piece
  split
  · split
    · exact Change.refl.tr (State.controlWrite_frame _ _ _ _ _) (by decide)
    · exact Change.refl.tr (State.homeStore_frame _ _ _ _) (by decide)
  · exact Change.refl.tr (State.remoteStore_frame _ _ _ _) (by decide)
  · exact Change.refl

/-- After a piece of a unit's write addresses translate as before. -/
theorem Alike.unitPiece (b va : Nat) (bs : Bytes) (marked : Bool) (p : Nat × Nat) (t : State) :
    Alike t (State.unitPiece b va bs marked p t) :=
  have frame := (State.unitPiece_frame b va bs marked p t).frame
  ⟨frame .berths (by decide), State.unitPiece_plans .., frame .hbm (by decide), frame .segs (by decide), frame .dict (by decide)⟩

/-- Where addresses translate alike and memory is the same, a unit's write leaves them alike, with the same memory. -/
theorem Alike.unitWrite {s t : State} (alike : Alike s t) (mem : t.mem = s.mem) (b va : Nat) (bs : Bytes) (marked : Bool) :
    Alike (s.unitWrite b va bs marked) (t.unitWrite b va bs marked) ∧
      (t.unitWrite b va bs marked).mem = (s.unitWrite b va bs marked).mem := by
  rw [State.unitWrite_eq, State.unitWrite_eq]
  unfold forL
  induction lineCuts va bs.length generalizing s t with
  | nil => exact ⟨alike, mem⟩
  | cons p r ih =>
    refine ih ((Alike.unitPiece b va bs marked p s).symm.trans (alike.trans (Alike.unitPiece b va bs marked p t))) ?_
    rw [State.unitPiece_mem, State.unitPiece_mem, alike.localAddr, mem]

end Sys2Proof.Machine
end

section
/-!
Frames of streams that land or are dropped, sluice messages, restarts and timers of a stream (13 R386-R397).
-/

namespace Sys2Proof.Machine

/-! Reading a stream back. -/

@[simp] theorem State.strm_modStrm (s : State) (b st : Nat) (f : StreamSt → StreamSt) :
    (s.modStrm b st f).strm b st = f (s.strm b st) := tget_tset_self ..

theorem State.strm_of_streams {s t : State} (same : t.streams = s.streams) (b st : Nat) : t.strm b st = s.strm b st := by
  rw [State.strm, same, State.strm]

@[simp] theorem State.berthEvent_strm (s : State) (b code x y : Nat) (p : Bytes) (c st : Nat) :
    (s.berthEvent b code x y p).strm c st = s.strm c st :=
  State.strm_of_streams ((State.berthEvent_frame _ _ _ _ _ _).frame .streams (by decide)) c st

@[simp] theorem State.unitWrite_strm (s : State) (b va : Nat) (bs : Bytes) (m : Bool) (c st : Nat) :
    (s.unitWrite b va bs m).strm c st = s.strm c st :=
  State.strm_of_streams ((State.unitWrite_frame _ _ _ _ _).frame .streams (by decide)) c st

/-! What a settled stream keeps. -/

/-- What a stream keeps of the frames that came in: its highest sequence, its port and its counts. -/
def StreamSt.received (x : StreamSt) : Nat × Option Nat × Nat × Nat × Nat := (x.high, x.port, x.dropCrc, x.dropOther, x.breach)

section
variable {α : Type} (g : StreamSt → α) (b st : Nat)

theorem State.modStrm_keeps (s : State) {f : StreamSt → StreamSt} (same : ∀ x, g (f x) = g x) :
    g ((s.modStrm b st f).strm b st) = g (s.strm b st) := by
  rw [State.strm_modStrm, same]

/-- A sluice message changes its numbers alone. -/
theorem State.sluice_keeps (blind : ∀ x m r, g { x with msgSeq := m, resends := r } = g x) (s : State) (cmd arg arg2 : Nat) :
    g ((s.sluice b st cmd arg arg2).strm b st) = g (s.strm b st) := by
  unfold State.sluice
  extract_lets x
  split
  · rfl
  · split
    · rfl
    · exact State.modStrm_keeps g b st s fun x => blind x ..

end

section
variable (b st : Nat)

theorem State.sluice_received (s : State) (cmd arg arg2 : Nat) :
    ((s.sluice b st cmd arg arg2).strm b st).received = (s.strm b st).received :=
  State.sluice_keeps StreamSt.received b st (fun _ _ _ => rfl) s cmd arg arg2

theorem State.recordBad_received (s : State) (r n : Nat) : ((s.recordBad b st r n).strm b st).received = (s.strm b st).received := by
  unfold State.recordBad
  extract_lets x t
  have dropped : (t.strm b st).received = (s.strm b st).received :=
    State.modStrm_keeps StreamSt.received b st s fun _ => rfl
  split
  · exact (State.sluice_received ..).trans dropped
  · rw [State.berthEvent_strm]
    exact (State.modStrm_keeps StreamSt.received b st t fun _ => by rfl).trans dropped

theorem State.checkRecord_received (s : State) : ((s.checkRecord b st).strm b st).received = (s.strm b st).received := by
  unfold State.checkRecord
  extract_lets x
  split
  · rfl
  · extract_lets r len n
    split
    · rfl
    · split
      · rfl
      · split
        · rw [State.berthEvent_strm]
          exact State.modStrm_keeps StreamSt.received b st s fun _ => rfl
        · split
          · exact State.modStrm_keeps StreamSt.received b st s fun _ => rfl
          · exact State.recordBad_received ..

theorem State.dropStale_received (s : State) : ((s.dropStale b st).strm b st).received = (s.strm b st).received := by
  unfold State.dropStale
  extract_lets x tally
  split
  · split
    · exact State.modStrm_keeps StreamSt.received b st s fun _ => rfl
    · rfl
  · split
    · exact State.modStrm_keeps StreamSt.received b st s fun _ => rfl
    · rfl
  · rfl

theorem State.sluiceCheck_received (s : State) : ((s.sluiceCheck b st).strm b st).received = (s.strm b st).received := by
  unfold State.sluiceCheck
  extract_lets x c
  split
  · rfl
  · split
    · exact (State.sluice_received ..).trans (State.modStrm_keeps StreamSt.received b st s fun _ => rfl)
    · split
      · exact (State.sluice_received ..).trans (State.modStrm_keeps StreamSt.received b st s fun _ => rfl)
      · rfl

/-- Bringing a stream up to date changes nothing of what came in. -/
theorem State.settleStrm_received (s : State) : ((s.settleStrm b st).strm b st).received = (s.strm b st).received := by
  unfold State.settleStrm
  extract_lets x
  exact (State.sluiceCheck_received ..).trans (forN_keeps (fun t : State => (t.strm b st).received) _ _ _ fun _ t =>
    (State.dropStale_received ..).trans (State.checkRecord_received b st t))

end

/-! Frames. -/

section
variable {s : State} {port : Nat} {src : Bytes} {srcPort dstPort : Nat} {udpOk : Bool} {f : Bytes} {b st : Nat}

/-- The state with the port noted that a stream's latest frame came by. -/
def State.notePort (s : State) (b st port : Nat) : State := s.modStrm b st fun y => { y with port := some port }

theorem State.notePort_frameFate (s : State) (b st port : Nat) (udpOk : Bool) (f : Bytes) :
    (s.notePort b st port).frameFate b st udpOk f = s.frameFate b st udpOk f := by
  have cfg : (s.notePort b st port).strmCfg b st = s.strmCfg b st := rfl
  unfold State.frameFate
  rw [State.notePort, State.strm_modStrm, ← State.notePort, cfg]

/-- What a frame's fate makes of a stream (R393). -/
def State.meetFate (s : State) (b st : Nat) (f : Bytes) : FrameFate → State
  | .land => s.landFrame b st f
  | k => s.dropFrame b st k

/-- A payload that belongs to a stream is judged by that stream. -/
theorem streamFrameArrival_next (belongs : FrameOf s port src srcPort dstPort b st) :
    exec (.streamFrameArrival port src srcPort dstPort udpOk f) s = .next
      ((s.notePort b st port).meetFate b st f (s.frameFate b st udpOk f)) := by
  obtain ⟨up, hst, hb, rfl, enabled, onPort, addr, number⟩ := belongs
  have base : s.udpBase + 16 * b + st - s.udpBase = 16 * b + st := by omega
  have berth : (16 * b + st) / 16 = b := by omega
  have stream : (16 * b + st) % 16 = st := by omega
  refine congrArg Host.Outcome.next ?_
  simp only [base, berth, stream, up]
  rw [if_neg (by simp), if_pos ⟨by omega, by omega, enabled, onPort, addr, number⟩]
  have fate := State.notePort_frameFate s b st port udpOk f
  unfold State.notePort at fate ⊢
  rw [fate]
  cases s.frameFate b st udpOk f <;> rfl

/-- The state with a frame's payload, header and the controller's bytes in the slot of its sequence. -/
def State.placeFrame (s : State) (b st : Nat) (f : Bytes) : State :=
  (s.unitWrite b ((s.strmCfg b st).va + 8192 * (beAt f 16 8 % (s.strmCfg b st).slots)) (f.drop 48)).unitWrite b
    ((s.strmCfg b st).va + 8192 * (s.strmCfg b st).slots + 64 * (beAt f 16 8 % (s.strmCfg b st).slots))
    (f.take 48 ++ leBytes 16 (Config.freeBits 128 (s.unitWrite b
      ((s.strmCfg b st).va + 8192 * (beAt f 16 8 % (s.strmCfg b st).slots)) (f.drop 48)).free).toNat)

/-- A stream that a frame has landed in. -/
def StreamSt.landing (q : Nat) (head : Bytes) (y : StreamSt) : StreamSt :=
  { y with landed := tset y.landed q head, high := max y.high (q + 1), st := if y.st = 1 then 2 else y.st,
           gaps := tdel y.gaps q }.renext

/-- A landed frame opens an ACK period, or falls into the one that runs. -/
def State.ackFrame (s : State) (b st : Nat) : State :=
  if (s.strm b st).ackOpen then s.modStrm b st fun y => { y with ackDue := true }
  else (s.sluice b st 1 0 0).modStrm b st fun y => { y with ackOpen := y.enable = 1 }

theorem State.landFrame_eq (s : State) (b st : Nat) (f : Bytes) : s.landFrame b st f =
    (((s.placeFrame b st f).nextFree.modStrm b st (StreamSt.landing (beAt f 16 8) (f.take 48))).settleStrm b st).ackFrame b st :=
  rfl

theorem State.ackFrame_received (s : State) (b st : Nat) : ((s.ackFrame b st).strm b st).received = (s.strm b st).received := by
  unfold State.ackFrame
  split
  · exact State.modStrm_keeps StreamSt.received b st s fun _ => rfl
  · exact (State.modStrm_keeps StreamSt.received b st _ fun _ => by rfl).trans (State.sluice_received ..)

theorem State.ackFrame_mem (s : State) (b st : Nat) : (s.ackFrame b st).mem = s.mem := by
  unfold State.ackFrame
  split
  · rfl
  · exact (State.sluice_frame _ _ _ _ _ _).frame .mem (by decide)

theorem State.placeFrame_strm (s : State) (b st : Nat) (f : Bytes) : (s.placeFrame b st f).strm b st = s.strm b st :=
  (State.unitWrite_strm ..).trans (State.unitWrite_strm ..)

theorem StreamSt.landing_received (q : Nat) (head : Bytes) (y : StreamSt) :
    (y.landing q head).received = (max y.high (q + 1), y.port, y.dropCrc, y.dropOther, y.breach) := rfl

/-- Landing raises the highest sequence and leaves the counts. -/
theorem State.landFrame_received (s : State) (b st : Nat) (f : Bytes) : ((s.landFrame b st f).strm b st).received =
    (max (s.strm b st).high (beAt f 16 8 + 1), (s.strm b st).port, (s.strm b st).dropCrc, (s.strm b st).dropOther,
      (s.strm b st).breach) := by
  have taken : (s.placeFrame b st f).nextFree.strm b st = s.strm b st := State.placeFrame_strm ..
  rw [State.landFrame_eq, State.ackFrame_received, State.settleStrm_received, State.strm_modStrm, taken,
    StreamSt.landing_received]

theorem State.landFrame_mem (s : State) (b st : Nat) (f : Bytes) : (s.landFrame b st f).mem = (s.placeFrame b st f).mem := by
  rw [State.landFrame_eq, State.ackFrame_mem]
  exact (State.settleStrm_frame _ _ _).frame .mem (by decide)

/-- The port of the latest frame plays no part in where a frame's bytes go. -/
theorem State.notePort_placeFrame (s : State) (b st port : Nat) (f : Bytes) :
    ∃ own : Bytes, own.length = 16 ∧ ((s.notePort b st port).placeFrame b st f).mem =
      ((s.unitWrite b ((s.strmCfg b st).va + 8192 * (beAt f 16 8 % (s.strmCfg b st).slots)) (f.drop 48)).unitWrite b
        ((s.strmCfg b st).va + 8192 * (s.strmCfg b st).slots + 64 * (beAt f 16 8 % (s.strmCfg b st).slots))
        (f.take 48 ++ own)).mem := by
  have alike : Alike s (s.notePort b st port) := ⟨rfl, rfl, rfl, rfl, rfl⟩
  obtain ⟨next, same⟩ := alike.unitWrite rfl b
    ((s.strmCfg b st).va + 8192 * (beAt f 16 8 % (s.strmCfg b st).slots)) (f.drop 48) false
  exact ⟨_, by simp [leBytes], (next.unitWrite same ..).2⟩

/-! Frames that are dropped. -/

theorem State.dropFrame_crc (s : State) (b st : Nat) :
    s.dropFrame b st .crc = s.modStrm b st fun y => { y with dropCrc := y.dropCrc + 1 } := rfl

theorem State.dropFrame_other (s : State) (b st : Nat) :
    s.dropFrame b st .other = s.modStrm b st fun y => { y with dropOther := y.dropOther + 1 } := rfl

theorem State.dropFrame_mem (s : State) (b st : Nat) (k : FrameFate) : (s.dropFrame b st k).mem = s.mem :=
  (State.dropFrame_frame _ _ _ _).frame .mem (by decide)

/-- A breach is counted, and reported once. -/
theorem State.dropFrame_breach (s : State) (b st : Nat) :
    (s.dropFrame b st .breach).strm b st = { s.strm b st with breach := (s.strm b st).breach + 1, breachSaid := true } ∧
    ((s.strm b st).enable = 1 → (s.strm b st).breachSaid = false → Raises s (s.dropFrame b st .breach) 0x0681 [b, st, 0]) := by
  let t := s.modStrm b st fun y => { y with breach := y.breach + 1, breachSaid := true }
  have counted : t.strm b st = { s.strm b st with breach := (s.strm b st).breach + 1, breachSaid := true } :=
    State.strm_modStrm ..
  have step : s.dropFrame b st .breach =
      if (s.strm b st).enable = 1 ∧ !(s.strm b st).breachSaid then t.berthEvent b 0x0681 st 0 else t := rfl
  refine ⟨?_, fun enabled new => ?_⟩
  · rw [step]
    split
    · rw [State.berthEvent_strm, counted]
    · exact counted
  · rw [step, if_pos ⟨enabled, by simp [new]⟩]
    exact (State.raises_berthEvent t b 0x0681 st 0 []).of_out_eq rfl

theorem streamFramesLand : StreamFramesLand := by
  refine fun s port src srcPort dstPort udpOk f b st => ⟨fun belongs =>
      ⟨fun fate => ?land, fun fate => ?crc, fun fate => ?other, fun fate => ?breach⟩, fun up outside => ?unmatched, fun up => ?link⟩
  case land =>
    obtain ⟨own, long, mem⟩ := State.notePort_placeFrame s b st port f
    have kept := State.landFrame_received (s.notePort b st port) b st f
    have run : exec (.streamFrameArrival port src srcPort dstPort udpOk f) s = .next ((s.notePort b st port).landFrame b st f) :=
      (streamFrameArrival_next belongs).trans (by rw [fate]; rfl)
    simp only [StreamSt.received, State.notePort, State.strm_modStrm, Prod.mk.injEq] at kept
    obtain ⟨high, port', crc, other, breach⟩ := kept
    exact ⟨_, own, run, long, high, port', crc, other, breach, (State.landFrame_mem ..).trans mem⟩
  case crc =>
    have run : exec (.streamFrameArrival port src srcPort dstPort udpOk f) s = .next ((s.notePort b st port).dropFrame b st .crc) :=
      (streamFrameArrival_next belongs).trans (by rw [fate]; rfl)
    refine ⟨_, run, rfl, ?_⟩
    rw [State.dropFrame_crc, State.strm_modStrm, State.notePort, State.strm_modStrm]
  case other =>
    have run : exec (.streamFrameArrival port src srcPort dstPort udpOk f) s = .next ((s.notePort b st port).dropFrame b st .other) :=
      (streamFrameArrival_next belongs).trans (by rw [fate]; rfl)
    refine ⟨_, run, rfl, ?_⟩
    rw [State.dropFrame_other, State.strm_modStrm, State.notePort, State.strm_modStrm]
  case breach =>
    have run : exec (.streamFrameArrival port src srcPort dstPort udpOk f) s = .next ((s.notePort b st port).dropFrame b st .breach) :=
      (streamFrameArrival_next belongs).trans (by rw [fate]; rfl)
    obtain ⟨counted, told⟩ := State.dropFrame_breach (s.notePort b st port) b st
    rw [State.notePort, State.strm_modStrm] at counted told
    refine ⟨_, run, (State.dropFrame_mem ..).trans rfl, counted, fun new => (told ?_ new).of_out_eq rfl⟩
    obtain ⟨-, -, -, -, enabled, -⟩ := belongs
    exact enabled
  case unmatched =>
    have stray : ¬(s.udpBase ≤ dstPort ∧ dstPort - s.udpBase < 384 ∧
        (s.strm ((dstPort - s.udpBase) / 16) ((dstPort - s.udpBase) % 16)).enable = 1 ∧
        (s.strmCfg ((dstPort - s.udpBase) / 16) ((dstPort - s.udpBase) % 16)).ports.testBit port ∧
        (s.strmCfg ((dstPort - s.udpBase) / 16) ((dstPort - s.udpBase) % 16)).srcAddr = src ∧
        (s.strmCfg ((dstPort - s.udpBase) / 16) ((dstPort - s.udpBase) % 16)).srcPort = srcPort) := by
      rintro ⟨low, high, -⟩
      omega
    exact ⟨_, congrArg Host.Outcome.next ((if_neg (by simp [up])).trans (if_neg stray)),
      congrArg BasinSt.unmatched (tget_tset_self s.basins {} port _), rfl, rfl⟩
  case link =>
    have kept : tget (tset s.basins port { s.basin port with up := up }) {} port = { s.basin port with up := up } :=
      tget_tset_self ..
    exact ⟨_, rfl, congrArg BasinSt.up kept, (congrArg BasinSt.unmatched kept :), fun p other => tget_tset_other s.basins {} _ other⟩

end

/-! Sluice messages. -/

theorem sluiceBytes_length (c : StrmCfg) (x : StreamSt) (b st cmd arg arg2 : Nat) :
    (sluiceBytes c x b st cmd arg arg2).length = 48 := by
  simp [sluiceBytes, beBytes, leBytes]

/-- A stream with the numbers of a sluice message that it sent. -/
def StreamSt.sluiced (cmd : Nat) (y : StreamSt) : StreamSt :=
  { y with msgSeq := (y.msgSeq + 1) % 2 ^ 32, resends := if cmd = 4 then y.resends + 1 else y.resends }

section
variable {s : State} {b st p : Nat}

/-- A network stream with a port sends its sluice message. -/
theorem State.sluice_sends (enabled : (s.strm b st).enable = 1) (port : s.strmPort b st = some p) (cmd arg arg2 : Nat) :
    s.sluice b st cmd arg arg2 = (s.modStrm b st (StreamSt.sluiced cmd)).emit
      { kind := .stream, port := p, args := [cmd, b, st], data := sluiceBytes (s.strmCfg b st) (s.strm b st) b st cmd arg arg2 } := by
  unfold State.sluice
  simp only [enabled, port]
  rfl

theorem State.sluice_sends_strm (enabled : (s.strm b st).enable = 1) (port : s.strmPort b st = some p) (cmd arg arg2 : Nat) :
    (s.sluice b st cmd arg arg2).strm b st = (s.strm b st).sluiced cmd := by
  rw [State.sluice_sends enabled port]
  exact State.strm_modStrm ..

theorem State.sluices_sluice (enabled : (s.strm b st).enable = 1) (port : s.strmPort b st = some p) (cmd arg arg2 : Nat) :
    Sluices s (s.sluice b st cmd arg arg2) b st cmd := by
  rw [State.sluice_sends enabled port]
  exact ⟨_, rfl, _, List.mem_singleton_self _, rfl, rfl, sluiceBytes_length ..⟩

/-- What was sent before counts alone. -/
theorem Sluices.after {t u : State} {cmd : Nat} (grows : s.out <+: t.out) (sent : Sluices t u b st cmd) : Sluices s u b st cmd := by
  obtain ⟨l, out⟩ := grows
  obtain ⟨m, out', o, mem, message⟩ := sent
  exact ⟨l ++ m, by rw [out', ← out, List.append_assoc], o, List.mem_append_right _ mem, message⟩

/-- What was sent stays sent. -/
theorem Sluices.grow {t u : State} {cmd : Nat} (sent : Sluices s t b st cmd) (grows : t.out <+: u.out) : Sluices s u b st cmd := by
  obtain ⟨l, out⟩ := grows
  obtain ⟨m, out', o, mem, message⟩ := sent
  exact ⟨m ++ l, by rw [← out, out', List.append_assoc], o, List.mem_append_left _ mem, message⟩

theorem State.sluice_grows (s : State) (b st cmd arg arg2 : Nat) : s.out <+: (s.sluice b st cmd arg arg2).out :=
  (State.sluice_frame _ _ _ _ _ _ .out).2

/-- The port of a stream's messages follows from its settings, its ports and its latest frame's. -/
theorem State.strmPort_congr {t : State} (dict : t.dict = s.dict) (basins : t.basins = s.basins)
    (same : (t.strm b st).port = (s.strm b st).port) : t.strmPort b st = s.strmPort b st := by
  have cfg : t.strmCfg b st = s.strmCfg b st := by
    unfold State.strmCfg State.setting State.blob
    rw [dict]
  have basin : ∀ q, t.basin q = s.basin q := fun q => by rw [State.basin, basins, State.basin]
  unfold State.strmPort
  simp only [cfg, basin, same]

/-- A sluice message and a change of its timers leave a stream able to send the next one. -/
theorem State.sluiced_sends {f : StreamSt → StreamSt} (enabled : (s.strm b st).enable = 1) (port : s.strmPort b st = some p)
    (timers : ∀ y, (f y).enable = y.enable ∧ (f y).port = y.port) (cmd arg arg2 : Nat) :
    (((s.sluice b st cmd arg arg2).modStrm b st f).strm b st).enable = 1 ∧
      ((s.sluice b st cmd arg arg2).modStrm b st f).strmPort b st = some p := by
  have strm := State.sluice_sends_strm enabled port cmd arg arg2
  refine ⟨?_, (State.strmPort_congr ?_ ?_ ?_).trans port⟩
  · rw [State.strm_modStrm, (timers _).1, strm]
    exact enabled
  · exact (State.sluice_frame _ _ _ _ _ _).frame .dict (by decide)
  · exact (State.sluice_frame _ _ _ _ _ _).frame .basins (by decide)
  · rw [State.strm_modStrm, (timers _).2, strm]
    rfl

end

/-! Restarts. -/

/-- A stream as `v` restarts it (R389). -/
def StreamSt.restarted (v : Nat) (y : StreamSt) : StreamSt :=
  { y.flush with enable := v, st := 1, epoch := (y.epoch + 1) % 2 ^ 32, nextSeq := 0, msgSeq := 0, port := none,
                 rewindLeft := if v = 1 then 3 else 0 }

theorem State.restartStrm_eq (s : State) (b st v : Nat) : s.restartStrm b st v =
    (s.modStrm b st (StreamSt.restarted v)).sluice b st 5 (s.berth b).tally.toNat 0 := rfl

/-- What a restart leaves of a stream, but for the numbers of the message that it sends. -/
theorem State.restartStrm_keeps {α : Type} (g : StreamSt → α) (blind : ∀ x m r, g { x with msgSeq := m, resends := r } = g x)
    (s : State) (b st v : Nat) : g ((s.restartStrm b st v).strm b st) = g ((s.strm b st).restarted v) := by
  rw [State.restartStrm_eq, State.sluice_keeps g b st blind, State.strm_modStrm]

theorem State.restartStrm_mem (s : State) (b st v : Nat) : (s.restartStrm b st v).mem = s.mem :=
  (State.restartStrm_frame _ _ _ _).frame .mem (by decide)

section
variable {s : State} {b st v : Nat}

theorem writeEnable_restarts (on : v ≠ 0) (accepted : s.enableCode b st v = 0) :
    s.writeEnable b st v = (0, s.restartStrm b st v) := by
  unfold State.writeEnable
  simp only [accepted]
  exact congrArg _ ((if_neg (by simp)).trans (if_neg on))

theorem writeEnable_refused (refused : s.enableCode b st v ≠ 0) : s.writeEnable b st v = (s.enableCode b st v, s) :=
  congrArg _ (if_pos refused)

theorem writeEnable_disables (s : State) (b st : Nat) : s.writeEnable b st 0 = (0, s.disableStrm b st) := rfl

/-- A write to `ENABLE` while the dictionary answers. -/
theorem streamEnable_next (up : DictUp s) (on : v ≠ 0) : exec (.streamEnable b st v) s = .next
    ((s.writeEnable b st v).2.emit { kind := .answer, port := entryKey (strmIx b st) 1, args := [(s.writeEnable b st v).1] }) :=
  congrArg Host.Outcome.next ((if_neg on).trans (State.byDict_of_up up ..))

theorem streamDisable_next (up : DictUp s) : exec (.streamDisable b st) s = .next
    ((s.disableStrm b st).emit { kind := .answer, port := entryKey (strmIx b st) 1, args := [0] }) :=
  congrArg Host.Outcome.next (State.byDict_of_up up ..)

end

/-! Timers. -/

section
variable {s : State} {b st p : Nat}

/-- The state with a gap's slots asked for again the `k`-th time. -/
def State.askGap (s : State) (b st seq k : Nat) : State :=
  (s.sluice b st 4 seq (emptyRun (s.strm b st) seq)).modStrm b st fun y => { y with gaps := tset y.gaps seq k }

theorem gapWaitExpiry_next {seq : Nat} (enabled : (s.strm b st).enable = 1) (above : (s.strm b st).low ≤ seq)
    (empty : emptyRun (s.strm b st) seq ≠ 0)
    (first : seq = (s.strm b st).low ∨ tfind (s.strm b st).landed (seq - 1) ≠ none) (good : (s.strm b st).bad = none) :
    exec (.gapWaitExpiry b st seq) s = .next
      (if tget (s.strm b st).gaps 0 seq + 1 = 16 then
        (s.askGap b st seq (tget (s.strm b st).gaps 0 seq + 1)).berthEvent b 0x0680 st seq
      else s.askGap b st seq (tget (s.strm b st).gaps 0 seq + 1)) := by
  have opens : (decide (seq = (s.strm b st).low) || (tfind (s.strm b st).landed (seq - 1)).isSome) = true := by
    simpa [Option.isSome_iff_ne_none] using first
  refine congrArg Host.Outcome.next (if_neg ?_)
  rw [good, opens]
  simp [enabled, empty, Nat.not_lt.2 above]

theorem State.askGap_strm (enabled : (s.strm b st).enable = 1) (port : s.strmPort b st = some p) (seq k : Nat) :
    (s.askGap b st seq k).strm b st =
      { (s.strm b st).sluiced 4 with gaps := tset (s.strm b st).gaps seq k } := by
  rw [State.askGap, State.strm_modStrm, State.sluice_sends_strm enabled port]
  rfl

/-- The state with a repeat of REWIND sent where one is due. -/
def State.repeatRewind (s : State) (b st : Nat) : State :=
  if (s.strm b st).rewindLeft = 0 then s
  else (s.sluice b st 5 (s.berth b).tally.toNat 0).modStrm b st fun y => { y with rewindLeft := y.rewindLeft - 1 }

theorem sluiceRepeatTimer_next (s : State) (b st : Nat) : exec (.sluiceRepeatTimer b st) s = .next
    (if (s.strm b st).stopped ∧ freeSlots (s.strmCfg b st) (s.strm b st) ≤ (s.strmCfg b st).drift + 8 then
      (s.repeatRewind b st).sluice b st 2 0 0
    else if (s.strm b st).goLeft ≠ 0 then
      ((s.repeatRewind b st).sluice b st 3 0 0).modStrm b st fun y => { y with goLeft := y.goLeft - 1 }
    else s.repeatRewind b st) := rfl

theorem State.repeatRewind_keeps {α : Type} (g : StreamSt → α)
    (blind : ∀ x m r, g { x with msgSeq := m, resends := r } = g x) (left : ∀ x n, g { x with rewindLeft := n } = g x)
    (s : State) (b st : Nat) : g ((s.repeatRewind b st).strm b st) = g (s.strm b st) := by
  unfold State.repeatRewind
  split
  · rfl
  · exact (State.modStrm_keeps g b st _ fun x => left x _).trans (State.sluice_keeps g b st blind ..)

theorem State.repeatRewind_sends (enabled : (s.strm b st).enable = 1) (port : s.strmPort b st = some p) :
    ((s.repeatRewind b st).strm b st).enable = 1 ∧ (s.repeatRewind b st).strmPort b st = some p := by
  unfold State.repeatRewind
  split
  · exact ⟨enabled, port⟩
  · exact State.sluiced_sends (f := fun y => { y with rewindLeft := y.rewindLeft - 1 }) enabled port (fun _ => ⟨rfl, rfl⟩) 5 _ 0

theorem State.repeatRewind_grows (s : State) (b st : Nat) : s.out <+: (s.repeatRewind b st).out := by
  unfold State.repeatRewind
  split
  · exact List.prefix_rfl
  · exact State.sluice_grows ..

theorem State.repeatRewind_due (due : (s.strm b st).rewindLeft ≠ 0) (enabled : (s.strm b st).enable = 1)
    (port : s.strmPort b st = some p) :
    ((s.repeatRewind b st).strm b st).rewindLeft = (s.strm b st).rewindLeft - 1 ∧ Sluices s (s.repeatRewind b st) b st 5 := by
  rw [State.repeatRewind, if_neg due]
  refine ⟨?_, State.sluices_sluice enabled port 5 _ 0⟩
  rw [State.strm_modStrm, State.sluice_sends_strm enabled port]
  rfl

end

theorem streamsAreRunAndRepeated : StreamsAreRunAndRepeated := by
  refine fun s b st v seq p _ => ⟨fun up on accepted => ?enable, fun up on refused => ?refuse, fun up => ?disable,
    fun enabled port => ⟨fun above empty first good => ?gap, fun opened => ⟨fun due => ?acks, fun idle => ?closes⟩,
      fun due => ?rewind, fun stopped full => ?stop, fun running due => ?go⟩⟩
  case enable =>
    have run := streamEnable_next (st := st) (b := b) up on
    rw [writeEnable_restarts on accepted] at run
    have kept : ∀ {α : Type} (g : StreamSt → α), (∀ x m r, g { x with msgSeq := m, resends := r } = g x) →
        g ((s.restartStrm b st v).strm b st) = g ((s.strm b st).restarted v) :=
      fun g blind => State.restartStrm_keeps g blind s b st v
    exact ⟨_, run, kept StreamSt.enable fun _ _ _ => rfl, kept StreamSt.st fun _ _ _ => rfl, kept StreamSt.epoch fun _ _ _ => rfl,
      kept StreamSt.landed fun _ _ _ => rfl, kept StreamSt.low fun _ _ _ => rfl, kept StreamSt.nextSeq fun _ _ _ => rfl,
      answers_emit .., State.restartStrm_mem ..⟩
  case refuse =>
    have run := streamEnable_next (st := st) (b := b) up on
    rw [writeEnable_refused refused] at run
    exact ⟨_, run, answers_emit .., rfl, rfl⟩
  case disable =>
    have kept : (s.disableStrm b st).strm b st = { (s.strm b st).flush with enable := 0, st := 0 } := State.strm_modStrm ..
    exact ⟨_, streamDisable_next up, congrArg StreamSt.enable kept, congrArg StreamSt.st kept, congrArg StreamSt.landed kept,
      congrArg StreamSt.ready kept, (congrArg StreamSt.epoch kept :), answers_emit ..⟩
  case gap =>
    have run := gapWaitExpiry_next enabled above empty first good
    have strm := State.askGap_strm enabled port seq (tget (s.strm b st).gaps 0 seq + 1)
    have sent : Sluices s (s.askGap b st seq (tget (s.strm b st).gaps 0 seq + 1)) b st 4 :=
      State.sluices_sluice enabled port 4 _ _
    generalize s.askGap b st seq (tget (s.strm b st).gaps 0 seq + 1) = t at run strm sent
    have asked : tget (t.strm b st).gaps 0 seq = tget (s.strm b st).gaps 0 seq + 1 := by
      rw [strm]
      exact tget_tset_self ..
    have counted : (t.strm b st).resends = (s.strm b st).resends + 1 := by
      rw [strm]
      rfl
    have grows := (State.berthEvent_frame t b 0x0680 st seq [] .out).2
    split at run
    · refine ⟨_, run, ?_, ?_, sent.grow grows, fun _ => ?_⟩
      · rw [State.berthEvent_strm, asked]
      · rw [State.berthEvent_strm, counted]
      · obtain ⟨l, out, -⟩ := sent
        exact (State.raises_berthEvent t b 0x0680 st seq []).after ⟨l, out.symm⟩
    · next other => exact ⟨_, run, asked, counted, sent, fun last => absurd (by rw [last]) other⟩
  case acks =>
    have run : exec (.ackPeriodEnd b st) s = .next ((s.sluice b st 1 0 0).modStrm b st fun y => { y with ackDue := false }) :=
      congrArg Host.Outcome.next ((if_neg (by simp [opened])).trans (if_pos due))
    refine ⟨_, run, ?_, ?_, State.sluices_sluice enabled port 1 0 0⟩
    · rw [State.strm_modStrm]
    · rw [State.strm_modStrm]
      exact (State.sluice_keeps StreamSt.ackOpen b st (fun _ _ _ => rfl) s 1 0 0).trans opened
  case closes =>
    have run : exec (.ackPeriodEnd b st) s = .next (s.modStrm b st fun y => { y with ackOpen := false }) :=
      congrArg Host.Outcome.next ((if_neg (by simp [opened])).trans (if_neg (by simp [idle])))
    exact ⟨_, run, congrArg StreamSt.ackOpen (State.strm_modStrm ..), rfl⟩
  case rewind =>
    obtain ⟨left, sent⟩ := State.repeatRewind_due due enabled port
    refine ⟨_, sluiceRepeatTimer_next s b st, ?_, ?_⟩
    · split
      · exact (State.sluice_keeps StreamSt.rewindLeft b st (fun _ _ _ => rfl) ..).trans left
      · split
        · exact (State.modStrm_keeps StreamSt.rewindLeft b st _ fun _ => by rfl).trans
            ((State.sluice_keeps StreamSt.rewindLeft b st (fun _ _ _ => rfl) ..).trans left)
        · exact left
    · split
      · exact sent.grow (State.sluice_grows ..)
      · split
        · exact sent.grow (State.sluice_grows ..)
        · exact sent
  case stop =>
    obtain ⟨on, out⟩ := State.repeatRewind_sends enabled port
    refine ⟨_, (sluiceRepeatTimer_next s b st).trans (congrArg _ (if_pos ⟨stopped, full⟩)),
      (State.sluices_sluice on out 2 0 0).after (State.repeatRewind_grows ..), ?_⟩
    exact (State.sluice_keeps StreamSt.stopped b st (fun _ _ _ => rfl) ..).trans
      ((State.repeatRewind_keeps StreamSt.stopped (fun _ _ _ => rfl) (fun _ _ => rfl) s b st).trans stopped)
  case go =>
    obtain ⟨on, out⟩ := State.repeatRewind_sends enabled port
    refine ⟨_, (sluiceRepeatTimer_next s b st).trans (congrArg _ ((if_neg (by simp [running])).trans (if_pos due))),
      (State.sluices_sluice on out 3 0 0).after (State.repeatRewind_grows ..), ?_⟩
    rw [State.strm_modStrm]
    exact congrArg (· - 1) ((State.sluice_keeps StreamSt.goLeft b st (fun _ _ _ => rfl) ..).trans
      (State.repeatRewind_keeps StreamSt.goLeft (fun _ _ _ => rfl) (fun _ _ => rfl) s b st))

/-- Settles O20: a frame's fate decides between landing, which only raises the stream's highest sequence, and a count; the
stream's timers send their messages through `State.sluice_sends`. -/
theorem streamsLandAndRun : Obligations.StreamsLandAndRun := ⟨streamFramesLand, streamsAreRunAndRepeated⟩

end Sys2Proof.Machine
end

section
/-!
Commands that start, turns of a take, skip windows, rewinds and a port's own answers (13 R385, R400-R407, R414, R416; 15 R466).
-/

namespace Sys2Proof.Machine

/-! Commands that start. -/

/-- A command that starts, has room and passes its own checks runs. -/
theorem State.startCmd_of_starts {s : State} {b q opc : Nat} {w : List Nat} (starts : Starts s b q opc w) {room : List Nat → Bool}
    {own : State → List Nat → Nat} (run : List Nat → State → State) (free : room w = true) (passes : own (s.beginCmd b q w) w = 0) :
    s.startCmd b q opc room own run = run w (s.beginCmd b q w) := by
  obtain ⟨x, can, words, barges⟩ := starts
  have accepted : lowestCode [((0 : Nat) != 0, 0), ((0 : Nat) != 0, 0), ((0 : Nat) != 0, 0)] = 0 := by decide
  unfold State.startCmd
  simp only [can, free, words, barges, passes, accepted]
  exact (if_neg (by simp)).trans (if_neg (by simp))

/-! What a take leaves of a berth. -/

section
variable {s : State} {b : Nat} {t : TakeSt}

theorem State.settleStrms_berth (s : State) (c d : Nat) : (s.settleStrms c).berth d = s.berth d :=
  State.berth_congr ((State.settleStrms_frame _ _).frame .berths (by decide)) d

theorem State.restartStrms_berth (s : State) (c d : Nat) : (s.restartStrms c).berth d = s.berth d :=
  State.berth_congr ((State.restartStrms_frame _ _).frame .berths (by decide)) d

theorem State.endCmd_keeps {α : Type} (g : BerthSt → α) (d : Nat) (queues : ∀ y q, g { y with queues := q } = g y)
    (s : State) (b q status count aux : Nat) (fault : Bytes) :
    g ((s.endCmd b q status count aux fault).berth d) = g (s.berth d) := State.modQueue_keeps g d queues s b q _

/-- The end of a take leaves the berth without one, its tally as it was. -/
theorem State.takeEnd_berth (s : State) (b : Nat) (t : TakeSt) (status : Nat) :
    ((s.takeEnd b t status).berth b).take = none ∧ ((s.takeEnd b t status).berth b).tally = (s.berth b).tally := by
  have ends : ∀ {α : Type} (g : BerthSt → α), (∀ y q, g { y with queues := q } = g y) →
      g ((s.takeEnd b t status).berth b) = g { (s.unitWrite b t.list (leBytes 4 t.taken ++ zeros 4 ++ leBytes 8 t.skipped ++
        leBytes 8 t.before ++ leBytes 8 (s.berth b).tally.toNat ++ leBytes 8 t.off ++ zeros 24)).berth b with take := none } :=
    fun g queues => (State.endCmd_keeps g b queues ..).trans (congrArg g (State.berth_modBerth ..))
  refine ⟨ends BerthSt.take fun _ _ => rfl, (ends BerthSt.tally fun _ _ => rfl).trans ?_⟩
  exact State.unitWrite_keeps BerthSt.tally b s ..

/-- A delivered record leaves the tally one higher, and the take at its next record. -/
theorem State.takeRecord_berth (s : State) (b : Nat) (t : TakeSt) (st : Nat) (r : RecSt) :
    ((s.takeRecord b t st r).berth b).tally = BitVec.ofNat 64 (r.record + 1) ∧
    ((s.takeRecord b t st r).berth b).take = some { t with taken := t.taken + 1, off := t.off + round64 r.len, waited := false } := by
  unfold State.takeRecord
  simp only
  rw [State.settleStrms_berth, State.berth_modBerth]
  exact ⟨rfl, rfl⟩

/-- The record of the tally carries its number. -/
theorem record_of_recordAt {n st : Nat} {r : RecSt} (found : s.recordAt b n = some (st, r)) : r.record = n := by
  unfold State.recordAt at found
  obtain ⟨i, -, head⟩ := List.exists_of_findSome?_eq_some found
  split at head
  · split at head
    · next same =>
      obtain ⟨-, rfl⟩ := Prod.mk.inj (Option.some.inj head)
      exact same
    · cases head
  · cases head

/-- The state with a take past the skip window that holds the tally. -/
def State.pastWindow (s : State) (b : Nat) (t : TakeSt) (past : Nat) : State :=
  s.modBerth b fun x =>
    { x with tally := BitVec.ofNat 64 past, take := some { t with skipped := t.skipped + (past - (s.berth b).tally.toNat) } }

theorem State.takeTurn_ends (running : (s.berth b).take = some t) (done : t.count ≤ t.taken) :
    s.takeTurn b = s.takeEnd b t := by
  unfold State.takeTurn
  simp only [running]
  exact if_pos done

section
variable (running : (s.berth b).take = some t) (more : t.taken < t.count)
include running more

theorem State.takeTurn_skips {past : Nat} (window : s.skipPast b (s.berth b).tally.toNat = some past) :
    s.takeTurn b = (s.pastWindow b t past).settleStrms b := by
  unfold State.takeTurn
  simp only [running, window]
  exact if_neg (Nat.not_le.2 more)

theorem State.takeTurn_delivers {st : Nat} {r : RecSt} (outside : s.skipPast b (s.berth b).tally.toNat = none)
    (found : s.recordAt b (s.berth b).tally.toNat = some (st, r)) (fits : t.off + round64 r.len ≤ t.dstBytes) :
    s.takeTurn b = s.takeRecord b t st r := by
  unfold State.takeTurn
  simp only [running, outside, found]
  exact (if_neg (Nat.not_le.2 more)).trans (if_neg (Nat.not_lt.2 fits))

theorem State.takeTurn_waits (outside : s.skipPast b (s.berth b).tally.toNat = none)
    (missing : s.recordAt b (s.berth b).tally.toNat = none) : s.takeTurn b = s := by
  unfold State.takeTurn
  simp only [running, outside, missing]
  exact if_neg (Nat.not_le.2 more)

end

theorem State.takeRun_of_open (closed : (s.berth b).held = false) (running : (s.berth b).take = some t) :
    s.takeRun b = forN (17 * (t.count + 1 - t.taken)) s fun _ v => (v.takeTurn b).feedAll b := by
  unfold State.takeRun
  rw [if_neg (by simp [closed]), running]

theorem State.takeRun_idle (idle : (s.berth b).take = none ∨ (s.berth b).held = true) : s.takeRun b = s := by
  unfold State.takeRun
  obtain none | held := idle
  · rw [none]
    exact ite_self _
  · exact if_pos held

end

theorem takesDeliverRecords : TakesDeliverRecords := by
  refine fun s b q => ⟨fun t running more => ⟨fun past window below => ?skips, fun st r outside found fits => ?delivers,
    fun outside missing => State.takeTurn_waits running more outside missing⟩, fun t running done => ?ends,
    fun w starts idle passes => ?starts, fun released t running => ?goesOn, fun t running fresh => ?waits,
    fun w starts hostFed => ?feeds⟩
  case skips =>
    rw [State.takeTurn_skips running more window, State.settleStrms_berth, State.pastWindow, State.berth_modBerth]
    exact ⟨(BitVec.toNat_ofNat ..).trans (Nat.mod_eq_of_lt below), rfl⟩
  case delivers =>
    obtain ⟨tally, take⟩ := State.takeRecord_berth s b t st r
    rw [State.takeTurn_delivers running more outside found fits]
    refine ⟨tally.trans ?_, take⟩
    rw [record_of_recordAt found]
    simp [BitVec.ofNat_add]
  case ends =>
    rw [State.takeTurn_ends running done]
    exact State.takeEnd_berth s b t 0
  case starts =>
    exact ⟨_, congrArg Host.Outcome.next (State.startCmd_of_starts starts (fun w t => t.takeStart b q w) (by simp [idle]) passes), rfl⟩
  case goesOn =>
    have run : exec (.takeContinue b) s = .next ((s.takeRun b).feedAll b) := rfl
    rw [State.takeRun_of_open released running] at run
    exact ⟨_, run, rfl⟩
  case waits =>
    let v := s.modBerth b fun x => { x with take := some { t with waited := true } }
    have run : exec (.takeWait b) s = .next (v.berthEvent b 0x0684 (s.berth b).tally.toNat t.queue) := by
      refine congrArg Host.Outcome.next ?_
      simp only [running]
      exact if_neg (by simp [fresh])
    have raised := State.raises_berthEvent v b 0x0684 (s.berth b).tally.toNat t.queue []
    have waits : (v.berth b).take = some { t with waited := true } := congrArg BerthSt.take (State.berth_modBerth ..)
    exact ⟨_, run, (State.berthEvent_keeps BerthSt.take b ..).trans waits, raised.of_out_eq rfl, State.berthEvent_mem ..⟩
  case feeds =>
    exact ⟨_, congrArg Host.Outcome.next (State.startCmd_of_starts starts (fun _ t => t.feedAll b) rfl (if_pos hostFed)), rfl⟩

/-! Rewinds. -/

section
variable {s : State} {b : Nat}

/-- A restart of a stream leaves the others. -/
theorem State.restartStrm_other (s : State) (b v : Nat) {st i : Nat} (other : st ≠ i) :
    (s.restartStrm b i v).strm b st = s.strm b st := by
  have kept : ∀ (t : State) (f : StreamSt → StreamSt), (t.modStrm b i f).strm b st = t.strm b st := fun t f =>
    tget_tset_other _ _ _ (by omega)
  rw [State.restartStrm_eq]
  unfold State.sluice
  extract_lets x
  split
  · exact kept ..
  · split
    · exact kept ..
    · exact (State.strm_of_streams (State.emit_streams ..) b st).trans ((kept _ _).trans (kept ..))

/-- One stream's turn in the restart of a berth's streams. -/
def State.restartAt (b st : Nat) (t : State) : State :=
  if (t.strm b st).enable = 0 then t else t.restartStrm b st (t.strm b st).enable

theorem State.restartAt_other (s : State) (b : Nat) {st i : Nat} (other : st ≠ i) :
    (s.restartAt b i).strm b st = s.strm b st := by
  unfold State.restartAt
  split
  · rfl
  · exact State.restartStrm_other s b _ other

/-- The first `n` streams restart at their turn; a stream is as it was before it. -/
theorem State.restarts_strm (s : State) (b st n : Nat) :
    (n ≤ st → (forN n s (State.restartAt b)).strm b st = s.strm b st) ∧
    (∀ {α : Type}, st < n → (s.strm b st).enable ≠ 0 → ∀ (g : StreamSt → α), (∀ x m r, g { x with msgSeq := m, resends := r } = g x) →
      g ((forN n s (State.restartAt b)).strm b st) = g ((s.strm b st).restarted (s.strm b st).enable)) := by
  induction n with
  | zero => exact ⟨fun _ => rfl, fun below => absurd below (Nat.not_lt_zero _)⟩
  | succ n ih =>
    obtain ⟨before, after⟩ := ih
    rw [forN_succ]
    refine ⟨fun above => ?_, fun below enabled g blind => ?_⟩
    · rw [State.restartAt_other _ b (by omega), before (by omega)]
    · by_cases last : st = n
      · have reached := before (Nat.le_of_eq last.symm)
        subst last
        rw [State.restartAt, reached, if_neg enabled, State.restartStrm_keeps g blind, reached]
      · rw [State.restartAt_other _ b last]
        exact after (by omega) enabled g blind

theorem State.restartStrms_strm (s : State) (b : Nat) {st : Nat} (named : st < 16) (enabled : (s.strm b st).enable ≠ 0) :
    ((s.restartStrms b).strm b st).landed = [] ∧
      ((s.restartStrms b).strm b st).epoch = ((s.strm b st).epoch + 1) % 2 ^ 32 :=
  ⟨(State.restarts_strm s b st 16).2 named enabled StreamSt.landed fun _ _ _ => rfl,
    (State.restarts_strm s b st 16).2 named enabled StreamSt.epoch fun _ _ _ => rfl⟩

end

theorem State.rewind_tally (s : State) (b n : Nat) : ((s.rewind b n).berth b).tally = BitVec.ofNat 64 n := by
  rw [State.rewind, State.restartStrms_berth, State.berth_modBerth]

theorem State.rewind_mem (s : State) (b n : Nat) : (s.rewind b n).mem = s.mem :=
  (State.restartStrms_frame (s.modBerth b _) b).frame .mem (by decide)

theorem State.rewind_strm {s : State} (b n : Nat) {st : Nat} (named : st < 16) (enabled : (s.strm b st).enable ≠ 0) :
    ((s.rewind b n).strm b st).landed = [] ∧ ((s.rewind b n).strm b st).epoch = ((s.strm b st).epoch + 1) % 2 ^ 32 :=
  State.restartStrms_strm (s.modBerth b fun x => { x with tally := BitVec.ofNat 64 n }) b named enabled

theorem rewindsSkipsAndAnswers : RewindsSkipsAndAnswers := by
  refine fun s b w first last tally port src dst payload tp => ⟨fun up low high present idle => ?skip, fun up held => ?rewind,
    fun up open' fresh => ?refused, fun own => ⟨congrArg Host.Outcome.next (if_pos own), congrArg Host.Outcome.next (if_pos own)⟩,
    fun foreign => ⟨congrArg Host.Outcome.next (if_neg foreign), congrArg Host.Outcome.next (if_neg foreign)⟩⟩
  case skip =>
    let t := s.modBerth b fun x => { x with skips := tset x.skips w (first % 2 ^ 64, last % 2 ^ 64) }
    have berth : t.berth b = { s.berth b with skips := tset (s.berth b).skips w (first % 2 ^ 64, last % 2 ^ 64) } :=
      State.berth_modBerth ..
    have still : t.takeRun b = t := State.takeRun_idle (by rw [berth]; exact idle)
    have run : exec (.skipWindowWrite b w first last) s =
        .next (t.emit { kind := .answer, port := entryKey (0x8040 + b) w, args := [0] }) := by
      refine congrArg Host.Outcome.next ((if_neg ?_).trans ((State.byDict_of_up up ..).trans ?_))
      · rintro (zero | beyond | absent)
        · omega
        · omega
        · exact present absent
      · exact congrArg (fun u : State => u.emit { kind := .answer, port := entryKey (0x8040 + b) w, args := [0] }) still
    refine ⟨_, run, ?_, answers_emit .., (congrArg BerthSt.tally berth :)⟩
    exact (congrArg (fun y : BerthSt => tget y.skips (2 ^ 64 - 1, 0) w) berth :).trans (tget_tset_self ..)
  case rewind =>
    have run : exec (.berthRewind b tally) s =
        .next ((s.rewind b tally).emit { kind := .answer, port := entryKey 0x8002 (b + 1), args := [0] }) := by
      have accepted : s.writeRewind b tally = (0, s.rewind b tally) := if_pos (.inl held)
      exact congrArg Host.Outcome.next ((State.byDict_of_up up ..).trans (by rw [accepted]))
    refine ⟨_, run, ?_, answers_emit .., ?_, fun st named enabled => ?_⟩
    · rw [State.emit_berth]
      exact State.rewind_tally s b tally
    · rw [State.emit_mem]
      exact State.rewind_mem s b tally
    · rw [State.strm_of_streams (State.emit_streams ..)]
      exact State.rewind_strm b tally named enabled
  case refused =>
    have refused : s.writeRewind b tally = (0x0642, s) := if_neg (by simp [open', fresh])
    have run : exec (.berthRewind b tally) s =
        .next (s.emit { kind := .answer, port := entryKey 0x8002 (b + 1), args := [0x0642] }) := by
      exact congrArg Host.Outcome.next ((State.byDict_of_up up ..).trans (by rw [refused]))
    exact ⟨_, run, answers_emit .., rfl⟩

/-- Settles O21: a turn of a take by what the skip windows and the streams' heads hold; a rewind restarts each enabled stream
at its turn. -/
theorem takesFollowTheTally : Obligations.TakesFollowTheTally := ⟨takesDeliverRecords, rewindsSkipsAndAnswers⟩

end Sys2Proof.Machine
end

section
/-!
What retiring commands, swept queues and abandoned contexts keep of a berth (15 R467, R475-R477).
-/

namespace Sys2Proof.Machine

/-- What has left the module stays ahead of what leaves it later. -/
theorem Change.grows {l : List Part} {s t : State} (h : Change l s t) : s.out <+: t.out := (h .out).2

section
variable {α : Type} (g : BerthSt → α) (d : Nat)

theorem State.takeEnd_keeps (queues : ∀ y q, g { y with queues := q } = g y) (take : ∀ y t, g { y with take := t } = g y)
    (s : State) (b : Nat) (t : TakeSt) (status : Nat) : g ((s.takeEnd b t status).berth d) = g (s.berth d) :=
  (State.endCmd_keeps g d queues ..).trans ((State.modBerth_keeps g d _ b fun y => take y none).trans
    (State.unitWrite_keeps g d ..))

section
variable (events : ∀ y e n, g { y with evts := e, evtFree := n } = g y)
  (objects : ∀ y o n, g { y with objs := o, objFree := n } = g y) (queues : ∀ y q, g { y with queues := q } = g y)
include events objects

theorem State.dropHolder_keeps (s : State) (b c : Nat) : g ((s.dropHolder b c).berth d) = g (s.berth d) := by
  unfold State.dropHolder
  extract_lets t
  have freed : g (t.berth d) = g (s.berth d) :=
    forL_keeps (fun u : State => g (u.berth d)) _ _ _ fun h u =>
      (State.objSweep_keeps g d objects ..).trans (State.modBerth_keeps g d u b fun y => objects y _ y.objFree)
  exact (forL_keeps (fun u : State => g (u.berth d)) _ _ _ fun h u =>
    (State.evtSweep_keeps g d events ..).trans (State.modEvt_keeps g d events u b h _)).trans freed

include queues

theorem State.retireFront_keeps (s : State) (b q status count aux : Nat) (step : Bool) (fault : Bytes) :
    g ((s.retireFront b q status count aux step fault).berth d) = g (s.berth d) := by
  cases front : s.queue b q with
  | none =>
    unfold State.retireFront
    rw [front]
  | some x =>
    rw [State.berth_congr (State.retireFront_berths front status count aux step fault),
      State.leaveFront_keeps g d events objects queues]

theorem State.retireRest_keeps (s : State) (b q status : Nat) : g ((s.retireRest b q status).berth d) = g (s.berth d) := by
  unfold State.retireRest
  split
  · rfl
  · refine forN_keeps (fun u : State => g (u.berth d)) _ _ _ fun _ u => ?_
    split
    · exact State.retireFront_keeps g d events objects queues ..
    · rfl

omit events objects queues in
theorem State.freeCtx_keeps (s : State) (b c : Nat) : g ((s.freeCtx b c).berth d) = g (s.berth d) := by
  unfold State.freeCtx
  split
  · rfl
  · split
    · exact State.berthEvent_keeps g d ..
    · rfl

theorem State.sweepQueue_keeps (s : State) (b q : Nat) : g ((s.sweepQueue b q).berth d) = g (s.berth d) := by
  unfold State.sweepQueue
  split
  · rfl
  · extract_lets t
    have rest : g (t.berth d) = g (s.berth d) := by
      unfold t
      split
      · exact State.retireRest_keeps g d events objects queues ..
      · rfl
    split
    · exact rest
    · split
      · exact (State.freeCtx_keeps g d ..).trans ((State.modBerth_keeps g d t b fun y => queues y _).trans rest)
      · exact rest

variable (take : ∀ y t, g { y with take := t } = g y)
include take

theorem State.abandonQueue_keeps (s : State) (b q : Nat) : g ((s.abandonQueue b q).berth d) = g (s.berth d) := by
  unfold State.abandonQueue
  split
  · rfl
  · refine (State.sweepQueue_keeps g d events objects queues ..).trans ?_
    split
    · exact State.retireRest_keeps g d events objects queues ..
    · split
      · rfl
      · split
        · exact State.endCmd_keeps g d queues ..
        · split
          · cases (s.berth b).take with
            | none => rfl
            | some t => exact State.takeEnd_keeps g d queues take ..
          · rfl

/-- Abandoning a context leaves of a berth all but its events, objects, queues and take. -/
theorem State.abandonCtx_keeps (s : State) (b c : Nat) : g ((s.abandonCtx b c).berth d) = g (s.berth d) := by
  have step := State.abandonQueue_keeps g d events objects queues take
  unfold State.abandonCtx
  split
  · rfl
  · split
    · rfl
    · extract_lets t qs idle t1 evs t2 t3
      have k1 : g (t1.berth d) = g (s.berth d) :=
        forL_keeps (fun u : State => g (u.berth d)) idle t _ fun q u => State.retireRest_keeps g d events objects queues ..
      have k2 : g (t2.berth d) = g (t1.berth d) :=
        forL_keeps (fun u : State => g (u.berth d)) evs t1 _ fun h u => State.evtSet_keeps g d events ..
      have k3 : g (t3.berth d) = g (t2.berth d) := State.dropHolder_keeps g d events objects ..
      exact (State.freeCtx_keeps g d ..).trans
        ((forL_keeps (fun u : State => g (u.berth d)) qs t3 _ fun q u => step ..).trans (k3.trans (k2.trans k1)))

end
end

end Sys2Proof.Machine
end

section
/-!
Berths that are created, resized, reset, ended and shrunk (14 R422-R430, R439).
-/

namespace Sys2Proof.Machine

/-! Cleared dies. -/

/-- Nothing is stored or marked on a die outside its segment copies. -/
def State.DieBlank (s : State) (d : Nat) : Prop :=
  (∀ l, homeDie (64 * l) = some d → s.segOf (64 * l) = none → s.mem.marked (64 * l) = false) ∧
    ∀ a, homeDie a = some d → s.segOf a = none → cellGet s.mem.cells a = 0

theorem State.DieBlank.byte {s : State} {d a : Nat} (blank : s.DieBlank d) (home : homeDie a = some d) (plain : s.segOf a = none)
    (clean : s.mem.marked a = false) : s.mem.byte a = 0 := by
  obtain ⟨-, cells⟩ := blank
  rw [Store.byte, clean]
  exact cells a home plain

/-- The addresses that clearing a die leaves. -/
def State.keptBy (s : State) (d a : Nat) : Bool := !inDie d a || (s.segOf a).isSome

theorem State.keptBy_of_away (s : State) {d a : Nat} (away : homeDie a ≠ some d) : s.keptBy d a = true := by
  simp [State.keptBy, inDie, away]

theorem State.not_keptBy {s : State} {d a : Nat} (home : homeDie a = some d) (plain : s.segOf a = none) :
    s.keptBy d a = false := by
  simp [State.keptBy, inDie, home, plain]

theorem State.segOf_of_segs {s t : State} (same : t.segs = s.segs) (a : Nat) : t.segOf a = s.segOf a := by
  have seg : ∀ k, t.seg k = s.seg k := fun k => by rw [State.seg, same, State.seg]
  unfold State.segOf
  simp only [seg]

theorem State.clearDie_segs (s : State) (d : Nat) : (s.clearDie d).segs = s.segs :=
  (State.clearDie_frame _ _).frame .segs (by decide)

theorem State.clearDie_mem (s : State) (d : Nat) : (s.clearDie d).mem =
    { cells := s.mem.cells.filter fun p => s.keptBy d p.1, poison := s.mem.poison.filter fun p => s.keptBy d (64 * p) } := by
  have cores : (forN 16 s fun c t => t.setCore (16 * d + c) {}).mem = s.mem :=
    forN_keeps State.mem _ _ _ fun _ _ => rfl
  have kept : ∀ a, (!inDie d a || (s.segOf a).isSome) = s.keptBy d a := fun a => rfl
  unfold State.clearDie
  simp only [cores, kept]

theorem cellGet_filter (c : List Host.Cell) (keep : Nat → Bool) (a : Nat) :
    cellGet (c.filter fun p => keep p.1) a = if keep a then cellGet c a else 0 := by
  induction c with
  | nil => simp [cellGet]
  | cons p r ih =>
    obtain ⟨k, v⟩ := p
    by_cases here : k = a
    · subst here
      cases kept : keep k
      · simp [kept, ih]
      · simp [kept, cellGet]
    · cases kept : keep k
      · simp [kept, ih, cellGet, here]
      · simp [kept, ih, cellGet, here]

theorem contains_filter (l : List Nat) (keep : Nat → Bool) (a : Nat) :
    (l.filter keep).contains a = (keep a && l.contains a) := by
  rw [Bool.eq_iff_iff]
  simp [and_comm]

theorem State.clearDie_cell (s : State) (d a : Nat) :
    cellGet (s.clearDie d).mem.cells a = if s.keptBy d a then cellGet s.mem.cells a else 0 := by
  rw [State.clearDie_mem]
  exact cellGet_filter s.mem.cells (s.keptBy d) a

theorem State.clearDie_marked (s : State) (d a : Nat) :
    (s.clearDie d).mem.marked a = (s.keptBy d (64 * (a / 64)) && s.mem.marked a) := by
  rw [State.clearDie_mem]
  exact contains_filter s.mem.poison (fun p => s.keptBy d (64 * p)) (a / 64)

/-- A cleared die is blank. -/
theorem State.dieBlank_clearDie (s : State) (d : Nat) : (s.clearDie d).DieBlank d := by
  refine ⟨fun l home plain => ?_, fun a home plain => ?_⟩
  · rw [State.segOf_of_segs (State.clearDie_segs s d)] at plain
    rw [State.clearDie_marked, Nat.mul_div_cancel_left l (by decide), State.not_keptBy home plain, Bool.false_and]
  · rw [State.segOf_of_segs (State.clearDie_segs s d)] at plain
    rw [State.clearDie_cell, State.not_keptBy home plain]
    rfl

/-- A blank die stays blank while another is cleared. -/
theorem State.DieBlank.clearDie {s : State} {d : Nat} (blank : s.DieBlank d) (e : Nat) : (s.clearDie e).DieBlank d := by
  obtain ⟨marks, cells⟩ := blank
  refine ⟨fun l home plain => ?_, fun a home plain => ?_⟩
  · rw [State.segOf_of_segs (State.clearDie_segs s e)] at plain
    rw [State.clearDie_marked, marks l home plain, Bool.and_false]
  · rw [State.segOf_of_segs (State.clearDie_segs s e)] at plain
    rw [State.clearDie_cell, cells a home plain, ite_self]

theorem State.DieBlank.of_same {s t : State} {d : Nat} (blank : s.DieBlank d) (mem : t.mem = s.mem) (segs : t.segs = s.segs) :
    t.DieBlank d := by
  unfold State.DieBlank
  simp only [mem, State.segOf_of_segs segs]
  exact blank

/-- What each turn of a loop brings about for its element, and no turn undoes, holds of every element at the end. -/
theorem forL_establishes {α σ : Type} {f : α → σ → σ} (p : α → σ → Prop) (here : ∀ a u, p a (f a u))
    (stays : ∀ a c u, p a u → p a (f c u)) (l : List α) (s : σ) : ∀ a ∈ l, p a (forL l s f) := by
  have kept : ∀ (l : List α) (u : σ) (a : α), p a u → p a (forL l u f) := by
    intro l
    induction l with
    | nil => exact fun _ _ holds => holds
    | cons c r ih => exact fun u a holds => ih _ a (stays a c u holds)
  induction l generalizing s with
  | nil => exact fun _ out => absurd out List.not_mem_nil
  | cons c r ih =>
    intro a inside
    obtain rfl | later := List.mem_cons.1 inside
    · exact kept r _ a (here a s)
    · exact ih _ a later

/-- Clearing dies, with a step between that touches neither memory nor segments, leaves each of them blank. -/
theorem State.dieBlank_forL {f : Nat → State → State} (step : ∀ d t, (f d t).mem = (t.clearDie d).mem ∧ (f d t).segs = t.segs)
    (l : List Nat) (s : State) : ∀ d ∈ l, (forL l s f).DieBlank d := by
  have turn : ∀ d e (t : State), (t.clearDie e).DieBlank d → (f e t).DieBlank d := fun d e t blank =>
    blank.of_same (step e t).1 ((step e t).2.trans (State.clearDie_segs t e).symm)
  exact forL_establishes (fun d t => t.DieBlank d) (fun d t => turn d d t (State.dieBlank_clearDie t d))
    (fun d e t blank => turn d e t (blank.clearDie e)) l s

theorem forL_cons {α σ : Type} (a : α) (l : List α) (s : σ) (f : α → σ → σ) : forL (a :: l) s f = forL l (f a s) f := rfl

/-- Clearing dies leaves the bytes that lie, with their lines, on none of them. -/
theorem State.clearDies_byte {a : Nat} (l : List Nat) (s : State)
    (away : ∀ d ∈ l, homeDie a ≠ some d ∧ homeDie (64 * (a / 64)) ≠ some d) :
    (forL l s fun d t => t.clearDie d).mem.byte a = s.mem.byte a := by
  induction l generalizing s with
  | nil => rfl
  | cons e r ih =>
    have both := away e List.mem_cons_self
    have here : homeDie a ≠ some e := both.1
    have line : homeDie (64 * (a / 64)) ≠ some e := both.2
    rw [forL_cons, ih (s.clearDie e) fun d inside => away d (List.mem_cons_of_mem e inside)]
    rw [Store.byte, Store.byte, State.clearDie_marked, State.clearDie_cell, State.keptBy_of_away s here,
      State.keptBy_of_away s line]
    rfl

/-! Creation. -/

section
variable {s : State} {b : Nat}

/-- A berth that waits for no reset and no dusk enters no other mode. -/
theorem State.nextMode_idle (noReset : (s.berth b).wantReset = false) (noDusk : (s.berth b).wantDusk = false) :
    s.nextMode b = s := by
  unfold State.nextMode
  simp only [noReset, noDusk]
  simp

theorem State.clearDies_segs (l : List Nat) (s : State) : (forL l s fun d t => t.clearDie d).segs = s.segs :=
  forL_keeps State.segs _ _ _ fun d t => State.clearDie_segs t d

/-- The state with a berth's dies cleared and its parts as after its creation. -/
def State.createBlank (s : State) (b : Nat) : State :=
  ((forL (s.berth b).dies s fun d t => t.clearDie d).berthBlank b).berthDefaults b [0x4003, 0x4005, 0x4006, 0x4007]

/-- A created berth. -/
def BerthSt.created (x : BerthSt) : BerthSt :=
  { life := .active, dies := x.dies, extent := x.extent, job := x.job, share := x.share, maps := fixedMaps x.dies,
    wantReset := x.wantReset, wantDusk := x.wantDusk }

theorem berthCreateDone_next (creating : (s.berth b).life = .creating) : exec (.berthCreateDone b) s = .next
    ((((s.createBlank b).setBerth b (s.berth b).created).modFn (b + 1) fun y => { y with enabled := true }).nextMode b) :=
  congrArg Host.Outcome.next (if_neg (by simp [creating]))

theorem State.createBlank_mem (s : State) (b : Nat) :
    (s.createBlank b).mem = (forL (s.berth b).dies s fun d t => t.clearDie d).mem :=
  ((State.berthDefaults_frame _ _ _).frame .mem (by decide)).trans ((State.berthBlank_frame _ _).frame .mem (by decide))

theorem State.createBlank_segs (s : State) (b : Nat) : (s.createBlank b).segs = s.segs :=
  ((State.berthDefaults_frame _ _ _).frame .segs (by decide)).trans (((State.berthBlank_frame _ _).frame .segs (by decide)).trans
    (State.clearDies_segs ..))

theorem writeCreate_accepted (ok : s.createCode b = 0) : s.writeCreate b = (0, s.setBerth b
    { life := .creating, dies := maskDies (s.setting 0x4003 (b + 1) 0), extent := s.setting 0x4005 (b + 1) 0,
      job := s.setting 0x4006 (b + 1) 0, share := s.setting 0x4007 (b + 1) 0 }) := by
  unfold State.writeCreate
  simp only [ok]
  exact congrArg _ (if_neg (by simp))

theorem writeCreate_refused (refused : s.createCode b ≠ 0) : s.writeCreate b = (s.createCode b, s) :=
  congrArg _ (if_pos refused)

/-- A write to a berth's `CMD` while the dictionary answers. -/
theorem State.berthCmd_next (up : DictUp s) {f : State → Nat × State} {code : Nat} {t : State} (done : f s = (code, t)) :
    s.byDict 0x4001 (b + 1) f = t.emit { kind := .answer, port := entryKey 0x4001 (b + 1), args := [code] } := by
  rw [State.byDict_of_up up, done]

/-! Resizing. -/

/-- The state with the dies that a resize adds cleared. -/
def State.clearAdded (s : State) (b : Nat) : State :=
  forL ((maskDies (s.setting 0x4004 (b + 1) 0)).filter fun d => !(s.berth b).dies.contains d) s fun d t => t.clearDie d

/-- A berth whose resize to dies `new` begins. -/
def BerthSt.resizing (new : List Nat) (y : BerthSt) : BerthSt :=
  { y with life := .resizing, newDies := new, dies := (List.range 24).filter fun d => new.contains d || y.dies.contains d }

theorem writeResize_accepted (ok : s.resizeCode b = 0) : s.writeResize b =
    (0, (s.clearAdded b).modBerth b (BerthSt.resizing (maskDies (s.setting 0x4004 (b + 1) 0)))) :=
  if_neg (by simp [ok])

theorem writeResize_refused (refused : s.resizeCode b ≠ 0) : s.writeResize b = (s.resizeCode b, s) := if_pos refused

/-- The state with the dies that a resize releases cleared. -/
def State.clearReleased (s : State) (b : Nat) : State :=
  forL ((s.berth b).dies.filter fun d => !(s.berth b).newDies.contains d) s fun d t => (t.clearDie d).modExch d fun _ => {}

/-- A berth at the end of its resize; `fixed` are its fixed mappings before. -/
def BerthSt.resized (fixed : List MapEnt) (y : BerthSt) : BerthSt :=
  { y with
    life := .active, dies := y.newDies, newDies := [],
    maps := fixedMaps y.newDies ++ y.maps.filter fun m => !fixed.contains m && !(fixedMaps y.newDies).contains m &&
      !(decide (Config.postVa ≤ m.va) && decide (m.va < Config.postVa + 0x1000 * 24) && m.shift == 12) }

theorem berthResizeDone_next (resizing : (s.berth b).life = .resizing) : exec (.berthResizeDone b) s = .next
    (((((s.clearReleased b).modBerth b (BerthSt.resized (fixedMaps (s.berth b).dies))).putSetting 0x4003 (b + 1)
      (diesMask (s.berth b).newDies)).emptySlots b).nextMode b) :=
  congrArg Host.Outcome.next (if_neg (by simp [resizing]))

/-- One released die's turn in `State.clearReleased`. -/
theorem State.releaseDie_kept (d : Nat) (t : State) :
    ((t.clearDie d).modExch d fun _ => {}).berths = t.berths ∧ ((t.clearDie d).modExch d fun _ => {}).mem = (t.clearDie d).mem ∧
      ((t.clearDie d).modExch d fun _ => {}).segs = t.segs := by
  rw [State.modExch_berths, State.modExch_mem, State.modExch_segs]
  exact ⟨(State.clearDie_frame t d).frame .berths (by decide), rfl, State.clearDie_segs t d⟩

theorem State.clearReleased_berths (s : State) (b : Nat) : (s.clearReleased b).berths = s.berths :=
  forL_keeps State.berths _ _ _ fun d t => (State.releaseDie_kept d t).1

theorem State.clearReleased_segs (s : State) (b : Nat) : (s.clearReleased b).segs = s.segs :=
  forL_keeps State.segs _ _ _ fun d t => (State.releaseDie_kept d t).2.2

theorem State.clearReleased_blank {d : Nat} (owned : d ∈ (s.berth b).dies) (released : d ∉ (s.berth b).newDies) :
    (s.clearReleased b).DieBlank d :=
  State.dieBlank_forL (fun d t => (State.releaseDie_kept d t).2) _ s d (List.mem_filter.2 ⟨owned, by simpa using released⟩)

/-- The end of a creation that no reset and no dusk waits for. -/
theorem berthCreateDone_idle (creating : (s.berth b).life = .creating) (noReset : (s.berth b).wantReset = false)
    (noDusk : (s.berth b).wantDusk = false) :
    ∃ t, exec (.berthCreateDone b) s = .next t ∧ t.berth b = (s.berth b).created ∧ (t.fn (b + 1)).enabled = true ∧
      t.mem = (forL (s.berth b).dies s fun d t => t.clearDie d).mem ∧ t.segs = s.segs := by
  have run := berthCreateDone_next creating
  have berth : ((s.createBlank b).setBerth b (s.berth b).created).berth b = (s.berth b).created := State.berth_setBerth ..
  have mem : ((s.createBlank b).setBerth b (s.berth b).created).mem = _ := State.createBlank_mem s b
  have segs : ((s.createBlank b).setBerth b (s.berth b).created).segs = _ := State.createBlank_segs s b
  generalize (s.createBlank b).setBerth b (s.berth b).created = v at run berth mem segs
  have kept : (v.modFn (b + 1) fun y => { y with enabled := true }).berth b = v.berth b := rfl
  have opened : ((v.modFn (b + 1) fun y => { y with enabled := true }).fn (b + 1)).enabled = true := by
    rw [State.fn_modFn]
  rw [State.nextMode_idle (by rw [kept, berth]; exact noReset) (by rw [kept, berth]; exact noDusk)] at run
  exact ⟨_, run, kept.trans berth, opened, mem, segs⟩

theorem State.emptySlots_slots (s : State) (b : Nat) : (tget (s.emptySlots b).snaps {} b).slots = [] :=
  congrArg SnapSt.slots (tget_tset_self s.snaps {} b { tget s.snaps {} b with slots := [] })

/-- The end of a resize that no reset and no dusk waits for. -/
theorem berthResizeDone_idle (resizing : (s.berth b).life = .resizing) (noReset : (s.berth b).wantReset = false)
    (noDusk : (s.berth b).wantDusk = false) :
    ∃ t, exec (.berthResizeDone b) s = .next t ∧ t.berth b = (s.berth b).resized (fixedMaps (s.berth b).dies) ∧
      (tget t.snaps {} b).slots = [] ∧ t.mem = (s.clearReleased b).mem ∧ t.segs = s.segs := by
  have run := berthResizeDone_next resizing
  have berth : ((s.clearReleased b).modBerth b (BerthSt.resized (fixedMaps (s.berth b).dies))).berth b =
      (s.berth b).resized (fixedMaps (s.berth b).dies) := by
    rw [State.berth_modBerth, State.berth_congr (State.clearReleased_berths s b)]
  have mem : ((s.clearReleased b).modBerth b (BerthSt.resized (fixedMaps (s.berth b).dies))).mem = (s.clearReleased b).mem := rfl
  have segs : ((s.clearReleased b).modBerth b (BerthSt.resized (fixedMaps (s.berth b).dies))).segs = s.segs :=
    State.clearReleased_segs s b
  generalize (s.clearReleased b).modBerth b (BerthSt.resized (fixedMaps (s.berth b).dies)) = v at run berth mem segs
  have kept : ((v.putSetting 0x4003 (b + 1) (diesMask (s.berth b).newDies)).emptySlots b).berth b = v.berth b := rfl
  rw [State.nextMode_idle (by rw [kept, berth]; exact noReset) (by rw [kept, berth]; exact noDusk)] at run
  exact ⟨_, run, kept.trans berth, State.emptySlots_slots .., mem, segs⟩

end

theorem berthsAreCreatedAndResized : BerthsAreCreatedAndResized := by
  refine fun s b => ⟨fun up ok => ?create, fun up refused => ?refuse, fun creating noReset noDusk => ?created,
    fun other => congrArg Host.Outcome.next (if_pos other), fun up ok => ?resize, fun up refused => ?keep,
    fun resizing noReset noDusk => ?resized⟩
  case create =>
    have run : exec (.berthCreate b) s = .next _ := congrArg Host.Outcome.next (State.berthCmd_next up (writeCreate_accepted ok))
    have made := State.berth_setBerth (s := s) b
      { life := .creating, dies := maskDies (s.setting 0x4003 (b + 1) 0), extent := s.setting 0x4005 (b + 1) 0,
        job := s.setting 0x4006 (b + 1) 0, share := s.setting 0x4007 (b + 1) 0 }
    exact ⟨_, run, (congrArg BerthSt.life made :), (congrArg BerthSt.dies made :), (congrArg BerthSt.job made :),
      (congrArg BerthSt.tally made :), (congrArg BerthSt.stepSeq made :), answers_emit .., rfl⟩
  case refuse =>
    exact ⟨_, congrArg Host.Outcome.next (State.berthCmd_next up (writeCreate_refused refused)), answers_emit .., rfl⟩
  case created =>
    obtain ⟨t, run, berth, enabled, mem, segs⟩ := berthCreateDone_idle creating noReset noDusk
    refine ⟨t, run, by rw [berth]; rfl, by rw [berth]; rfl, by rw [berth]; rfl, by rw [berth]; rfl, enabled,
      fun d inside => ?_, fun a away => ?_⟩
    · have blank : t.DieBlank d :=
        (State.dieBlank_forL (fun d t => ⟨rfl, State.clearDie_segs t d⟩) (s.berth b).dies s d inside).of_same mem
          (segs.trans (State.clearDies_segs (s.berth b).dies s).symm)
      have plain : ∀ a, s.segOf a = none → t.segOf a = none := fun a none => (State.segOf_of_segs segs a).trans none
      exact ⟨fun l home none => blank.1 l home (plain _ none), fun a home none clean => blank.byte home (plain a none) clean⟩
    · rw [mem]
      exact State.clearDies_byte (s.berth b).dies s away
  case resize =>
    have run : exec (.berthResize b) s = .next _ := congrArg Host.Outcome.next (State.berthCmd_next up (writeResize_accepted ok))
    have begun := State.berth_modBerth (s := s.clearAdded b) b (BerthSt.resizing (maskDies (s.setting 0x4004 (b + 1) 0)))
    exact ⟨_, run, (congrArg BerthSt.life begun :), (congrArg BerthSt.newDies begun :), answers_emit ..⟩
  case keep =>
    exact ⟨_, congrArg Host.Outcome.next (State.berthCmd_next up (writeResize_refused refused)), answers_emit .., rfl, rfl⟩
  case resized =>
    obtain ⟨t, run, berth, slots, mem, segs⟩ := berthResizeDone_idle resizing noReset noDusk
    refine ⟨t, run, by rw [berth]; rfl, by rw [berth]; rfl, by rw [berth]; rfl, slots,
      fun d inside released a home none clean => ?_⟩
    have blank := State.clearReleased_blank inside released
    exact (blank.of_same mem (segs.trans (State.clearReleased_segs s b).symm)).byte home
      ((State.segOf_of_segs segs a).trans none) clean

/-! Resets. -/

section
variable {s : State} {b : Nat}

/-- The state with the local memories of a berth's cores cleared. -/
def State.clearLocal (s : State) (b : Nat) : State :=
  forL (s.berth b).dies s fun d t => forN 16 t fun c u => u.modCore (16 * d + c) fun x => { x with lm := {} }

theorem State.modCore_lm_empty (s : State) (c k : Nat) (empty : (s.core k).lm = {} ∨ k = c) :
    ((s.modCore c fun x => { x with lm := {} }).core k).lm = {} := by
  by_cases same : k = c
  · rw [same, State.core_modCore]
  · rw [State.core_modCore_other s _ same]
    exact empty.resolve_right same

/-- Clearing the cores of a die empties their local memories and keeps an empty one empty. -/
theorem State.clearCores_lm (s : State) (d k n : Nat) (empty : (s.core k).lm = {} ∨ ∃ c < n, k = 16 * d + c) :
    ((forN n s fun c u => u.modCore (16 * d + c) fun x => { x with lm := {} }).core k).lm = {} := by
  induction n with
  | zero => exact empty.resolve_right fun ⟨_, below, _⟩ => absurd below (Nat.not_lt_zero _)
  | succ n ih =>
    rw [forN_succ]
    refine State.modCore_lm_empty _ _ _ ?_
    obtain before | ⟨c, below, rfl⟩ := empty
    · exact .inl (ih (.inl before))
    · by_cases last : c = n
      · exact .inr (by rw [last])
      · exact .inl (ih (.inr ⟨c, by omega, rfl⟩))

theorem State.clearDieCores_lm (l : List Nat) (s : State) {k : Nat}
    (empty : (s.core k).lm = {} ∨ ∃ d ∈ l, ∃ c < 16, k = 16 * d + c) :
    ((forL l s fun d t => forN 16 t fun c u => u.modCore (16 * d + c) fun x => { x with lm := {} }).core k).lm = {} := by
  induction l generalizing s with
  | nil => exact empty.resolve_right fun ⟨_, out, _⟩ => absurd out List.not_mem_nil
  | cons e r ih =>
    rw [forL_cons]
    refine ih _ ?_
    obtain before | ⟨d, inside, c, below, rfl⟩ := empty
    · exact .inl (State.clearCores_lm s e k 16 (.inl before))
    · obtain rfl | later := List.mem_cons.1 inside
      · exact .inl (State.clearCores_lm s d _ 16 (.inr ⟨c, below, rfl⟩))
      · exact .inr ⟨d, later, c, below, rfl⟩

theorem State.clearLocal_kept {α : Type} (g : State → α) (cores : ∀ t c f, g (State.modCore t c f) = g t) (s : State) (b : Nat) :
    g (s.clearLocal b) = g s :=
  forL_keeps g _ _ _ fun _ t => forN_keeps g 16 t _ fun _ u => cores u _ _

theorem berthResetDone_next (resetting : (s.berth b).life = .resetting) : exec (.berthResetDone b) s = .next
    ((((s.clearLocal b).modBerth b fun x => { x with life := .active }).berthEvent b 0x07E0 0 0).nextMode b) :=
  congrArg Host.Outcome.next (if_neg (by simp [resetting]))

theorem State.startReset_begun (s : State) (b : Nat) :
    ((s.startReset b).berth b).life = .resetting ∧ ((s.startReset b).berth b).wantReset = false := by
  unfold State.startReset
  rw [State.berth_modBerth]
  exact ⟨rfl, rfl⟩

theorem askReset_active (active : (s.berth b).life = .active) :
    s.askReset b = (0, (s.modBerth b fun x => { x with wantReset := true }).startReset b) := by
  have begins : (s.modBerth b fun x => { x with wantReset := true }).nextMode b =
      (s.modBerth b fun x => { x with wantReset := true }).startReset b := by
    unfold State.nextMode
    simp only [State.berth_modBerth, BerthSt.changing, active]
    simp
  unfold State.askReset
  rw [active, ← begins]

theorem askReset_changing (changing : (s.berth b).life = .creating ∨ (s.berth b).life = .resizing) :
    s.askReset b = (0, s.modBerth b fun x => { x with wantReset := true }) := by
  have waits : (s.modBerth b fun x => { x with wantReset := true }).nextMode b =
      s.modBerth b fun x => { x with wantReset := true } := by
    unfold State.nextMode
    simp only [State.berth_modBerth, BerthSt.changing]
    exact if_pos (by rcases changing with life | life <;> simp [life])
  unfold State.askReset
  obtain life | life := changing <;> rw [life, waits]

theorem askReset_resetting (resetting : (s.berth b).life = .resetting) : s.askReset b = (0, s) := by
  unfold State.askReset
  rw [resetting]

theorem askReset_refused (gone : (s.berth b).life = .absent ∨ (s.berth b).life = .dusk ∨ (s.berth b).life = .faulted) :
    s.askReset b = (0x07C0, s) := by
  unfold State.askReset
  obtain life | life | life := gone <;> rw [life]

/-! Dusks. -/

theorem writeDusk_planned (present : (s.berth b).life ≠ .absent) (day : (s.berth b).life ≠ .dusk) (planned : s.planned b = true) :
    s.writeDusk b = (0x07C7, s) :=
  (if_neg (by simp [present, day])).trans (if_pos planned)

theorem writeDusk_begins (day : (s.berth b).life = .active ∨ (s.berth b).life = .faulted) (noReset : (s.berth b).wantReset = false)
    (free : s.planned b = false) (still : (tget s.snaps {} b).phase = 0) :
    s.writeDusk b = (0, (s.modBerth b fun x => { x with wantDusk := true }).startDusk b) := by
  have begins : (s.modBerth b fun x => { x with wantDusk := true }).nextMode b =
      (s.modBerth b fun x => { x with wantDusk := true }).startDusk b := by
    have snaps : (s.modBerth b fun x => { x with wantDusk := true }).snaps = s.snaps := rfl
    unfold State.nextMode
    simp only [State.berth_modBerth, BerthSt.changing, noReset, snaps, still]
    rcases day with life | life <;> simp [life]
  unfold State.writeDusk
  rw [begins]
  refine (if_neg ?_).trans (if_neg (by simp [free]))
  rcases day with life | life <;> simp [life]

/-- A berth in dusk, its contexts abandoned, its streams disabled and its posts dropped. -/
def State.duskPosts (s : State) (b : Nat) : State :=
  let s := s.modBerth b fun x => { x with life := .dusk, wantDusk := false, wantReset := false }
  let s := forL ((s.ctxs.filter fun p => p.2.berth == b).map Prod.fst) s fun c t => t.abandonCtx b c
  let s := forN 16 s fun st t => if (t.strm b st).enable = 0 then t else t.disableStrm b st
  forL (s.berth b).dies s fun d t => t.modExch d fun x => { x with posts := [] }

theorem State.startDusk_eq (s : State) (b : Nat) : s.startDusk b = (s.duskPosts b).modFabric fun x => { x with
    windows := x.windows.map fun w => (w.1, if bitsOf w.2.toNat 8 4 = b then w.2 &&& ~~~1#128 else w.2) } := rfl

theorem State.duskPosts_life (s : State) (b : Nat) : ((s.duskPosts b).berth b).life = .dusk := by
  unfold State.duskPosts
  extract_lets t u v
  have begun : (t.berth b).life = .dusk := congrArg BerthSt.life (State.berth_modBerth ..)
  have left : (u.berth b).life = (t.berth b).life :=
    forL_keeps (fun x : State => (x.berth b).life) _ t _ fun c x => State.abandonCtx_keeps BerthSt.life b (fun _ _ _ => rfl)
      (fun _ _ _ => rfl) (fun _ _ => rfl) (fun _ _ => rfl) x b c
  have dark : v.berths = u.berths := by
    refine forN_keeps State.berths _ _ _ fun st x => ?_
    split <;> rfl
  rw [State.berth_congr (forL_keeps State.berths _ v _ fun d x => State.modExch_berths ..) b, State.berth_congr dark b, left, begun]

/-- A berth whose dusk begins is in dusk. -/
theorem State.startDusk_life (s : State) (b : Nat) : ((s.startDusk b).berth b).life = .dusk := by
  rw [State.startDusk_eq, State.berth_congr (State.modFabric_berths ..)]
  exact State.duskPosts_life s b

/-- A window entry as a dusk of berth `b` leaves it. -/
theorem window_after_dusk (w : BitVec 128) (b : Nat)
    (mine : bitsOf (if bitsOf w.toNat 8 4 = b then w &&& ~~~1#128 else w).toNat 8 4 = b) :
    (if bitsOf w.toNat 8 4 = b then w &&& ~~~1#128 else w).getLsbD 0 = false := by
  by_cases named : bitsOf w.toNat 8 4 = b
  · rw [if_pos named]
    simp
  · rw [if_neg named] at mine
    exact absurd mine named

/-- A dusk that begins leaves no valid window of its berth. -/
theorem State.startDusk_windows (s : State) (b : Nat) :
    ∀ w ∈ (s.startDusk b).fabric.windows, bitsOf w.2.toNat 8 4 = b → w.2.getLsbD 0 = false := by
  rw [State.startDusk_eq]
  generalize s.duskPosts b = t
  intro w inside mine
  obtain ⟨x, -, same⟩ := List.mem_map.1 inside
  rw [← same] at mine ⊢
  exact window_after_dusk x.2 b mine

/-- The state at the end of a dusk, but for the tables that the berth leaves. -/
def State.duskCleared (s : State) (b : Nat) : State :=
  (((forN 30 (forL (s.berth b).dies s fun d t => t.clearDie d) fun j t =>
    if (t.mb (98 + j)).assigned = some b then
      (t.modMb (98 + j) fun y => { y with assigned := none }).mbAnswer (98 + j) 0x0748 0
    else t).operatorEvent b 0x07E2 0 0).berthBlank b).berthDefaults b []

theorem duskDone_next (dusk : (s.berth b).life = .dusk) (empty : (s.berth b).queues = []) : exec (.duskDone b) s = .next
    { s.duskCleared b with
      berths := tdel (s.duskCleared b).berths b, ctxs := (s.duskCleared b).ctxs.filter fun p => p.2.berth != b,
      fw := { (s.duskCleared b).fw with berth := tdel (s.duskCleared b).fw.berth b } } :=
  congrArg Host.Outcome.next (if_neg (by simp [dusk, empty]))

end

theorem State.raises_operatorEvent (s : State) (b code x y : Nat) : Raises s (s.operatorEvent b code x y) code [b, x, y] := by
  unfold State.operatorEvent
  extract_lets t
  obtain ⟨l, out⟩ := (State.noticeTo_frame s 0 code b t x y [] .out).2
  refine ⟨l ++ { kind := .event, port := code, args := [b, x, y] } :: s.eventMsgs code b t x y [] false, ?_, _,
    List.mem_append_right _ List.mem_cons_self, rfl, rfl, rfl⟩
  simp only [State.emit, State.emits, ← out]
  simp

theorem State.clearDies_frame (l : List Nat) (s : State) :
    Change [.mem, .chans, .cores] s (forL l s fun d t => t.clearDie d) :=
  Change.forL Change.refl fun d _ j => j.tr (State.clearDie_frame _ d) rfl

theorem State.unassign_frame (n b : Nat) (s : State) : Change [.out, .mbox] s (forN n s fun j t =>
    if (t.mb (98 + j)).assigned = some b then
      (t.modMb (98 + j) fun y => { y with assigned := none }).mbAnswer (98 + j) 0x0748 0
    else t) :=
  Change.forN Change.refl fun _ _ j => Change.ite ((j.tr (State.modMb_frame _ _ _) rfl).tr (State.mbAnswer_frame _ _ _ _) rfl) j

/-- What the end of a dusk clears leaves its dies blank, and is told. -/
theorem State.duskCleared_frame (s : State) (b : Nat) :
    (s.duskCleared b).mem = (forL (s.berth b).dies s fun d t => t.clearDie d).mem ∧ (s.duskCleared b).segs = s.segs ∧
      Raises s (s.duskCleared b) 0x07E2 [b, 0, 0] := by
  unfold State.duskCleared
  have cleared := State.clearDies_frame (s.berth b).dies s
  generalize (forL (s.berth b).dies s fun d t => t.clearDie d) = t at cleared
  have boxes := State.unassign_frame 30 b t
  generalize forN 30 t _ = u at boxes
  have told := State.operatorEvent_frame u b 0x07E2 0 0
  have raised := State.raises_operatorEvent u b 0x07E2 0 0
  generalize u.operatorEvent b 0x07E2 0 0 = v at told raised
  have blank := State.berthBlank_frame v b
  have plain := State.berthDefaults_frame (v.berthBlank b) b []
  refine ⟨?_, ?_, (raised.after (cleared.grows.trans boxes.grows)).grow (blank.grows.trans plain.grows)⟩
  · exact (plain.frame .mem (by decide)).trans ((blank.frame .mem (by decide)).trans
      ((told.frame .mem (by decide)).trans (boxes.frame .mem (by decide))))
  · exact (plain.frame .segs (by decide)).trans ((blank.frame .segs (by decide)).trans
      ((told.frame .segs (by decide)).trans ((boxes.frame .segs (by decide)).trans (cleared.frame .segs (by decide)))))

/-! Shrinks. -/

section
variable {s : State} {b : Nat}

/-- The pending limits of a berth's dies. -/
def State.dueLimits (s : State) (b : Nat) : List (Nat × Nat) :=
  (s.berth b).dies.filterMap fun d => (s.stack d).pending.map fun p => (d, p)

/-- One pending limit becomes the grant, where no carve-out lies above it (R427). -/
def State.grantLimit (b : Nat) (p : Nat × Nat) (t : State) : State :=
  if t.carvedAbove p.1 p.2 then t else (t.modStack p.1 fun y => { y with limit := min y.limit p.2 }).emptySlots b

theorem State.mem_dueLimits {d p : Nat} : (d, p) ∈ s.dueLimits b ↔ d ∈ (s.berth b).dies ∧ (s.stack d).pending = some p := by
  unfold State.dueLimits
  simp only [List.mem_filterMap, Option.map_eq_some_iff, Prod.mk.injEq]
  constructor
  · rintro ⟨_, inside, _, pending, rfl, rfl⟩
    exact ⟨inside, pending⟩
  · rintro ⟨inside, pending⟩
    exact ⟨d, inside, p, pending, rfl, rfl⟩

theorem writeShrink_free (present : (s.berth b).life ≠ .absent)
    (free : ∀ x ∈ s.dueLimits b, ∀ m ∈ (s.berth b).maps, s.mapsRange m (stackBase x.1 + x.2) (0x1000000000 - x.2) = false) :
    s.writeShrink b = (0, forL (s.dueLimits b) s (State.grantLimit b)) := by
  have clear : ¬((s.dueLimits b).any fun p => (s.berth b).maps.any fun m =>
      s.mapsRange m (stackBase p.1 + p.2) (0x1000000000 - p.2)) = true := by
    simpa using fun d p due m mapped => free (d, p) due m mapped
  exact (if_neg present).trans (if_neg clear)

theorem State.carvedAbove_congr {t : State} (segs : t.segs = s.segs) (berths : t.berths = s.berths) (dict : t.dict = s.dict)
    (d lo : Nat) : t.carvedAbove d lo = s.carvedAbove d lo := by
  have seg : ∀ k, t.seg k = s.seg k := fun k => by rw [State.seg, segs, State.seg]
  have area : ∀ b, t.snapArea b = s.snapArea b := fun b => by
    unfold State.snapArea State.setting
    rw [dict]
  unfold State.carvedAbove
  simp only [seg, area, State.berth_congr berths]

/-- The limits that fall due below no carve-out are granted, the others' stacks stay. -/
theorem State.grantLimits_stack (l : List (Nat × Nat)) (s : State) (b : Nat)
    (free : ∀ x ∈ l, s.carvedAbove x.1 x.2 = false) (d p : Nat) (same : ∀ x ∈ l, x.1 = d → x.2 = p) :
    (forL l s (State.grantLimit b)).stack d =
      if l.any (fun x => x.1 == d) then { s.stack d with limit := min (s.stack d).limit p } else s.stack d := by
  induction l generalizing s with
  | nil => rfl
  | cons e r ih =>
    have taken : State.grantLimit b e s = (s.modStack e.1 fun y => { y with limit := min y.limit e.2 }).emptySlots b :=
      if_neg (by simp [free e List.mem_cons_self])
    have rest : ∀ x ∈ r, (State.grantLimit b e s).carvedAbove x.1 x.2 = false := fun x inside => by
      rw [taken]
      refine (State.carvedAbove_congr (s := s) rfl rfl rfl x.1 x.2).trans ?_
      exact free x (List.mem_cons_of_mem e inside)
    rw [forL_cons, ih _ rest fun x inside => same x (List.mem_cons_of_mem e inside), List.any_cons]
    by_cases here : e.1 = d
    · have limit : e.2 = p := same e List.mem_cons_self here
      have stack : (State.grantLimit b e s).stack d = { s.stack d with limit := min (s.stack d).limit p } := by
        rw [taken, ← here, ← limit]
        exact tget_tset_self s.hbm {} e.1 _
      rw [stack]
      simp [here]
    · have stack : (State.grantLimit b e s).stack d = s.stack d := by
        rw [taken]
        exact tget_tset_other _ _ _ (Ne.symm here)
      rw [stack, beq_false_of_ne here, Bool.false_or]

end

theorem berthsAreResetAndEnded : BerthsAreResetAndEnded := by
  refine fun s b => ⟨fun up active => ?reset, fun up resetting => ?merge, fun up changing => ?wait, fun up gone => ?refuse,
    fun resetting noReset noDusk => ?resetDone, fun up present day planned => ?planned,
    fun up day noReset free still => ?dusk, fun dusk => ?grace, fun dusk empty => ?duskDone, fun dusk busy => ?duskWaits,
    fun up present due => ?shrink⟩
  case reset =>
    have run : exec (.berthResetRequest b) s = .next _ :=
      congrArg Host.Outcome.next (State.berthCmd_next up (askReset_active active))
    obtain ⟨life, waits⟩ := State.startReset_begun (s.modBerth b fun x => { x with wantReset := true }) b
    refine ⟨_, run, ?_, ?_, answers_emit ..⟩
    · rw [State.emit_berth]
      exact life
    · rw [State.emit_berth]
      exact waits
  case merge =>
    exact ⟨_, congrArg Host.Outcome.next (State.berthCmd_next up (askReset_resetting resetting)), rfl, answers_emit ..⟩
  case wait =>
    have run : exec (.berthResetRequest b) s = .next _ :=
      congrArg Host.Outcome.next (State.berthCmd_next up (askReset_changing changing))
    have asked := State.berth_modBerth (s := s) b fun x => { x with wantReset := true }
    exact ⟨_, run, (congrArg BerthSt.life asked :), (congrArg BerthSt.wantReset asked :), answers_emit ..⟩
  case refuse =>
    exact ⟨_, congrArg Host.Outcome.next (State.berthCmd_next up (askReset_refused gone)), rfl, answers_emit ..⟩
  case resetDone =>
    have run := berthResetDone_next resetting
    have berths : (s.clearLocal b).berths = s.berths := State.clearLocal_kept State.berths (fun _ _ _ => rfl) s b
    have mem : (s.clearLocal b).mem = s.mem := State.clearLocal_kept State.mem (fun _ _ _ => rfl) s b
    have out : (s.clearLocal b).out = s.out := State.clearLocal_kept State.out (fun _ _ _ => rfl) s b
    have lm : ∀ d ∈ (s.berth b).dies, ∀ c < 16, ((s.clearLocal b).core (16 * d + c)).lm = {} := fun d inside c below =>
      State.clearDieCores_lm _ s (.inr ⟨d, inside, c, below, rfl⟩)
    generalize s.clearLocal b = t at run berths mem out lm
    have berth : ((t.modBerth b fun x => { x with life := .active }).berth b) = { s.berth b with life := .active } := by
      rw [State.berth_modBerth, State.berth_congr berths]
    have cores : ∀ k, (t.modBerth b fun x => { x with life := .active }).core k = t.core k := fun _ => rfl
    have mem' : (t.modBerth b fun x => { x with life := .active }).mem = s.mem := mem
    have out' : (t.modBerth b fun x => { x with life := .active }).out = s.out := out
    generalize (t.modBerth b fun x => { x with life := .active }) = u at run berth cores mem' out'
    have told := State.berthEvent_frame u b 0x07E0 0 0 []
    have raised := (State.raises_berthEvent u b 0x07E0 0 0 []).of_out_eq out'
    have left : (u.berthEvent b 0x07E0 0 0).berth b = { s.berth b with life := .active } :=
      (State.berth_congr (told.frame .berths (by decide)) b).trans berth
    have cores' : (u.berthEvent b 0x07E0 0 0).cores = u.cores := told.frame .cores (by decide)
    have mem'' : (u.berthEvent b 0x07E0 0 0).mem = u.mem := told.frame .mem (by decide)
    generalize u.berthEvent b 0x07E0 0 0 = v at run raised left cores' mem''
    rw [State.nextMode_idle (by rw [left]; exact noReset) (by rw [left]; exact noDusk)] at run
    refine ⟨v, run, by rw [left], by rw [left], fun d inside c below => ?_, mem''.trans mem', raised⟩
    rw [State.core, cores', ← State.core, cores]
    exact lm d inside c below
  case planned =>
    exact ⟨_, congrArg Host.Outcome.next (State.berthCmd_next up (writeDusk_planned present day planned)), rfl, answers_emit ..⟩
  case dusk =>
    have run : exec (.berthDusk b) s = .next _ :=
      congrArg Host.Outcome.next (State.berthCmd_next up (writeDusk_begins day noReset free still))
    refine ⟨_, run, ?_, answers_emit .., ?_⟩
    · rw [State.emit_berth]
      exact State.startDusk_life ..
    · rw [State.emit_fabric]
      exact State.startDusk_windows _ b
  case grace =>
    refine ⟨_, congrArg Host.Outcome.next (if_neg (by simp [dusk])), fun p inside mine => ?_⟩
    obtain ⟨x, -, rfl⟩ := List.mem_map.1 inside
    by_cases named : x.2.berth = b
    · rw [if_pos named]
    · rw [if_neg named] at mine
      exact absurd mine named
  case duskDone =>
    obtain ⟨mem, segs, raised⟩ := State.duskCleared_frame s b
    have run := duskDone_next dusk empty
    generalize s.duskCleared b = t at run mem segs raised
    refine ⟨_, run, tget_tdel_self .., raised, fun c inside => ?_, fun d inside a home none clean => ?_⟩
    · simpa using (List.mem_filter.1 inside).2
    · have blank : t.DieBlank d :=
        (State.dieBlank_forL (fun d t => ⟨rfl, State.clearDie_segs t d⟩) (s.berth b).dies s d inside).of_same mem
          (segs.trans (State.clearDies_segs (s.berth b).dies s).symm)
      exact blank.byte home ((State.segOf_of_segs segs a).trans none) clean
  case duskWaits =>
    exact congrArg Host.Outcome.next (if_pos (.inr (by simpa using busy)))
  case shrink =>
    have run : exec (.shrinkAcknowledge b) s = .next _ := congrArg Host.Outcome.next (State.berthCmd_next up
      (writeShrink_free present fun x inside => (due x.1 (State.mem_dueLimits.1 inside).1 x.2 (State.mem_dueLimits.1 inside).2).2))
    have granted := fun d p same => State.grantLimits_stack (s.dueLimits b) s b
      (fun x inside => (due x.1 (State.mem_dueLimits.1 inside).1 x.2 (State.mem_dueLimits.1 inside).2).1) d p same
    generalize forL (s.dueLimits b) s (State.grantLimit b) = t at run granted
    refine ⟨_, run, answers_emit .., fun d inside p pending => ?_, fun d outside => ?_⟩
    · have all := granted d p fun x mine here => by
        have own := (State.mem_dueLimits.1 mine).2
        rw [here, pending] at own
        exact (Option.some.inj own).symm
      rw [if_pos (List.any_eq_true.2 ⟨(d, p), State.mem_dueLimits.2 ⟨inside, pending⟩, by simp⟩)] at all
      exact congrArg StackSt.limit all
    · have none : ∀ x ∈ s.dueLimits b, x.1 ≠ d := fun x mine here => outside (here ▸ (State.mem_dueLimits.1 mine).1)
      have all := granted d 0 fun x mine here => absurd here (none x mine)
      rw [if_neg (by simpa using fun x mine => none (d, x) mine rfl)] at all
      exact all

/-- Settles O22: cleared dies are blank by `State.clearDie_mem`; a mode ends in `State.nextMode`, which is idle where neither a
reset nor a dusk waits; what abandoned contexts leave of a berth is `State.abandonCtx_keeps`. -/
theorem berthsComeAndGo : Obligations.BerthsComeAndGo := ⟨berthsAreCreatedAndResized, berthsAreResetAndEnded⟩

end Sys2Proof.Machine
end

section
/-!
Segments that are shared and restored (14 R431-R435), and units that are fenced (14 R440, 17 R528).
-/

namespace Sys2Proof.Machine

/-! Copies of segments. -/

theorem cellGet_cellDel_other (c : List Host.Cell) {a x : Nat} (other : x ≠ a) : cellGet (cellDel c a) x = cellGet c x := by
  induction c with
  | nil => rfl
  | cons p r ih =>
    obtain ⟨k, v⟩ := p
    rw [cellDel]
    split
    · next here => rw [cellGet, if_neg fun same => other (same.symm.trans here)]
    · rw [cellGet, cellGet, ih]

theorem cellGet_cellPut_other (c : List Host.Cell) {a x : Nat} (b : Byte) (other : x ≠ a) :
    cellGet (cellPut c a b) x = cellGet c x := by
  unfold cellPut
  split
  · exact cellGet_cellDel_other c other
  · rw [cellGet_cellIns, if_neg other]

/-- A copy changes its destination alone. -/
theorem Store.copy_other (st : Store) {src dst n a : Nat} (outside : a < dst ∨ dst + n ≤ a) :
    cellGet (st.copy src dst n).cells a = cellGet st.cells a := by
  unfold Store.copy
  extract_lets here c
  have start : cellGet c.cells a = cellGet st.cells a := cellGet_cellsClear st.cells dst (dst + n) a outside
  have steps : ∀ (l : List Host.Cell) (cells : List Host.Cell), (∀ p ∈ l, here p.1 = true) →
      cellGet (l.foldl (fun c p => cellPut c (p.1 - src + dst) p.2) cells) a = cellGet cells a := by
    intro l
    induction l with
    | nil => exact fun _ _ => rfl
    | cons p r ih =>
      intro cells all
      have inside : src ≤ p.1 ∧ p.1 < src + n := by simpa [here] using all p List.mem_cons_self
      rw [List.foldl_cons, ih _ fun q later => all q (List.mem_cons_of_mem p later)]
      exact cellGet_cellPut_other cells p.2 (by omega)
  exact (steps _ _ fun p kept => (List.mem_filter.1 kept).2).trans start

section
variable {s : State} {k b : Nat}

/-- A write to a segment's `CMD` while the dictionary answers. -/
theorem State.segCmd_next (up : DictUp s) {f : State → Nat × State} {code : Nat} {t : State} (done : f s = (code, t)) :
    s.byDict (0x4200 + k) 2 f = t.emit { kind := .answer, port := entryKey (0x4200 + k) 2, args := [code] } := by
  rw [State.byDict_of_up up, done]

theorem segDefine_accepted (empty : (s.seg k).st = 0)
    (sized : s.setting (0x4200 + k) 3 0 ≠ 0 ∧ s.setting (0x4200 + k) 3 0 ≤ 2 ^ 35 ∧ s.setting (0x4200 + k) 3 0 % 0x200000 = 0)
    (places : s.segPlace (s.setting (0x4200 + k) 4 0) (s.setting (0x4200 + k) 3 0) = true ∧
      s.segPlace (s.setting (0x4200 + k) 5 0) (s.setting (0x4200 + k) 3 0) = true)
    (apart : s.setting (0x4200 + k) 4 0 / 0x1000000000 ≠ s.setting (0x4200 + k) 5 0 / 0x1000000000) :
    s.segDefine k = (0, s.modSeg k fun _ =>
      { st := 1, bytes := s.setting (0x4200 + k) 3 0, primary := s.setting (0x4200 + k) 4 0,
        shadow := s.setting (0x4200 + k) 5 0 }) := by
  obtain ⟨some, small, whole⟩ := sized
  obtain ⟨primary, shadow⟩ := places
  refine (if_neg (by simp [empty])).trans (if_neg ?_)
  rintro (none | large | ragged | misplaced | misplaced' | close)
  · exact some none
  · exact Nat.not_lt.2 small large
  · exact ragged whole
  · simp [primary] at misplaced
  · simp [shadow] at misplaced'
  · exact apart close

/-- The state with a degraded segment whole again on its survivor and `w` (R435). -/
def State.reshadowed (s : State) (k w : Nat) : State :=
  ((({ s with mem := s.mem.copy (s.seg k).survivor w (s.seg k).bytes }).modSeg k fun x =>
    { x with st := 2, primary := (s.seg k).survivor, shadow := w, reshadow := none, primaryLost := false }).putSetting
      (0x4200 + k) 4 (s.seg k).survivor).putSetting (0x4200 + k) 5 w

theorem reshadowDone_next {w : Nat} (degraded : (s.seg k).st = 3) (copying : (s.seg k).reshadow = some w) :
    exec (.reshadowDone k []) s = .next (s.reshadowed k w) := by
  refine congrArg Host.Outcome.next ?_
  simp only [copying]
  exact if_neg (by simp [degraded])

theorem reshadowDone_idle (idle : (s.seg k).reshadow = none) (bad : List Nat) : exec (.reshadowDone k bad) s = .next s := by
  refine congrArg Host.Outcome.next ?_
  simp only [idle]

theorem writeJoin_accepted {bits : BitVec 64} (present : (s.berth b).life ≠ .absent)
    (loaded : ∀ i < 64, bits.getLsbD i = true → (s.berth b).segs.getLsbD i = false → (s.seg i).st = 2 ∨ (s.seg i).st = 3)
    (unmapped : ∀ i < 64, (s.berth b).segs.getLsbD i = true → bits.getLsbD i = false → ∀ m ∈ (s.berth b).maps,
      s.mapsRange m (s.seg i).primary (s.seg i).bytes = false ∧ s.mapsRange m (s.seg i).shadow (s.seg i).bytes = false) :
    s.writeJoin b bits = (0, (s.modBerth b fun y => { y with segs := bits }).putSetting 0x400A (b + 1) bits.toNat) := by
  refine (if_neg ?_).trans (if_neg ?_)
  · rintro (absent | strange)
    · exact present absent
    · obtain ⟨i, below, joins⟩ := List.any_eq_true.1 strange
      simp only [Bool.and_eq_true, Bool.not_eq_true', Bool.or_eq_false_iff, beq_eq_false_iff_ne] at joins
      obtain ⟨⟨new, old⟩, notSealed, notDegraded⟩ := joins
      exact (loaded i (List.mem_range.1 below) new old).elim notSealed notDegraded
  · intro strange
    obtain ⟨i, below, leaves⟩ := List.any_eq_true.1 strange
    simp only [Bool.and_eq_true, Bool.not_eq_true'] at leaves
    obtain ⟨⟨old, gone⟩, mapped⟩ := leaves
    have free := unmapped i (List.mem_range.1 below) old gone
    simp only [Bool.or_eq_true, List.any_eq_true] at mapped
    obtain ⟨m, inside, hit | hit⟩ := mapped
    · exact absurd ((free m inside).1.symm.trans hit) (by decide)
    · exact absurd ((free m inside).2.symm.trans hit) (by decide)

end

theorem segmentsAreSharedAndRestored : SegmentsAreSharedAndRestored := by
  refine fun s k b n p w bits up => ⟨fun empty size primary shadow some small whole place place' apart => ?define,
    fun used => ?defined, fun loading => ?sealing, fun other => ?unsealed, fun used free => ?delete, fun used joined => ?kept,
    fun degraded idle shadow place apart => ?reshadow, fun degraded copying => ?restored, fun idle => reshadowDone_idle idle [],
    fun present loaded unmapped => ?join⟩
  case define =>
    subst size primary shadow
    have run : exec (.segDefine k) s = .next _ := congrArg Host.Outcome.next
      (State.segCmd_next up (segDefine_accepted empty ⟨some, small, whole⟩ ⟨place, place'⟩ apart))
    exact ⟨_, run, tget_tset_self .., answers_emit .., rfl⟩
  case defined =>
    have refused : s.segDefine k = (0x07C0, s) := if_pos used
    exact ⟨_, congrArg Host.Outcome.next (State.segCmd_next up refused), rfl, answers_emit ..⟩
  case sealing =>
    have accepted : s.segSeal k = (0, s.modSeg k fun g => { g with st := 2 }) := if_neg (by simp [loading])
    have run : exec (.segSeal k) s = .next _ := congrArg Host.Outcome.next (State.segCmd_next up accepted)
    exact ⟨_, run, tget_tset_self .., answers_emit ..⟩
  case unsealed =>
    have refused : s.segSeal k = (0x07C0, s) := if_pos other
    exact ⟨_, congrArg Host.Outcome.next (State.segCmd_next up refused), rfl, answers_emit ..⟩
  case delete =>
    have accepted : s.segDelete k = (0, { s with segs := tdel s.segs k }) := (if_neg used).trans (if_neg (by simp [free]))
    have run : exec (.segDelete k) s = .next _ := congrArg Host.Outcome.next (State.segCmd_next up accepted)
    exact ⟨_, run, tget_tdel_self .., answers_emit ..⟩
  case kept =>
    have refused : s.segDelete k = (0x07C9, s) := (if_neg used).trans (if_pos joined)
    exact ⟨_, congrArg Host.Outcome.next (State.segCmd_next up refused), rfl, answers_emit ..⟩
  case reshadow =>
    subst shadow
    have accepted : s.segReshadow k = (0, s.modSeg k fun x => { x with reshadow := some (s.setting (0x4200 + k) 5 0) }) :=
      (if_neg (by simp [degraded, idle])).trans (if_neg (by simp [place, apart]))
    have run : exec (.segReshadow k) s = .next _ := congrArg Host.Outcome.next (State.segCmd_next up accepted)
    have copied := State.seg_modSeg (s := s) k fun x => { x with reshadow := some (s.setting (0x4200 + k) 5 0) }
    exact ⟨_, run, (congrArg SegSt.reshadow copied :), (congrArg SegSt.st copied :).trans degraded, answers_emit ..⟩
  case restored =>
    have seg : (s.reshadowed k w).seg k =
        { s.seg k with st := 2, primary := (s.seg k).survivor, shadow := w, reshadow := none, primaryLost := false } :=
      tget_tset_self ..
    exact ⟨_, reshadowDone_next degraded copying, congrArg SegSt.st seg, congrArg SegSt.primary seg, congrArg SegSt.shadow seg,
      congrArg SegSt.reshadow seg, fun a outside => Store.copy_other s.mem outside⟩
  case join =>
    have run : exec (.segmentJoinWrite b bits) s = .next _ := congrArg Host.Outcome.next
      ((State.byDict_of_up up ..).trans (by rw [writeJoin_accepted present loaded unmapped]))
    exact ⟨_, run, congrArg BerthSt.segs (State.berth_modBerth (s := s) b fun y => { y with segs := bits }), answers_emit ..⟩

/-! Fences. -/

section
variable {s : State}

theorem State.addDefect_fenced (s : State) (e : DefectEnt) :
    (s.addDefect e).defects.fenced = s.defects.fenced ∧ (s.addDefect e).defects.fencedFds = s.defects.fencedFds := by
  unfold State.addDefect
  extract_lets x d
  split
  · exact ⟨rfl, rfl⟩
  · split
    · exact ⟨rfl, rfl⟩
    · have kept := (State.moduleEvent_frame { s with defects := { d with running := d.running ++ [x] } } 0x098C 0 0 []).frame
        .defects (by decide)
      exact ⟨congrArg (·.fenced) kept, congrArg (·.fencedFds) kept⟩

/-- An entry that is entered while a lockkeeper runs is carried out. -/
theorem State.fence_eq (active : s.lk.active ≠ none) (e : DefectEnt) : s.fence e = (s.addDefect e).applyFence e :=
  if_pos (Option.isSome_iff_ne_none.2 active)

/-- The fence of a die up to the berth that owns it. -/
def State.announceFence (s : State) (d : Nat) : State :=
  (({ s with defects := { s.defects with fenced := s.defects.fenced ++ [d] } }).moduleEvent 0x0984 d 9).memberLost d

/-- The state with a berth's stop and fault told, where there is one. -/
def State.faultOwner (s : State) (d : Nat) : Option Nat → State
  | some b => s.faultBerth b d
  | none => s

theorem State.fenceDie_eq {d : Nat} (fresh : d ∉ s.defects.fenced) : s.fenceDie d =
    (((s.announceFence d).faultOwner d (s.berthOfDie d)).segsLost d).nextMode ((s.berthOfDie d).getD 24) := by
  unfold State.fenceDie
  rw [if_neg (by simpa using fresh)]
  cases s.berthOfDie d <;> rfl

theorem State.faultBerth_life (s : State) (b d : Nat) :
    (((s.faultBerth b d).berth b).life = .faulted ∨ ((s.faultBerth b d).berth b).life = .dusk) ∧
      ((s.faultBerth b d).berth b).wantReset = false := by
  unfold State.faultBerth
  extract_lets head t u v w
  clear_value w
  have left : ∀ {α : Type} (g : BerthSt → α), g ((((w.modBerth b fun x =>
      { x with life := if x.life = .dusk then .dusk else .faulted, wantReset := false }).berthEvent b 0x07E1 d 0)).berth b) =
        g { w.berth b with life := if (w.berth b).life = .dusk then .dusk else .faulted, wantReset := false } := fun g =>
    (State.berthEvent_keeps g b ..).trans (congrArg g (State.berth_modBerth ..))
  refine ⟨?_, left BerthSt.wantReset⟩
  rw [left BerthSt.life]
  by_cases dusk : (w.berth b).life = .dusk
  · exact .inr (if_pos dusk)
  · exact .inl (if_neg dusk)

/-- A berth that is faulted or in dusk, and waits for no reset, stays so. -/
theorem State.nextMode_faulted {b : Nat} (life : (s.berth b).life = .faulted ∨ (s.berth b).life = .dusk)
    (noReset : (s.berth b).wantReset = false) :
    ((s.nextMode b).berth b).life = .faulted ∨ ((s.nextMode b).berth b).life = .dusk := by
  unfold State.nextMode
  extract_lets x
  split
  · exact life
  · split
    · next waits => exact absurd waits (by simp [x, noReset])
    · split
      · exact .inr (State.startDusk_life s b)
      · exact life

theorem fenceDie_told {d : Nat} (fresh : d ∉ s.defects.fenced) : Raises s (s.fenceDie d) 0x0984 [0xFF, d, 9] := by
  rw [State.fenceDie_eq fresh]
  let t : State := { s with defects := { s.defects with fenced := s.defects.fenced ++ [d] } }
  have told : Raises s (t.moduleEvent 0x0984 d 9) 0x0984 [0xFF, d, 9] := (State.raises_moduleEvent t 0x0984 d 9 []).of_out_eq rfl
  have faults : (s.announceFence d).out <+: ((s.announceFence d).faultOwner d (s.berthOfDie d)).out := by
    cases s.berthOfDie d with
    | none => exact List.prefix_rfl
    | some b => exact (State.faultBerth_frame _ _ _).grows
  exact told.grow ((State.memberLost_frame _ _).grows.trans
    (faults.trans ((State.segsLost_frame _ _).grows.trans (State.nextMode_frame _ _).grows)))

theorem fenceDie_listed {d : Nat} (fresh : d ∉ s.defects.fenced) : d ∈ (s.fenceDie d).defects.fenced := by
  rw [State.fenceDie_eq fresh]
  have faults : ((s.announceFence d).faultOwner d (s.berthOfDie d)).defects = (s.announceFence d).defects := by
    cases s.berthOfDie d with
    | none => rfl
    | some b => exact (State.faultBerth_frame _ _ _).frame .defects (by decide)
  have listed : (s.announceFence d).defects = { s.defects with fenced := s.defects.fenced ++ [d] } :=
    ((State.memberLost_frame _ _).frame .defects (by decide)).trans ((State.moduleEvent_frame _ _ _ _ _).frame .defects (by decide))
  rw [(State.nextMode_frame _ _).frame .defects (by decide), (State.segsLost_frame _ _).frame .defects (by decide), faults, listed]
  exact List.mem_append_right _ (List.mem_singleton_self d)

theorem fenceDie_faults {d b : Nat} (fresh : d ∉ s.defects.fenced) (owner : s.berthOfDie d = some b) :
    ((s.fenceDie d).berth b).life = .faulted ∨ ((s.fenceDie d).berth b).life = .dusk := by
  rw [State.fenceDie_eq fresh, owner]
  obtain ⟨life, noReset⟩ := State.faultBerth_life (s.announceFence d) b d
  have lost := State.berth_congr ((State.segsLost_frame ((s.announceFence d).faultBerth b d) d).frame .berths (by decide)) b
  rw [State.faultOwner, Option.getD_some]
  exact State.nextMode_faulted (by rw [lost]; exact life) (by rw [lost]; exact noReset)

/-! Fabric dies. -/

/-- A port that is lost leaves the life of every other. -/
theorem State.portLost_life_other (s : State) {p q : Nat} (other : q ≠ p) (life : LinkLife) (quiet : Bool) :
    ((s.portLost p life quiet).link q).life = (s.link q).life := by
  unfold State.portLost
  extract_lets was held t t1
  have lost : t.link q = s.link q := State.link_modLink_other s _ other
  have told : t1.link q = s.link q := by
    unfold t1
    split
    · exact lost
    · rw [State.moduleEvent_link, lost]
  split
  · rw [lost]
  · split
    · rw [told]
    · rename_i k _
      refine (forL_keeps (fun u : State => (u.link q).life) _ _ _ fun f u =>
        State.resendFrame_keeps (·.life) q (fun _ _ _ _ _ _ => rfl) u k f).trans ?_
      split
      · exact (congrArg LinkSt.life (State.moduleEvent_link t1 _ _ _ _ q)).trans (congrArg LinkSt.life told)
      · rw [told]

/-- A fabric die that leaves service takes its link ports down. -/
theorem State.fdDown_links (s : State) (k : Nat) :
    (∀ p ∈ fdLinks k, ((s.fdDown k).link p).life = .down) ∧ (tget (s.fdDown k).fabric.fds {} k).up = false := by
  unfold State.fdDown
  extract_lets t u v
  refine ⟨fun p inside => ?_, congrArg FdSt.up (tget_tset_self ..)⟩
  have down : (t.link p).life = .down :=
    forL_establishes (fun p (w : State) => (w.link p).life = .down) (fun p w => State.portLost_life w p .down false)
      (fun p q w down => by
        by_cases same : p = q
        · rw [same, State.portLost_life]
        · rw [State.portLost_life_other w same, down]) (fdLinks k) s p inside
  have host : u.fabric = t.fabric := by
    unfold u
    split
    · exact (State.modPort_frame _ _ _).frame .fabric (by decide)
    · rfl
  have basins : v.fabric = u.fabric := forL_keeps State.fabric _ _ _ fun _ _ => rfl
  have kept : v.link p = t.link p := State.link_of_fabric (basins.trans host) p
  exact (congrArg LinkSt.life kept).trans down

/-- A fabric die that is fenced, its attachments dropped. -/
theorem fenceFd_done {k : Nat} (fresh : k ∉ s.defects.fencedFds) :
    k ∈ (s.fenceFd k).defects.fencedFds ∧ (tget (s.fenceFd k).fabric.fds {} k).up = false ∧
      (∀ p ∈ fdLinks k, ((s.fenceFd k).link p).life = .down) ∧ Raises s (s.fenceFd k) 0x098E [0xFF, 24 + k, 0] := by
  unfold State.fenceFd
  rw [if_neg (by simpa using fresh)]
  extract_lets x t u
  have fenced : u.defects = t.defects := (State.fdDown_frame _ _).frame .defects (by decide)
  have grows : t.out <+: u.out := (State.fdDown_frame _ _).grows
  obtain ⟨links, fd⟩ := State.fdDown_links t k
  let f := fun (a : Nat × Nat) (t : State) =>
    ({ t with defects := { t.defects with attach := tset t.defects.attach a.1 (t.attachments a.1 &&& (3 - 2 ^ a.2)) } } : State)
  let v := forL (fdAttach k) u f
  have fabric : v.fabric = u.fabric := forL_keeps State.fabric _ _ f fun _ _ => rfl
  have out : v.out = u.out := forL_keeps State.out _ _ f fun _ _ => rfl
  have listed : v.defects.fencedFds = u.defects.fencedFds := forL_keeps (fun t : State => t.defects.fencedFds) _ _ f fun _ _ => rfl
  have told := State.moduleEvent_frame v 0x098E (24 + k) 0 []
  have fabric' : (v.moduleEvent 0x098E (24 + k) 0).fabric = u.fabric := (told.frame .fabric (by decide)).trans fabric
  have defects' : (v.moduleEvent 0x098E (24 + k) 0).defects = v.defects := told.frame .defects (by decide)
  have raised := (State.raises_moduleEvent v 0x098E (24 + k) 0 []).of_out_eq out
  refine ⟨?_, ?_, fun p inside => ?_, raised.after grows⟩
  · exact (congrArg (fun x : DefectSt => k ∈ x.fencedFds) defects').mpr (by
      rw [listed, fenced]
      exact List.mem_append_right _ (List.mem_singleton_self k))
  · exact (congrArg (fun x : FabricSt => (tget x.fds {} k).up) fabric').trans fd
  · exact (congrArg LinkSt.life (State.link_of_fabric fabric' p)).trans (links p inside)

/-! Lockkeepers. -/

theorem fenceLk_done {die : Nat} (fresh : die ∉ s.lk.fenced) :
    (s.fenceLk die).lk = { s.lk with fenced := s.lk.fenced ++ [die], standby := 0 } ∧
      Raises s (s.fenceLk die) 0x0988 [0xFF, die, 0] := by
  unfold State.fenceLk
  rw [if_neg (by simpa using fresh)]
  extract_lets x t
  have first := State.moduleEvent_frame t 0x0984 die 0xB []
  exact ⟨(State.moduleEvent_lk ..).trans (State.moduleEvent_lk ..),
    ((State.raises_moduleEvent (t.moduleEvent 0x0984 die 0xB) 0x0988 die 0 []).after first.grows).of_out_eq rfl⟩

end

theorem fencesTakeUnitsOut : FencesTakeUnitsOut := by
  refine fun s die cause detail active => ⟨fun compute fresh => ?die, fun compute fenced => ?again,
    fun low high fresh => ?fabric, fun lockkeeper standby fresh => ?lockkeeper⟩
  case die =>
    let e : DefectEnt := { kind := 9, die := die, cause := cause, st := 2, detail := detail }
    have run : exec (.dieFence 9 die cause detail) s = .next ((s.addDefect e).fenceDie die) := by
      refine congrArg Host.Outcome.next ((if_pos (.inl ⟨rfl, compute, by simpa using fresh⟩)).trans ?_)
      exact State.fence_eq active e
    have listed := State.addDefect_frame s e
    have fresh' : die ∉ (s.addDefect e).defects.fenced := by
      rw [(State.addDefect_fenced s e).1]
      exact fresh
    have owner : (s.addDefect e).berthOfDie die = s.berthOfDie die := by
      unfold State.berthOfDie
      simp only [State.berth_congr (listed.frame .berths (by decide))]
    exact ⟨_, run, fenceDie_listed fresh', (fenceDie_told fresh').after listed.grows,
      fun b own => fenceDie_faults fresh' (owner.trans own)⟩
  case again =>
    refine congrArg Host.Outcome.next (if_neg ?_)
    rintro (⟨-, -, fresh⟩ | ⟨other, -⟩ | ⟨other, -⟩)
    · simp [fenced] at fresh
    · exact absurd other (by decide)
    · exact absurd other (by decide)
  case fabric =>
    let e : DefectEnt := { kind := 0xC, die := die, cause := cause, st := 2, detail := detail }
    have run : exec (.dieFence 0xC die cause detail) s = .next ((s.addDefect e).fenceFd (die - 24)) := by
      refine congrArg Host.Outcome.next ((if_pos (.inr (.inl ⟨rfl, low, high, by simpa using fresh⟩))).trans ?_)
      exact State.fence_eq active e
    have fresh' : die - 24 ∉ (s.addDefect e).defects.fencedFds := by
      rw [(State.addDefect_fenced s e).2]
      exact fresh
    obtain ⟨listed, fd, links, told⟩ := fenceFd_done fresh'
    rw [Nat.add_sub_cancel' low] at told
    exact ⟨_, run, listed, fd, links, told.after (State.addDefect_frame s e).grows⟩
  case lockkeeper =>
    let e : DefectEnt := { kind := 0xB, die := die, cause := cause, st := 2, detail := detail }
    have run : exec (.dieFence 0xB die cause detail) s = .next ((s.addDefect e).fenceLk die) := by
      refine congrArg Host.Outcome.next ((if_pos (.inr (.inr ⟨rfl, lockkeeper, standby, by simpa using fresh⟩))).trans ?_)
      exact State.fence_eq active e
    have same : (s.addDefect e).lk = s.lk := (State.addDefect_frame s e).frame .lk (by decide)
    obtain ⟨lk, told⟩ := fenceLk_done (s := s.addDefect e) (die := die) (by rw [same]; exact fresh)
    rw [same] at lk
    exact ⟨_, run, congrArg LkSt.fenced lk, congrArg LkSt.standby lk, (congrArg LkSt.active lk :),
      told.after (State.addDefect_frame s e).grows⟩

/-- Settles O23: a copy changes its destination alone by `Store.copy_other`; a fence enters its unit, tells it, and what follows
keeps the list. -/
theorem segmentsAndFences : Obligations.SegmentsAndFences := ⟨segmentsAreSharedAndRestored, fencesTakeUnitsOut⟩

end Sys2Proof.Machine
end

section
/-!
What notices leave of a function's registers, and a function's doorbells, barges and counters (15 R448, R463, R473, R474).
-/

namespace Sys2Proof.Machine

/-! What is kept of a function's registers by what may tell a host of something. -/

theorem State.fn_of_host {s t : State} (same : t.host = s.host) (f : Nat) : t.fn f = s.fn f := by
  rw [State.fn, same, State.fn]

section
variable {α : Type} (g : FnSt → α) (f : Nat)

theorem State.modFn_keeps (s : State) (i : Nat) {h : FnSt → FnSt} (blind : ∀ x, g (h x) = g x) :
    g ((s.modFn i h).fn f) = g (s.fn f) := by
  by_cases same : f = i
  · rw [same, State.fn_modFn, blind]
  · rw [State.fn_modFn_other s h same]

variable (notices : ∀ x t n l, g { x with ntcTail := t, nseq := n, ntcLost := l } = g x)
include notices

theorem State.noticeTo_fn (s : State) (i code b t x y : Nat) (p : Bytes) :
    g ((s.noticeTo i code b t x y p).fn f) = g (s.fn f) := by
  have rings : ∀ (u : State) m bits, g ((u.ring m bits).fn f) = g (u.fn f) := fun u m bits =>
    (congrArg g (State.fn_of_host ((State.ring_frame _ _ _).frame .host (by decide)) f) :)
  have lost : g ((s.modFn i fun x => { x with ntcLost := (x.ntcLost + 1) % 2 ^ 32, nseq := (x.nseq + 1) % 2 ^ 32 }).fn f) =
      g (s.fn f) := State.modFn_keeps g f s i fun z => notices z z.ntcTail _ _
  unfold State.noticeTo
  extract_lets fn n
  split
  · split
    · rw [rings]
      exact State.modFn_keeps g f (s.hostWrite _ n) i fun z => notices z _ _ z.ntcLost
    · rw [rings, lost]
  · rw [rings, lost]

theorem State.berthEvent_fn (s : State) (b code x y : Nat) (p : Bytes) :
    g ((s.berthEvent b code x y p).fn f) = g (s.fn f) :=
  (State.noticeTo_fn g f notices ..).trans (State.noticeTo_fn g f notices ..)

theorem State.moduleEvent_fn (s : State) (code x y : Nat) (p : Bytes) :
    g ((s.moduleEvent code x y p).fn f) = g (s.fn f) := State.noticeTo_fn g f notices ..

theorem State.memWrite_fn (s : State) (pa : Nat) (bs : Bytes) (m : Bool) : g ((s.memWrite pa bs m).fn f) = g (s.fn f) := by
  unfold State.memWrite
  extract_lets lost
  exact forL_keeps (fun u : State => g (u.fn f)) _ _ _ fun p u =>
    forL_keeps (fun u : State => g (u.fn f)) _ _ _ fun b v => State.berthEvent_fn g f notices ..

theorem State.homeStore_fn (s : State) (pa : Nat) (bs : Bytes) (m : Bool) : g ((s.homeStore pa bs m).fn f) = g (s.fn f) :=
  (congrArg g (State.fn_of_host ((State.wcbNote_frame _ _ _ _).frame .host (by decide)) f) :).trans
    (State.memWrite_fn g f notices ..)

theorem State.sendNumbered_fn (s : State) (r : ReqSt) (kind tc job die pa op : Nat) (p : Bytes) :
    g ((s.sendNumbered r kind tc job die pa op p).fn f) = g (s.fn f) := by
  unfold State.sendNumbered
  extract_lets key seq tag frame t
  split
  · exact State.moduleEvent_fn g f notices ..
  · unfold State.routeFrame
    extract_lets h
    split
    · rfl
    · split
      · rfl
      · exact (congrArg g (State.fn_of_host ((State.sendOnPort_frame _ _ _).frame .host (by decide)) f) :)

theorem State.unitWrite_fn (s : State) (b va : Nat) (bs : Bytes) (m : Bool) :
    g ((s.unitWrite b va bs m).fn f) = g (s.fn f) := by
  unfold State.unitWrite
  refine forL_keeps (fun u : State => g (u.fn f)) _ _ _ fun p t => ?_
  dsimp only
  split
  · split
    · exact (congrArg g (State.fn_of_host ((State.controlWrite_frame _ _ _ _ _).frame .host (by decide)) f) :)
    · exact State.homeStore_fn g f notices ..
  · exact forL_keeps (fun u : State => g (u.fn f)) _ _ _ fun q u => State.sendNumbered_fn g f notices ..
  · rfl

end

/-! Admission. -/

section
variable {s : State} {b q : Nat} {x : QueueSt}

/-- A queue with one more command admitted. -/
def QueueSt.admitting (a : AdmitSt) (y : QueueSt) : QueueSt :=
  { y with admits := tset y.admits y.admitted a, admitted := y.admitted + 1 }

theorem State.admitOne_queue (front : s.queue b q = some x) : ∃ a, (s.admitOne b q).queue b q = some (x.admitting a) := by
  unfold State.admitOne
  rw [front]
  dsimp only
  refine ⟨_, State.queue_modQueue ?_ _⟩
  rw [State.queue_of_berths ((State.unitWrite_frame _ _ _ _ _).frame .berths (by decide))]
  have objects : ∀ (l : List Nat) (t : State), (forL l t fun h t => t.modObj b h fun o => { o with dref := o.dref + 1 }).queue b q =
      t.queue b q := fun l t => forL_keeps (fun u : State => u.queue b q) l t _ fun h u =>
    State.queue_of_berth (State.modBerth_keeps BerthSt.queues b u b fun y => by rfl) q
  have events : ∀ (l : List Nat) (t : State), (forL l t fun h t => t.modEvt b h fun e => { e with dref := e.dref + 1 }).queue b q =
      t.queue b q := fun l t => forL_keeps (fun u : State => u.queue b q) l t _ fun h u =>
    State.queue_of_berth (State.modBerth_keeps BerthSt.queues b u b fun y => by rfl) q
  rw [events, objects, front]

theorem State.admitOne_fn {α : Type} (g : FnSt → α) (f : Nat)
    (notices : ∀ x t n l, g { x with ntcTail := t, nseq := n, ntcLost := l } = g x) (s : State) (b q : Nat) :
    g ((s.admitOne b q).fn f) = g (s.fn f) := by
  have queues : ∀ (t : State) h, (t.modQueue b q h).fn f = t.fn f := by
    intro t h
    unfold State.modQueue
    split <;> rfl
  unfold State.admitOne
  split
  · rfl
  · dsimp only
    rw [queues, State.unitWrite_fn g f notices]
    have objects : ∀ (l : List Nat) (t : State), (forL l t fun h t => t.modObj b h fun o => { o with dref := o.dref + 1 }).fn f =
        t.fn f := fun l t => forL_keeps (fun u : State => u.fn f) l t _ fun h u => rfl
    have events : ∀ (l : List Nat) (t : State), (forL l t fun h t => t.modEvt b h fun e => { e with dref := e.dref + 1 }).fn f =
        t.fn f := fun l t => forL_keeps (fun u : State => u.fn f) l t _ fun h u => rfl
    rw [events, objects]

/-- Each turn of an admission admits one command. -/
theorem State.admit_queue (front : s.queue b q = some x) (n : Nat) :
    ∃ y, (forN n s fun _ t => t.admitOne b q).queue b q = some y ∧ y.admitted = x.admitted + n ∧ y.retired = x.retired ∧
      y.run = x.run := by
  induction n with
  | zero => exact ⟨x, front, rfl, rfl, rfl⟩
  | succ n ih =>
    obtain ⟨y, there, admitted, retired, run⟩ := ih
    obtain ⟨a, next⟩ := State.admitOne_queue there
    rw [forN_succ]
    exact ⟨_, next, (congrArg (· + 1) admitted).trans (Nat.add_assoc ..), retired, run⟩

/-- A function with an ignored doorbell counted. -/
def State.badDoorbell (s : State) (f : Nat) : State := s.modFn f fun x => { x with qdbBad := (x.qdbBad + 1) % 2 ^ 32 }

section
variable {f : Nat} (low : 1 ≤ f) (high : f ≤ 24) (live : s.fnLive f = true)
include low high live

theorem function_answers : ¬(f = 0 ∨ 24 < f ∨ (!s.fnLive f) = true) := by
  rintro (zero | beyond | dead)
  · omega
  · omega
  · simp [live] at dead

theorem qdbDoorbell_missing {tail : Nat} (missing : s.queue (f - 1) (s.fn f).queue = none) :
    exec (.qdbDoorbell f none tail) s = .next (s.badDoorbell f) := by
  refine congrArg Host.Outcome.next ((if_neg (function_answers low high live)).trans ?_)
  simp only [missing]
  rfl

/-- A doorbell of a queue that exists. -/
theorem qdbDoorbell_next {tail : Nat} (front : s.queue (f - 1) (s.fn f).queue = some x) :
    exec (.qdbDoorbell f none tail) s = .next
      (if s.ctxGone x.ctx ∨ 2 ^ x.log2 - (x.admitted - x.retired) < (tail % 2 ^ 32 + 2 ^ 32 - x.admitted % 2 ^ 32) % 2 ^ 32 then
        s.badDoorbell f
      else if !s.hostUp then s
      else forN ((tail % 2 ^ 32 + 2 ^ 32 - x.admitted % 2 ^ 32) % 2 ^ 32) s fun _ t => t.admitOne (f - 1) (s.fn f).queue) := by
  refine congrArg Host.Outcome.next ((if_neg (function_answers low high live)).trans ?_)
  simp only [front]
  rfl

end

theorem State.badDoorbell_counts (s : State) (f : Nat) :
    ((s.badDoorbell f).fn f).qdbBad = ((s.fn f).qdbBad + 1) % 2 ^ 32 := by
  rw [State.badDoorbell, State.fn_modFn]

end

/-- Settles O24: each turn of an admission admits one command by `State.admitOne_queue`, and what may be told meanwhile leaves the
function's counter alone. -/
theorem functionRegistersWork : Obligations.FunctionRegistersWork := by
  refine fun s f q tail reg bits head low high live => ⟨?queue, fun missing => ?missing, fun x n front number =>
    ⟨fun ignored => ?ignored, fun room alive up => ?admits⟩, ?give, ?read⟩
  case queue =>
    have run : exec (.qdbQueueWrite f q) s = .next (s.modFn f fun x => { x with queue := q % 2 ^ 14 }) :=
      congrArg Host.Outcome.next (if_neg (function_answers low high live))
    have fn := State.fn_modFn (s := s) f fun x => { x with queue := q % 2 ^ 14 }
    exact ⟨_, run, congrArg FnSt.queue fn, (congrArg FnSt.qdbBad fn :), rfl⟩
  case missing =>
    exact ⟨_, qdbDoorbell_missing low high live missing, State.badDoorbell_counts s f, rfl⟩
  case ignored =>
    subst number
    refine ⟨_, (qdbDoorbell_next low high live front).trans (congrArg _ (if_pos ?_)), State.badDoorbell_counts s f, rfl⟩
    exact ignored.symm
  case admits =>
    subst number
    have run : exec (.qdbDoorbell f none tail) s = .next (forN _ s fun _ t => t.admitOne (f - 1) (s.fn f).queue) :=
      (qdbDoorbell_next low high live front).trans (congrArg _ ((if_neg (by
        rintro (gone | full)
        · simp [alive] at gone
        · omega)).trans (if_neg (by simp [up]))))
    obtain ⟨y, there, admitted, retired, same⟩ := State.admit_queue front
      ((tail % 2 ^ 32 + 2 ^ 32 - x.admitted % 2 ^ 32) % 2 ^ 32)
    exact ⟨_, y, run, there, admitted, retired, same, forN_keeps (fun u : State => (u.fn f).qdbBad) _ _ _ fun _ u =>
      State.admitOne_fn FnSt.qdbBad f (fun _ _ _ _ => rfl) u _ _⟩
  case give =>
    have run : exec (.bargeGive f bits) s = .next (s.modFn f fun x => { x with
        bargeOwn := x.bargeOwn ||| (bits &&& BitVec.ofNat 64 (x.barge.elim 0 fun w => 2 ^ w.2.2 - 1)) }) :=
      congrArg Host.Outcome.next (if_neg (by simp [live]))
    have fn := State.fn_modFn (s := s) f fun x => { x with
      bargeOwn := x.bargeOwn ||| (bits &&& BitVec.ofNat 64 (x.barge.elim 0 fun w => 2 ^ w.2.2 - 1)) }
    exact ⟨_, run, congrArg FnSt.bargeOwn fn, (congrArg FnSt.barge fn :)⟩
  case read =>
    have named : f ≠ 0 := by omega
    have fn := State.fn_modFn (s := s) f fun y => { y with
      ntcLost := if reg = 1 then 0 else y.ntcLost, qdbBad := if reg = 0 then 0 else y.qdbBad,
      cplLost := if reg = 2 then 0 else y.cplLost, ntcHead := (head.getD y.ntcHead) % 2 ^ 32 }
    refine ⟨_, _, congrArg Host.Outcome.next (if_neg (by simp [live])), rfl, ?_, ?_, ?_, ?_, ?_⟩
    · rintro rfl
      exact ⟨if_neg named, (congrArg FnSt.qdbBad fn :)⟩
    · rintro rfl
      exact ⟨rfl, (congrArg FnSt.ntcLost fn :)⟩
    · rintro rfl
      exact ⟨if_neg named, (congrArg FnSt.cplLost fn :)⟩
    · rintro h rfl
      exact (congrArg FnSt.ntcHead fn :)
    · exact fun other => (congrArg FnSt.ntcLost fn :).trans (if_neg other)

end Sys2Proof.Machine
end

section
/-!
What the module's work leaves of a service mailbox: kernels answer their own berth's mailboxes and bells ring, but a request in
a service mailbox stays until it is answered (15 R457-R461).
-/

namespace Sys2Proof.Machine

/-- A request in a mailbox stands or is answered in `t` as in `s`. -/
def Stands (m : Nat) (s t : State) : Prop := (t.mb m).busy = (s.mb m).busy

theorem State.mb_of_mbox {s t : State} (same : t.mbox = s.mbox) (m : Nat) : t.mb m = s.mb m := by
  rw [State.mb, same, State.mb]

section
variable {m : Nat} {s t u : State}

theorem Stands.refl (m : Nat) (s : State) : Stands m s s := rfl

theorem Stands.trans (h : Stands m s t) (k : Stands m t u) : Stands m s u := Eq.trans k h

theorem Stands.of_mbox (same : t.mbox = s.mbox) : Stands m s t := congrArg MboxSt.busy (State.mb_of_mbox same m)

/-- What changes no mailbox. -/
theorem Stands.kept {l : List Part} (h : Change l s t) (apart : Part.mbox ∉ l := by decide) : Stands m s t :=
  Stands.of_mbox (h.frame .mbox apart)

theorem Stands.forL {α : Type} (l : List α) (s : State) (f : α → State → State) (step : ∀ a t, Stands m t (f a t)) :
    Stands m s (Machine.forL l s f) := forL_keeps (fun t : State => (t.mb m).busy) l s f step

theorem Stands.forN (n : Nat) (s : State) (f : Nat → State → State) (step : ∀ i t, Stands m t (f i t)) :
    Stands m s (Machine.forN n s f) := forN_keeps (fun t : State => (t.mb m).busy) n s f step

theorem Stands.foldl {α β : Type} (g : β → State) (l : List α) (b : β) (f : β → α → β) (step : ∀ b a, Stands m (g b) (g (f b a))) :
    Stands m (g b) (g (l.foldl f b)) := foldl_keeps (g := fun b => ((g b).mb m).busy) step l b

theorem State.emit_stands (m : Nat) (s : State) (o : Out) : Stands m s (s.emit o) := rfl
theorem State.emits_stands (m : Nat) (s : State) (o : List Out) : Stands m s (s.emits o) := rfl
theorem State.nextFree_stands (m : Nat) (s : State) : Stands m s s.nextFree := rfl
theorem State.modFn_stands (m : Nat) (s : State) (f : Nat) (h : FnSt → FnSt) : Stands m s (s.modFn f h) := rfl
theorem State.hostWrite_stands (m : Nat) (s : State) (a : Nat) (bs : Bytes) : Stands m s (s.hostWrite a bs) := rfl
theorem State.modBerth_stands (m : Nat) (s : State) (b : Nat) (h : BerthSt → BerthSt) : Stands m s (s.modBerth b h) := rfl
theorem State.setCore_stands (m : Nat) (s : State) (c : Nat) (k : CoreSt) : Stands m s (s.setCore c k) := rfl
theorem State.modCore_stands (m : Nat) (s : State) (c : Nat) (h : CoreSt → CoreSt) : Stands m s (s.modCore c h) := rfl
theorem State.modExch_stands (m : Nat) (s : State) (d : Nat) (h : ExchSt → ExchSt) : Stands m s (s.modExch d h) := rfl
theorem State.modFabric_stands (m : Nat) (s : State) (h : FabricSt → FabricSt) : Stands m s (s.modFabric h) := rfl
theorem State.count_stands (m : Nat) (s : State) (b i n : Nat) : Stands m s (s.count b i n) := Stands.kept (State.count_frame s b i n)

/-! Bells and events. -/

theorem State.modMb_stands (s : State) (n : Nat) {f : MboxSt → MboxSt} (same : ∀ x, (f x).busy = x.busy) :
    Stands m s (s.modMb n f) := by
  unfold Stands
  by_cases here : m = n
  · rw [here, State.mb_modMb, same]
  · rw [State.mb_modMb_other s f here]

theorem State.ring_stands (m : Nat) (s : State) (n : Nat) (bits : BitVec 32) : Stands m s (s.ring n bits) := by
  unfold State.ring
  extract_lets b t
  have rung : Stands m s t := State.modMb_stands s n fun _ => rfl
  split
  · exact rung
  · exact rung.trans (State.emit_stands m ..)

theorem State.noticeTo_stands (m : Nat) (s : State) (i code b n x y : Nat) (p : Bytes) :
    Stands m s (s.noticeTo i code b n x y p) := by
  unfold State.noticeTo
  extract_lets fn bytes
  split
  · split
    · exact ((State.hostWrite_stands m ..).trans (State.modFn_stands m ..)).trans (State.ring_stands m ..)
    · exact (State.modFn_stands m ..).trans (State.ring_stands m ..)
  · exact (State.modFn_stands m ..).trans (State.ring_stands m ..)

theorem State.berthEvent_stands (m : Nat) (s : State) (b code x y : Nat) (p : Bytes) : Stands m s (s.berthEvent b code x y p) :=
  (((State.noticeTo_stands m ..).trans (State.noticeTo_stands m ..)).trans (State.emit_stands m ..)).trans (State.emits_stands m ..)

theorem State.moduleEvent_stands (m : Nat) (s : State) (code x y : Nat) (p : Bytes) : Stands m s (s.moduleEvent code x y p) :=
  ((State.noticeTo_stands m ..).trans (State.emit_stands m ..)).trans (State.emits_stands m ..)

/-! Memory and other modules. -/

theorem State.memWrite_stands (m : Nat) (s : State) (pa : Nat) (bs : Bytes) (marked : Bool) :
    Stands m s (s.memWrite pa bs marked) := by
  unfold State.memWrite
  extract_lets lost
  have stored : Stands m s { s with mem := s.mem.write pa bs marked } := rfl
  exact stored.trans (Stands.forL _ _ _ fun p t => Stands.forL _ _ _ fun b u => State.berthEvent_stands m ..)

theorem State.homeStore_stands (m : Nat) (s : State) (pa : Nat) (bs : Bytes) (marked : Bool) :
    Stands m s (s.homeStore pa bs marked) :=
  (State.memWrite_stands m ..).trans (Stands.kept (State.wcbNote_frame _ _ _ _))

theorem State.poisonRead_stands (m : Nat) (s : State) (berth : Option Nat) (reader pa : Nat) :
    Stands m s (s.poisonRead berth reader pa) := by
  unfold State.poisonRead
  extract_lets t
  have counted : Stands m s t := by
    cases berth with
    | none => exact Stands.refl m s
    | some b => exact State.count_stands m ..
  refine counted.trans (Stands.forL _ _ _ fun b u => ?_)
  split
  · exact Stands.refl m u
  · exact (State.modBerth_stands m ..).trans (State.berthEvent_stands m ..)

theorem State.homeAdd_stands (m : Nat) (s : State) (berth : Option Nat) (reader pa : Nat) (op : AddOp) :
    Stands m s (s.homeAdd berth reader pa op).1 := by
  unfold State.homeAdd
  split
  · exact State.poisonRead_stands m ..
  · extract_lets old new t u
    have stored : Stands m s t :=
      Stands.trans (t := { s with mem := s.mem.write pa (leBytes op.bytes new) false }) rfl
        (Stands.kept (State.wcbNote_frame _ _ _ _))
    refine stored.trans (Stands.of_mbox ?_)
    unfold u
    split
    · split
      · exact (State.count_frame _ _ _ _).frame .mbox (by decide)
      · rfl
    · rfl

theorem State.sendNumbered_stands (m : Nat) (s : State) (r : ReqSt) (kind tc job die pa op : Nat) (p : Bytes) :
    Stands m s (s.sendNumbered r kind tc job die pa op p) := by
  unfold State.sendNumbered
  extract_lets key seq tag frame t
  have noted : Stands m s t := Stands.of_mbox rfl
  split
  · exact noted.trans ((State.modFabric_stands m ..).trans (State.moduleEvent_stands m ..))
  · unfold State.routeFrame
    extract_lets h
    split
    · exact noted
    · split
      · exact noted
      · exact noted.trans (Stands.kept (State.sendOnPort_frame _ _ _))

theorem State.remoteStore_stands (m : Nat) (s : State) (r : ReqSt) (pa : Nat) (bs : Bytes) :
    Stands m s (s.remoteStore r pa bs) := Stands.forL _ _ _ fun _ _ => State.sendNumbered_stands m ..

theorem State.engineWrite_stands (m : Nat) (s : State) (r : ReqSt) (maps : List MapEnt) (loc addr : Nat) (bs : Bytes)
    (marked : Bool) : Stands m s (s.engineWrite r maps loc addr bs marked) := by
  unfold State.engineWrite
  split
  · exact Stands.of_mbox rfl
  · refine Stands.foldl id _ s _ fun t p => ?_
    split
    · exact (State.memWrite_stands m ..).trans (State.modCore_stands m ..)
    · exact State.remoteStore_stands m ..
    · exact Stands.refl m t

end

/-! Control pages: a kernel's stores reach no service mailbox. -/

section
variable {m : Nat} (service : m % 4 = 0 ∧ m ≤ 96)
include service

theorem pageMailbox_not_service {s : State} {b off n : Nat} (page : s.pageMailbox b off = some n) : m ≠ n := by
  obtain ⟨fourth, low⟩ := service
  unfold State.pageMailbox at page
  extract_lets j at page
  split at page
  · cases page
    omega
  · split at page
    · cases page
      omega
    · cases page

omit service in
theorem State.mbAnswer_other (s : State) {n : Nat} (other : m ≠ n) (code words : Nat) : Stands m s (s.mbAnswer n code words) := by
  unfold State.mbAnswer
  split
  · exact Stands.trans (congrArg MboxSt.busy (State.mb_modMb_other s _ other)) (State.ring_stands m ..)
  · exact Stands.refl m s

theorem State.controlWrite_stands (s : State) (b die off : Nat) (bs : Bytes) : Stands m s (s.controlWrite b die off bs) := by
  unfold State.controlWrite
  split
  · extract_lets o
    split
    · exact Stands.refl m s
    · next n page =>
      have other := pageMailbox_not_service service page
      refine Stands.forL _ _ _ fun i t => ?_
      unfold State.mbKernelWrite
      dsimp only
      split
      · exact congrArg MboxSt.busy (State.mb_modMb_other t _ other)
      · split
        · exact State.mbAnswer_other t other ..
        · split
          · exact State.ring_stands m ..
          · exact Stands.refl m t
  · split
    · exact Stands.of_mbox rfl
    · exact Stands.refl m s

theorem State.unitWrite_stands (s : State) (b va : Nat) (bs : Bytes) (marked : Bool) : Stands m s (s.unitWrite b va bs marked) := by
  unfold State.unitWrite
  refine Stands.forL _ _ _ fun p t => ?_
  dsimp only
  split
  · split
    · exact State.controlWrite_stands service ..
    · exact State.homeStore_stands m ..
  · exact State.remoteStore_stands m ..
  · exact Stands.refl m t

end

/-! Commands that end, contexts that are abandoned. -/

section
variable (m : Nat)

theorem State.evtSet_stands (s : State) (b h value status : Nat) : Stands m s (s.evtSet b h value status) := by
  unfold State.evtSet
  split
  · exact Stands.refl m s
  · extract_lets v t
    split
    · exact Stands.refl m s
    · have noted : Stands m s t := Stands.of_mbox rfl
      split
      · exact noted.trans (State.berthEvent_stands m ..)
      · exact noted

theorem State.objSweep_stands (s : State) (b h : Nat) : Stands m s (s.objSweep b h) := by
  unfold State.objSweep
  split
  · exact Stands.refl m s
  · split
    · exact (State.modBerth_stands m ..).trans (State.berthEvent_stands m ..)
    · exact Stands.refl m s

theorem State.evtSweep_stands (s : State) (b h : Nat) : Stands m s (s.evtSweep b h) := by
  unfold State.evtSweep
  split
  · exact Stands.refl m s
  · split
    · exact State.modBerth_stands m ..
    · exact Stands.refl m s

theorem State.dropRefs_stands (s : State) (b : Nat) (a : AdmitSt) : Stands m s (s.dropRefs b a) := by
  unfold State.dropRefs
  exact (Stands.forL _ _ _ fun h t => (State.modBerth_stands m ..).trans (State.objSweep_stands m ..)).trans
    (Stands.forL _ _ _ fun h t => (State.modBerth_stands m ..).trans (State.evtSweep_stands m ..))

theorem State.dropHolder_stands (s : State) (b c : Nat) : Stands m s (s.dropHolder b c) := by
  unfold State.dropHolder
  exact (Stands.forL _ _ _ fun h t => (State.modBerth_stands m ..).trans (State.objSweep_stands m ..)).trans
    (Stands.forL _ _ _ fun h t => (State.modBerth_stands m ..).trans (State.evtSweep_stands m ..))

theorem State.modQueue_stands (s : State) (b q : Nat) (f : QueueSt → QueueSt) : Stands m s (s.modQueue b q f) :=
  Stands.of_mbox (by unfold State.modQueue; split <;> rfl)

theorem State.leaveFront_stands (s : State) (b q status : Nat) (x : QueueSt) : Stands m s (s.leaveFront b q status x) := by
  have given : ∀ w, Stands m s (s.giveBarges b x w) := fun w => Stands.of_mbox (by unfold State.giveBarges; split <;> rfl)
  have signalled : ∀ (t : State) w, Stands m t (t.signalRetired b x w status) := fun t w => by
    unfold State.signalRetired
    split
    · exact Stands.refl m t
    · exact State.evtSet_stands m ..
  unfold State.leaveFront
  exact ((((given _).trans (signalled ..)).trans (State.modQueue_stands m ..)).trans (State.dropRefs_stands m ..)).trans
    (Stands.kept (State.flrClear_frame _ _))

theorem State.retireFront_stands (s : State) (b q status count aux : Nat) (step : Bool) (fault : Bytes) :
    Stands m s (s.retireFront b q status count aux step fault) := by
  cases front : s.queue b q with
  | none =>
    unfold State.retireFront
    rw [front]
    exact Stands.refl m s
  | some x =>
    rw [State.retireFront_eq front]
    extract_lets t w
    have left : Stands m s t := State.leaveFront_stands m ..
    split
    · refine left.trans (Stands.trans ?_ (State.hostWrite_stands m ..))
      unfold State.putRecord
      split
      · exact (State.hostWrite_stands m ..).trans (State.ring_stands m ..)
      · exact Stands.refl m t
    · exact left.trans (State.modFn_stands m ..)

theorem State.retireRest_stands (s : State) (b q status : Nat) : Stands m s (s.retireRest b q status) := by
  unfold State.retireRest
  split
  · exact Stands.refl m s
  · refine Stands.forN _ _ _ fun _ t => ?_
    split
    · exact State.retireFront_stands m ..
    · exact Stands.refl m t

theorem State.freeCtx_stands (s : State) (b c : Nat) : Stands m s (s.freeCtx b c) := by
  unfold State.freeCtx
  split
  · exact Stands.refl m s
  · split
    · exact Stands.trans (t := { s with ctxs := tdel s.ctxs c }) rfl (State.berthEvent_stands m ..)
    · exact Stands.refl m s

theorem State.sweepQueue_stands (s : State) (b q : Nat) : Stands m s (s.sweepQueue b q) := by
  unfold State.sweepQueue
  split
  · exact Stands.refl m s
  · extract_lets t
    have rest : Stands m s t := by
      unfold t
      split
      · exact State.retireRest_stands m ..
      · exact Stands.refl m s
    split
    · exact rest
    · split
      · exact rest.trans ((State.modBerth_stands m ..).trans (State.freeCtx_stands m ..))
      · exact rest

variable {m}
variable (service : m % 4 = 0 ∧ m ≤ 96)
include service

theorem State.takeEnd_stands (s : State) (b : Nat) (t : TakeSt) (status : Nat) : Stands m s (s.takeEnd b t status) :=
  ((State.unitWrite_stands service ..).trans (State.modBerth_stands m ..)).trans (State.modQueue_stands m ..)

theorem State.abandonQueue_stands (s : State) (b q : Nat) : Stands m s (s.abandonQueue b q) := by
  unfold State.abandonQueue
  split
  · exact Stands.refl m s
  · refine Stands.trans ?_ (State.sweepQueue_stands m ..)
    split
    · exact State.retireRest_stands m ..
    · split
      · exact Stands.refl m s
      · split
        · exact State.modQueue_stands m ..
        · split
          · cases (s.berth b).take with
            | none => exact Stands.refl m s
            | some t => exact State.takeEnd_stands service ..
          · exact Stands.refl m s

theorem State.abandonCtx_stands (s : State) (b c : Nat) : Stands m s (s.abandonCtx b c) := by
  unfold State.abandonCtx
  split
  · exact Stands.refl m s
  · split
    · exact Stands.refl m s
    · extract_lets t qs idle t1 evs t2 t3
      have k1 : Stands m t t1 := Stands.forL _ _ _ fun q u => State.retireRest_stands m ..
      have k2 : Stands m t1 t2 := Stands.forL _ _ _ fun h u => State.evtSet_stands m ..
      have k3 : Stands m t2 t3 := State.dropHolder_stands m ..
      have noted : Stands m s t := rfl
      exact (((noted.trans k1).trans k2).trans k3).trans
        ((Stands.forL _ _ _ fun q u => State.abandonQueue_stands service ..).trans (State.freeCtx_stands m ..))

end

/-! Kernels that stop and berths that are reset. -/

section
variable (m : Nat)

theorem State.matrixDrain_stands (s : State) (c b : Nat) (e : AqEnt) (old : Tbl AccCell) (fold : Nat) :
    Stands m s (s.matrixDrain c b e old fold) := by
  unfold State.matrixDrain
  extract_lets d sums res lines t u v
  have poisoned : Stands m s t := Stands.forL _ _ _ fun p x => State.poisonRead_stands m ..
  have written : Stands m t u := Stands.forL _ _ _ fun p x => State.engineWrite_stands m ..
  have recorded : Stands m u v := Stands.of_mbox (by unfold v; split <;> rfl)
  exact ((poisoned.trans written).trans recorded).trans (((State.count_stands m ..).trans (State.count_stands m ..)).trans
    (State.count_stands m ..))

theorem State.ldrRow_stands (s : State) (c b : Nat) (e : VqEnt) (v : Vow) (j : Nat) : Stands m s (s.ldrRow c b e v j) := by
  unfold State.ldrRow
  extract_lets a bs lines t
  exact Stands.trans (Stands.forL _ _ _ fun p x => State.poisonRead_stands m ..) (State.modCore_stands m ..)

theorem State.strRow_stands (s : State) (c b : Nat) (e : VqEnt) (v : Vow) (j : Nat) : Stands m s (s.strRow c b e v j) :=
  Stands.foldl id _ s _ fun _ _ => State.engineWrite_stands m ..

theorem State.tieRun_stands (s : State) (c b : Nat) (e : VqEnt) (n : Nat) : Stands m s (s.tieRun c b e n).1 :=
  Stands.foldl Prod.fst _ _ _ fun a i => by
    refine Stands.trans (Stands.forL _ _ _ fun p u => State.poisonRead_stands m ..)
      (State.engineWrite_stands m _ (coreReq c b e.launch e.group e.pc) e.maps 1 _ _ false)

theorem State.vopRun_stands (s : State) (c b : Nat) (e : VqEnt) (rows : Nat) : Stands m s (s.vopRun c b e rows).1 := by
  unfold State.vopRun
  extract_lets v
  split
  · exact Stands.forN _ _ _ fun _ _ => State.ldrRow_stands m ..
  · exact Stands.forN _ _ _ fun _ _ => State.strRow_stands m ..
  · exact State.setCore_stands m ..
  · exact (State.setCore_stands m ..).trans (State.count_stands m _ b 1 _)
  · exact Stands.refl m s
  · exact Stands.refl m s
  · exact (State.setCore_stands m ..).trans (State.count_stands m _ b 1 _)

theorem State.vopPart_stands (s : State) (c b : Nat) (e : VqEnt) (n : Nat) : Stands m s (s.vopPart c b e n) := by
  unfold State.vopPart
  extract_lets v full lines t a part
  split
  · exact Stands.kept (State.runAmaxPut_frame _ _ _ _)
  · split
    · exact State.tieRun_stands m ..
    · split
      · have rows : Stands m s t := State.vopRun_stands m ..
        split
        · exact rows
        · split
          · exact rows.trans (State.ldrRow_stands m ..)
          · exact rows.trans (State.strRow_stands m ..)
      · exact State.vopRun_stands m ..

theorem State.stopCore_stands (s : State) (launch c : Nat) : Stands m s (s.stopCore launch c) := by
  have array : ∀ (t : State) b, Stands m t (t.arrayAbort c b) := fun t b => by
    unfold State.arrayAbort
    extract_lets k
    refine Stands.trans (Stands.forL _ _ _ fun e u => ?_) (State.modCore_stands m ..)
    dsimp only
    split
    · exact (State.nextFree_stands m u).trans (State.matrixDrain_stands m ..)
    · exact State.nextFree_stands m u
  have vector : ∀ (t : State) b, Stands m t (t.vectorAbort c b) := fun t b =>
    Stands.trans (Stands.forL _ _ _ fun e u => (State.nextFree_stands m u).trans (State.vopPart_stands m ..))
      (State.modCore_stands m ..)
  unfold State.stopCore
  split
  · exact Stands.refl m s
  · split
    · exact (((Stands.kept (State.modKern_frame _ _ _)).trans (array ..)).trans (vector ..)).trans
        (Stands.kept (State.amaxDiscard_frame _ _ _))
    · exact Stands.refl m s

variable {m}
variable (service : m % 4 = 0 ∧ m ≤ 96)
include service

theorem State.performPart_stands (s : State) (core b : Nat) (a : Access) (p : AccPart) :
    Stands m s (s.performPart core b a p).1 := by
  unfold State.performPart
  split
  · split
    · dsimp only
      exact State.controlWrite_stands service ..
    · dsimp only
      exact (State.nextFree_stands m s).trans (State.controlWrite_stands service ..)
  · split
    · exact State.homeStore_stands m ..
    · exact State.homeAdd_stands m ..

theorem State.perform_stands (s : State) (core : Nat) (a : Access) : Stands m s (s.perform core a) := by
  unfold State.perform
  extract_lets b r
  have parts : Stands m s r.1 := Stands.foldl Prod.fst a.parts (s, []) _ fun x p => State.performPart_stands service ..
  split
  · exact parts.trans (State.modCore_stands m ..)
  · exact parts.trans (State.modCore_stands m ..)

theorem State.dropLaunches_stands (s : State) (b : Nat) : Stands m s (s.dropLaunches b) := by
  have core : ∀ (t : State) launch c, Stands m t (t.dropCore launch c) := fun t launch c => by
    unfold State.dropCore
    refine (State.stopCore_stands m t launch c).trans (Stands.trans (Stands.forL _ _ _ fun a u => ?_) (State.modCore_stands m ..))
    split
    · exact State.perform_stands service ..
    · exact Stands.refl m u
  unfold State.dropLaunches
  exact Stands.forL _ _ _ fun p t => Eq.trans rfl (Stands.forL p.2.running t _ fun c u => core u p.1 c)

omit service in
theorem State.resetQueue_stands (s : State) (b q : Nat) : Stands m s (s.resetQueue b q) := by
  unfold State.resetQueue
  split
  · exact Stands.refl m s
  · exact (Stands.trans (Stands.forN _ _ _ fun _ t => State.retireFront_stands m ..) (State.modQueue_stands m ..)).trans
      (State.sweepQueue_stands m ..)

omit service in
theorem State.dropSnap_stands (s : State) (b : Nat) : Stands m s (s.dropSnap b) := by
  unfold State.dropSnap
  extract_lets x t
  have noted : Stands m s t := Stands.of_mbox rfl
  split
  · split
    · unfold State.voidSlot
      extract_lets y
      exact Stands.trans (t := { t with snaps := tset t.snaps b { y with slots := _ } }) noted (State.berthEvent_stands m ..)
    · exact noted
  · exact noted

theorem State.stopBerth_stands (s : State) (b : Nat) : Stands m s (s.stopBerth b) := by
  unfold State.stopBerth
  extract_lets t1 t2 t3 t4 t5 dies t6 t7
  have k1 : Stands m s t1 := State.dropLaunches_stands service ..
  have k3 : Stands m t2 t3 := Stands.forL _ _ _ fun q u => State.resetQueue_stands ..
  have k5 : Stands m t4 t5 := State.dropSnap_stands ..
  have k6 : Stands m t5 t6 := Stands.forL _ _ _ fun d u => State.modExch_stands m ..
  exact ((((k1.trans (State.modBerth_stands m ..)).trans k3).trans (State.modBerth_stands m ..)).trans k5).trans
    ((k6.trans (State.modFabric_stands m ..)).trans (Stands.kept (State.restartStrms_frame _ _)))

/-- A reset answers what waits in its berth's other mailboxes alone. -/
theorem State.startReset_stands (s : State) (b : Nat) : Stands m s (s.startReset b) := by
  have boxes : ∀ t : State, Stands m t (t.resetBoxes b) := fun t => by
    unfold State.resetBoxes
    refine Stands.forN 128 _ _ fun n u => ?_
    split
    · next serves =>
      refine State.mbAnswer_other u ?_ ..
      rintro rfl
      simp [service.1] at serves
    · exact Stands.refl m u
  unfold State.startReset
  exact ((State.stopBerth_stands service s b).trans (boxes _)).trans (State.modBerth_stands m ..)

end

end Sys2Proof.Machine
end

section
/-!
The host's requests: what a service mailbox serves and answers, and the requests about contexts, queues and memory objects
(15 R449-R455, R462, R475, R477).
-/

namespace Sys2Proof.Machine

/-! Answers. -/

/-- The words of an answer in their places. -/
theorem tget_foldl_zipIdx (ws : List Nat) (k : Nat) (t : Tbl (BitVec 32)) :
    (∀ j < k, tget ((ws.zipIdx k).foldl (fun t w => tset t w.2 (BitVec.ofNat 32 w.1)) t) 0 j = tget t 0 j) ∧
    ∀ (i w : Nat), ws[i]? = some w →
      tget ((ws.zipIdx k).foldl (fun t w => tset t w.2 (BitVec.ofNat 32 w.1)) t) 0 (k + i) = BitVec.ofNat 32 w := by
  induction ws generalizing k t with
  | nil => exact ⟨fun _ _ => rfl, fun _ _ none => nomatch none⟩
  | cons v r ih =>
    obtain ⟨below, above⟩ := ih (k + 1) (tset t k (BitVec.ofNat 32 v))
    rw [List.zipIdx_cons, List.foldl_cons]
    refine ⟨fun j less => (below j (by omega)).trans (tget_tset_other _ _ _ (by omega)), fun i w found => ?_⟩
    cases i with
    | zero =>
      obtain rfl := Option.some.inj found
      exact (below k (Nat.lt_succ_self k)).trans (tget_tset_self ..)
    | succ i =>
      have there := above i w found
      rwa [Nat.add_assoc, Nat.add_comm 1 i] at there

/-- What a bell leaves of a mailbox. -/
theorem State.ring_mb {α : Type} (g : MboxSt → α) (bells : ∀ x d, g { x with dbl := d } = g x) (s : State) (n : Nat)
    (bits : BitVec 32) (m : Nat) : g ((s.ring n bits).mb m) = g (s.mb m) := by
  have rung : g ((s.modMb n fun x => { x with dbl := x.dbl ||| bits }).mb m) = g (s.mb m) := by
    by_cases here : m = n
    · rw [here, State.mb_modMb, bells]
    · rw [State.mb_modMb_other s _ here]
  unfold State.ring
  extract_lets b t
  split <;> exact rung

/-- A mailbox with a request answered. -/
def MboxSt.answered (code words : Nat) (x : MboxSt) : MboxSt :=
  { x with busy := false, code := code % 2 ^ 16, outWords := words % 16, ackTag := x.tag }

/-- An answer to a request that stands. -/
theorem State.mbAnswer_mb {s : State} {m : Nat} (busy : (s.mb m).busy = true) (code words : Nat) {α : Type} (g : MboxSt → α)
    (bells : ∀ x d, g { x with dbl := d } = g x) : g ((s.mbAnswer m code words).mb m) = g ((s.mb m).answered code words) := by
  unfold State.mbAnswer
  rw [if_pos busy, State.ring_mb g bells, State.mb_modMb]
  rfl

/-- A mailbox with the words of an answer put in `OUT`. -/
def MboxSt.worded (words : List Nat) (x : MboxSt) : MboxSt :=
  { x with outp := words.zipIdx.foldl (fun t w => tset t w.2 (BitVec.ofNat 32 w.1)) x.outp }

theorem State.mbReply_eq (s : State) (m code : Nat) (words : List Nat) :
    s.mbReply m code words = (s.modMb m (MboxSt.worded words)).mbAnswer m code (words.length - 1) := rfl

/-- A request that stands is answered with a code and words. -/
theorem replied_mbReply {s : State} {m : Nat} (busy : (s.mb m).busy = true) {code : Nat} (small : code < 2 ^ 16) (words : List Nat)
    (short : words.length ≤ 16) : Replied (s.mbReply m code words) m code words := by
  rw [State.mbReply_eq]
  have put : (s.modMb m (MboxSt.worded words)).mb m = (s.mb m).worded words := State.mb_modMb ..
  have stands : ((s.modMb m (MboxSt.worded words)).mb m).busy = true := (congrArg MboxSt.busy put).trans busy
  have answer := fun {α : Type} (g : MboxSt → α) bells => State.mbAnswer_mb stands code (words.length - 1) g bells
  refine ⟨answer MboxSt.busy fun _ _ => rfl, (answer MboxSt.code fun _ _ => rfl).trans (Nat.mod_eq_of_lt small),
    (answer MboxSt.outWords fun _ _ => rfl).trans (Nat.mod_eq_of_lt (by omega)), fun i w found => ?_⟩
  have out := (answer MboxSt.outp fun _ _ => rfl).trans (congrArg MboxSt.outp put : _ = ((s.mb m).worded words).outp)
  refine (congrArg (fun t => tget t 0 i) out).trans ?_
  have there := (tget_foldl_zipIdx words 0 (s.mb m).outp).2 i w found
  rwa [Nat.zero_add] at there

section
variable {s : State} {m r b : Nat}

/-- A request in a service mailbox is served for its berth, and answered. -/
theorem State.serve_request (request : Request s m r b) {named : Bool} (present : named = true → (s.berth b).life ≠ .absent)
    {f : Nat → State → Reply} {code : Nat} {words : List Nat} {t : State} (served : f b s = (code, words, t)) :
    s.serve m r named f = t.mbReply m code (if code = 0 then words else []) := by
  obtain ⟨fourth, low, busy, number, berth, reserved, operator, role⟩ := request
  have waits : ¬((!(m % 4 == 0 && decide (m ≤ 96)) || !(s.mb m).busy || s.reqWord m 0 % 256 != r ||
      (m == 96 && s.lk.active.isNone)) = true) := by
    simp only [fourth, busy, number, low]
    simpa using operator
  have formed : ¬(s.reqWord m 0 / (if m = 96 then 2 ^ 13 else 2 ^ 8) ≠ 0) := by
    rw [Nat.div_eq_of_lt reserved]
    simp
  have allowed : ¬(0x20 ≤ r ∧ m ≠ 96) := fun ⟨high, other⟩ => other (role high)
  have here : ¬(named = true ∧ (s.berth (s.reqBerth m)).life = .absent) := by
    rw [berth]
    exact fun ⟨isNamed, absent⟩ => present isNamed absent
  unfold State.serve
  rw [if_neg waits, if_neg formed, if_neg allowed, if_neg here, berth, served]

theorem Request.service (request : Request s m r b) : m % 4 = 0 ∧ m ≤ 96 := by
  obtain ⟨fourth, low, -⟩ := request
  exact ⟨fourth, low⟩

theorem Request.busy (request : Request s m r b) : (s.mb m).busy = true := by
  obtain ⟨-, -, busy, -⟩ := request
  exact busy

/-- The request stands until its answer. -/
theorem Request.answered (request : Request s m r b) {t : State} (stands : Stands m s t) (words : List Nat)
    (short : words.length ≤ 16 := by simp) : Replied (t.mbReply m 0 words) m 0 words :=
  replied_mbReply (Eq.trans stands request.busy) (by decide) words short

theorem Request.refused (request : Request s m r b) {code : Nat} (small : code < 2 ^ 16 := by decide) :
    Replied (s.mbReply m code []) m code [] :=
  replied_mbReply request.busy small [] (by decide)

end

/-! What an answer leaves. -/

section
variable {s : State} {m code : Nat} {words : List Nat}

theorem State.mbReply_berths : (s.mbReply m code words).berths = s.berths :=
  (State.mbReply_frame _ _ _ _).frame .berths (by decide)

theorem State.mbReply_ctxs : (s.mbReply m code words).ctxs = s.ctxs := (State.mbReply_frame _ _ _ _).frame .ctxs (by decide)

theorem State.mbReply_berth (b : Nat) : (s.mbReply m code words).berth b = s.berth b := State.berth_congr State.mbReply_berths b

theorem State.objAt_of_objs {s t : State} {b : Nat} (same : (t.berth b).objs = (s.berth b).objs) (h : Nat) :
    t.objAt b h = s.objAt b h := by
  rw [State.objAt, same, State.objAt]

theorem State.evtAt_of_evts {s t : State} {b : Nat} (same : (t.berth b).evts = (s.berth b).evts) (h : Nat) :
    t.evtAt b h = s.evtAt b h := by
  rw [State.evtAt, same, State.evtAt]

theorem State.mbReply_objAt (b h : Nat) : (s.mbReply m code words).objAt b h = s.objAt b h :=
  State.objAt_of_objs (congrArg BerthSt.objs (State.mbReply_berth b)) h

theorem State.mbReply_evtAt (b h : Nat) : (s.mbReply m code words).evtAt b h = s.evtAt b h :=
  State.evtAt_of_evts (congrArg BerthSt.evts (State.mbReply_berth b)) h

theorem State.mbReply_queue (b q : Nat) : (s.mbReply m code words).queue b q = s.queue b q :=
  State.queue_of_berths State.mbReply_berths b q

end

/-! Contexts. -/

section
variable {s : State} {b : Nat}

/-- A context that is gone or abandoned stays so. -/
theorem tfind_tdel {α : Type} (t : Tbl α) (k c : Nat) : tfind (tdel t k) c = if c = k then none else tfind t c := by
  by_cases same : c = k
  · rw [if_pos same, same, tfind_tdel_self]
  · rw [if_neg same]
    induction t with
    | nil => rfl
    | cons p r ih =>
      obtain ⟨j, v⟩ := p
      by_cases listed : j = k
      · subst listed
        simp only [tdel, bne_self_eq_false, Bool.false_eq_true, not_false_eq_true, List.filter_cons_of_neg]
        exact ih.trans (by rw [tfind, if_neg (Ne.symm same)])
      · have kept : tdel ((j, v) :: r) k = (j, v) :: tdel r k := List.filter_cons_of_pos (by simpa using listed)
        rw [kept, tfind, tfind, ih]

theorem State.ctxGone_congr {s t : State} (same : t.ctxs = s.ctxs) (c : Nat) : t.ctxGone c = s.ctxGone c := by
  unfold State.ctxGone State.ctx
  rw [same]

theorem State.freeCtx_gone {c : Nat} (gone : s.ctxGone c = true) (d : Nat) : (s.freeCtx b d).ctxGone c = true := by
  unfold State.freeCtx
  split
  · exact gone
  · split
    · refine (State.ctxGone_congr ((State.berthEvent_frame _ _ _ _ _ _).frame .ctxs (by decide)) c).trans ?_
      unfold State.ctxGone State.ctx at gone ⊢
      rw [tfind_tdel]
      by_cases same : c = d
      · rw [if_pos same]
        rfl
      · rw [if_neg same]
        exact gone
    · exact gone

theorem State.retireRest_ctxs (s : State) (b q status : Nat) : (s.retireRest b q status).ctxs = s.ctxs :=
  (State.retireRest_frame _ _ _ _).frame .ctxs (by decide)

theorem State.sweepQueue_gone {c : Nat} (gone : s.ctxGone c = true) (q : Nat) : (s.sweepQueue b q).ctxGone c = true := by
  unfold State.sweepQueue
  split
  · exact gone
  · extract_lets t
    have rest : t.ctxGone c = true := by
      unfold t
      split
      · exact (State.ctxGone_congr (State.retireRest_ctxs ..) c).trans gone
      · exact gone
    split
    · exact rest
    · split
      · exact State.freeCtx_gone (s := t.modBerth b _) rest _
      · exact rest

theorem State.abandonQueue_gone {c : Nat} (gone : s.ctxGone c = true) (q : Nat) : (s.abandonQueue b q).ctxGone c = true := by
  unfold State.abandonQueue
  split
  · exact gone
  · refine State.sweepQueue_gone ?_ q
    split
    · exact (State.ctxGone_congr (State.retireRest_ctxs ..) c).trans gone
    · split
      · exact gone
      · split
        · exact (State.ctxGone_congr ((State.endCmd_frame _ _ _ _ _ _ _).frame .ctxs (by decide)) c).trans gone
        · split
          · cases (s.berth b).take with
            | none => exact gone
            | some t => exact (State.ctxGone_congr ((State.takeEnd_frame _ _ _ _).frame .ctxs (by decide)) c).trans gone
          · exact gone

/-- An abandoned context is gone. -/
theorem State.abandonCtx_gone (s : State) (b c : Nat) : (s.abandonCtx b c).ctxGone c = true := by
  unfold State.abandonCtx
  split
  · next missing =>
    unfold State.ctxGone
    rw [missing]
    rfl
  · next x there =>
    split
    · next abandoned =>
      unfold State.ctxGone
      rw [there]
      exact abandoned
    · extract_lets t qs idle t1 evs t2 t3
      have noted : t.ctxGone c = true := by
        unfold State.ctxGone State.ctx
        rw [tfind_tset_self]
        rfl
      have k1 : t1.ctxs = t.ctxs := forL_keeps State.ctxs idle t _ fun q u => State.retireRest_ctxs ..
      have k2 : t2.ctxs = t1.ctxs :=
        forL_keeps State.ctxs evs t1 _ fun h u => (State.evtSet_frame _ _ _ _ _).frame .ctxs (by decide)
      have k3 : t3.ctxs = t2.ctxs := (State.dropHolder_frame _ _ _).frame .ctxs (by decide)
      have left : t3.ctxGone c = true := (State.ctxGone_congr (k3.trans (k2.trans k1)) c).trans noted
      have queues : ∀ (l : List Nat) (u : State), u.ctxGone c = true → (forL l u fun q t => t.abandonQueue b q).ctxGone c = true := by
        intro l
        induction l with
        | nil => exact fun _ gone => gone
        | cons q r ih => exact fun u gone => ih _ (State.abandonQueue_gone gone q)
      exact State.freeCtx_gone (queues qs t3 left) c

end

/-! Queues. -/

section
variable {s : State} {b q : Nat} {x : QueueSt}

/-- A queue that is empty and wanted no more goes. -/
theorem State.sweepQueue_goes (front : s.queue b q = some x) (alive : s.ctxGone x.ctx = false) (empty : x.retired = x.admitted)
    (idle : x.run = none) (unwanted : x.destroying = true) : (s.sweepQueue b q).queue b q = none := by
  unfold State.sweepQueue
  simp only [front]
  have kept : (if s.ctxGone x.ctx = true then s.retireRest b q 0x0707 else s) = s := if_neg (by simp [alive])
  rw [kept]
  simp only [front]
  rw [if_pos ⟨empty, by simp [idle], .inl unwanted⟩]
  refine (State.queue_of_berth (State.freeCtx_keeps BerthSt.queues b ..) q).trans ?_
  rw [State.queue, State.berth_modBerth]
  exact tfind_tdel_self ..

/-- A queue that still has work stays. -/
theorem State.sweepQueue_stays (front : s.queue b q = some x) (alive : s.ctxGone x.ctx = false) (busy : x.retired ≠ x.admitted) :
    s.sweepQueue b q = s := by
  unfold State.sweepQueue
  simp only [front]
  have kept : (if s.ctxGone x.ctx = true then s.retireRest b q 0x0707 else s) = s := if_neg (by simp [alive])
  rw [kept]
  simp only [front]
  exact if_neg fun ⟨empty, _⟩ => busy empty

end

end Sys2Proof.Machine
end

section
/-!
The host's requests about contexts, queues and memory objects, one by one (15 R449-R455, R462, R475, R477).
-/

namespace Sys2Proof.Machine

/-! Memory objects and events by their handles. -/

section
variable {s : State} {b h : Nat}

/-- A handle that names a live object. -/
theorem objAt_some {o : ObjSt} (there : s.objAt b h = some o) :
    tget (s.berth b).objs {} (h % 2 ^ 20) = o ∧ o.live = true ∧ o.gen = h / 2 ^ 20 := by
  unfold State.objAt at there
  extract_lets x at there
  split at there
  · next holds =>
    obtain rfl := Option.some.inj there
    simpa [x] using holds
  · cases there

theorem objAt_of_entry {o : ObjSt} (entry : tget (s.berth b).objs {} (h % 2 ^ 20) = o) (live : o.live = true)
    (gen : o.gen = h / 2 ^ 20) : s.objAt b h = some o := by
  unfold State.objAt
  rw [entry]
  exact if_pos (by simp [live, gen])

theorem objAt_dead {o : ObjSt} (entry : tget (s.berth b).objs {} (h % 2 ^ 20) = o) (dead : o.live = false) :
    s.objAt b h = none := by
  unfold State.objAt
  rw [entry]
  exact if_neg (by simp [dead])

/-- A change of an object that leaves its handle. -/
theorem objAt_modObj {o : ObjSt} (there : s.objAt b h = some o) {f : ObjSt → ObjSt} (live : (f o).live = o.live)
    (gen : (f o).gen = o.gen) : (s.modObj b h f).objAt b h = some (f o) := by
  obtain ⟨entry, lives, number⟩ := objAt_some there
  refine objAt_of_entry ?_ (live.trans lives) (gen.trans number)
  rw [State.modObj, State.berth_modBerth]
  exact (tget_tset_self ..).trans (congrArg f entry)

theorem State.objSweep_held {o : ObjSt} (there : s.objAt b h = some o) (held : o.holders ≠ []) : s.objSweep b h = s := by
  unfold State.objSweep
  simp only [there]
  exact if_neg (by simp [held])

/-- The state with an object that nothing holds destroyed. -/
def State.destroyObj (s : State) (b h : Nat) (o : ObjSt) : State :=
  s.modBerth b fun x => { x with
    objs := tset x.objs (h % 2 ^ 20) { gen := o.gen % 4095 + 1 }, objFree := x.objFree ++ [h % 2 ^ 20] }

theorem State.objSweep_free {o : ObjSt} (there : s.objAt b h = some o) (free : o.holders = []) (unnamed : o.dref = 0) :
    s.objSweep b h = (s.destroyObj b h o).berthEvent b 0x07E5 h o.va := by
  unfold State.objSweep
  simp only [there]
  exact if_pos (by simp [free, unnamed])

theorem State.destroyObj_gone (s : State) (b h : Nat) (o : ObjSt) : (s.destroyObj b h o).objAt b h = none := by
  refine objAt_dead (o := { gen := o.gen % 4095 + 1 }) ?_ rfl
  rw [State.destroyObj, State.berth_modBerth]
  exact tget_tset_self ..

theorem handle_parts (i g n : Nat) (below : i < n) : (i + n * g) % n = i ∧ (i + n * g) / n = g := by
  have some : 0 < n := by omega
  exact ⟨by rw [Nat.add_mul_mod_self_left, Nat.mod_eq_of_lt below],
    by rw [Nat.add_mul_div_left _ _ some, Nat.div_eq_of_lt below, Nat.zero_add]⟩

end

/-! The requests. -/

section
variable {s : State} {m b : Nat} (here : (s.berth b).life ≠ .absent)
include here

theorem ctxCreate_run {i : Nat} (request : Request s m 0x01 b)
    (free : firstBelow 65536 (fun c => (s.ctx c).isNone) = some i) :
    exec (.ctxCreate m) s = .next (({ s with ctxs := tset s.ctxs i { berth := b } } : State).mbReply m 0 [i]) :=
  congrArg Host.Outcome.next (State.serve_request request (fun _ => here) (by simp only [free]))

theorem ctxAbandon_run (request : Request s m 0x02 b) (known : s.ctxOk b (s.reqWord m 1) = true) :
    exec (.ctxAbandon m) s = .next ((s.abandonCtx b (s.reqWord m 1)).mbReply m 0 []) :=
  congrArg Host.Outcome.next (State.serve_request request (fun _ => here) (if_pos known))

theorem ctxAbandon_refused (request : Request s m 0x02 b) (unknown : s.ctxOk b (s.reqWord m 1) = false) :
    exec (.ctxAbandon m) s = .next (s.mbReply m 0x0743 []) :=
  congrArg Host.Outcome.next (State.serve_request request (fun _ => here) (if_neg (by simp [unknown])))

/-- A queue as a request creates it. -/
def State.newQueue (s : State) (m : Nat) : QueueSt :=
  { ctx := s.reqWord m 1, pos := s.reqWord m 2 % 32, step := bitOf (s.reqWord m 2) 8, log2 := bitsOf (s.reqWord m 2) 20 16,
    hostRing := s.reqLong m 3, cplRing := s.reqLong m 5, staging := s.reqLong m 7 }

theorem queueCreate_run {q : Nat} (request : Request s m 0x03 b) (known : s.ctxOk b (s.reqWord m 1) = true)
    (short : s.reqWord m 2 < 2 ^ 21) (zero : bitsOf (s.reqWord m 2) 7 5 = 0) (zero' : bitsOf (s.reqWord m 2) 15 9 = 0)
    (large : 4 ≤ bitsOf (s.reqWord m 2) 20 16) (small : bitsOf (s.reqWord m 2) 20 16 ≤ 16)
    (placed : s.reqWord m 2 % 32 < (s.berth b).dies.length)
    (alone : bitOf (s.reqWord m 2) 8 = true → ∀ p ∈ (s.berth b).queues, p.2.step = false)
    (free : firstBelow 16384 (fun q => (s.queue b q).isNone) = some q) :
    exec (.queueCreate m) s =
      .next ((s.modBerth b fun x => { x with queues := tset x.queues q (s.newQueue m) }).mbReply m 0 [q]) := by
  refine congrArg Host.Outcome.next (State.serve_request request (fun _ => here) ((if_neg (by simp [known])).trans
    ((if_neg ?_).trans (by simp only [free]; rfl))))
  rintro (high | low5 | low9 | few | many | off | ⟨steps, other⟩)
  · exact high (Nat.div_eq_of_lt short)
  · exact low5 zero
  · exact low9 zero'
  · omega
  · omega
  · omega
  · obtain ⟨p, inside, stepped⟩ := List.any_eq_true.1 other
    exact absurd ((alone steps p inside).symm.trans stepped) (by decide)

theorem queueDestroy_run {x : QueueSt} (request : Request s m 0x04 b) (front : s.queue b (s.reqWord m 1) = some x) :
    exec (.queueDestroy m) s = .next (((s.modQueue b (s.reqWord m 1) fun x => { x with destroying := true }).sweepQueue b
      (s.reqWord m 1)).mbReply m 0 []) :=
  congrArg Host.Outcome.next (State.serve_request request (fun _ => here) (if_neg (by simp [front])))

theorem queueStop_run {x : QueueSt} (request : Request s m 0x05 b) (front : s.queue b (s.reqWord m 1) = some x)
    (gentle : s.reqWord m 2 = 0) :
    exec (.queueStop m) s = .next ((s.modQueue b (s.reqWord m 1) fun y => { y with stopped := true }).mbReply m 0 []) := by
  refine congrArg Host.Outcome.next (State.serve_request request (fun _ => here) ?_)
  simp only [front, gentle]
  refine (if_neg (by decide)).trans ?_
  cases x.run.bind fun r => r.launch <;> rfl

theorem queueStart_run {x : QueueSt} (request : Request s m 0x06 b) (front : s.queue b (s.reqWord m 1) = some x) :
    exec (.queueStart m) s = .next ((s.modQueue b (s.reqWord m 1) fun x => { x with stopped := false }).mbReply m 0 []) :=
  congrArg Host.Outcome.next (State.serve_request request (fun _ => here) (if_neg (by simp [front])))

/-- A request about a queue that does not exist is refused. -/
theorem queueRequest_refused {r : Nat} {i : Instr} (missing : s.queue b (s.reqWord m 1) = none)
    (listed : (r, i) ∈ [(0x04, Instr.queueDestroy m), (0x05, Instr.queueStop m), (0x06, Instr.queueStart m)])
    (request : Request s m r b) : exec i s = .next (s.mbReply m 0x0742 []) := by
  simp only [List.mem_cons, Prod.mk.injEq, List.not_mem_nil, or_false] at listed
  obtain ⟨rfl, rfl⟩ | ⟨rfl, rfl⟩ | ⟨rfl, rfl⟩ := listed
  · exact congrArg Host.Outcome.next (State.serve_request request (fun _ => here) (if_pos (by simp [missing])))
  · refine congrArg Host.Outcome.next (State.serve_request (t := s) (words := []) request (fun _ => here) ?_)
    simp only [missing]
    rfl
  · exact congrArg Host.Outcome.next (State.serve_request request (fun _ => here) (if_pos (by simp [missing])))

/-- A memory object as a request creates it. -/
def State.newObj (s : State) (m g : Nat) : ObjSt :=
  { gen := g, live := true, va := s.reqLong m 2, bytes := s.reqLong m 4, holders := [s.reqWord m 1] }

/-- The state with the next memory object of a berth. -/
def State.addObj (s : State) (m b : Nat) : State :=
  s.modBerth b fun y => { y with
    objs := tset y.objs (s.berth b).objNext (s.newObj m (tget (s.berth b).objs {} (s.berth b).objNext).gen),
    objFree := [], objNext := y.objNext + 1 }

theorem objCreate_run (request : Request s m 0x07 b) (known : s.ctxOk b (s.reqWord m 1) = true)
    (mapped : allMapped (s.berth b).maps (s.reqLong m 2) (s.reqLong m 4) = true) (none : (s.berth b).objFree = [])
    (room : (s.berth b).objNext < 2 ^ 20) : exec (.objCreate m) s = .next ((s.addObj m b).mbReply m 0
      [(s.berth b).objNext + 2 ^ 20 * (tget (s.berth b).objs {} (s.berth b).objNext).gen]) := by
  refine congrArg Host.Outcome.next (State.serve_request request (fun _ => here) ((if_neg (by simp [known])).trans
    ((if_neg (by simp [mapped])).trans ?_)))
  have fits : decide ((s.berth b).objNext < 2 ^ 20) = true := decide_eq_true room
  simp only [none, fits]
  rfl

section
variable {o : ObjSt} (known : s.ctxOk b (s.reqWord m 1) = true) (there : s.objAt b (s.reqWord m 2) = some o)
include known there

theorem objImport_run (request : Request s m 0x08 b) : exec (.objImport m) s = .next ((s.modObj b (s.reqWord m 2) fun o =>
    { o with holders := if o.holders.contains (s.reqWord m 1) then o.holders else o.holders ++ [s.reqWord m 1] }).mbReply m 0 []) :=
  congrArg Host.Outcome.next (State.serve_request request (fun _ => here) ((if_neg (by simp [known])).trans
    (if_neg (by simp [there]))))

/-- The state with a context's hold on an object dropped. -/
def State.unholdObj (s : State) (m b : Nat) : State :=
  s.modObj b (s.reqWord m 2) fun o => { o with holders := o.holders.filter fun x => x != s.reqWord m 1 }

theorem objRelease_run (request : Request s m 0x09 b) (holds : s.reqWord m 1 ∈ o.holders) :
    exec (.objRelease m) s = .next (((s.unholdObj m b).objSweep b (s.reqWord m 2)).mbReply m 0 []) := by
  refine congrArg Host.Outcome.next (State.serve_request request (fun _ => here) ((if_neg (by simp [known])).trans ?_))
  simp only [there]
  exact if_pos (by simpa using holds)

omit here known in
theorem State.unholdObj_at : (s.unholdObj m b).objAt b (s.reqWord m 2) =
    some { o with holders := o.holders.filter fun x => x != s.reqWord m 1 } := objAt_modObj there rfl rfl

end

end

theorem filter_others_ne_nil {l : List Nat} {c : Nat} (other : ∃ x ∈ l, x ≠ c) : (l.filter fun x => x != c) ≠ [] := by
  obtain ⟨x, inside, distinct⟩ := other
  exact List.ne_nil_of_mem (List.mem_filter.2 ⟨inside, by simpa using distinct⟩)

theorem filter_others_nil {l : List Nat} {c : Nat} (all : ∀ x ∈ l, x = c) : (l.filter fun x => x != c) = [] :=
  List.filter_eq_nil_iff.2 fun x inside => by simp [all x inside]

theorem contextsQueuesAndObjects : ContextsQueuesAndObjects := by
  refine fun s m b c here => ⟨fun request i free => ?create, fun request named known => ?abandon, fun request unknown => ?unknown,
    fun request known w q word short zero zero' large small placed alone free => ?queue,
    fun x front => ⟨fun request alive busy => ?destroying, fun request alive empty idle => ?destroyed,
      fun request gentle => ?stopped, fun request => ?started⟩,
    fun missing r i listed request => ?missing, fun request known mapped none room h g gen handle => ?object,
    fun o known there => ⟨fun request => ?imported, fun request holds others => ?held, fun request holds alone unnamed => ?freed⟩⟩
  case create =>
    refine ⟨_, ctxCreate_run here request free, request.answered (t := { s with ctxs := tset s.ctxs i { berth := b } }) (Stands.of_mbox rfl) [i], ?_⟩
    rw [State.ctx, State.mbReply_ctxs]
    exact tfind_tset_self ..
  case abandon =>
    subst named
    refine ⟨_, ctxAbandon_run here request known, request.answered (State.abandonCtx_stands request.service s b _) [], ?_⟩
    rw [State.ctxGone_congr State.mbReply_ctxs]
    exact State.abandonCtx_gone ..
  case unknown => exact ⟨_, ctxAbandon_refused here request unknown, request.refused, State.mbReply_ctxs⟩
  case queue =>
    subst word
    refine ⟨_, queueCreate_run here request known short zero zero' large small placed alone free,
      request.answered (State.modBerth_stands m ..) [q], ?_⟩
    rw [State.mbReply_queue, State.queue, State.berth_modBerth]
    exact tfind_tset_self ..
  case destroying =>
    have marked := State.queue_modQueue front fun x => { x with destroying := true }
    have stands := State.modQueue_stands m s b (s.reqWord m 1) fun x => { x with destroying := true }
    have alive' : (s.modQueue b (s.reqWord m 1) fun x => { x with destroying := true }).ctxGone x.ctx = false :=
      (State.ctxGone_congr ((State.modQueue_frame _ _ _ _).frame .ctxs (by decide)) _).trans alive
    have run := queueDestroy_run here request front
    rw [State.sweepQueue_stays marked alive' busy] at run
    exact ⟨_, run, request.answered stands [], (State.mbReply_queue ..).trans marked⟩
  case destroyed =>
    have marked := State.queue_modQueue front fun x => { x with destroying := true }
    have stands := State.modQueue_stands m s b (s.reqWord m 1) fun x => { x with destroying := true }
    have alive' : (s.modQueue b (s.reqWord m 1) fun x => { x with destroying := true }).ctxGone x.ctx = false :=
      (State.ctxGone_congr ((State.modQueue_frame _ _ _ _).frame .ctxs (by decide)) _).trans alive
    exact ⟨_, queueDestroy_run here request front, request.answered (stands.trans (State.sweepQueue_stands m ..)) [],
      (State.mbReply_queue ..).trans (State.sweepQueue_goes marked alive' empty idle rfl)⟩
  case stopped =>
    exact ⟨_, queueStop_run here request front gentle, request.answered (State.modQueue_stands m ..) [],
      (State.mbReply_queue ..).trans (State.queue_modQueue front _)⟩
  case started =>
    exact ⟨_, queueStart_run here request front, request.answered (State.modQueue_stands m ..) [],
      (State.mbReply_queue ..).trans (State.queue_modQueue front _)⟩
  case missing => exact ⟨_, queueRequest_refused here missing listed request, request.refused, State.mbReply_berths⟩
  case object =>
    subst gen handle
    obtain ⟨index, number⟩ := handle_parts (s.berth b).objNext (tget (s.berth b).objs {} (s.berth b).objNext).gen (2 ^ 20) room
    refine ⟨_, objCreate_run here request known mapped none room, request.answered (State.modBerth_stands m ..) [_], ?_⟩
    rw [State.mbReply_objAt]
    refine objAt_of_entry ?_ rfl number.symm
    rw [index, State.addObj, State.berth_modBerth]
    exact tget_tset_self ..
  case imported =>
    refine ⟨_, _, objImport_run here known there request, request.answered (State.modBerth_stands m ..) [],
      (State.mbReply_objAt ..).trans (objAt_modObj there rfl rfl), ?_, rfl, rfl⟩
    dsimp only
    split
    · next held => simpa using held
    · simp
  case held =>
    have kept := State.unholdObj_at (m := m) there
    have run := objRelease_run here known there request holds
    rw [State.objSweep_held kept (filter_others_ne_nil others)] at run
    exact ⟨_, _, run, request.answered (State.modBerth_stands m ..) [], (State.mbReply_objAt ..).trans kept, by simp, rfl⟩
  case freed =>
    have kept := State.unholdObj_at (m := m) there
    have run := objRelease_run here known there request holds
    rw [State.objSweep_free kept (filter_others_nil alone) unnamed] at run
    have raised := State.raises_berthEvent ((s.unholdObj m b).destroyObj b (s.reqWord m 2)
      { o with holders := o.holders.filter fun x => x != s.reqWord m 1 }) b 0x07E5 (s.reqWord m 2) o.va []
    refine ⟨_, run, request.answered ?_ [], ?_, (raised.of_out_eq rfl).grow (State.mbReply_frame _ _ _ _).grows⟩
    · exact ((State.modBerth_stands m ..).trans (State.modBerth_stands m ..)).trans (State.berthEvent_stands m ..)
    · rw [State.mbReply_objAt, State.objAt_of_objs (State.berthEvent_keeps BerthSt.objs b ..)]
      exact State.destroyObj_gone ..

end Sys2Proof.Machine
end

section
/-!
The host's requests about events, barges, notices, resumption, reset, pages, assignments and segment loads (15 R454-R456, R473,
R474; 10 R305; 14 R428, R432; 15 R460).
-/

namespace Sys2Proof.Machine

/-! Events by their handles. -/

section
variable {s : State} {b h : Nat} {e : EvtSt}

/-- A handle that names a live event. -/
theorem evtAt_some (there : s.evtAt b h = some e) :
    tget (s.berth b).evts {} (h % 2 ^ 18) = e ∧ e.live = true ∧ e.gen = h / 2 ^ 18 := by
  unfold State.evtAt at there
  extract_lets x at there
  split at there
  · next holds =>
    obtain rfl := Option.some.inj there
    simpa [x] using holds
  · cases there

theorem evtAt_of_entry (entry : tget (s.berth b).evts {} (h % 2 ^ 18) = e) (live : e.live = true) (gen : e.gen = h / 2 ^ 18) :
    s.evtAt b h = some e := by
  unfold State.evtAt
  rw [entry]
  exact if_pos (by simp [live, gen])

theorem evtAt_dead (entry : tget (s.berth b).evts {} (h % 2 ^ 18) = e) (dead : e.live = false) : s.evtAt b h = none := by
  unfold State.evtAt
  rw [entry]
  exact if_neg (by simp [dead])

/-- A change of an event that leaves its handle. -/
theorem evtAt_modEvt (there : s.evtAt b h = some e) {f : EvtSt → EvtSt} (live : (f e).live = e.live) (gen : (f e).gen = e.gen) :
    (s.modEvt b h f).evtAt b h = some (f e) := by
  obtain ⟨entry, lives, number⟩ := evtAt_some there
  refine evtAt_of_entry ?_ (live.trans lives) (gen.trans number)
  rw [State.modEvt, State.berth_modBerth]
  exact (tget_tset_self ..).trans (congrArg f entry)

theorem State.evtSweep_held (there : s.evtAt b h = some e) (held : e.holders ≠ []) : s.evtSweep b h = s := by
  unfold State.evtSweep
  simp only [there]
  exact if_neg (by simp [held])

/-- An event that nothing holds or names is destroyed. -/
theorem State.evtSweep_gone (there : s.evtAt b h = some e) (free : e.holders = []) (unnamed : e.dref = 0) :
    (s.evtSweep b h).evtAt b h = none := by
  unfold State.evtSweep
  simp only [there]
  rw [if_pos (by simp [free, unnamed])]
  refine evtAt_dead (e := { gen := e.gen % 16383 + 1 }) ?_ rfl
  rw [State.berth_modBerth]
  exact tget_tset_self ..

/-- A signal takes the greater value. -/
theorem State.evtSet_signal (there : s.evtAt b h = some e) (open_ : e.status = 0) {v : Nat} (small : v < 2 ^ 64) :
    ∃ p, (s.evtSet b h v 0).evtAt b h = some p ∧ p.status = 0 ∧ p.value.toNat = max e.value.toNat v := by
  unfold State.evtSet
  rw [there]
  dsimp only
  generalize greater : (if (0 : Nat) = 0 then max e.value.toNat v else e.value.toNat) = g
  rw [if_pos rfl] at greater
  replace greater := greater.symm
  split
  · next same =>
    rcases same with failed | ⟨same, -⟩
    · exact absurd open_ failed
    · exact ⟨e, there, open_, same.symm.trans greater⟩
  · have changed := evtAt_modEvt there (f := fun x => { x with value := BitVec.ofNat 64 g, status := 0 }) rfl rfl
    have read : (BitVec.ofNat 64 g).toNat = max e.value.toNat v := by
      have := e.value.isLt
      rw [BitVec.toNat_ofNat, Nat.mod_eq_of_lt (by omega), greater]
    refine ⟨{ e with value := BitVec.ofNat 64 g, status := 0 }, ?_, rfl, read⟩
    split
    · exact (State.evtAt_of_evts (State.berthEvent_keeps BerthSt.evts b ..) h).trans changed
    · exact changed

/-- A failed event stays as it is. -/
theorem State.evtSet_failed (there : s.evtAt b h = some e) (failed : e.status ≠ 0) (v status : Nat) : s.evtSet b h v status = s := by
  unfold State.evtSet
  simp only [there]
  exact if_pos (.inl failed)

end

/-! A released berth, and other mailboxes than the one that is answered. -/

section
variable {s : State} {b : Nat}

theorem State.boundaryActions_none (none : (s.berth b).boundary = false) : s.boundaryActions b = s := by
  unfold State.boundaryActions
  exact if_pos (by simp [none])

/-- Between boundaries a release leaves the berth not held. -/
theorem State.release_between (none : (s.berth b).boundary = false) :
    ((s.release b).berth b).held = false ∧ ∀ m, Stands m s (s.release b) := by
  cases held : (s.berth b).held with
  | false =>
    rw [State.release_not_held held]
    exact ⟨held, fun m => Stands.refl m s⟩
  | true =>
    have none' : ((s.modBerth b fun x => { x with held := false }).berth b).boundary = false := by
      rw [State.berth_modBerth]
      exact none
    rw [State.release_held held, State.boundaryActions_none none', State.berth_modBerth]
    exact ⟨rfl, fun m => State.modBerth_stands m ..⟩

theorem State.ring_mb_other (s : State) {m n : Nat} (other : n ≠ m) (bits : BitVec 32) : (s.ring m bits).mb n = s.mb n := by
  unfold State.ring
  extract_lets bell t
  split
  · exact State.mb_modMb_other s _ other
  · exact (State.mb_modMb_other s _ other : t.mb n = _)

theorem State.mbAnswer_mb_other (s : State) {m n : Nat} (other : n ≠ m) (code words : Nat) :
    (s.mbAnswer m code words).mb n = s.mb n := by
  unfold State.mbAnswer
  split
  · exact (State.ring_mb_other _ other 1).trans (State.mb_modMb_other s _ other)
  · rfl

theorem State.mbReply_mb_other (s : State) {m n : Nat} (other : n ≠ m) (code : Nat) (words : List Nat) :
    (s.mbReply m code words).mb n = s.mb n :=
  (State.mbAnswer_mb_other _ other _ _).trans (State.mb_modMb_other s _ other)

theorem State.mbReply_fn (s : State) (m code : Nat) (words : List Nat) (f : Nat) : (s.mbReply m code words).fn f = s.fn f :=
  State.fn_of_host ((State.mbReply_frame _ _ _ _).frame .host (by decide)) f

end

/-- The state with a mailbox assigned to a berth, or to none. -/
def State.assignMb (s : State) (n : Nat) (o : Option Nat) : State := s.modMb n fun y => { y with assigned := o }

theorem State.assignMb_mb (s : State) (n : Nat) (o : Option Nat) : (s.assignMb n o).mb n = { s.mb n with assigned := o } :=
  State.mb_modMb ..

theorem State.assignMb_stands (m : Nat) (s : State) (n : Nat) (o : Option Nat) : Stands m s (s.assignMb n o) :=
  State.modMb_stands s n fun _ => rfl

/-! The requests. -/

section
variable {s : State} {m b : Nat}

/-- A request that names no berth. -/
theorem State.serve_unnamed {r : Nat} (request : Request s m r b) {f : Nat → State → Reply} {code : Nat} {words : List Nat}
    {t : State} (served : f b s = (code, words, t)) : s.serve m r false f = t.mbReply m code (if code = 0 then words else []) :=
  State.serve_request request (fun named => absurd named (by decide)) served

section
variable (here : (s.berth b).life ≠ .absent)
include here

/-- An event as a request creates it. -/
def State.newEvt (s : State) (m g : Nat) : EvtSt :=
  { gen := g, live := true, value := BitVec.ofNat 64 (s.reqLong m 2), notify := decide (s.reqWord m 4 = 1),
    creator := s.reqWord m 1, holders := [s.reqWord m 1] }

/-- The state with the next event of a berth. -/
def State.addEvt (s : State) (m b : Nat) : State :=
  s.modBerth b fun y => { y with
    evts := tset y.evts (s.berth b).evtNext (s.newEvt m (tget (s.berth b).evts {} (s.berth b).evtNext).gen),
    evtFree := [], evtNext := y.evtNext + 1 }

theorem evtCreate_run (request : Request s m 0x0A b) (known : s.ctxOk b (s.reqWord m 1) = true) (flags : s.reqWord m 4 ≤ 1)
    (none : (s.berth b).evtFree = []) (room : (s.berth b).evtNext < 2 ^ 18) :
    exec (.evtCreate m) s = .next ((s.addEvt m b).mbReply m 0
      [(s.berth b).evtNext + 2 ^ 18 * (tget (s.berth b).evts {} (s.berth b).evtNext).gen]) := by
  refine congrArg Host.Outcome.next (State.serve_request request (fun _ => here) ((if_neg (by simp [known])).trans
    ((if_neg (Nat.not_lt.2 flags)).trans ?_)))
  have fits : decide ((s.berth b).evtNext < 2 ^ 18) = true := decide_eq_true room
  simp only [none, fits]
  rfl

section
variable {e : EvtSt} (known : s.ctxOk b (s.reqWord m 1) = true) (there : s.evtAt b (s.reqWord m 2) = some e)
include known there

theorem evtImport_run (request : Request s m 0x0B b) : exec (.evtImport m) s = .next ((s.modEvt b (s.reqWord m 2) fun e =>
    { e with holders := if e.holders.contains (s.reqWord m 1) then e.holders else e.holders ++ [s.reqWord m 1] }).mbReply m 0 []) :=
  congrArg Host.Outcome.next (State.serve_request request (fun _ => here) ((if_neg (by simp [known])).trans
    (if_neg (by simp [there]))))

/-- The state with a context's hold on an event dropped. -/
def State.unholdEvt (s : State) (m b : Nat) : State :=
  s.modEvt b (s.reqWord m 2) fun e => { e with holders := e.holders.filter fun x => x != s.reqWord m 1 }

theorem evtRelease_run (request : Request s m 0x0C b) (holds : s.reqWord m 1 ∈ e.holders) :
    exec (.evtRelease m) s = .next (((s.unholdEvt m b).evtSweep b (s.reqWord m 2)).mbReply m 0 []) := by
  refine congrArg Host.Outcome.next (State.serve_request request (fun _ => here) ((if_neg (by simp [known])).trans ?_))
  simp only [there]
  exact if_pos (by simpa using holds)

omit here known in
theorem State.unholdEvt_at : (s.unholdEvt m b).evtAt b (s.reqWord m 2) =
    some { e with holders := e.holders.filter fun x => x != s.reqWord m 1 } := evtAt_modEvt there rfl rfl

end

section
variable {e : EvtSt} (there : s.evtAt b (s.reqWord m 1) = some e)
include there

theorem evtQuery_run (request : Request s m 0x0D b) : exec (.evtQuery m) s = .next (s.mbReply m 0
    [e.value.toNat % 2 ^ 32, e.value.toNat / 2 ^ 32, e.status]) :=
  congrArg Host.Outcome.next (State.serve_request request (fun _ => here) (by simp only [there]))

theorem evtSignal_run (request : Request s m 0x0E b) :
    exec (.evtSignal m) s = .next ((s.evtSet b (s.reqWord m 1) (s.reqLong m 2) 0).mbReply m 0 []) :=
  congrArg Host.Outcome.next (State.serve_request request (fun _ => here) (if_neg (by simp [there])))

end

theorem resumeBerth_run (request : Request s m 0x12 b) : exec (.resumeBerth m) s = .next ((s.release b).mbReply m 0 []) :=
  congrArg Host.Outcome.next (State.serve_request request (fun _ => here) rfl)

theorem resetBerth_run (request : Request s m 0x13 b) (active : (s.berth b).life = .active) : exec (.resetBerth m) s =
    .next (((s.modBerth b fun x => { x with wantReset := true }).startReset b).mbReply m 0 []) :=
  congrArg Host.Outcome.next (State.serve_request request (fun _ => here) (by rw [askReset_active active]; rfl))

/-- The range of addresses that a request maps. -/
def State.newMap (s : State) (m : Nat) : MapEnt :=
  { va := s.reqLong m 1, pa := s.reqLong m 3, shift := pageShift (s.reqWord m 6 % 4), pages := s.reqWord m 5,
    read := bitOf (s.reqWord m 6) 2, write := bitOf (s.reqWord m 6) 3 }

/-- The state with the requested range mapped. -/
def State.mapRange (s : State) (m b : Nat) : State := s.modBerth b fun x => { x with maps := x.maps ++ [s.newMap m] }

omit here in
theorem State.mapRange_maps (s : State) (m b : Nat) : ((s.mapRange m b).berth b).maps = (s.berth b).maps ++ [s.newMap m] :=
  (congrArg BerthSt.maps (State.berth_modBerth ..) :)

theorem mapPages_run (request : Request s m 0x20 b) (flags : s.reqWord m 6 < 16) (size : s.reqWord m 6 % 4 ≠ 3)
    (some : s.reqWord m 5 ≠ 0) (va : s.reqLong m 1 % 2 ^ pageShift (s.reqWord m 6 % 4) = 0)
    (pa : s.reqLong m 3 % 2 ^ pageShift (s.reqWord m 6 % 4) = 0)
    (top : s.reqLong m 1 + s.reqWord m 5 * 2 ^ pageShift (s.reqWord m 6 % 4) ≤ 2 ^ 57)
    (apart : ∀ x ∈ (s.berth b).maps, s.reqLong m 1 + s.reqWord m 5 * 2 ^ pageShift (s.reqWord m 6 % 4) ≤ x.va ∨
      x.va + x.pages * 2 ^ x.shift ≤ s.reqLong m 1) :
    exec (.mapPages m) s = .next ((s.mapRange m b).mbReply m 0 []) := by
  refine congrArg Host.Outcome.next (State.serve_request request (fun _ => here) ((if_neg ?_).trans ((if_neg ?_).trans rfl)))
  · rintro (high | code | zero)
    · omega
    · exact size code
    · exact some zero
  · rintro (offVa | offPa | high | overlaps)
    · exact offVa va
    · exact offPa pa
    · exact absurd top (Nat.not_le.2 high)
    · obtain ⟨x, inside, overlap⟩ := List.any_eq_true.1 overlaps
      obtain ⟨below, above⟩ := Bool.and_eq_true_iff.1 overlap
      rcases apart x inside with low | high
      · exact absurd low (Nat.not_le.2 (of_decide_eq_true above))
      · exact absurd high (Nat.not_le.2 (of_decide_eq_true below))

/-- The state with the addresses from `lo` to below `hi` of a berth unmapped. -/
def State.unmapRange (s : State) (b lo hi : Nat) : State :=
  s.modBerth b fun x => { x with maps := x.maps.flatMap fun e => e.cut lo hi }

omit here in
theorem State.unmapRange_maps (s : State) (b lo hi : Nat) :
    ((s.unmapRange b lo hi).berth b).maps = (s.berth b).maps.flatMap fun e => e.cut lo hi :=
  (congrArg BerthSt.maps (State.berth_modBerth ..) :)

theorem unmapPages_run (request : Request s m 0x21 b) (size : s.reqWord m 4 < 3) (some : s.reqWord m 3 ≠ 0)
    (va : s.reqLong m 1 % 2 ^ pageShift (s.reqWord m 4 % 4) = 0)
    (mapped : ∀ i < s.reqWord m 3, ∃ e, findMap (s.berth b).maps (s.reqLong m 1 + i * 2 ^ pageShift (s.reqWord m 4 % 4)) = .some e ∧
      e.shift = pageShift (s.reqWord m 4 % 4))
    (apart : ∀ x ∈ s.objHandles b, ∀ o, s.objAt b x = .some o →
      o.va + o.bytes ≤ s.reqLong m 1 ∨ s.reqLong m 1 + s.reqWord m 3 * 2 ^ pageShift (s.reqWord m 4 % 4) ≤ o.va) :
    exec (.unmapPages m) s = .next ((s.unmapRange b (s.reqLong m 1)
      (s.reqLong m 1 + s.reqWord m 3 * 2 ^ pageShift (s.reqWord m 4 % 4))).mbReply m 0 []) := by
  refine congrArg Host.Outcome.next (State.serve_request request (fun _ => here) ((if_neg ?_).trans ((if_neg ?_).trans rfl)))
  · rintro (high | zero)
    · omega
    · exact some zero
  · rintro (off | missing | overlaps)
    · exact off va
    · have all : ((List.range (s.reqWord m 3)).all fun i => (findMap (s.berth b).maps
          (s.reqLong m 1 + i * 2 ^ pageShift (s.reqWord m 4 % 4))).elim false fun e =>
            e.shift == pageShift (s.reqWord m 4 % 4)) = true := by
        refine List.all_eq_true.2 fun i inside => ?_
        obtain ⟨e, found, shift⟩ := mapped i (List.mem_range.1 inside)
        rw [found]
        exact beq_iff_eq.2 shift
      rw [all] at missing
      exact absurd missing (by decide)
    · obtain ⟨x, inside, overlap⟩ := List.any_eq_true.1 overlaps
      cases found : s.objAt b x with
      | none =>
        rw [found] at overlap
        exact absurd overlap Bool.false_ne_true
      | some o =>
        rw [found] at overlap
        obtain ⟨below, above⟩ := Bool.and_eq_true_iff.1 overlap
        rcases apart x inside o found with low | high
        · exact absurd low (Nat.not_le.2 (of_decide_eq_true below))
        · exact absurd high (Nat.not_le.2 (of_decide_eq_true above))

end

theorem bargeSetup_run (request : Request s m 0x10 b) (page : s.reqLong m 1 % 4096 = 0) (short : s.reqWord m 3 < 2 ^ 15)
    (zero : bitsOf (s.reqWord m 3) 7 5 = 0) (large : 16 ≤ s.reqWord m 3 % 32) (small : s.reqWord m 3 % 32 ≤ 26)
    (some : bitsOf (s.reqWord m 3) 14 8 ≠ 0) (few : bitsOf (s.reqWord m 3) 14 8 ≤ 64) (owns : (s.fn (mbFunction m)).bargeOwn = 0) :
    exec (.bargeSetup m) s = .next ((s.modFn (mbFunction m) fun x => { x with
      barge := .some (s.reqLong m 1, s.reqWord m 3 % 32, bitsOf (s.reqWord m 3) 14 8) }).mbReply m 0 []) := by
  refine congrArg Host.Outcome.next (State.serve_unnamed request ((if_neg ?_).trans
    ((if_neg (not_not_intro owns)).trans rfl)))
  rintro (off | high | low | below | above | none | many)
  · exact off page
  · exact high (Nat.div_eq_of_lt short)
  · exact low zero
  · omega
  · omega
  · exact some none
  · omega

theorem noticeSetup_run (request : Request s m 0x11 b) (line : s.reqLong m 1 % 64 = 0) (large : 6 ≤ s.reqWord m 3)
    (small : s.reqWord m 3 ≤ 16) : exec (.noticeSetup m) s = .next ((s.modFn (mbFunction m) fun x => { x with
      ring := some (s.reqLong m 1, s.reqWord m 3) }).mbReply m 0 []) := by
  refine congrArg Host.Outcome.next (State.serve_unnamed request ((if_neg ?_).trans rfl))
  rintro (odd | below | above)
  · exact odd line
  · omega
  · omega

section
variable (low : 98 ≤ s.reqWord m 1) (high : s.reqWord m 1 ≤ 127) (short : s.reqWord m 2 < 2 ^ 9)
  (zero : bitsOf (s.reqWord m 2) 7 5 = 0)
include low high short zero

theorem mbAssign_formed : ¬(s.reqWord m 1 < 98 ∨ 127 < s.reqWord m 1 ∨ s.reqWord m 2 / 2 ^ 9 ≠ 0 ∨
    bitsOf (s.reqWord m 2) 7 5 ≠ 0) := by
  rintro (below | above | long | reserved)
  · omega
  · omega
  · exact long (Nat.div_eq_of_lt short)
  · exact reserved zero

theorem mbAssign_run (request : Request s m 0x22 b) (assigns : bitOf (s.reqWord m 2) 8 = true)
    (present : (s.berth (s.reqWord m 2 % 32)).life ≠ .absent) : exec (.mbAssign m) s =
      .next ((s.assignMb (s.reqWord m 1) (some (s.reqWord m 2 % 32))).mbReply m 0 []) :=
  congrArg Host.Outcome.next (State.serve_unnamed request ((if_neg (mbAssign_formed low high short zero)).trans
    ((if_pos assigns).trans ((if_neg present).trans rfl))))

theorem mbAssign_withdrawn (request : Request s m 0x22 b) (withdraws : bitOf (s.reqWord m 2) 8 = false) : exec (.mbAssign m) s =
    .next (((s.assignMb (s.reqWord m 1) none).mbAnswer (s.reqWord m 1) 0x0748 0).mbReply m 0 []) :=
  congrArg Host.Outcome.next (State.serve_unnamed request ((if_neg (mbAssign_formed low high short zero)).trans
    ((if_neg (by simp [withdraws])).trans rfl)))

end

/-- What a segment load stores: the host's lines in both copies of the segment. -/
def State.loadSeg (s : State) (k off a n : Nat) : State :=
  forN (n / 64) s fun i v =>
    (v.homeStore ((s.seg k).primary + off + 64 * i) (v.hostRead (a + 64 * i) 64)).homeStore
      ((s.seg k).shadow + off + 64 * i) (v.hostRead (a + 64 * i) 64)

theorem segLoad_run (request : Request s m 0x23 b) (known : s.reqWord m 1 ≤ 63) (line : s.reqLong m 4 % 64 = 0)
    (loading : (s.seg (s.reqWord m 1)).st = 1) (off : s.reqLong m 2 % 64 = 0) (lines : s.reqWord m 6 % 64 = 0)
    (some : s.reqWord m 6 ≠ 0) (few : s.reqWord m 6 ≤ 2 ^ 30)
    (inside : s.reqLong m 2 + s.reqWord m 6 ≤ (s.seg (s.reqWord m 1)).bytes) (up : s.hostUp = true) :
    exec (.segLoad m) s =
      .next ((s.loadSeg (s.reqWord m 1) (s.reqLong m 2) (s.reqLong m 4) (s.reqWord m 6)).mbReply m 0 []) := by
  refine congrArg Host.Outcome.next (State.serve_unnamed request ((if_neg ?_).trans
    ((if_neg (not_not_intro loading)).trans ((if_neg ?_).trans ((if_neg (by simp [up])).trans rfl)))))
  · rintro (above | odd)
    · omega
    · exact odd line
  · rintro (odd | ragged | none | many | beyond)
    · exact odd off
    · exact ragged lines
    · exact some none
    · exact absurd few (Nat.not_le.2 many)
    · exact absurd inside (Nat.not_le.2 beyond)

theorem State.loadSeg_stands (m : Nat) (s : State) (k off a n : Nat) : Stands m s (s.loadSeg k off a n) :=
  Stands.forN _ _ _ fun _ _ => (State.homeStore_stands m ..).trans (State.homeStore_stands m ..)

end

theorem eventsPagesAndSetup : EventsPagesAndSetup := by
  refine fun s m b c h here named => ⟨fun request known flags none room handle => ?created,
    fun e known second there => ⟨fun request => ?imported, fun request holds others => ?held, fun request holds alone unnamed => ?freed⟩,
    fun e there => ⟨fun request => ?query, fun request live small => ?signal, fun request failed => ?failed⟩,
    fun request page short zero large small some few owns => ?barge, fun request line large small => ?notice,
    fun request none => ?resume, fun request active => ?reset,
    fun request sh n w word flags size shift pages some va pa top apart => ?map,
    fun request sh n w word size shift pages some va mapped apart => ?unmap,
    fun request low high w word short zero => ⟨fun assigns present => ?assign, fun withdraws => ?withdraw⟩,
    fun request known line loading off lines some few inside up => ?load⟩
  case created =>
    subst named handle
    obtain ⟨index, number⟩ := handle_parts (s.berth b).evtNext (tget (s.berth b).evts {} (s.berth b).evtNext).gen (2 ^ 18) room
    refine ⟨_, s.newEvt m (tget (s.berth b).evts {} (s.berth b).evtNext).gen, evtCreate_run here request known flags none room,
      request.answered (State.modBerth_stands m ..) [_], ?_, rfl, rfl, rfl, rfl⟩
    rw [State.mbReply_evtAt]
    refine evtAt_of_entry ?_ rfl number.symm
    rw [index, State.addEvt, State.berth_modBerth]
    exact tget_tset_self ..
  case imported =>
    subst named second
    refine ⟨_, _, evtImport_run here known there request, request.answered (State.modBerth_stands m ..) [],
      (State.mbReply_evtAt ..).trans (evtAt_modEvt there rfl rfl), ?_, rfl, rfl⟩
    dsimp only
    split
    · next held => simpa using held
    · simp
  case held =>
    subst named second
    have kept := State.unholdEvt_at (m := m) there
    have run := evtRelease_run here known there request holds
    rw [State.evtSweep_held kept (filter_others_ne_nil others)] at run
    exact ⟨_, _, run, request.answered (State.modBerth_stands m ..) [], (State.mbReply_evtAt ..).trans kept, by simp⟩
  case freed =>
    subst named second
    exact ⟨_, evtRelease_run here known there request holds,
      request.answered ((State.modBerth_stands m ..).trans (State.evtSweep_stands m ..)) [],
      (State.mbReply_evtAt ..).trans (State.evtSweep_gone (State.unholdEvt_at (m := m) there) (filter_others_nil alone) unnamed)⟩
  case query =>
    subst named
    exact ⟨_, evtQuery_run here there request, request.answered (Stands.refl m s) _, State.mbReply_berths⟩
  case signal =>
    subst named
    obtain ⟨p, at_, status, value⟩ := State.evtSet_signal there live small
    exact ⟨_, p, evtSignal_run here there request, request.answered (State.evtSet_stands m ..) [],
      (State.mbReply_evtAt ..).trans at_, status, value⟩
  case failed =>
    subst named
    have run := evtSignal_run here there request
    rw [State.evtSet_failed there failed] at run
    exact ⟨_, run, request.answered (Stands.refl m s) [], State.mbReply_berths⟩
  case barge =>
    exact ⟨_, bargeSetup_run request page short zero large small some few owns, request.answered (State.modFn_stands m ..) [],
      (congrArg FnSt.barge ((State.mbReply_fn ..).trans (State.fn_modFn ..)) :)⟩
  case notice =>
    exact ⟨_, noticeSetup_run request line large small, request.answered (State.modFn_stands m ..) [],
      (congrArg FnSt.ring ((State.mbReply_fn ..).trans (State.fn_modFn ..)) :)⟩
  case resume =>
    obtain ⟨free, stands⟩ := State.release_between none
    exact ⟨_, resumeBerth_run here request, request.answered (stands m) [], (congrArg BerthSt.held (State.mbReply_berth b)).trans free⟩
  case reset =>
    obtain ⟨life, -⟩ := State.startReset_begun (s.modBerth b fun x => { x with wantReset := true }) b
    exact ⟨_, resetBerth_run here request active,
      request.answered ((State.modBerth_stands m ..).trans (State.startReset_stands request.service ..)) [],
      (congrArg BerthSt.life (State.mbReply_berth b)).trans life⟩
  case map =>
    subst word shift pages
    exact ⟨_, mapPages_run here request flags size some va pa top apart, request.answered (State.modBerth_stands m ..) [],
      (congrArg BerthSt.maps (State.mbReply_berth b)).trans (State.mapRange_maps ..)⟩
  case unmap =>
    subst word shift pages
    exact ⟨_, unmapPages_run here request size some va mapped apart, request.answered (State.modBerth_stands m ..) [],
      (congrArg BerthSt.maps (State.mbReply_berth b)).trans (State.unmapRange_maps ..)⟩
  case assign =>
    subst named word
    have other : s.reqWord m 1 ≠ m := by have := request.service; omega
    exact ⟨_, mbAssign_run low high short zero request assigns present,
      request.answered (State.assignMb_stands m s ..) [],
      by rw [State.mbReply_mb_other _ other, State.assignMb_mb]⟩
  case withdraw =>
    subst named word
    have other : s.reqWord m 1 ≠ m := by have := request.service; omega
    have freed := State.assignMb_mb s (s.reqWord m 1) none
    have stands : Stands m s ((s.assignMb (s.reqWord m 1) none).mbAnswer (s.reqWord m 1) 0x0748 0) :=
      (State.assignMb_stands m s ..).trans (State.mbAnswer_other _ other.symm ..)
    refine ⟨_, mbAssign_withdrawn low high short zero request withdraws, request.answered stands [], ?_⟩
    rw [State.mbReply_mb_other _ other]
    cases busy : (s.mb (s.reqWord m 1)).busy with
    | true =>
      have waiting : ((s.assignMb (s.reqWord m 1) none).mb (s.reqWord m 1)).busy = true :=
        (congrArg MboxSt.busy freed).trans busy
      have answer := fun {α : Type} (g : MboxSt → α) bells => State.mbAnswer_mb waiting 0x0748 0 g bells
      exact ⟨(answer MboxSt.assigned fun _ _ => rfl).trans (congrArg MboxSt.assigned freed :), fun _ =>
        ⟨answer MboxSt.busy fun _ _ => rfl, answer MboxSt.code fun _ _ => rfl⟩⟩
    | false =>
      have idle : ((s.assignMb (s.reqWord m 1) none).mbAnswer (s.reqWord m 1) 0x0748 0) =
          s.assignMb (s.reqWord m 1) none :=
        if_neg (by rw [freed]; exact Bool.eq_false_iff.1 busy)
      rw [idle]
      exact ⟨(congrArg MboxSt.assigned freed :), fun waits => nomatch waits⟩
  case load =>
    subst named
    exact ⟨_, segLoad_run request known line loading off lines some few inside up,
      request.answered (State.loadSeg_stands m ..) [], (State.mbReply_frame _ _ _ _).frame .mem (by decide)⟩

/-- Settles O26: every request is done on the state that stands while it waits, and then answered. -/
theorem requestsAreServed : Obligations.RequestsAreServed := ⟨contextsQueuesAndObjects, eventsPagesAndSetup⟩

end Sys2Proof.Machine
end

section
/-!
The commands of a queue: resident slots, and marks, copies, fills, adds and waits (15 R465, R466, R470, R472).
-/

namespace Sys2Proof.Machine

section
variable {s : State} {b q opc : Nat} {x : QueueSt} {w : List Nat}

/-- A change of one queue leaves the others. -/
theorem State.queue_modQueue_other (s : State) (b : Nat) {p q : Nat} (other : p ≠ q) (f : QueueSt → QueueSt) :
    (s.modQueue b q f).queue b p = s.queue b p := by
  unfold State.modQueue
  split
  · rfl
  · rw [State.queue, State.berth_modBerth]
    exact tfind_tset_other _ _ other

/-! Resident slots. -/

section
variable (front : s.queue b q = some x) (away : x.resident = false) (waits : x.waiting = true)
  (passes : s.waitOver b (s.frontWords b x) = true)
include front away waits passes

/-- A queue with a released command takes a free slot of its die. -/
theorem slotGrant_free (room : (s.residents b (s.queueDie b x)).length < 48) :
    exec (.slotGrant b q) s = .next (s.modQueue b q fun y => { y with resident := true }) := by
  refine congrArg Host.Outcome.next ?_
  simp only [front]
  exact (if_neg (by simp [away, waits, passes])).trans (if_pos room)

/-- Without a free slot one of the queues that may go leaves its slot. -/
theorem slotGrant_evicts (full : 48 ≤ (s.residents b (s.queueDie b x)).length) (some : s.evictable b (s.queueDie b x) ≠ []) :
    ∃ v ∈ s.evictable b (s.queueDie b x), exec (.slotGrant b q) s =
      .next ((s.nextFree.modQueue b v fun y => { y with resident := false }).modQueue b q fun y => { y with resident := true }) := by
  have room : 0 < (s.evictable b (s.queueDie b x)).length := List.length_pos_iff.2 some
  have chosen : Config.freeNat s.free % max 1 (s.evictable b (s.queueDie b x)).length < (s.evictable b (s.queueDie b x)).length :=
    Nat.lt_of_lt_of_le (Nat.mod_lt _ (by omega)) (by omega)
  refine ⟨_, List.getElem_mem chosen, congrArg Host.Outcome.next ?_⟩
  simp only [front]
  refine (if_neg (by simp [away, waits, passes])).trans ((if_neg (Nat.not_lt.2 full)).trans ?_)
  simp only [List.getElem?_eq_getElem chosen]

end

/-- A queue that may be evicted is listed as resident. -/
theorem State.evictable_resident {die v : Nat} (listed : v ∈ s.evictable b die) :
    ∃ p ∈ (s.berth b).queues, p.1 = v ∧ p.2.resident = true := by
  unfold State.evictable at listed
  extract_lets l idle at listed
  obtain ⟨p, inside, rfl⟩ := List.mem_map.1 listed
  have free : p ∈ l := by
    split at inside
    · exact (List.mem_filter.1 inside).1
    · exact (List.mem_filter.1 inside).1
  obtain ⟨there, resident⟩ := List.mem_filter.1 (List.mem_filter.1 free).1
  exact ⟨p, there, rfl, (Bool.and_eq_true_iff.1 resident).1⟩

/-- A listed key is found. -/
theorem tfind_of_mem {α : Type} {t : Tbl α} {p : Nat × α} (inside : p ∈ t) : ∃ y, tfind t p.1 = some y := by
  induction t with
  | nil => cases inside
  | cons e r ih =>
    obtain ⟨j, v⟩ := e
    by_cases here : j = p.1
    · exact ⟨v, if_pos here⟩
    · rcases List.mem_cons.1 inside with rfl | later
      · exact absurd rfl here
      · obtain ⟨y, found⟩ := ih later
        exact ⟨y, (if_neg here).trans found⟩

/-! Starts. -/

/-- The command that can start stands at its queue's front. -/
theorem startable_some (can : s.startable b q opc = some (x, w)) :
    s.queue b q = some x ∧ w = s.frontWords b x ∧ cmdOpc w = opc := by
  unfold State.startable at can
  split at can
  · cases can
  · next y front =>
    extract_lets words at can
    split at can
    · next conditions =>
      obtain ⟨rfl, rfl⟩ := Prod.mk.inj (Option.some.inj can)
      exact ⟨front, rfl, beq_iff_eq.1 (Bool.and_eq_true_iff.1 conditions).2⟩
    · cases can

/-- A started command runs with the words of its start. -/
theorem State.beginCmd_queue (front : s.queue b q = some x) (w : List Nat) :
    ∃ y r, (s.beginCmd b q w).queue b q = some y ∧ y.run = some r ∧ r.words = w ∧ r.done = none ∧ r.launch = none ∧
      y.admitted = x.admitted :=
  ⟨_, _, State.queue_modQueue (s := s.nextFree) front _, rfl, rfl, rfl, rfl, rfl⟩

theorem State.beginCmd_mem (s : State) (b q : Nat) (w : List Nat) : (s.beginCmd b q w).mem = s.mem :=
  (State.beginCmd_frame _ _ _ _).frame .mem (by decide)

theorem State.beginCmd_host (s : State) (b q : Nat) (w : List Nat) : (s.beginCmd b q w).host = s.host :=
  (State.beginCmd_frame _ _ _ _).frame .host (by decide)

/-- A command that starts and fails a check of its own ends with its code. -/
theorem State.startCmd_fails (starts : Starts s b q opc w) {room : List Nat → Bool} {own : State → List Nat → Nat}
    (run : List Nat → State → State) (free : room w = true) (fails : own (s.beginCmd b q w) w ≠ 0) :
    s.startCmd b q opc room own run = (s.beginCmd b q w).endCmd b q (own (s.beginCmd b q w) w) := by
  obtain ⟨x, can, words, barges⟩ := starts
  have lowest : ∀ c : Nat, c ≠ 0 → lowestCode [((0 : Nat) != 0, 0), ((0 : Nat) != 0, 0), (c != 0, c)] = c := by
    intro c some
    simp [lowestCode, some]
  unfold State.startCmd
  simp only [can, free, words, barges, lowest _ fails]
  exact (if_neg (by simp)).trans (if_pos fails)

/-! Ends. -/

theorem State.endCmd_mem (s : State) (b q status count aux : Nat) (fault : Bytes) :
    (s.endCmd b q status count aux fault).mem = s.mem := (State.endCmd_frame _ _ _ _ _ _ _).frame .mem (by decide)

theorem State.endCmd_host (s : State) (b q status count aux : Nat) (fault : Bytes) :
    (s.endCmd b q status count aux fault).host = s.host := (State.endCmd_frame _ _ _ _ _ _ _).frame .host (by decide)

/-- The end of a command that runs. -/
theorem ended_endCmd {y : QueueSt} {r : RunSt} (front : s.queue b q = some y) (runs : y.run = some r) (code count aux : Nat)
    (fault : Bytes) : Ended (s.endCmd b q code count aux fault) b q code :=
  ⟨_, _, State.queue_modQueue front _, congrArg (Option.map _) runs, rfl⟩

/-- A command that starts and whose work leaves its queue ends. -/
theorem Starts.ended (starts : Starts s b q opc w) {t : State} (work : (t.berth b).queues = ((s.beginCmd b q w).berth b).queues)
    (code : Nat) : Ended (t.endCmd b q code) b q code := by
  obtain ⟨x, can, -⟩ := starts
  obtain ⟨front, -⟩ := startable_some can
  obtain ⟨y, r, begun, runs, -⟩ := State.beginCmd_queue front w
  exact ended_endCmd ((State.queue_of_berth work q).trans begun) runs code 0 0 []

/-! The work of copies, fills and adds leaves the queues. -/

theorem State.unitPoison_queues (s : State) (b reader va n : Nat) :
    ((s.unitPoison b reader va n).berth b).queues = (s.berth b).queues :=
  forL_keeps (fun t => (State.berth t b).queues) _ s _ fun _ t =>
    State.poisonRead_keeps BerthSt.queues b (fun _ _ => rfl) (fun _ _ => rfl) t ..

theorem State.locWrite_queues (s : State) (b loc off : Nat) (bs : Bytes) (marked : Bool) :
    ((s.locWrite b loc off bs marked).berth b).queues = (s.berth b).queues := by
  unfold State.locWrite
  split
  · rfl
  · exact State.unitWrite_keeps BerthSt.queues b s ..

theorem State.runCopy_queues (s : State) (b src dst n : Nat) :
    ((s.runCopy b src dst n).berth b).queues = (s.berth b).queues := by
  unfold State.runCopy
  extract_lets t
  have read : (t.berth b).queues = (s.berth b).queues := by
    unfold t
    split
    · rfl
    · exact State.unitPoison_queues ..
  exact (forL_keeps (fun u => (State.berth u b).queues) _ t _ fun p u => State.locWrite_queues ..).trans read

/-- What a fill of `n` bytes with a pattern does. -/
def State.runFill (s : State) (b va pattern n : Nat) : State :=
  forL (lineCuts va n) s fun p u => u.unitWrite b (va + p.1) ((List.range p.2).map fun i =>
    BitVec.ofNat 8 (pattern / 2 ^ (8 * ((p.1 + i) % 4))))

theorem State.runFill_queues (s : State) (b va pattern n : Nat) :
    ((s.runFill b va pattern n).berth b).queues = (s.berth b).queues :=
  forL_keeps (fun u => (State.berth u b).queues) _ s _ fun _ u => State.unitWrite_keeps BerthSt.queues b u ..

theorem State.maddOne_queues (s : State) (b src dst i cls xf : Nat) (scale : Int) :
    ((s.maddOne b src dst i cls xf scale).berth b).queues = (s.berth b).queues := by
  unfold State.maddOne
  extract_lets z r op
  split
  · exact State.homeAdd_keeps BerthSt.queues b (fun _ _ => rfl) (fun _ _ => rfl) s ..
  · split
    · exact congrArg BerthSt.queues (State.berth_congr ((State.sendRequest_frame _ _ _ _ _ _ _).frame .berths (by decide)) b)
    · rfl
  · rfl

/-- The adds of a `MADD`, after the reads of its source. -/
def State.runMadd (s : State) (b : Nat) (w : List Nat) : State :=
  forN (cw w 6 % 2 ^ 32) s fun i u => u.maddOne b (cw w 4) (cw w 5) i (bitsOf (cw w 6) 35 32) (bitsOf (cw w 6) 39 36)
    (signedOf 8 (bitsOf (cw w 6) 47 40))

/-- What a `MADD` reports of the poison in its source. -/
def State.readMadd (s : State) (b : Nat) (w : List Nat) : State :=
  if (cw w 4).testBit 63 then s
  else s.unitPoison b (s.cmdUnit b) (cw w 4) (cw w 6 % 2 ^ 32 * (maddSizes (bitsOf (cw w 6) 35 32) (bitsOf (cw w 6) 39 36)).1)

theorem State.runMadd_queues (s : State) (b : Nat) (w : List Nat) :
    (((s.readMadd b w).runMadd b w).berth b).queues = (s.berth b).queues := by
  have read : ((s.readMadd b w).berth b).queues = (s.berth b).queues := by
    unfold State.readMadd
    split
    · rfl
    · exact State.unitPoison_queues ..
  exact (forN_keeps (fun u => (State.berth u b).queues) _ _ _ fun i u => State.maddOne_queues ..).trans read

/-! Waits for a round. -/

theorem State.finishRun_xwait {y : QueueSt} {r : RunSt} (front : s.queue b q = some y) (runs : y.run = some r)
    (fresh : r.done = none) (waits : cmdOpc r.words = 7) :
    s.finishRun b q = if cw r.words 5 ≤ s.bucketDone b (cw r.words 4 % 2 ^ 12) then s.endCmd b q 0 else s := by
  unfold State.finishRun
  have running : ((s.queue b q).bind fun x => x.run) = some r := by rw [front]; exact runs
  rw [running]
  exact (if_neg (by simp [fresh])).trans (if_pos waits)

/-! The commands. -/

theorem mark_run (starts : Starts s b q 0 w) : exec (.mark b q) s = .next ((s.beginCmd b q w).endCmd b q 0) :=
  congrArg Host.Outcome.next (State.startCmd_of_starts starts (fun _ t => t.endCmd b q 0) rfl rfl)

theorem extentCode_cases (t : State) (b : Nat) (w : List Nat) : t.extentCode b w = 0 ∨ t.extentCode b w = 0x0702 := by
  unfold State.extentCode
  split
  · exact .inl rfl
  · exact .inr rfl

theorem copyMem_run (starts : Starts s b q 2 w) (mapped : (s.beginCmd b q w).extentCode b w = 0) : exec (.copyMem b q) s =
    .next (((s.beginCmd b q w).runCopy b (cw w 4) (cw w 5) (cw w 6 % 2 ^ 40)).endCmd b q 0) :=
  congrArg Host.Outcome.next (State.startCmd_of_starts starts
    (fun w t => (t.runCopy b (cw w 4) (cw w 5) (cw w 6 % 2 ^ 40)).endCmd b q 0) rfl mapped)

theorem fillMem_run (starts : Starts s b q 3 w) (mapped : (s.beginCmd b q w).extentCode b w = 0) : exec (.fillMem b q) s =
    .next (((s.beginCmd b q w).runFill b (cw w 4) (cw w 5) (cw w 6 % 2 ^ 40)).endCmd b q 0) :=
  congrArg Host.Outcome.next (State.startCmd_of_starts starts
    (fun w t => (t.runFill b (cw w 4) (cw w 5) (cw w 6 % 2 ^ 40)).endCmd b q 0) rfl mapped)

theorem madd_run (starts : Starts s b q 4 w) (mapped : (s.beginCmd b q w).extentCode b w = 0) : exec (.madd b q) s =
    .next ((((s.beginCmd b q w).readMadd b w).runMadd b w).endCmd b q 0) :=
  congrArg Host.Outcome.next (State.startCmd_of_starts starts
    (fun w t => ((t.readMadd b w).runMadd b w).endCmd b q 0) rfl mapped)

/-- A command whose extents do not translate. -/
theorem extents_refused (starts : Starts s b q opc w) (unmapped : (s.beginCmd b q w).extentCode b w ≠ 0)
    (run : List Nat → State → State) : s.startCmd b q opc (fun _ => true) (fun t w => t.extentCode b w) run =
      (s.beginCmd b q w).endCmd b q 0x0702 := by
  rcases extentCode_cases (s.beginCmd b q w) b w with mapped | refused
  · exact absurd mapped unmapped
  · rw [State.startCmd_fails starts run rfl unmapped, refused]

theorem Starts.refused (starts : Starts s b q opc w) : Ended ((s.beginCmd b q w).endCmd b q 0x0702) b q 0x0702 ∧
    ((s.beginCmd b q w).endCmd b q 0x0702).mem = s.mem ∧ ((s.beginCmd b q w).endCmd b q 0x0702).host = s.host :=
  ⟨starts.ended rfl 0x0702, (State.endCmd_mem ..).trans (State.beginCmd_mem ..),
    (State.endCmd_host ..).trans (State.beginCmd_host ..)⟩

theorem xwait_run (starts : Starts s b q 7 w) : exec (.xwait b q) s = .next ((s.beginCmd b q w).finishRun b q) :=
  congrArg Host.Outcome.next (State.startCmd_of_starts starts (fun _ t => t.finishRun b q) rfl rfl)

end

/-- Settles O27: each command starts, and its work leaves its queue, so that its end is what the queue then holds. -/
theorem queueCommandsRun : Obligations.QueueCommandsRun := by
  rintro s b q w t rfl
  refine ⟨fun x front away waits passes => ⟨fun room => ?granted, fun full some once => ?evicts⟩, fun starts => ?mark,
    fun starts => ⟨fun mapped => ?copied, fun unmapped => ?copyRefused⟩,
    fun starts => ⟨fun mapped => ?filled, fun unmapped => ?fillRefused⟩,
    fun starts => ⟨fun mapped barge => ?added, fun mapped => ?addEnds, fun unmapped => ?addRefused⟩,
    fun starts => ⟨fun complete => ?reached, fun early => ?waits⟩⟩
  case granted =>
    exact ⟨_, slotGrant_free front away waits passes room, State.queue_modQueue front _,
      (State.modQueue_frame _ _ _ _).frame .free (by decide)⟩
  case evicts =>
    obtain ⟨v, listed, run⟩ := slotGrant_evicts front away waits passes full some
    obtain ⟨p, inside, rfl, resident⟩ := State.evictable_resident listed
    obtain ⟨y, found⟩ := tfind_of_mem inside
    have other : p.1 ≠ q := fun same => by
      rw [once p inside same] at resident
      cases resident
    have leaves := State.queue_modQueue (s := s.nextFree) (b := b) (q := p.1) found fun y => { y with resident := false }
    have stays : (s.nextFree.modQueue b p.1 fun y => { y with resident := false }).queue b q = .some x :=
      (State.queue_modQueue_other s.nextFree b other.symm _).trans front
    exact ⟨_, p.1, _, run, State.queue_modQueue stays _, listed, (State.queue_modQueue_other _ b other _).trans leaves, rfl⟩
  case mark =>
    exact ⟨_, mark_run starts, starts.ended rfl 0, (State.endCmd_mem ..).trans (State.beginCmd_mem ..),
      (State.endCmd_host ..).trans (State.beginCmd_host ..)⟩
  case copied => exact ⟨_, copyMem_run starts mapped, starts.ended (State.runCopy_queues ..) 0, State.endCmd_mem ..⟩
  case copyRefused => exact ⟨_, congrArg Host.Outcome.next (extents_refused starts unmapped _), starts.refused⟩
  case filled => exact ⟨_, fillMem_run starts mapped, starts.ended (State.runFill_queues ..) 0, State.endCmd_mem ..⟩
  case fillRefused =>
    obtain ⟨ended, mem, -⟩ := starts.refused
    exact ⟨_, congrArg Host.Outcome.next (extents_refused starts unmapped _), ended, mem⟩
  case added =>
    have run := madd_run starts mapped
    have unread : (s.beginCmd b q w).readMadd b w = s.beginCmd b q w := if_pos barge
    have queues := State.runMadd_queues (s.beginCmd b q w) b w
    rw [unread] at run queues
    exact ⟨_, run, starts.ended queues 0, State.endCmd_mem ..⟩
  case addEnds => exact ⟨_, madd_run starts mapped, starts.ended (State.runMadd_queues ..) 0⟩
  case addRefused =>
    obtain ⟨ended, mem, -⟩ := starts.refused
    exact ⟨_, congrArg Host.Outcome.next (extents_refused starts unmapped _), ended, mem⟩
  case reached =>
    have run := xwait_run starts
    obtain ⟨x, can, -⟩ := starts
    obtain ⟨front, -, kind⟩ := startable_some can
    obtain ⟨y, r, begun, runs, rfl, fresh, -⟩ := State.beginCmd_queue front w
    rw [State.finishRun_xwait begun runs fresh kind, if_pos complete] at run
    exact ⟨_, run, ended_endCmd begun runs 0 0 0 [], (State.endCmd_mem ..).trans (State.beginCmd_mem ..)⟩
  case waits =>
    have run := xwait_run starts
    obtain ⟨x, can, -⟩ := starts
    obtain ⟨front, -, kind⟩ := startable_some can
    obtain ⟨y, r, begun, runs, rfl, fresh, -⟩ := State.beginCmd_queue front w
    rw [State.finishRun_xwait begun runs fresh kind, if_neg (Nat.not_le.2 early)] at run
    exact ⟨_, y, r, run, begun, runs, fresh, rfl, State.beginCmd_mem ..⟩

end Sys2Proof.Machine
end

section
/-!
Launches: the cores that they are granted, waits and reservations, and the limit of a running launch (15 R471, 07 R190, R218,
R222).
-/

namespace Sys2Proof.Machine

/-! Cores of a launch. -/

/-- The cores of a launch ascend. -/
theorem launchCores_ascend (w : List Nat) : (launchCores w).Pairwise (· < ·) := by
  unfold launchCores
  refine List.pairwise_flatMap.2 ⟨fun d _ => ?_, ?_⟩
  · refine List.pairwise_map.2 ((List.Pairwise.filter _ List.pairwise_lt_range).imp fun less => ?_)
    omega
  · refine (List.Pairwise.filter _ List.pairwise_lt_range).imp fun {d e} less x inside y inside' => ?_
    obtain ⟨i, listed, rfl⟩ := List.mem_map.1 inside
    obtain ⟨j, -, rfl⟩ := List.mem_map.1 inside'
    have := List.mem_range.1 (List.mem_filter.1 listed).1
    omega

/-- What is put on each core of a list in turn, with its place in the list, stands there in the end. -/
theorem State.kern_forL_zipIdx {f : Nat × Nat → State → State} (p : Nat → Option KernSt → Prop)
    (here : ∀ a u, p a.2 ((f a u).kern a.1)) (others : ∀ a u c, c ≠ a.1 → (f a u).kern c = u.kern c) (l : List Nat)
    (distinct : l.Pairwise (· ≠ ·)) (k : Nat) (s : State) :
    (∀ c, c ∉ l → (forL (l.zipIdx k) s f).kern c = s.kern c) ∧
    ∀ (i c : Nat), l[i]? = some c → p (k + i) ((forL (l.zipIdx k) s f).kern c) := by
  induction l generalizing k s with
  | nil => exact ⟨fun _ _ => rfl, fun _ _ none => nomatch none⟩
  | cons d r ih =>
    obtain ⟨apart, rest⟩ := List.pairwise_cons.1 distinct
    obtain ⟨outside, inside⟩ := ih rest (k + 1) (f (d, k) s)
    rw [List.zipIdx_cons, forL_cons]
    refine ⟨fun c away => ?_, fun i c found => ?_⟩
    · obtain ⟨other, later⟩ := not_or.1 fun listed => away (List.mem_cons.2 listed)
      exact (outside c later).trans (others (d, k) s c other)
    · cases i with
      | zero =>
        obtain rfl := Option.some.inj found
        rw [outside d fun listed => apart d listed rfl]
        exact here (d, k) s
      | succ i =>
        rw [Nat.add_comm i 1, ← Nat.add_assoc]
        exact inside i c found

/-! Grants. -/

section
variable {s : State} {b q : Nat} {w : List Nat} {o : ObjSt}

/-- A launch as its grant records it. -/
def State.newLaunch (s : State) (b q : Nat) (w : List Nat) (o : ObjSt) : LaunchSt :=
  { berth := b, queue := q, kseq := (s.berth b).kseq, cores := (launchCores w).filter s.corePresent,
    running := (launchCores w).filter s.corePresent, image := o.va, limitMs := cw w 6 / 2 ^ 40 }

/-- The state with a launch recorded and its number noted at its queue. -/
def State.recordLaunch (s : State) (b q : Nat) (w : List Nat) (o : ObjSt) : State :=
  (({ s with launchNext := s.launchNext + 1, launches := tset s.launches s.launchNext (s.newLaunch b q w o) } : State).modBerth b
    fun x => { x with kseq := x.kseq + 1 }).modRun b q fun r => { r with launch := some s.launchNext }

/-- The kernel of a launch as it stands ready on a core, with its rank. -/
def State.readyKernel (s : State) (b : Nat) (w : List Nat) (o : ObjSt) (rank tally : Nat) : KernSt :=
  { berth := b, launch := s.launchNext, kseq := (s.berth b).kseq, nGroups := 0, codeBytes := 0, rank := rank,
    nCores := ((launchCores w).filter s.corePresent).length, tally := tally, image := o.va, argVa := cw w 5 }

/-- The state with such a kernel on a core. -/
def State.standKernel (s : State) (b : Nat) (w : List Nat) (o : ObjSt) (p : Nat × Nat) (t : State) : State :=
  t.modCore p.1 fun x => { x with kern := some (s.readyKernel b w o p.2 (t.berth b).tally.toNat) }

/-- The state with the kernel of a launch ready on each of its cores. -/
def State.grantLaunch (s : State) (b q : Nat) (w : List Nat) (o : ObjSt) : State :=
  forL ((launchCores w).filter s.corePresent).zipIdx (s.recordLaunch b q w o) (s.standKernel b w o)

section
variable (named : s.objAt b (cw w 4 % 2 ^ 32) = some o)
include named

theorem State.runLaunch_valid (valid : s.imageCode b o.va (s.fwOf b) = none) : s.runLaunch b q w = s.grantLaunch b q w o := by
  unfold State.runLaunch
  simp only [named, valid]
  rfl

theorem State.runLaunch_invalid {code pc : Nat} (invalid : s.imageCode b o.va (s.fwOf b) = some (code, pc)) :
    ∃ fault, s.runLaunch b q w = s.endCmd b q code 0 0 fault := by
  unfold State.runLaunch
  simp only [named, invalid]
  exact ⟨_, rfl⟩

end

theorem State.recordLaunch_launches (s : State) (b q : Nat) (w : List Nat) (o : ObjSt) :
    (s.recordLaunch b q w o).launches = tset s.launches s.launchNext (s.newLaunch b q w o) :=
  (State.modRun_frame _ _ _ _).frame .launches (by decide)

theorem State.recordLaunch_next (s : State) (b q : Nat) (w : List Nat) (o : ObjSt) :
    (s.recordLaunch b q w o).launchNext = s.launchNext + 1 := (State.modRun_frame _ _ _ _).frame .launchNext (by decide)

theorem State.recordLaunch_mem (s : State) (b q : Nat) (w : List Nat) (o : ObjSt) : (s.recordLaunch b q w o).mem = s.mem :=
  (State.modRun_frame _ _ _ _).frame .mem (by decide)

theorem State.recordLaunch_kseq (s : State) (b q : Nat) (w : List Nat) (o : ObjSt) :
    ((s.recordLaunch b q w o).berth b).kseq = (s.berth b).kseq + 1 :=
  (State.modQueue_keeps BerthSt.kseq b (fun _ _ => rfl) _ b q _).trans (congrArg BerthSt.kseq (State.berth_modBerth ..) :)

/-- Kernels that are put on cores change the cores alone. -/
theorem State.grantLaunch_kept {α : Type} (g : State → α) (cores : ∀ t c f, g (State.modCore t c f) = g t) (s : State) (b q : Nat)
    (w : List Nat) (o : ObjSt) : g (s.grantLaunch b q w o) = g (s.recordLaunch b q w o) :=
  forL_keeps g _ _ _ fun p t => cores t p.1 _

/-- A kernel that stands ready at a rank. -/
def Standing (s : State) (w : List Nat) (i : Nat) (r : Option KernSt) : Prop :=
  ∃ k, r = some k ∧ k.launch = s.launchNext ∧ k.rank = i ∧ k.nCores = ((launchCores w).filter s.corePresent).length ∧
    k.started = false ∧ k.argVa = cw w 5

theorem State.grantLaunch_kern (s : State) (b q : Nat) (w : List Nat) (o : ObjSt) {i c : Nat}
    (listed : ((launchCores w).filter s.corePresent)[i]? = some c) : Standing s w i ((s.grantLaunch b q w o).kern c) := by
  have distinct : ((launchCores w).filter s.corePresent).Pairwise (· ≠ ·) :=
    ((launchCores_ascend w).filter _).imp fun less => Nat.ne_of_lt less
  have here : ∀ (a : Nat × Nat) (u : State), Standing s w a.2 ((s.standKernel b w o a u).kern a.1) := fun a u => by
    refine ⟨s.readyKernel b w o a.2 (u.berth b).tally.toNat, ?_, rfl, rfl, rfl, rfl, rfl⟩
    rw [State.kern, State.standKernel, State.core_modCore]
  have others : ∀ (a : Nat × Nat) (u : State) (c : Nat), c ≠ a.1 → (s.standKernel b w o a u).kern c = u.kern c :=
    fun a u c other => congrArg CoreSt.kern (State.core_modCore_other _ _ other)
  obtain ⟨-, stands⟩ := State.kern_forL_zipIdx (Standing s w) here others _ distinct 0 (s.recordLaunch b q w o)
  have there := stands i c listed
  rwa [Nat.zero_add] at there

end

/-! Limits. -/

section
variable {s : State}

theorem faultBytes_length (f : FaultRec) : (faultBytes f).length = 32 := by simp [faultBytes, leBytes]

/-- A launch that is stopped from outside holds the record of its stop. -/
theorem State.stopLaunch_stops {n code : Nat} {l : LaunchSt} (there : tfind s.launches n = some l) (runs : l.stopped = false) :
    ∃ m, tfind (s.stopLaunch n code).launches n = some m ∧ m.stopped = true ∧ m.status = code ∧ m.fault.length = 32 ∧
      m.running = l.running := by
  have stops : s.stopLaunch n code = s.abortLaunch n { code := code, core := l.cores.headD 0 } := by
    unfold State.stopLaunch
    simp only [there]
  rw [stops, State.abortLaunch_launches _ there runs]
  exact ⟨_, tfind_tset_self .., rfl, rfl, faultBytes_length _, rfl⟩

theorem kernelLimit_stops {n : Nat} {l : LaunchSt} (there : tfind s.launches n = some l) (limited : l.limitMs ≠ 0)
    (live : l.stopped = false) (runs : l.running ≠ []) : exec (.kernelLimit n) s = .next (s.stopLaunch n 0x070A) := by
  refine congrArg Host.Outcome.next ?_
  simp only [there]
  exact if_neg (by simp [limited, live, runs])

theorem kernelLimit_none {n : Nat} {l : LaunchSt} (there : tfind s.launches n = some l) (unlimited : l.limitMs = 0) :
    exec (.kernelLimit n) s = .next s := by
  refine congrArg Host.Outcome.next ?_
  simp only [there]
  exact if_pos (.inl unlimited)

end

/-! Waits and reservations. -/

section
variable {s : State} {b q : Nat} {x : QueueSt} {w : List Nat} (can : s.startable b q 1 = some (x, w))
include can

theorem launch_waits (full : s.launchRoom b q w = false) : exec (.launch b q) s = .next s := by
  refine congrArg Host.Outcome.next ?_
  unfold State.startCmd
  simp only [can, full]
  exact if_pos rfl

theorem launchReserveTimer_reserves (none : ∀ p ∈ (s.berth b).queues, p.2.reserving = false) :
    exec (.launchReserveTimer b q) s = .next (s.modQueue b q fun x => { x with reserving := true }) := by
  refine congrArg Host.Outcome.next ?_
  simp only [can]
  refine if_neg fun any => ?_
  obtain ⟨p, inside, reserves⟩ := List.any_eq_true.1 any
  exact absurd ((none p inside).symm.trans reserves) (by decide)

theorem launchReserveTimer_held (one : ∃ p ∈ (s.berth b).queues, p.2.reserving = true) :
    exec (.launchReserveTimer b q) s = .next s := by
  refine congrArg Host.Outcome.next ?_
  simp only [can]
  exact if_pos (List.any_eq_true.2 one)

end

theorem launch_run {s : State} {b q : Nat} {w : List Nat} (starts : Starts s b q 1 w) (room : s.launchRoom b q w = true)
    (passes : (s.beginCmd b q w).launchCode b w = 0) : exec (.launch b q) s = .next ((s.beginCmd b q w).runLaunch b q w) :=
  congrArg Host.Outcome.next (State.startCmd_of_starts starts (fun w t => t.runLaunch b q w) room passes)

/-- Settles O28: a grant records the launch, and then puts its kernel on cores that ascend. -/
theorem launchesAreGrantedCores : Obligations.LaunchesAreGrantedCores := by
  rintro s b q w t rfl
  refine ⟨fun o cores starts room passes named listed => ⟨fun valid => ?granted, fun code pc invalid => ?refused⟩,
    fun x can full => launch_waits can full,
    fun x can => ⟨fun none => ?reserves, fun one => launchReserveTimer_held can one⟩,
    fun n l there limited live runs => ?limit, fun n l there unlimited => kernelLimit_none there unlimited⟩
  case granted =>
    have fw : (s.beginCmd b q w).fwOf b = s.fwOf b := by
      rw [State.fwOf, (State.beginCmd_frame s b q w).frame .fw (by decide), State.fwOf]
    have present : (s.beginCmd b q w).corePresent = s.corePresent := by
      funext c
      rw [State.corePresent, (State.beginCmd_frame s b q w).frame .defects (by decide), State.corePresent]
    have next : (s.beginCmd b q w).launchNext = s.launchNext := (State.beginCmd_frame s b q w).frame .launchNext (by decide)
    have number : ((s.beginCmd b q w).berth b).kseq = (s.berth b).kseq :=
      State.modQueue_keeps BerthSt.kseq b (fun _ _ => rfl) s.nextFree b q _
    have run := launch_run starts room passes
    have mem := State.beginCmd_mem s b q w
    generalize s.beginCmd b q w = t at *
    rw [← fw] at valid
    rw [State.runLaunch_valid named valid] at run
    subst listed
    rw [← present, ← next]
    refine ⟨_, run, ?_, ?_, ⟨t.newLaunch b q w o, ?_, rfl, rfl, rfl, rfl, rfl, rfl, number⟩, ?_, fun i c listed => ?_⟩
    · exact (State.grantLaunch_kept State.launchNext (fun _ _ _ => rfl) ..).trans (State.recordLaunch_next ..)
    · exact (State.grantLaunch_kept State.mem (fun _ _ _ => rfl) ..).trans ((State.recordLaunch_mem ..).trans mem)
    · rw [State.grantLaunch_kept State.launches fun _ _ _ => rfl, State.recordLaunch_launches]
      exact tfind_tset_self ..
    · rw [State.grantLaunch_kept (fun u => (State.berth u b).kseq) fun _ _ _ => rfl, State.recordLaunch_kseq, number]
    · exact State.grantLaunch_kern t b q w o listed
  case refused =>
    have fw : (s.beginCmd b q w).fwOf b = s.fwOf b := by
      rw [State.fwOf, (State.beginCmd_frame s b q w).frame .fw (by decide), State.fwOf]
    rw [← fw] at invalid
    obtain ⟨fault, fails⟩ := State.runLaunch_invalid (q := q) named invalid
    have run := launch_run starts room passes
    rw [fails] at run
    obtain ⟨x, can, -⟩ := starts
    obtain ⟨front, -⟩ := startable_some can
    obtain ⟨y, r, there, runs, -⟩ := State.beginCmd_queue front w
    exact ⟨_, run, ended_endCmd there runs code 0 0 fault,
      ((State.endCmd_frame _ _ _ _ _ _ _).frame .launches (by decide)).trans ((State.beginCmd_frame _ _ _ _).frame .launches (by decide)),
      ((State.endCmd_frame _ _ _ _ _ _ _).frame .cores (by decide)).trans ((State.beginCmd_frame _ _ _ _).frame .cores (by decide))⟩
  case reserves =>
    obtain ⟨front, -⟩ := startable_some can
    exact ⟨_, _, launchReserveTimer_reserves can none, State.queue_modQueue front _, rfl, rfl,
      (State.modQueue_frame _ _ _ _).frame .mem (by decide)⟩
  case limit =>
    obtain ⟨m, found, stopped, status, fault, running⟩ := State.stopLaunch_stops (code := 0x070A) there live
    exact ⟨_, m, kernelLimit_stops there limited live runs, found, stopped, status, fault, running⟩

end Sys2Proof.Machine
end

section
/-!
Function-level resets, the grace of abandoned contexts, host ports and configuration requests (15 R475, R476, R478, R480;
17 R514; 20 R582).
-/

namespace Sys2Proof.Machine

/-! Queues that run nothing. -/

/-- No queue of a berth runs a command. -/
def State.Idle (s : State) (b : Nat) : Prop := ∀ p ∈ (s.berth b).queues, p.2.run = none

section
variable {s : State} {b : Nat} (idle : s.Idle b)
include idle

theorem State.Idle.of_queues {t : State} (same : (t.berth b).queues = (s.berth b).queues) : t.Idle b := by
  unfold State.Idle
  rw [same]
  exact idle

theorem State.Idle.queue {q : Nat} {x : QueueSt} (front : s.queue b q = some x) : x.run = none := idle _ (mem_of_tfind front)

theorem State.Idle.modQueue (q : Nat) {f : QueueSt → QueueSt} (quiet : ∀ x, x.run = none → (f x).run = none) :
    (s.modQueue b q f).Idle b := by
  unfold State.modQueue
  split
  · exact idle
  · next x front =>
    intro p inside
    rw [State.berth_modBerth] at inside
    rcases mem_tset inside with rfl | old
    · exact quiet x (idle.queue front)
    · exact idle p old

theorem State.Idle.retireFront (q status count aux : Nat) (step : Bool) (fault : Bytes) :
    (s.retireFront b q status count aux step fault).Idle b := by
  cases front : s.queue b q with
  | none =>
    unfold State.retireFront
    simp only [front]
    exact idle
  | some x =>
    have left : (s.leaveFront b q status x).Idle b := by
      have before : ((s.giveBarges b x (s.retiringWords b x)).signalRetired b x (s.retiringWords b x) status).Idle b :=
        idle.of_queues ((State.signalRetired_keeps BerthSt.queues b (fun _ _ _ => rfl) ..).trans
          (congrArg BerthSt.queues (State.berth_congr (State.giveBarges_berths ..) b)))
      refine (before.modQueue q (f := QueueSt.popped x.retired) fun _ _ => rfl).of_queues ?_
      exact (congrArg BerthSt.queues (State.berth_congr (State.flrClear_berths ..) b)).trans
        (State.dropRefs_keeps BerthSt.queues b (fun _ _ _ => rfl) (fun _ _ _ => rfl) ..)
    exact left.of_queues (congrArg BerthSt.queues (State.berth_congr (State.retireFront_berths front ..) b))

theorem State.Idle.retireRest (q status : Nat) : (s.retireRest b q status).Idle b := by
  unfold State.retireRest
  split
  · exact idle
  · refine foldl_ok (p := fun t => State.Idle t b) (fun t _ quiet => ?_) _ s idle
    dsimp only
    split
    · exact State.Idle.retireFront quiet q status 0 0 false []
    · exact quiet

theorem State.Idle.sweepQueue (q : Nat) : (s.sweepQueue b q).Idle b := by
  unfold State.sweepQueue
  split
  · exact idle
  · extract_lets t
    have rest : t.Idle b := by
      unfold t
      split
      · exact idle.retireRest q 0x0707
      · exact idle
    split
    · exact rest
    · split
      · have fewer : (t.modBerth b fun z => { z with queues := tdel z.queues q }).Idle b := by
          intro p inside
          rw [State.berth_modBerth] at inside
          exact rest p (List.mem_filter.1 inside).1
        exact fewer.of_queues (State.freeCtx_keeps BerthSt.queues b ..)
      · exact rest

/-- A queue that runs nothing only retires when it is abandoned. -/
theorem State.Idle.abandonQueue (q : Nat) : (s.abandonQueue b q).Idle b := by
  unfold State.abandonQueue
  split
  · exact idle
  · next x front =>
    simp only [idle.queue front]
    exact (idle.retireRest q 0x0707).sweepQueue q

theorem State.Idle.abandonCtx (c : Nat) : (s.abandonCtx b c).Idle b := by
  unfold State.abandonCtx
  split
  · exact idle
  · split
    · exact idle
    · extract_lets t qs ends t1 evs t2 t3
      have noted : t.Idle b := idle
      have k1 : t1.Idle b := foldl_ok (p := fun t => State.Idle t b) (fun u q quiet => State.Idle.retireRest quiet q 0x0707) _ t noted
      have k2 : t2.Idle b := k1.of_queues (forL_keeps (fun u => (State.berth u b).queues) evs t1 _ fun h u =>
        State.evtSet_keeps BerthSt.queues b (fun _ _ _ => rfl) ..)
      have k3 : t3.Idle b := k2.of_queues (State.dropHolder_keeps BerthSt.queues b (fun _ _ _ => rfl) (fun _ _ _ => rfl) ..)
      have swept := foldl_ok (p := fun t => State.Idle t b) (fun u q quiet => State.Idle.abandonQueue quiet q) qs t3 k3
      exact State.Idle.of_queues swept (State.freeCtx_keeps BerthSt.queues b ..)

end

/-! Contexts that are gone stay gone. -/

theorem State.abandonCtx_stays_gone {s : State} {b k : Nat} (gone : s.ctxGone k = true) (c : Nat) :
    (s.abandonCtx b c).ctxGone k = true := by
  unfold State.abandonCtx
  split
  · exact gone
  · split
    · exact gone
    · extract_lets t qs idle t1 evs t2 t3
      have noted : t.ctxGone k = true := by
        by_cases same : k = c
        · subst same
          unfold State.ctxGone State.ctx
          rw [tfind_tset_self]
          rfl
        · unfold State.ctxGone State.ctx at gone ⊢
          rw [tfind_tset_other _ _ same]
          exact gone
      have k1 : t1.ctxs = t.ctxs := forL_keeps State.ctxs idle t _ fun q u => State.retireRest_ctxs ..
      have k2 : t2.ctxs = t1.ctxs :=
        forL_keeps State.ctxs evs t1 _ fun h u => (State.evtSet_frame _ _ _ _ _).frame .ctxs (by decide)
      have k3 : t3.ctxs = t2.ctxs := (State.dropHolder_frame _ _ _).frame .ctxs (by decide)
      have left : t3.ctxGone k = true := (State.ctxGone_congr (k3.trans (k2.trans k1)) k).trans noted
      exact State.freeCtx_gone (foldl_ok (p := fun u => State.ctxGone u k = true)
        (fun u q away => State.abandonQueue_gone away q) qs t3 left) c

/-! Function-level resets. -/

section
variable {s : State} {f : Nat}

/-- The contexts of a function's berth. -/
def State.ctxsOf (s : State) (b : Nat) : List Nat := (s.ctxs.filter fun p => p.2.berth == b).map Prod.fst

theorem State.mem_ctxsOf {b k : Nat} {x : CtxSt} (there : s.ctx k = some x) (berth : x.berth = b) : k ∈ s.ctxsOf b :=
  List.mem_map.2 ⟨(k, x), List.mem_filter.2 ⟨mem_of_tfind there, by simp [berth]⟩, rfl⟩

/-- The state with every context of a berth abandoned. -/
def State.abandonAll (s : State) (b : Nat) : State := forL (s.ctxsOf b) s fun c t => t.abandonCtx b c

theorem State.abandonAll_gone {b k : Nat} (listed : k ∈ s.ctxsOf b) : (s.abandonAll b).ctxGone k = true :=
  forL_establishes (fun k t => State.ctxGone t k = true) (fun c t => State.abandonCtx_gone t b c)
    (fun _ c _ gone => State.abandonCtx_stays_gone gone c) _ s k listed

theorem State.Idle.abandonAll {b : Nat} (idle : s.Idle b) : (s.abandonAll b).Idle b :=
  foldl_ok (p := fun t => State.Idle t b) (fun _ c quiet => State.Idle.abandonCtx quiet c) _ s idle

theorem vfFlr_run (low : 1 ≤ f) (high : f ≤ 24) (live : s.fnLive f = true) : exec (.vfFlr f) s =
    .next (((s.abandonAll (f - 1)).modFn f fun x => { x with flr := true }).flrClear f) := by
  refine congrArg Host.Outcome.next (if_neg ?_)
  rintro (zero | above | dead)
  · omega
  · omega
  · simp [live] at dead

/-- With no command on its barges a function under reset is cleared. -/
theorem State.flrClear_idle {t : State} (idle : t.Idle (f - 1)) : ((t.modFn f fun x => { x with flr := true }).flrClear f) =
    (t.modFn f fun x => { x with flr := true }).modFn f fun y => { y with flr := false, ring := none, barge := none, bargeOwn := 0 } := by
  refine if_pos ⟨by rw [State.fn_modFn], ?_⟩
  rw [Bool.not_eq_true', Bool.eq_false_iff]
  intro any
  obtain ⟨p, inside, busy⟩ := List.any_eq_true.1 any
  rw [idle p inside] at busy
  cases busy

/-- The operator's mailboxes cleared, each with its berth. -/
def State.clearBoxes (s : State) (n : Nat) : State := forN n s fun j t => t.modMb (96 + j) fun x => { assigned := x.assigned }

theorem pfFlr_run (s : State) : exec .pfFlr s =
    .next (State.clearBoxes { s with host := { s.host with fn := tset s.host.fn 0 {} } } 32) := rfl

theorem State.clearBoxes_mb (s : State) (n m : Nat) : (s.clearBoxes n).mb m =
    if 96 ≤ m ∧ m < 96 + n then { assigned := (s.mb m).assigned } else s.mb m := by
  induction n with
  | zero => exact (if_neg (by omega)).symm
  | succ n ih =>
    have step : s.clearBoxes (n + 1) = (s.clearBoxes n).modMb (96 + n) fun x => { assigned := x.assigned } := forN_succ ..
    rw [step]
    by_cases here : m = 96 + n
    · subst here
      rw [State.mb_modMb, ih, if_neg (by omega), if_pos (by omega)]
    · rw [State.mb_modMb_other _ _ here, ih]
      have same : (96 ≤ m ∧ m < 96 + n) ↔ 96 ≤ m ∧ m < 96 + (n + 1) := by omega
      simp only [same]

theorem State.clearBoxes_kept {α : Type} (g : State → α) (boxes : ∀ t m f, g (State.modMb t m f) = g t) (s : State) (n : Nat) :
    g (s.clearBoxes n) = g s := forN_keeps g n s _ fun j t => boxes t (96 + j) _

end

/-! The grace of an abandoned context. -/

section
variable {s : State} {c : Nat}

theorem abandonGraceExpiry_live (live : s.ctxGone c = false) : exec (.abandonGraceExpiry c) s = .next s := by
  unfold State.ctxGone at live
  refine congrArg Host.Outcome.next ?_
  cases there : s.ctx c with
  | none => rfl
  | some x =>
    rw [there] at live
    exact if_neg (Bool.eq_false_iff.1 live)

/-- What a context's only queue launched is stopped. -/
theorem State.graceOver_launch {b : Nat} {p : Nat × QueueSt} {r : RunSt} {l : Nat} (alone : (s.berth b).queues = [p])
    (own : p.2.ctx = c) (runs : p.2.run = some r) (busy : r.done = none) (launched : r.launch = some l) :
    s.graceOver b c = s.stopLaunch l 0x0708 := by
  have listed : ((s.berth b).queues.filter fun p => p.2.ctx == c) = [p] := by
    rw [alone]
    exact List.filter_cons_of_pos (by simp [own])
  unfold State.graceOver
  rw [listed, forL_cons]
  refine (show _ = _ from ?_ : forL [] _ _ = _)
  simp only [runs, busy, launched]
  rfl

theorem abandonGraceExpiry_run {x : CtxSt} (there : s.ctx c = some x) (abandoned : x.abandoned = true) :
    exec (.abandonGraceExpiry c) s = .next (s.graceOver x.berth c) := by
  refine congrArg Host.Outcome.next ?_
  simp only [there]
  exact if_pos abandoned

end

/-! Host ports. -/

section
variable {s : State}

theorem State.hostPort_modPort (s : State) (p : Nat) (f : PortSt → PortSt) : (s.modPort p f).hostPort p = f (s.hostPort p) :=
  tget_tset_self ..

theorem State.hostPort_modPort_other (s : State) {p r : Nat} (f : PortSt → PortSt) (other : r ≠ p) :
    (s.modPort p f).hostPort r = s.hostPort r := tget_tset_other _ _ _ other

/-- Without a host a frame of a feed changes nothing of the host. -/
theorem State.feedTurn_down {t : State} (down : t.hostUp = false) (b q : Nat) : (t.feedTurn b q).host = t.host := by
  unfold State.feedTurn
  split
  · rfl
  · extract_lets st n
    split
    · rfl
    · rw [if_pos (by simp [down])]
      exact State.endCmd_host ..

theorem State.hostUp_of_host {t : State} (same : t.host = s.host) : t.hostUp = s.hostUp := by
  unfold State.hostUp
  rw [same]

theorem State.feedAll_down {t : State} (down : t.hostUp = false) (b : Nat) : (t.feedAll b).host = t.host := by
  refine foldl_ok (p := fun u => State.host u = t.host) (fun u p same => ?_) _ t rfl
  refine foldl_ok (p := fun u => State.host u = t.host) (fun v _ same => ?_) _ u same
  exact (State.feedTurn_down ((State.hostUp_of_host same).trans down) b p.1).trans same

/-- The host lost, before the feeds that wait for it end. -/
def State.loseHost (s : State) : State := { s with host := { s.host with lost := true } }

theorem hostLoss_run (first : (s.hostPort 0).up = false) (second : (s.hostPort 1).up = false) :
    exec .hostLoss s = .next (forN 24 s.loseHost fun b t => t.feedAll b) :=
  congrArg Host.Outcome.next (if_neg (by simp [first, second]))

theorem hostLoss_host (first : (s.hostPort 0).up = false) (second : (s.hostPort 1).up = false) :
    ∃ u, exec .hostLoss s = .next u ∧ u.host = s.loseHost.host := by
  refine ⟨_, hostLoss_run first second, foldl_ok (p := fun u => State.host u = s.loseHost.host) (fun u b same => ?_) _ _ rfl⟩
  have down : s.loseHost.hostUp = false := rfl
  exact (State.feedAll_down ((State.hostUp_of_host same).trans down) b).trans same

theorem hostLoss_up (up : (s.hostPort 0).up = true ∨ (s.hostPort 1).up = true) : exec .hostLoss s = .next s :=
  congrArg Host.Outcome.next (if_pos (Bool.or_eq_true_iff.2 up))

/-- A port that has trained. -/
def PortSt.trained (width rate : Nat) (x : PortSt) : PortSt :=
  { x with up := true, width := min 4 width, rate := rate, perst := false }

/-- The state with a host port trained and the host no longer lost. -/
def State.findHost (s : State) (port width rate : Nat) : State :=
  { s.modPort (port % 2) (PortSt.trained width rate) with
    host := { (s.modPort (port % 2) (PortSt.trained width rate)).host with lost := false } }

theorem hostLinkUp_run (s : State) (port width rate : Nat) : exec (.hostLinkUp port width rate) s =
    .next (s.findHost port width rate) := rfl

theorem State.findHost_port (s : State) (port width rate : Nat) :
    (s.findHost port width rate).hostPort (port % 2) = (s.hostPort (port % 2)).trained width rate := tget_tset_self ..

theorem State.findHost_up (s : State) (port width rate : Nat) : (s.findHost port width rate).hostUp = true := by
  have up : ((s.findHost port width rate).hostPort (port % 2)).up = true := congrArg PortSt.up (State.findHost_port ..)
  have either : ((s.findHost port width rate).hostPort 0).up = true ∨ ((s.findHost port width rate).hostPort 1).up = true := by
    rcases Nat.mod_two_eq_zero_or_one port with even | odd
    · exact .inl (even ▸ up)
    · exact .inr (odd ▸ up)
  exact Bool.and_eq_true_iff.2 ⟨rfl, Bool.or_eq_true_iff.2 either⟩

theorem configurationRequest_run (on : s.power.on = true) {port : Nat} (listed : port < 2) (f reg : Nat) :
    ∃ u o, exec (.configurationRequest port f reg) s = .next u ∧ u.out = s.out ++ [o] ∧ o.kind = .pcie ∧ o.port = port ∧
      o.args.head? = some (if s.boot.running = 0 then 0 else 2) := by
  have serves : ¬((!s.power.on) = true ∨ 2 ≤ port) := by
    rintro (off | above)
    · simp [on] at off
    · omega
  by_cases running : s.boot.running = 0
  · rw [if_pos running]
    exact ⟨_, _, congrArg Host.Outcome.next ((if_neg serves).trans (if_neg (not_not_intro running))), rfl, rfl, rfl, rfl⟩
  · rw [if_neg running]
    exact ⟨_, _, congrArg Host.Outcome.next ((if_neg serves).trans (if_pos running)), rfl, rfl, rfl, rfl⟩

end

/-- Settles O29: an abandoned context's queues run nothing more that holds a barge, so its function's window goes; a lost host
ends feeds without a change of the host. -/
theorem hostFunctionsAndPorts : Obligations.HostFunctionsAndPorts := by
  refine fun s c f port width rate reg => ⟨fun x p r l a there abandoned alone own runs busy launched record live => ?grace,
    fun live => abandonGraceExpiry_live live, fun low high live idle => ?function, ?pf, ?down,
    fun first second => ?lost, fun up => hostLoss_up up, ?up, fun listed => ?perst,
    fun on listed => configurationRequest_run on listed f reg⟩
  case grace =>
    obtain ⟨m, found, stopped, status, -⟩ := State.stopLaunch_stops (code := 0x0708) record live
    refine ⟨_, m, abandonGraceExpiry_run there abandoned, ?_, stopped, status⟩
    rw [State.graceOver_launch alone own runs busy launched]
    exact found
  case function =>
    have run := vfFlr_run low high live
    have quiet : s.Idle (f - 1) := idle
    rw [State.flrClear_idle quiet.abandonAll] at run
    have cleared := State.fn_modFn ((s.abandonAll (f - 1)).modFn f fun x => { x with flr := true }) f
      fun y => { y with flr := false, ring := none, barge := none, bargeOwn := 0 }
    exact ⟨_, run, (congrArg FnSt.ring cleared :), (congrArg FnSt.barge cleared :), (congrArg FnSt.bargeOwn cleared :),
      fun k x there berth => State.abandonAll_gone (State.mem_ctxsOf there berth)⟩
  case pf =>
    refine ⟨_, pfFlr_run s, ?_, State.clearBoxes_kept State.berths (fun _ _ _ => rfl) .., fun m low high => ?_, fun m low => ?_⟩
    · exact (State.clearBoxes_kept (fun u => State.fn u 0) (fun _ _ _ => rfl) ..).trans (tget_tset_self ..)
    · rw [State.clearBoxes_mb, if_pos ⟨low, by omega⟩]
      rfl
    · rw [State.clearBoxes_mb, if_neg (by omega)]
      rfl
  case down =>
    exact ⟨_, rfl, congrArg PortSt.up (State.hostPort_modPort ..), State.hostPort_modPort_other _ _ (by omega), rfl⟩
  case lost =>
    obtain ⟨u, run, host⟩ := hostLoss_host first second
    exact ⟨u, run, congrArg HostSt.lost host, State.hostUp_of_host host⟩
  case up =>
    have port' := State.findHost_port s port width rate
    exact ⟨_, hostLinkUp_run .., congrArg PortSt.up port', congrArg PortSt.rate port', rfl, State.findHost_up ..⟩
  case perst =>
    have found := State.hostPort_modPort s port fun x => { x with perst := true, up := false }
    exact ⟨_, congrArg Host.Outcome.next (if_pos listed), (congrArg PortSt.perst found :), (congrArg PortSt.up found :), rfl⟩

end Sys2Proof.Machine
end

section
/-!
Thinil messages: how a message of a tick is read, handled and answered, and what it does to its session (16 R490, R493-R497).
-/

namespace Sys2Proof.Machine

/-! Numbers in bytes. -/

theorem leBytes_succ (n v : Nat) : leBytes (n + 1) v = BitVec.ofNat 8 v :: leBytes n (v / 256) := by
  unfold leBytes
  rw [List.range_succ_eq_map, List.map_cons, List.map_map]
  refine congr (congrArg List.cons ?_) (List.map_congr_left fun i _ => ?_)
  · simp
  · change BitVec.ofNat 8 (v / 2 ^ (8 * (i + 1))) = BitVec.ofNat 8 (v / 256 / 2 ^ (8 * i))
    rw [Nat.div_div_eq_div_mul, show 8 * (i + 1) = 8 + 8 * i by omega, Nat.pow_add]

/-- The bytes of a number hold it. -/
theorem leNat_leBytes (n : Nat) {v : Nat} (fits : v < 2 ^ (8 * n)) : leNat (leBytes n v) = v := by
  induction n generalizing v with
  | zero =>
    have zero : v = 0 := by simpa using fits
    exact zero.symm
  | succ n ih =>
    have power : 2 ^ (8 * (n + 1)) = 256 * 2 ^ (8 * n) := by rw [Nat.mul_add, Nat.pow_add, Nat.mul_comm]
    have rest : leNat (leBytes n (v / 256)) = v / 256 := ih (Nat.div_lt_of_lt_mul (power ▸ fits))
    rw [leBytes_succ, leNat, rest, BitVec.toNat_ofNat]
    omega

theorem beNat_beBytes (n : Nat) {v : Nat} (fits : v < 2 ^ (8 * n)) : beNat (beBytes n v) = v := by
  rw [beNat, beBytes, List.reverse_reverse, leNat_leBytes n fits]

@[simp] theorem beBytes_length (n v : Nat) : (beBytes n v).length = n := by simp [beBytes, leBytes]

theorem thnMsg_length (typ sid seq code : Nat) (body : Bytes) : (thnMsg typ sid seq code body).length = 16 + body.length := by
  simp [thnMsg]
  omega

theorem padded_length (v : Bytes) : (padded v).length = (v.length + 3) / 4 * 4 := by
  simp [padded, zeros]
  omega

/-! Ticks. -/

/-- The end of a tick: the mirror changes where an entry has. -/
def State.closeTick (s : State) : State :=
  if s.dict.changed then
    { s with dict := { s.dict with changed := false, gen := s.dict.gen + 2, mirrorTick := s.dict.tick } }
  else s

theorem State.closeTick_kept {α : Type} (g : State → α)
    (blind : ∀ (t : State) c n k, g { t with dict := { t.dict with changed := c, gen := n, mirrorTick := k } } = g t) (s : State) :
    g s.closeTick = g s := by
  unfold State.closeTick
  split
  · exact blind s ..
  · rfl

/-- The end of a tick whose one message has been answered on its towpath connection. -/
def State.told (s : State) (m : ThnMsg) (ans : Bytes) : State :=
  (s.emit { kind := .thinil, port := m.port, args := [m.conn], data := ans }).closeTick

section
variable {s : State} {m : ThnMsg}

theorem told_told (s : State) (m : ThnMsg) (ans : Bytes) : Told (s.told m ans) m ans := by
  have out : (s.told m ans).out = s.out ++ [{ kind := .thinil, port := m.port, args := [m.conn], data := ans }] :=
    State.closeTick_kept State.out (fun _ _ _ _ => rfl) _
  unfold Told
  rw [out, List.getLast?_concat]

/-- An answer and the end of its tick leave what speaks of neither output nor mirror. -/
theorem State.told_kept {α : Type} (g : State → α) (emits : ∀ (t : State) o, g (t.emit o) = g t)
    (blind : ∀ (t : State) c n k, g { t with dict := { t.dict with changed := c, gen := n, mirrorTick := k } } = g t) (s : State)
    (m : ThnMsg) (ans : Bytes) : g (s.told m ans) = g s := (State.closeTick_kept g blind _).trans (emits ..)

theorem State.told_sessions (s : State) (m : ThnMsg) (ans : Bytes) : (s.told m ans).dict.sessions = s.dict.sessions :=
  State.told_kept (fun t => t.dict.sessions) (fun _ _ => rfl) (fun _ _ _ _ => rfl) s m ans

/-- The one message of a tick is handled and answered. -/
theorem tick_answers (up : DictUp s) (alone : s.dict.inbox = [m]) (towpath : m.port < 2)
    (conn : ∃ c, tfind s.dict.conns m.conn = some c) {t : State} {ans : Bytes} (handled : (InTick s).thnHandle m = (t, ans)) :
    exec (.dictionaryTick false) s = .next (t.told m ans) := by
  obtain ⟨active, on⟩ := up
  obtain ⟨c, open_⟩ := conn
  have turn : (InTick s).thnTurn m = t.emit { kind := .thinil, port := m.port, args := [m.conn], data := ans } := by
    have heard : ¬((!(InTick s).up || (InTick s).lk.active.isNone ||
        (m.port != 97 && (tfind (InTick s).dict.conns m.conn).isNone)) = true) := by
      have up' : (InTick s).up = true := on
      have active' : (InTick s).lk.active.isNone = false := by
        cases found : s.lk.active with
        | none => exact absurd found active
        | some a => exact congrArg Option.isNone found
      have open' : (tfind (InTick s).dict.conns m.conn).isNone = false := congrArg Option.isNone open_
      simp [up', active', open']
    have answers : ∀ u : State, u.thnAnswer m ans = u.emit { kind := .thinil, port := m.port, args := [m.conn], data := ans } :=
      fun u => if_neg (by omega)
    unfold State.thnTurn
    rw [if_neg heard, handled]
    exact answers t
  have serves : ¬((!s.up) = true ∨ s.lk.active.isNone = true) := by
    rintro (off | none)
    · simp [on] at off
    · exact active (Option.isNone_iff_eq_none.1 none)
  refine congrArg Host.Outcome.next ((if_neg serves).trans ?_)
  have one : thnSort s.dict.inbox = [m] := by rw [alone]; rfl
  rw [one]
  refine (congrArg (fun u : State => if false ∨ u.dict.changed = true then
    { u with dict := { u.dict with changed := false, gen := u.dict.gen + 2, mirrorTick := u.dict.tick } } else u) turn).trans ?_
  unfold State.told State.closeTick
  by_cases changed : t.dict.changed = true
  · exact (if_pos (.inr changed)).trans (if_pos changed).symm
  · exact (if_neg (by simpa using changed)).trans (if_neg changed).symm

end

/-! Reading a message. -/

/-- A message of a towpath port whose header and length are in order. -/
structure Framed (m : ThnMsg) (typ sid seq : Nat) (body : Bytes) : Prop where
  msg : m.msg = thnMsg typ sid seq 0 body
  sid_lt : sid < 2 ^ 32
  seq_lt : seq < 2 ^ 32
  short : body.length ≤ 1184
  towpath : m.port < 2

/-- The fields of a message's header. -/
theorem thnMsg_fields {typ sid seq : Nat} {body : Bytes} (typ_lt : typ < 2 ^ 8) (sid_lt : sid < 2 ^ 32) (seq_lt : seq < 2 ^ 32)
    (short : body.length < 2 ^ 16) (code : Nat) : beAt (thnMsg typ sid seq code body) 0 1 = 1 ∧
      beAt (thnMsg typ sid seq code body) 1 1 = typ ∧ beAt (thnMsg typ sid seq code body) 2 2 = 0 ∧
      beAt (thnMsg typ sid seq code body) 4 4 = sid ∧ beAt (thnMsg typ sid seq code body) 8 4 = seq ∧
      beAt (thnMsg typ sid seq code body) 12 2 = body.length ∧ (thnMsg typ sid seq code body).drop 16 = body :=
  ⟨rfl, beNat_beBytes 1 typ_lt, rfl, beNat_beBytes 4 sid_lt, beNat_beBytes 4 seq_lt, beNat_beBytes 2 short, rfl⟩

/-- What an open session's message comes to once its header is in order. -/
def State.thnSession (s : State) (m : ThnMsg) (typ sid seq : Nat) (body : Bytes) : State × Bytes :=
  match tfind s.dict.sessions sid with
  | none => (s, thnMsg (typ ||| 0x80) sid seq 0x0802 [])
  | some x =>
    if x.port ≠ m.port ∨ x.conn ≠ m.conn then (s, thnMsg (typ ||| 0x80) sid seq 0x0802 [])
    else match x.kept.find? fun p => p.1 == seq with
      | some p => (s, p.2)
      | none =>
        if !x.kept.isEmpty && x.kept.all (fun p => decide (seq ≤ p.1)) then (s, thnMsg (typ ||| 0x80) sid seq 0x0803 [])
        else
          let r := s.thnDo sid x typ body
          let ans := thnMsg (typ ||| 0x80) sid seq r.code r.body
          let t := r.state.modSession sid fun y => { y with kept := (y.kept ++ [(seq, ans)]).drop (y.kept.length + 1 - 64) }
          (if typ = 2 ∧ r.code = 0 then t.closeSession sid else t, ans)

theorem Framed.handle {m : ThnMsg} {typ sid seq : Nat} {body : Bytes} (framed : Framed m typ sid seq body)
    (listed : typ ∈ [2, 3, 0x10, 0x11, 0x12, 0x13]) (s : State) : s.thnHandle m = s.thnSession m typ sid seq body := by
  obtain ⟨msg, sid_lt, seq_lt, short, towpath⟩ := framed
  have typ_lt : typ < 2 ^ 8 ∧ typ ≠ 1 ∧ [1, 2, 3, 0x10, 0x11, 0x12, 0x13].contains typ = true := by
    simp only [List.mem_cons, List.not_mem_nil, or_false] at listed
    rcases listed with rfl | rfl | rfl | rfl | rfl | rfl <;> decide
  obtain ⟨typ_lt, other, known⟩ := typ_lt
  obtain ⟨version, kind, flags, session, number, length, rest⟩ :=
    thnMsg_fields (body := body) typ_lt sid_lt seq_lt (by omega) 0
  have code : beAt (thnMsg typ sid seq 0 body) 14 2 = 0 := rfl
  have room : maxBody m.port = 1184 := if_neg (by omega)
  unfold State.thnHandle
  rw [msg]
  simp only [version, kind, flags, session, number, length, rest, code, thnMsg_length, room]
  refine (if_neg (not_not_intro rfl)).trans ((if_neg ?_).trans ((if_neg other).trans rfl))
  rintro (few | wrong | long | code | unknown | flagged)
  · omega
  · exact wrong rfl
  · omega
  · exact code rfl
  · rw [known] at unknown
    cases unknown
  · exact absurd flagged (Nat.not_lt_zero _)

section
variable {s : State} {m : ThnMsg} {typ sid seq : Nat} {body : Bytes} {x : SessSt}

theorem Spoken.framed (spoken : Spoken s m typ sid seq body x) : Framed m typ sid seq body :=
  ⟨spoken.msg, spoken.sid_lt, spoken.seq_lt, spoken.short, spoken.towpath⟩

theorem State.thnSession_unknown (none : tfind s.dict.sessions sid = none) :
    s.thnSession m typ sid seq body = (s, thnMsg (typ ||| 0x80) sid seq 0x0802 []) := by
  unfold State.thnSession
  rw [none]

theorem find_none {l : List (Nat × Bytes)} {seq : Nat} (other : ∀ p ∈ l, p.1 ≠ seq) : l.find? (fun p => p.1 == seq) = none :=
  List.find?_eq_none.2 fun p inside same => other p inside (beq_iff_eq.1 same)

section
variable (found : tfind s.dict.sessions sid = some x) (own : x.port = m.port ∧ x.conn = m.conn)
include found own

theorem State.thnSession_again {p : Nat × Bytes} (kept : x.kept.find? (fun p => p.1 == seq) = some p) :
    s.thnSession m typ sid seq body = (s, p.2) := by
  unfold State.thnSession
  rw [found]
  simp only [own, kept]
  exact if_neg (by simp)

theorem State.thnSession_stale (some : x.kept ≠ []) (stale : ∀ p ∈ x.kept, seq < p.1) :
    s.thnSession m typ sid seq body = (s, thnMsg (typ ||| 0x80) sid seq 0x0803 []) := by
  have none := find_none fun p inside => Nat.ne_of_gt (stale p inside)
  have all : (!x.kept.isEmpty && x.kept.all (fun p => decide (seq ≤ p.1))) = true := by
    refine Bool.and_eq_true_iff.2 ⟨by simpa using some, List.all_eq_true.2 fun p inside => ?_⟩
    exact decide_eq_true (Nat.le_of_lt (stale p inside))
  unfold State.thnSession
  rw [found]
  simp only [own, none, all]
  exact (if_neg (by simp)).trans (if_pos trivial)

/-- A session with an answer kept. -/
def SessSt.keeping (seq : Nat) (ans : Bytes) (y : SessSt) : SessSt :=
  { y with kept := (y.kept ++ [(seq, ans)]).drop (y.kept.length + 1 - 64) }

/-- A fresh request is done, and its answer kept. -/
theorem State.thnSession_fresh (fresh : ∀ p ∈ x.kept, p.1 < seq) {c : Nat} {b : Bytes} {t : State}
    (done : s.thnDo sid x typ body = { code := c, body := b, state := t }) :
    s.thnSession m typ sid seq body = (if typ = 2 ∧ c = 0 then
        (t.modSession sid (SessSt.keeping seq (thnMsg (typ ||| 0x80) sid seq c b))).closeSession sid
      else t.modSession sid (SessSt.keeping seq (thnMsg (typ ||| 0x80) sid seq c b)), thnMsg (typ ||| 0x80) sid seq c b) := by
  have none := find_none fun p inside => Nat.ne_of_lt (fresh p inside)
  have newer : ¬((!x.kept.isEmpty && x.kept.all (fun p => decide (seq ≤ p.1))) = true) := by
    intro all
    obtain ⟨some, older⟩ := Bool.and_eq_true_iff.1 all
    obtain ⟨p, inside⟩ := List.exists_mem_of_ne_nil x.kept (by simpa using some)
    exact absurd (of_decide_eq_true (List.all_eq_true.1 older p inside)) (Nat.not_le.2 (fresh p inside))
  unfold State.thnSession
  rw [found]
  simp only [own, none, newer, done]
  exact (if_neg (by simp)).trans (if_neg (by simp))

end

/-- The tick of a fresh request: what is done, and the answer. -/
theorem Fresh.tick (fresh : Fresh s m typ sid seq body x) (listed : typ ∈ [3, 0x10, 0x11, 0x12, 0x13]) {c : Nat} {b : Bytes}
    {t : State} (done : (InTick s).thnDo sid x typ body = { code := c, body := b, state := t }) :
    exec (.dictionaryTick false) s = .next ((t.modSession sid (SessSt.keeping seq (thnMsg (typ ||| 0x80) sid seq c b))).told m
      (thnMsg (typ ||| 0x80) sid seq c b)) := by
  obtain ⟨spoken, newest⟩ := fresh
  have other : typ ≠ 2 := by
    rintro rfl
    exact absurd listed (by decide)
  have handled := State.thnSession_fresh (s := InTick s) (m := m) spoken.session spoken.own newest done
  rw [if_neg fun both => other both.1] at handled
  exact tick_answers spoken.up spoken.alone spoken.towpath spoken.conn
    ((spoken.framed.handle (List.mem_cons_of_mem 2 listed) _).trans handled)

/-- What a session's kept answer leaves. -/
theorem State.modSession_kept {α : Type} (g : State → α)
    (blind : ∀ (t : State) l, g { t with dict := { t.dict with sessions := l } } = g t) (s : State) (sid : Nat) (f : SessSt → SessSt) :
    g (s.modSession sid f) = g s := by
  unfold State.modSession
  split
  · exact blind s _
  · rfl

theorem State.modSession_session (found : tfind s.dict.sessions sid = some x) (f : SessSt → SessSt) :
    tfind (s.modSession sid f).dict.sessions sid = some (f x) := by
  unfold State.modSession
  rw [found]
  exact tfind_tset_self ..

/-- What the end of a request leaves of what it has done. -/
theorem State.kept_told {α : Type} (g : State → α) (emits : ∀ (t : State) o, g (t.emit o) = g t)
    (sessions : ∀ (t : State) l, g { t with dict := { t.dict with sessions := l } } = g t)
    (blind : ∀ (t : State) c n k, g { t with dict := { t.dict with changed := c, gen := n, mirrorTick := k } } = g t) (t : State)
    (sid : Nat) (f : SessSt → SessSt) (m : ThnMsg) (ans : Bytes) : g ((t.modSession sid f).told m ans) = g t :=
  (State.told_kept g emits blind ..).trans (State.modSession_kept g sessions ..)

end

/-! Opening a session. -/

section
variable {s : State} {m : ThnMsg} {role sub seq : Nat}

/-- An `OPEN`. -/
def openMsg (role sub seq : Nat) : Bytes :=
  [1, 1, 0] ++ beBytes 1 sub ++ zeros 4 ++ beBytes 4 seq ++ [0, 4, 0, 0] ++ beBytes 1 role ++ zeros 3

/-- A session as `OPEN` opens it. -/
def ThnMsg.session (m : ThnMsg) (role sub berth : Nat) : SessSt :=
  { port := m.port, conn := m.conn, role := role, berth := if role = 2 then berth else 0, subscribe := decide (sub = 1) }

/-- What an `OPEN` comes to for a client with a grant. -/
def State.openAs (s : State) (m : ThnMsg) (role sub seq : Nat) (g : Nat × Nat) : State × Bytes :=
  if g.1 < role ∨ (role = 2 ∧ g.1 ≠ 2) then (s, thnMsg 0x81 0 seq 0x0806 [])
  else if 32 ≤ s.dict.sessions.length then (s, thnMsg 0x81 0 seq 0x0804 [])
  else
    ({ s with dict := { s.dict with sessions := tset s.dict.sessions s.dict.sessNext (m.session role sub g.2),
                                    sessNext := s.dict.sessNext + 1 } },
      thnMsg 0x81 s.dict.sessNext seq 0 (beBytes 2 1184 ++ beBytes 2 100))

theorem thnHandle_open (msg : m.msg = openMsg role sub seq) (seq_lt : seq < 2 ^ 32) (sub_le : sub ≤ 1) (low : 1 ≤ role)
    (high : role ≤ 4) (towpath : m.port < 2) : s.thnHandle m = s.openAs m role sub seq (s.grantOf m.port m.conn) := by
  have flags : beAt m.msg 2 2 = sub := by
    rw [msg]
    have two : beAt (openMsg role sub seq) 2 2 = beNat (0 :: beBytes 1 sub) := rfl
    rw [two]
    obtain rfl | rfl : sub = 0 ∨ sub = 1 := by omega
    · rfl
    · rfl
  have number : beAt m.msg 8 4 = seq := by
    rw [msg]
    exact beNat_beBytes 4 seq_lt
  have asked : beAt (m.msg.drop 16) 0 1 = role := by
    rw [msg]
    exact beNat_beBytes 1 (by omega)
  have version : beAt m.msg 0 1 = 1 := by rw [msg]; rfl
  have kind : beAt m.msg 1 1 = 1 := by rw [msg]; rfl
  have length : m.msg.length = 20 := by rw [msg]; rfl
  have rest : (m.msg.drop 16).length = 4 := by rw [msg]; rfl
  have lengthIs : beAt m.msg 12 2 = 4 := by rw [msg]; rfl
  have code : beAt m.msg 14 2 = 0 := by rw [msg]; rfl
  have noSession : beAt m.msg 4 4 = 0 := by rw [msg]; rfl
  have reserved : beAt (m.msg.drop 16) 1 3 = 0 := by rw [msg]; rfl
  have room : maxBody m.port = 1184 := if_neg (by omega)
  have opens : s.thnOpen m = s.openAs m role sub seq (s.grantOf m.port m.conn) := by
    unfold State.thnOpen
    simp only [noSession, number, asked, rest, reserved, room, flags]
    refine (if_neg ?_).trans rfl
    omega
  unfold State.thnHandle
  simp only [version, kind, length, rest, lengthIs, code, room, flags]
  refine (if_neg (not_not_intro rfl)).trans ((if_neg ?_).trans ((if_pos trivial).trans opens))
  rintro (few | wrong | long | code | unknown | flagged)
  · omega
  · exact wrong rfl
  · omega
  · exact code rfl
  · exact absurd unknown (by decide)
  · exact absurd flagged (Nat.not_lt.2 sub_le)

end

end Sys2Proof.Machine
end

section
/-!
Dictionary sessions: opening, closing, pings, repeated and stale messages (16 R490, R493, R494, R496, R497).
-/

namespace Sys2Proof.Machine

section
variable {s : State} {m : ThnMsg} {sid seq : Nat} {x : SessSt}

/-- A message arrives on an open connection of a serving port. -/
theorem thnIn_arrives {c : ConnSt} (conn : tfind s.dict.conns m.conn = some c) (port : c.port = m.port)
    (serves : s.tpServes m.port = true) {typ : Nat} (kind : beAt m.msg 1 1 = typ) :
    s.thnIn typ m.port m.conn m.msg = { s with dict := { s.dict with inbox := s.dict.inbox ++ [m] } } :=
  if_pos ⟨serves, by simp [conn, port], kind⟩

theorem State.closeSession_sessions (s : State) (sid : Nat) : (s.closeSession sid).dict.sessions = tdel s.dict.sessions sid := by
  unfold State.closeSession
  extract_lets _ t
  split
  · exact congrArg DictSt.sessions ((State.setService_frame _ _).frame .dict (by decide))
  · rfl

/-- A closed session is gone, and sets no service state. -/
theorem State.closeSession_gone (s : State) (sid : Nat) :
    tfind (s.closeSession sid).dict.sessions sid = none ∧ (s.closeSession sid).lk.service ≠ some sid := by
  rw [State.closeSession_sessions, State.closeSession_service]
  refine ⟨tfind_tdel_self .., ?_⟩
  split
  · exact fun none => nomatch none
  · next other => exact other

/-- A request without a body is done by an open session of another role than tenant. -/
theorem State.thnDo_empty (other : x.role ≠ 2) {typ : Nat} (kind : typ = 2 ∨ typ = 3) :
    s.thnDo sid x typ [] = { state := s } := by
  have inScope : s.scopeLost x = false := by
    unfold State.scopeLost
    simp [other]
  rcases kind with rfl | rfl
  · simp [State.thnDo, inScope]
  · simp [State.thnDo, inScope]

/-- A `CLOSE` closes its session. -/
theorem close_tick (fresh : Fresh s m 0x02 sid seq [] x) (other : x.role ≠ 2) : exec (.dictionaryTick false) s =
    .next ((((InTick s).modSession sid (SessSt.keeping seq (thnMsg 0x82 sid seq 0 []))).closeSession sid).told m
      (thnMsg 0x82 sid seq 0 [])) := by
  obtain ⟨spoken, newest⟩ := fresh
  have handled := State.thnSession_fresh (s := InTick s) (m := m) spoken.session spoken.own newest
    (State.thnDo_empty (sid := sid) other (.inl rfl))
  exact tick_answers spoken.up spoken.alone spoken.towpath spoken.conn ((spoken.framed.handle (by decide) _).trans handled)

/-- A kept answer stands last, among 64 at most. -/
theorem SessSt.keeping_last (y : SessSt) (seq : Nat) (ans : Bytes) :
    (y.keeping seq ans).kept.getLast? = some (seq, ans) ∧ (y.keeping seq ans).kept.length ≤ 64 := by
  have kept : (y.keeping seq ans).kept = y.kept.drop (y.kept.length + 1 - 64) ++ [(seq, ans)] :=
    List.drop_append_of_le_length (by omega)
  rw [kept]
  refine ⟨List.getLast?_concat, ?_⟩
  rw [List.length_append, List.length_drop, List.length_singleton]
  omega

/-- An `OPEN` is handled with the grant of its connection. -/
theorem open_tick {role sub : Nat} (msg : m.msg = openMsg role sub seq) (seq_lt : seq < 2 ^ 32) (sub_le : sub ≤ 1)
    (low : 1 ≤ role) (high : role ≤ 4) (alone : s.dict.inbox = [m]) (towpath : m.port < 2)
    (conn : ∃ c, tfind s.dict.conns m.conn = some c) (up : DictUp s) {g b : Nat} (grant : s.grantOf m.port m.conn = (g, b))
    {t : State} {ans : Bytes} (opens : (InTick s).openAs m role sub seq (g, b) = (t, ans)) :
    exec (.dictionaryTick false) s = .next (t.told m ans) := by
  have granted : (InTick s).grantOf m.port m.conn = (g, b) := grant
  refine tick_answers up alone towpath conn ((thnHandle_open msg seq_lt sub_le low high towpath).trans ?_)
  rw [granted, opens]

end

/-- Settles O30: every message of a tick is read by its header, and what it comes to is handled apart from its answer. -/
theorem sessionsExchangeMessages : Obligations.SessionsExchangeMessages := by
  refine fun s m sid seq x => ⟨fun c conn port serves p listed kind => ?arrives,
    fun role sub g b msg seq_lt sub_le low high alone towpath conn up grant =>
      ⟨fun may tenant room => ?opens, fun less => ?refused, fun may tenant full => ?full⟩,
    fun fresh other => ?closes, fun fresh other => ?ping, fun typ body p spoken listed kept => ?again,
    fun typ body spoken listed some stale => ?stale, fun c up alone towpath conn sid_lt seq_lt none msg => ?unknown⟩
  case arrives =>
    have run : Host.Outcome.next (s.thnIn p.1 m.port m.conn m.msg) = (.next _ : Result) :=
      congrArg Host.Outcome.next (thnIn_arrives conn port serves kind)
    simp only [List.mem_cons, List.not_mem_nil, or_false] at listed
    rcases listed with rfl | rfl | rfl | rfl | rfl | rfl | rfl <;> exact ⟨_, run, rfl, rfl, rfl⟩
  case opens =>
    have granted : ¬(g < role ∨ (role = 2 ∧ g ≠ 2)) := by
      rintro (less | ⟨isTenant, differs⟩)
      · omega
      · exact differs (tenant isTenant)
    have run := open_tick (m := m) msg seq_lt sub_le low high alone towpath conn up grant
      ((if_neg granted).trans (if_neg (Nat.not_le.2 room)))
    refine ⟨_, m.session role sub b, run, ?_, rfl, rfl, rfl, rfl, fun isTenant => if_pos isTenant, ?_, told_told ..⟩
    · rw [State.told_sessions]
      exact tfind_tset_self ..
    · exact State.told_kept (fun t => t.dict.sessNext) (fun _ _ => rfl) (fun _ _ _ _ => rfl) _ m _
  case refused =>
    have run := open_tick (m := m) msg seq_lt sub_le low high alone towpath conn up grant (if_pos (.inl less))
    exact ⟨_, run, State.told_sessions .., told_told ..⟩
  case full =>
    have granted : ¬(g < role ∨ (role = 2 ∧ g ≠ 2)) := by
      rintro (less | ⟨isTenant, differs⟩)
      · omega
      · exact differs (tenant isTenant)
    have run := open_tick (m := m) msg seq_lt sub_le low high alone towpath conn up grant ((if_neg granted).trans (if_pos full))
    exact ⟨_, run, State.told_sessions .., told_told ..⟩
  case closes =>
    obtain ⟨gone, service⟩ := State.closeSession_gone ((InTick s).modSession sid (SessSt.keeping seq (thnMsg 0x82 sid seq 0 []))) sid
    refine ⟨_, close_tick fresh other, ?_, ?_, told_told ..⟩
    · rw [State.told_sessions]
      exact gone
    · rw [State.told_kept State.lk (fun _ _ => rfl) fun _ _ _ _ => rfl]
      exact service
  case ping =>
    obtain ⟨last, few⟩ := x.keeping_last seq (thnMsg 0x83 sid seq 0 [])
    have found : tfind (InTick s).dict.sessions sid = .some x := fresh.1.session
    refine ⟨_, _, fresh.tick (by decide) (State.thnDo_empty (sid := sid) other (.inr rfl)), ?_, last, Nat.le_trans few (by omega),
      told_told ..⟩
    rw [State.told_sessions]
    exact State.modSession_session found _
  case again =>
    have handled := State.thnSession_again (s := InTick s) (m := m) (typ := typ) (body := body) spoken.session spoken.own kept
    have run := tick_answers spoken.up spoken.alone spoken.towpath spoken.conn
      ((spoken.framed.handle listed _).trans handled)
    exact ⟨_, run, told_told .., State.told_sessions .., State.told_kept State.mem (fun _ _ => rfl) (fun _ _ _ _ => rfl) ..⟩
  case stale =>
    have handled := State.thnSession_stale (s := InTick s) (m := m) (typ := typ) (body := body) spoken.session spoken.own some stale
    have run := tick_answers spoken.up spoken.alone spoken.towpath spoken.conn
      ((spoken.framed.handle listed _).trans handled)
    exact ⟨_, run, told_told .., State.told_sessions ..⟩
  case unknown =>
    have framed : Framed m 3 sid seq [] := ⟨msg, sid_lt, seq_lt, Nat.zero_le _, towpath⟩
    have handled := State.thnSession_unknown (s := InTick s) (m := m) (typ := 3) (seq := seq) (body := []) none
    exact ⟨_, tick_answers up alone towpath ⟨c, conn⟩ ((framed.handle (by decide) _).trans handled), told_told ..⟩

end Sys2Proof.Machine
end

section
/-!
Dictionary entries read and written by messages, whole and in segments (16 R482, R493, R495, R499).
-/

namespace Sys2Proof.Machine

section
variable {s : State} {sid port ix sub : Nat} {x : SessSt} {v : Bytes}

/-! Items. -/

theorem itemHead_fields (ix_lt : ix < 2 ^ 16) (sub_lt : sub < 2 ^ 8) (rest : Bytes) :
    beAt (itemHead ix sub ++ rest) 0 2 = ix ∧ beAt (itemHead ix sub ++ rest) 2 1 = sub ∧
      beAt (itemHead ix sub ++ rest) 3 1 = 0 ∧ (itemHead ix sub ++ rest).take 4 = itemHead ix sub :=
  ⟨beNat_beBytes 2 ix_lt, beNat_beBytes 1 sub_lt, rfl, rfl⟩

theorem padded_take (v : Bytes) : (padded v).take v.length = v := List.take_left

section
variable (found : tfind s.dict.sessions sid = some x) (ix_lt : ix < 2 ^ 16) (sub_lt : sub < 2 ^ 8)
include found ix_lt sub_lt

/-- An item that is read within the answer's room. -/
theorem State.readItems_value (value : s.readEntry x ix sub = (0, v)) {room : Nat} (fits : (padded v).length ≤ room) :
    s.readItems sid 1 room (itemHead ix sub) =
      (itemHead ix sub ++ beBytes 2 0 ++ beBytes 2 v.length ++ padded v, s.entryRead ix sub) := by
  obtain ⟨index, subindex, -, head⟩ := itemHead_fields ix_lt sub_lt []
  rw [List.append_nil] at index subindex head
  have short : decide (room < (padded v).length) = false := decide_eq_false (by omega)
  rw [State.readItems, found]
  simp [index, subindex, head, value, short, State.readItems]

/-- An item that cannot be read. -/
theorem State.readItems_code {c : Nat} {l : Bytes} (fails : s.readEntry x ix sub = (c, l)) (bad : c ≠ 0) (room : Nat) :
    s.readItems sid 1 room (itemHead ix sub) = (itemHead ix sub ++ beBytes 2 c ++ beBytes 2 0, s) := by
  obtain ⟨index, subindex, -, head⟩ := itemHead_fields ix_lt sub_lt []
  rw [List.append_nil] at index subindex head
  rw [State.readItems, found]
  simp [index, subindex, head, fails, bad, State.readItems]

omit ix_lt sub_lt in
/-- A written item. -/
theorem State.applyItems_one {c : Nat} {t : State} (writes : s.writeEntry sid x ix sub v = (c, t)) :
    s.applyItems sid [(ix, sub, v)] = (itemHead ix sub ++ beBytes 2 c ++ [0, 0], t) := by
  simp [State.applyItems, found, writes, itemHead]

end

/-- A `READ` of one item. -/
theorem State.thnRead_one (towpath : port < 2) (sid ix sub : Nat) : s.thnRead sid port ([0, 1, 0, 0] ++ itemHead ix sub) =
    { body := [0, 1, 0, 0] ++ (s.readItems sid 1 1172 (itemHead ix sub)).1,
      state := (s.readItems sid 1 1172 (itemHead ix sub)).2 } := by
  have room : maxBody port = 1184 := if_neg (by omega)
  have count : beAt ([0, 1, 0, 0] ++ itemHead ix sub) 0 2 = 1 := rfl
  have rest : ([0, 1, 0, 0] ++ itemHead ix sub).drop 4 = itemHead ix sub := rfl
  unfold State.thnRead
  simp only [room, count, rest]
  refine (if_neg ?_).trans rfl
  rintro (none | many | length | reserved | items | long)
  · exact absurd none (by decide)
  · exact absurd many (by decide)
  · exact length rfl
  · exact reserved rfl
  · exact Bool.false_ne_true (Eq.trans rfl items)
  · exact absurd long (by decide)

/-- The words of one item's write. -/
def writeBody (ix sub : Nat) (v : Bytes) : Bytes := itemHead ix sub ++ beBytes 2 v.length ++ [0, 0] ++ padded v

/-- The write of one item is read from its words. -/
theorem writeItems_one (ix_lt : ix < 2 ^ 16) (sub_lt : sub < 2 ^ 8) (short : v.length < 2 ^ 16) :
    writeItems 1 (writeBody ix sub v) = some [(ix, sub, v)] := by
  have index : beAt (writeBody ix sub v) 0 2 = ix := beNat_beBytes 2 ix_lt
  have subindex : beAt (writeBody ix sub v) 2 1 = sub := beNat_beBytes 1 sub_lt
  have length : beAt (writeBody ix sub v) 4 2 = v.length := beNat_beBytes 2 short
  have value : (writeBody ix sub v).drop 8 = padded v := rfl
  have rest : (writeBody ix sub v).drop (8 + (padded v).length) = [] := by
    rw [← List.drop_drop, value, List.drop_length]
  have size : (writeBody ix sub v).length = 8 + (padded v).length := by
    simp [writeBody, itemHead]
    omega
  rw [writeItems]
  simp only [length, value, padded_take, index, subindex, rest]
  refine (if_neg ?_).trans rfl
  rintro (few | reserved | zero | differs)
  · rw [size, padded_length] at few
    omega
  · exact reserved rfl
  · exact zero rfl
  · exact differs (List.take_length)

/-- A `WRITE` of one item. -/
theorem State.thnWrite_one (found : tfind s.dict.sessions sid = some x) (ix_lt : ix < 2 ^ 16) (sub_lt : sub < 2 ^ 8)
    (short : v.length ≤ 1172) (towpath : port < 2) {c : Nat} {t : State} (writes : s.writeEntry sid x ix sub v = (c, t)) :
    s.thnWrite sid port ([0, 1, 0, 0] ++ writeBody ix sub v) =
      { body := [0, 1, 0, 0] ++ (itemHead ix sub ++ beBytes 2 c ++ [0, 0]), state := t } := by
  have room : maxBody port = 1184 := if_neg (by omega)
  have count : beAt ([0, 1, 0, 0] ++ writeBody ix sub v) 0 2 = 1 := rfl
  have rest : ([0, 1, 0, 0] ++ writeBody ix sub v).drop 4 = writeBody ix sub v := rfl
  unfold State.thnWrite
  simp only [room, count, rest, writeItems_one ix_lt sub_lt (Nat.lt_of_le_of_lt short (by decide)),
    State.applyItems_one found writes]
  refine (if_neg ?_).trans rfl
  rintro (none | many | length | reserved | long)
  · exact absurd none (by decide)
  · exact absurd many (by decide)
  · rw [List.length_append] at length
    exact absurd length (Nat.not_lt.2 (Nat.le_add_right 4 _))
  · exact reserved rfl
  · exact absurd long (by decide)

/-! Segments. -/

/-- A `READ_SEG` within the value. -/
theorem State.thnReadSeg_value (ix_lt : ix < 2 ^ 16) (sub_lt : sub < 2 ^ 8) {off len : Nat} (short : len ≤ 1168) (off_lt : off < 2 ^ 32)
    (towpath : port < 2) (value : s.readEntry x ix sub = (0, v)) (inside : off + len ≤ v.length) :
    s.thnReadSeg x port (itemHead ix sub ++ beBytes 4 off ++ beBytes 2 len ++ [0, 0]) =
      { body := itemHead ix sub ++ beBytes 2 0 ++ [0, 0] ++ beBytes 4 v.length ++ beBytes 2 len ++ [0, 0] ++
          padded ((v.drop off).take len),
        state := s.entryRead ix sub } := by
  have room : maxBody port = 1184 := if_neg (by omega)
  have index : beAt (itemHead ix sub ++ beBytes 4 off ++ beBytes 2 len ++ [0, 0]) 0 2 = ix := beNat_beBytes 2 ix_lt
  have subindex : beAt (itemHead ix sub ++ beBytes 4 off ++ beBytes 2 len ++ [0, 0]) 2 1 = sub := beNat_beBytes 1 sub_lt
  have offset : beAt (itemHead ix sub ++ beBytes 4 off ++ beBytes 2 len ++ [0, 0]) 4 4 = off := beNat_beBytes 4 off_lt
  have length : beAt (itemHead ix sub ++ beBytes 4 off ++ beBytes 2 len ++ [0, 0]) 8 2 = len :=
    beNat_beBytes 2 (Nat.lt_of_le_of_lt short (by decide))
  have head : (itemHead ix sub ++ beBytes 4 off ++ beBytes 2 len ++ [0, 0]).take 4 = itemHead ix sub := rfl
  have data : ((v.drop off).take len).length = len := by rw [List.length_take, List.length_drop]; omega
  have fits : ¬v.length < off + len := Nat.not_lt.2 inside
  unfold State.thnReadSeg
  simp only [room, index, subindex, offset, length, head, value]
  refine (if_neg ?_).trans ?_
  · rintro (size | reserved | zero | long)
    · exact size rfl
    · exact reserved rfl
    · exact zero rfl
    · rw [padded_length, zeros, List.length_replicate] at long
      omega
  · simp [fits, data]

/-- The words of a segment's write. -/
def segBody (ix sub off total flag : Nat) (v : Bytes) : Bytes :=
  itemHead ix sub ++ beBytes 4 off ++ beBytes 4 total ++ beBytes 2 v.length ++ beBytes 2 flag ++ padded v

/-- The staged value of a single piece. -/
theorem stagedValue_whole (v : Bytes) : stagedValue [(0, v)] v.length = some v := by
  have all : ∀ l : List Nat, (∀ i ∈ l, i < v.length) → l.mapM (stagedAt [(0, v)]) = some (l.map fun i => v.getD i 0) := by
    intro l
    induction l with
    | nil => exact fun _ => rfl
    | cons i r ih =>
      intro inside
      have here := inside i List.mem_cons_self
      have byte : stagedAt [(0, v)] i = some (v.getD i 0) := by
        simp [stagedAt, here]
      rw [List.mapM_cons, byte, ih fun j listed => inside j (List.mem_cons_of_mem i listed)]
      rfl
  unfold stagedValue
  rw [all _ fun i listed => List.mem_range.1 listed]
  refine congrArg some (List.ext_getElem (by simp) fun i h1 h2 => ?_)
  simp [List.getD_eq_getElem?_getD, h2]

/-- What a segment does once the pieces staged so far are known: a final one that completes the value writes it. -/
def State.stageSegment (s : State) (sid : Nat) (x : SessSt) (ix sub flag total : Nat) (pieces : List (Nat × Bytes)) : ThnRes :=
  match flag, stagedValue pieces total with
  | 1, some w =>
    let r := (s.modSession sid fun y => { y with staged := none }).writeEntry sid x ix sub w
    { body := itemHead ix sub ++ beBytes 2 r.1 ++ [0, 0], state := r.2 }
  | _, _ => { body := itemHead ix sub ++ beBytes 2 0 ++ [0, 0],
              state := s.modSession sid fun y => { y with staged := some (entryKey ix sub, total, pieces) } }

theorem State.stageSegment_last (s : State) (sid : Nat) (x : SessSt) (ix sub : Nat) (v : Bytes) {c : Nat} {t : State}
    (writes : (s.modSession sid fun y => { y with staged := none }).writeEntry sid x ix sub v = (c, t)) :
    s.stageSegment sid x ix sub 1 v.length [(0, v)] = { body := itemHead ix sub ++ beBytes 2 c ++ [0, 0], state := t } := by
  unfold State.stageSegment
  simp only [stagedValue_whole, writes]

theorem State.stageSegment_piece (s : State) (sid : Nat) (x : SessSt) (ix sub total : Nat) (pieces : List (Nat × Bytes)) :
    s.stageSegment sid x ix sub 0 total pieces = {
      body := itemHead ix sub ++ beBytes 2 0 ++ [0, 0],
      state := s.modSession sid fun y => { y with staged := some (entryKey ix sub, total, pieces) } } := rfl

section
variable {off total flag : Nat} {e : EntRow} (ix_lt : ix < 2 ^ 16) (sub_lt : sub < 2 ^ 8) (row : entryRow ix sub = some e)
  (reach : s.mayReach x ix sub e true (some (.n 3)) = 0) (fresh : x.staged = none) (short : v.length ≤ 1168)
  (inside : off + v.length ≤ total) (least : e.lmin ≤ total) (most : total ≤ e.lmax) (total_lt : total < 2 ^ 32)
include ix_lt sub_lt row reach fresh short inside least most total_lt

/-- A segment of a value that nothing is staged of. -/
theorem State.thnWriteSeg_first (sid : Nat) (flag_le : flag ≤ 1) : s.thnWriteSeg sid x (segBody ix sub off total flag v) =
    s.stageSegment sid x ix sub flag total [(off, v)] := by
  have index : beAt (segBody ix sub off total flag v) 0 2 = ix := beNat_beBytes 2 ix_lt
  have subindex : beAt (segBody ix sub off total flag v) 2 1 = sub := beNat_beBytes 1 sub_lt
  have offset : beAt (segBody ix sub off total flag v) 4 4 = off := beNat_beBytes 4 (by omega)
  have whole : beAt (segBody ix sub off total flag v) 8 4 = total := beNat_beBytes 4 total_lt
  have length : beAt (segBody ix sub off total flag v) 12 2 = v.length := beNat_beBytes 2 (Nat.lt_of_le_of_lt short (by decide))
  have last : beAt (segBody ix sub off total flag v) 14 2 = flag := beNat_beBytes 2 (Nat.lt_of_le_of_lt flag_le (by decide))
  have value : (segBody ix sub off total flag v).drop 16 = padded v := rfl
  have head : (segBody ix sub off total flag v).take 4 = itemHead ix sub := rfl
  have size : (segBody ix sub off total flag v).length = 16 + (padded v).length := by
    simp [segBody, itemHead]
    omega
  have early : ¬((if total < e.lmin ∨ e.lmax < total then 0x080A else if total < off + v.length then 0x080E else 0) ≠ 0) := by
    rw [if_neg (by omega), if_neg (by omega)]
    exact not_not_intro rfl
  unfold State.thnWriteSeg
  simp only [index, subindex, offset, whole, length, last, value, padded_take, head, row, reach, fresh]
  refine (if_neg ?_).trans ((if_neg ?_).trans ((if_neg (by simp)).trans rfl))
  · rintro (few | reserved | high | differs)
    · rw [size, padded_length] at few
      omega
    · exact reserved rfl
    · omega
    · exact differs rfl
  · exact fun bad => early (by simpa using bad)

end

end

end Sys2Proof.Machine
end

section
/-!
Dictionary entries read and written in a tick (16 R482, R493, R495, R499).
-/

namespace Sys2Proof.Machine

section
variable {s : State} {m : ThnMsg} {typ sid seq : Nat} {body : Bytes} {x : SessSt}

theorem Fresh.session (fresh : Fresh s m typ sid seq body x) : tfind (InTick s).dict.sessions sid = some x := fresh.1.session

/-- The session's own port is a towpath port. -/
theorem Fresh.towpath (fresh : Fresh s m typ sid seq body x) : x.port < 2 := by
  obtain ⟨⟨_, _, _, _, towpath, _, _, ⟨port, _⟩, _, _⟩, _⟩ := fresh
  exact port ▸ towpath

theorem State.thnDo_readSeg (s : State) (sid : Nat) (x : SessSt) (body : Bytes) :
    s.thnDo sid x 0x12 body = s.thnReadSeg x x.port body := rfl

theorem State.thnDo_writeSeg (s : State) (sid : Nat) (x : SessSt) (body : Bytes) :
    s.thnDo sid x 0x13 body = s.thnWriteSeg sid x body := rfl

/-- The mirror's generation counts the ticks that changed an entry. -/
theorem State.told_gen (t : State) (sid : Nat) (f : SessSt → SessSt) (m : ThnMsg) (ans : Bytes) :
    ((t.modSession sid f).told m ans).dict.gen = t.dict.gen + (if t.dict.changed then 2 else 0) := by
  have gen := State.modSession_kept (fun u => (State.dict u).gen) (fun _ _ => rfl) t sid f
  have changed := State.modSession_kept (fun u => (State.dict u).changed) (fun _ _ => rfl) t sid f
  generalize t.modSession sid f = u at gen changed
  rw [← gen, ← changed]
  unfold State.told State.closeTick
  split
  · next holds =>
    have holds' : u.dict.changed = true := holds
    rw [if_pos holds']
    rfl
  · next fails =>
    have fails' : ¬u.dict.changed = true := fails
    rw [if_neg fails']
    rfl

end

/-- Settles O31: the body of a message with one item, or of a segment, is read field by field, and its answer is written from what
reading or writing the entry gives. -/
theorem entriesAreReadAndWritten : Obligations.EntriesAreReadAndWritten := by
  refine fun s m sid seq ix sub x v ix_lt sub_lt => ⟨fun fresh => ⟨fun value short => ?value, fun c l fails bad => ?code⟩,
    fun short fresh c t writes => ?written, fun off len fresh short off_lt value inside => ?segment,
    fun e row reach unstaged => ⟨fun short least most fresh c t writes => ?last,
      fun off total short inside least most total_lt fresh => ?piece⟩⟩
  case value =>
    have items := State.readItems_value fresh.session ix_lt sub_lt value (room := 1172) (by rw [padded_length]; omega)
    have done : (InTick s).thnDo sid x 0x10 ([0, 1, 0, 0] ++ itemHead ix sub) = _ := State.thnRead_one fresh.towpath sid ix sub
    rw [items] at done
    have berths : ((InTick s).entryRead ix sub).berths = s.berths := (State.entryRead_frame _ _ _).frame .berths (by decide)
    refine ⟨_, fresh.tick (by decide) done, (State.kept_told State.berths (fun _ _ => rfl) (fun _ _ => rfl) (fun _ _ _ _ => rfl)
      ..).trans berths, ?_⟩
    simp only [List.append_assoc]
    exact told_told ..
  case code =>
    have items := State.readItems_code fresh.session ix_lt sub_lt fails bad 1172
    have done : (InTick s).thnDo sid x 0x10 ([0, 1, 0, 0] ++ itemHead ix sub) = _ := State.thnRead_one fresh.towpath sid ix sub
    rw [items] at done
    refine ⟨_, fresh.tick (by decide) done, ?_⟩
    simp only [List.append_assoc]
    exact told_told ..
  case written =>
    have words : [0, 1, 0, 0] ++ itemHead ix sub ++ beBytes 2 v.length ++ [0, 0] ++ padded v =
        [0, 1, 0, 0] ++ writeBody ix sub v := by simp [writeBody]
    rw [words] at fresh
    have done : (InTick s).thnDo sid x 0x11 ([0, 1, 0, 0] ++ writeBody ix sub v) = _ :=
      State.thnWrite_one fresh.session ix_lt sub_lt short fresh.towpath writes
    refine ⟨_, fresh.tick (by decide) done, ?_, ?_, ?_, ?_, State.told_gen .., ?_⟩
    · exact State.kept_told State.berths (fun _ _ => rfl) (fun _ _ => rfl) (fun _ _ _ _ => rfl) ..
    · exact State.kept_told State.lk (fun _ _ => rfl) (fun _ _ => rfl) (fun _ _ _ _ => rfl) ..
    · exact State.kept_told (fun u => u.dict.sets) (fun _ _ => rfl) (fun _ _ => rfl) (fun _ _ _ _ => rfl) ..
    · exact State.kept_told State.mem (fun _ _ => rfl) (fun _ _ => rfl) (fun _ _ _ _ => rfl) ..
    · simp only [List.append_assoc]
      exact told_told ..
  case segment =>
    have done := (State.thnDo_readSeg (InTick s) sid x _).trans <|
      State.thnReadSeg_value ix_lt sub_lt short off_lt fresh.towpath value inside
    exact ⟨_, fresh.tick (by decide) done, told_told ..⟩
  case last =>
    have words : itemHead ix sub ++ zeros 4 ++ beBytes 4 v.length ++ beBytes 2 v.length ++ [0, 1] ++ padded v =
        segBody ix sub 0 v.length 1 v := by
      rw [segBody, show beBytes 4 0 = zeros 4 from rfl, show beBytes 2 1 = [0, 1] from rfl]
    rw [words] at fresh
    have done := (State.thnDo_writeSeg (InTick s) sid x _).trans <|
      (State.thnWriteSeg_first ix_lt sub_lt row reach unstaged short (by omega) least most (by omega) sid (by decide)).trans
        (State.stageSegment_last _ sid x ix sub v writes)
    refine ⟨_, fresh.tick (by decide) done, ?_, ?_, ?_, told_told ..⟩
    · exact State.kept_told State.berths (fun _ _ => rfl) (fun _ _ => rfl) (fun _ _ _ _ => rfl) ..
    · exact State.kept_told State.fw (fun _ _ => rfl) (fun _ _ => rfl) (fun _ _ _ _ => rfl) ..
    · exact State.kept_told State.mem (fun _ _ => rfl) (fun _ _ => rfl) (fun _ _ _ _ => rfl) ..
  case piece =>
    have words : itemHead ix sub ++ beBytes 4 off ++ beBytes 4 total ++ beBytes 2 v.length ++ [0, 0] ++ padded v =
        segBody ix sub off total 0 v := by
      rw [segBody, show beBytes 2 0 = [0, 0] from rfl]
    rw [words] at fresh
    have done := (State.thnDo_writeSeg (InTick s) sid x _).trans <|
      (State.thnWriteSeg_first ix_lt sub_lt row reach unstaged short inside least most total_lt sid (by decide)).trans
        (State.stageSegment_piece (InTick s) sid x ix sub total _)
    have staged := State.modSession_session fresh.session fun y => { y with staged := some (entryKey ix sub, total, [(off, v)]) }
    have kept := State.modSession_session staged
      (SessSt.keeping seq (thnMsg (0x13 ||| 0x80) sid seq 0 (itemHead ix sub ++ beBytes 2 0 ++ [0, 0])))
    refine ⟨_, _, fresh.tick (by decide) done, (congrArg (fun l => tfind l sid) (State.told_sessions ..)).trans kept, rfl, ?_,
      told_told ..⟩
    exact (State.kept_told State.berths (fun _ _ => rfl) (fun _ _ => rfl) (fun _ _ _ _ => rfl) ..).trans
      (State.modSession_kept State.berths (fun _ _ => rfl) ..)

end Sys2Proof.Machine
end

section
/-!
Ticks without messages, session timers, handshakes of the towpath, the secure element and the towpath's ports (16 R489, R490, R494,
R495, R504, R509, R511).
-/

namespace Sys2Proof.Machine

section
variable {s : State} {port : Nat}

/-! Ticks and timers. -/

/-- A tick that brings no message. -/
def State.quietTick (s : State) (changed : Bool) : State :=
  if changed ∨ s.dict.changed then
    { s with dict := { s.dict with inbox := [], tick := s.dict.tick + 1, changed := false, gen := s.dict.gen + 2,
                                   mirrorTick := s.dict.tick + 1 } }
  else InTick s

theorem dictionaryTick_quiet (up : DictUp s) (quiet : s.dict.inbox = []) (changed : Bool) :
    exec (.dictionaryTick changed) s = .next (s.quietTick changed) := by
  obtain ⟨active, on⟩ := up
  have serves : ¬((!s.up) = true ∨ s.lk.active.isNone = true) := by
    rintro (off | none)
    · simp [on] at off
    · exact active (Option.isNone_iff_eq_none.1 none)
  have nothing : thnSort s.dict.inbox = [] := by rw [quiet]; rfl
  refine congrArg Host.Outcome.next ((if_neg serves).trans ?_)
  rw [nothing]
  rfl

/-- An idle session that sets no service state goes, and nothing else does. -/
theorem State.closeSession_plain {sid : Nat} (other : s.lk.service ≠ some sid) :
    s.closeSession sid = { s with dict := { s.dict with sessions := tdel s.dict.sessions sid } } := by
  unfold State.closeSession
  exact if_neg other

theorem State.modSession_other {sid k : Nat} (other : k ≠ sid) (f : SessSt → SessSt) :
    tfind (s.modSession sid f).dict.sessions k = tfind s.dict.sessions k := by
  unfold State.modSession
  split
  · exact tfind_tset_other _ _ other
  · rfl

/-! Handshakes. -/

section
variable {conn : Nat} {leaf chain : Bytes} {proof : Bool} (serves : s.tpServes port = true)
  (fresh : tfind s.dict.conns conn = none)
include serves fresh

theorem towpathHandshake_asks : ¬((!s.tpServes port) = true ∨ (tfind s.dict.conns conn).isSome = true) := by
  simp [serves, fresh]

/-- The state with a client's connection open. -/
def State.connect (s : State) (port conn : Nat) (leaf chain : Bytes) : State :=
  { s with dict := { s.dict with conns := tset s.dict.conns conn { port := port, leaf := leaf, chain := chain } } }

theorem towpathHandshake_proved (works : s.lk.seFailed = false) (room : s.dict.conns.length < 32)
    (anchored : Config.clientChain (leaf ++ chain) (padTo 2048 (Config.identity (entryKey 0x1301 0))) = true) :
    exec (.towpathHandshake port conn leaf chain true) s =
      .next ((s.connect port conn leaf chain).emit { kind := .dtls, port := port, args := [conn, 1] }) := by
  refine congrArg Host.Outcome.next ((if_neg (towpathHandshake_asks serves fresh)).trans ((if_neg ?_).trans ((if_neg ?_).trans rfl)))
  · rintro (failed | full)
    · simp [works] at failed
    · omega
  · rintro (unproved | unknown)
    · cases unproved
    · simp [anchored] at unknown

theorem towpathHandshake_unproved (works : s.lk.seFailed = false) (room : s.dict.conns.length < 32) :
    exec (.towpathHandshake port conn leaf chain false) s =
      .next ((s.moduleEvent 0x0881 port 0).emit { kind := .dtls, port := port, args := [conn, 0] }) := by
  refine congrArg Host.Outcome.next ((if_neg (towpathHandshake_asks serves fresh)).trans ((if_neg ?_).trans (if_pos (.inl rfl))))
  rintro (failed | full)
  · simp [works] at failed
  · omega

theorem towpathHandshake_unsigned (failed : s.lk.seFailed = true) : exec (.towpathHandshake port conn leaf chain proof) s =
    .next (s.emit { kind := .dtls, port := port, args := [conn, 0] }) :=
  congrArg Host.Outcome.next ((if_neg (towpathHandshake_asks serves fresh)).trans (if_pos (.inl failed)))

end

/-! The towpath's ports. -/

/-- The sessions left when those of a list have closed. -/
theorem State.closeSessions_mem (l : List Nat) (s : State) (p : Nat × SessSt) :
    p ∈ (forL l s fun sid t => t.closeSession sid).dict.sessions ↔ p ∈ s.dict.sessions ∧ p.1 ∉ l := by
  induction l generalizing s with
  | nil => exact ⟨fun inside => ⟨inside, List.not_mem_nil⟩, fun both => both.1⟩
  | cons k r ih =>
    rw [forL_cons, ih, State.closeSession_sessions, tdel, List.mem_filter, List.mem_cons, not_or]
    simp only [bne_iff_ne, ne_eq, and_assoc]

theorem State.dropPort_sessions (s : State) (port : Nat) (p : Nat × SessSt) :
    p ∈ (s.dropPort port).dict.sessions ↔ p ∈ s.dict.sessions ∧ ∀ q ∈ s.dict.sessions, q.1 = p.1 → q.2.port ≠ port := by
  refine (State.closeSessions_mem _ s p).trans (and_congr_right fun _ => ?_)
  rw [List.mem_map]
  refine ⟨fun away q inside same port' => away ⟨q, List.mem_filter.2 ⟨inside, beq_iff_eq.2 port'⟩, same⟩, ?_⟩
  rintro others ⟨q, listed, same⟩
  obtain ⟨inside, port'⟩ := List.mem_filter.1 listed
  exact others q inside same (beq_iff_eq.1 port')

theorem State.dropPort_conns (s : State) (port : Nat) : ∀ p ∈ (s.dropPort port).dict.conns, p.2.port ≠ port := by
  intro p inside
  simpa using (List.mem_filter.1 inside).2

theorem towpathPortLinkChange_up (towpath : port < 2) : exec (.towpathPortLinkChange port true) s =
    .next { s with dict := { s.dict with tpDown := s.dict.tpDown.filter fun p => p != port } } :=
  congrArg Host.Outcome.next ((if_neg (Nat.not_le.2 towpath)).trans (if_pos rfl))

/-- A port that is down does not serve. -/
theorem tpServes_down (down : port ∈ s.dict.tpDown) : s.tpServes port = false := by
  simp [State.tpServes, down]

/-- The state with the secure element failed. -/
def State.loseElement (s : State) : State := { s with lk := { s.lk with seFailed := true } }

theorem secureElement_fails (works : s.lk.seFailed = false) :
    exec .secureElement s = .next (s.loseElement.moduleEvent 0x0882 0 0) :=
  congrArg Host.Outcome.next (if_neg (by simp [works]))

end

/-- Settles O33: the sessions that a port takes with it are those whose number one of its own sessions has. -/
theorem ticksTimersAndHandshakes : Obligations.TicksTimersAndHandshakes := by
  refine fun s sid port conn leaf chain proof changed => ⟨fun up quiet => ?tick, fun x found other => ?idle, fun x found => ?staged,
    fun serves fresh works room => ⟨fun proved anchored => ?connects, fun unproved => ?refused⟩,
    fun serves fresh failed => ?unsigned, fun works => ?fails, fun failed => congrArg Host.Outcome.next (if_pos failed),
    fun towpath wasUp => ?down, fun towpath => ?up⟩
  case tick =>
    refine ⟨_, dictionaryTick_quiet up quiet changed, ?_⟩
    unfold State.quietTick
    by_cases turns : changed = true ∨ s.dict.changed = true
    · rw [if_pos turns, if_pos turns]
      exact ⟨rfl, rfl, rfl, rfl⟩
    · rw [if_neg turns, if_neg turns]
      exact ⟨rfl, Bool.eq_false_iff.2 fun was => turns (.inr was), rfl, rfl⟩
  case idle =>
    have run := exec_sessionIdleTimeout found
    rw [State.closeSession_plain other] at run
    exact ⟨_, run, tfind_tdel_self .., rfl, rfl, fun k differs => (tfind_tdel ..).trans (if_neg differs)⟩
  case staged =>
    exact ⟨_, rfl, State.modSession_session found _, State.modSession_kept State.out (fun _ _ => rfl) .., fun k differs =>
      State.modSession_other differs _⟩
  case connects =>
    subst proved
    exact ⟨_, towpathHandshake_proved serves fresh works room anchored, tfind_tset_self .., rfl⟩
  case refused =>
    subst unproved
    exact ⟨_, towpathHandshake_unproved serves fresh works room, State.moduleEvent_dict ..,
      (State.raises_moduleEvent ..).emit _, List.getLast?_concat⟩
  case unsigned => exact ⟨_, towpathHandshake_unsigned serves fresh failed, rfl, rfl⟩
  case fails =>
    have raised := State.raises_moduleEvent s.loseElement 0x0882 0 0 []
    refine ⟨_, secureElement_fails works, ?_, raised.of_out_eq rfl⟩
    rw [State.moduleEvent_lk]
    rfl
  case down =>
    refine ⟨_, exec_towpathPortLinkChange_down towpath wasUp, tpServes_down (List.mem_append_right _ List.mem_cons_self),
      s.dropPort_conns port, fun p inside => ?_, fun p inside alone => (s.dropPort_sessions port p).2 ⟨inside, alone⟩⟩
    obtain ⟨was, alone⟩ := (s.dropPort_sessions port p).1 inside
    exact alone p was rfl
  case up => exact ⟨_, towpathPortLinkChange_up towpath, by simp, rfl, rfl⟩

end Sys2Proof.Machine
end

section
/-!
The MCTP endpoint and the SPDM responder of a host port, and the PTP clock (16 R490, R491, R506, R507, R511).
-/

namespace Sys2Proof.Machine

section
variable {s : State} {port : Nat}

/-! MCTP control. -/

theorem State.mctpSay_out (s : State) (port : Nat) (args : List Nat) (data : Bytes) : Mctp s (s.mctpSay port args data) port args data :=
  rfl

/-- What is said after a change that puts nothing out. -/
theorem Mctp.after {s t u : State} {args : List Nat} {data : Bytes} (said : Mctp t u port args data) (quiet : t.out = s.out) :
    Mctp s u port args data := Eq.trans said (by rw [quiet])

theorem endpointsAnswerControl : EndpointsAnswerControl := by
  refine fun s port op eid typ => ⟨fun up => ⟨fun known some few => ?set, fun bad => ?refused, ?get, fun listed => ?version,
    fun none five all => ?unsupported, ?types⟩, fun down c listed => ?silent⟩
  case set =>
    have found := State.hostPort_modPort s port fun x => { x with eid := eid }
    exact ⟨_, congrArg Host.Outcome.next ((if_neg (by simp [up])).trans (if_neg (by omega))), (congrArg PortSt.eid found :),
      (congrArg PortSt.spdm found :), rfl⟩
  case refused =>
    exact ⟨_, congrArg Host.Outcome.next ((if_neg (by simp [up])).trans (if_pos bad)), rfl, rfl⟩
  case get => exact ⟨_, congrArg Host.Outcome.next (if_pos up), rfl, rfl⟩
  case version => exact ⟨_, congrArg Host.Outcome.next ((if_neg (by simp [up])).trans (if_pos listed)), rfl⟩
  case unsupported =>
    exact ⟨_, congrArg Host.Outcome.next ((if_neg (by simp [up])).trans (if_neg (by omega))), rfl⟩
  case types => exact ⟨_, congrArg Host.Outcome.next (if_pos up), rfl⟩
  case silent =>
    have off : (!s.mctpUp port) = true := by simp [down]
    have noSpdm : (!s.spdmUp port) = true := by simp [State.spdmUp, down]
    have quiet : ¬s.mctpUp port = true := Bool.eq_false_iff.1 down
    simp only [List.mem_cons, List.not_mem_nil, or_false] at listed
    rcases listed with rfl | rfl | rfl | rfl | rfl | rfl | rfl | rfl | rfl | rfl | rfl
    · exact congrArg Host.Outcome.next (if_pos off)
    · exact congrArg Host.Outcome.next (if_neg quiet)
    · exact congrArg Host.Outcome.next (if_pos off)
    · exact congrArg Host.Outcome.next (if_neg quiet)
    all_goals exact congrArg Host.Outcome.next (if_pos noSpdm)

/-! The SPDM responder. -/

theorem State.spdm_modSpdm (s : State) (port : Nat) (f : SpdmSt → SpdmSt) : (s.modSpdm port f).spdm port = f (s.spdm port) :=
  congrArg PortSt.spdm (State.hostPort_modPort s port fun x => { x with spdm := f x.spdm })

section
variable (up : s.spdmUp port = true)
include up

theorem spdm_hears : ¬((!s.spdmUp port) = true) := by simp [up]

/-- Without negotiated algorithms every request for a proof is out of turn. -/
theorem spdm_outOfTurn (open_ : (s.spdm port).algs = false) {slot off len op : Nat} {sign : Bool} {nonce : Bytes} {c : Instr}
    (listed : c ∈ [Instr.getDigests port, .getCertificate port slot off len, .challenge port slot nonce,
      .getMeasurements port op sign nonce]) : exec c s = .next (s.spdmError port 4) := by
  have early : (!(s.spdm port).algs) = true := by simp [open_]
  simp only [List.mem_cons, List.not_mem_nil, or_false] at listed
  rcases listed with rfl | rfl | rfl | rfl
  all_goals exact congrArg Host.Outcome.next ((if_neg (spdm_hears up)).trans (if_pos early))

section
variable (agreed : (s.spdm port).algs = true)
include agreed

omit up in
theorem spdm_inTurn : ¬((!(s.spdm port).algs) = true) := by simp [agreed]

theorem getDigests_run : exec (.getDigests port) s = .next (s.mctpSay port [0x01, 1] (sha384 spdmChain)) :=
  congrArg Host.Outcome.next ((if_neg (spdm_hears up)).trans (if_neg (spdm_inTurn agreed)))

theorem getCertificate_run {off : Nat} (inside : off < spdmChain.length) (len : Nat) : exec (.getCertificate port 0 off len) s =
    .next (s.mctpSay port [0x02, 0, ((spdmChain.drop off).take len).length,
      spdmChain.length - off - ((spdmChain.drop off).take len).length] ((spdmChain.drop off).take len)) := by
  refine congrArg Host.Outcome.next ((if_neg (spdm_hears up)).trans ((if_neg (spdm_inTurn agreed)).trans (if_neg ?_)))
  rintro (other | beyond)
  · exact other rfl
  · omega

theorem getCertificate_refused {slot off : Nat} (bad : slot ≠ 0 ∨ spdmChain.length ≤ off) (len : Nat) :
    exec (.getCertificate port slot off len) s = .next (s.spdmError port 1) :=
  congrArg Host.Outcome.next ((if_neg (spdm_hears up)).trans ((if_neg (spdm_inTurn agreed)).trans (if_pos bad)))

theorem challenge_refused {slot : Nat} (bad : slot ≠ 0) (nonce : Bytes) :
    exec (.challenge port slot nonce) s = .next (s.spdmError port 1) :=
  congrArg Host.Outcome.next ((if_neg (spdm_hears up)).trans ((if_neg (spdm_inTurn agreed)).trans (if_pos bad)))

theorem challenge_run (nonce : Bytes) : exec (.challenge port 0 nonce) s =
    .next (s.spdmSigned port 0x03 nonce (sha384 spdmChain)) :=
  congrArg Host.Outcome.next ((if_neg (spdm_hears up)).trans ((if_neg (spdm_inTurn agreed)).trans (if_neg (not_not_intro rfl))))

/-- What an answer to `GET_MEASUREMENTS` says. -/
def State.measureBody (s : State) (op : Nat) : Bytes :=
  [if op = 0 then 6 else if op = 0xFF then 6 else 1] ++
    (if op = 0 then [] else if op = 0xFF then (s.measurements.zipIdx.map fun p => measureBytes (p.2 + 1) p.1).flatten
      else (s.measurements.zipIdx.map fun p => measureBytes (p.2 + 1) p.1).getD (op - 1) [])

theorem getMeasurements_run {op : Nat} (known : op ≤ 6) (sign : Bool) (nonce : Bytes) : exec (.getMeasurements port op sign nonce) s =
    .next (if sign then s.spdmSigned port 0x60 nonce (s.measureBody op) else s.mctpSay port [0x60] (s.measureBody op)) :=
  congrArg Host.Outcome.next ((if_neg (spdm_hears up)).trans ((if_neg (spdm_inTurn agreed)).trans (if_neg (by omega))))

theorem getMeasurements_refused {op : Nat} (high : 6 < op) (other : op ≠ 0xFF) (sign : Bool) (nonce : Bytes) :
    exec (.getMeasurements port op sign nonce) s = .next (s.spdmError port 1) :=
  congrArg Host.Outcome.next ((if_neg (spdm_hears up)).trans ((if_neg (spdm_inTurn agreed)).trans
    (if_pos ⟨by omega, other, high⟩)))

end

end

/-- A signed answer holds the requester's nonce and one of the responder's own. -/
theorem State.spdmSigned_signs (works : s.lk.seFailed = false) (port code : Nat) (nonce body : Bytes) :
    ∃ own n, own.length = 32 ∧
      Mctp s (s.spdmSigned port code nonce body) port [code] (own ++ body ++ Config.sign n (nonce ++ own ++ body)) := by
  refine ⟨leBytes 32 (Config.freeBits 256 s.free).toNat, s.free + 1, by simp [leBytes], ?_⟩
  unfold State.spdmSigned
  rw [if_neg (by simp [works])]
  rfl

theorem State.spdmSigned_failed (failed : s.lk.seFailed = true) (port code : Nat) (nonce body : Bytes) :
    s.spdmSigned port code nonce body = s.spdmError port 5 := if_pos failed

/-- The measurement block of an index. -/
theorem State.measureBody_one {i t : Nat} {v : Bytes} (block : s.measurements[i]? = some (t, v)) :
    i < 6 ∧ s.measureBody (i + 1) = [1] ++ (leBytes 1 (i + 1) ++ leBytes 1 t ++ leBytes 2 v.length ++ v) := by
  obtain ⟨inside, -⟩ := List.getElem?_eq_some_iff.1 block
  have small : i < 6 := inside
  refine ⟨small, ?_⟩
  have one : (s.measurements.zipIdx.map fun p => measureBytes (p.2 + 1) p.1).getD i [] = measureBytes (i + 1) (t, v) := by
    simp [List.getD_eq_getElem?_getD, List.getElem?_zipIdx, block]
  unfold State.measureBody
  rw [if_neg (by omega), if_neg (by omega), if_neg (by omega), if_neg (by omega), Nat.add_sub_cancel, one]
  rfl

end

theorem responderProvesIdentity : ResponderProvesIdentity := by
  refine fun s port version asym hash slot off len op sign nonce up => ⟨?version, fun other => ?otherVersion,
    fun versioned => ?capable, fun able => ?negotiated, fun early c listed => ⟨_, spdm_outOfTurn up early listed, rfl, rfl⟩,
    fun agreed => ⟨⟨_, getDigests_run up agreed, rfl⟩, fun inside => ⟨_, _, getCertificate_run up agreed inside len, rfl, rfl⟩,
      fun bad => ⟨_, getCertificate_refused up agreed bad len, rfl⟩, fun bad => ⟨_, challenge_refused up agreed bad nonce, rfl⟩,
      fun works => ?signed, fun failed => ?unsigned, ⟨_, getMeasurements_run up agreed (Nat.zero_le 6) false nonce, rfl⟩,
      fun i t v block => ?block, fun works known => ?measured,
      fun high other => ⟨_, getMeasurements_refused up agreed high other sign nonce, rfl⟩⟩⟩
  case version =>
    have found := State.spdm_modSpdm s port fun _ => { version := true }
    exact ⟨_, congrArg Host.Outcome.next (if_neg (spdm_hears up)), found, rfl⟩
  case otherVersion => exact ⟨_, congrArg Host.Outcome.next ((if_neg (spdm_hears up)).trans (if_pos other)), rfl, rfl⟩
  case capable =>
    have found := State.spdm_modSpdm s port fun x => { x with caps := true }
    exact ⟨_, _, congrArg Host.Outcome.next ((if_neg (spdm_hears up)).trans ((if_neg (not_not_intro rfl)).trans
      (if_neg (by simp [versioned])))), (congrArg SpdmSt.caps found :), rfl⟩
  case negotiated =>
    have found := State.spdm_modSpdm s port fun x => { x with algs := asym.testBit 7 && hash.testBit 1 }
    have algs : ((s.modSpdm port fun x => { x with algs := asym.testBit 7 && hash.testBit 1 }).spdm port).algs =
      (asym.testBit 7 && hash.testBit 1) := (congrArg SpdmSt.algs found :)
    exact ⟨_, congrArg Host.Outcome.next ((if_neg (spdm_hears up)).trans (if_neg (by simp [able]))),
      (iff_of_eq (congrArg (· = true) algs)).trans Bool.and_eq_true_iff, rfl⟩
  case signed =>
    obtain ⟨own, n, length, said⟩ := State.spdmSigned_signs works port 0x03 nonce (sha384 spdmChain)
    exact ⟨_, own, n, challenge_run up agreed nonce, length, said⟩
  case unsigned =>
    have run := challenge_run up agreed nonce
    rw [State.spdmSigned_failed failed] at run
    exact ⟨_, run, rfl⟩
  case block =>
    obtain ⟨small, body⟩ := State.measureBody_one block
    have run := getMeasurements_run up agreed (op := i + 1) (by omega) false nonce
    rw [body] at run
    exact ⟨_, run, rfl⟩
  case measured =>
    obtain ⟨own, n, length, said⟩ := State.spdmSigned_signs works port 0x60 nonce (s.measureBody op)
    exact ⟨_, own, _, n, getMeasurements_run up agreed known true nonce, length, said, getMeasurements_run up agreed known false nonce⟩

/-! The clock. -/

section
variable {s : State}

/-- A clock that was not locked changes its state without an event. -/
theorem State.setPtp_quiet (free : s.lk.ptp ≠ 2) (p : Nat) : s.setPtp p = { s with lk := { s.lk with ptp := p } } := by
  unfold State.setPtp
  exact if_neg fun both => free both.1

/-- A locked clock that leaves the locked state reports it. -/
theorem State.setPtp_leaves (locked : s.lk.ptp = 2) {p : Nat} (other : p ≠ 2) :
    (s.setPtp p).lk = { s.lk with ptp := p } ∧ Raises s (s.setPtp p) 0x0884 [0xFF, 0, 0] := by
  unfold State.setPtp
  extract_lets src t
  have quiet : t.out = s.out := rfl
  rw [if_pos ⟨locked, other⟩]
  exact ⟨State.moduleEvent_lk .., (State.raises_moduleEvent t 0x0884 0 0 []).of_out_eq quiet⟩

/-- What a message of the master makes of a running clock. -/
def State.followMaster (s : State) (port typ domain ns : Nat) (locked : Bool) : State :=
  let t := s.setPtp (if locked then 2 else 1)
  let u := { t with lk := { t.lk with ptpNs := ns } }
  if typ = 9 then u else u.emit { kind := .ptp, port := port, args := [1, domain] }

/-- A request for the delay leaves the clock as it is. -/
theorem State.followMaster_kept {α : Type} (g : State → α) (emits : ∀ (t : State) o, g (t.emit o) = g t) (s : State)
    (port typ domain ns : Nat) (locked : Bool) : g (s.followMaster port typ domain ns locked) =
      g { s.setPtp (if locked then 2 else 1) with lk := { (s.setPtp (if locked then 2 else 1)).lk with ptpNs := ns } } := by
  unfold State.followMaster
  extract_lets t src u
  split
  · rfl
  · exact emits ..

variable {port domain ns : Nat} {locked : Bool} (serves : s.tpServes port = true) (own : domain = s.setting 0x1232 0 0)
include serves own

theorem ptp_hears : ¬((!s.tpServes port) = true ∨ domain ≠ s.setting 0x1232 0 0) := by simp [serves, own]

theorem ptpMessage_follows {typ : Nat} (listed : typ = 0 ∨ typ = 8 ∨ typ = 9) (running : s.lk.ptp ≠ 0) :
    exec (.ptpMessage port typ domain ns locked) s = .next (s.followMaster port typ domain ns locked) :=
  congrArg Host.Outcome.next ((if_neg (ptp_hears serves own)).trans ((if_neg (by omega)).trans
    ((if_pos ⟨listed, running⟩).trans rfl)))

end

theorem clockFollowsTheMaster : ClockFollowsTheMaster := by
  refine fun s port typ domain ns locked => ⟨fun deaf => ?deaf, fun serves own => ⟨fun idle => ?announced,
    fun running listed => ?follows, fun was falls listed => ?unlocks⟩, fun was => ?lost, fun free => ?idle⟩
  case deaf =>
    exact congrArg Host.Outcome.next (if_pos (deaf.symm.imp (fun off => by simp [off]) id))
  case announced =>
    have run : exec (.ptpMessage port 0xB domain ns locked) s = .next (s.setPtp 1) :=
      congrArg Host.Outcome.next ((if_neg (ptp_hears serves own)).trans ((if_pos rfl).trans (if_pos idle)))
    rw [State.setPtp_quiet (by omega)] at run
    exact ⟨_, run, rfl, rfl⟩
  case follows =>
    have kept := fun {α : Type} (g : State → α) emits => State.followMaster_kept g emits s port typ domain ns locked
    have quiet := State.setPtp_quiet (s := s) (by omega) (if locked then 2 else 1)
    rw [quiet] at kept
    refine ⟨_, ptpMessage_follows serves own listed (by omega), kept (fun u => u.lk.ptp) fun _ _ => rfl,
      kept (fun u => u.lk.ptpNs) fun _ _ => rfl, ?_, kept State.dict fun _ _ => rfl, kept State.berths fun _ _ => rfl⟩
    refine (kept State.ptpTime fun _ _ => rfl).trans ?_
    cases locked <;> rfl
  case unlocks =>
    subst falls
    have kept := fun {α : Type} (g : State → α) emits => State.followMaster_kept g emits s port typ domain ns false
    obtain ⟨lk, raised⟩ := State.setPtp_leaves (s := s) was (p := 1) (by decide)
    refine ⟨_, ptpMessage_follows serves own listed (by omega), (kept (fun u => u.lk.ptp) fun _ _ => rfl).trans ?_, raised.grow ?_⟩
    · exact congrArg LkSt.ptp lk
    · unfold State.followMaster
      extract_lets t src u
      split
      · exact List.prefix_rfl
      · exact List.prefix_append ..
  case lost =>
    obtain ⟨lk, raised⟩ := State.setPtp_leaves (s := s) was (p := 0) (by decide)
    have ptp : (s.setPtp 0).lk.ptp = 0 := congrArg LkSt.ptp lk
    exact ⟨_, rfl, ptp, if_neg (by omega), raised⟩
  case idle =>
    refine ⟨_, rfl, ?_⟩
    rw [State.setPtp_quiet free]
    exact ⟨rfl, rfl⟩

/-- Settles O34: the endpoint, the responder and the clock. -/
theorem identityIsProvedAndTimed : Obligations.IdentityIsProvedAndTimed :=
  ⟨endpointsAnswerControl, responderProvesIdentity, clockFollowsTheMaster⟩

end Sys2Proof.Machine
end

section
/-!
Starts: what a dawn and a first light clear and keep, and how they end (17 R512-R517, R539, 20 R579).
-/

namespace Sys2Proof.Machine

section
variable {s : State} {kind : Nat}

/-! Allocation. -/

/-- What a defect entry brings about at a start leaves the list itself, and whether and how far the module is powered. -/
theorem State.allocEntry_kept (s : State) (e : DefectEnt) : (s.allocEntry e).defects.list = s.defects.list ∧
    (s.allocEntry e).power.on = s.power.on ∧ (s.allocEntry e).power.level = s.power.level := by
  unfold State.allocEntry
  split
  · cases s.coreOf e.die e.unit <;> exact ⟨rfl, rfl, rfl⟩
  · cases s.chanServed e.die e.unit with
    | none => exact ⟨rfl, rfl, rfl⟩
    | some l =>
      dsimp only
      split
      · exact ⟨rfl, rfl, rfl⟩
      · split <;> exact ⟨rfl, rfl, rfl⟩
  · exact ⟨rfl, rfl, rfl⟩
  · split <;> exact ⟨rfl, rfl, rfl⟩
  · split <;> exact ⟨rfl, rfl, rfl⟩
  · exact ⟨rfl, rfl, rfl⟩
  · exact ⟨rfl, rfl, rfl⟩
  · split <;> exact ⟨rfl, rfl, rfl⟩
  · split <;> exact ⟨rfl, rfl, rfl⟩
  · split <;> exact ⟨rfl, rfl, rfl⟩
  · split
    · exact ⟨rfl, rfl, rfl⟩
    · extract_lets k src t u
      have list : u.defects.list = t.defects.list := forL_keeps (fun v : State => v.defects.list) _ t _ fun _ _ => rfl
      have power : u.power = t.power := forL_keeps State.power _ t _ fun _ _ => rfl
      rw [(State.fdDown_frame u k).frame .defects (by decide), (State.fdDown_frame u k).frame .power (by decide), list, power]
      exact ⟨rfl, rfl, rfl⟩
  · exact ⟨rfl, rfl, rfl⟩

/-! Beginning. -/

/-- A state as a start leaves it: memory, berths, cores and sessions cleared, the list and the surviving settings kept. -/
structure Cleared (s : State) (kind : Nat) (t : State) : Prop where
  running : t.boot.running = kind
  dawns : t.boot.dawns = if kind = 1 then s.boot.dawns + 1 else s.boot.dawns
  berths : t.berths = []
  cores : t.cores = []
  mem : t.mem = {}
  sessions : t.dict.sessions = []
  sessNext : t.dict.sessNext = if kind = 1 then 1 else s.dict.sessNext
  sets : t.dict.sets = s.dict.sets.filter fun p => survives p.1
  on : t.power.on = true
  level : t.power.level = if kind = 1 then 0 else s.power.level
  list : t.defects.list = s.defects.list

theorem State.beginStart_cleared (s : State) (kind : Nat) : Cleared s kind (s.beginStart kind) := by
  unfold State.beginStart
  extract_lets dawn d f l b p s1 s2 q s3
  have alloc {α : Type} (g : State → α) (entry : ∀ t e, g (State.allocEntry t e) = g t) (pins : ∀ t, g (State.allocPins t) = g t) :
      g s2 = g s1 := (pins _).trans (foldl_keeps (g := g) entry _ _)
  have last {α : Type} (g : State → α) (entry : ∀ t e, g (State.allocEntry t e) = g t) (pins : ∀ t, g (State.allocPins t) = g t)
      (limits : ∀ t l, g { t with power := { t.power with limited := l } } = g t) (keepers : ∀ t k, g { t with lk := k } = g t) :
      g (if dawn then { s3 with lk := lkAtDawn s3.lk } else s3) = g s1 := by
    refine Eq.trans ?_ (alloc g entry pins)
    split
    · exact (keepers s3 _).trans (limits s2 _)
    · exact limits s2 _
  have isDawn : dawn = decide (kind = 1) := rfl
  have pick {α : Type} (x y : α) : (if dawn = true then x else y) = if kind = 1 then x else y := by simp [isDawn]
  refine ⟨?_, ?_, ?_, ?_, ?_, ?_, ?_, ?_, ?_, ?_, ?_⟩
  · exact last (fun t => t.boot.running) (fun t e => congrArg BootSt.running ((State.allocEntry_frame t e).frame .boot (by decide)))
      (fun t => congrArg BootSt.running ((State.allocPins_frame t).frame .boot (by decide))) (fun _ _ => rfl) fun _ _ => rfl
  · exact (last (fun t => t.boot.dawns) (fun t e => congrArg BootSt.dawns ((State.allocEntry_frame t e).frame .boot (by decide)))
      (fun t => congrArg BootSt.dawns ((State.allocPins_frame t).frame .boot (by decide))) (fun _ _ => rfl) fun _ _ => rfl).trans
        (pick _ _)
  · exact last State.berths (fun t e => (State.allocEntry_frame t e).frame .berths (by decide))
      (fun t => (State.allocPins_frame t).frame .berths (by decide)) (fun _ _ => rfl) fun _ _ => rfl
  · exact last State.cores (fun t e => (State.allocEntry_frame t e).frame .cores (by decide))
      (fun t => (State.allocPins_frame t).frame .cores (by decide)) (fun _ _ => rfl) fun _ _ => rfl
  · exact last State.mem (fun t e => (State.allocEntry_frame t e).frame .mem (by decide))
      (fun t => (State.allocPins_frame t).frame .mem (by decide)) (fun _ _ => rfl) fun _ _ => rfl
  · exact last (fun t => t.dict.sessions) (fun t e => congrArg DictSt.sessions ((State.allocEntry_frame t e).frame .dict (by decide)))
      (fun t => congrArg DictSt.sessions ((State.allocPins_frame t).frame .dict (by decide))) (fun _ _ => rfl) fun _ _ => rfl
  · exact (last (fun t => t.dict.sessNext) (fun t e => congrArg DictSt.sessNext ((State.allocEntry_frame t e).frame .dict (by decide)))
      (fun t => congrArg DictSt.sessNext ((State.allocPins_frame t).frame .dict (by decide))) (fun _ _ => rfl) fun _ _ => rfl).trans
        (pick _ _)
  · exact last (fun t => t.dict.sets) (fun t e => congrArg DictSt.sets ((State.allocEntry_frame t e).frame .dict (by decide)))
      (fun t => congrArg DictSt.sets ((State.allocPins_frame t).frame .dict (by decide))) (fun _ _ => rfl) fun _ _ => rfl
  · exact last (fun t => t.power.on) (fun t e => (State.allocEntry_kept t e).2.1)
      (fun t => congrArg PowerSt.on ((State.allocPins_frame t).frame .power (by decide))) (fun _ _ => rfl) fun _ _ => rfl
  · exact (last (fun t => t.power.level) (fun t e => (State.allocEntry_kept t e).2.2)
      (fun t => congrArg PowerSt.level ((State.allocPins_frame t).frame .power (by decide))) (fun _ _ => rfl) fun _ _ => rfl).trans
        (pick _ _)
  · exact last (fun t => t.defects.list) (fun t e => (State.allocEntry_kept t e).1)
      (fun t => congrArg DefectSt.list ((State.allocPins_frame t).frame .defects (by decide))) (fun _ _ => rfl) fun _ _ => rfl

/-- A setting is found in a table cut to the surviving settings if it survives. -/
theorem tget_filter_key {α : Type} (t : Tbl α) (keep : Nat → Bool) (d : α) (k : Nat) :
    tget (t.filter fun p => keep p.1) d k = if keep k then tget t d k else d := by
  induction t with
  | nil => simp [tget]
  | cons e r ih =>
    obtain ⟨j, v⟩ := e
    by_cases kept : keep j = true
    · rw [List.filter_cons_of_pos (by simpa using kept), tget, tget, ih]
      by_cases here : j = k
      · subst here
        rw [if_pos rfl, if_pos rfl, if_pos kept]
      · rw [if_neg here, if_neg here]
    · rw [List.filter_cons_of_neg (by simpa using kept), ih, tget]
      by_cases here : j = k
      · subst here
        rw [if_neg kept, if_neg kept]
      · rw [if_neg here]

/-! The commands. -/

/-- The state with service state ended as power is applied. -/
def State.endService (s : State) : State := if s.lk.service.isSome then { s with lk := { s.lk with service := none } } else s

theorem dawn_run (s : State) : exec .dawn s = .next (s.endService.beginStart 1) := rfl

theorem State.endService_kept {α : Type} (g : State → α) (keepers : ∀ t k, g { t with lk := k } = g t) (s : State) :
    g s.endService = g s := by
  unfold State.endService
  split
  · exact keepers s _
  · rfl

theorem dawnRequest_run (up : DictUp s) : exec .dawnRequest s =
    .next ((s.dropSessions.beginStart 1).emit { kind := .answer, port := entryKey 0x7001 0, args := [0] }) :=
  congrArg Host.Outcome.next (State.byDict_of_up up ..)

theorem firstLight_run (up : DictUp s) : exec .firstLight s =
    .next ((s.dropSessions.beginStart 2).emit { kind := .answer, port := entryKey 0x7001 0, args := [0] }) :=
  congrArg Host.Outcome.next (State.byDict_of_up up ..)

/-- The units that failed a test of a start are taken out. -/
def State.failAll (s : State) (k : Nat) (failed : List (Nat × Nat × Nat × Nat)) : State :=
  forL failed s fun u t => t.failAtStart u.1 u.2.1 u.2.2.1 u.2.2.2 (if k = 1 then 1 else 4)

/-- The state with a start over after so many milliseconds. -/
def State.endStart (s : State) (ms : Nat) : State :=
  { s with boot := { s.boot with running := 0, durationMs := ms % 2 ^ 32 } }

/-- The end of a start, reported. -/
def State.reportStart (s : State) (k ms : Nat) : State :=
  (s.endStart ms).moduleEvent (if k = 1 then 0x0980 else 0x0981) (ms % 2 ^ 32) 0

/-- A protective power-off reported after the dawn that followed it. -/
def State.reportOff (s : State) (k : Nat) : State :=
  match k, s.power.offCause with
  | 1, some c => ({ s with power := { s.power with offCause := none } }).moduleEvent 0x0B8A c 0
  | _, _ => s

theorem startEnd_run (runs : s.boot.running ≠ 0) (on : s.power.on = true) (ms : Nat) (failed : List (Nat × Nat × Nat × Nat)) :
    exec (.startEnd ms failed) s =
      .next (((s.failAll s.boot.running failed).reportStart s.boot.running ms).reportOff s.boot.running) := by
  refine congrArg Host.Outcome.next ((if_neg ?_).trans rfl)
  rintro (none | off)
  · exact runs none
  · simp [on] at off

theorem State.failAll_boot (s : State) (k : Nat) (failed : List (Nat × Nat × Nat × Nat)) : (s.failAll k failed).boot = s.boot :=
  forL_keeps State.boot failed s _ fun _ _ => (State.failAtStart_frame _ _ _ _ _ _).frame .boot (by decide)

theorem State.reportStart_boot (s : State) (k ms : Nat) :
    (s.reportStart k ms).boot = { s.boot with running := 0, durationMs := ms % 2 ^ 32 } :=
  (State.moduleEvent_frame _ _ _ _ _).frame .boot (by decide)

theorem State.reportStart_raises (s : State) (k ms : Nat) :
    Raises s (s.reportStart k ms) (if k = 1 then 0x0980 else 0x0981) [0xFF, ms % 2 ^ 32, 0] :=
  (State.raises_moduleEvent (s.endStart ms) _ _ _ []).of_out_eq rfl

theorem State.reportStart_out (s : State) (k ms : Nat) : s.out <+: (s.reportStart k ms).out :=
  (State.moduleEvent_frame (s.endStart ms) _ _ _ _).grows

/-- A protective power-off is reported without a change of what was, but for its cause. -/
theorem State.reportOff_kept {α : Type} (g : State → α) (causes : ∀ t c, g { t with power := { t.power with offCause := c } } = g t)
    (events : ∀ t code a b, g (State.moduleEvent t code a b) = g t) (s : State) (k : Nat) : g (s.reportOff k) = g s := by
  unfold State.reportOff
  split
  · exact (events _ ..).trans (causes s _)
  · rfl

theorem State.reportOff_out (s : State) (k : Nat) : s.out <+: (s.reportOff k).out := by
  unfold State.reportOff
  split
  · exact (State.moduleEvent_frame { s with power := { s.power with offCause := none } } _ _ _ _).grows
  · exact List.prefix_rfl

theorem State.reportOff_dawn {c : Nat} (cause : s.power.offCause = some c) :
    (s.reportOff 1).power.offCause = none ∧ Raises s (s.reportOff 1) 0x0B8A [0xFF, c, 0] := by
  have reports : s.reportOff 1 = ({ s with power := { s.power with offCause := none } } : State).moduleEvent 0x0B8A c 0 := by
    unfold State.reportOff
    simp only [cause]
  have raised := State.raises_moduleEvent { s with power := { s.power with offCause := none } } 0x0B8A c 0 []
  rw [reports]
  exact ⟨congrArg PowerSt.offCause ((State.moduleEvent_frame _ _ _ _ _).frame .power (by decide)), raised.of_out_eq rfl⟩

end

/-- Settles O35: a start is the cleared state with the allocation that follows from the list, which touches none of what is claimed. -/
theorem startsClearTheModule : Obligations.StartsClearTheModule := by
  refine fun s ms key d c failed => ⟨?dawn, fun up => ?request, fun up => ?light, fun runs on => ⟨?ends, ?reports, fun dawn cause => ?cause⟩,
    fun none => congrArg Host.Outcome.next (if_pos (.inl none))⟩
  case dawn =>
    have cleared := s.endService.beginStart_cleared 1
    have kept {α : Type} (g : State → α) := State.endService_kept g (s := s)
    refine ⟨_, dawn_run s, cleared.running, cleared.dawns.trans ?_, cleared.berths, cleared.cores,
      cleared.mem, cleared.sessions, cleared.sessNext, cleared.on, cleared.level,
      cleared.list.trans (kept (fun t => t.defects.list) fun _ _ => rfl), ?_, ?_⟩
    · rw [kept State.boot fun _ _ => rfl]
      rfl
    · rw [State.up, cleared.running]
      simp
    · rw [cleared.sets, tget_filter_key, kept State.dict fun _ _ => rfl]
  case request =>
    have cleared := s.dropSessions.beginStart_cleared 1
    have dawns : s.dropSessions.boot = s.boot := (State.dropSessions_frame _).frame .boot (by decide)
    have defects : s.dropSessions.defects = s.defects := (State.dropSessions_frame _).frame .defects (by decide)
    exact ⟨_, dawnRequest_run up, cleared.running, cleared.dawns.trans (by rw [dawns]; rfl), cleared.berths, cleared.mem,
      cleared.list.trans (congrArg DefectSt.list defects), answers_emit ..⟩
  case light =>
    have cleared := s.dropSessions.beginStart_cleared 2
    have boot : s.dropSessions.boot = s.boot := (State.dropSessions_frame _).frame .boot (by decide)
    have defects : s.dropSessions.defects = s.defects := (State.dropSessions_frame _).frame .defects (by decide)
    have power : s.dropSessions.power = s.power := (State.dropSessions_frame _).frame .power (by decide)
    exact ⟨_, firstLight_run up, cleared.running, cleared.dawns.trans (congrArg BootSt.dawns boot), cleared.berths, cleared.mem,
      cleared.sessions, cleared.level.trans (congrArg PowerSt.level power), cleared.list.trans (congrArg DefectSt.list defects),
      answers_emit ..⟩
  case ends =>
    have boot : (((s.failAll s.boot.running failed).reportStart s.boot.running ms).reportOff s.boot.running).boot =
        { s.boot with running := 0, durationMs := ms % 2 ^ 32 } := by
      rw [State.reportOff_kept State.boot (fun _ _ => rfl) fun _ _ _ _ => (State.moduleEvent_frame _ _ _ _ _).frame .boot (by decide),
        State.reportStart_boot, State.failAll_boot]
    exact ⟨_, startEnd_run runs on ms failed, congrArg BootSt.running boot, congrArg BootSt.durationMs boot,
      (congrArg BootSt.dawns boot :)⟩
  case reports =>
    refine ⟨_, startEnd_run runs on ms [], (s.reportStart_raises s.boot.running ms).grow (State.reportOff_out ..), ?_⟩
    rw [State.reportOff_kept State.defects (fun _ _ => rfl) fun _ _ _ _ =>
      (State.moduleEvent_frame _ _ _ _ _).frame .defects (by decide)]
    exact (State.moduleEvent_frame _ _ _ _ _).frame .defects (by decide)
  case cause =>
    have run : exec (.startEnd ms []) s = .next ((s.reportStart s.boot.running ms).reportOff s.boot.running) :=
      startEnd_run runs on ms []
    rw [dawn] at run
    have power : (s.reportStart 1 ms).power = s.power := (State.moduleEvent_frame _ _ _ _ _).frame .power (by decide)
    obtain ⟨gone, raised⟩ := State.reportOff_dawn (s := s.reportStart 1 ms) (c := c) (by rw [power]; exact cause)
    exact ⟨_, run, gone, raised.after (s.reportStart_out 1 ms)⟩

end Sys2Proof.Machine
end

section
/-!
Units that are replaced, readmitted and declared failed (01 R27, 17 R525-R530, R541).
-/

namespace Sys2Proof.Machine

section
variable {s : State}

/-! Wear. -/

/-- The warnings that a sample raises. -/
def State.newWarnings (s : State) (key measure level : Nat) : List Nat :=
  [1, 2].filter fun l => decide (l ≤ level) && !s.defects.warned.contains (2 * measure + l, key)

/-- The state with a sample's warnings noted. -/
def State.noteWarnings (s : State) (key measure level : Nat) : State :=
  { s with defects := { s.defects with
    warned := s.defects.warned ++ (s.newWarnings key measure level).map fun l => (2 * measure + l, key) } }

/-- The state with a sample's warnings noted and reported. -/
def State.warnWear (s : State) (key measure level : Nat) : State :=
  forL (s.newWarnings key measure level) (s.noteWarnings key measure level) fun _ t => t.moduleEvent 0x0986 key measure

theorem State.warnWear_frame (s : State) (key measure level : Nat) :
    Change [.out, .host, .mbox] (s.noteWarnings key measure level) (s.warnWear key measure level) :=
  Change.forL Change.refl fun _ _ h => h.tr (State.moduleEvent_frame _ _ _ _ _) (by decide)

section
variable {kind die unit sub measure : Nat} (measured : measureKind measure kind = true) (listed : s.unitIn kind die unit sub = true)
  (active : s.lk.active ≠ none) (apart : kind = 4 → (s.link unit).life ≠ .instrument)
include measured listed active apart

theorem wearSample_passes {level : Nat} (known : level = 1 ∨ level = 2) :
    ¬((!measureKind measure kind || !s.unitIn kind die unit sub || s.lk.active.isNone || (level != 1 && level != 2) ||
      (kind == 4 && (s.link unit).life == .instrument)) = true) := by
  have runs : s.lk.active.isNone = false := by
    cases found : s.lk.active with
    | none => exact absurd found active
    | some a => rfl
  have level' : (level != 1 && level != 2) = false := by rcases known with rfl | rfl <;> rfl
  have port : (kind == 4 && (s.link unit).life == .instrument) = false := by
    by_cases isPort : kind = 4
    · have other : ((s.link unit).life == .instrument) = false := beq_eq_false_iff_ne.2 (apart isPort)
      rw [other, Bool.and_false]
    · have other : (kind == 4) = false := beq_eq_false_iff_ne.2 isPort
      rw [other, Bool.false_and]
  rw [measured, listed, runs, level', port]
  decide

theorem wearSample_warns : exec (.wearSample kind die unit sub measure 1) s =
    .next (s.warnWear (unitKey kind die unit sub) measure 1) :=
  congrArg Host.Outcome.next ((if_neg (wearSample_passes measured listed active apart (.inl rfl))).trans
    (if_neg fun both => absurd both.1 (by decide)))

theorem wearSample_fails (spared : measure ≠ 10) (free : s.wearWaits kind die = false) :
    exec (.wearSample kind die unit sub measure 2) s = .next ((s.warnWear (unitKey kind die unit sub) measure 2).failUnit
      { kind := kind, die := die, unit := unit, sub := sub, cause := 3, st := 2, detail := 0x0986 + measure * 2 ^ 16 }) := by
  have kept := State.warnWear_frame s (unitKey kind die unit sub) measure 2
  have free' : (s.warnWear (unitKey kind die unit sub) measure 2).wearWaits kind die = false := by
    refine Eq.trans ?_ free
    unfold State.wearWaits State.dieInLockage State.berthOfDie State.berth
    rw [kept.frame .berths (by decide), kept.frame .snaps (by decide)]
    rfl
  refine congrArg Host.Outcome.next ((if_neg (wearSample_passes measured listed active apart (.inr rfl))).trans ?_)
  exact if_pos ⟨rfl, spared, by rw [Bool.not_eq_true']; exact free'⟩

end

/-- A core in service that fails awaits a spare. -/
theorem State.failUnit_core {e : DefectEnt} (core : e.kind = 1) {j : Nat} (serves : s.coreOf e.die e.unit = some j) (real : e.unit < 18)
    (fresh : ∀ x ∈ s.defects.subst, x.1 ≠ 16 * e.die + j) :
    (s.failUnit e).defects.subst = s.defects.subst ++ [(16 * e.die + j, e.cause, e.detail)] := by
  have found : s.physCore (16 * e.die + j) = e.unit := beq_iff_eq.1 (List.find?_some serves :)
  have fails : s.failUnit e = s.coreFails (16 * e.die + j) e.cause e.detail := by
    unfold State.failUnit
    rw [core, serves]
    rfl
  rw [fails, State.coreFails, if_neg]
  rintro (absent | waits)
  · omega
  · obtain ⟨x, inside, same⟩ := List.any_eq_true.1 waits
    exact fresh x inside (beq_iff_eq.1 same)

theorem State.coreOf_of_map {t : State} (same : t.defects.coreMap = s.defects.coreMap) (d u : Nat) : t.coreOf d u = s.coreOf d u := by
  unfold State.coreOf State.physCore
  rw [same]

/-- A core of a die is one of eighteen. -/
theorem unitIn_core {die unit sub : Nat} (listed : s.unitIn 1 die unit sub = true) : unit < 18 := by
  unfold State.unitIn at listed
  simp only [Bool.and_eq_true, decide_eq_true_eq] at listed
  exact listed.1.1.2

/-! Substitution. -/

section
variable {c cause detail : Nat} {bad : List Nat}

/-- The entry of a failed core. -/
def State.coreEntry (s : State) (c cause detail : Nat) : DefectEnt :=
  { kind := 1, die := c / 16, unit := s.physCore c, cause := cause, st := 2, detail := detail }

/-- The state without the waiting substitution of a core. -/
def State.unqueue (s : State) (c : Nat) : State :=
  { s with defects := { s.defects with subst := s.defects.subst.filter fun x => x.1 != c } }

/-- The state with a spare in a core's place. -/
def State.placeSpare (s : State) (c p : Nat) (left : List Nat) : State :=
  ({ s with defects := { s.defects with
    coreMap := tset s.defects.coreMap c p, coreFree := tset s.defects.coreFree (c / 16) left } }).modCore c CoreSt.moved

theorem State.substituteCore_spare {p : Nat} {r : List Nat}
    (free : ((s.freeCores (c / 16)).filter fun p => !bad.contains p) = p :: r) : s.substituteCore c cause detail bad =
      (((s.unqueue c).addDefect { s.coreEntry c cause detail with st := 1, spare := p }).placeSpare c p
        ((((s.unqueue c).addDefect { s.coreEntry c cause detail with st := 1, spare := p }).freeCores (c / 16)).filter
          fun q => q != p)).spareIn s.defectNo 1 (c / 16)
        ((((s.unqueue c).addDefect { s.coreEntry c cause detail with st := 1, spare := p }).freeCores (c / 16)).filter
          fun q => q != p).isEmpty := by
  unfold State.substituteCore
  simp only [free]
  rfl

/-- The state with a core absent. -/
def State.loseCore (s : State) (c : Nat) : State :=
  ({ s with defects := { s.defects with coreMap := tset s.defects.coreMap c 0xFF } }).setCore c {}

theorem State.substituteCore_none (none : ((s.freeCores (c / 16)).filter fun p => !bad.contains p) = []) :
    s.substituteCore c cause detail bad =
      (((s.unqueue c).addDefect (s.coreEntry c cause detail)).loseCore c).moduleEvent 0x0985 c 0 := by
  unfold State.substituteCore
  simp only [none]
  rfl

/-- With room in the list and a lockkeeper a unit is listed at once. -/
theorem State.addDefect_listed (active : s.lk.active ≠ none) (room : s.defects.list.length < 4096) (e : DefectEnt) :
    s.addDefect e = { s with defects := { s.defects with
      list := s.defects.list ++ [{ e with dawnNo := s.boot.dawns, ptpNs := s.ptpTime }] } } :=
  (if_neg fun none => active (Option.isNone_iff_eq_none.1 none)).trans (if_pos room)

theorem State.spareIn_raises (s : State) (n kind die : Nat) (last : Bool) : Raises s (s.spareIn n kind die last) 0x0982 [0xFF, n, 0] := by
  have raised := State.raises_moduleEvent s 0x0982 n 0 []
  unfold State.spareIn
  extract_lets t
  split
  · exact raised.grow (State.moduleEvent_frame t _ _ _ _).grows
  · exact raised

/-- A berth whose hand-over needs an image that the spare lacks stays on its old one. -/
def State.checkHandOver (s : State) (c : Nat) : State :=
  match s.berthOfDie (c / 16) with
  | none => s
  | some b =>
    if (s.berth b).handOver && s.physCore c != 0xFF && !s.holdsImage (c / 16) (s.physCore c) then
      (s.modBerth b fun x => { x with handOver := false }).berthEvent b 0x098B 0 0
    else s

theorem State.checkHandOver_defects (s : State) (c : Nat) : (s.checkHandOver c).defects = s.defects := by
  unfold State.checkHandOver
  split
  · rfl
  · split
    · exact (State.berthEvent_frame _ _ _ _ _ _).frame .defects (by decide)
    · rfl

theorem State.checkHandOver_out (s : State) (c : Nat) : s.out <+: (s.checkHandOver c).out := by
  unfold State.checkHandOver
  split
  · exact List.prefix_rfl
  · split
    · next b _ _ => exact (State.berthEvent_frame (s.modBerth b fun x => { x with handOver := false }) b 0x098B 0 0 []).grows
    · exact List.prefix_rfl

theorem coreSubstitution_run (waits : (c, cause, detail) ∈ s.defects.subst) (alone : ∀ x ∈ s.defects.subst, x.1 = c → x = (c, cause, detail))
    (active : s.lk.active ≠ none) (idle : s.kern c = none) (other : cause ≠ 3) :
    exec (.coreSubstitution c bad) s = .next ((s.substituteCore c cause detail bad).checkHandOver c) := by
  have found : s.defects.subst.find? (fun x => x.1 == c) = some (c, cause, detail) := by
    cases look : s.defects.subst.find? fun x => x.1 == c with
    | none => exact absurd (beq_self_eq_true c) (List.find?_eq_none.1 look _ waits)
    | some x => rw [alone x (List.mem_of_find?_eq_some look) (beq_iff_eq.1 (List.find?_some look :))]
  have free : ¬((s.lk.active.isNone || (s.kern c).isSome || (cause == 3 && s.dieInLockage (c / 16))) = true) := by
    have runs : s.lk.active.isNone = false := by
      cases found : s.lk.active with
      | none => exact absurd found active
      | some a => rfl
    have cause' : (cause == 3) = false := beq_eq_false_iff_ne.2 other
    rw [runs, idle, cause']
    simp
  refine congrArg Host.Outcome.next ?_
  simp only [found]
  exact (if_neg free).trans rfl

theorem coreSubstitution_busy (busy : s.kern c ≠ none) : exec (.coreSubstitution c bad) s = .next s := by
  refine congrArg Host.Outcome.next ?_
  cases look : s.defects.subst.find? fun x => x.1 == c with
  | none => rfl
  | some x =>
    refine if_pos ?_
    rw [Option.isSome_iff_ne_none.2 busy]
    simp

end

end

theorem failedCoresAreSubstituted : FailedCoresAreSubstituted := by
  refine fun s kind die unit sub measure c cause detail n bad => ⟨fun measured listed active apart key =>
      ⟨fun fresh => ?warns, fun known => ?silent, fun j core serves fresh => ?awaits⟩,
    fun alone waits active idle other => ⟨fun p r free room => ?spared, fun none => ?absent⟩, fun busy => coreSubstitution_busy busy⟩
  case warns =>
    subst key
    have new : s.newWarnings (unitKey kind die unit sub) measure 1 = [1] := by simp [State.newWarnings, fresh]
    have noted : (s.noteWarnings (unitKey kind die unit sub) measure 1).defects.warned =
        s.defects.warned ++ [(2 * measure + 1, unitKey kind die unit sub)] := by
      rw [State.noteWarnings, new]
      rfl
    have one : s.warnWear (unitKey kind die unit sub) measure 1 =
        (s.noteWarnings (unitKey kind die unit sub) measure 1).moduleEvent 0x0986 (unitKey kind die unit sub) measure := by
      rw [State.warnWear, new]
      rfl
    have defects : (s.warnWear (unitKey kind die unit sub) measure 1).defects =
      (s.noteWarnings (unitKey kind die unit sub) measure 1).defects := (State.warnWear_frame _ _ _ _).frame .defects (by decide)
    have raised := State.raises_moduleEvent (s.noteWarnings (unitKey kind die unit sub) measure 1) 0x0986
      (unitKey kind die unit sub) measure []
    refine ⟨_, wearSample_warns measured listed active apart, ?_, (congrArg DefectSt.list defects :), ?_⟩
    · rw [one]
      exact raised.of_out_eq rfl
    · rw [defects, noted]
      exact List.mem_append_right _ List.mem_cons_self
  case silent =>
    subst key
    have new : s.newWarnings (unitKey kind die unit sub) measure 1 = [] := by simp [State.newWarnings, known]
    have none : s.warnWear (unitKey kind die unit sub) measure 1 = s.noteWarnings (unitKey kind die unit sub) measure 1 := by
      rw [State.warnWear, new]
      rfl
    refine ⟨_, wearSample_warns measured listed active apart, ?_⟩
    rw [none]
    exact ⟨rfl, rfl⟩
  case awaits =>
    subst core
    have spared : measure ≠ 10 := by
      rintro rfl
      exact absurd measured (by decide)
    have defects : (s.warnWear (unitKey 1 die unit sub) measure 2).defects =
      (s.noteWarnings (unitKey 1 die unit sub) measure 2).defects := (State.warnWear_frame _ _ _ _).frame .defects (by decide)
    refine ⟨_, wearSample_fails measured listed active apart spared rfl, ?_⟩
    have subst' : (s.warnWear (unitKey 1 die unit sub) measure 2).defects.subst = s.defects.subst := (congrArg DefectSt.subst defects :)
    have map : (s.warnWear (unitKey 1 die unit sub) measure 2).defects.coreMap = s.defects.coreMap :=
      (congrArg DefectSt.coreMap defects :)
    refine (State.failUnit_core rfl ((State.coreOf_of_map map ..).trans serves) (unitIn_core listed) ?_).trans (by rw [subst'])
    rw [subst']
    exact fresh
  case spared =>
    have run := coreSubstitution_run (bad := bad) waits alone active idle other
    rw [State.substituteCore_spare free] at run
    have listed := State.addDefect_listed (s := s.unqueue c) active room { s.coreEntry c cause detail with st := 1, spare := p }
    have list := congrArg (fun v : State => v.defects.list) listed
    have subst' := congrArg (fun v : State => v.defects.subst) listed
    have map := congrArg (fun v : State => v.defects.coreMap) listed
    have out := congrArg State.out listed
    generalize (s.unqueue c).addDefect { s.coreEntry c cause detail with st := 1, spare := p } = t at run list subst' map out
    generalize same : (t.freeCores (c / 16)).filter (fun q => q != p) = left at run
    have placed : ((((t.placeSpare c p left).spareIn s.defectNo 1 (c / 16) left.isEmpty)).checkHandOver c).defects =
        (t.placeSpare c p left).defects :=
      (State.checkHandOver_defects ..).trans ((State.spareIn_frame _ _ _ _ _).frame .defects (by decide))
    refine ⟨_, run, ?_, ?_, ?_, ?_, fun e differs => ?_, ?_⟩
    · rw [State.physCore, placed]
      exact tget_tset_self ..
    · have free' : (t.placeSpare c p left).freeCores (c / 16) = left := tget_tset_self ..
      rw [State.freeCores, placed]
      intro inside
      rw [State.freeCores] at free'
      rw [free', ← same] at inside
      simpa using (List.mem_filter.1 inside).2
    · rw [placed]
      intro x inside
      have inside' : x ∈ t.defects.subst := inside
      rw [subst'] at inside'
      simpa using (List.mem_filter.1 inside').2
    · have raised := State.spareIn_raises (t.placeSpare c p left) s.defectNo 1 (c / 16) left.isEmpty
      exact (raised.of_out_eq out).grow (State.checkHandOver_out ..)
    · rw [State.physCore, placed]
      refine (tget_tset_other _ _ _ differs).trans ?_
      rw [map]
      rfl
    · rw [placed]
      exact list
  case absent =>
    have run := coreSubstitution_run (bad := bad) waits alone active idle other
    rw [State.substituteCore_none none] at run
    have raised := State.raises_moduleEvent (((s.unqueue c).addDefect (s.coreEntry c cause detail)).loseCore c) 0x0985 c 0 []
    have defects := (State.moduleEvent_frame (((s.unqueue c).addDefect (s.coreEntry c cause detail)).loseCore c)
      0x0985 c 0 []).frame .defects (by decide)
    refine ⟨_, run, ?_, ?_⟩
    · rw [State.physCore, State.checkHandOver_defects, defects]
      exact tget_tset_self ..
    · exact (raised.after (State.addDefect_frame (s.unqueue c) _).grows).grow (State.checkHandOver_out ..)

end Sys2Proof.Machine
end

section
/-!
Readmission of listed units and the keeper's declaration (17 R529, R530).
-/

namespace Sys2Proof.Machine

section
variable {s : State} {kind die unit sub : Nat}

/-! The keeper's writes. -/

/-- What a keeper's request for a test answers, and the state it leaves. -/
def State.askReadmit (s : State) (kind die unit sub : Nat) : Nat × State :=
  if s.lk.service.isNone then (0x0809, s) else s.writeReadmit kind die unit sub

/-- What a keeper's declaration answers, and the state it leaves. -/
def State.askDeclare (s : State) (kind die unit sub : Nat) : Nat × State :=
  if s.lk.service.isNone then (0x0809, s) else s.writeDeclare kind die unit sub

/-- The state with a listed unit under test. -/
def State.beginReadmit (s : State) (i : Nat) : State :=
  { s with defects := { s.defects with readmit := 1, readmitUnit := s.defects.list[i]? } }

/-- A keeper's request answers its code and leaves the state of the write. -/
theorem readmissionRequest_answers (up : DictUp s) {code : Nat} {t : State} (writes : s.askReadmit kind die unit sub = (code, t)) :
    ∃ u, exec (.readmissionRequest kind die unit sub) s = .next u ∧ Answers u 0x7200 0 code ∧ u.defects = t.defects := by
  refine ⟨_, congrArg Host.Outcome.next (State.byDict_of_up up 0x7200 0 fun t => t.askReadmit kind die unit sub), ?_⟩
  rw [writes]
  exact ⟨answers_emit _ _ _ _, rfl⟩

/-- A keeper's declaration answers its code and leaves the state of the write. -/
theorem declareFailed_answers (up : DictUp s) {code : Nat} {t : State} (writes : s.askDeclare kind die unit sub = (code, t)) :
    ∃ u, exec (.declareFailed kind die unit sub) s = .next u ∧ Answers u 0x7202 0 code ∧ u.defects = t.defects := by
  refine ⟨_, congrArg Host.Outcome.next (State.byDict_of_up up 0x7202 0 fun t => t.askDeclare kind die unit sub), ?_⟩
  rw [writes]
  exact ⟨answers_emit _ _ _ _, rfl⟩

theorem askReadmit_refused (none : s.lk.service = none) : s.askReadmit kind die unit sub = (0x0809, s) :=
  if_pos (Option.isNone_iff_eq_none.2 none)

theorem askDeclare_refused (none : s.lk.service = none) : s.askDeclare kind die unit sub = (0x0809, s) :=
  if_pos (Option.isNone_iff_eq_none.2 none)

section
variable (serves : s.lk.service ≠ none)
include serves

theorem askReadmit_served : s.askReadmit kind die unit sub = s.writeReadmit kind die unit sub :=
  if_neg fun none => serves (Option.isNone_iff_eq_none.1 none)

theorem askDeclare_served : s.askDeclare kind die unit sub = s.writeDeclare kind die unit sub :=
  if_neg fun none => serves (Option.isNone_iff_eq_none.1 none)

theorem askReadmit_busy (busy : s.defects.readmit = 1) : s.askReadmit kind die unit sub = (0x0907, s) :=
  (askReadmit_served serves).trans (if_pos busy)

theorem askReadmit_unlisted (idle : s.defects.readmit ≠ 1) (none : s.readmitEntry kind die unit sub = none) :
    s.askReadmit kind die unit sub = (0x0905, s) := by
  refine (askReadmit_served serves).trans ((if_neg idle).trans ?_)
  rw [none]

theorem askReadmit_taken (idle : s.defects.readmit ≠ 1) {i : Nat} (listed : s.readmitEntry kind die unit sub = some i)
    (testable : s.readmitOk kind die unit = true) : s.askReadmit kind die unit sub = (0, s.beginReadmit i) := by
  refine (askReadmit_served serves).trans ((if_neg idle).trans ?_)
  rw [listed, testable]
  rfl

theorem askDeclare_unknown (absent : s.unitIn kind die unit sub = false) : s.askDeclare kind die unit sub = (0x0906, s) := by
  refine (askDeclare_served serves).trans (if_pos ?_)
  rw [absent]
  rfl

theorem askDeclare_core (listed : s.unitIn 1 die unit sub = true) : s.askDeclare 1 die unit sub =
    (0, s.openDetail.2.failUnit { kind := 1, die := die, unit := unit, sub := sub, cause := 5, st := 2, detail := s.openDetail.1 }) := by
  refine (askDeclare_served serves).trans (if_neg ?_)
  rw [listed]
  simp

end

/-! The end of the tests. -/

/-- The state with the tests ended: passed (2) or failed (3). -/
def State.endTests (s : State) (result : Nat) : State :=
  { s with defects := { s.defects with readmit := result, readmitUnit := none } }

/-- The state with an entry of the list marked readmitted. -/
def State.markReadmitted (s : State) (i : Nat) : State :=
  { s with defects := { s.defects with list := s.defects.list.modify i fun x => { x with st := 5 } } }

theorem readmitDone_idle (none : s.defects.readmitUnit = none) (p : Bool) : exec (.readmitDone p) s = .next s := by
  refine congrArg Host.Outcome.next ?_
  rw [none]

theorem readmitDone_fails {e : DefectEnt} (tested : s.defects.readmitUnit = some e) :
    exec (.readmitDone false) s = .next ((s.endTests 3).moduleEvent 0x098D 0 0) := by
  refine congrArg Host.Outcome.next ?_
  rw [tested]
  rfl

theorem readmitDone_passes {e : DefectEnt} (tested : s.defects.readmitUnit = some e) {i : Nat}
    (listed : s.readmitEntry e.kind e.die e.unit e.sub = some i) :
    exec (.readmitDone true) s = .next ((((s.endTests 2).markReadmitted i).readmit e).moduleEvent 0x098D 1 0) := by
  have listed' : (s.endTests 2).readmitEntry e.kind e.die e.unit e.sub = some i := listed
  refine congrArg Host.Outcome.next ?_
  rw [tested]
  dsimp only
  rw [show ({ s with defects := { s.defects with readmit := if true then 2 else 3, readmitUnit := none } } : State) = s.endTests 2
    from rfl]
  rw [listed']
  rfl

/-- The state with the link ports, the host port and the basin ports of a fabric die's return. -/
def State.openPorts (s : State) (k : Nat) : State :=
  let s := s.modFabric fun f => { f with fds := tmod f.fds {} k fun x => { x with up := true } }
  let s := if k = 0 ∨ k = 4 then s.modPort (k / 4) fun x => { x with up := true } else s
  forL (fdBasins k) s fun p t => { t with basins := tset t.basins p { t.basin p with up := true } }

theorem State.openPorts_defects (s : State) (k : Nat) : (s.openPorts k).defects = s.defects := by
  unfold State.openPorts
  refine (forL_keeps State.defects _ _ _ ?_).trans ?_
  · exact fun _ _ => rfl
  · split <;> rfl

/-- The state with the attachments of a fabric die in service, but for those that the list names. -/
def State.attachAgain (s : State) (k : Nat) : State :=
  forL ((fdAttach k).filter fun a => !s.defectsNow.any fun x => x.kind == 8 && x.die == a.1 && x.unit == a.2) s fun a t =>
    { t with defects := { t.defects with attach := tset t.defects.attach a.1 (t.attachments a.1 ||| 2 ^ a.2) } }

theorem State.readmit_fd {e : DefectEnt} (isFd : e.kind = 0xC) : s.readmit e =
    (({ s with defects := { s.defects with fencedFds := s.defects.fencedFds.filter fun d => d != e.die - 24 } } : State).attachAgain
      (e.die - 24)).openPorts (e.die - 24) := by
  unfold State.readmit
  rw [isFd]
  rfl

/-- A unit joins the spares of its kind; the list and the state of the tests stay. -/
theorem State.readmit_keeps {α : Type} (g : DefectSt → α)
    (blind : ∀ d free fenced fds attach, g { d with coreFree := free, fenced := fenced, fencedFds := fds, attach := attach } = g d)
    (e : DefectEnt) : g (s.readmit e).defects = g s.defects := by
  by_cases isFd : e.kind = 0xC
  · rw [State.readmit_fd isFd, State.openPorts_defects]
    refine (forL_keeps (fun t : State => g t.defects) _ _ _ ?_).trans ?_
    · exact fun _ t => blind t.defects t.defects.coreFree t.defects.fenced t.defects.fencedFds _
    · exact blind s.defects s.defects.coreFree s.defects.fenced _ s.defects.attach
  · unfold State.readmit
    split
    case h_1 => exact blind s.defects _ s.defects.fenced s.defects.fencedFds s.defects.attach
    case h_5 => exact blind s.defects s.defects.coreFree _ s.defects.fencedFds s.defects.attach
    case h_7 same => exact absurd same isFd
    all_goals rfl

theorem State.readmit_core {e : DefectEnt} (core : e.kind = 1) (real : e.unit < 18) : e.unit ∈ (s.readmit e).freeCores e.die := by
  unfold State.readmit
  rw [core]
  refine (congrArg (e.unit ∈ ·) (tget_tset_self ..)).mpr ?_
  simp [real]

theorem State.readmit_die {e : DefectEnt} (isDie : e.kind = 9) : e.die ∉ (s.readmit e).defects.fenced := by
  unfold State.readmit
  rw [isDie]
  simp

end

theorem keepersReadmitAndDeclare : KeepersReadmitAndDeclare := by
  refine fun s kind die unit sub i e => ⟨fun up => ⟨fun none =>
      ⟨readmissionRequest_answers up (askReadmit_refused none), declareFailed_answers up (askDeclare_refused none)⟩,
    fun serves => ⟨fun busy => readmissionRequest_answers up (askReadmit_busy serves busy),
      fun idle none => readmissionRequest_answers up (askReadmit_unlisted serves idle none),
      fun idle listed testable => ?tested,
      fun absent => declareFailed_answers up (askDeclare_unknown serves absent), fun j core listed inService fresh => ?declared⟩⟩,
    fun tested => ⟨?fails, fun listed => ?passes⟩, readmitDone_idle⟩
  case tested =>
    obtain ⟨u, run, answer, defects⟩ := readmissionRequest_answers up (askReadmit_taken serves idle listed testable)
    refine ⟨u, run, answer, ?_⟩
    rw [defects]
    exact ⟨rfl, rfl, rfl⟩
  case declared =>
    subst core
    obtain ⟨u, run, answer, defects⟩ := declareFailed_answers up (askDeclare_core serves listed)
    refine ⟨u, s.openDetail.1, run, answer, ?_⟩
    rw [defects]
    exact State.failUnit_core (s := s.openDetail.2) rfl inService (unitIn_core listed) fresh
  case fails =>
    have defects : ((s.endTests 3).moduleEvent 0x098D 0 0).defects = (s.endTests 3).defects :=
      (State.moduleEvent_frame _ _ _ _ _).frame .defects (by decide)
    have raised := State.raises_moduleEvent (s.endTests 3) 0x098D 0 0 []
    refine ⟨_, readmitDone_fails tested, ?_⟩
    rw [defects]
    exact ⟨rfl, rfl, rfl, raised.of_out_eq rfl⟩
  case passes =>
    have readmitted := readmitDone_passes tested listed
    have out : (((s.endTests 2).markReadmitted i).readmit e).out = s.out :=
      (State.readmit_frame ((s.endTests 2).markReadmitted i) e).frame .out (by decide)
    have list : (((s.endTests 2).markReadmitted i).readmit e).defects.list =
      s.defects.list.modify i fun x => { x with st := 5 } := State.readmit_keeps DefectSt.list (fun _ _ _ _ _ => rfl) e
    have tests : (((s.endTests 2).markReadmitted i).readmit e).defects.readmit = 2 :=
      State.readmit_keeps DefectSt.readmit (fun _ _ _ _ _ => rfl) e
    have core := fun isCore : e.kind = 1 => State.readmit_core (s := (s.endTests 2).markReadmitted i) isCore
    have isDie := fun isDie : e.kind = 9 => State.readmit_die (s := (s.endTests 2).markReadmitted i) isDie
    generalize ((s.endTests 2).markReadmitted i).readmit e = t at readmitted out list tests core isDie
    have defects : (t.moduleEvent 0x098D 1 0).defects = t.defects := (State.moduleEvent_frame _ _ _ _ _).frame .defects (by decide)
    refine ⟨_, readmitted, ?_⟩
    unfold State.freeCores at *
    rw [defects, list]
    refine ⟨tests, (State.raises_moduleEvent t 0x098D 1 0 []).of_out_eq out, fun x there => ?_, fun j other => ?_, core, isDie⟩
    · rw [List.getElem?_modify_eq, there]
      rfl
    · exact List.getElem?_modify_ne _ _ (Ne.symm other)

/-- Settles O36: each sample, substitution, test and declaration through what it leaves in the defect list. -/
theorem unitsAreReplacedAndReadmitted : Obligations.UnitsAreReplacedAndReadmitted :=
  ⟨failedCoresAreSubstituted, keepersReadmitAndDeclare⟩

end Sys2Proof.Machine
end

section
/-!
The lockkeepers: takeover, restart, catching up and loss (01 R22, 16 R511, 17 R531, R532, R538, R541).
-/

namespace Sys2Proof.Machine

section
variable {s : State} {a die : Nat}

/-! What waits for a lockkeeper is done without one leaving or anything waiting again. -/

theorem State.addDefect_waiting (active : s.lk.active ≠ none) (e : DefectEnt) :
    (s.addDefect e).defects.waiting = s.defects.waiting := by
  unfold State.addDefect
  extract_lets x d
  rw [if_neg fun none => active (Option.isNone_iff_eq_none.1 none)]
  split
  · rfl
  · have told := (State.moduleEvent_frame { s with defects := { d with running := d.running ++ [x] } } 0x098C 0 0 []).frame .defects
      (by decide)
    exact (congrArg DefectSt.waiting told :)

theorem fenceDie_waiting (s : State) (d : Nat) : (s.fenceDie d).defects.waiting = s.defects.waiting := by
  by_cases fenced : d ∈ s.defects.fenced
  · rw [State.fenceDie, if_pos (by simpa using fenced)]
  · rw [State.fenceDie_eq fenced]
    have faults : ((s.announceFence d).faultOwner d (s.berthOfDie d)).defects = (s.announceFence d).defects := by
      cases s.berthOfDie d with
      | none => rfl
      | some b => exact (State.faultBerth_frame _ _ _).frame .defects (by decide)
    have listed : (s.announceFence d).defects = { s.defects with fenced := s.defects.fenced ++ [d] } :=
      ((State.memberLost_frame _ _).frame .defects (by decide)).trans ((State.moduleEvent_frame _ _ _ _ _).frame .defects (by decide))
    rw [(State.nextMode_frame _ _).frame .defects (by decide), (State.segsLost_frame _ _).frame .defects (by decide), faults, listed]

theorem fenceFd_waiting (s : State) (k : Nat) : (s.fenceFd k).defects.waiting = s.defects.waiting := by
  unfold State.fenceFd
  split
  · rfl
  · extract_lets x t u
    have down : u.defects = t.defects := (State.fdDown_frame _ _).frame .defects (by decide)
    refine (congrArg DefectSt.waiting ((State.moduleEvent_frame _ _ _ _ _).frame .defects (by decide) : _ = _)).trans ?_
    refine (forL_keeps (fun t : State => t.defects.waiting) _ _ _ ?_).trans ?_
    · exact fun _ _ => rfl
    · rw [down]

theorem fenceLk_waiting (s : State) (d : Nat) : (s.fenceLk d).defects.waiting = s.defects.waiting :=
  congrArg DefectSt.waiting ((State.fenceLk_frame _ _).frame .defects (by decide) : _ = _)

theorem fenceLk_active (s : State) (d : Nat) : (s.fenceLk d).lk.active = s.lk.active := by
  by_cases fenced : d ∈ s.lk.fenced
  · rw [State.fenceLk, if_pos (by simpa using fenced)]
  · rw [(fenceLk_done fenced).1]

theorem State.applyFence_waiting (s : State) (e : DefectEnt) : (s.applyFence e).defects.waiting = s.defects.waiting := by
  unfold State.applyFence
  split
  · rfl
  · split
    · exact fenceDie_waiting ..
    · split
      · exact fenceFd_waiting ..
      · split
        · exact fenceLk_waiting ..
        · rfl

theorem State.applyFence_active (s : State) (e : DefectEnt) : (s.applyFence e).lk.active = s.lk.active := by
  unfold State.applyFence
  split
  · rfl
  · split
    · exact congrArg LkSt.active ((State.fenceDie_frame _ _).frame .lk (by decide) : _ = _)
    · split
      · exact congrArg LkSt.active ((State.fenceFd_frame _ _).frame .lk (by decide) : _ = _)
      · split
        · exact fenceLk_active ..
        · rfl

theorem fenceLk_told (fresh : die ∉ s.lk.fenced) : Raises s (s.fenceLk die) 0x0984 [0xFF, die, 0xB] := by
  unfold State.fenceLk
  rw [if_neg (by simpa using fresh)]
  extract_lets x t
  have raised := State.raises_moduleEvent t 0x0984 die 0xB []
  exact (raised.of_out_eq rfl).grow (State.moduleEvent_frame _ 0x0988 die 0 []).grows

/-- A lockkeeper is in charge and nothing waits for one. -/
def InCharge (die : Nat) (s : State) : Prop := s.lk.active = some die ∧ s.defects.waiting = []

theorem InCharge.fence (charge : InCharge die s) (e : DefectEnt) : InCharge die (s.fence e) := by
  obtain ⟨active, none⟩ := charge
  have runs : s.lk.active ≠ .none := by simp [active]
  have lk : (s.addDefect e).lk = s.lk := (State.addDefect_frame _ _).frame .lk (by decide)
  rw [State.fence_eq runs]
  exact ⟨by rw [State.applyFence_active, lk, active], by rw [State.applyFence_waiting, State.addDefect_waiting runs, none]⟩

theorem InCharge.compareSlot (charge : InCharge die s) (b k : Nat) : InCharge die (s.compareSlot b k) := by
  have lk : (s.compareSlot b k).lk = s.lk := (State.compareSlot_frame s b k).frame .lk (by decide)
  have defects : (s.compareSlot b k).defects = s.defects := (State.compareSlot_frame s b k).frame .defects (by decide)
  rw [InCharge, lk, defects]
  exact charge

theorem forL_upholds {α : Type} {p : State → Prop} (l : List α) (f : α → State → State) (keeps : ∀ a t, p t → p (f a t))
    (start : p s) : p (forL l s f) := by
  induction l generalizing s with
  | nil => exact start
  | cons a r ih => exact ih (keeps a s start)

theorem InCharge.lkBack (active : s.lk.active = some die) : InCharge die s.lkBack := by
  refine forL_upholds (List.range 24) _ (fun b t charge => ?_) ?_
  · exact forL_upholds _ _ (fun k u charge => charge.compareSlot b k) charge
  · exact forL_upholds s.defects.waiting _ (fun e t charge => charge.fence e) ⟨active, rfl⟩

theorem InCharge.lkAlone (s : State) (die : Nat) : InCharge die (s.lkAlone die) := InCharge.lkBack rfl

/-! The end of the sessions and of a broadcast. -/

theorem State.dropSessions_parts (s : State) : s.dropSessions.dict.sessions = [] ∧ s.dropSessions.lk = { s.lk with service := none } := by
  unfold State.dropSessions
  extract_lets t
  split
  · exact ⟨congrArg DictSt.sessions (State.moduleEvent_dict ..), State.moduleEvent_lk ..⟩
  case isFalse idle =>
    have none : s.lk.service = none := Option.not_isSome_iff_eq_none.1 idle
    refine ⟨rfl, ?_⟩
    rw [← none]

/-- The state without sessions, connections and broadcast. -/
def State.cutOff (s : State) : State := s.dropSessions.dropBroadcast

theorem State.cutOff_dict (s : State) : s.cutOff.dict.sessions = [] :=
  (congrArg DictSt.sessions ((State.dropBroadcast_frame _).frame .dict (by decide) : _ = _)).trans s.dropSessions_parts.1

theorem State.cutOff_lk (s : State) : s.cutOff.lk = { s.lk with service := none } :=
  ((State.dropBroadcast_frame _).frame .lk (by decide) : _ = _).trans s.dropSessions_parts.2

theorem State.cutOff_out (s : State) : s.out <+: s.cutOff.out := by
  have same : s.cutOff.out = s.dropSessions.out := (State.dropBroadcast_frame _).frame .out (by decide)
  rw [same]
  exact s.dropSessions_frame.grows

theorem State.cutOff_fw (s : State) (sends : s.fw.st = 2) : s.cutOff.fw.st = 0 := by
  have fw : s.dropSessions.fw = s.fw := (State.dropSessions_frame _).frame .fw (by decide)
  unfold State.cutOff State.dropBroadcast
  rw [if_pos (by rw [fw]; exact sends)]

/-- The lockkeepers cut off with one more. -/
def cutAlso (cut : List Nat) (a : Nat) : List Nat := if cut.contains a then cut else cut ++ [a]

theorem mem_cutAlso (cut : List Nat) (a : Nat) : a ∈ cutAlso cut a := by
  unfold cutAlso
  split
  case isTrue inside => exact List.contains_iff_mem.1 inside
  case isFalse => exact List.mem_append_right _ (List.mem_singleton_self a)

/-- The state with the other lockkeeper in charge. -/
def State.swapLks (s : State) (a : Nat) : State :=
  { s with lk := { s.lk with active := some (otherLk a), standby := 0, installing := false, cut := cutAlso s.lk.cut a } }

theorem State.takeOver_eq (active : s.lk.active = some a) :
    s.takeOver = (s.cutOff.swapLks a).moduleEvent 0x0987 (otherLk a) 0 := by
  unfold State.takeOver
  rw [active]
  rfl

theorem State.takeOver_lk (active : s.lk.active = some a) : s.takeOver.lk = { s.lk with
    service := none, active := some (otherLk a), standby := 0, installing := false, cut := cutAlso s.lk.cut a } := by
  rw [State.takeOver_eq active, State.moduleEvent_lk]
  unfold State.swapLks
  rw [State.cutOff_lk]

theorem State.takeOver_sessions (active : s.lk.active = some a) : s.takeOver.dict.sessions = [] := by
  rw [State.takeOver_eq active, State.moduleEvent_dict]
  exact s.cutOff_dict

theorem State.takeOver_fw (active : s.lk.active = some a) (sends : s.fw.st = 2) : s.takeOver.fw.st = 0 := by
  have fw : ((s.cutOff.swapLks a).moduleEvent 0x0987 (otherLk a) 0).fw = (s.cutOff.swapLks a).fw :=
    (State.moduleEvent_frame _ _ _ _ _).frame .fw (by decide)
  rw [State.takeOver_eq active, fw]
  exact s.cutOff_fw sends

theorem State.takeOver_raises (active : s.lk.active = some a) : Raises s s.takeOver 0x0987 [0xFF, 58 - a, 0] := by
  have raised := State.raises_moduleEvent (s.cutOff.swapLks a) 0x0987 (otherLk a) 0 []
  rw [State.takeOver_eq active]
  exact (raised.of_out_eq rfl).after s.cutOff_out

/-! The commands. -/

theorem heartbeatMiss_taken (mirrors : s.lk.standby = 1) : exec .heartbeatMiss s = .next s.takeOver :=
  congrArg Host.Outcome.next (if_pos mirrors)

theorem heartbeatMiss_lost (alone : s.lk.standby ≠ 1) : exec .heartbeatMiss s = .next s.lkLost :=
  congrArg Host.Outcome.next (if_neg alone)

/-- The entry of a lockkeeper that fails its self-test. -/
def lkEntry (die : Nat) : DefectEnt := { kind := 0xB, die := die, cause := 2, st := 2, detail := 0x0988 }

section
variable (known : die = 27 ∨ die = 31) (free : die ∉ s.lk.fenced) (other : s.lk.active ≠ some die)
  (none : ∀ x ∈ s.defects.waiting, x.kind = 0xB → x.die ≠ die)
include known free other none

theorem lkRestart_heeded : ¬((die ≠ 27 ∧ die ≠ 31) ∨ s.lk.fenced.contains die ∨ s.lk.active = some die ∨
    s.defects.waiting.any (fun x => x.kind == 0xB && x.die == die)) := by
  rintro (⟨h27, h31⟩ | fenced | active | waits)
  · exact known.elim h27 h31
  · exact free (List.contains_iff_mem.1 fenced)
  · exact other active
  · obtain ⟨x, inside, same⟩ := List.any_eq_true.1 waits
    obtain ⟨kind, at'⟩ := (Bool.and_eq_true ..).mp same
    exact none x inside (beq_iff_eq.1 kind) (beq_iff_eq.1 at')

theorem lkRestart_fails : exec (.lkRestart die false) s = .next (s.fence (lkEntry die)) :=
  congrArg Host.Outcome.next ((if_neg (lkRestart_heeded known free other none)).trans (if_pos rfl))

theorem lkRestart_alone (vacant : s.lk.active = .none) : exec (.lkRestart die true) s = .next (s.lkAlone die) := by
  refine congrArg Host.Outcome.next ((if_neg (lkRestart_heeded known free other none)).trans ((if_neg (by decide)).trans ?_))
  rw [vacant]

/-- The state with a lockkeeper catching up. -/
def State.catchUp (s : State) (die : Nat) : State :=
  { s with lk := { s.lk with standby := 2, cut := s.lk.cut.filter fun d => d != die } }

theorem lkRestart_joins (active : s.lk.active = some a) (alone : s.lk.standby = 0) :
    exec (.lkRestart die true) s = .next (s.catchUp die) := by
  refine congrArg Host.Outcome.next ((if_neg (lkRestart_heeded known free other none)).trans ((if_neg (by decide)).trans ?_))
  rw [active]
  exact if_neg fun busy => busy alone

end

/-- The state with the standby mirroring. -/
def State.mirrorOn (s : State) : State := { s with lk := { s.lk with standby := 1 } }

/-- What follows once the standby mirrors while a lockkeeper is active. -/
def State.mirrorsNow (s : State) : State :=
  if s.lk.installing then { s.takeOver with lk := { s.takeOver.lk with version := s.stagedVersion } }
  else if s.fw.st = 4 then { s with fw := { s.fw with st := 0, staged := none } }
  else s

theorem standbyCatchUpDone_runs (behind : s.lk.standby = 2) (active : s.lk.active = some a) :
    exec .standbyCatchUpDone s = .next s.mirrorOn.mirrorsNow := by
  refine congrArg Host.Outcome.next ((if_neg fun other => other behind).trans ?_)
  rw [active]
  rfl

/-- The state with the standby lost. -/
def State.loseStandby (s : State) (a : Nat) : State :=
  { s with
    lk := { s.lk with standby := 0, installing := false, cut := s.lk.cut ++ [otherLk a] }
    fw := { s.fw with st := if s.fw.st = 4 then 1 else s.fw.st } }

theorem standbyFailure_runs (active : s.lk.active = some a) (there : s.lk.standby ≠ 0) :
    exec .standbyFailure s = .next ((s.loseStandby a).moduleEvent 0x0988 (otherLk a) 0) := by
  refine congrArg Host.Outcome.next ?_
  rw [active]
  exact if_neg there

end

/-- Settles O37: each command through what it leaves of the lockkeepers; what waited for one is fenced with it in charge. -/
theorem standbyTakesOver : Obligations.StandbyTakesOver := by
  refine fun s die a => ⟨fun mirrors active => ?taken, fun alone => ?lost,
    fun known free other none => ⟨fun active alone => ?joins, fun vacant => ?alone, fun active => ?fenced⟩, fun active => ?already,
    fun behind active => ⟨fun idle => ?caught, fun installs => ?installed⟩, fun active there => ?failed, fun vacant => ?vacant⟩
  case taken =>
    have lk := State.takeOver_lk active
    refine ⟨_, heartbeatMiss_taken mirrors, ?_, ?_, ?_, State.takeOver_sessions active, ?_, State.takeOver_raises active,
      s.takeOver_frame.frame .berths (by decide), s.takeOver_frame.frame .cores (by decide),
      s.takeOver_frame.frame .mem (by decide), State.takeOver_fw active⟩ <;> rw [lk]
    · rfl
    · exact mem_cutAlso ..
  case lost =>
    exact ⟨_, heartbeatMiss_lost alone, rfl, s.cutOff_dict, s.lkLost_frame.frame .berths (by decide),
      s.lkLost_frame.frame .cores (by decide)⟩
  case joins =>
    refine ⟨_, lkRestart_joins known free other none active alone, rfl, active, fun inside => ?_⟩
    simpa using (List.mem_filter.1 inside).2
  case alone =>
    exact ⟨_, lkRestart_alone known free other none vacant, InCharge.lkAlone s die⟩
  case fenced =>
    have runs : s.lk.active ≠ .none := by simp [active]
    have run := lkRestart_fails known free other none
    have lk : (s.addDefect (lkEntry die)).lk = s.lk := (State.addDefect_frame _ _).frame .lk (by decide)
    rw [State.fence_eq runs] at run
    obtain ⟨left, lost⟩ := fenceLk_done (s := s.addDefect (lkEntry die)) (die := die) (by rw [lk]; exact free)
    have told := fenceLk_told (s := s.addDefect (lkEntry die)) (die := die) (by rw [lk]; exact free)
    have grows := (State.addDefect_frame s (lkEntry die)).grows
    rw [lk] at left
    refine ⟨_, run, ?_, told.after grows, lost.after grows, (congrArg LkSt.active left).trans active⟩
    exact (congrArg (fun x : LkSt => die ∈ x.fenced) left).mpr (List.mem_append_right _ (List.mem_singleton_self die))
  case already => exact congrArg Host.Outcome.next (if_pos (.inr (.inr (.inl active))))
  case caught =>
    refine ⟨_, standbyCatchUpDone_runs behind active, ?_⟩
    have waits : ¬ s.mirrorOn.lk.installing = true := by simp [State.mirrorOn, idle]
    unfold State.mirrorsNow
    rw [if_neg waits]
    by_cases waits' : s.fw.st = 4
    · rw [if_pos (show s.mirrorOn.fw.st = 4 from waits')]
      exact ⟨rfl, active, fun _ => ⟨rfl, rfl⟩, fun other => absurd waits' other⟩
    · rw [if_neg (show ¬ s.mirrorOn.fw.st = 4 from waits')]
      exact ⟨rfl, active, fun same => absurd same waits', fun _ => rfl⟩
  case installed =>
    refine ⟨_, standbyCatchUpDone_runs behind active, ?_⟩
    have lk := State.takeOver_lk (s := s.mirrorOn) (a := a) active
    have raised := State.takeOver_raises (s := s.mirrorOn) (a := a) active
    unfold State.mirrorsNow
    rw [if_pos (show s.mirrorOn.lk.installing = true from installs)]
    exact ⟨(congrArg LkSt.active lk :), rfl, (congrArg LkSt.installing lk :), raised.of_out_eq rfl⟩
  case failed =>
    have raised := State.raises_moduleEvent (s.loseStandby a) 0x0988 (otherLk a) 0 []
    have lk : ((s.loseStandby a).moduleEvent 0x0988 (otherLk a) 0).lk = (s.loseStandby a).lk := State.moduleEvent_lk ..
    have fw : ((s.loseStandby a).moduleEvent 0x0988 (otherLk a) 0).fw = (s.loseStandby a).fw :=
      (State.moduleEvent_frame _ _ _ _ _).frame .fw (by decide)
    refine ⟨_, standbyFailure_runs active there, congrArg LkSt.standby lk, (congrArg LkSt.active lk).trans active,
      raised.of_out_eq rfl, fun waits => ?_⟩
    rw [fw]
    exact if_pos waits
  case vacant =>
    refine congrArg Host.Outcome.next ?_
    rw [vacant]

end Sys2Proof.Machine
end

section
/-!
Firmware: staging, broadcast, hand-over and the lockkeeper's image (17 R533-R538).
-/

namespace Sys2Proof.Machine

section
variable {s : State} {image i : Bytes} {gaps : List (Nat × List Nat)} {b : Nat}

/-! The writes of the dictionary. -/

/-- A write to an entry answers its code and leaves the state of the write, but for what left the module. -/
theorem State.byDict_answers (up : DictUp s) {index sub code : Nat} {f : State → Nat × State} {t : State} (writes : f s = (code, t)) :
    (s.byDict index sub f).fw = t.fw ∧ (s.byDict index sub f).lk = t.lk ∧ Answers (s.byDict index sub f) index sub code := by
  rw [State.byDict_of_up up, writes]
  exact ⟨rfl, rfl, answers_emit _ _ _ _⟩

theorem fwImageCode_length (wrong : image.length ≠ 4096 + leAt image 8 4) : s.fwImageCode image = 0x0900 := by
  have other : (image.length == 4096 + leAt image 8 4) = false := beq_eq_false_iff_ne.2 wrong
  unfold State.fwImageCode
  extract_lets n form digest signer
  have bad : form = false := by
    unfold form n
    rw [other]
    simp
  rw [bad]
  rfl

/-- The state with an image staged. -/
def State.stage (s : State) (image : Bytes) : State :=
  { s with fw := { s.fw with staged := some image, st := if s.fw.st = 0 then 1 else s.fw.st } }

theorem stageImage_taken (good : s.fwImageCode image = 0) : s.stageImage image = (0, s.stage image) := by
  unfold State.stageImage
  extract_lets code
  rw [if_neg (fun bad => bad good), show code = 0 from good]
  rfl

theorem stageImage_refused (bad : s.fwImageCode image ≠ 0) : s.stageImage image = (s.fwImageCode image, s) := by
  unfold State.stageImage
  extract_lets code
  rw [if_pos bad]

theorem fwBroadcast_empty (none : s.fw.staged = none) : s.fwBroadcast = (0x0904, s) := by
  unfold State.fwBroadcast
  rw [none]

theorem fwInstall_empty (none : s.fw.staged = none) : s.fwInstall = (0x0904, s) := by
  unfold State.fwInstall
  rw [none]

/-- The state with a broadcast of an image to every receiver begun. -/
def State.beginBroadcast (s : State) (i : Bytes) : State :=
  { s with fw := { s.fw with
    st := 2, rounds := 0, target := leAt i 6 2, gaps := receivers.map fun r => (r, imageChunks i), flagged := [] } }

section
variable (staged : s.fw.staged = some i) (quiet : s.fw.st ≠ 2) (idle : s.fw.st ≠ 4)
include staged quiet idle

theorem fwBroadcast_begins (core : leAt i 4 1 = 2) (signed : s.lk.seFailed = false) (fresh : s.flaggedList = []) :
    s.fwBroadcast = (0, s.beginBroadcast i) := by
  unfold State.fwBroadcast
  rw [staged]
  dsimp only
  rw [if_neg (not_or_intro quiet idle), if_neg (fun other => other core), if_neg (by simp [signed]), fresh]
  simp [State.beginBroadcast]

theorem fwBroadcast_foreign (other : leAt i 4 1 ≠ 2) : s.fwBroadcast = (0x0900, s) := by
  unfold State.fwBroadcast
  rw [staged]
  dsimp only
  rw [if_neg (not_or_intro quiet idle), if_pos other]

/-- The state with the standby restarting on the staged image. -/
def State.beginInstall (s : State) : State :=
  { s with fw := { s.fw with st := 4 }, lk := { s.lk with standby := 2, installing := true } }

theorem fwInstall_begins (keeper : leAt i 4 1 = 1) (mirrors : s.lk.standby = 1) : s.fwInstall = (0, s.beginInstall) := by
  unfold State.fwInstall
  rw [staged]
  dsimp only
  rw [if_neg (fun other => other keeper), if_neg]
  · rfl
  · rintro (alone | sends | installs)
    · exact alone mirrors
    · exact quiet sends
    · exact idle installs

end

/-- The state with a broadcast stopped. -/
def State.stopBroadcast (s : State) : State := { s with fw := { s.fw with st := if s.anyHandOver then 3 else 1, gaps := [] } }

theorem fwAbort_stops (sends : s.fw.st = 2) : s.fwAbort = (0, s.stopBroadcast) := congrArg (Prod.mk 0) (if_pos sends)

/-! Tables of receivers. -/

theorem tget_map_const {α : Type} (l : List Nat) (d v : α) {k : Nat} (inside : k ∈ l) : tget (l.map fun r => (r, v)) d k = v := by
  induction l with
  | nil => cases inside
  | cons r l ih =>
    by_cases same : r = k
    · exact if_pos same
    · refine (if_neg same).trans (ih ?_)
      exact (List.mem_cons.1 inside).resolve_left (Ne.symm same)

theorem tget_foldl_const {α : Type} (l : List Nat) (d v : α) (t : Tbl α) (k : Nat) (there : k ∈ l ∨ tget t d k = v) :
    tget (l.foldl (fun t r => tset t r v) t) d k = v := by
  induction l generalizing t with
  | nil => exact there.resolve_left (by simp)
  | cons r l ih =>
    refine ih _ ?_
    by_cases same : k = r
    · subst same
      exact .inr (tget_tset_self ..)
    · rcases there with inside | known
      · exact .inl ((List.mem_cons.1 inside).resolve_left same)
      · exact .inr ((tget_tset_other _ _ _ same).trans known)

theorem mem_receivers {d k : Nat} (die : d < 24) (unit : k < 19) : 32 * d + k ∈ receivers :=
  List.mem_flatMap.2 ⟨d, List.mem_range.2 die, List.mem_map.2 ⟨k, List.mem_range.2 unit, rfl⟩⟩

/-! The end of a round. -/

/-- What the receivers of a broadcast lack at the end of a round. -/
def State.roundLeft (s : State) (gaps : List (Nat × List Nat)) : List (Nat × List Nat) :=
  (s.fw.gaps.map fun p => (p.1, (tget gaps [] p.1))).filter fun p => !p.2.isEmpty

/-- The receivers that lack nothing any more. -/
def State.roundGot (s : State) (gaps : List (Nat × List Nat)) : List Nat :=
  (s.fw.gaps.map Prod.fst).filter fun r => !((s.roundLeft gaps).any fun p => p.1 == r)

/-- The state with a round's reports noted. -/
def State.noteRound (s : State) (gaps : List (Nat × List Nat)) : State :=
  { s with fw := { s.fw with
    gaps := s.roundLeft gaps, rounds := s.fw.rounds + 1, held := (s.roundGot gaps).foldl (fun t r => tset t r s.fw.target) s.fw.held } }

theorem roundLeft_none (all : ∀ p ∈ s.fw.gaps, tget gaps [] p.1 = []) : s.roundLeft gaps = [] := by
  refine List.filter_eq_nil_iff.2 fun p inside => ?_
  obtain ⟨q, listed, rfl⟩ := List.mem_map.1 inside
  simp [all q listed]

theorem roundLeft_some (some : ∃ p ∈ s.fw.gaps, tget gaps [] p.1 ≠ []) : s.roundLeft gaps ≠ [] := by
  obtain ⟨p, listed, lacks⟩ := some
  refine List.ne_nil_of_mem (a := (p.1, tget gaps [] p.1)) (List.mem_filter.2 ⟨List.mem_map.2 ⟨p, listed, rfl⟩, ?_⟩)
  simpa using lacks

theorem fwRoundEnd_ends (sends : s.fw.st = 2) (last : s.roundLeft gaps = [] ∨ 7 ≤ s.fw.rounds) :
    exec (.fwRoundEnd gaps) s = .next (s.noteRound gaps).endBroadcast := by
  refine congrArg Host.Outcome.next ((if_neg fun other => other sends).trans (if_pos ?_))
  exact last.imp (fun none => List.isEmpty_iff.2 none) fun rounds => Nat.succ_le_succ rounds

theorem fwRoundEnd_repeats (sends : s.fw.st = 2) (some : s.roundLeft gaps ≠ []) (early : s.fw.rounds < 7) :
    exec (.fwRoundEnd gaps) s = .next (s.noteRound gaps) := by
  refine congrArg Host.Outcome.next ((if_neg fun other => other sends).trans (if_neg ?_))
  rintro (none | rounds)
  · exact some (List.isEmpty_iff.1 none)
  · exact absurd (show 8 ≤ s.fw.rounds + 1 from rounds) (by omega)

/-! The end of a broadcast. -/

/-- The berths that are there. -/
def State.berthsNow (s : State) : List Nat := (List.range 24).filter fun b => (s.berth b).life != .absent

/-- The state with a broadcast's incomplete receivers flagged. -/
def State.flagLeft (s : State) : State :=
  { s with fw := { s.fw with
    gaps := []
    flagged := (s.fw.gaps.map Prod.fst).foldl (fun t r => tmod t 0 (r / 32) (· ||| 2 ^ (r % 32))) []
    held := (s.fw.gaps.map Prod.fst).foldl (fun t r => tset t r (tget t s.fw.base r)) s.fw.held
    berth := s.berthsNow.foldl (fun t b => tset t b (tget t s.fw.base b)) s.fw.berth } }

/-- The state with the incomplete receivers reported. -/
def State.tellLeft (s : State) : State :=
  if (s.fw.gaps.map Prod.fst).isEmpty then s.flagLeft else s.flagLeft.moduleEvent 0x0989 (s.fw.gaps.map Prod.fst).length 0

/-- The state with every berth told of the new image. -/
def State.tellBerths (s : State) : State := forL s.berthsNow s.tellLeft fun b t => t.handOverDue b

/-- Whether an image stays staged at a broadcast's end. -/
def State.keepsImage (s : State) : Bool := !(s.fw.gaps.map Prod.fst).isEmpty || s.stagedVersion != s.fw.target

/-- The firmware's state at the end of a broadcast. -/
def State.broadcastOver (s : State) (f : FwSt) (hands : Bool) : FwSt :=
  { f with
    base := f.target
    staged := if s.keepsImage then f.staged else none
    st := if hands then 3 else if s.keepsImage then 1 else 0 }

theorem State.endBroadcast_eq (s : State) :
    s.endBroadcast = { s.tellBerths with fw := s.broadcastOver s.tellBerths.fw s.tellBerths.anyHandOver } := rfl

theorem State.tellBerths_fw (s : State) : s.tellBerths.fw = s.flagLeft.fw := by
  have told : s.tellLeft.fw = s.flagLeft.fw := by
    unfold State.tellLeft
    split
    · rfl
    · exact (State.moduleEvent_frame _ _ _ _ _).frame .fw (by decide)
  refine (forL_keeps State.fw _ _ _ fun b t => ?_).trans told
  exact (State.handOverDue_frame t b).frame .fw (by decide)

theorem State.endBroadcast_fw (s : State) : s.endBroadcast.fw = s.broadcastOver s.flagLeft.fw s.tellBerths.anyHandOver := by
  rw [State.endBroadcast_eq, State.tellBerths_fw]

theorem State.endBroadcast_raises (some : s.fw.gaps ≠ []) :
    Raises s s.endBroadcast 0x0989 [0xFF, (s.fw.gaps.map Prod.fst).length, 0] := by
  have raised := (State.raises_moduleEvent s.flagLeft 0x0989 (s.fw.gaps.map Prod.fst).length 0 []).of_out_eq
    (s := s) rfl
  have told : s.tellLeft = s.flagLeft.moduleEvent 0x0989 (s.fw.gaps.map Prod.fst).length 0 := if_neg (by simpa using some)
  rw [← told] at raised
  have tells : Change [.out, .berths, .host, .mbox] s.tellLeft s.tellBerths :=
    Change.forL Change.refl fun b t kept => kept.tr (State.handOverDue_frame t b) (by decide)
  exact raised.grow tells.grows

theorem State.tellBerths_absent (absent : ∀ k < 24, (s.berth k).life = .absent ∧ (s.berth k).handOver = false)
    (all : s.fw.gaps = []) : s.tellBerths.anyHandOver = false := by
  have none : s.berthsNow = [] := List.filter_eq_nil_iff.2 fun k inside => by simp [(absent k (List.mem_range.1 inside)).1]
  have told : s.tellBerths = s.flagLeft := by
    unfold State.tellBerths State.tellLeft
    rw [none, all]
    rfl
  rw [told]
  refine List.any_eq_false.2 fun k inside => ?_
  have kept : (s.flagLeft.berth k).handOver = (s.berth k).handOver := rfl
  rw [kept, (absent k (List.mem_range.1 inside)).2]
  decide

/-! Hand-over. -/

/-- The state with a berth on the new image. -/
def State.switchBerth (s : State) (b : Nat) : State :=
  let t := s.modBerth b fun z => { z with handOver := false, withhold := false }
  let t := { t with fw := { t.fw with berth := tset t.fw.berth b t.fw.base } }
  { t with fw := { t.fw with st := if t.fw.st = 3 ∧ !t.anyHandOver then (if t.fw.staged.isSome then 1 else 0) else t.fw.st } }

theorem fwHandover_runs (due : (s.berth b).handOver = true) (stands : (s.berth b).withhold = true ∨ (s.berth b).held = true)
    (active : (s.berth b).life = .active) (idle : s.cmdRuns b = false) (first : (s.snap b).phase ≠ 1) (second : (s.snap b).phase ≠ 2) :
    exec (.fwHandover b) s = .next ((s.switchBerth b).berthEvent b 0x098A b 0) := by
  refine congrArg Host.Outcome.next (if_neg ?_)
  rintro (late | moving | other | busy | waits | captures)
  · simp [due] at late
  · rcases stands with withhold | held
    · simp [withhold] at moving
    · simp [held] at moving
  · exact other active
  · simp [idle] at busy
  · exact first waits
  · exact second captures

theorem fwHandover_idle (none : (s.berth b).handOver = false) : exec (.fwHandover b) s = .next s :=
  congrArg Host.Outcome.next (if_pos (.inl (by simp [none])))

theorem handoverDelayExpiry_idle (none : (s.berth b).handOver = false) : exec (.handoverDelayExpiry b) s = .next s :=
  congrArg Host.Outcome.next (if_neg (by simp [none]))

theorem handoverDelayExpiry_reports (due : (s.berth b).handOver = true) :
    exec (.handoverDelayExpiry b) s = .next (s.berthEvent b 0x098B b 0) :=
  congrArg Host.Outcome.next (if_pos due)

end

/-- Settles O38: each command through what it leaves of the firmware's state; at a broadcast's end the berths' own hand-overs change
nothing of it. -/
theorem firmwareIsRolledOut : Obligations.FirmwareIsRolledOut := by
  refine fun s image i gaps b => ⟨fun up => ⟨fun good => ?staged, fun bad => ?refused, fwImageCode_length, fun none => ?noBroadcast,
      fun none => ?noInstall, fun staged quiet idle => ⟨fun core signed fresh => ?begins, fun other => ?foreign,
      fun keeper mirrors => ?installs⟩, fun sends => ?aborted⟩,
    fun sends => ⟨fun all => ?complete, fun some early => ?again, fun some last => ?exhausted⟩,
    fun due stands active idle first second => ?handsOver, fun none => ⟨fwHandover_idle none, handoverDelayExpiry_idle none⟩,
    fun due => ?delayed⟩
  case staged =>
    obtain ⟨fw, -, answers⟩ := State.byDict_answers up (index := 0xA010) (sub := 0) (f := fun t => t.stageImage image) (stageImage_taken good)
    exact ⟨_, rfl, congrArg FwSt.staged fw, answers⟩
  case refused =>
    obtain ⟨fw, -, answers⟩ := State.byDict_answers up (index := 0xA010) (sub := 0) (f := fun t => t.stageImage image) (stageImage_refused bad)
    exact ⟨_, rfl, fw, answers⟩
  case noBroadcast =>
    obtain ⟨fw, -, answers⟩ := State.byDict_answers up (index := 0xA011) (sub := 0) (fwBroadcast_empty none)
    exact ⟨_, rfl, fw, answers⟩
  case noInstall =>
    obtain ⟨fw, -, answers⟩ := State.byDict_answers up (index := 0xA011) (sub := 0) (fwInstall_empty none)
    exact ⟨_, rfl, fw, answers⟩
  case begins =>
    obtain ⟨fw, -, answers⟩ := State.byDict_answers up (index := 0xA011) (sub := 0) (fwBroadcast_begins staged quiet idle core signed fresh)
    refine ⟨_, rfl, congrArg FwSt.st fw, congrArg FwSt.rounds fw, congrArg FwSt.target fw, fun d die k unit => ?_, answers⟩
    refine (congrArg (fun x : FwSt => tget x.gaps [] (32 * d + k)) fw).trans ?_
    exact tget_map_const receivers [] (imageChunks i) (mem_receivers die unit)
  case foreign =>
    obtain ⟨fw, -, answers⟩ := State.byDict_answers up (index := 0xA011) (sub := 0) (fwBroadcast_foreign staged quiet idle other)
    exact ⟨_, rfl, fw, answers⟩
  case installs =>
    obtain ⟨fw, lk, answers⟩ := State.byDict_answers up (index := 0xA011) (sub := 0) (fwInstall_begins staged quiet idle keeper mirrors)
    exact ⟨_, rfl, congrArg FwSt.st fw, congrArg LkSt.standby lk, congrArg LkSt.installing lk, answers⟩
  case aborted =>
    obtain ⟨fw, -, answers⟩ := State.byDict_answers up (index := 0xA011) (sub := 0) (fwAbort_stops sends)
    exact ⟨_, rfl, congrArg FwSt.st fw, congrArg FwSt.gaps fw, (congrArg FwSt.held fw :), answers⟩
  case complete =>
    have left := roundLeft_none all
    have fw := (s.noteRound gaps).endBroadcast_fw
    have none : (s.noteRound gaps).fw.gaps = [] := left
    have keeps : (s.noteRound gaps).keepsImage = (s.stagedVersion != s.fw.target) := by
      unfold State.keepsImage
      rw [none]
      rfl
    have got : s.roundGot gaps = s.fw.gaps.map Prod.fst := by
      unfold State.roundGot
      rw [left]
      exact List.filter_eq_self.2 fun _ _ => rfl
    refine ⟨_, fwRoundEnd_ends sends (.inl left), ?_⟩
    rw [fw]
    refine ⟨rfl, rfl, ?_, ?_, fun p listed => ?_, fun absent same => ?_⟩
    · exact congrArg (fun l : List (Nat × List Nat) => (l.map Prod.fst).foldl _ _) none
    · unfold State.broadcastOver
      rw [keeps]
      by_cases same : s.stagedVersion = s.fw.target <;> simp [same, State.flagLeft, State.noteRound]
    · have held : (s.noteRound gaps).flagLeft.fw.held = (s.noteRound gaps).fw.held :=
        congrArg (fun l : List (Nat × List Nat) => (l.map Prod.fst).foldl _ _) none
      refine (congrArg (fun t => tget t 0 p.1) held).trans ?_
      refine tget_foldl_const (s.roundGot gaps) 0 s.fw.target s.fw.held p.1 (.inl ?_)
      rw [got]
      exact List.mem_map.2 ⟨p, listed, rfl⟩
    · rw [State.tellBerths_absent (s := s.noteRound gaps) absent none]
      unfold State.broadcastOver
      rw [keeps, same]
      simp
  case again =>
    exact ⟨_, fwRoundEnd_repeats sends (roundLeft_some some) early, sends, rfl, rfl, rfl⟩
  case exhausted =>
    have left := roundLeft_some some
    have fw := (s.noteRound gaps).endBroadcast_fw
    have raised := State.endBroadcast_raises (s := s.noteRound gaps) left
    refine ⟨_, _, fwRoundEnd_ends sends (.inr (by omega)), ?_, ?_, ?_, raised.of_out_eq rfl⟩
    · rw [fw]
      rfl
    · rw [fw]
      rfl
    · rw [List.length_map]
      exact List.length_pos_iff.2 left
  case handsOver =>
    have raised := State.raises_berthEvent (s.switchBerth b) b 0x098A b 0 []
    have told := State.berthEvent_frame (s.switchBerth b) b 0x098A b 0 []
    have berth := (State.berth_congr (told.frame .berths (by decide)) b).trans
      (State.berth_modBerth s b fun z => { z with handOver := false, withhold := false })
    have fw : ((s.switchBerth b).berthEvent b 0x098A b 0).fw = (s.switchBerth b).fw := told.frame .fw (by decide)
    have mem : ((s.switchBerth b).berthEvent b 0x098A b 0).mem = s.mem := told.frame .mem (by decide)
    refine ⟨_, fwHandover_runs due stands active idle first second, ?_, ?_, ?_, raised.of_out_eq rfl, mem⟩
    · rw [State.fwOf, fw]
      exact tget_tset_self ..
    · rw [berth]
    · rw [berth]
  case delayed =>
    have told := State.berthEvent_frame s b 0x098B b 0 []
    exact ⟨_, handoverDelayExpiry_reports due, State.raises_berthEvent s b 0x098B b 0 [], told.frame .berths (by decide),
      told.frame .fw (by decide)⟩

end Sys2Proof.Machine
end

section
/-!
Lockages, and the slots that they fill: capture, digests, replicas (18 R542-R550, R558, R560).
-/

namespace Sys2Proof.Machine

section
variable {s : State} {b k : Nat}

/-! Slots and their records. -/

theorem State.snap_of_snaps {t : State} (same : t.snaps = s.snaps) (b : Nat) : t.snap b = s.snap b := by
  rw [State.snap, State.snap, same]

theorem State.slot_of_snaps {t : State} (same : t.snaps = s.snaps) (b k : Nat) : t.slot b k = s.slot b k := by
  rw [State.slot, State.slot, State.snap_of_snaps same]

theorem State.snapSet_of_dict {t : State} (same : t.dict = s.dict) (b sub : Nat) : t.snapSet b sub = s.snapSet b sub := by
  rw [State.snapSet, State.snapSet, State.setting, State.setting, same]

@[simp] theorem State.snap_modSnap (s : State) (b : Nat) (f : SnapSt → SnapSt) : (s.modSnap b f).snap b = f (s.snap b) := tget_tset_self ..

/-- The snapshots of a berth with a slot's record changed. -/
def SnapSt.put (y : SnapSt) (k : Nat) (x : SlotSt) : SnapSt := { y with slots := tset y.slots k x }

@[simp] theorem SnapSt.put_slot (y : SnapSt) (k : Nat) (x : SlotSt) : tget (y.put k x).slots {} k = x := tget_tset_self ..

theorem State.putSlot_snaps (s : State) (b k : Nat) (x : SlotSt) : (s.putSlot b k x).snaps = (s.modSnap b fun y => y.put k x).snaps := by
  refine (forL_keeps State.snaps _ _ _ ?_).trans rfl
  exact fun _ _ => rfl

@[simp] theorem State.snap_putSlot (s : State) (b k : Nat) (x : SlotSt) : (s.putSlot b k x).snap b = (s.snap b).put k x :=
  (State.snap_of_snaps (State.putSlot_snaps s b k x) b).trans (State.snap_modSnap ..)

@[simp] theorem State.slot_putSlot (s : State) (b k : Nat) (x : SlotSt) : (s.putSlot b k x).slot b k = x := by
  rw [State.slot, State.snap_putSlot, SnapSt.put_slot]

theorem State.putSlot_dict (s : State) (b k : Nat) (x : SlotSt) : (s.putSlot b k x).dict = s.dict :=
  (State.putSlot_frame s b k x).frame .dict (by decide)

theorem State.putSlot_out (s : State) (b k : Nat) (x : SlotSt) : (s.putSlot b k x).out = s.out :=
  (State.putSlot_frame s b k x).frame .out (by decide)

theorem State.putSlot_berths (s : State) (b k : Nat) (x : SlotSt) : (s.putSlot b k x).berths = s.berths :=
  (State.putSlot_frame s b k x).frame .berths (by decide)

theorem State.putSlot_lk (s : State) (b k : Nat) (x : SlotSt) : (s.putSlot b k x).lk = s.lk :=
  (State.putSlot_frame s b k x).frame .lk (by decide)

theorem State.berthEvent_snaps (s : State) (b code x y : Nat) (p : Bytes) : (s.berthEvent b code x y p).snaps = s.snaps :=
  (State.berthEvent_frame s b code x y p).frame .snaps (by decide)

/-! The writes of a berth's snapshot entries. -/

/-- A write to an entry answers its code and leaves the state of the write, but for what left the module. -/
theorem byDict_next (up : DictUp s) {index sub code : Nat} {f : State → Nat × State} {t : State} (writes : f s = (code, t)) :
    s.byDict index sub f = t.emit { kind := .answer, port := entryKey index sub, args := [code] } := by
  rw [State.byDict_of_up up, writes]

/-! The snapshot area. -/

section
variable {sub v : Nat}

theorem snapshotAreaWrite_next (up : DictUp s) (low : 3 ≤ sub) (high : sub ≤ 5) (there : (s.berth b).life ≠ .absent) {code : Nat}
    {t : State} (writes : s.writeArea b sub v = (code, t)) : exec (.snapshotAreaWrite b sub v) s =
      .next (t.emit { kind := .answer, port := entryKey (0x4300 + b) sub, args := [code] }) :=
  congrArg Host.Outcome.next ((if_pos ⟨low, high, there⟩).trans (byDict_next (f := fun t => t.writeArea b sub v) up writes))

theorem writeArea_taken (good : s.areaCode b sub v = 0) :
    s.writeArea b sub v = (0, (s.putSetting (0x4300 + b) sub v).emptySlots b) := by
  unfold State.writeArea
  extract_lets code
  rw [if_neg fun bad => bad good, show code = 0 from good]

theorem areaCode_refused (bad : s.areaCode b sub v ≠ 0) : s.areaCode b sub v = 0x0A00 := by
  unfold State.areaCode at *
  extract_lets at *
  split
  · rfl
  case isFalse passes => exact absurd (if_neg passes) bad

theorem writeArea_refused (bad : s.areaCode b sub v ≠ 0) : s.writeArea b sub v = (0x0A00, s) := by
  unfold State.writeArea
  extract_lets code
  rw [if_pos bad, show code = 0x0A00 from areaCode_refused bad]

end

/-! Lockages. -/

/-- The state with a lockage ended, told of, and what waited for its end begun. -/
def State.leaveLockage (s : State) (b code x y : Nat) : State := ((s.endLockage b).berthEvent b code x y).nextMode b

theorem State.leaveLockage_raises (s : State) (b code x y : Nat) : Raises s (s.leaveLockage b code x y) code [b, x, y] := by
  have raised := State.raises_berthEvent (s.endLockage b) b code x y []
  exact (raised.of_out_eq (s := s) rfl).grow (State.nextMode_frame _ _).grows

/-- With nothing waiting, the berth is open again and nothing else has changed. -/
theorem State.leaveLockage_parts (unasked : Unasked s b) (code x y : Nat) :
    (s.leaveLockage b code x y).snap b = { s.snap b with phase := 0, lockage := none, copied := false } ∧
      ((s.leaveLockage b code x y).berth b).boundary = false ∧ (s.leaveLockage b code x y).mem = s.mem := by
  obtain ⟨noReset, noDusk⟩ := unasked
  have told := State.berthEvent_frame (s.endLockage b) b code x y []
  have berth : ((s.endLockage b).berthEvent b code x y).berth b = { s.berth b with boundary := false } :=
    (State.berth_congr (told.frame .berths (by decide)) b).trans (State.berth_modBerth ..)
  have idle : s.leaveLockage b code x y = (s.endLockage b).berthEvent b code x y :=
    State.nextMode_idle ((congrArg BerthSt.wantReset berth).trans noReset) ((congrArg BerthSt.wantDusk berth).trans noDusk)
  rw [idle]
  refine ⟨?_, congrArg BerthSt.boundary berth, told.frame .mem (by decide)⟩
  exact (State.snap_of_snaps (told.frame .snaps (by decide)) b).trans
    (State.snap_modSnap s b fun y => { y with phase := 0, lockage := none, copied := false })

/-- The state with a lockage's copy noted and its record written. -/
def State.openCapture (s : State) (b k : Nat) : State :=
  (s.modSnap b fun z => { z with copied := true }).putSlot b k (s.captured b)

/-- The state with a lockage captured and copied. -/
def State.capture (s : State) (b k : Nat) : State :=
  forL ((s.berth b).dies.map fun d => (d, s.diePieces b d)) (s.openCapture b k) fun p t =>
    t.copyDie b k p.1 (s.captured b) (s.stateValues b) p.2

theorem State.capture_snap (s : State) (b k : Nat) : (s.capture b k).snap b = { s.snap b with copied := true }.put k (s.captured b) := by
  have copied : (s.capture b k).snaps = (s.openCapture b k).snaps :=
    forL_keeps State.snaps _ _ _ fun p t => (State.copyDie_frame t b k p.1 (s.captured b) (s.stateValues b) p.2).frame .snaps (by decide)
  refine (State.snap_of_snaps copied b).trans ((State.snap_putSlot ..).trans ?_)
  rw [State.snap_modSnap]

section
variable (locks : (s.snap b).lockage = some k) (first : (s.snap b).phase = 1)
include locks first

omit first in
theorem lockageCopy_waits (runs : s.cmdRuns b = true) : exec (.lockageCopy b) s = .next s := by
  refine congrArg Host.Outcome.next ?_
  dsimp only
  rw [locks]
  exact if_pos (.inr (.inr runs))

theorem lockageCopy_refused (fresh : (s.snap b).copied = false) (idle : s.cmdRuns b = false) {c : Nat}
    (code : (s.lockageCodes b k).min? = some c) : exec (.lockageCopy b) s = .next (s.leaveLockage b 0x0A41 k c) := by
  refine congrArg Host.Outcome.next ?_
  dsimp only
  rw [locks]
  refine (if_neg ?_).trans ?_
  · simp [first, fresh, idle]
  · rw [code]
    rfl

theorem lockageCopy_captures (fresh : (s.snap b).copied = false) (idle : s.cmdRuns b = false) (good : s.lockageCodes b k = []) :
    exec (.lockageCopy b) s = .next (s.capture b k) := by
  refine congrArg Host.Outcome.next ?_
  dsimp only
  rw [locks]
  refine (if_neg ?_).trans ?_
  · simp [first, fresh, idle]
  · rw [good]
    rfl

theorem lockageRelease_ends (copied : (s.snap b).copied = true) (v : Nat) : exec (.lockageRelease b v) s =
    .next ((s.putSlot b k { s.slot b k with stopUs := v % 2 ^ 32 }).leaveLockage b 0x0A40 k (v % 2 ^ 32)) := by
  refine congrArg Host.Outcome.next ?_
  dsimp only
  rw [locks]
  refine (if_neg ?_).trans rfl
  simp [first, copied]

end

theorem lockage_idle (none : (s.snap b).lockage = none) (v : Nat) :
    exec (.lockageCopy b) s = .next s ∧ exec (.lockageRelease b v) s = .next s := by
  constructor <;>
  · refine congrArg Host.Outcome.next ?_
    dsimp only
    rw [none]

/-! Comparison. -/

theorem State.compareSlot_alone (none : (s.slot b k).replica = none) : s.compareSlot b k = s := by
  unfold State.compareSlot
  extract_lets x
  rw [show x.replica = .none from none]

theorem State.compareSlot_early (early : (s.slot b k).st < 2) : s.compareSlot b k = s := by
  unfold State.compareSlot
  extract_lets x
  split
  · exact if_neg fun done => absurd done.1 (Nat.not_le_of_lt early)
  · rfl

/-- What a comparison leaves in a slot and reports. -/
def Compared (s u : State) (b k digest tensor : Nat) : Prop :=
  if digest = tensor then (u.slot b k).st = 3 ∧ Raises s u 0x0A42 [b, k, 0] else (u.slot b k).st = 4 ∧ Raises s u 0x0A43 [b, k, 0]

/-- A slot with its digest and a replica's is compared while a lockkeeper runs. -/
theorem State.compareSlot_compared {n d : Nat} (replica : (s.slot b k).replica = some (n, d)) (low : 2 ≤ (s.slot b k).st)
    (high : (s.slot b k).st ≤ 4) (active : s.lk.active ≠ none) : Compared s (s.compareSlot b k) b k d (s.slot b k).tensor := by
  unfold State.compareSlot
  extract_lets x
  rw [show x.replica = some (n, d) from replica]
  dsimp only
  rw [if_pos ⟨low, high, Option.isSome_iff_ne_none.2 active⟩]
  have slot : ∀ st code, (((s.putSlot b k { x with st := st, replica := none }).berthEvent b code k 0).slot b k).st = st :=
    fun st code => by rw [State.slot_of_snaps (State.berthEvent_snaps ..), State.slot_putSlot]
  have raised : ∀ st code, Raises s ((s.putSlot b k { x with st := st, replica := none }).berthEvent b code k 0) code [b, k, 0] :=
    fun st code => (State.raises_berthEvent _ b code k 0 []).of_out_eq (State.putSlot_out ..)
  unfold Compared
  by_cases same : d = (s.slot b k).tensor
  · rw [if_pos same, decide_eq_true (show d = x.tensor from same)]
    exact ⟨slot 3 _, raised 3 _⟩
  · rw [if_neg same, decide_eq_false (show ¬ d = x.tensor from same)]
    exact ⟨slot 4 _, raised 4 _⟩

theorem Compared.of_out {s s' u : State} {digest tensor : Nat} (out : s'.out = s.out) (compared : Compared s' u b k digest tensor) :
    Compared s u b k digest tensor := by
  unfold Compared at *
  split at compared
  case isTrue same => rw [if_pos same]; exact ⟨compared.1, compared.2.of_out_eq out⟩
  case isFalse other => rw [if_neg other]; exact ⟨compared.1, compared.2.of_out_eq out⟩

theorem Compared.emit {s u : State} {digest tensor : Nat} (compared : Compared s u b k digest tensor) (o : Out) :
    Compared s (u.emit o) b k digest tensor := by
  unfold Compared at *
  split at compared
  case isTrue same => rw [if_pos same]; exact ⟨compared.1, Raises.emit o compared.2⟩
  case isFalse other => rw [if_neg other]; exact ⟨compared.1, Raises.emit o compared.2⟩

/-! Digests. -/

/-- A slot's record with its digests. -/
def State.digested (s : State) (b k : Nat) : SlotSt :=
  { s.slot b k with tensor := s.tensorDigest b k (s.slot b k).compare, state := s.stateDigest b k }

/-- The state with a slot complete, and compared where a replica's digest is there. -/
def State.completeSlot (s : State) (b k : Nat) : State := (s.putSlot b k { s.digested b k with st := 2 }).compareSlot b k

section
variable (captured : (s.slot b k).st = 1) (copied : ¬((s.snap b).phase = 1 ∧ (s.snap b).lockage = some k))
include captured copied

theorem snapshotDigestDone_invalid (moved : (s.slot b k).inflight = true) : exec (.snapshotDigestDone b k) s =
    .next ((s.putSlot b k { s.digested b k with st := 5 }).berthEvent b 0x0A44 k 0) := by
  refine congrArg Host.Outcome.next ((if_neg ?_).trans (if_pos moved))
  rintro (other | locked)
  · exact other captured
  · exact copied locked

theorem snapshotDigestDone_complete (still : (s.slot b k).inflight = false) : exec (.snapshotDigestDone b k) s =
    .next (if (s.completeSlot b k).snapSet b 0xE = 1 then (s.completeSlot b k).startDrain b k else s.completeSlot b k) := by
  refine congrArg Host.Outcome.next ((if_neg ?_).trans (if_neg ?_))
  · rintro (other | locked)
    · exact other captured
    · exact copied locked
  · exact fun moved => absurd (still.symm.trans moved) (by decide)

end

theorem State.completeSlot_snapSet (s : State) (b k sub : Nat) : (s.completeSlot b k).snapSet b sub = s.snapSet b sub :=
  State.snapSet_of_dict (((State.compareSlot_frame _ _ _).frame .dict (by decide)).trans (State.putSlot_dict ..)) b sub

/-! Drains start. -/

theorem State.startDrain_slot (s : State) (b k : Nat) :
    (s.startDrain b k).slot b k = { s.slot b k with draining := true, acked := [] } := by
  have sent : (s.startDrain b k).snaps = (s.putSlot b k { s.slot b k with draining := true, acked := [] }).snaps :=
    forN_keeps State.snaps _ _ _ fun pos t =>
      (State.sendRun_frame t b k pos 0 (t.runReach b k pos)).frame .snaps (by decide)
  exact (State.slot_of_snaps sent b k).trans (State.slot_putSlot ..)

/-! Replicas. -/

section
variable {step digest : Nat}

theorem writeReplica_refused (bad : s.snapSet b 5 ≤ k ∨ (s.slot b k).st = 0 ∨ 5 ≤ (s.slot b k).st ∨ (s.slot b k).stepSeq ≠ step) :
    s.writeReplica b k step digest = (0x0A02, s) := if_pos bad

/-- The state with a replica's digest noted. -/
def State.noteReplica (s : State) (b k step digest : Nat) : State :=
  s.modSnap b fun y => y.put k { s.slot b k with replica := some (step, digest) }

theorem writeReplica_taken (listed : k < s.snapSet b 5) (known : (s.slot b k).stepSeq = step) (low : 1 ≤ (s.slot b k).st)
    (high : (s.slot b k).st ≤ 4) : s.writeReplica b k step digest = (0, (s.noteReplica b k step digest).compareSlot b k) := by
  refine if_neg ?_
  rintro (beyond | empty | invalid | other)
  · omega
  · omega
  · omega
  · exact other known

theorem State.noteReplica_slot : (s.noteReplica b k step digest).slot b k = { s.slot b k with replica := some (step, digest) } := by
  unfold State.noteReplica
  rw [State.slot, State.snap_modSnap, SnapSt.put_slot]

theorem replicaDigestWrite_next (up : DictUp s) (small : k < 4) (there : (s.berth b).life ≠ .absent) (word : step < 2 ^ 64)
    {digest : BitVec 128} {code : Nat} {t : State} (writes : s.writeReplica b k step digest.toNat = (code, t)) :
    exec (.replicaDigestWrite b k step digest) s =
      .next (t.emit { kind := .answer, port := entryKey (0x4300 + b) (0x18 + k), args := [code] }) := by
  refine congrArg Host.Outcome.next ((if_pos ⟨small, there⟩).trans ?_)
  refine byDict_next (f := fun t => t.writeReplica b k (step % 2 ^ 64) digest.toNat) up ?_
  rw [Nat.mod_eq_of_lt word]
  exact writes

end

end

theorem lockagesCaptureState : LockagesCaptureState := by
  refine fun s b k sub v => ⟨fun up low high there => ⟨fun good => ?taken, fun bad => ?refused⟩,
    fun locks first fresh => ⟨fun runs => lockageCopy_waits locks runs, fun idle => ⟨fun c code => ?checked, fun good => ?captured⟩⟩,
    fun locks first copied => ?released, fun none => lockage_idle none v⟩
  case taken =>
    have empty : (((s.putSetting (0x4300 + b) sub v).emptySlots b).snap b).slots = [] := congrArg SnapSt.slots (tget_tset_self ..)
    exact ⟨_, snapshotAreaWrite_next up low high there (writeArea_taken good), State.setting_putSetting .., empty, answers_emit ..⟩
  case refused =>
    exact ⟨_, snapshotAreaWrite_next up low high there (writeArea_refused bad), rfl, rfl, answers_emit ..⟩
  case checked =>
    refine ⟨_, lockageCopy_refused locks first fresh idle code, State.leaveLockage_raises .., fun unasked => ?_⟩
    obtain ⟨snap, open', mem⟩ := State.leaveLockage_parts unasked 0x0A41 k c
    refine ⟨?_, ?_, ?_, open', mem⟩
    · rw [snap]
    · rw [snap]
    · rw [State.slot, snap, State.slot]
  case captured =>
    have snap := s.capture_snap b k
    refine ⟨_, s.captured b, lockageCopy_captures locks first fresh idle good, ?_, ?_, ?_, rfl, rfl, rfl, rfl, rfl, rfl, rfl, rfl⟩
    · rw [State.slot, snap, SnapSt.put_slot]
    · rw [snap]
      rfl
    · rw [snap]
      exact first
  case released =>
    let t := s.putSlot b k { s.slot b k with stopUs := v % 2 ^ 32 }
    have raised := t.leaveLockage_raises b 0x0A40 k (v % 2 ^ 32)
    refine ⟨_, lockageRelease_ends locks first copied v, raised.of_out_eq (State.putSlot_out ..), fun unasked => ?_⟩
    have unasked' : Unasked t b := by
      unfold Unasked
      rw [State.berth_congr (State.putSlot_berths s b k _) b]
      exact unasked
    obtain ⟨snap, open', -⟩ := State.leaveLockage_parts unasked' 0x0A40 k (v % 2 ^ 32)
    refine ⟨?_, ?_, ?_, open'⟩
    · rw [snap]
    · rw [snap]
    · rw [State.slot, snap]
      exact State.slot_putSlot s b k _

theorem slotsAreDigestedAndCompared : SlotsAreDigestedAndCompared := by
  refine fun s b k step digest => ⟨fun captured copied => ⟨fun moved => ?invalid, fun still kept => ⟨fun none => ?complete,
      fun n d replica active => ?compared⟩, fun still none asked => ?drains⟩,
    fun up small there word => ⟨fun bad => ?refused, fun listed known => ⟨fun early => ?early, fun low high => ?late⟩⟩⟩
  case invalid =>
    have raised := State.raises_berthEvent (s.putSlot b k { s.digested b k with st := 5 }) b 0x0A44 k 0 []
    refine ⟨_, snapshotDigestDone_invalid captured copied moved, ?_, raised.of_out_eq (State.putSlot_out ..)⟩
    rw [State.slot_of_snaps (State.berthEvent_snaps ..), State.slot_putSlot]
  case complete =>
    have run := snapshotDigestDone_complete captured copied still
    rw [State.completeSlot_snapSet, if_neg kept] at run
    have alone : s.completeSlot b k = s.putSlot b k { s.digested b k with st := 2 } :=
      State.compareSlot_alone (by rw [State.slot_putSlot]; exact none)
    rw [alone] at run
    refine ⟨_, run, ?_⟩
    rw [State.slot_putSlot]
    exact ⟨rfl, rfl, rfl, State.putSlot_out ..⟩
  case compared =>
    have run := snapshotDigestDone_complete captured copied still
    rw [State.completeSlot_snapSet, if_neg kept] at run
    have slot := State.slot_putSlot s b k { s.digested b k with st := 2 }
    have compared := State.compareSlot_compared (s := s.putSlot b k { s.digested b k with st := 2 }) (n := n) (d := d)
      (by rw [slot]; exact replica) (Nat.le_of_eq (congrArg SlotSt.st slot).symm) (by rw [slot]; exact (by decide : 2 ≤ 4))
      (by rw [State.putSlot_lk]; exact active)
    rw [slot] at compared
    exact ⟨_, run, compared.of_out (State.putSlot_out ..)⟩
  case drains =>
    have run := snapshotDigestDone_complete captured copied still
    rw [State.completeSlot_snapSet, if_pos asked] at run
    have alone : s.completeSlot b k = s.putSlot b k { s.digested b k with st := 2 } :=
      State.compareSlot_alone (by rw [State.slot_putSlot]; exact none)
    refine ⟨_, run, ?_⟩
    rw [State.startDrain_slot, alone, State.slot_putSlot]
    exact ⟨rfl, rfl⟩
  case refused =>
    exact ⟨_, replicaDigestWrite_next up small there word (writeReplica_refused bad), rfl, answers_emit ..⟩
  case early =>
    have run := replicaDigestWrite_next up small there word
      (writeReplica_taken (digest := digest.toNat) listed known (by omega) (by omega))
    have slot := State.noteReplica_slot (s := s) (b := b) (k := k) (step := step) (digest := digest.toNat)
    rw [State.compareSlot_early (by rw [slot]; exact early ▸ (by decide : 1 < 2))] at run
    refine ⟨_, run, ?_⟩
    have same : ((s.noteReplica b k step digest.toNat).emit
      { kind := .answer, port := entryKey (0x4300 + b) (0x18 + k), args := [0] }).slot b k = _ := slot
    rw [same]
    exact ⟨early, rfl, answers_emit ..⟩
  case late =>
    have run := replicaDigestWrite_next up small there word
      (writeReplica_taken (digest := digest.toNat) listed known (by omega) (by omega))
    have slot := State.noteReplica_slot (s := s) (b := b) (k := k) (step := step) (digest := digest.toNat)
    have compared := State.compareSlot_compared (s := s.noteReplica b k step digest.toNat) (n := step) (d := digest.toNat)
      (by rw [slot]) (by rw [slot]; exact low) (by rw [slot]; exact high) up.1
    rw [slot] at compared
    exact ⟨_, run, answers_emit .., (compared.of_out (s := s) rfl).emit _⟩

/-- Settles O39: captures, digests and comparisons through what they leave in a slot's record. -/
theorem lockagesAreTakenAndDigested : Obligations.LockagesAreTakenAndDigested := ⟨lockagesCaptureState, slotsAreDigestedAndCompared⟩

end Sys2Proof.Machine
end

section
/-!
Drains and fills of snapshot slots (18 R551-R553, R558, R559).
-/

namespace Sys2Proof.Machine

section
variable {s : State} {b k pos : Nat}

/-! The writes to a berth's command entry. -/

section
variable (listed : s.named b < s.snapSet b 5)
include listed

theorem snapDrain_starts (low : 2 ≤ (s.slot b (s.named b)).st) (high : (s.slot b (s.named b)).st ≤ 4)
    (idle : (s.slot b (s.named b)).draining = false) : s.snapDrain b = (0, s.startDrain b (s.named b)) := by
  refine (if_neg ?_).trans (if_neg ?_)
  · rintro (beyond | early | late)
    · exact absurd listed (Nat.not_lt.2 beyond)
    · exact absurd low (Nat.not_le.2 early)
    · exact absurd high (Nat.not_le.2 late)
  · exact fun drains => absurd (idle.symm.trans drains) (by decide)

theorem snapAbort_stops (drains : (s.slot b (s.named b)).draining = true) :
    s.snapAbort b = (0, s.putSlot b (s.named b) { s.slot b (s.named b) with draining := false, acked := [] }) := by
  refine (if_neg (Nat.not_le.2 listed)).trans (if_neg ?_)
  exact fun idle => absurd (drains.symm.trans ((Bool.not_eq_true' _).mp idle)) (by decide)

theorem snapAbort_idle (idle : (s.slot b (s.named b)).draining = false) : s.snapAbort b = (0x0A01, s) := by
  refine (if_neg (Nat.not_le.2 listed)).trans (if_pos ?_)
  exact (Bool.not_eq_true' _).mpr idle

theorem snapEmpty_refused (drains : (s.slot b (s.named b)).draining = true) : s.snapEmpty b = (0x0A01, s) :=
  (if_neg (Nat.not_le.2 listed)).trans (if_pos (.inl drains))

section
variable (idle : (s.slot b (s.named b)).draining = false) (free : (s.snap b).phase = 0 ∨ (s.snap b).phase = 3)
include idle free

omit listed in
/-- A slot that drains, a lockage fills or a restore reads is in use; no other is. -/
theorem slot_free : ¬((s.slot b (s.named b)).draining = true ∨ ((s.snap b).phase = 1 ∧ (s.snap b).lockage = some (s.named b)) ∨
    ((s.snap b).phase = 2 ∧ (s.snap b).restoring = some (s.named b))) := by
  rintro (drains | ⟨first, -⟩ | ⟨second, -⟩)
  · exact absurd (idle.symm.trans drains) (by decide)
  · omega
  · omega

theorem snapEmpty_empties : s.snapEmpty b = (0, s.modSnap b fun z => { z with slots := tdel z.slots (s.named b) }) :=
  (if_neg (Nat.not_le.2 listed)).trans (if_neg (slot_free idle free))

theorem snapFill_begins (active : (s.berth b).life = .active) (other : (s.slot b (s.named b)).st ≠ 6) :
    s.snapFill b = (0, s.modSnap b fun z => z.put (s.named b) { st := 6 }) := by
  refine (if_neg (Nat.not_le.2 listed)).trans (if_neg ?_)
  rintro (absent | drains | fills | inUse)
  · exact absent active
  · exact slot_free idle free (.inl drains)
  · exact other fills
  · exact slot_free idle free (.inr inUse)

end
end

theorem snapDrain_refused (bad : (s.slot b (s.named b)).st < 2 ∨ 4 < (s.slot b (s.named b)).st) : s.snapDrain b = (0x0A02, s) :=
  if_pos (.inr bad)

/-! The frames of a run. -/

/-- A drain frame as it leaves by a port. -/
def State.drainOut (s : State) (b k pos kind off total : Nat) (payload : Bytes) (port : Nat) : Out :=
  { kind := .stream, port := port, args := [0x100 + kind, b, k, pos]
    data := drainFrame kind (s.snapSet b 0xD) b k pos (s.slot b k).stepSeq off total payload }

/-- With a port that carries drains a frame leaves. -/
theorem State.sendDrain_leaves (ports : s.drainPorts ≠ []) (b k pos kind off total : Nat) (payload : Bytes) :
    ∃ o, s.sendDrain b k pos kind off total payload = s.emit o ∧ o.kind = .stream ∧ o.args = [0x100 + kind, b, k, pos] := by
  have inside : off / 8192 % s.drainPorts.length < s.drainPorts.length := Nat.mod_lt _ (List.length_pos_iff.2 ports)
  refine ⟨s.drainOut b k pos kind off total payload s.drainPorts[off / 8192 % s.drainPorts.length], ?_, rfl, rfl⟩
  unfold State.sendDrain
  extract_lets ports'
  rw [List.getElem?_eq_getElem inside]
  rfl

/-- Between two states that many stream frames left the module. -/
def Streams (s u : State) (n : Nat) : Prop :=
  ∃ l, u.out = s.out ++ l ∧ l.length = n ∧ ∀ o ∈ l, o.kind = .stream

theorem Streams.emit {u : State} {n : Nat} (sent : Streams s u n) {o : Out} (stream : o.kind = .stream) :
    Streams s (u.emit o) (n + 1) := by
  obtain ⟨l, out, length, streams⟩ := sent
  refine ⟨l ++ [o], ?_, ?_, fun p inside => ?_⟩
  · rw [State.emit, out, List.append_assoc]
  · rw [List.length_append, length]
    rfl
  · rcases List.mem_append.1 inside with before | last
    · exact streams p before
    · rw [List.mem_singleton.1 last]
      exact stream

/-- Sends part `i` of a die's run. -/
def State.sendPart (s : State) (b k pos d total lo hi i : Nat) : State :=
  s.sendDrain b k pos 1 (lo + 8192 * i) total (s.memRead (s.slotBase b k d + (lo + 8192 * i)) (min 8192 (hi - (lo + 8192 * i))))

theorem State.sendParts_streams (ports : s.drainPorts ≠ []) (b k pos d total lo hi n : Nat) :
    (forN n s fun i t => t.sendPart b k pos d total lo hi i).drainPorts ≠ [] ∧
      Streams s (forN n s fun i t => t.sendPart b k pos d total lo hi i) n := by
  induction n with
  | zero => exact ⟨ports, [], (List.append_nil _).symm, rfl, fun o inside => by cases inside⟩
  | succ n ih =>
    rw [forN_succ]
    generalize forN n s _ = t at ih
    obtain ⟨ports', sent⟩ := ih
    obtain ⟨o, leaves, stream, -⟩ := State.sendDrain_leaves ports' b k pos 1 (lo + 8192 * n) total
      (t.memRead (t.slotBase b k d + (lo + 8192 * n)) (min 8192 (hi - (lo + 8192 * n))))
    unfold State.sendPart
    rw [leaves]
    exact ⟨ports', sent.emit stream⟩

theorem State.sendRun_streams (ports : s.drainPorts ≠ []) (b k pos lo hi : Nat) :
    Streams s (s.sendRun b k pos lo hi) ((hi - lo + 8191) / 8192) :=
  (State.sendParts_streams ports b k pos ((s.berth b).dies.getD pos 0) (s.runTotal b k ((s.berth b).dies.getD pos 0)) lo hi _).2

theorem drain_idle (idle : (s.slot b k).draining = false) (pos : Nat) :
    exec (.drainStalled b k) s = .next s ∧ exec (.drainResendTimer b k pos) s = .next s :=
  have stays : ¬ (s.slot b k).draining = true := by simp [idle]
  ⟨congrArg Host.Outcome.next (if_neg stays), congrArg Host.Outcome.next (if_neg fun both => stays both.1)⟩

/-! Acknowledges. -/

/-- The state with an acknowledged offset noted. -/
def State.noteAck (s : State) (b k pos off : Nat) : State :=
  s.modSnap b fun y => y.put k { s.slot b k with acked := tset (s.slot b k).acked pos off }

theorem State.noteAck_slot (s : State) (b k pos off : Nat) :
    (s.noteAck b k pos off).slot b k = { s.slot b k with acked := tset (s.slot b k).acked pos off } := by
  unfold State.noteAck
  rw [State.slot, State.snap_modSnap, SnapSt.put_slot]

/-- Whether every run of a slot is acknowledged whole. -/
def State.allAcked (s : State) (b k : Nat) : Bool :=
  (List.range (s.berth b).dies.length).all fun i => tget (s.slot b k).acked 0 i == s.runTotal b k ((s.berth b).dies.getD i 0)

/-- What an acknowledge leaves: a slot that is drained, or the next frames of a run sent. -/
def State.takeAck (s : State) (b k pos off : Nat) : State :=
  let t := s.noteAck b k pos off
  if t.allAcked b k then
    (t.putSlot b k { t.slot b k with drained := true, draining := false, acked := [] }).berthEvent b 0x0A45 k 0
  else t.sendRun b k pos (s.runReach b k pos) (t.runReach b k pos)

theorem drainAcknowledge_taken {port : Nat} {frame : Bytes} (good : s.drainOk port 2 frame = true) (short : frame.length = 48)
    (drains : (s.slot b k).draining = true) (berth : beAt frame 12 1 = b) (slot : beAt frame 13 1 = k)
    (step : beAt frame 16 8 = (s.slot b k).stepSeq) (more : tget (s.slot b k).acked 0 (beAt frame 14 1) < beAt frame 24 8)
    (sent : beAt frame 24 8 ≤ s.runReach b k (beAt frame 14 1)) :
    exec (.drainAcknowledge port frame) s = .next (s.takeAck b k (beAt frame 14 1) (beAt frame 24 8)) := by
  subst berth slot
  refine congrArg Host.Outcome.next ((if_neg ?_).trans rfl)
  rw [good, drains, short, step, decide_eq_false (Nat.not_le.2 more), decide_eq_false (Nat.not_lt.2 sent)]
  simp

/-- With an offset noted, every run is acknowledged whole if that offset and the other runs' are their ends. -/
theorem State.noteAck_allAcked (s : State) (b k pos off : Nat) : (s.noteAck b k pos off).allAcked b k = true ↔
    ∀ i, i < (s.berth b).dies.length →
      (if i = pos then off else tget (s.slot b k).acked 0 i) = s.runTotal b k ((s.berth b).dies.getD i 0) := by
  have noted : ∀ i, tget ((s.noteAck b k pos off).slot b k).acked 0 i = if i = pos then off else tget (s.slot b k).acked 0 i := by
    intro i
    rw [State.noteAck_slot]
    by_cases same : i = pos
    · subst same
      rw [if_pos rfl]
      exact tget_tset_self ..
    · rw [if_neg same]
      exact tget_tset_other _ _ _ same
  unfold State.allAcked
  simp only [noted, List.all_eq_true, List.mem_range, beq_iff_eq]
  exact Iff.rfl

/-! Fills. -/

theorem drainOk_inside {port kind : Nat} {frame : Bytes} (good : s.drainOk port kind frame = true) :
    beAt frame 14 1 < (s.berth (beAt frame 12 1)).dies.length := by
  unfold State.drainOk at good
  simp only [Bool.and_eq_true, decide_eq_true_eq] at good
  obtain ⟨⟨⟨⟨-, inside⟩, -⟩, -⟩, -⟩ := good
  exact inside

theorem fillAckTimer_idle (other : (s.slot b k).st ≠ 6) (pos : Nat) : exec (.fillAckTimer b k pos) s = .next s :=
  congrArg Host.Outcome.next (if_neg fun fills => other fills.1)

/-- The record of a filling slot with one more frame stored. -/
def SlotSt.fill (x : SlotSt) (pos step total upTo : Nat) : SlotSt :=
  { x with stepSeq := step, total := tset x.total pos total, filled := tset x.filled pos upTo }

/-- The state with a frame of a fill stored. -/
def State.storeFill (s : State) (b k pos off : Nat) (payload : Bytes) : State :=
  let d := (s.berth b).dies.getD pos 0
  let m := if off = 0 then s.mem.clear (s.slotBase b k d) (s.slotBase b k d + s.snapSet b 4) else s.mem
  { s with mem := m.put (s.slotBase b k d + off) payload }

/-- The state with a frame's place noted and acknowledged, and the fill ended where that was its last. -/
def State.noteFill (s : State) (b k pos total : Nat) (x : SlotSt) : State :=
  let t := (s.modSnap b fun y => y.put k x).sendDrain b k pos 2 (tget x.filled 0 pos) total []
  if (List.range (t.berth b).dies.length).all fun i => (tfind x.total i).isSome && tget x.filled 0 i == tget x.total 0 i then t.endFill b k
  else t

/-- A run that still lacks bytes keeps its fill going. -/
theorem State.noteFill_goes {total : Nat} {x : SlotSt} (inside : pos < (s.berth b).dies.length)
    (open' : tget x.filled 0 pos ≠ tget x.total 0 pos) : (s.noteFill b k pos total x).slot b k = x ∧
      (s.noteFill b k pos total x).mem = s.mem := by
  unfold State.noteFill
  extract_lets t
  have sent := State.sendDrain_frame (s.modSnap b fun y => y.put k x) b k pos 2 (tget x.filled 0 pos) total []
  have berth : t.berth b = s.berth b := State.berth_congr (sent.frame .berths (by decide)) b
  rw [if_neg]
  · refine ⟨(State.slot_of_snaps (sent.frame .snaps (by decide)) b k).trans ?_, sent.frame .mem (by decide)⟩
    rw [State.slot, State.snap_modSnap, SnapSt.put_slot]
  · intro full
    have at' := List.all_eq_true.1 full pos (List.mem_range.2 (by rw [berth]; exact inside))
    exact open' (beq_iff_eq.1 ((Bool.and_eq_true ..).mp at').2)

section
variable {port n : Nat} {frame : Bytes} (good : s.drainOk port 1 frame = true) (length : frame.length = 48 + n) (some : 0 < n)
  (small : n ≤ 8192) (berth : beAt frame 12 1 = b) (slot : beAt frame 13 1 = k) (at' : beAt frame 14 1 = pos)
  (fills : (s.slot b k).st = 6) (step : beAt frame 16 8 = (s.slot b k).stepSeq)
  (same : tget (s.slot b k).total (beAt frame 32 8) pos = beAt frame 32 8) (header : slotHeader ≤ beAt frame 32 8)
  (fits : beAt frame 32 8 ≤ s.snapSet b 4) (here : beAt frame 24 8 = tget (s.slot b k).filled 0 pos)
  (rest : beAt frame 24 8 + n < beAt frame 32 8)
include good length some small berth slot at' fills step same header fits here rest

theorem fillDataFrame_taken : exec (.fillDataFrame port frame) s =
    .next ((s.storeFill b k pos (beAt frame 24 8) (frame.drop 48)).noteFill b k pos (beAt frame 32 8)
      ((s.slot b k).fill pos (beAt frame 16 8) (beAt frame 32 8) (beAt frame 24 8 + n))) := by
  subst berth slot at'
  have payload : frame.length - 48 = n := by omega
  refine congrArg Host.Outcome.next ((if_neg ?_).trans ?_)
  · rw [payload, good, fills, same, step, decide_eq_false (Nat.ne_of_gt some), decide_eq_false (Nat.not_lt.2 small),
      decide_eq_false (Nat.not_lt.2 header), decide_eq_false (Nat.not_lt.2 fits), decide_eq_false (Nat.not_lt.2 (Nat.le_of_lt rest))]
    simp
  · have fresh : decide (beAt frame 24 8 ≤ tget (s.slot (beAt frame 12 1) (beAt frame 13 1)).filled 0 (beAt frame 14 1) ∧
        tget (s.slot (beAt frame 12 1) (beAt frame 13 1)).filled 0 (beAt frame 14 1) < beAt frame 24 8 + n) = true :=
      decide_eq_true ⟨Nat.le_of_eq here, by omega⟩
    rw [payload, fresh]
    rfl

end

end

/-- Settles O40: a drain's parts leave as stream frames; a frame of a fill ends it only where no run lacks bytes. -/
theorem slotsDrainAndFill : Obligations.SlotsDrainAndFill := by
  refine fun s b k pos port frame => ⟨fun up named listed => ?writes, fun drains => ⟨?stalled, fun inside ports => ?resent⟩,
    fun idle => drain_idle idle pos, fun off done good short berth slot at' offset step drains more sent isDone => ?acked,
    fun off total n good length some small berth slot at' offset size fills step same header fits here later rest => ?filled,
    fun fills inside none ports => ?asks, fun other => fillAckTimer_idle other pos⟩
  case writes =>
    subst named
    refine ⟨fun low high idle => ?_, fun bad => ?_, fun drains => ⟨?_, ?_⟩, fun idle => ⟨?_, fun free => ⟨?_, fun active other => ?_⟩⟩⟩
    · have slot := s.startDrain_slot b (s.named b)
      refine ⟨_, congrArg Host.Outcome.next (byDict_next up (snapDrain_starts listed low high idle)), ?_, ?_, ?_, answers_emit ..⟩
      · exact congrArg SlotSt.draining slot
      · exact congrArg SlotSt.acked slot
      · exact (congrArg SlotSt.st slot :)
    · exact ⟨_, congrArg Host.Outcome.next (byDict_next up (snapDrain_refused bad)), rfl, answers_emit ..⟩
    · have slot := State.slot_putSlot s b (s.named b) { s.slot b (s.named b) with draining := false, acked := [] }
      refine ⟨_, congrArg Host.Outcome.next (byDict_next up (snapAbort_stops listed drains)), ?_, ?_, answers_emit ..⟩
      · exact congrArg SlotSt.draining slot
      · exact (congrArg SlotSt.drained slot :)
    · exact ⟨_, congrArg Host.Outcome.next (byDict_next up (snapEmpty_refused listed drains)), rfl, answers_emit ..⟩
    · exact ⟨_, congrArg Host.Outcome.next (byDict_next up (snapAbort_idle listed idle)), rfl, answers_emit ..⟩
    · have snap := State.snap_modSnap s b fun z => { z with slots := tdel z.slots (s.named b) }
      refine ⟨_, congrArg Host.Outcome.next (byDict_next up (snapEmpty_empties listed idle free)), ?_, answers_emit .., rfl⟩
      exact (congrArg (fun y : SnapSt => tfind y.slots (s.named b)) snap).trans (tfind_tdel_self ..)
    · have snap := State.snap_modSnap s b fun z => z.put (s.named b) { st := 6 }
      refine ⟨_, congrArg Host.Outcome.next (byDict_next up (snapFill_begins listed idle free active other)), ?_, answers_emit .., rfl⟩
      exact (congrArg (fun y : SnapSt => tget y.slots {} (s.named b)) snap).trans (SnapSt.put_slot ..)
  case stalled =>
    exact ⟨_, congrArg Host.Outcome.next (if_pos drains), State.raises_berthEvent .., State.berthEvent_snaps ..⟩
  case resent =>
    obtain ⟨l, out, length, streams⟩ := State.sendRun_streams ports b k pos (tget (s.slot b k).acked 0 pos) (s.runReach b k pos)
    exact ⟨_, l, congrArg Host.Outcome.next (if_pos ⟨drains, inside⟩), out, length, streams,
      (State.sendRun_frame s b k pos _ _).frame .snaps (by decide)⟩
  case acked =>
    subst at' offset isDone
    have run := drainAcknowledge_taken good short drains berth slot step more sent
    have noted := s.noteAck_slot b k (beAt frame 14 1) (beAt frame 24 8)
    have whole := s.noteAck_allAcked b k (beAt frame 14 1) (beAt frame 24 8)
    unfold State.takeAck at run
    refine ⟨fun done => ?_, fun rest => ?_⟩
    · have raised := State.raises_berthEvent ((s.noteAck b k (beAt frame 14 1) (beAt frame 24 8)).putSlot b k
        { (s.noteAck b k (beAt frame 14 1) (beAt frame 24 8)).slot b k with drained := true, draining := false, acked := [] })
        b 0x0A45 k 0 []
      refine ⟨_, run.trans (congrArg Host.Outcome.next (if_pos (whole.2 done))), ?_, ?_,
        raised.of_out_eq (State.putSlot_out (s.noteAck b k _ _) ..)⟩
      · rw [State.slot_of_snaps (State.berthEvent_snaps ..), State.slot_putSlot]
      · rw [State.slot_of_snaps (State.berthEvent_snaps ..), State.slot_putSlot]
    · have left := State.sendRun_frame (s.noteAck b k (beAt frame 14 1) (beAt frame 24 8)) b k (beAt frame 14 1)
        (s.runReach b k (beAt frame 14 1)) ((s.noteAck b k (beAt frame 14 1) (beAt frame 24 8)).runReach b k (beAt frame 14 1))
      have slot' := (State.slot_of_snaps (left.frame .snaps (by decide)) b k).trans noted
      refine ⟨_, run.trans (congrArg Host.Outcome.next (if_neg fun done => rest (whole.1 done))), ?_, ?_, ?_⟩
      · rw [slot']
        exact tget_tset_self ..
      · rw [slot']
        exact drains
      · exact left.frame .mem (by decide)
  case filled =>
    subst offset size
    have run := fillDataFrame_taken good length some small berth slot at' fills step same header fits here rest
    have inside : pos < (s.berth b).dies.length := at' ▸ berth ▸ drainOk_inside good
    have filled : tget ((s.slot b k).fill pos (beAt frame 16 8) (beAt frame 32 8) (beAt frame 24 8 + n)).filled 0 pos =
      beAt frame 24 8 + n := tget_tset_self ..
    have total : tget ((s.slot b k).fill pos (beAt frame 16 8) (beAt frame 32 8) (beAt frame 24 8 + n)).total 0 pos =
      beAt frame 32 8 := tget_tset_self ..
    obtain ⟨slot', mem⟩ := State.noteFill_goes (s := s.storeFill b k pos (beAt frame 24 8) (frame.drop 48)) (b := b) (k := k)
      (total := beAt frame 32 8) inside (by rw [filled, total]; exact Nat.ne_of_lt rest)
    refine ⟨_, run, ?_, ?_, mem.trans ?_⟩
    · rw [slot']
      exact filled
    · rw [slot']
      exact fills
    · exact congrArg (fun m : Store => m.put _ _) (if_neg (Nat.ne_of_gt later))
  case asks =>
    obtain ⟨o, leaves, stream, args⟩ := State.sendDrain_leaves ports b k pos 2 0 0 []
    have run : exec (.fillAckTimer b k pos) s = .next (s.sendDrain b k pos 2 0 0 []) :=
      congrArg Host.Outcome.next (if_pos ⟨fills, inside, none⟩)
    rw [leaves] at run
    exact ⟨_, o, run, rfl, stream, args, rfl⟩

end Sys2Proof.Machine
end

section
/-!
Restores (18 R554-R557, R560).
-/

namespace Sys2Proof.Machine

section
variable {s : State} {b : Nat}

/-! Refusals. -/

theorem restoreCode_busy (k : Nat) (busy : (s.berth b).life ≠ .active ∨ s.cmdRuns b = true ∨ (s.snap b).phase ≠ 0) :
    s.restoreCode b k = 0x0A01 := by
  unfold State.restoreCode
  extract_lets x
  refine if_pos ?_
  rcases busy with absent | runs | taken
  · exact .inl absent
  · exact .inr (.inr (.inl runs))
  · exact .inr (.inl taken)

theorem snapRestore_refused (bad : s.restoreCode b (s.named b) ≠ 0) : s.snapRestore b = (s.restoreCode b (s.named b), s) :=
  if_pos bad

/-! The start of a restore. -/

/-- A berth at the start of its restore: released, with nothing pending of its boundary. -/
def BerthSt.released (x : BerthSt) : BerthSt :=
  { x with held := false, holdDue := false, boundary := false, keeper := { x.keeper with acc := [] } }

/-- The state with a berth's restore begun. -/
def State.beginRestore (s : State) (b k : Nat) : State :=
  (s.modBerth b BerthSt.released).modSnap b fun y => { y with phase := 2, restoring := some k }

/-- The state with a berth's memory, values and counters written back. -/
def State.writeBack (s : State) (b k : Nat) (v : Bytes) : State := ((s.copyBack b k).valuesBack b v).reloadCounters b

/-- The ranges of a berth's zero list. -/
def State.zeroRuns (s : State) (b : Nat) : List (Nat × Nat) :=
  (s.setList b (s.snapSet b 9) (s.snapSet b 0xA)).1.flatMap fun e => (s.rangeRuns b e.va e.bytes).getD []

/-- The state with ranges of memory zeroed. -/
def State.zeroAll (s : State) (l : List (Nat × Nat)) : State := forL l s fun p t => { t with mem := t.mem.clear p.1 (p.1 + p.2) }

theorem snapRestore_starts (good : s.restoreCode b (s.named b) = 0) : s.snapRestore b =
    (0, ((s.beginRestore b (s.named b)).writeBack b (s.named b) (s.slotValues b (s.named b))).zeroAll (s.zeroRuns b)) :=
  if_neg fun bad => bad good

theorem State.zeroAll_snaps (s : State) (l : List (Nat × Nat)) : (s.zeroAll l).snaps = s.snaps := by
  refine forL_keeps State.snaps _ _ _ ?_
  exact fun _ _ => rfl

theorem State.writeBack_snaps (s : State) (b k : Nat) (v : Bytes) : (s.writeBack b k v).snaps = s.snaps :=
  ((State.reloadCounters_frame _ _).frame .snaps (by decide)).trans
    (((State.valuesBack_frame _ _ _).frame .snaps (by decide)).trans ((State.copyBack_frame _ _ _).frame .snaps (by decide)))

/-- The berth's fields that a state values block gives, and those that it leaves. -/
structure Restored (v : Bytes) (x y : BerthSt) : Prop where
  held : y.held = x.held
  boundary : y.boundary = x.boundary
  stepSeq : y.stepSeq = BitVec.ofNat 64 (leAt v 8 8)
  ingest : y.ingest = leAt v 16 16

theorem State.valuesBack_restored (s : State) (b : Nat) (v : Bytes) : Restored v (s.berth b) ((s.valuesBack b v).berth b) := by
  unfold State.valuesBack
  extract_lets t run u
  have berths : u.berths = t.berths := by
    refine forL_keeps State.berths _ _ _ ?_
    exact fun d w => (State.modExch_frame w _ _).frame .berths (by decide)
  have same : ∀ g : BerthSt → BerthSt, (s.modBerth b g).berth b = g (s.berth b) := State.berth_modBerth s b
  have back : Restored v (s.berth b) (t.berth b) := by
    unfold t
    rw [same]
    exact ⟨rfl, rfl, rfl, rfl⟩
  have left : ∀ w : State, w.berths = t.berths → Restored v (s.berth b) (w.berth b) := fun w kept => by
    rw [State.berth_congr kept b]
    exact back
  exact left _ (by simpa using berths)

theorem State.reloadCounters_restored {v : Bytes} {x : BerthSt} (back : Restored v x (s.berth b)) :
    Restored v x ((s.reloadCounters b).berth b) := by
  unfold State.reloadCounters
  extract_lets base l cnt
  split
  · exact back
  · rw [State.berth_modBerth]
    exact ⟨back.held, back.boundary, back.stepSeq, back.ingest⟩

theorem State.writeBack_restored (s : State) (b k : Nat) (v : Bytes) : Restored v (s.berth b) ((s.writeBack b k v).berth b) := by
  have copied : (s.copyBack b k).berth b = s.berth b := State.berth_congr (State.copyBack_berths s b k) b
  have back := State.valuesBack_restored (s.copyBack b k) b v
  rw [copied] at back
  exact State.reloadCounters_restored back

/-! Resuming. -/

theorem snapResume_refused (other : (s.snap b).phase ≠ 3) : s.snapResume b = (0x0A01, s) := if_pos other

/-- The state with the pending combine atomics of a berth's records issued again. -/
def State.combAll (s : State) (b : Nat) : State := forN (s.berth b).keeper.tblE s fun i t => t.combAgain b i

theorem snapResume_goes (ended : (s.snap b).phase = 3) :
    s.snapResume b = (0, (s.combAll b).modSnap b fun y => { y with phase := 0 }) :=
  if_neg fun other => other ended

/-! The end of a restore. -/

/-- The state with a berth rewound to a tally and its restore over. -/
def State.endRestore (s : State) (b t : Nat) : State :=
  (s.rewind b t).modSnap b fun y => { y with phase := 3, restoring := none, unrestored := false }

theorem State.rewind_berth (s : State) (b t : Nat) : (s.rewind b t).berth b = { s.berth b with tally := BitVec.ofNat 64 t } := by
  rw [State.rewind, State.restartStrms_berth, State.berth_modBerth]

theorem restoreEnd_ends {k : Nat} (runs : (s.snap b).phase = 2) (restores : (s.snap b).restoring = some k) :
    exec (.restoreEnd b) s = .next (((s.endRestore b (leAt (s.slotValues b k) 0 8)).berthEvent b 0x0A48 k 0).nextMode b) := by
  have saved : leAt (s.slotValues b k) 0 8 = leNat (s.memRead (s.slotBase b k (headDie (s.berth b)) + 128) 8) :=
    congrArg leNat (Store.read_drop_take s.mem (k := 0) (m := 384) (by decide))
  rw [saved]
  refine congrArg Host.Outcome.next ?_
  rw [restores]
  exact if_neg fun other => other runs

theorem restoreEnd_idle (none : (s.snap b).restoring = none) : exec (.restoreEnd b) s = .next s := by
  refine congrArg Host.Outcome.next ?_
  rw [none]

end

/-- Settles O41: a restore's start by what the state values give, and what clears memory leaves, of a berth; its end by the
rewind. -/
theorem restoresBringStateBack : Obligations.RestoresBringStateBack := by
  refine fun s b k => ⟨fun up named => ⟨fun bad => ?refused, fun good => ?starts, restoreCode_busy k, fun ended => ?resumes,
    fun other => ?stays⟩, fun runs restores => ?ends, restoreEnd_idle⟩
  case refused =>
    subst named
    exact ⟨_, congrArg Host.Outcome.next (byDict_next up (snapRestore_refused bad)), rfl, rfl, rfl, answers_emit ..⟩
  case starts =>
    subst named
    have run := byDict_next (index := 0x4300 + b) (sub := 6) (f := fun t => t.snapRestore b) up (snapRestore_starts good)
    have back := State.writeBack_restored (s.beginRestore b (s.named b)) b (s.named b) (s.slotValues b (s.named b))
    have begun : (s.beginRestore b (s.named b)).berth b = (s.berth b).released := State.berth_modBerth s b BerthSt.released
    have snaps := (State.zeroAll_snaps ((s.beginRestore b (s.named b)).writeBack b (s.named b) (s.slotValues b (s.named b)))
      (s.zeroRuns b)).trans (State.writeBack_snaps ..)
    have snap := (State.snap_of_snaps snaps b).trans (State.snap_modSnap (s.modBerth b BerthSt.released) b _)
    have berth := State.berth_congr (clearAll_berths (s.zeroRuns b)
      ((s.beginRestore b (s.named b)).writeBack b (s.named b) (s.slotValues b (s.named b)))) b
    rw [begun, ← berth] at back
    exact ⟨_, congrArg Host.Outcome.next run, congrArg SnapSt.phase snap, congrArg SnapSt.restoring snap, back.held, back.boundary, back.stepSeq, back.ingest,
      answers_emit ..⟩
  case resumes =>
    have snap := State.snap_modSnap (s.combAll b) b fun y => { y with phase := 0 }
    exact ⟨_, congrArg Host.Outcome.next (byDict_next up (snapResume_goes ended)), congrArg SnapSt.phase snap, answers_emit ..⟩
  case stays =>
    exact ⟨_, congrArg Host.Outcome.next (byDict_next up (snapResume_refused other)), rfl, rfl, answers_emit ..⟩
  case ends =>
    have run := restoreEnd_ends runs restores
    generalize leAt (s.slotValues b k) 0 8 = n at run
    have told := State.berthEvent_frame (s.endRestore b n) b 0x0A48 k 0 []
    have ended : Change [.snaps] (s.rewind b n) (s.endRestore b n) := State.modSnap_frame _ _ _
    have grows := (State.rewind_frame s b n).grows.trans ended.grows
    have berth : ((s.endRestore b n).berthEvent b 0x0A48 k 0).berth b = { s.berth b with tally := BitVec.ofNat 64 n } :=
      (State.berth_congr ((told.frame .berths (by decide)).trans (ended.frame .berths (by decide))) b).trans (State.rewind_berth s b n)
    have raised := (State.raises_berthEvent (s.endRestore b n) b 0x0A48 k 0 []).grow (State.nextMode_frame _ b).grows
    refine ⟨_, run, raised.after grows, fun unasked => ?_⟩
    obtain ⟨noReset, noDusk⟩ := unasked
    rw [State.nextMode_idle ((congrArg BerthSt.wantReset berth).trans noReset) ((congrArg BerthSt.wantDusk berth).trans noDusk)]
    have snap := (State.snap_of_snaps (told.frame .snaps (by decide)) b).trans
      (State.snap_modSnap (s.rewind b n) b fun y => { y with phase := 3, restoring := none, unrestored := false })
    exact ⟨congrArg SnapSt.phase snap, congrArg SnapSt.restoring snap, congrArg BerthSt.tally berth⟩

end Sys2Proof.Machine
end

section
/-!
The link test instrument (19 R561-R567).
-/

namespace Sys2Proof.Machine

section
variable {s : State} {p v lane : Nat}

/-! The instruments. -/

@[simp] theorem State.instOf_modInst (s : State) (p : Nat) (f : InstSt → InstSt) : (s.modInst p f).instOf p = f (s.instOf p) :=
  tget_tset_self ..

theorem State.instOf_of_inst {t : State} (same : t.inst = s.inst) (p : Nat) : t.instOf p = s.instOf p := by
  rw [State.instOf, State.instOf, same]

theorem State.moduleEvent_inst (s : State) (code a b : Nat) (pl : Bytes) : (s.moduleEvent code a b pl).inst = s.inst :=
  (State.moduleEvent_frame _ _ _ _ _).frame .inst (by decide)

/-! The end of a run. -/

/-- The counts of a lane at the end of its run. -/
def State.laneCount (s : State) (p lane : Nat) (bits : Option Nat) : LaneCnt :=
  { tget (s.instOf p).cnt {} lane with
    bits := bits.getD (Config.freeNat s.free), errors := Config.freeNat (s.free + 1),
    uncorr := if s.instPattern p == 4 then Config.freeNat (s.free + 2) % 2 ^ 32 else 0 }

theorem State.laneEnds_instOf (s : State) (p lane : Nat) (bits : Option Nat) :
    (s.laneEnds p lane bits).instOf p = { s.instOf p with cnt := tset (s.instOf p).cnt lane (s.laneCount p lane bits) } :=
  State.instOf_modInst s p fun x => { x with cnt := tset x.cnt lane (s.laneCount p lane bits) }

theorem State.laneEnds_lockLoss (s : State) (p lane : Nat) (bits : Option Nat) (l : Nat) :
    (tget ((s.laneEnds p lane bits).instOf p).cnt {} l).lockLoss = (tget (s.instOf p).cnt {} l).lockLoss := by
  rw [State.laneEnds_instOf]
  by_cases same : l = lane
  · subst same
    exact (congrArg LaneCnt.lockLoss (tget_tset_self (s.instOf p).cnt {} l (s.laneCount p l bits))).trans rfl
  · exact congrArg LaneCnt.lockLoss (tget_tset_other _ _ _ same)

theorem State.laneEnds_bits (s : State) (p n lane l : Nat) (known : (tget (s.instOf p).cnt {} l).bits = n ∨ l = lane) :
    (tget ((s.laneEnds p lane (some n)).instOf p).cnt {} l).bits = n := by
  rw [State.laneEnds_instOf]
  by_cases same : l = lane
  · subst same
    exact congrArg LaneCnt.bits (tget_tset_self ..)
  · exact (congrArg LaneCnt.bits (tget_tset_other _ _ _ same)).trans (known.resolve_right same)

/-- The state with the counts of lanes ended. -/
def State.lanesEnd (s : State) (p : Nat) (bits : Option Nat) : State := forL (s.instLanes p) s fun l t => t.laneEnds p l bits

theorem State.lanesEnd_lockLoss (s : State) (p : Nat) (bits : Option Nat) (l : Nat) :
    (tget ((s.lanesEnd p bits).instOf p).cnt {} l).lockLoss = (tget (s.instOf p).cnt {} l).lockLoss :=
  forL_keeps (fun t : State => (tget (t.instOf p).cnt {} l).lockLoss) _ _ _ fun lane t => t.laneEnds_lockLoss p lane bits l

theorem State.lanesEnd_counted (s : State) (p n : Nat) : ∀ l ∈ s.instLanes p, Counted (s.lanesEnd p (some n)) p l n :=
  forL_establishes (fun l (t : State) => Counted t p l n) (fun l t => t.laneEnds_bits p n l l (.inr rfl))
    (fun l lane t known => t.laneEnds_bits p n lane l (.inl known)) _ s

theorem State.lanesEnd_dict (s : State) (p : Nat) (bits : Option Nat) : (s.lanesEnd p bits).dict = s.dict := by
  refine forL_keeps State.dict _ _ _ ?_
  exact fun _ _ => rfl

theorem State.lanesEnd_out (s : State) (p : Nat) (bits : Option Nat) : (s.lanesEnd p bits).out = s.out := by
  refine forL_keeps State.out _ _ _ ?_
  exact fun _ _ => rfl

theorem State.runEnds_st (s : State) (p st : Nat) : ((s.runEnds p st).instOf p).st = st := by
  unfold State.runEnds
  rw [State.instOf_modInst]

theorem State.runEnds_running (runs : (s.instOf p).st = 3) (st : Nat) :
    s.runEnds p st = (s.lanesEnd p none).modInst p fun x => { x with st := st } := by
  unfold State.runEnds
  rw [if_pos runs]
  rfl

/-! Modes. -/

/-- The state with a port in instrument use. -/
def State.enterInst (s : State) (p v : Nat) : State := (s.modInst p fun y => { y with st := 2 }).putSetting (0x5800 + p) 1 v

theorem State.enterInst_parts (s : State) (p v : Nat) : ((s.enterInst p v).instOf p).st = 2 ∧ (s.enterInst p v).instMode p = v ∧
    (s.enterInst p v).link p = s.link p :=
  ⟨congrArg InstSt.st (State.instOf_modInst s p fun y => { y with st := 2 }), State.setting_putSetting .., rfl⟩

theorem writeInstMode_bad (bad : 4 < v ∨ (1 < v ∧ s.instPattern p = 5)) : s.writeInstMode p v = (0x0C00, s) := if_pos bad

/-- The state with a port out of instrument use, its lanes to be trained anew. -/
def State.retrain (s : State) (p : Nat) : State := (s.putSetting (0x5800 + p) 1 0).modLink p fun l => l.lost .training

theorem State.retrain_parts (s : State) (p : Nat) : (s.retrain p).inst = s.inst ∧ (s.retrain p).instMode p = 0 ∧
    (s.retrain p).link p = (s.link p).lost .training :=
  ⟨rfl, State.setting_putSetting .., State.link_modLink ..⟩

theorem writeInstMode_leaves (used : (s.instOf p).st ≠ 0) : s.writeInstMode p 0 = (0, (s.runEnds p 0).retrain p) := by
  unfold State.writeInstMode
  extract_lets x
  rw [if_neg (by omega), if_pos rfl, if_neg used]
  rfl

section
variable (low : 1 ≤ v) (high : v ≤ 4) (known : 1 < v → s.instPattern p ≠ 5) (unused : (s.instOf p).st = 0)
include low high known unused

theorem writeInstMode_heeded : s.writeInstMode p v = if s.lastPort p then (0x0C01, s) else if !s.portFree p then (0x0C02, s)
    else (0, (s.portLost p .instrument true).enterInst p v) := by
  refine (if_neg ?_).trans ((if_neg (by omega)).trans (if_neg fun used => used unused))
  rintro (beyond | ⟨checks, prbs⟩)
  · omega
  · exact known checks prbs

theorem writeInstMode_last (last : s.lastPort p = true) : s.writeInstMode p v = (0x0C01, s) :=
  (writeInstMode_heeded low high known unused).trans (if_pos last)

theorem writeInstMode_enters (other : s.lastPort p = false) (free : s.portFree p = true) : s.writeInstMode p v =
    (0, (s.portLost p .instrument true).enterInst p v) := by
  rw [writeInstMode_heeded low high known unused, other, free]
  rfl

end

theorem instrModeWrite_next (up : DictUp s) (port : p < 24) {code : Nat} {t : State} (writes : s.writeInstMode p v = (code, t)) :
    exec (.instrModeWrite p v) s = .next (t.emit { kind := .answer, port := entryKey (0x5800 + p) 1, args := [code] }) :=
  congrArg Host.Outcome.next ((if_pos port).trans (byDict_next (f := fun t => t.writeInstMode p v) up writes))

/-! Runs and scans. -/

section
variable (checks : s.instMode p = 2 ∨ s.instMode p = 3)
include checks

theorem instChecks_on : s.instChecks p = true := by
  unfold State.instChecks
  rcases checks with two | three
  · rw [two]
    rfl
  · rw [three]
    rfl

theorem instStart_runs (still : (s.instOf p).st ≠ 4) :
    s.instStart p = (0, s.modInst p fun x => { x with st := 3, cnt := [], lostSaid := false }) :=
  if_neg (by simp [instChecks_on checks, still])

theorem instStop_ends (runs : (s.instOf p).st = 3) : s.instStop p = (0, s.runEnds p 5) :=
  (if_neg (by simp [instChecks_on checks, runs])).trans (if_neg fun other => other runs)

theorem instScan_starts (idle : (s.instOf p).st ≠ 3) (still : (s.instOf p).st ≠ 4) :
    s.instScan p = (0, s.modInst p fun x => { x with st := 4 }) := by
  refine (if_neg (by omega)).trans ((if_neg ?_).trans (if_neg (not_or_intro idle still)))
  simp [instChecks_on checks]

end

section
variable (no2 : s.instMode p ≠ 2) (no3 : s.instMode p ≠ 3)
include no2 no3

theorem instChecks_off : s.instChecks p = false := by
  unfold State.instChecks
  rw [beq_eq_false_iff_ne.2 no2, beq_eq_false_iff_ne.2 no3]
  rfl

theorem instStart_refused : s.instStart p = (0x0C02, s) := if_pos (.inl (by rw [instChecks_off no2 no3]; rfl))

theorem instStop_refused : s.instStop p = (0x0C02, s) := if_pos (.inl (by rw [instChecks_off no2 no3]; rfl))

theorem instScan_refused : s.instScan p = (if s.instMode p = 0 then 0x0C02 else 0x0C00, s) := by
  unfold State.instScan
  rw [instChecks_off no2 no3]
  by_cases off : s.instMode p = 0
  · rw [if_pos off, if_pos off]
  · rw [if_neg off, if_neg off]
    rfl

end

theorem instrRunStart_next (up : DictUp s) (port : p < 24) {code : Nat} {t : State} (writes : s.instStart p = (code, t)) :
    exec (.instrRunStart p) s = .next (t.emit { kind := .answer, port := entryKey (0x5800 + p) 5, args := [code] }) :=
  congrArg Host.Outcome.next ((if_pos port).trans (byDict_next (f := fun t => t.instStart p) up writes))

theorem instrRunStop_next (up : DictUp s) (port : p < 24) {code : Nat} {t : State} (writes : s.instStop p = (code, t)) :
    exec (.instrRunStop p) s = .next (t.emit { kind := .answer, port := entryKey (0x5800 + p) 5, args := [code] }) :=
  congrArg Host.Outcome.next ((if_pos port).trans (byDict_next (f := fun t => t.instStop p) up writes))

theorem instrScan_next (up : DictUp s) (port : p < 24) {code : Nat} {t : State} (writes : s.instScan p = (code, t)) :
    exec (.instrScan p) s = .next (t.emit { kind := .answer, port := entryKey (0x5800 + p) 6, args := [code] }) :=
  congrArg Host.Outcome.next ((if_pos port).trans (byDict_next (f := fun t => t.instScan p) up writes))

/-! The end of a scan. -/

/-- The state with a lane's margins as the line gave them. -/
def State.scanLane (s : State) (p lane : Nat) : State :=
  (s.modInst p fun x => { x with margins := tset x.margins lane (marginBytes s.free) }).nextFree.nextFree.nextFree.nextFree

theorem State.scanLane_margins (s : State) (p lane : Nat) :
    ((s.scanLane p lane).instOf p).margins = tset (s.instOf p).margins lane (marginBytes s.free) :=
  congrArg InstSt.margins (State.instOf_modInst s p fun x => { x with margins := tset x.margins lane (marginBytes s.free) })

/-- The state with the margins of the lanes that take part. -/
def State.scanLanes (s : State) (p : Nat) : State := forL (s.instLanes p) s fun l t => t.scanLane p l

theorem State.scanLanes_margins (s : State) (p : Nat) :
    ∀ l ∈ s.instLanes p, ∃ n, tget ((s.scanLanes p).instOf p).margins [] l = marginBytes n := by
  refine forL_establishes (fun l (t : State) => ∃ n, tget (t.instOf p).margins [] l = marginBytes n) (fun l t => ?_)
    (fun l lane t known => ?_) _ s
  · rw [State.scanLane_margins]
    exact ⟨t.free, tget_tset_self ..⟩
  · rw [State.scanLane_margins]
    by_cases same : l = lane
    · subst same
      exact ⟨t.free, tget_tset_self ..⟩
    · obtain ⟨n, margin⟩ := known
      exact ⟨n, (tget_tset_other _ _ _ same).trans margin⟩

theorem State.scanLanes_out (s : State) (p : Nat) : (s.scanLanes p).out = s.out := by
  refine forL_keeps State.out _ _ _ ?_
  exact fun _ _ => rfl

theorem marginBytes_length (n : Nat) : (marginBytes n).length = 8 := by
  simp [marginBytes, leBytes, zeros]

/-- A phase of at most 32 steps either way as a byte. -/
theorem phase_small : ∀ m < 64, (BitVec.ofInt 8 (Int.ofNat m - 32)).toNat < 32 ∨ 224 ≤ (BitVec.ofInt 8 (Int.ofNat m - 32)).toNat := by
  decide

/-- A margin's first byte is a phase. -/
theorem marginBytes_phase (n : Nat) : leAt (marginBytes n) 0 1 < 32 ∨ 224 ≤ leAt (marginBytes n) 0 1 := by
  have first : leAt (marginBytes n) 0 1 =
    (BitVec.ofNat 8 ((BitVec.ofInt 8 (Int.ofNat (Config.freeNat n % 64) - 32)).toNat / 2 ^ (8 * 0))).toNat + 256 * 0 := rfl
  rw [first, Nat.mul_zero, Nat.pow_zero, Nat.div_one, BitVec.ofNat_toNat, BitVec.setWidth_eq, Nat.add_zero]
  exact phase_small _ (Nat.mod_lt _ (by decide))

/-- The state with a scan over. -/
def State.endScan (s : State) (p : Nat) : State := (s.scanLanes p).modInst p fun x => { x with st := 5, cnt := [] }

theorem instrScanDone_ends (scans : (s.instOf p).st = 4) :
    exec (.instrScanDone p) s = .next ((s.endScan p).moduleEvent 0x0C40 p 0) :=
  congrArg Host.Outcome.next (if_neg fun other => other scans)

/-- The state with a run at its target. -/
def State.endRun (s : State) (p n : Nat) : State := (s.lanesEnd p (some n)).modInst p fun x => { x with st := 5 }

theorem instrTargetReached_ends (runs : (s.instOf p).st = 3) (some : s.setting (0x5800 + p) 4 0 ≠ 0) :
    exec (.instrTargetReached p) s = .next ((s.endRun p (s.setting (0x5800 + p) 4 0)).moduleEvent 0x0C40 p 0) :=
  congrArg Host.Outcome.next (if_neg (not_or_intro (fun other => other runs) some))

/-! Lost locks. -/

/-- The state with a lost lock counted. -/
def State.countLoss (s : State) (p lane : Nat) : State :=
  s.modInst p fun y => { y with
    lostSaid := true, cnt := tmod y.cnt {} lane fun c => { c with lockLoss := min 65535 (c.lockLoss + 1) } }

theorem instrLockLost_counts (runs : (s.instOf p).st = 3) (inside : lane ∈ s.instLanes p) : exec (.instrLockLost p lane) s =
    .next (if (s.instOf p).lostSaid then s.countLoss p lane else (s.countLoss p lane).moduleEvent 0x0C41 p lane) :=
  congrArg Host.Outcome.next (if_neg (by simp [runs, inside]))

theorem State.countLoss_lane (s : State) (p lane : Nat) : tget ((s.countLoss p lane).instOf p).cnt {} lane =
    { tget (s.instOf p).cnt {} lane with lockLoss := min 65535 ((tget (s.instOf p).cnt {} lane).lockLoss + 1) } := by
  unfold State.countLoss
  rw [State.instOf_modInst]
  exact tget_tset_self ..

end

/-- Settles O43: a port's use of the instrument through its record; what a run or a scan leaves is set lane by lane. -/
theorem instrumentTestsLanes : Obligations.InstrumentTestsLanes := by
  refine fun s p v lane n port => ⟨fun up => ⟨fun bad => ?bad, fun low high known unused => ⟨fun last => ?last,
      fun other free => ?enters⟩, fun used => ?leaves, fun checks still => ⟨?starts, fun runs => ?stops, fun idle => ?scans⟩,
      fun no2 no3 => ⟨?noStart, ?noStop, ?noScan⟩⟩,
    fun scans => ?scanned, fun other => congrArg Host.Outcome.next (if_pos other), fun runs target some => ?reached,
    fun runs inside => ?lost⟩
  case bad => exact ⟨_, instrModeWrite_next up port (writeInstMode_bad bad), rfl, rfl, answers_emit ..⟩
  case last => exact ⟨_, instrModeWrite_next up port (writeInstMode_last low high known unused last), rfl, rfl, answers_emit ..⟩
  case enters =>
    have run := instrModeWrite_next up port (writeInstMode_enters low high known unused other free)
    have lost : (s.link p).life ≠ .active → (s.portLost p .instrument true).link p = (s.link p).lost .instrument := fun idle => by
      rw [State.portLost_idle idle, State.link_modLink]
    obtain ⟨st, mode, link⟩ := (s.portLost p .instrument true).enterInst_parts p v
    rw [← link] at lost
    generalize (s.portLost p .instrument true).enterInst p v = t at run st mode lost
    exact ⟨_, run, st, mode, answers_emit .., fun idle => ⟨congrArg LinkSt.life (lost idle), (congrArg LinkSt.lanes (lost idle) :)⟩⟩
  case leaves =>
    have run := instrModeWrite_next up port (writeInstMode_leaves used)
    obtain ⟨inst, mode, link⟩ := (s.runEnds p 0).retrain_parts p
    have st : (((s.runEnds p 0).retrain p).instOf p).st = 0 :=
      (congrArg InstSt.st (State.instOf_of_inst inst p)).trans (s.runEnds_st p 0)
    generalize (s.runEnds p 0).retrain p = t at run mode link st
    exact ⟨_, run, st, mode, congrArg LinkSt.life link, congrArg LinkSt.unacked link, answers_emit ..⟩
  case starts =>
    have inst := State.instOf_modInst s p fun x => { x with st := 3, cnt := [], lostSaid := false }
    exact ⟨_, instrRunStart_next up port (instStart_runs checks still), congrArg InstSt.st inst, congrArg InstSt.cnt inst,
      answers_emit ..⟩
  case stops =>
    have run := instrRunStop_next up port (instStop_ends checks runs)
    rw [State.runEnds_running runs] at run
    have inst := State.instOf_modInst (s.lanesEnd p none) p fun x => { x with st := 5 }
    refine ⟨_, run, congrArg InstSt.st inst, answers_emit .., fun l => ?_, s.lanesEnd_dict p none⟩
    exact (congrArg (fun x : InstSt => (tget x.cnt {} l).lockLoss) inst).trans (s.lanesEnd_lockLoss p none l)
  case scans =>
    have inst := State.instOf_modInst s p fun x => { x with st := 4 }
    exact ⟨_, instrScan_next up port (instScan_starts checks idle still), congrArg InstSt.st inst, answers_emit ..⟩
  case noStart => exact ⟨_, instrRunStart_next up port (instStart_refused no2 no3), rfl, answers_emit ..⟩
  case noStop => exact ⟨_, instrRunStop_next up port (instStop_refused no2 no3), rfl, answers_emit ..⟩
  case noScan => exact ⟨_, instrScan_next up port (instScan_refused no2 no3), rfl, answers_emit ..⟩
  case scanned =>
    have inst := (State.instOf_of_inst (State.moduleEvent_inst (s.endScan p) 0x0C40 p 0 []) p).trans
      (State.instOf_modInst (s.scanLanes p) p fun x => { x with st := 5, cnt := [] })
    have raised := State.raises_moduleEvent (s.endScan p) 0x0C40 p 0 []
    refine ⟨_, instrScanDone_ends scans, ?_, ?_, raised.of_out_eq (s.scanLanes_out p), fun l inside => ?_⟩
    · rw [inst]
    · rw [inst]
    · obtain ⟨n, margin⟩ := s.scanLanes_margins p l inside
      rw [inst]
      dsimp only
      rw [margin]
      exact ⟨marginBytes_length n, marginBytes_phase n⟩
  case reached =>
    subst target
    have inst := (State.instOf_of_inst (State.moduleEvent_inst (s.endRun p (s.setting (0x5800 + p) 4 0)) 0x0C40 p 0 []) p).trans
      (State.instOf_modInst (s.lanesEnd p (.some (s.setting (0x5800 + p) 4 0))) p fun x => { x with st := 5 })
    have raised := State.raises_moduleEvent (s.endRun p (s.setting (0x5800 + p) 4 0)) 0x0C40 p 0 []
    refine ⟨_, instrTargetReached_ends runs some, ?_, raised.of_out_eq (s.lanesEnd_out p _), fun l inside => ?_⟩
    · rw [inst]
    · rw [Counted, inst]
      exact s.lanesEnd_counted p _ l inside
  case lost =>
    have run := instrLockLost_counts runs inside
    have counted := s.countLoss_lane p lane
    by_cases said : (s.instOf p).lostSaid = true
    · rw [if_pos said] at run
      refine ⟨_, run, ?_, ?_, fun _ => rfl, fun silent => absurd (said.symm.trans silent) (by decide)⟩
      · rw [counted]
      · rw [counted]
    · rw [if_neg said] at run
      have inst := State.instOf_of_inst (State.moduleEvent_inst (s.countLoss p lane) 0x0C41 p lane []) p
      have raised := State.raises_moduleEvent (s.countLoss p lane) 0x0C41 p lane []
      refine ⟨_, run, ?_, ?_, fun told => absurd told said, fun _ => raised.of_out_eq rfl⟩
      · rw [inst, counted]
      · rw [inst, counted]

end Sys2Proof.Machine
end

section
/-!
Voltage protection, protective power-off and regulator phases (20 R570-R574, R579).
-/

namespace Sys2Proof.Machine

section
variable {s : State}

theorem State.moduleEvent_power (s : State) (code a b : Nat) (pl : Bytes) : (s.moduleEvent code a b pl).power = s.power :=
  (State.moduleEvent_frame _ _ _ _ _).frame .power (by decide)

/-! Powering off. -/

/-- What a protective power-off leaves. -/
structure PoweredOff (s : State) (cause : Nat) (u : State) : Prop where
  on : u.power.on = false
  latched : u.power.latched = true
  cause : u.power.offCause = some cause
  mem : u.mem = {}
  cores : u.cores = []
  berths : u.berths = []
  list : u.defects.list = s.defects.list
  host : u.hostUp = false

theorem State.powerOff_off (s : State) (cause : Nat) : PoweredOff s cause (s.powerOff cause) := by
  have cleared := s.beginStart_cleared 2
  unfold State.powerOff
  extract_lets t
  have cleared' : Cleared s 2 t := cleared
  clear_value t
  refine ⟨rfl, rfl, rfl, cleared'.mem, cleared'.cores, cleared'.berths, cleared'.list, ?_⟩
  exact Bool.and_false _

theorem protectiveOff_runs {cause : Nat} (on : s.power.on = true) (known : cause ≤ 3) (last : cause = 3 → s.power.level = 48) :
    exec (.protectiveOff cause) s = .next (s.powerOff cause) := by
  refine congrArg Host.Outcome.next (if_neg ?_)
  rintro (off | beyond | ⟨flow, low⟩)
  · simp [on] at off
  · omega
  · exact low (last flow)

/-! The input voltage. -/

/-- The state with a voltage of the input measured. -/
def State.measure (s : State) (mv : Int) : State :=
  { s with power := { s.power with sensors := tset s.power.sensors (entryKey 0x3000 1) mv } }

/-- The state with the voltage in a band. -/
def State.setBand (s : State) (n : Nat) : State := { s with power := { s.power with band := n } }

/-- The state with the voltage in a band, told of as it enters it. -/
def State.enterBand (s : State) (n code : Nat) (mv : Int) : State :=
  if n = 0 ∨ s.power.band = n then s.setBand n else (s.setBand n).moduleEvent code (max 0 mv).toNat 0

section
variable {mv : Int} {us : Nat}

theorem inputVoltage_beyond (beyond : mv < -60000 ∨ 64000 < mv ∨ (60000 < mv ∧ 10000 < us)) :
    exec (.inputVoltageChange mv us) s = .fault .beyondAbsoluteMaximum := if_pos beyond

section
variable (on : s.power.on = true) (within : ¬(mv < -60000 ∨ 64000 < mv ∨ (60000 < mv ∧ 10000 < us)))
include on within

theorem inputVoltage_heeded : exec (.inputVoltageChange mv us) s = .next (
    if (mv < 44000 ∧ 2000 < us) ∨ (60000 < mv ∧ 1000 < us) then (s.measure mv).powerOff 0
    else if mv < 44000 then s.measure mv
    else if mv < 48000 then (s.measure mv).enterBand 1 0x0B82 mv
    else if mv ≤ 58000 then (s.measure mv).enterBand 0 0 mv
    else (s.measure mv).enterBand 2 0x0B83 mv) :=
  (if_neg within).trans (congrArg Host.Outcome.next (if_neg (by simp [on])))

theorem inputVoltage_off (low : mv < 44000) (long : 2000 < us) :
    exec (.inputVoltageChange mv us) s = .next ((s.measure mv).powerOff 0) :=
  (inputVoltage_heeded on within).trans (congrArg Host.Outcome.next (if_pos (.inl ⟨low, long⟩)))

theorem inputVoltage_low (above : 44000 ≤ mv) (below : mv < 48000) :
    exec (.inputVoltageChange mv us) s = .next ((s.measure mv).enterBand 1 0x0B82 mv) :=
  (inputVoltage_heeded on within).trans (congrArg Host.Outcome.next
    ((if_neg (by omega)).trans ((if_neg (by omega)).trans (if_pos below))))

theorem inputVoltage_normal (above : 48000 ≤ mv) (below : mv ≤ 58000) :
    exec (.inputVoltageChange mv us) s = .next ((s.measure mv).enterBand 0 0 mv) :=
  (inputVoltage_heeded on within).trans (congrArg Host.Outcome.next
    ((if_neg (by omega)).trans ((if_neg (by omega)).trans ((if_neg (by omega)).trans (if_pos below)))))

theorem inputVoltage_high (above : 58000 < mv) (below : mv ≤ 60000) :
    exec (.inputVoltageChange mv us) s = .next ((s.measure mv).enterBand 2 0x0B83 mv) :=
  (inputVoltage_heeded on within).trans (congrArg Host.Outcome.next
    ((if_neg (by omega)).trans ((if_neg (by omega)).trans ((if_neg (by omega)).trans (if_neg (by omega))))))

end

theorem State.enterBand_power (s : State) (n code : Nat) (mv : Int) : (s.enterBand n code mv).power = { s.power with band := n } := by
  unfold State.enterBand
  split
  · rfl
  · exact State.moduleEvent_power ..

theorem State.enterBand_quiet {n : Nat} (quiet : n = 0 ∨ s.power.band = n) (code : Nat) (mv : Int) :
    (s.enterBand n code mv).out = s.out := by
  unfold State.enterBand
  rw [if_pos quiet]
  rfl

theorem State.enterBand_raises {n : Nat} (some : n ≠ 0) (new : s.power.band ≠ n) (code : Nat) (positive : 0 ≤ mv) :
    Raises s (s.enterBand n code mv) code [0xFF, mv.toNat, 0] := by
  have raised := State.raises_moduleEvent (s.setBand n) code mv.toNat 0 []
  unfold State.enterBand
  rw [if_neg (not_or_intro some new), Int.max_eq_right positive]
  exact raised.of_out_eq rfl

end

/-! Phases. -/

section
variable {rail phase : Nat}

/-- The state with a phase taken out of a rail. -/
def State.takePhase (s : State) (rail phase : Nat) : State :=
  { s with power := { s.power with phasesOut := tset s.power.phasesOut rail (phase :: s.phasesOutOf rail) } }

/-- The phases left of a rail that loses one. -/
def State.phasesLeft (s : State) (rail : Nat) : Nat := (railSpec rail).1 - ((s.phasesOutOf rail).length + 1)

/-- The state with a lost phase entered in the defect list, and its spare reported where it has one. -/
def State.enterPhase (s : State) (rail phase cause detail : Nat) : State :=
  let left := s.phasesLeft rail
  let u := phaseUnit rail phase
  if rail = 0x100 then s.takePhase rail phase
  else
    let t := (s.takePhase rail phase).addDefect { kind := 6, die := u.1, unit := u.2, cause := cause, detail := detail,
                                                  st := if (railSpec rail).2 ≤ left then 1 else 2 }
    if (railSpec rail).2 ≤ left then t.spareIn s.defectNo 6 u.1 (left == (railSpec rail).2) else t

/-- The state with a rail limited. -/
def State.limitRail (s : State) : State := { s with power := { s.power with limited := true } }

theorem State.enterPhase_frame (s : State) (rail phase cause detail : Nat) :
    Change [.out, .host, .mbox, .defects] (s.takePhase rail phase) (s.enterPhase rail phase cause detail) := by
  unfold State.enterPhase
  extract_lets left u t
  have listed : Change [.out, .host, .mbox, .defects] (s.takePhase rail phase) t := State.addDefect_frame _ _
  split
  · exact Change.refl
  · split
    · exact listed.tr (State.spareIn_frame _ _ _ _ _) (by decide)
    · exact listed

theorem State.phaseLost_eq (known : railOk rail = true) (there : phase < (railSpec rail).1) (serves : phase ∉ s.phasesOutOf rail)
    (cause detail : Nat) : s.phaseLost rail phase cause detail =
      if s.phasesLeft rail < (railSpec rail).2 then
        (((s.enterPhase rail phase cause detail).moduleEvent 0x0B88 rail phase).limitRail).moduleEvent 0x0B89 rail (s.phasesLeft rail)
      else (s.enterPhase rail phase cause detail).moduleEvent 0x0B88 rail phase := by
  refine (if_neg ?_).trans rfl
  rintro (unknown | beyond | lost)
  · simp [known] at unknown
  · omega
  · exact serves (List.contains_iff_mem.1 lost)

/-- A rail keeps more phases than none at full load. -/
theorem railSpec_pos (rail : Nat) : 0 < (railSpec rail).2 := by
  unfold railSpec
  repeat' split
  all_goals decide

theorem phaseLost_runs (on : s.power.on = true) : exec (.phaseLost rail phase) s = .next (s.phaseLost rail phase 2 0x0B88) :=
  congrArg Host.Outcome.next (if_pos on)

end
end

theorem powerIsProtected : PowerIsProtected := by
  refine fun s mv us cause rail phase => ⟨inputVoltage_beyond, fun on => ⟨fun above below => ?normal, fun above below => ?low,
      fun above below => ?high, fun above below long => ?off, fun known last => ?protects, fun known there serves => ?phase⟩,
    fun off => ⟨congrArg Host.Outcome.next (if_pos (.inl (by simp [off]))), congrArg Host.Outcome.next (if_neg (by simp [off]))⟩⟩
  case normal =>
    have power := (s.measure mv).enterBand_power 0 0 mv
    refine ⟨_, inputVoltage_normal on (by omega) above below, ?_, ?_, State.enterBand_quiet (.inl rfl) 0 mv, ?_⟩ <;> rw [power]
    · exact on
    · exact tget_tset_self ..
  case low =>
    have power := (s.measure mv).enterBand_power 1 0x0B82 mv
    refine ⟨_, inputVoltage_low on (by omega) above below, ?_, ?_, fun new => ?_,
      fun same => State.enterBand_quiet (s := s.measure mv) (.inr same) 0x0B82 mv⟩
    · rw [power]
    · rw [power]
      exact on
    · have raised := State.enterBand_raises (s := s.measure mv) (n := 1) (by decide) new 0x0B82 (mv := mv) (by omega)
      exact raised.of_out_eq rfl
  case high =>
    have power := (s.measure mv).enterBand_power 2 0x0B83 mv
    refine ⟨_, inputVoltage_high on (by omega) above below, ?_, fun new => ?_⟩
    · rw [power]
    · have raised := State.enterBand_raises (s := s.measure mv) (n := 2) (by decide) new 0x0B83 (mv := mv) (by omega)
      exact raised.of_out_eq rfl
  case off =>
    have off := (s.measure mv).powerOff_off 0
    exact ⟨_, inputVoltage_off on (by omega) below long, off.on, off.latched, off.cause, off.mem, off.berths⟩
  case protects =>
    have off := s.powerOff_off cause
    exact ⟨_, protectiveOff_runs on known last, off.on, off.latched, off.cause, off.mem, off.cores, off.berths, off.list, off.host⟩
  case phase =>
    have run := phaseLost_runs (rail := rail) (phase := phase) on
    rw [State.phaseLost_eq known there serves] at run
    have entered := s.enterPhase_frame rail phase 2 0x0B88
    have power : (s.enterPhase rail phase 2 0x0B88).power = (s.takePhase rail phase).power := entered.frame .power (by decide)
    have raised := (State.raises_moduleEvent (s.enterPhase rail phase 2 0x0B88) 0x0B88 rail phase []).after (s := s) entered.grows
    have told := State.moduleEvent_power (s.enterPhase rail phase 2 0x0B88) 0x0B88 rail phase []
    have grows := entered.grows.trans (State.moduleEvent_frame (s.enterPhase rail phase 2 0x0B88) 0x0B88 rail phase []).grows
    rw [power] at told
    generalize (s.enterPhase rail phase 2 0x0B88).moduleEvent 0x0B88 rail phase = t at run raised told grows
    have out : t.phasesOutOf rail = phase :: s.phasesOutOf rail := by
      rw [State.phasesOutOf, told]
      exact tget_tset_self ..
    by_cases short : s.phasesLeft rail < (railSpec rail).2
    · rw [if_pos short] at run
      have power' := State.moduleEvent_power t.limitRail 0x0B89 rail (s.phasesLeft rail) []
      have more : t.out <+: (t.limitRail.moduleEvent 0x0B89 rail (s.phasesLeft rail)).out :=
        (State.moduleEvent_frame t.limitRail 0x0B89 rail (s.phasesLeft rail) []).grows
      have limited := State.raises_moduleEvent t.limitRail 0x0B89 rail (s.phasesLeft rail) []
      refine ⟨_, run, ?_, raised.grow more, fun _ => ⟨?_, limited.after (s := s) grows⟩⟩
      · rw [State.phasesOutOf, power']
        exact out
      · rw [power']
        rfl
    · rw [if_neg short] at run
      refine ⟨_, run, out, raised, fun few => absurd ?_ short⟩
      have some := railSpec_pos rail
      unfold State.phasesLeft
      omega

end Sys2Proof.Machine
end

section
/-!
The reduction level, sensors and alarms (20 R575-R577, R580, R585).
-/

namespace Sys2Proof.Machine

section
variable {s : State}

/-! The reduction level. -/

/-- The state with the level at a value. -/
def State.levelAt (s : State) (r : Nat) : State := { s with power := { s.power with level := r } }

theorem State.setLevel_power (s : State) (r : Nat) : (s.setLevel r).power = { s.power with level := r } := by
  unfold State.setLevel
  extract_lets old t
  split
  · exact State.moduleEvent_power ..
  · split
    · exact State.moduleEvent_power ..
    · rfl

theorem State.setLevel_starts {r : Nat} (none : s.power.level = 0) (some : r ≠ 0) : Raises s (s.setLevel r) 0x0B80 [0xFF, r, 0] := by
  have raised := State.raises_moduleEvent (s.levelAt r) 0x0B80 r 0 []
  have run : s.setLevel r = (s.levelAt r).moduleEvent 0x0B80 r 0 := if_pos ⟨none, some⟩
  rw [run]
  exact raised.of_out_eq rfl

theorem State.setLevel_ends (some : s.power.level ≠ 0) : Raises s (s.setLevel 0) 0x0B81 [0xFF, 0, 0] := by
  have raised := State.raises_moduleEvent (s.levelAt 0) 0x0B81 0 0 []
  have run : s.setLevel 0 = (s.levelAt 0).moduleEvent 0x0B81 0 0 := (if_neg fun both => both.2 rfl).trans (if_pos ⟨some, rfl⟩)
  rw [run]
  exact raised.of_out_eq rfl

/-! What a tick of the power controller wants. -/

/-- Whether each measure is above the start of its cause. -/
def State.aboveStart (s : State) (power current : Nat) : List Bool :=
  [decide (s.powerStart.1 < power * s.powerStart.2), decide (281000 < current),
    decide ((s.setting 0x3013 0 10000 : Int) < s.hottest 0x3001 32), decide (9200 < s.hottest 0x3002 24)]

/-- Whether each measure is below the end of its cause. -/
def State.belowEnd (s : State) (power current : Nat) : List Bool :=
  [decide (power * s.powerStart.2 * 100 < s.powerStart.1 * 97), decide (current < 272000),
    decide (s.hottest 0x3001 32 < (s.setting 0x3013 0 10000 : Int) - 300), decide (s.hottest 0x3002 24 < 8900)]

/-- The level that causes want. -/
def wanted (r : Nat) (above below : List Bool) : Nat := ((above.zip below).map fun p => causeLevel r p.1 p.2).foldl max 0

/-- The causes that call for a reduction, by bit; `held` are those that did. -/
def callers (held : Nat) (above below : List Bool) : Nat :=
  (above.zip below).zipIdx.foldl (fun a p => if p.1.1 || (held.testBit p.2 && !p.1.2) then a + 2 ^ p.2 else a) 0

theorem causeLevel_le (r : Nat) (above below : Bool) : causeLevel r above below ≤ max r (min 48 (r + 4)) := by
  unfold causeLevel
  split
  · exact Nat.le_max_right ..
  · split <;> omega

theorem wanted_four (r : Nat) (a b c d a' b' c' d' : Bool) : wanted r [a, b, c, d] [a', b', c', d'] =
    max (max (max (causeLevel r a a') (causeLevel r b b')) (causeLevel r c c')) (causeLevel r d d') := by
  simp [wanted]

theorem wanted_le (r : Nat) (a b c d a' b' c' d' : Bool) :
    wanted r [a, b, c, d] [a', b', c', d'] ≤ max r (min 48 (r + 4)) := by
  have ha := causeLevel_le r a a'
  have hb := causeLevel_le r b b'
  have hc := causeLevel_le r c c'
  have hd := causeLevel_le r d d'
  rw [wanted_four]
  omega

/-- The first cause calls for a reduction where its measure is above its start. -/
theorem callers_first (held : Nat) (b c d a' b' c' d' : Bool) : callers held [true, b, c, d] [a', b', c', d'] % 2 = 1 := by
  simp only [callers, List.zip_cons_cons, List.zip_nil_right, List.zipIdx_cons, List.zipIdx_nil, List.foldl_cons, List.foldl_nil]
  repeat' split
  all_goals simp_all

/-- The state with a tick's measures. -/
def State.measurePower (s : State) (power current : Nat) : State :=
  { s with power := { s.power with
    sensors := tset (tset (tset s.power.sensors (entryKey 0x3000 2) (current : Int)) (entryKey 0x3000 3) (power : Int))
      (entryKey 0x3000 4) (max (s.sensor 0x3000 4 0) (power : Int)) } }

/-- The state with the level a step nearer to what the causes want. -/
def State.steer (s : State) (want : Nat) : State :=
  if s.power.level < want then s.setLevel want
  else if want < s.power.level ∧ 9 ≤ s.power.sinceDown then s.setLevel (s.power.level - 1) else s

/-- The state with the causes of a tick and the ticks since the level last fell; `r` was the level. -/
def State.noteTick (s : State) (r causes : Nat) : State :=
  { s with power := { s.power with
    causes := causes, sinceDown := if s.power.level < r then 0 else min 9 (s.power.sinceDown + 1) } }

/-- The causes that a tick leaves: those that call, a limited rail and the fast limit. -/
def State.causesAfter (s : State) (calls level : Nat) : Nat :=
  calls + (if s.power.limited && calls.testBit 0 then 16 else 0) + if s.power.causes.testBit 5 && level != 0 then 32 else 0

/-- What a tick of the power controller leaves. -/
def State.tickPower (s : State) (power current : Nat) : State :=
  let t := (s.measurePower power current).steer (wanted s.power.level (s.aboveStart power current) (s.belowEnd power current))
  t.noteTick s.power.level
    (s.causesAfter (callers s.power.causes (s.aboveStart power current) (s.belowEnd power current)) t.power.level)

theorem powerControllerTick_runs (up : s.up = true) (active : s.lk.active ≠ none) (power current : Nat) :
    exec (.powerControllerTick power current) s = .next (s.tickPower power current) := by
  have heeded : ¬(!s.up ∨ s.lk.active.isNone) := by
    rintro (down | none)
    · simp [up] at down
    · exact active (Option.isNone_iff_eq_none.1 none)
  have run : execPowerControllerTick power current s = .next (if !s.up ∨ s.lk.active.isNone then s else s.tickPower power current) := by
    unfold execPowerControllerTick State.tickPower State.noteTick State.causesAfter State.steer State.measurePower wanted callers
      State.aboveStart State.belowEnd
    rfl
  rw [if_neg heeded] at run
  exact run

/-! What the causes want in a tick. -/

section
variable {power current : Nat}

theorem wanted_rises (low : s.power.level < 48) (above : s.powerStart.1 < power * s.powerStart.2) :
    wanted s.power.level (s.aboveStart power current) (s.belowEnd power current) = min 48 (s.power.level + 4) := by
  unfold State.aboveStart State.belowEnd
  rw [decide_eq_true above, wanted_four]
  have hb := causeLevel_le s.power.level (decide (281000 < current)) (decide (current < 272000))
  have hc := causeLevel_le s.power.level (decide ((s.setting 0x3013 0 10000 : Int) < s.hottest 0x3001 32))
    (decide (s.hottest 0x3001 32 < (s.setting 0x3013 0 10000 : Int) - 300))
  have hd := causeLevel_le s.power.level (decide (9200 < s.hottest 0x3002 24)) (decide (s.hottest 0x3002 24 < 8900))
  have ha : causeLevel s.power.level true (decide (power * s.powerStart.2 * 100 < s.powerStart.1 * 97)) = min 48 (s.power.level + 4) :=
    if_pos rfl
  omega

theorem wanted_falls (below : power * s.powerStart.2 * 100 < s.powerStart.1 * 97) (current' : current < 272000)
    (die : s.hottest 0x3001 32 < (s.setting 0x3013 0 10000 : Int) - 300) (stack : s.hottest 0x3002 24 < 8900) :
    wanted s.power.level (s.aboveStart power current) (s.belowEnd power current) = s.power.level - 1 := by
  have power' : ¬ s.powerStart.1 < power * s.powerStart.2 := by omega
  unfold State.aboveStart State.belowEnd
  rw [decide_eq_true below, decide_eq_true current', decide_eq_true die, decide_eq_true stack, decide_eq_false power',
    decide_eq_false (by omega), decide_eq_false (by omega), decide_eq_false (by omega), wanted_four]
  simp [causeLevel]

theorem callers_power (above : s.powerStart.1 < power * s.powerStart.2) :
    callers s.power.causes (s.aboveStart power current) (s.belowEnd power current) % 2 = 1 := by
  unfold State.aboveStart State.belowEnd
  rw [decide_eq_true above]
  exact callers_first ..

theorem State.causesAfter_first {calls : Nat} (first : calls % 2 = 1) (level : Nat) : (s.causesAfter calls level).testBit 0 = true := by
  unfold State.causesAfter
  rw [Nat.testBit_zero]
  refine decide_eq_true ?_
  split <;> split <;> omega

theorem State.tickPower_eq {want : Nat} (wants : wanted s.power.level (s.aboveStart power current) (s.belowEnd power current) = want) :
    s.tickPower power current = ((s.measurePower power current).steer want).noteTick s.power.level
      (s.causesAfter (callers s.power.causes (s.aboveStart power current) (s.belowEnd power current))
        ((s.measurePower power current).steer want).power.level) := by
  unfold State.tickPower
  rw [wants]

theorem State.measurePower_power (s : State) (power current : Nat) :
    tget (s.measurePower power current).power.sensors 0 (entryKey 0x3000 3) = (power : Int) :=
  (tget_tset_other _ _ _ (by decide)).trans (tget_tset_self ..)

end

/-! What a step towards a level leaves. -/

theorem State.steer_up {want : Nat} (more : s.power.level < want) : s.steer want = s.setLevel want := if_pos more

theorem State.steer_down {want : Nat} (less : want < s.power.level) (due : 9 ≤ s.power.sinceDown) :
    s.steer want = s.setLevel (s.power.level - 1) :=
  (if_neg (Nat.lt_asymm less)).trans (if_pos ⟨less, due⟩)

theorem State.steer_stays {want : Nat} (less : want ≤ s.power.level) (early : want < s.power.level → s.power.sinceDown < 9) :
    s.steer want = s :=
  (if_neg (Nat.not_lt.2 less)).trans (if_neg fun both => absurd both.2 (Nat.not_le.2 (early both.1)))

theorem State.steer_level (s : State) (want : Nat) :
    (s.steer want).power.level ≤ max s.power.level want ∧ s.power.level ≤ (s.steer want).power.level + 1 := by
  unfold State.steer
  split
  · rw [State.setLevel_power]
    dsimp only
    omega
  · split
    · rw [State.setLevel_power]
      dsimp only
      omega
    · omega

/-- The state with the fast limit's cause noted. -/
def State.noteFast (s : State) : State :=
  { s with power := { s.power with causes := s.power.causes ||| 32, sinceDown := 0 } }

theorem fastCurrentLimit_runs (on : s.power.on = true) : exec .fastCurrentLimit s = .next (s.setLevel 48).noteFast :=
  congrArg Host.Outcome.next (if_neg (by simp [on]))

/-! Alarms. -/

theorem State.raiseAlarm_keeps {α : Type} (g : PowerSt → α) (blind : ∀ p l, g { p with alarms := l } = g p) (s : State) (a : Nat × Nat) :
    g (s.raiseAlarm a).power = g s.power := by
  unfold State.raiseAlarm
  split
  · rw [State.moduleEvent_power]
    exact blind ..
  · rfl

/-- The state with an alarm noted. -/
def State.noteAlarm (s : State) (a : Nat × Nat) : State := { s with power := { s.power with alarms := s.power.alarms ++ [a] } }

theorem State.raiseAlarm_raised {a : Nat × Nat} (holds : s.alarmHolds a = true) (new : a ∉ s.power.alarms) :
    a ∈ (s.raiseAlarm a).power.alarms ∧ Raises s (s.raiseAlarm a) a.1 [0xFF, a.2, 0] := by
  have run : s.raiseAlarm a = (s.noteAlarm a).moduleEvent a.1 a.2 0 := if_pos (by simp [holds, new])
  have raised := State.raises_moduleEvent (s.noteAlarm a) a.1 a.2 0 []
  rw [run, State.moduleEvent_power]
  exact ⟨List.mem_append_right _ (List.mem_singleton_self a), raised.of_out_eq rfl⟩

theorem State.raiseAlarm_known {a : Nat × Nat} (known : a ∈ s.power.alarms) : s.raiseAlarm a = s := if_neg (by simp [known])

theorem State.raiseAlarm_mem (s : State) (a x : Nat × Nat) (other : x ≠ a) :
    x ∈ (s.raiseAlarm a).power.alarms ↔ x ∈ s.power.alarms := by
  unfold State.raiseAlarm
  split
  · rw [State.moduleEvent_power]
    simp [other]
  · exact Iff.rfl

theorem State.raiseAlarm_stays {a x : Nat × Nat} (inside : x ∈ s.power.alarms) : x ∈ (s.raiseAlarm a).power.alarms := by
  by_cases same : x = a
  · subst same
    rw [State.raiseAlarm_known inside]
    exact inside
  · exact (State.raiseAlarm_mem s a x same).2 inside

/-! A refresh of the sensors. -/

/-- The sensors that a refresh finds failed. -/
def State.newFailed (s : State) (bad : List (Nat × Nat)) : List (Nat × Nat) :=
  (bad.filter fun x => !s.power.failed.contains x).eraseDups

/-- The state with values and failed sensors noted. -/
def State.takeValues (s : State) (values : List (Nat × Int)) (new : List (Nat × Nat)) : State :=
  { s with power := { s.power with
    sensors := values.foldl (fun t p => tset t p.1 p.2) s.power.sensors, failed := s.power.failed ++ new } }

/-- The state with failed sensors told of. -/
def State.tellFailed (s : State) (new : List (Nat × Nat)) : State := forL new s fun x t => t.moduleEvent 0x0B8B x.1 0

/-- Whether no sensor is left behind a value. -/
def State.sensorGone (s : State) (key : Nat) : Bool :=
  decide (sensorsBehind key ≤ (s.power.failed.filter fun x => x.1 == key).length)

/-- A group of values, those without a sensor at the start of the reduction. -/
def State.fillGroup (s : State) (t : Tbl Int) (p : Nat × Nat × Int) : Tbl Int :=
  (List.range p.2.1).foldl (fun u i => if s.sensorGone (entryKey p.1 (i + 1)) then tset u (entryKey p.1 (i + 1)) p.2.2 else u) t

/-- The state with the values that have no sensor left, and the alarms whose condition has ended gone. -/
def State.fillGone (s : State) : State :=
  let sens := [(0x3001, 32, (s.setting 0x3013 0 10000 : Int)), (0x3002, 24, (9200 : Int))].foldl s.fillGroup s.power.sensors
  let t := { s with power := { s.power with sensors := sens } }
  { t with power := { t.power with alarms := t.power.alarms.filter t.alarmHolds } }

/-- The alarms of the compute dies. -/
def State.dieAlarms (s : State) (n : Nat) : State := forN n s fun d t => t.raiseAlarm (0x0B86, d)

/-- The alarm of a stack, and its refresh rate. -/
def State.stackAlarm (s : State) (n : Nat) : State :=
  let t := s.raiseAlarm (0x0B87, n)
  if (t.stack n).hot = decide (8500 < t.sensor 0x3002 (n + 1) 0) then t
  else t.modStack n fun x => { x with hot := decide (8500 < t.sensor 0x3002 (n + 1) 0) }

theorem State.stackAlarm_frame (s : State) (n : Nat) : Change [.out, .host, .mbox, .power, .hbm] s (s.stackAlarm n) := by
  unfold State.stackAlarm
  extract_lets t
  have raised : Change [.out, .host, .mbox, .power, .hbm] s t := Change.refl.tr (State.raiseAlarm_frame s _) (by decide)
  split
  · exact raised
  · exact raised.tr (State.modStack_frame t n _) (by decide)

/-- The alarms of the stacks. -/
def State.stackAlarms (s : State) : State := forN 24 s fun n t => t.stackAlarm n

theorem sensorRefresh_runs (on : s.power.on = true) (values : List (Nat × Int)) (bad : List (Nat × Nat)) :
    exec (.sensorRefresh values bad) s = .next
      ((((s.takeValues values (s.newFailed bad)).tellFailed (s.newFailed bad)).fillGone.dieAlarms 32).stackAlarms) :=
  congrArg Host.Outcome.next ((if_neg (by simp [on])).trans rfl)

theorem State.tellFailed_power (s : State) (new : List (Nat × Nat)) : (s.tellFailed new).power = s.power :=
  forL_keeps State.power _ _ _ fun x t => State.moduleEvent_power t 0x0B8B x.1 0 []

section
variable {α : Type} (g : PowerSt → α) (blind : ∀ p l, g { p with alarms := l } = g p)
include blind

theorem State.dieAlarms_keeps (s : State) (n : Nat) : g (s.dieAlarms n).power = g s.power :=
  forN_keeps (fun t : State => g t.power) _ _ _ fun d t => t.raiseAlarm_keeps g blind (0x0B86, d)

theorem State.stackAlarm_keeps (s : State) (n : Nat) : g (s.stackAlarm n).power = g s.power := by
  unfold State.stackAlarm
  extract_lets t
  split
  · exact s.raiseAlarm_keeps g blind (0x0B87, n)
  · exact s.raiseAlarm_keeps g blind (0x0B87, n)

theorem State.stackAlarms_keeps (s : State) : g s.stackAlarms.power = g s.power :=
  forN_keeps (fun t : State => g t.power) _ _ _ fun n t => t.stackAlarm_keeps g blind n

end

/-- A value with a sensor left stays as it was measured. -/
theorem State.fillGroup_kept {key : Nat} (left : s.sensorGone key = false) (t : Tbl Int) (p : Nat × Nat × Int) :
    tget (s.fillGroup t p) 0 key = tget t 0 key := by
  refine foldl_keeps (g := fun u : Tbl Int => tget u 0 key) (fun u i => ?_) _ t
  split
  case isTrue gone =>
    refine tget_tset_other _ _ _ ?_
    rintro rfl
    exact absurd (left.symm.trans gone) (by decide)
  case isFalse => rfl

theorem State.fillGone_sensor {key : Nat} (left : s.sensorGone key = false) :
    tget s.fillGone.power.sensors 0 key = tget s.power.sensors 0 key :=
  (State.fillGroup_kept left ..).trans (State.fillGroup_kept left ..)

/-! The alarms of a refresh. -/

theorem State.dieAlarms_succ (s : State) (n : Nat) : s.dieAlarms (n + 1) = (s.dieAlarms n).raiseAlarm (0x0B86, n) := forN_succ ..

theorem State.alarmHolds_of {t : State} (dict : t.dict = s.dict) (sensors : t.power.sensors = s.power.sensors) (a : Nat × Nat) :
    t.alarmHolds a = s.alarmHolds a := by
  unfold State.alarmHolds State.sensor State.setting
  rw [dict, sensors]

theorem State.dieAlarms_dict (s : State) (n : Nat) : (s.dieAlarms n).dict = s.dict :=
  forN_keeps State.dict _ _ _ fun d t => (State.raiseAlarm_frame t (0x0B86, d)).frame .dict (by decide)

theorem State.dieAlarms_out (s : State) (n : Nat) : s.out <+: (s.dieAlarms n).out :=
  (Change.forN Change.refl fun d t kept => kept.tr (State.raiseAlarm_frame t _) (by decide) :
    Change [.out, .host, .mbox, .power] s (s.dieAlarms n)).grows

theorem State.dieAlarms_later {d n : Nat} (later : n ≤ d) (new : (0x0B86, d) ∉ s.power.alarms) :
    (0x0B86, d) ∉ (s.dieAlarms n).power.alarms := by
  induction n with
  | zero => exact new
  | succ n ih =>
    rw [State.dieAlarms_succ, State.raiseAlarm_mem]
    · exact ih (by omega)
    · rintro ⟨⟩
      omega

/-- An alarm of a die whose condition holds is raised at the die's turn, and stays. -/
theorem State.dieAlarms_raised {d : Nat} (holds : s.alarmHolds (0x0B86, d) = true) (new : (0x0B86, d) ∉ s.power.alarms) {n : Nat}
    (reached : d < n) : (0x0B86, d) ∈ (s.dieAlarms n).power.alarms ∧ Raises s (s.dieAlarms n) 0x0B86 [0xFF, d, 0] := by
  induction n with
  | zero => omega
  | succ n ih =>
    rw [State.dieAlarms_succ]
    by_cases turn : d = n
    · subst turn
      have same := State.alarmHolds_of (s.dieAlarms_dict d) (s.dieAlarms_keeps PowerSt.sensors (fun _ _ => rfl) d) (0x0B86, d)
      obtain ⟨inside, raised⟩ := State.raiseAlarm_raised (same.trans holds) (State.dieAlarms_later (Nat.le_refl d) new)
      exact ⟨inside, raised.after (s.dieAlarms_out d)⟩
    · obtain ⟨inside, raised⟩ := ih (by omega)
      exact ⟨State.raiseAlarm_stays inside, raised.grow (State.raiseAlarm_frame _ _).grows⟩

theorem State.stackAlarm_stays {x : Nat × Nat} (inside : x ∈ s.power.alarms) (n : Nat) : x ∈ (s.stackAlarm n).power.alarms := by
  have raised := State.raiseAlarm_stays (a := (0x0B87, n)) inside
  unfold State.stackAlarm
  extract_lets t
  split
  · exact raised
  · exact raised

theorem forN_upholds {p : State → Prop} (n : Nat) (f : Nat → State → State) (keeps : ∀ i t, p t → p (f i t)) (start : p s) :
    p (forN n s f) := forL_upholds (List.range n) f keeps start

theorem State.stackAlarms_stays {x : Nat × Nat} (inside : x ∈ s.power.alarms) : x ∈ s.stackAlarms.power.alarms := by
  unfold State.stackAlarms
  exact forN_upholds (p := fun t : State => x ∈ t.power.alarms) 24 (fun n t => t.stackAlarm n)
    (fun n _ held => State.stackAlarm_stays held n) inside

theorem State.stackAlarms_out (s : State) : s.out <+: s.stackAlarms.out :=
  (Change.forN Change.refl fun n t kept => kept.tr (State.stackAlarm_frame t n) (by decide) :
    Change [.out, .host, .mbox, .power, .hbm] s s.stackAlarms).grows

theorem State.fillGone_out (s : State) : s.fillGone.out = s.out := rfl

/-- After a refresh's reports what follows leaves what went out before. -/
theorem State.refreshed_out (s : State) : s.out <+: ((s.fillGone.dieAlarms 32).stackAlarms).out := by
  rw [← s.fillGone_out]
  exact (State.dieAlarms_out _ 32).trans (State.stackAlarms_out _)

theorem sensorsBehind_pos (key : Nat) : 0 < sensorsBehind key := by
  unfold sensorsBehind
  split
  · decide
  · split <;> decide

/-- A value none of whose sensors has failed has one left. -/
theorem State.sensorGone_none {key : Nat} (sound : ∀ x ∈ s.power.failed, x.1 ≠ key) : s.sensorGone key = false := by
  have none : (s.power.failed.filter fun x => x.1 == key) = [] :=
    List.filter_eq_nil_iff.2 fun x inside => by simpa using sound x inside
  unfold State.sensorGone
  rw [none]
  exact decide_eq_false (Nat.not_le.2 (sensorsBehind_pos key))

end

theorem reductionFollowsTheMeasures : ReductionFollowsTheMeasures := by
  refine fun s power current key d v => ⟨fun up active => ⟨fun low above => ?rises, fun some low power' current' die stack =>
      ⟨fun early => ?waits, fun due => ?falls⟩, ?bounded⟩,
    fun none => congrArg Host.Outcome.next (if_pos (.inr (by simp [none]))),
    fun on => ⟨?fast, fun sound => ?measured, fun new => ?failed, fun die sound new hot => ?hot, fun flow new => ?flow,
      fun inlet new => ?inlet, fun known => ?known⟩⟩
  case rises =>
    have run := powerControllerTick_runs up active power current
    have wants := wanted_rises (current := current) low above
    rw [State.tickPower_eq wants] at run
    have more : (s.measurePower power current).power.level < min 48 (s.power.level + 4) :=
      Nat.lt_min.2 ⟨low, Nat.lt_add_of_pos_right (by decide)⟩
    rw [State.steer_up more] at run
    have set := (s.measurePower power current).setLevel_power (min 48 (s.power.level + 4))
    have level : ((s.measurePower power current).setLevel (min 48 (s.power.level + 4))).power.level = min 48 (s.power.level + 4) :=
      congrArg PowerSt.level set
    have since := congrArg PowerSt.sinceDown set
    have sensors := congrArg (fun p : PowerSt => tget p.sensors 0 (entryKey 0x3000 3)) set
    have raised := fun none : s.power.level = 0 =>
      State.setLevel_starts (s := s.measurePower power current) (r := min 48 (s.power.level + 4)) none (by omega)
    refine ⟨_, run, level, State.causesAfter_first (callers_power above) _, ?_, fun none => ?_,
      sensors.trans (s.measurePower_power power current)⟩
    · refine (if_neg ?_).trans (congrArg (fun n => min 9 (n + 1)) since)
      rw [level]
      omega
    · have raised' := raised none
      rw [none] at raised'
      rw [none]
      exact (raised'.of_out_eq (s := s) rfl).grow List.prefix_rfl
  case waits =>
    have run := powerControllerTick_runs up active power current
    rw [State.tickPower_eq (wanted_falls power' current' die stack)] at run
    have stays := State.steer_stays (s := s.measurePower power current) (want := s.power.level - 1) (Nat.sub_le ..) fun _ => early
    rw [stays] at run
    refine ⟨_, run, rfl, (if_neg (Nat.lt_irrefl s.power.level)).trans ?_⟩
    exact Nat.min_eq_right (Nat.succ_le_of_lt early)
  case falls =>
    have run := powerControllerTick_runs up active power current
    rw [State.tickPower_eq (wanted_falls power' current' die stack)] at run
    have less : s.power.level - 1 < s.power.level := by omega
    have falls := State.steer_down (s := s.measurePower power current) less due
    rw [falls] at run
    have level : ((s.measurePower power current).setLevel (s.power.level - 1)).power.level = s.power.level - 1 :=
      congrArg PowerSt.level ((s.measurePower power current).setLevel_power (s.power.level - 1))
    refine ⟨_, run, level, if_pos ?_, fun one => ?_⟩
    · exact (congrArg (· < s.power.level) level).mpr less
    · have raised := State.setLevel_ends (s := s.measurePower power current) (Nat.ne_of_gt some)
      have last : (s.measurePower power current).power.level - 1 = 0 := congrArg (· - 1) one
      rw [last]
      exact (raised.of_out_eq (s := s) rfl).grow List.prefix_rfl
  case bounded =>
    have run := powerControllerTick_runs up active power current
    have bound := wanted_le s.power.level (decide (s.powerStart.1 < power * s.powerStart.2)) (decide (281000 < current))
      (decide ((s.setting 0x3013 0 10000 : Int) < s.hottest 0x3001 32)) (decide (9200 < s.hottest 0x3002 24))
      (decide (power * s.powerStart.2 * 100 < s.powerStart.1 * 97)) (decide (current < 272000))
      (decide (s.hottest 0x3001 32 < (s.setting 0x3013 0 10000 : Int) - 300)) (decide (s.hottest 0x3002 24 < 8900))
    obtain ⟨high, low⟩ := (s.measurePower power current).steer_level
      (wanted s.power.level (s.aboveStart power current) (s.belowEnd power current))
    rw [State.tickPower_eq rfl] at run
    generalize (s.measurePower power current).steer _ = t at run high low
    exact ⟨_, run, Nat.le_trans high (Nat.max_le.2 ⟨Nat.le_max_left .., bound⟩), low⟩
  case fast =>
    have set := s.setLevel_power 48
    refine ⟨_, fastCurrentLimit_runs on, congrArg PowerSt.level set, ?_, fun none => ?_, ?_⟩
    · exact (Nat.testBit_or ..).trans (Bool.or_true _)
    · exact (State.setLevel_starts none (by decide)).grow List.prefix_rfl
    · exact (State.setLevel_frame s 48).frame .berths (by decide)
  case measured =>
    have run := sensorRefresh_runs on [(key, v)] []
    have left : (s.takeValues [(key, v)] []).sensorGone key = false :=
      State.sensorGone_none fun x inside => sound x (by simpa [State.takeValues] using inside)
    refine ⟨_, run, ?_, ?_⟩
    · refine (State.stackAlarms_keeps (fun p => tget p.sensors 0 key) (fun _ _ => rfl) _).trans ?_
      refine (State.dieAlarms_keeps (fun p => tget p.sensors 0 key) (fun _ _ => rfl) _ 32).trans ?_
      exact (State.fillGone_sensor left).trans (tget_tset_self ..)
    · refine (State.stackAlarms_keeps PowerSt.failed (fun _ _ => rfl) _).trans ?_
      refine (State.dieAlarms_keeps PowerSt.failed (fun _ _ => rfl) _ 32).trans ?_
      exact List.append_nil _
  case failed =>
    have run := sensorRefresh_runs on [] [(key, d)]
    have found : s.newFailed [(key, d)] = [(key, d)] := by simp [State.newFailed, new, List.eraseDups_cons]
    rw [found] at run
    have raised := (State.raises_moduleEvent (s.takeValues [] [(key, d)]) 0x0B8B key 0 []).of_out_eq (s := s) rfl
    have told : (s.takeValues [] [(key, d)]).tellFailed [(key, d)] = (s.takeValues [] [(key, d)]).moduleEvent 0x0B8B key 0 := rfl
    rw [← told] at raised
    refine ⟨_, run, ?_, raised.grow (State.refreshed_out _)⟩
    refine (congrArg (fun l : List (Nat × Nat) => (key, d) ∈ l) ?_).mpr (List.mem_append_right s.power.failed (List.mem_singleton_self _))
    refine (State.stackAlarms_keeps PowerSt.failed (fun _ _ => rfl) _).trans ?_
    refine (State.dieAlarms_keeps PowerSt.failed (fun _ _ => rfl) _ 32).trans ?_
    exact congrArg PowerSt.failed (State.tellFailed_power (s.takeValues [] [(key, d)]) [(key, d)])
  case hot =>
    have run := sensorRefresh_runs on [] []
    have none : s.newFailed [] = [] := rfl
    have told : (s.takeValues [] []).tellFailed [] = s.takeValues [] [] := rfl
    rw [none, told] at run
    have left : (s.takeValues [] []).sensorGone (entryKey 0x3001 (d + 1)) = false :=
      State.sensorGone_none fun x inside => by simp [State.takeValues, sound] at inside
    have sensor := State.fillGone_sensor left
    have holds : (s.takeValues [] []).fillGone.alarmHolds (0x0B86, d) = true := by
      refine decide_eq_true ?_
      unfold State.sensor
      rw [sensor]
      exact hot
    have new' : (0x0B86, d) ∉ (s.takeValues [] []).fillGone.power.alarms := fun inside => new (List.mem_filter.1 inside).1
    obtain ⟨inside, raised⟩ := State.dieAlarms_raised holds new' die
    exact ⟨_, run, State.stackAlarms_stays inside, (raised.of_out_eq (s := s) rfl).grow (State.stackAlarms_out _)⟩
  case flow =>
    have holds : s.alarmHolds (0x0B84, 0) = true := decide_eq_true flow
    exact ⟨_, congrArg Host.Outcome.next (if_pos on), State.raiseAlarm_raised holds new⟩
  case inlet =>
    have holds : s.alarmHolds (0x0B85, 0) = true := decide_eq_true inlet
    exact ⟨_, congrArg Host.Outcome.next (if_pos on), State.raiseAlarm_raised holds new⟩
  case known => exact congrArg Host.Outcome.next ((if_pos on).trans (State.raiseAlarm_known known))

/-- Settles O44: protection by what a start clears; a tick's level between what its causes want and one step down; an alarm by
the first raise that finds its condition. -/
theorem powerIsProtectedAndReduced : Obligations.PowerIsProtectedAndReduced := ⟨powerIsProtected, reductionFollowsTheMeasures⟩

end Sys2Proof.Machine
end

section
/-!
The sums of accumulator cells (02 R51, R52, R58, R60).
-/

namespace Sys2Proof.Machine

section
variable {w : Int}

/-! What a product adds, part by part. -/

/-- Whether a product is beyond the cell. -/
def beyondCell (w : Int) (p : Val) : Bool :=
  match p with
  | .fin m e => decide (2 ^ 127 ≤ (truncAt m e w).natAbs)
  | _ => false

/-- A product adds its units to the sum and raises a flag of its own. -/
theorem cellAddVal_eq (c : AccCell) (w : Int) (p : Val) : cellAddVal c w p =
    { sum := c.sum + BitVec.ofInt 152 (cellUnits w p), nan := c.nan || decide (p = .nan), pinf := c.pinf || decide (p = .inf false),
      ninf := c.ninf || decide (p = .inf true), ovf := c.ovf || beyondCell w p } := by
  cases p with
  | fin m e =>
    have added : cellAddVal c w (.fin m e) = if 2 ^ 127 ≤ (truncAt m e w).natAbs then { c with ovf := true }
      else { c with sum := c.sum + BitVec.ofInt 152 (truncAt m e w) } := rfl
    have units : cellUnits w (.fin m e) = if 2 ^ 127 ≤ (truncAt m e w).natAbs then 0 else truncAt m e w := rfl
    have flag : beyondCell w (.fin m e) = decide (2 ^ 127 ≤ (truncAt m e w).natAbs) := rfl
    by_cases beyond : 2 ^ 127 ≤ (truncAt m e w).natAbs
    · rw [added, units, flag, if_pos beyond, if_pos beyond, decide_eq_true beyond]
      simp
    · rw [added, units, flag, if_neg beyond, if_neg beyond, decide_eq_false beyond]
      simp
  | inf neg => cases neg <;> simp [cellAddVal, cellUnits, beyondCell]
  | nan => simp [cellAddVal, cellUnits, beyondCell]
  | zero neg => simp [cellAddVal, cellUnits, beyondCell]

theorem cellAddVal_comm (w : Int) (p q : Val) (c : AccCell) : cellAddVal (cellAddVal c w p) w q = cellAddVal (cellAddVal c w q) w p := by
  simp only [cellAddVal_eq, BitVec.add_assoc, Bool.or_assoc, BitVec.add_comm (BitVec.ofInt 152 (cellUnits w p)),
    Bool.or_comm (decide (p = .nan)), Bool.or_comm (decide (p = .inf false)), Bool.or_comm (decide (p = .inf true)), Bool.or_comm (beyondCell w p)]

theorem cellSum_perm (c : AccCell) (w : Int) {ps qs : List Val} (same : ps.Perm qs) : cellSum c w ps = cellSum c w qs :=
  same.foldl_eq' (fun p _ q _ c => cellAddVal_comm w p q c) c

theorem cellSum_sum (c : AccCell) (w : Int) (ps : List Val) :
    (cellSum c w ps).sum = c.sum + BitVec.ofInt 152 (ps.map (cellUnits w)).sum := by
  induction ps generalizing c with
  | nil => exact (BitVec.add_zero _).symm
  | cons p r ih =>
    refine (ih (cellAddVal c w p)).trans ?_
    rw [cellAddVal_eq, List.map_cons, List.sum_cons, BitVec.ofInt_add, BitVec.add_assoc]

theorem cellSum_ovf (c : AccCell) (w : Int) (ps : List Val) : (cellSum c w ps).ovf = (c.ovf || ps.any (beyondCell w)) := by
  induction ps generalizing c with
  | nil => exact (Bool.or_false _).symm
  | cons p r ih =>
    refine (ih (cellAddVal c w p)).trans ?_
    rw [cellAddVal_eq, List.any_cons, Bool.or_assoc]

theorem any_beyondCell (ps : List Val) :
    ps.any (beyondCell w) = true ↔ ∃ m e, Val.fin m e ∈ ps ∧ 2 ^ 127 ≤ (truncAt m e w).natAbs := by
  rw [List.any_eq_true]
  constructor
  · rintro ⟨p, inside, beyond⟩
    cases p with
    | fin m e => exact ⟨m, e, inside, of_decide_eq_true beyond⟩
    | inf neg => cases beyond
    | nan => cases beyond
    | zero neg => cases beyond
  · rintro ⟨m, e, inside, beyond⟩
    exact ⟨_, inside, decide_eq_true beyond⟩

/-! As many products as a chain may have do not leave the cell's 152 bits. -/

theorem cellUnits_small (w : Int) (p : Val) : (cellUnits w p).natAbs < 2 ^ 127 := by
  cases p with
  | fin m e =>
    unfold cellUnits
    dsimp only
    split
    · decide
    case isFalse within => exact Nat.not_le.1 within
  | inf neg => exact (by decide : 0 < 2 ^ 127)
  | nan => exact (by decide : 0 < 2 ^ 127)
  | zero neg => exact (by decide : 0 < 2 ^ 127)

theorem natAbs_sum_le (w : Int) (ps : List Val) : ((ps.map (cellUnits w)).sum).natAbs ≤ ps.length * 2 ^ 127 := by
  induction ps with
  | nil => exact Nat.zero_le _
  | cons p r ih =>
    have small := cellUnits_small w p
    rw [List.map_cons, List.sum_cons, List.length_cons]
    omega

theorem cellInt_cellSum {c : AccCell} {ps : List Val} (few : ps.length ≤ 16777215) (start : (cellInt c).natAbs < 2 ^ 127) :
    cellInt (cellSum c w ps) = cellInt c + (ps.map (cellUnits w)).sum := by
  have bound := natAbs_sum_le w ps
  have sum : (cellSum c w ps).sum = BitVec.ofInt 152 (cellInt c + (ps.map (cellUnits w)).sum) := by
    rw [cellSum_sum, BitVec.ofInt_add, cellInt, BitVec.ofInt_toInt]
  rw [cellInt, sum]
  have total : ps.length * 2 ^ 127 ≤ 16777215 * 2 ^ 127 := Nat.mul_le_mul_right _ few
  exact BitVec.toInt_ofInt_eq_self (by decide) (by omega) (by omega)

end

/-- Settles O54: a product's part of the sum and of the flags is its own, and 2^24 - 1 products with a start below 2^127 units each
stay within 152 bits. -/
theorem cellSumsNeedNoOrder : Obligations.CellSumsNeedNoOrder := by
  refine fun w c ps qs same => ⟨cellSum_perm c w same, fun few start => ⟨cellInt_cellSum few start, ?_⟩⟩
  rw [cellOut, cellSum_ovf, cellInt_cellSum few start, Bool.or_eq_true, Bool.or_eq_true, any_beyondCell, decide_eq_true_eq, or_assoc]

end Sys2Proof.Machine
end

section
/-!
The stores of an engine to another module's memory (07 R212, 12 R376, R377, R379).
-/

namespace Sys2Proof.Machine

/-! How a range is cut. -/

/-- The size of the first request of what remains of a range: the largest aligned one that fits. -/
def firstCut (a n : Nat) : Option Nat := [64, 32, 16, 8, 4, 2, 1].find? fun z => decide (z ≤ n) && a % z == 0

/-- A request's size divides its address and is within what remains. -/
theorem firstCut_fits {a n z : Nat} (first : firstCut a n = some z) : z ∈ [1, 2, 4, 8, 16, 32, 64] ∧ z ≤ n ∧ a % z = 0 := by
  have held := List.find?_some first
  have listed := List.mem_of_find?_eq_some first
  rw [Bool.and_eq_true, decide_eq_true_eq, beq_iff_eq] at held
  obtain ⟨fits, aligned⟩ := held
  refine ⟨?_, fits, aligned⟩
  simp only [List.mem_cons, List.not_mem_nil, or_false] at listed ⊢
  omega

theorem firstCut_pos {a n z : Nat} (first : firstCut a n = some z) : 0 < z := by
  obtain ⟨size, -, -⟩ := firstCut_fits first
  simp only [List.mem_cons, List.not_mem_nil, or_false] at size
  omega

/-- While bytes remain there is a request: of one byte at least. -/
theorem firstCut_some {a n : Nat} (some : 0 < n) : ∃ z, firstCut a n = .some z := by
  refine Option.isSome_iff_exists.1 (List.find?_isSome.2 ⟨1, by decide, ?_⟩)
  simp only [Nat.mod_one, Nat.succ_le_of_lt some, decide_true, beq_self_eq_true, Bool.and_self]

theorem requestCuts_succ (k a off n : Nat) : requestCuts (k + 1) a off n =
    (firstCut (a + off) n).elim [] fun z => (off, z) :: requestCuts k a (off + z) (n - z) := by
  rw [requestCuts, firstCut]
  cases List.find? _ _ <;> rfl

/-- The bytes of the requests of a range, in order. -/
def cutBytes (l : List (Nat × Nat)) : List Nat := l.flatMap fun p => (List.range p.2).map (p.1 + ·)

theorem requestCuts_cover (k a off n : Nat) (enough : n ≤ k) : cutBytes (requestCuts k a off n) = (List.range n).map (off + ·) := by
  induction k generalizing off n with
  | zero =>
    obtain rfl : n = 0 := by omega
    rfl
  | succ k ih =>
    rw [requestCuts_succ]
    rcases Nat.eq_zero_or_pos n with rfl | some
    · rw [show firstCut (a + off) 0 = none from rfl]
      rfl
    · obtain ⟨z, first⟩ := firstCut_some (a := a + off) some
      obtain ⟨-, fits, -⟩ := firstCut_fits first
      have positive := firstCut_pos first
      have rest := ih (off + z) (n - z) (by omega)
      have split : (List.range n).map (off + ·) = (List.range z).map (off + ·) ++ (List.range (n - z)).map (off + z + ·) := by
        rw [show List.range n = List.range (z + (n - z)) by rw [Nat.add_sub_cancel' fits], List.range_add, List.map_append,
          List.map_map]
        refine congrArg (_ ++ ·) (List.map_congr_left fun i _ => ?_)
        exact (Nat.add_assoc off z i).symm
      rw [first, split, ← rest]
      rfl

theorem requestCuts_aligned (k a off n : Nat) :
    ∀ p ∈ requestCuts k a off n, p.2 ∈ [1, 2, 4, 8, 16, 32, 64] ∧ (a + p.1) % p.2 = 0 := by
  induction k generalizing off n with
  | zero => exact fun p inside => by cases inside
  | succ k ih =>
    rw [requestCuts_succ]
    cases first : firstCut (a + off) n with
    | none => exact fun p inside => by cases inside
    | some z =>
      obtain ⟨size, -, aligned⟩ := firstCut_fits first
      rintro p (_ | ⟨_, later⟩)
      · exact ⟨size, aligned⟩
      · exact ih (off + z) (n - z) p later

section
variable {s : State} {r : ReqSt}

/-! The requests of a store. -/

/-- A request of an engine's unit for the launch and the access that it belongs to. -/
def OfUnit (r q : ReqSt) : Prop := q.unit = r.unit ∧ q.node = r.node ∧ q.access = r.access ∧ q.launch = r.launch

theorem State.sendOnPort_reqs (s : State) (p : Nat) (f : Bytes) : (s.sendOnPort p f).fabric.reqs = s.fabric.reqs :=
  State.sendOnPort_keeps_of (fun t => t.fabric.reqs) (fun _ _ _ => rfl) (fun _ _ => rfl) s p f

theorem State.routeFrame_reqs {f : Bytes} {g : Option Nat} {t : State} (routed : s.routeFrame f g = some t) :
    t.fabric.reqs = s.fabric.reqs := by
  unfold State.routeFrame at routed
  dsimp only at routed
  split at routed
  · cases routed
  · split at routed
    · cases routed
    · cases routed
      exact State.sendOnPort_reqs ..

theorem State.ghostDrop_reqs (s : State) : s.ghostDrop.fabric.reqs = s.fabric.reqs := by
  have told := (State.moduleEvent_frame (s.modFabric fun x => { x with ghost := x.ghost + 1 }) 0x058B 0 0 []).frame .fabric (by decide)
  exact (congrArg FabricSt.reqs told :)

/-- A numbered frame stands among the requests that await an answer, after those before it. -/
theorem State.sendNumbered_reqs (s : State) (r : ReqSt) (kind tc job dstDie pa op : Nat) (payload : Bytes) :
    ∃ q, (s.sendNumbered r kind tc job dstDie pa op payload).fabric.reqs = s.fabric.reqs ++ [q] ∧ OfUnit r q := by
  unfold State.sendNumbered
  extract_lets key seq tag f t
  refine ⟨{ r with seq := seq, tag := tag, frame := f }, ?_, rfl, rfl, rfl, rfl⟩
  split
  · exact State.ghostDrop_reqs t
  · cases routed : t.routeFrame f none with
    | none => rfl
    | some u => exact State.routeFrame_reqs routed

/-- Every part of a store is a request of its unit, and they stand in the order of the parts. -/
theorem State.sendParts_reqs (f : Nat × Nat → State → State)
    (one : ∀ p t, ∃ q, (f p t).fabric.reqs = t.fabric.reqs ++ [q] ∧ OfUnit r q) (l : List (Nat × Nat)) (s : State) :
    ∃ m, (forL l s f).fabric.reqs = s.fabric.reqs ++ m ∧ m.length = l.length ∧ ∀ q ∈ m, OfUnit r q := by
  induction l generalizing s with
  | nil => exact ⟨[], (List.append_nil _).symm, rfl, fun q inside => by cases inside⟩
  | cons p l ih =>
    obtain ⟨q, sent, unit⟩ := one p s
    obtain ⟨m, reqs, length, units⟩ := ih (f p s)
    refine ⟨q :: m, ?_, congrArg Nat.succ length, fun x inside => ?_⟩
    · rw [forL_cons, reqs, sent, List.append_assoc]
      rfl
    · rcases List.mem_cons.1 inside with rfl | later
      · exact unit
      · exact units x later

/-! A store that fails. -/

theorem remoteTimeout_aborts
    (found : s.fabric.reqs.find? (fun x => x.unit == r.unit && x.node == r.node && x.seq == r.seq) = some r) (core : r.unit < 0x200)
    (engine : r.access = 0) : exec (.remoteTimeout r.unit r.node r.seq) s = .next ((s.unasked r).abortLaunch r.launch
      { code := 0x0503, core := r.core, group := r.group, pc := r.pc, info := (hdrOf r.frame).addr }) := by
  refine congrArg Host.Outcome.next ?_
  rw [found]
  exact (if_pos core).trans (if_pos engine)

end

/-- Settles O56: the cuts by what the first covers and the rest; each request stands after those before it; a failed store is an
abort of its launch. -/
theorem engineStoresLeaveAsRequests : Obligations.EngineStoresLeaveAsRequests := by
  refine ⟨fun a n => ⟨?cover, requestCuts_aligned n a 0 n⟩, fun s r pa bs => ?store, fun s r l found core engine launch running => ?fails⟩
  case cover =>
    refine (requestCuts_cover n a 0 n (Nat.le_refl n)).trans ?_
    simp
  case store =>
    obtain ⟨l, reqs, length, units⟩ := State.sendParts_reqs (r := r)
      (fun p t => t.sendRequest r 2 (t.berth r.berth).job (pa + p.1) (Nat.log2 p.2) ((bs.drop p.1).take p.2))
      (fun p t => t.sendNumbered_reqs r ..) (requestCuts bs.length pa 0 bs.length) s
    have kept : Change [.out, .host, .mbox, .fabric] s (s.remoteStore r pa bs) :=
      Change.forL Change.refl fun p t sent => sent.tr (State.sendRequest_frame t r _ _ _ _ _) (by decide)
    exact ⟨l, reqs, length, kept.frame .mem (by decide), units⟩
  case fails =>
    have stopped := State.abortLaunch_launches (s := s.unasked r)
      { code := 0x0503, core := r.core, group := r.group, pc := r.pc, info := (hdrOf r.frame).addr } launch running
    refine ⟨_, _, remoteTimeout_aborts found core engine, (congrArg (tfind · r.launch) stopped).trans (tfind_tset_self ..), rfl, rfl⟩

end Sys2Proof.Machine
end
